-- ==== Sys2Proof/Word.lean ====
section
/-! DEFINITION. The word types of the T45 and the plainest arithmetic over them (R2, R4, R228). -/

namespace Sys2Proof

/-- A general register, a special register or any other 64-bit word (R228). -/
abbrev Word := BitVec 64

/-- A halfword of a code line (R312). -/
abbrev Half := BitVec 16

/-- A code address: a 32-bit physical scratchpad offset (R315). -/
abbrev CodeAddr := BitVec 32

/-- An instant: the low 48 bits of a NOW value (R201). -/
abbrev Instant := BitVec 48

/-- A handle of the lapse table (R204). -/
abbrev Handle := BitVec 16

/-- A context id (R246). -/
abbrev Ctx := BitVec 12

/-- Bits hi..lo of a word, as a number (R2: bit 0 is the least significant). -/
def bitsAt (w hi lo : Nat) : Nat := w / 2 ^ lo % 2 ^ (hi + 1 - lo)

/-- One bit of a number. -/
def bitAt (w i : Nat) : Bool := w / 2 ^ i % 2 == 1

/-- The least number of units of `b` that hold `a`. -/
def ceilDiv (a b : Nat) : Nat := (a + b - 1) / b

/-- A Bool as a number, for the packing of fields. -/
def b2n (b : Bool) : Nat := if b then 1 else 0

end Sys2Proof
end

