-- ==== Sys2Proof/Syntax.lean ====
section
/-! DEFINITION. The syntax of the T45's steps: every row of the opcode table, the instructions with their fields (R317 to R323)
and the hardware's own events (spec file 95). -/

namespace Sys2Proof

/-- The number of a general register (R320). -/
abbrev Reg := BitVec 5
/-- The number of a predicate register. -/
abbrev Pred := BitVec 3
/-- The number of a vector register. -/
abbrev VReg := BitVec 3
/-- The number of a vector mask register. -/
abbrev VMsk := BitVec 2

/-- The guard of a head: PG names p[PG], and PN = 1 executes when p[PG] = 0 (R317, R318). -/
structure Guard where
  pg : BitVec 3
  pn : Bool
  deriving DecidableEq, Repr, Inhabited

/-- The mask part M, MSK of a vector instruction's mode field (R386). -/
structure Mask where
  m : Bool
  msk : VMsk
  deriving DecidableEq, Repr, Inhabited

/-- The b operand of a vector instruction: a vector register, or with SB a broadcast g register (R386). -/
inductive BOp where
  | v (r : VReg)
  | g (r : Reg)
  deriving DecidableEq, Repr, Inhabited

/-- The type codes of R230; code 15 is reserved. -/
inductive Ty where
  | i8 | i16 | i32 | i64 | n8 | n16 | n32 | n64 | bf | hf | sf | df | e4 | e5 | lg
  deriving DecidableEq, Repr, Inhabited

/-- The rounding codes of R230; codes 5 to 7 are reserved. -/
inductive Rnd where
  | rne | rz | rd | ru | rna
  deriving DecidableEq, Repr, Inhabited

/-- The conditions of CMP and CMPI (R339); codes 10 to 15 are reserved. -/
inductive Cond where
  | eq | ne | lt | le | gt | ge | ltn | len | gtn | gen
  deriving DecidableEq, Repr, Inhabited

/-- The conditions of FCMP and VCMP (R390). -/
inductive FCond where
  | eq | ne | lt | le | gt | ge | un | ord
  deriving DecidableEq, Repr, Inhabited

/-- The T45's steps: one constructor for each row of spec/opcode_table.json, in its order. The first 168 are the
instructions of the Larbel set, each with its guard (R318) and the fields of its tail (R319); the rest are the hardware's
own steps (spec file 95), whose Nat arguments say where the step happens and which waiting item it takes. -/
inductive Instr where
  /-- NOP (R322): does nothing and uses the turn. -/
  | nop (gd : Guard)
  /-- ADD (R333): g[d] <- g[a] + g[b]. -/
  | add (gd : Guard) (d a b : Reg)
  /-- SUB (R333). -/
  | sub (gd : Guard) (d a b : Reg)
  /-- MUL (R333): low half of the product. -/
  | mul (gd : Guard) (d a b : Reg)
  /-- MULH (R333): high half, signed. -/
  | mulh (gd : Guard) (d a b : Reg)
  /-- MULHN (R333): high half, unsigned. -/
  | mulhn (gd : Guard) (d a b : Reg)
  /-- DIV (R333, R245). -/
  | div (gd : Guard) (d a b : Reg)
  /-- DIVN (R333, R245). -/
  | divn (gd : Guard) (d a b : Reg)
  /-- REM (R333, R245). -/
  | rem (gd : Guard) (d a b : Reg)
  /-- REMN (R333, R245). -/
  | remn (gd : Guard) (d a b : Reg)
  /-- AND (R333). -/
  | and (gd : Guard) (d a b : Reg)
  /-- OR (R333). -/
  | or (gd : Guard) (d a b : Reg)
  /-- XOR (R333). -/
  | xor (gd : Guard) (d a b : Reg)
  /-- ANDN (R333). -/
  | andn (gd : Guard) (d a b : Reg)
  /-- SHL (R333). -/
  | shl (gd : Guard) (d a b : Reg)
  /-- SHR (R333). -/
  | shr (gd : Guard) (d a b : Reg)
  /-- SRA (R333). -/
  | sra (gd : Guard) (d a b : Reg)
  /-- SHLI (R334): the amount n is s:b. -/
  | shli (gd : Guard) (d a : Reg) (n : BitVec 6)
  /-- SHRI (R334): the amount n is s:b. -/
  | shri (gd : Guard) (d a : Reg) (n : BitVec 6)
  /-- SRAI (R334): the amount n is s:b. -/
  | srai (gd : Guard) (d a : Reg) (n : BitVec 6)
  /-- CLZ (R334). -/
  | clz (gd : Guard) (d a : Reg)
  /-- CTZ (R334). -/
  | ctz (gd : Guard) (d a : Reg)
  /-- POPC (R334). -/
  | popc (gd : Guard) (d a : Reg)
  /-- MIN (R333). -/
  | min (gd : Guard) (d a b : Reg)
  /-- MAX (R333). -/
  | max (gd : Guard) (d a b : Reg)
  /-- MINN (R333). -/
  | minn (gd : Guard) (d a b : Reg)
  /-- MAXN (R333). -/
  | maxn (gd : Guard) (d a b : Reg)
  /-- ADDI (R336). -/
  | addi (gd : Guard) (d a : Reg) (imm : BitVec 22)
  /-- ANDI (R336). -/
  | andi (gd : Guard) (d a : Reg) (imm : BitVec 22)
  /-- ORI (R336). -/
  | ori (gd : Guard) (d a : Reg) (imm : BitVec 22)
  /-- XORI (R336). -/
  | xori (gd : Guard) (d a : Reg) (imm : BitVec 22)
  /-- LI (R336). -/
  | li (gd : Guard) (d : Reg) (imm : BitVec 48)
  /-- LIH (R336). -/
  | lih (gd : Guard) (d a : Reg) (imm : BitVec 16)
  /-- BFX (R337): len1 is the length less one. -/
  | bfx (gd : Guard) (d a : Reg) (pos len1 : BitVec 6)
  /-- BFXS (R337): len1 is the length less one. -/
  | bfxs (gd : Guard) (d a : Reg) (pos len1 : BitVec 6)
  /-- BFI (R337). -/
  | bfi (gd : Guard) (d a b : Reg) (pos len1 : BitVec 6)
  /-- LEA (R338). -/
  | lea (gd : Guard) (d a b : Reg) (sh : BitVec 2) (disp : BitVec 10)
  /-- CMP (R339). -/
  | cmp (gd : Guard) (d : Pred) (a b : Reg) (cc : Cond)
  /-- CMPI (R339). -/
  | cmpi (gd : Guard) (d : Pred) (a : Reg) (cc : Cond) (imm : BitVec 32)
  /-- PLOG (R340). -/
  | plog (gd : Guard) (d a b : Pred) (table : BitVec 4)
  /-- SEL (R340). -/
  | sel (gd : Guard) (d a b : Reg) (c : Pred)
  /-- PSET (R341). -/
  | pset (gd : Guard) (a : Reg)
  /-- PGET (R341). -/
  | pget (gd : Guard) (d : Reg)
  /-- SEXT (R335). -/
  | sext (gd : Guard) (d a : Reg) (n : BitVec 6)
  /-- ZEXT (R335). -/
  | zext (gd : Guard) (d a : Reg) (n : BitVec 6)
  /-- BR (R343). -/
  | br (gd : Guard) (imm : BitVec 22)
  /-- BRR (R343). -/
  | brr (gd : Guard) (a : Reg)
  /-- CALL (R343). -/
  | call (gd : Guard) (d : Reg) (imm : BitVec 22)
  /-- CALLR (R343). -/
  | callr (gd : Guard) (d a : Reg)
  /-- JSEG (R343, R72). -/
  | jseg (gd : Guard) (imm : BitVec 22)
  /-- BTAG (R344). -/
  | btag (gd : Guard) (d a b : Reg) (count : BitVec 12)
  /-- FORK (R346). -/
  | fork (gd : Guard) (a b : Reg) (imm : BitVec 32)
  /-- JOIN (R347). -/
  | join (gd : Guard) (a b : Reg)
  /-- SPAWN (R352). -/
  | spawn (gd : Guard) (a b : Reg) (sh : Bool) (imm : BitVec 32)
  /-- YIELD (R350). -/
  | yield (gd : Guard) (a b : Reg)
  /-- EXIT (R348). -/
  | exit (gd : Guard) (a : Reg)
  /-- WFW (R349). -/
  | wfw (gd : Guard) (d a : Reg)
  /-- SEND (R356). -/
  | send (gd : Guard) (a b : Reg) (n : BitVec 5) (tag : BitVec 12)
  /-- RECV (R357). -/
  | recv (gd : Guard) (d a : Reg) (n : BitVec 5)
  /-- ENQ (R353). -/
  | enq (gd : Guard) (a b c : Reg) (ack : Bool)
  /-- DEQ (R354). -/
  | deq (gd : Guard) (d a c : Reg)
  /-- QRES (R355). -/
  | qres (gd : Guard) (d a b : Reg)
  /-- QPROBE (R358). -/
  | qprobe (gd : Guard) (d a b : Reg)
  /-- LD (R364). -/
  | ld (gd : Guard) (d a : Reg) (sz : BitVec 2) (sgn : Bool) (imm : BitVec 32)
  /-- ST (R364): g[d] is the data. -/
  | st (gd : Guard) (d a : Reg) (sz : BitVec 2) (imm : BitVec 32)
  /-- LDX (R364). -/
  | ldx (gd : Guard) (d a b : Reg) (sz : BitVec 2) (sgn : Bool) (sh : BitVec 2)
  /-- STX (R364). -/
  | stx (gd : Guard) (d a b : Reg) (sz sh : BitVec 2)
  /-- LDF (R365). -/
  | ldf (gd : Guard) (d a : Reg) (sz : BitVec 2) (sgn rlx : Bool) (imm : BitVec 32)
  /-- STF (R365). -/
  | stf (gd : Guard) (d a : Reg) (sz : BitVec 2) (rlx : Bool) (imm : BitVec 32)
  /-- TAKE (R366). -/
  | take (gd : Guard) (d a b : Reg) (sz : BitVec 3) (sgn : Bool)
  /-- PUT (R366). -/
  | put (gd : Guard) (d a b : Reg) (sz : BitVec 3)
  /-- PEEK (R366). -/
  | peek (gd : Guard) (d a b : Reg) (sz : BitVec 3) (sgn : Bool)
  /-- FESET (R368). -/
  | feset (gd : Guard) (a b : Reg) (st : BitVec 2)
  /-- FEGET (R369). -/
  | feget (gd : Guard) (d a : Reg) (o : Bool)
  /-- AMO (R370). -/
  | amo (gd : Guard) (d a b : Reg) (op : BitVec 4) (dbl rlx : Bool)
  /-- CAS (R370): op is ignored (R174). -/
  | cas (gd : Guard) (d a b c : Reg) (op : BitVec 4) (dbl rlx : Bool)
  /-- RED (R370). -/
  | red (gd : Guard) (a b : Reg) (op : BitVec 4) (dbl : Bool)
  /-- WAITC (R371). -/
  | waitc (gd : Guard) (a : Reg) (imm : BitVec 32)
  /-- FENCE (R372). -/
  | fence (gd : Guard) (d a : Reg) (mask : BitVec 8)
  /-- XFENCE (R373). -/
  | xfence (gd : Guard) (a : Reg) (frm tgt : BitVec 8)
  /-- GO (R375). -/
  | go (gd : Guard) (a : Reg)
  /-- BACK (R376). -/
  | back (gd : Guard)
  /-- MLD (R378). -/
  | mld (gd : Guard) (d a : Reg) (sz : BitVec 2) (sgn : Bool) (imm : BitVec 32)
  /-- MST (R378). -/
  | mst (gd : Guard) (d a : Reg) (sz : BitVec 2) (imm : BitVec 32)
  /-- MAMO (R379). -/
  | mamo (gd : Guard) (d a b c : Reg) (op : BitVec 4) (dbl rlx : Bool)
  /-- REMUP (R380). -/
  | remup (gd : Guard) (a b : Reg) (op : BitVec 4) (dbl : Bool)
  /-- TLOOK (R381). -/
  | tlook (gd : Guard) (d a : Reg)
  /-- TINS (R381). -/
  | tins (gd : Guard) (a b : Reg) (fill dirty : Bool)
  /-- TDEL (R381). -/
  | tdel (gd : Guard) (a : Reg) (wide : Bool)
  /-- HND (R431). -/
  | hnd (gd : Guard) (d a : Reg) (left : Bool)
  /-- NARROW (R432). -/
  | narrow (gd : Guard) (a : Reg)
  /-- UNION (R433). -/
  | union (gd : Guard) (d a : Reg) (n : BitVec 7)
  /-- LIVEMASK (R434). -/
  | livemask (gd : Guard) (d a : Reg)
  /-- CANCEL (R435). -/
  | cancel (gd : Guard) (a : Reg)
  /-- ADOPT (R436). -/
  | adopt (gd : Guard) (a : Reg)
  /-- RBEGIN (R438). -/
  | rbegin (gd : Guard) (d a : Reg) (imm : BitVec 22)
  /-- RCOMMIT (R439). -/
  | rcommit (gd : Guard)
  /-- RABORT (R440). -/
  | rabort (gd : Guard)
  /-- RSTAT (R441). -/
  | rstat (gd : Guard) (d : Reg)
  /-- FADD (R389). -/
  | fadd (gd : Guard) (d a b : Reg) (ty : Ty) (rm : Rnd)
  /-- FSUB (R389). -/
  | fsub (gd : Guard) (d a b : Reg) (ty : Ty) (rm : Rnd)
  /-- FMUL (R389). -/
  | fmul (gd : Guard) (d a b : Reg) (ty : Ty) (rm : Rnd)
  /-- FMA (R389). -/
  | fma (gd : Guard) (d a b c : Reg) (ty : Ty) (rm : Rnd)
  /-- FDIV (R389). -/
  | fdiv (gd : Guard) (d a b : Reg) (ty : Ty) (rm : Rnd)
  /-- FSQRT (R389). -/
  | fsqrt (gd : Guard) (d a : Reg) (ty : Ty) (rm : Rnd)
  /-- FRSQ (R389). -/
  | frsq (gd : Guard) (d a : Reg) (ty : Ty) (rm : Rnd)
  /-- FMIN (R389, R244). -/
  | fmin (gd : Guard) (d a b : Reg) (ty : Ty)
  /-- FMAX (R389, R244). -/
  | fmax (gd : Guard) (d a b : Reg) (ty : Ty)
  /-- FCMP (R390). -/
  | fcmp (gd : Guard) (d : Pred) (a b : Reg) (ty : Ty) (fc : FCond)
  /-- FCVT (R391). -/
  | fcvt (gd : Guard) (d a : Reg) (tgt frm : Ty) (rm : Rnd) (sat : Bool)
  /-- FCLASS (R392). -/
  | fclass (gd : Guard) (d a : Reg) (ty : Ty)
  /-- FEXP2 (R389, R243). -/
  | fexp2 (gd : Guard) (d a : Reg) (ty : Ty) (rm : Rnd)
  /-- FLOG2 (R389, R243). -/
  | flog2 (gd : Guard) (d a : Reg) (ty : Ty) (rm : Rnd)
  /-- VLD (R393). -/
  | vld (gd : Guard) (d : VReg) (a : Reg) (esz : BitVec 2) (mk : Mask) (z : Bool) (imm : BitVec 32)
  /-- VST (R393). -/
  | vst (gd : Guard) (d : VReg) (a : Reg) (esz : BitVec 2) (mk : Mask) (imm : BitVec 32)
  /-- VLDS (R394). -/
  | vlds (gd : Guard) (d : VReg) (a b : Reg) (ty : Ty) (mk : Mask) (z : Bool)
  /-- VSTS (R394). -/
  | vsts (gd : Guard) (d : VReg) (a b : Reg) (ty : Ty) (mk : Mask)
  /-- VBCAST (R396). -/
  | vbcast (gd : Guard) (d : VReg) (a : Reg) (ty : Ty) (mk : Mask) (z : Bool)
  /-- VEXT (R396). -/
  | vext (gd : Guard) (d : Reg) (a : VReg) (ty : Ty) (lane : BitVec 6)
  /-- VINS (R396). -/
  | vins (gd : Guard) (d : VReg) (a : Reg) (ty : Ty) (lane : BitVec 6)
  /-- VADD (R398, R399). -/
  | vadd (gd : Guard) (d a : VReg) (b : BOp) (ty : Ty) (rm : Rnd) (mk : Mask) (z : Bool)
  /-- VSUB (R398, R399). -/
  | vsub (gd : Guard) (d a : VReg) (b : BOp) (ty : Ty) (rm : Rnd) (mk : Mask) (z : Bool)
  /-- VMUL (R398, R399). -/
  | vmul (gd : Guard) (d a : VReg) (b : BOp) (ty : Ty) (rm : Rnd) (mk : Mask) (z : Bool)
  /-- VFMA (R398, R399). -/
  | vfma (gd : Guard) (d a : VReg) (b : BOp) (c : VReg) (ty : Ty) (rm : Rnd) (mk : Mask) (z : Bool)
  /-- VMIN (R398, R244). -/
  | vmin (gd : Guard) (d a : VReg) (b : BOp) (ty : Ty) (mk : Mask) (z : Bool)
  /-- VMAX (R398, R244). -/
  | vmax (gd : Guard) (d a : VReg) (b : BOp) (ty : Ty) (mk : Mask) (z : Bool)
  /-- VABS (R398). -/
  | vabs (gd : Guard) (d a : VReg) (ty : Ty) (mk : Mask) (z : Bool)
  /-- VDIV (R398). -/
  | vdiv (gd : Guard) (d a : VReg) (b : BOp) (ty : Ty) (rm : Rnd) (mk : Mask) (z : Bool)
  /-- VSQRT (R398). -/
  | vsqrt (gd : Guard) (d a : VReg) (ty : Ty) (rm : Rnd) (mk : Mask) (z : Bool)
  /-- VRSQ (R398). -/
  | vrsq (gd : Guard) (d a : VReg) (ty : Ty) (rm : Rnd) (mk : Mask) (z : Bool)
  /-- VEXP2 (R398). -/
  | vexp2 (gd : Guard) (d a : VReg) (ty : Ty) (rm : Rnd) (mk : Mask) (z : Bool)
  /-- VLOG2 (R398). -/
  | vlog2 (gd : Guard) (d a : VReg) (ty : Ty) (rm : Rnd) (mk : Mask) (z : Bool)
  /-- VAND (R398). -/
  | vand (gd : Guard) (d a : VReg) (b : BOp) (ty : Ty) (mk : Mask) (z : Bool)
  /-- VOR (R398). -/
  | vor (gd : Guard) (d a : VReg) (b : BOp) (ty : Ty) (mk : Mask) (z : Bool)
  /-- VXOR (R398). -/
  | vxor (gd : Guard) (d a : VReg) (b : BOp) (ty : Ty) (mk : Mask) (z : Bool)
  /-- VSHL (R398). -/
  | vshl (gd : Guard) (d a : VReg) (b : BOp) (ty : Ty) (mk : Mask) (z : Bool)
  /-- VSHR (R398). -/
  | vshr (gd : Guard) (d a : VReg) (b : BOp) (ty : Ty) (mk : Mask) (z : Bool)
  /-- VCMP (R400). -/
  | vcmp (gd : Guard) (d : VMsk) (a : VReg) (b : BOp) (ty : Ty) (fc : FCond) (mk : Mask)
  /-- VSEL (R397). -/
  | vsel (gd : Guard) (d a : VReg) (b : BOp) (c : VMsk) (ty : Ty)
  /-- VCVT (R402). -/
  | vcvt (gd : Guard) (d a : VReg) (tgt frm : Ty) (rm : Rnd) (sat : Bool) (part : BitVec 5)
  /-- VRED (R403). -/
  | vred (gd : Guard) (d : Reg) (a : VReg) (op : BitVec 2) (ty : Ty) (rm : Rnd) (mk : Mask)
  /-- VSCAN (R403). -/
  | vscan (gd : Guard) (d a : VReg) (op : BitVec 2) (ty : Ty) (rm : Rnd) (mk : Mask)
  /-- VPERM (R397). -/
  | vperm (gd : Guard) (d a b : VReg) (ty : Ty) (mk : Mask) (z : Bool)
  /-- VMLOG (R401): a names a mask, or a g register with isG. -/
  | vmlog (gd : Guard) (d : VMsk) (a : BitVec 5) (b : VMsk) (table : BitVec 4) (isG : Bool)
  /-- VMPOP (R401). -/
  | vmpop (gd : Guard) (d : Reg) (a : VMsk) (raw : Bool)
  /-- BARQ (R405). -/
  | barq (gd : Guard) (d a : VReg) (b : Reg) (part : BitVec 2) (ty : Ty) (mk : Mask) (z : Bool)
  /-- OCLAIM (R409). -/
  | oclaim (gd : Guard) (d : Reg)
  /-- OREL (R410). -/
  | orel (gd : Guard) (a : Reg)
  /-- OLD (R411). -/
  | old (gd : Guard) (a b c : Reg) (ty : Ty) (layB : Bool)
  /-- MMA (R412, R413). -/
  | mma (gd : Guard) (a b c : Reg) (zf sc : Bool) (k : BitVec 9)
  /-- ARD (R416). -/
  | ard (gd : Guard) (a b c : Reg) (ty : Ty)
  /-- AWR (R416). -/
  | awr (gd : Guard) (a b c : Reg) (ty : Ty)
  /-- ACLR (R415). -/
  | aclr (gd : Guard) (a : Reg) (kind : BitVec 2)
  /-- MSTAT (R417). -/
  | mstat (gd : Guard) (d a : Reg)
  /-- TBLD (R418). -/
  | tbld (gd : Guard) (a : Reg)
  /-- PUSH of a COPY (R419, R423): engine 1, the die copy distributor, with dist; else engine 0. -/
  | pushCopy (gd : Guard) (a : Reg) (dist : Bool)
  /-- PUSH of a FILL on engine 0 (R419, R424). -/
  | pushFill (gd : Guard) (a : Reg)
  /-- PUSH of a CODE on engine 2 (R419, R425). -/
  | pushCode (gd : Guard) (a : Reg)
  /-- PUSH of a COLL on engine 3 (R419, R426). -/
  | pushColl (gd : Guard) (a : Reg)
  /-- PUSH on engine 4 (R84, R419). -/
  | pushProgram (gd : Guard) (a b : Reg)
  /-- POPC.REC (R421). -/
  | popcRec (gd : Guard) (d a : Reg)
  /-- TRAP (R442). -/
  | trap (gd : Guard) (imm : BitVec 22)
  /-- RTT (R443). -/
  | rtt (gd : Guard)
  /-- MFS (R325, R444). -/
  | mfs (gd : Guard) (d a : Reg) (n : BitVec 8)
  /-- MTS (R325, R444). -/
  | mts (gd : Guard) (a : Reg) (n : BitVec 8)
  /-- RESUME (R446). -/
  | resume (gd : Guard) (d a b : Reg) (key : Bool)
  /-- CSWAP (R445). -/
  | cswap (gd : Guard) (a b : Reg)
  /-- INVTLB (R447). -/
  | invtlb (gd : Guard) (a b : Reg) (scope : BitVec 2)
  /-- ISSUE_TURN (R256): one cycle of a core's rotation; lost says that the issuing access loses a bank in it (R46). -/
  | issueTurn (ep : Nat) (lost : Bool)
  /-- WAIT_TIMEOUT (R260). -/
  | waitTimeout (ep slot : Nat)
  /-- HOST_QUEUE_ENTRY_WRITE (R465): a host write of n bytes at an offset of the entry window. -/
  | hostQueueEntryWrite (pkg off n : Nat) (entry : BitVec 512)
  /-- ENTRY_ADMISSION (R263). -/
  | entryAdmission (pkg q : Nat)
  /-- HOST_CANCEL_WRITE (R468). -/
  | hostCancelWrite (pkg off n : Nat) (w : BitVec 64)
  /-- HOST_DATA_WRITE (R466): n bytes at an aperture offset. -/
  | hostDataWrite (pkg off n data : Nat)
  /-- HOST_DATA_READ (R466). -/
  | hostDataRead (pkg off n : Nat)
  /-- DISPATCH_ENTRY (R264). -/
  | dispatchEntry (pkg : Nat)
  /-- LAUNCH_HEADER_READ (R251). -/
  | launchHeaderRead (pkg k : Nat)
  /-- DISPENSER_EXAMINE (R266): of its k-th packet in examination order. -/
  | dispenserExamine (pkg cl k : Nat)
  /-- FRAME_REENTRY (R275). -/
  | frameReentry (pkg cl k : Nat)
  /-- INSTANT_LAPSE (R205). -/
  | instantLapse (pkg h : Nat)
  /-- LAPSE_BROADCAST_APPLY (R203). -/
  | lapseBroadcastApply (pkg die k : Nat)
  /-- SETTLE_EXPIRY (R222). -/
  | settleExpiry (pkg h : Nat)
  /-- HELD_RECORD_RETRY (R467). -/
  | heldRecordRetry (pkg q : Nat)
  /-- DROP_REPORT (R218). -/
  | dropReport (k : Nat)
  /-- GATEWAY_EGRESS (R208). -/
  | gatewayEgress (k : Nat)
  /-- GATEWAY_INGRESS (R459, R208). -/
  | gatewayIngress (k : Nat)
  /-- EXPORT_NOTICE (R209). -/
  | exportNotice (k : Nat)
  /-- PROXY_REPORT (R209). -/
  | proxyReport (k : Nat)
  /-- CANCEL_PROPAGATION (R209). -/
  | cancelPropagation (k : Nat)
  /-- UNION_CHANGE_PROPAGATION (R209). -/
  | unionChangePropagation (k : Nat)
  /-- FABRIC_INGRESS (R14). -/
  | fabricIngress (k : Nat)
  /-- REPLY_ARRIVAL (R117). -/
  | replyArrival (k : Nat)
  /-- MESSAGE_INJECTION (R119). -/
  | messageInjection (k : Nat)
  /-- MESSAGE_DELIVERY (R120). -/
  | messageDelivery (k : Nat)
  /-- HELD_MESSAGE_RELEASE (R120). -/
  | heldMessageRelease (ep k : Nat)
  /-- REMOTE_ENQ_ARRIVAL (R121). -/
  | remoteEnqArrival (k : Nat)
  /-- QRES_REQUEST_ARRIVAL (R355). -/
  | qresRequestArrival (k : Nat)
  /-- QRES_GRANT_ARRIVAL (R355). -/
  | qresGrantArrival (k : Nat)
  /-- DTL_ENTRY_TIMEOUT (R55). -/
  | dtlEntryTimeout (ep k : Nat)
  /-- DEST_WRITE_QUEUE_WRITE (R137). -/
  | destWriteQueueWrite (ep : Nat)
  /-- TILE_WRITE_QUEUE_WRITE (R137). -/
  | tileWriteQueueWrite (ep : Nat)
  /-- COPY_PIECE_DISPATCH (R124). -/
  | copyPieceDispatch (k : Nat)
  /-- FILL_PATTERN_READ (R424). -/
  | fillPatternRead (k : Nat)
  /-- PIECE_AT_OWNER (R126). -/
  | pieceAtOwner (k : Nat)
  /-- PIECE_AT_RECIPIENT (R126). -/
  | pieceAtRecipient (k : Nat)
  /-- PIECE_REPORT (R126). -/
  | pieceReport (k : Nat)
  /-- CODE_SEGMENT_LANDED (R71). -/
  | codeSegmentLanded (k : Nat)
  /-- CODESEG_WRITE (R74). -/
  | codesegWrite (ep : Nat) (w : BitVec 64)
  /-- PROGRAM_COMMAND_ARRIVAL (R85). -/
  | programCommandArrival (k : Nat)
  /-- PROGRAM_COMMAND_DELIVERY (R84). -/
  | programCommandDelivery (ep : Nat)
  /-- COLL_CHUNK_SEND (R133). -/
  | collChunkSend (pkg k : Nat)
  /-- COLL_CHUNK_ARRIVAL (R134). -/
  | collChunkArrival (k : Nat)
  /-- REDUCTION_BLOCK_DELIVERY (R427). -/
  | reductionBlockDelivery (ep : Nat)
  /-- COLL_PARTICIPANT_FAILURE (R135). -/
  | collParticipantFailure (k : Nat)
  /-- COLL_TIMEOUT (R135). -/
  | collTimeout (pkg k : Nat)
  /-- QPROBE_RETURN (R279). -/
  | qprobeReturn (k : Nat)
  /-- LINE_BUFFER_ACCESS (R82). -/
  | lineBufferAccess (k : Nat)
  /-- LINE_FILL_COMPLETE (R81). -/
  | lineFillComplete (ep k : Nat)
  /-- VICTIM_WRITEBACK (R97): ok says that DRAM took the write, markOk that it took the marker. -/
  | victimWriteback (ep k : Nat) (ok markOk : Bool)
  /-- PATROL_SCRUB_READ (R94). -/
  | patrolScrubRead (ep line : Nat)
  /-- MIRROR_WRITE_APPLY (R98). -/
  | mirrorWriteApply (k : Nat)
  /-- MIRROR_TIMEOUT (R100). -/
  | mirrorTimeout (k : Nat)
  /-- JOIN_BUSY_RETRY (R347). -/
  | joinBusyRetry (ep slot : Nat)
  /-- MIGRANT_ARRIVAL (R87). -/
  | migrantArrival (k : Nat)
  /-- MIGRANT_QUEUE_ADMIT (R87). -/
  | migrantQueueAdmit (ep : Nat)
  /-- MIGRANT_RETURN (R89). -/
  | migrantReturn (k : Nat)
  /-- PAGE_WALK_STEP (R34). -/
  | pageWalkStep (die k : Nat)
  /-- INVTLB_APPLY (R42). -/
  | invtlbApply (pkg die : Nat)
  /-- REGION_BEGIN_REQUEST (R177). -/
  | regionBeginRequest (die k : Nat)
  /-- REGION_ACCESS_EDGES (R186). -/
  | regionAccessEdges (die k : Nat)
  /-- REGION_COMMIT_REQUEST (R178). -/
  | regionCommitRequest (die k : Nat)
  /-- SEAL_AT_OWNER (R190). -/
  | sealAtOwner (die k : Nat)
  /-- SEAL_ACK (R178). -/
  | sealAck (die k : Nat)
  /-- RESOLVE_AT_OWNER (R188). -/
  | resolveAtOwner (die k : Nat)
  /-- RESOLVE_ACK (R178). -/
  | resolveAck (die k : Nat)
  /-- DISCARD_AT_OWNER (R192). -/
  | discardAtOwner (die k : Nat)
  /-- ABORT_DELIVERY (R192). -/
  | abortDelivery (die k : Nat)
  /-- REGION_INSTANT_TEST (R196). -/
  | regionInstantTest (die k : Nat)
  /-- REGION_WAIT_TIMEOUT (R187). -/
  | regionWaitTimeout (die k : Nat)
  /-- BOUNDARY_CLOSE (R105). -/
  | boundaryClose (die r : Nat)
  /-- RECTANGLE_RESET_COMPLETE (R104). -/
  | rectangleResetComplete (die r : Nat)
  /-- CONTAINMENT_RELEASE (R104). -/
  | containmentRelease (die r : Nat)
  /-- AREC_WRITE (R103). -/
  | arecWrite (die r : Nat) (w : BitVec 32)
  /-- OLD_COMPLETE (R411). -/
  | oldComplete (ep : Nat)
  /-- ARD_COMPLETE (R416). -/
  | ardComplete (ep : Nat)
  /-- AWR_COMPLETE (R416). -/
  | awrComplete (ep : Nat)
  /-- MMA_START (R413). -/
  | mmaStart (ep : Nat)
  /-- MMA_K_STEP (R414). -/
  | mmaKStep (ep : Nat)
  /-- ACLR_APPLY (R415). -/
  | aclrApply (ep k : Nat)
  /-- XFENCE_COMPLETE (R145). -/
  | xfenceComplete (ep slot : Nat)
  /-- LINK_FLIT_CRC_FAIL (R109). -/
  | linkFlitCrcFail (pkg port : Nat)
  /-- KBL_FLIT_CRC_FAIL (R463). -/
  | kblFlitCrcFail (pkg : Nat)
  /-- TIME_SYNC_FLIT (R200): the master's time base as the flit gives it. -/
  | timeSyncFlit (pkg : Nat) (master : BitVec 64)
  /-- POWER_GOOD (R474). -/
  | powerGood (pkg : Nat)
  /-- KBL_TRAINED (R474). -/
  | kblTrained (pkg : Nat)
  /-- BOOT_GO (R474). -/
  | bootGo (pkg : Nat)
  /-- BOOT_VERIFY (R477). -/
  | bootVerify (pkg : Nat)
  /-- FIRMWARE_INIT_COMPLETE (R474, R475): the time base, the link tables (package, die, port), bridge registers (offset, value) and DRAM
  tables (PA, bytes, value) that the firmware sets (log 12). -/
  | firmwareInitComplete (pkg : Nat) (now : BitVec 64) (links : List (Nat × Nat × Nat)) (regs : List (Nat × Nat)) (tables : List (Nat × Nat × Nat))
  /-- ATTESTATION_REQUEST (R473). -/
  | attestationRequest (pkg : Nat) (w : BitVec 64)
  /-- ATTESTATION_DONE (R479). -/
  | attestationDone (pkg : Nat)
  /-- COMMIT_WRITE (R470). -/
  | commitWrite (pkg : Nat) (w : BitVec 64)
  /-- COMMIT_COMPLETE (R470). -/
  | commitComplete (pkg : Nat)
  /-- LOSTCLR_WRITE (R469). -/
  | lostclrWrite (pkg : Nat) (w : BitVec 64)
  /-- CHSTAT_WRITE (R471). -/
  | chstatWrite (ep : Nat) (w : BitVec 64)
  /-- ISLCTL_WRITE (R481). -/
  | islctlWrite (pkg isl : Nat) (w : BitVec 32)
  /-- COUNTER_READ_CLEAR (R471): a read of MGDATA at the register MGADDR selects. -/
  | counterReadClear (pkg : Nat)
  /-- EVREAD_WRITE (R472). -/
  | evreadWrite (pkg : Nat) (w : BitVec 64)
  /-- MANAGEMENT_REGISTER_WRITE (R469). -/
  | managementRegisterWrite (pkg off : Nat) (w : BitVec 64)
  /-- EVENT_LOG_PLACE (R472). -/
  | eventLogPlace (pkg k : Nat)
  /-- EVENT_GAP_TIMEOUT (R462). -/
  | eventGapTimeout (pkg : Nat)
  /-- TELEMETRY_SAMPLE (R483): the sampled supply, temperature and 1 ms package power. -/
  | telemetrySample (pkg isl mv temp watts : Nat)
  /-- DROOP_STRETCH_START (R482): the sag in mV. -/
  | droopStretchStart (pkg isl sag : Nat)
  /-- DROOP_STRETCH_END (R482): the sag in mV. -/
  | droopStretchEnd (pkg isl sag : Nat)
  /-- INSTANT_UNIT_REQUEST (R205). -/
  | instantUnitRequest (pkg : Nat)
  /-- EXPORT_NOTICE_ACK (R209). -/
  | exportNoticeAck (k : Nat)
  /-- RESERVATION_RETURN (R355). -/
  | reservationReturn (k : Nat)
  /-- SWAP_IMAGE_WRITTEN (R287). -/
  | swapImageWritten (ep slot : Nat)
  /-- TIME_SYNC_LOST (R200): the estimated error in ns. -/
  | timeSyncLost (pkg err : Nat)
  /-- POWER_LOSS (R474). -/
  | powerLoss (pkg : Nat)
  deriving DecidableEq, Repr, Inhabited

/-- What can stand in the agenda of the domain (log 2): the hardware's own steps, each under the name and with the arguments of its
constructor of Instr. A type of its own, since a list of them is built at every round and compiled code cannot build values of
constructors past the 245th of one type. -/
inductive Ev where
  /-- ISSUE_TURN. -/
  | issueTurn (ep : Nat) (lost : Bool)
  /-- WAIT_TIMEOUT. -/
  | waitTimeout (ep slot : Nat)
  /-- HOST_QUEUE_ENTRY_WRITE. -/
  | hostQueueEntryWrite (pkg off n : Nat) (entry : BitVec 512)
  /-- ENTRY_ADMISSION. -/
  | entryAdmission (pkg q : Nat)
  /-- HOST_CANCEL_WRITE. -/
  | hostCancelWrite (pkg off n : Nat) (w : BitVec 64)
  /-- HOST_DATA_WRITE. -/
  | hostDataWrite (pkg off n data : Nat)
  /-- HOST_DATA_READ. -/
  | hostDataRead (pkg off n : Nat)
  /-- DISPATCH_ENTRY. -/
  | dispatchEntry (pkg : Nat)
  /-- LAUNCH_HEADER_READ. -/
  | launchHeaderRead (pkg k : Nat)
  /-- DISPENSER_EXAMINE. -/
  | dispenserExamine (pkg cl k : Nat)
  /-- FRAME_REENTRY. -/
  | frameReentry (pkg cl k : Nat)
  /-- INSTANT_LAPSE. -/
  | instantLapse (pkg h : Nat)
  /-- LAPSE_BROADCAST_APPLY. -/
  | lapseBroadcastApply (pkg die k : Nat)
  /-- SETTLE_EXPIRY. -/
  | settleExpiry (pkg h : Nat)
  /-- HELD_RECORD_RETRY. -/
  | heldRecordRetry (pkg q : Nat)
  /-- DROP_REPORT. -/
  | dropReport (k : Nat)
  /-- GATEWAY_EGRESS. -/
  | gatewayEgress (k : Nat)
  /-- GATEWAY_INGRESS. -/
  | gatewayIngress (k : Nat)
  /-- EXPORT_NOTICE. -/
  | exportNotice (k : Nat)
  /-- PROXY_REPORT. -/
  | proxyReport (k : Nat)
  /-- CANCEL_PROPAGATION. -/
  | cancelPropagation (k : Nat)
  /-- UNION_CHANGE_PROPAGATION. -/
  | unionChangePropagation (k : Nat)
  /-- FABRIC_INGRESS. -/
  | fabricIngress (k : Nat)
  /-- REPLY_ARRIVAL. -/
  | replyArrival (k : Nat)
  /-- MESSAGE_INJECTION. -/
  | messageInjection (k : Nat)
  /-- MESSAGE_DELIVERY. -/
  | messageDelivery (k : Nat)
  /-- HELD_MESSAGE_RELEASE. -/
  | heldMessageRelease (ep k : Nat)
  /-- REMOTE_ENQ_ARRIVAL. -/
  | remoteEnqArrival (k : Nat)
  /-- QRES_REQUEST_ARRIVAL. -/
  | qresRequestArrival (k : Nat)
  /-- QRES_GRANT_ARRIVAL. -/
  | qresGrantArrival (k : Nat)
  /-- DTL_ENTRY_TIMEOUT. -/
  | dtlEntryTimeout (ep k : Nat)
  /-- DEST_WRITE_QUEUE_WRITE. -/
  | destWriteQueueWrite (ep : Nat)
  /-- TILE_WRITE_QUEUE_WRITE. -/
  | tileWriteQueueWrite (ep : Nat)
  /-- COPY_PIECE_DISPATCH. -/
  | copyPieceDispatch (k : Nat)
  /-- FILL_PATTERN_READ. -/
  | fillPatternRead (k : Nat)
  /-- PIECE_AT_OWNER. -/
  | pieceAtOwner (k : Nat)
  /-- PIECE_AT_RECIPIENT. -/
  | pieceAtRecipient (k : Nat)
  /-- PIECE_REPORT. -/
  | pieceReport (k : Nat)
  /-- CODE_SEGMENT_LANDED. -/
  | codeSegmentLanded (k : Nat)
  /-- CODESEG_WRITE. -/
  | codesegWrite (ep : Nat) (w : BitVec 64)
  /-- PROGRAM_COMMAND_ARRIVAL. -/
  | programCommandArrival (k : Nat)
  /-- PROGRAM_COMMAND_DELIVERY. -/
  | programCommandDelivery (ep : Nat)
  /-- COLL_CHUNK_SEND. -/
  | collChunkSend (pkg k : Nat)
  /-- COLL_CHUNK_ARRIVAL. -/
  | collChunkArrival (k : Nat)
  /-- REDUCTION_BLOCK_DELIVERY. -/
  | reductionBlockDelivery (ep : Nat)
  /-- COLL_PARTICIPANT_FAILURE. -/
  | collParticipantFailure (k : Nat)
  /-- COLL_TIMEOUT. -/
  | collTimeout (pkg k : Nat)
  /-- QPROBE_RETURN. -/
  | qprobeReturn (k : Nat)
  /-- LINE_BUFFER_ACCESS. -/
  | lineBufferAccess (k : Nat)
  /-- LINE_FILL_COMPLETE. -/
  | lineFillComplete (ep k : Nat)
  /-- VICTIM_WRITEBACK. -/
  | victimWriteback (ep k : Nat) (ok markOk : Bool)
  /-- PATROL_SCRUB_READ. -/
  | patrolScrubRead (ep line : Nat)
  /-- MIRROR_WRITE_APPLY. -/
  | mirrorWriteApply (k : Nat)
  /-- MIRROR_TIMEOUT. -/
  | mirrorTimeout (k : Nat)
  /-- JOIN_BUSY_RETRY. -/
  | joinBusyRetry (ep slot : Nat)
  /-- MIGRANT_ARRIVAL. -/
  | migrantArrival (k : Nat)
  /-- MIGRANT_QUEUE_ADMIT. -/
  | migrantQueueAdmit (ep : Nat)
  /-- MIGRANT_RETURN. -/
  | migrantReturn (k : Nat)
  /-- PAGE_WALK_STEP. -/
  | pageWalkStep (die k : Nat)
  /-- INVTLB_APPLY. -/
  | invtlbApply (pkg die : Nat)
  /-- REGION_BEGIN_REQUEST. -/
  | regionBeginRequest (die k : Nat)
  /-- REGION_ACCESS_EDGES. -/
  | regionAccessEdges (die k : Nat)
  /-- REGION_COMMIT_REQUEST. -/
  | regionCommitRequest (die k : Nat)
  /-- SEAL_AT_OWNER. -/
  | sealAtOwner (die k : Nat)
  /-- SEAL_ACK. -/
  | sealAck (die k : Nat)
  /-- RESOLVE_AT_OWNER. -/
  | resolveAtOwner (die k : Nat)
  /-- RESOLVE_ACK. -/
  | resolveAck (die k : Nat)
  /-- DISCARD_AT_OWNER. -/
  | discardAtOwner (die k : Nat)
  /-- ABORT_DELIVERY. -/
  | abortDelivery (die k : Nat)
  /-- REGION_INSTANT_TEST. -/
  | regionInstantTest (die k : Nat)
  /-- REGION_WAIT_TIMEOUT. -/
  | regionWaitTimeout (die k : Nat)
  /-- BOUNDARY_CLOSE. -/
  | boundaryClose (die r : Nat)
  /-- RECTANGLE_RESET_COMPLETE. -/
  | rectangleResetComplete (die r : Nat)
  /-- CONTAINMENT_RELEASE. -/
  | containmentRelease (die r : Nat)
  /-- AREC_WRITE. -/
  | arecWrite (die r : Nat) (w : BitVec 32)
  /-- OLD_COMPLETE. -/
  | oldComplete (ep : Nat)
  /-- ARD_COMPLETE. -/
  | ardComplete (ep : Nat)
  /-- AWR_COMPLETE. -/
  | awrComplete (ep : Nat)
  /-- MMA_START. -/
  | mmaStart (ep : Nat)
  /-- MMA_K_STEP. -/
  | mmaKStep (ep : Nat)
  /-- ACLR_APPLY. -/
  | aclrApply (ep k : Nat)
  /-- XFENCE_COMPLETE. -/
  | xfenceComplete (ep slot : Nat)
  /-- LINK_FLIT_CRC_FAIL. -/
  | linkFlitCrcFail (pkg port : Nat)
  /-- KBL_FLIT_CRC_FAIL. -/
  | kblFlitCrcFail (pkg : Nat)
  /-- TIME_SYNC_FLIT. -/
  | timeSyncFlit (pkg : Nat) (master : BitVec 64)
  /-- POWER_GOOD. -/
  | powerGood (pkg : Nat)
  /-- KBL_TRAINED. -/
  | kblTrained (pkg : Nat)
  /-- BOOT_GO. -/
  | bootGo (pkg : Nat)
  /-- BOOT_VERIFY. -/
  | bootVerify (pkg : Nat)
  /-- FIRMWARE_INIT_COMPLETE. -/
  | firmwareInitComplete (pkg : Nat) (now : BitVec 64) (links : List (Nat × Nat × Nat)) (regs : List (Nat × Nat)) (tables : List (Nat × Nat × Nat))
  /-- ATTESTATION_REQUEST. -/
  | attestationRequest (pkg : Nat) (w : BitVec 64)
  /-- ATTESTATION_DONE. -/
  | attestationDone (pkg : Nat)
  /-- COMMIT_WRITE. -/
  | commitWrite (pkg : Nat) (w : BitVec 64)
  /-- COMMIT_COMPLETE. -/
  | commitComplete (pkg : Nat)
  /-- LOSTCLR_WRITE. -/
  | lostclrWrite (pkg : Nat) (w : BitVec 64)
  /-- CHSTAT_WRITE. -/
  | chstatWrite (ep : Nat) (w : BitVec 64)
  /-- ISLCTL_WRITE. -/
  | islctlWrite (pkg isl : Nat) (w : BitVec 32)
  /-- COUNTER_READ_CLEAR. -/
  | counterReadClear (pkg : Nat)
  /-- EVREAD_WRITE. -/
  | evreadWrite (pkg : Nat) (w : BitVec 64)
  /-- MANAGEMENT_REGISTER_WRITE. -/
  | managementRegisterWrite (pkg off : Nat) (w : BitVec 64)
  /-- EVENT_LOG_PLACE. -/
  | eventLogPlace (pkg k : Nat)
  /-- EVENT_GAP_TIMEOUT. -/
  | eventGapTimeout (pkg : Nat)
  /-- TELEMETRY_SAMPLE. -/
  | telemetrySample (pkg isl mv temp watts : Nat)
  /-- DROOP_STRETCH_START. -/
  | droopStretchStart (pkg isl sag : Nat)
  /-- DROOP_STRETCH_END. -/
  | droopStretchEnd (pkg isl sag : Nat)
  /-- INSTANT_UNIT_REQUEST. -/
  | instantUnitRequest (pkg : Nat)
  /-- EXPORT_NOTICE_ACK. -/
  | exportNoticeAck (k : Nat)
  /-- RESERVATION_RETURN. -/
  | reservationReturn (k : Nat)
  /-- SWAP_IMAGE_WRITTEN. -/
  | swapImageWritten (ep slot : Nat)
  /-- TIME_SYNC_LOST. -/
  | timeSyncLost (pkg err : Nat)
  /-- POWER_LOSS. -/
  | powerLoss (pkg : Nat)
  deriving DecidableEq, Repr, Inhabited

end Sys2Proof
end

