-- ==== Sys2Proof/WellFormed.lean ====
section
/-! DEFINITION. Which instructions a T45 accepts as encoded: the value checks of the encoding that trap with cause 0x02 (R281
check 2) although every field has its place. The check of each field that must be 0 is the decoder's. -/

namespace Sys2Proof

/-- Class F of R385. -/
def Ty.isF : Ty → Bool
  | .bf | .hf | .sf | .df => true
  | _ => false

/-- Class I of R385. -/
def Ty.isI : Ty → Bool
  | .i8 | .i16 | .i32 | .i64 | .n8 | .n16 | .n32 | .n64 => true
  | _ => false

/-- Class Q of R385. -/
def Ty.isQ : Ty → Bool
  | .e4 | .e5 | .lg => true
  | _ => false

/-- The signed integer types. -/
def Ty.isSigned : Ty → Bool
  | .i8 | .i16 | .i32 | .i64 => true
  | _ => false

/-- The width in bits of a value of the type (R226, R228). -/
def Ty.width : Ty → Nat
  | .i8 | .n8 | .e4 | .e5 | .lg => 8
  | .i16 | .n16 | .bf | .hf => 16
  | .i32 | .n32 | .sf => 32
  | .i64 | .n64 | .df => 64

/-- The lanes of a vector register (R228). -/
def Ty.lanes (t : Ty) : Nat := 512 / t.width

/-- The type codes of R230. -/
def Ty.code : Ty → Nat
  | .i8 => 0 | .i16 => 1 | .i32 => 2 | .i64 => 3 | .n8 => 4 | .n16 => 5 | .n32 => 6 | .n64 => 7
  | .bf => 8 | .hf => 9 | .sf => 10 | .df => 11 | .e4 => 12 | .e5 => 13 | .lg => 14

/-- The rounding codes of R230. -/
def Rnd.code : Rnd → Nat
  | .rne => 0 | .rz => 1 | .rd => 2 | .ru => 3 | .rna => 4

/-- The condition codes of R339. -/
def Cond.code : Cond → Nat
  | .eq => 0 | .ne => 1 | .lt => 2 | .le => 3 | .gt => 4 | .ge => 5 | .ltn => 6 | .len => 7 | .gtn => 8 | .gen => 9

/-- The condition codes of R390. -/
def FCond.code : FCond → Nat
  | .eq => 0 | .ne => 1 | .lt => 2 | .le => 3 | .gt => 4 | .ge => 5 | .un => 6 | .ord => 7

/-- The special registers of R325 and whether MTS may write them. -/
def specialNumber (n : Nat) : Bool :=
  n ≤ 0x04 || (0x08 ≤ n && n ≤ 0x19) || n == 0x1B || n == 0x20

/-- The read-only special registers of R325. -/
def specialRO (n : Nat) : Bool :=
  n ≤ 0x04 || n == 0x0F || n == 0x10 || n == 0x12 || n == 0x19 || n == 0x1B || n == 0x20

/-- The guard p0 with PN = 1 is no guard (R318). -/
def Guard.wf (g : Guard) : Bool := !(g.pg == 0 && g.pn)

/-- With M = 0, MSK and Z are 0 (R386). -/
def maskWf (mk : Mask) (z : Bool) : Bool := mk.m || (mk.msk == 0 && !z)

/-- The rounding field of R385, R398: codes 0 to 4 on class F, 0 on class I. -/
def roundWf (ty : Ty) (rm : Rnd) : Bool := ty.isF || (ty.isI && rm == .rne)

/-- The rounding field of FCVT and VCVT (R385). -/
def cvtWf (tgt frm : Ty) (rm : Rnd) : Bool :=
  if tgt == .lg then true
  else if (tgt.isI && frm.isI) || tgt == frm then rm == .rne else true

/-- Sign bits and 16-byte registers of R360 for LD, LDX, LDF and MLD. -/
def loadWf (sz : BitVec 2) (sgn : Bool) : Bool := !(sgn && sz == 3)

/-- The size field of TAKE, PEEK and PUT (R360). -/
def feWf (d : Reg) (sz : BitVec 3) (sgn : Bool) : Bool :=
  sz.toNat ≤ 4 && !(sgn && 3 ≤ sz.toNat) && !(sz.toNat == 4 && d == 31)

/-- The value checks of each instruction's fields (cause 0x02), from its description; an event has no field to check. -/
def wfFields : Instr → Bool
  | .bfx _ _ _ pos len1 | .bfxs _ _ _ pos len1 => pos.toNat + len1.toNat + 1 ≤ 64
  | .bfi _ _ _ _ pos len1 => pos.toNat + len1.toNat + 1 ≤ 64
  | .btag _ _ _ _ count => count != 0
  | .wfw _ d _ => d.toNat ≤ 24
  | .spawn _ a _ _ _ => a.toNat ≤ 28
  | .send _ _ b n _ => n.toNat ≤ 8 && b.toNat + n.toNat ≤ 32 && (n != 0 || b == 0)
  | .recv _ d _ n => n.toNat ≤ 8 && d.toNat + n.toNat ≤ 31
  | .enq _ _ b _ _ => b.toNat ≤ 24
  | .deq _ d _ _ => d.toNat ≤ 24
  | .ld _ _ _ sz sgn _ | .ldx _ _ _ _ sz sgn _ | .ldf _ _ _ sz sgn _ _ | .mld _ _ _ sz sgn _ => loadWf sz sgn
  | .take _ d _ _ sz sgn | .peek _ d _ _ sz sgn => feWf d sz sgn
  | .put _ d _ _ sz => feWf d sz false
  | .feset _ _ _ code => code != 3
  | .amo _ _ _ _ op _ _ => op.toNat ≤ 9
  | .red _ _ _ op _ | .remup _ _ _ op _ => op.toNat ≤ 9
  | .mamo _ _ _ _ c op _ _ => (op.toNat ≤ 9 && c == 0) || op == 15
  | .hnd _ _ a left => !left || a == 0
  | .union _ _ _ n => n.toNat ≥ 1 && n.toNat ≤ 64
  | .fadd _ _ _ _ ty _ | .fsub _ _ _ _ ty _ | .fmul _ _ _ _ ty _ | .fdiv _ _ _ _ ty _ => ty.isF
  | .fma _ _ _ _ _ ty _ => ty.isF
  | .fsqrt _ _ _ ty _ | .frsq _ _ _ ty _ | .fexp2 _ _ _ ty _ | .flog2 _ _ _ ty _ => ty.isF
  | .fmin _ _ _ _ ty | .fmax _ _ _ _ ty => ty.isF
  | .fcmp _ _ _ _ ty _ => ty.isF
  | .fcvt _ _ _ tgt frm rm _ => cvtWf tgt frm rm
  | .fclass _ _ _ ty => ty.isF || ty.isQ
  | .vld _ _ _ esz mk z _ => mk.m || (esz == 0 && mk.msk == 0 && !z)
  | .vst _ _ _ esz mk _ => mk.m || (esz == 0 && mk.msk == 0)
  | .vlds _ _ _ _ _ mk z => maskWf mk z
  | .vsts _ _ _ _ _ mk => maskWf mk false
  | .vbcast _ _ _ _ mk z => maskWf mk z
  | .vext _ _ _ ty lane | .vins _ _ _ ty lane => lane.toNat < ty.lanes
  | .vadd _ _ _ _ ty rm mk z | .vsub _ _ _ _ ty rm mk z | .vmul _ _ _ _ ty rm mk z => roundWf ty rm && maskWf mk z
  | .vfma _ _ _ _ _ ty _ mk z => ty.isF && maskWf mk z
  | .vmin _ _ _ _ ty mk z | .vmax _ _ _ _ ty mk z => (ty.isF || ty.isI) && maskWf mk z
  | .vabs _ _ _ ty mk z => (ty.isF || ty.isI) && maskWf mk z
  | .vdiv _ _ _ _ ty _ mk z => ty.isF && maskWf mk z
  | .vsqrt _ _ _ ty _ mk z | .vrsq _ _ _ ty _ mk z | .vexp2 _ _ _ ty _ mk z | .vlog2 _ _ _ ty _ mk z =>
      ty.isF && maskWf mk z
  | .vand _ _ _ _ _ mk z | .vor _ _ _ _ _ mk z | .vxor _ _ _ _ _ mk z => maskWf mk z
  | .vshl _ _ _ _ ty mk z | .vshr _ _ _ _ ty mk z => ty.isI && maskWf mk z
  | .vcmp _ _ _ _ ty fc mk => (ty.isF || (ty.isI && fc.code ≤ 5)) && maskWf mk false
  | .vcvt _ _ _ tgt frm rm _ part =>
      cvtWf tgt frm rm && part.toNat < max (tgt.width / frm.width) (frm.width / tgt.width)
  | .vred _ _ _ op ty rm mk | .vscan _ _ _ op ty rm mk => roundWf ty rm && (op != 3 || ty.isI) && maskWf mk false
  | .vperm _ _ _ _ _ mk z => maskWf mk z
  | .vmlog _ _ a _ _ isG => isG || a.toNat < 4
  | .barq _ _ _ b part ty mk z => ty.isQ && (ty != .lg || b.toNat ≤ 30) && maskWf mk z && part.toNat ≤ 3
  | .old _ _ _ _ _ _ => true
  | .ard _ _ _ _ ty | .awr _ _ _ _ ty => ty == .df || ty == .sf || ty == .i32
  | .aclr _ _ kind => kind.toNat ≤ 3
  | .pushCopy _ a _ => a.toNat ≤ 24
  | .pushFill _ a | .pushCode _ a | .pushColl _ a => a.toNat ≤ 24
  | .pushProgram _ a _ => a.toNat ≤ 24
  | .popcRec _ d _ => d.toNat ≤ 30
  | .mfs _ _ a n => specialNumber n.toNat && (n == 0x0F || a == 0)
  | .mts _ _ n => specialNumber n.toNat && !specialRO n.toNat
  | .invtlb _ _ _ scope => scope != 3
  | _ => true

end Sys2Proof
end

