-- ==== Sys2Proof/Decode.lean ====
section
/-! DEFINITION. The decoder: lines, heads and tails (R312 to R323), total on any bytes and refusing by name; after it the encoder. -/

namespace Sys2Proof

/-- A field of a tail or head: w bits from bit lo on (R2). -/
def fld (T lo w : Nat) : Nat := T / 2 ^ lo % 2 ^ w

/-- A field as a bit vector. -/
def bv (T lo w : Nat) : BitVec w := BitVec.ofNat w (T / 2 ^ lo)

/-- One bit of a tail. -/
def bt (T lo : Nat) : Bool := T / 2 ^ lo % 2 == 1

/-- A field that must be 0 is 0 (R320). -/
def zr (T lo w : Nat) : Bool := fld T lo w == 0

/-- The type of a code; 15 is none (R230). -/
def ty? : Nat → Option Ty
  | 0 => some .i8 | 1 => some .i16 | 2 => some .i32 | 3 => some .i64 | 4 => some .n8 | 5 => some .n16 | 6 => some .n32
  | 7 => some .n64 | 8 => some .bf | 9 => some .hf | 10 => some .sf | 11 => some .df | 12 => some .e4 | 13 => some .e5
  | 14 => some .lg | _ => none

/-- The rounding mode of a code; 5 to 7 are none (R230). -/
def rnd? : Nat → Option Rnd
  | 0 => some .rne | 1 => some .rz | 2 => some .rd | 3 => some .ru | 4 => some .rna | _ => none

/-- The condition of a code; 10 to 15 are none (R339). -/
def cond? : Nat → Option Cond
  | 0 => some .eq | 1 => some .ne | 2 => some .lt | 3 => some .le | 4 => some .gt | 5 => some .ge | 6 => some .ltn
  | 7 => some .len | 8 => some .gtn | 9 => some .gen | _ => none

/-- The condition of a code; 8 to 15 are none (R390). -/
def fcond? : Nat → Option FCond
  | 0 => some .eq | 1 => some .ne | 2 => some .lt | 3 => some .le | 4 => some .gt | 5 => some .ge | 6 => some .un
  | 7 => some .ord | _ => none

/-- The b operand of a vector instruction: SB selects a g register (R386). -/
def bop? (T : Nat) : Option BOp :=
  if bt T 27 then some (.g (bv T 10 5)) else if zr T 13 2 then some (.v (bv T 10 3)) else none

/-- Why the decoder refuses a head: check 1 or check 2 of R281. -/
inductive DecodeErr where
  /-- the opcode is not in the map (R322): cause 0x01 -/
  | opcode (op : Nat)
  /-- the encoding breaks a rule of R318 to R320 or of the instruction: cause 0x02 -/
  | encoding (head : Nat)
  /-- the line is not well-formed (R314): cause 0x02 with the descriptor -/
  | line (descriptor : Nat)
  deriving DecidableEq, Repr

/-- The tail length in halfwords that the opcode map fixes (R319, R322); none where the map has no such opcode. -/
def tailLen (op : Nat) : Option Nat :=
  if op == 0x000 || op == 0x0C1 || op == 0x0EA || op == 0x1C1 then some 0
  else if op == 0x022 then some 4
  else if op == 0x026 || op == 0x046 || op == 0x048 || op == 0x080 || op == 0x081 || op == 0x084 || op == 0x085 || op == 0x08E
      || op == 0x090 || op == 0x0C2 || op == 0x0C3 || op == 0x140 || op == 0x141 then some 3
  else if op ≤ 0x002 || (0x004 ≤ op && op ≤ 0x00E) || (0x012 ≤ op && op ≤ 0x01E) || (0x029 ≤ op && op ≤ 0x02C) || op == 0x041
      || op == 0x043 || op == 0x047 || (0x049 ≤ op && op ≤ 0x04B) || op == 0x064 || op == 0x065 || op == 0x08A || op == 0x0C0
      || op == 0x0C8 || op == 0x0CA || op == 0x0E0 || op == 0x0E1 || (0x0E3 ≤ op && op ≤ 0x0E5) || op == 0x0E9 || op == 0x0EB
      || op == 0x180 || op == 0x181 || (0x186 ≤ op && op ≤ 0x188) || op == 0x1A1 || op == 0x1C4 || op == 0x1C5 then some 1
  else if op == 0x003 || (0x00F ≤ op && op ≤ 0x011) || (0x01F ≤ op && op ≤ 0x021) || (0x023 ≤ op && op ≤ 0x025) || op == 0x027
      || op == 0x028 || op == 0x040 || op == 0x042 || op == 0x044 || op == 0x045 || (0x060 ≤ op && op ≤ 0x063) || op == 0x082
      || op == 0x083 || (0x086 ≤ op && op ≤ 0x089) || (0x08B ≤ op && op ≤ 0x08D) || op == 0x08F || op == 0x0C4 || op == 0x0C5
      || op == 0x0C9 || op == 0x0E2 || op == 0x0E8 || (0x100 ≤ op && op ≤ 0x10D) || (0x142 ≤ op && op ≤ 0x160)
      || (0x182 ≤ op && op ≤ 0x185) || op == 0x1A0 || op == 0x1C0 || op == 0x1C2 || op == 0x1C3 || op == 0x1C6 then some 2
  else none

/-- The instruction of a tail, opcodes 0x000 to 0x065: integer, control, tasks and queues (13); none where a field that must be 0 is not or a code is reserved. -/
def decodeInt (op T : Nat) (gd : Guard) : Option Instr :=
  match op with
  | 0x000 => some (.nop gd)
  | 0x001 => if zr T 15 1 then some (.add gd (bv T 0 5) (bv T 5 5) (bv T 10 5)) else none
  | 0x002 => if zr T 15 1 then some (.sub gd (bv T 0 5) (bv T 5 5) (bv T 10 5)) else none
  | 0x003 => some (.addi gd (bv T 0 5) (bv T 5 5) (bv T 10 22))
  | 0x004 => if zr T 15 1 then some (.mul gd (bv T 0 5) (bv T 5 5) (bv T 10 5)) else none
  | 0x005 => if zr T 15 1 then some (.mulh gd (bv T 0 5) (bv T 5 5) (bv T 10 5)) else none
  | 0x006 => if zr T 15 1 then some (.mulhn gd (bv T 0 5) (bv T 5 5) (bv T 10 5)) else none
  | 0x007 => if zr T 15 1 then some (.div gd (bv T 0 5) (bv T 5 5) (bv T 10 5)) else none
  | 0x008 => if zr T 15 1 then some (.divn gd (bv T 0 5) (bv T 5 5) (bv T 10 5)) else none
  | 0x009 => if zr T 15 1 then some (.rem gd (bv T 0 5) (bv T 5 5) (bv T 10 5)) else none
  | 0x00A => if zr T 15 1 then some (.remn gd (bv T 0 5) (bv T 5 5) (bv T 10 5)) else none
  | 0x00B => if zr T 15 1 then some (.and gd (bv T 0 5) (bv T 5 5) (bv T 10 5)) else none
  | 0x00C => if zr T 15 1 then some (.or gd (bv T 0 5) (bv T 5 5) (bv T 10 5)) else none
  | 0x00D => if zr T 15 1 then some (.xor gd (bv T 0 5) (bv T 5 5) (bv T 10 5)) else none
  | 0x00E => if zr T 15 1 then some (.andn gd (bv T 0 5) (bv T 5 5) (bv T 10 5)) else none
  | 0x00F => some (.andi gd (bv T 0 5) (bv T 5 5) (bv T 10 22))
  | 0x010 => some (.ori gd (bv T 0 5) (bv T 5 5) (bv T 10 22))
  | 0x011 => some (.xori gd (bv T 0 5) (bv T 5 5) (bv T 10 22))
  | 0x012 => if zr T 15 1 then some (.shl gd (bv T 0 5) (bv T 5 5) (bv T 10 5)) else none
  | 0x013 => if zr T 15 1 then some (.shr gd (bv T 0 5) (bv T 5 5) (bv T 10 5)) else none
  | 0x014 => if zr T 15 1 then some (.sra gd (bv T 0 5) (bv T 5 5) (bv T 10 5)) else none
  | 0x015 => some (.shli gd (bv T 0 5) (bv T 5 5) (bv T 10 6))
  | 0x016 => some (.shri gd (bv T 0 5) (bv T 5 5) (bv T 10 6))
  | 0x017 => some (.srai gd (bv T 0 5) (bv T 5 5) (bv T 10 6))
  | 0x018 => if zr T 10 6 then some (.clz gd (bv T 0 5) (bv T 5 5)) else none
  | 0x019 => if zr T 10 6 then some (.ctz gd (bv T 0 5) (bv T 5 5)) else none
  | 0x01A => if zr T 10 6 then some (.popc gd (bv T 0 5) (bv T 5 5)) else none
  | 0x01B => if zr T 15 1 then some (.min gd (bv T 0 5) (bv T 5 5) (bv T 10 5)) else none
  | 0x01C => if zr T 15 1 then some (.max gd (bv T 0 5) (bv T 5 5) (bv T 10 5)) else none
  | 0x01D => if zr T 15 1 then some (.minn gd (bv T 0 5) (bv T 5 5) (bv T 10 5)) else none
  | 0x01E => if zr T 15 1 then some (.maxn gd (bv T 0 5) (bv T 5 5) (bv T 10 5)) else none
  | 0x01F => if zr T 10 10 then some (.bfx gd (bv T 0 5) (bv T 5 5) (bv T 20 6) (bv T 26 6)) else none
  | 0x020 => if zr T 10 10 then some (.bfxs gd (bv T 0 5) (bv T 5 5) (bv T 20 6) (bv T 26 6)) else none
  | 0x021 => if zr T 15 5 then some (.bfi gd (bv T 0 5) (bv T 5 5) (bv T 10 5) (bv T 20 6) (bv T 26 6)) else none
  | 0x022 => if zr T 5 11 then some (.li gd (bv T 0 5) (bv T 16 48)) else none
  | 0x023 => if zr T 26 6 then some (.lih gd (bv T 0 5) (bv T 5 5) (bv T 10 16)) else none
  | 0x024 => if zr T 15 5 then some (.lea gd (bv T 0 5) (bv T 5 5) (bv T 10 5) (bv T 20 2) (bv T 22 10)) else none
  | 0x025 => if zr T 3 2 && zr T 15 5 && zr T 24 8 then (cond? (fld T 20 4)).bind fun cc => some (.cmp gd (bv T 0 3) (bv T 5 5) (bv T 10 5) cc) else none
  | 0x026 => if zr T 3 2 && zr T 14 2 then (cond? (fld T 10 4)).bind fun cc => some (.cmpi gd (bv T 0 3) (bv T 5 5) cc (bv T 16 32)) else none
  | 0x027 => if zr T 3 2 && zr T 8 2 && zr T 13 7 && zr T 24 8 then some (.plog gd (bv T 0 3) (bv T 5 3) (bv T 10 3) (bv T 20 4)) else none
  | 0x028 => if zr T 18 14 then some (.sel gd (bv T 0 5) (bv T 5 5) (bv T 10 5) (bv T 15 3)) else none
  | 0x029 => if zr T 0 5 && zr T 10 6 then some (.pset gd (bv T 5 5)) else none
  | 0x02A => if zr T 5 11 then some (.pget gd (bv T 0 5)) else none
  | 0x02B => some (.sext gd (bv T 0 5) (bv T 5 5) (bv T 10 6))
  | 0x02C => some (.zext gd (bv T 0 5) (bv T 5 5) (bv T 10 6))
  | 0x040 => if zr T 0 10 then some (.br gd (bv T 10 22)) else none
  | 0x041 => if zr T 0 5 && zr T 10 6 then some (.brr gd (bv T 5 5)) else none
  | 0x042 => if zr T 5 5 then some (.call gd (bv T 0 5) (bv T 10 22)) else none
  | 0x043 => if zr T 10 6 then some (.callr gd (bv T 0 5) (bv T 5 5)) else none
  | 0x044 => if zr T 0 10 then some (.jseg gd (bv T 10 22)) else none
  | 0x045 => if zr T 15 5 then some (.btag gd (bv T 0 5) (bv T 5 5) (bv T 10 5) (bv T 20 12)) else none
  | 0x046 => if zr T 0 5 && zr T 15 1 then some (.fork gd (bv T 5 5) (bv T 10 5) (bv T 16 32)) else none
  | 0x047 => if zr T 0 5 && zr T 15 1 then some (.join gd (bv T 5 5) (bv T 10 5)) else none
  | 0x048 => if zr T 0 5 then some (.spawn gd (bv T 5 5) (bv T 10 5) (bt T 15) (bv T 16 32)) else none
  | 0x049 => if zr T 0 5 && zr T 15 1 then some (.yield gd (bv T 5 5) (bv T 10 5)) else none
  | 0x04A => if zr T 0 5 && zr T 10 6 then some (.exit gd (bv T 5 5)) else none
  | 0x04B => if zr T 10 6 then some (.wfw gd (bv T 0 5) (bv T 5 5)) else none
  | 0x060 => if zr T 0 5 then some (.send gd (bv T 5 5) (bv T 10 5) (bv T 15 5) (bv T 20 12)) else none
  | 0x061 => if zr T 10 5 && zr T 20 12 then some (.recv gd (bv T 0 5) (bv T 5 5) (bv T 15 5)) else none
  | 0x062 => if zr T 0 5 && zr T 21 11 then some (.enq gd (bv T 5 5) (bv T 10 5) (bv T 15 5) (bt T 20)) else none
  | 0x063 => if zr T 10 5 && zr T 20 12 then some (.deq gd (bv T 0 5) (bv T 5 5) (bv T 15 5)) else none
  | 0x064 => if zr T 15 1 then some (.qres gd (bv T 0 5) (bv T 5 5) (bv T 10 5)) else none
  | 0x065 => if zr T 15 1 then some (.qprobe gd (bv T 0 5) (bv T 5 5) (bv T 10 5)) else none
  | _ => none

/-- The instruction of a tail, opcodes 0x080 to 0x0EB: memory, expiry and regions (14, 17); none where a field that must be 0 is not or a code is reserved. -/
def decodeMem (op T : Nat) (gd : Guard) : Option Instr :=
  match op with
  | 0x080 => if zr T 13 3 then some (.ld gd (bv T 0 5) (bv T 5 5) (bv T 10 2) (bt T 12) (bv T 16 32)) else none
  | 0x081 => if zr T 12 4 then some (.st gd (bv T 0 5) (bv T 5 5) (bv T 10 2) (bv T 16 32)) else none
  | 0x082 => if zr T 15 5 && zr T 25 7 then some (.ldx gd (bv T 0 5) (bv T 5 5) (bv T 10 5) (bv T 20 2) (bt T 22) (bv T 23 2)) else none
  | 0x083 => if zr T 15 5 && zr T 22 1 && zr T 25 7 then some (.stx gd (bv T 0 5) (bv T 5 5) (bv T 10 5) (bv T 20 2) (bv T 23 2)) else none
  | 0x084 => if zr T 13 2 then some (.ldf gd (bv T 0 5) (bv T 5 5) (bv T 10 2) (bt T 12) (bt T 15) (bv T 16 32)) else none
  | 0x085 => if zr T 12 3 then some (.stf gd (bv T 0 5) (bv T 5 5) (bv T 10 2) (bt T 15) (bv T 16 32)) else none
  | 0x086 => if zr T 15 5 && zr T 24 8 then some (.take gd (bv T 0 5) (bv T 5 5) (bv T 10 5) (bv T 20 3) (bt T 23)) else none
  | 0x087 => if zr T 15 5 && zr T 23 9 then some (.put gd (bv T 0 5) (bv T 5 5) (bv T 10 5) (bv T 20 3)) else none
  | 0x088 => if zr T 15 5 && zr T 24 8 then some (.peek gd (bv T 0 5) (bv T 5 5) (bv T 10 5) (bv T 20 3) (bt T 23)) else none
  | 0x089 => if zr T 0 5 && zr T 15 5 && zr T 22 10 then some (.feset gd (bv T 5 5) (bv T 10 5) (bv T 20 2)) else none
  | 0x08A => if zr T 10 5 then some (.feget gd (bv T 0 5) (bv T 5 5) (bt T 15)) else none
  | 0x08B => if zr T 15 5 && zr T 26 6 then some (.amo gd (bv T 0 5) (bv T 5 5) (bv T 10 5) (bv T 20 4) (bt T 24) (bt T 25)) else none
  | 0x08C => if zr T 26 6 then some (.cas gd (bv T 0 5) (bv T 5 5) (bv T 10 5) (bv T 15 5) (bv T 20 4) (bt T 24) (bt T 25)) else none
  | 0x08D => if zr T 0 5 && zr T 15 5 && zr T 25 7 then some (.red gd (bv T 5 5) (bv T 10 5) (bv T 20 4) (bt T 24)) else none
  | 0x08E => if zr T 0 5 && zr T 10 6 then some (.waitc gd (bv T 5 5) (bv T 16 32)) else none
  | 0x08F => if zr T 10 10 && zr T 28 4 then some (.fence gd (bv T 0 5) (bv T 5 5) (bv T 20 8)) else none
  | 0x090 => if zr T 0 5 && zr T 10 6 && zr T 32 16 then some (.xfence gd (bv T 5 5) (bv T 16 8) (bv T 24 8)) else none
  | 0x0C0 => if zr T 0 5 && zr T 10 6 then some (.go gd (bv T 5 5)) else none
  | 0x0C1 => some (.back gd)
  | 0x0C2 => if zr T 13 3 then some (.mld gd (bv T 0 5) (bv T 5 5) (bv T 10 2) (bt T 12) (bv T 16 32)) else none
  | 0x0C3 => if zr T 12 4 then some (.mst gd (bv T 0 5) (bv T 5 5) (bv T 10 2) (bv T 16 32)) else none
  | 0x0C4 => if zr T 26 6 then some (.mamo gd (bv T 0 5) (bv T 5 5) (bv T 10 5) (bv T 15 5) (bv T 20 4) (bt T 24) (bt T 25)) else none
  | 0x0C5 => if zr T 0 5 && zr T 15 5 && zr T 25 7 then some (.remup gd (bv T 5 5) (bv T 10 5) (bv T 20 4) (bt T 24)) else none
  | 0x0C8 => if zr T 10 6 then some (.tlook gd (bv T 0 5) (bv T 5 5)) else none
  | 0x0C9 => if zr T 0 5 && zr T 15 5 && zr T 22 10 then some (.tins gd (bv T 5 5) (bv T 10 5) (bt T 20) (bt T 21)) else none
  | 0x0CA => if zr T 0 5 && zr T 10 5 then some (.tdel gd (bv T 5 5) (bt T 15)) else none
  | 0x0E0 => if zr T 10 5 then some (.hnd gd (bv T 0 5) (bv T 5 5) (bt T 15)) else none
  | 0x0E1 => if zr T 0 5 && zr T 10 6 then some (.narrow gd (bv T 5 5)) else none
  | 0x0E2 => if zr T 10 10 && zr T 27 5 then some (.union gd (bv T 0 5) (bv T 5 5) (bv T 20 7)) else none
  | 0x0E3 => if zr T 10 6 then some (.livemask gd (bv T 0 5) (bv T 5 5)) else none
  | 0x0E4 => if zr T 0 5 && zr T 10 6 then some (.cancel gd (bv T 5 5)) else none
  | 0x0E5 => if zr T 0 5 && zr T 10 6 then some (.adopt gd (bv T 5 5)) else none
  | 0x0E8 => some (.rbegin gd (bv T 0 5) (bv T 5 5) (bv T 10 22))
  | 0x0E9 => if zr T 0 16 then some (.rcommit gd) else none
  | 0x0EA => some (.rabort gd)
  | 0x0EB => if zr T 5 11 then some (.rstat gd (bv T 0 5)) else none
  | _ => none

/-- The instruction of a tail, opcodes 0x100 to 0x160: floating point and vector (15); none where a field that must be 0 is not or a code is reserved. -/
def decodeFv (op T : Nat) (gd : Guard) : Option Instr :=
  match op with
  | 0x100 => if zr T 15 5 && zr T 27 5 then (ty? (fld T 20 4)).bind fun ty => (rnd? (fld T 24 3)).bind fun rm => some (.fadd gd (bv T 0 5) (bv T 5 5) (bv T 10 5) ty rm) else none
  | 0x101 => if zr T 15 5 && zr T 27 5 then (ty? (fld T 20 4)).bind fun ty => (rnd? (fld T 24 3)).bind fun rm => some (.fsub gd (bv T 0 5) (bv T 5 5) (bv T 10 5) ty rm) else none
  | 0x102 => if zr T 15 5 && zr T 27 5 then (ty? (fld T 20 4)).bind fun ty => (rnd? (fld T 24 3)).bind fun rm => some (.fmul gd (bv T 0 5) (bv T 5 5) (bv T 10 5) ty rm) else none
  | 0x103 => if zr T 27 5 then (ty? (fld T 20 4)).bind fun ty => (rnd? (fld T 24 3)).bind fun rm => some (.fma gd (bv T 0 5) (bv T 5 5) (bv T 10 5) (bv T 15 5) ty rm) else none
  | 0x104 => if zr T 15 5 && zr T 27 5 then (ty? (fld T 20 4)).bind fun ty => (rnd? (fld T 24 3)).bind fun rm => some (.fdiv gd (bv T 0 5) (bv T 5 5) (bv T 10 5) ty rm) else none
  | 0x105 => if zr T 10 10 && zr T 27 5 then (ty? (fld T 20 4)).bind fun ty => (rnd? (fld T 24 3)).bind fun rm => some (.fsqrt gd (bv T 0 5) (bv T 5 5) ty rm) else none
  | 0x106 => if zr T 10 10 && zr T 27 5 then (ty? (fld T 20 4)).bind fun ty => (rnd? (fld T 24 3)).bind fun rm => some (.frsq gd (bv T 0 5) (bv T 5 5) ty rm) else none
  | 0x107 => if zr T 15 5 && zr T 24 8 then (ty? (fld T 20 4)).bind fun ty => some (.fmin gd (bv T 0 5) (bv T 5 5) (bv T 10 5) ty) else none
  | 0x108 => if zr T 15 5 && zr T 24 8 then (ty? (fld T 20 4)).bind fun ty => some (.fmax gd (bv T 0 5) (bv T 5 5) (bv T 10 5) ty) else none
  | 0x109 => if zr T 3 2 && zr T 15 5 && zr T 24 3 && zr T 31 1 then (ty? (fld T 20 4)).bind fun ty => (fcond? (fld T 27 4)).bind fun fc => some (.fcmp gd (bv T 0 3) (bv T 5 5) (bv T 10 5) ty fc) else none
  | 0x10A => if zr T 10 10 then (ty? (fld T 20 4)).bind fun tgt => (ty? (fld T 24 4)).bind fun frm => (rnd? (fld T 28 3)).bind fun rm => some (.fcvt gd (bv T 0 5) (bv T 5 5) tgt frm rm (bt T 31)) else none
  | 0x10B => if zr T 10 10 && zr T 24 8 then (ty? (fld T 20 4)).bind fun ty => some (.fclass gd (bv T 0 5) (bv T 5 5) ty) else none
  | 0x10C => if zr T 10 10 && zr T 27 5 then (ty? (fld T 20 4)).bind fun ty => (rnd? (fld T 24 3)).bind fun rm => some (.fexp2 gd (bv T 0 5) (bv T 5 5) ty rm) else none
  | 0x10D => if zr T 10 10 && zr T 27 5 then (ty? (fld T 20 4)).bind fun ty => (rnd? (fld T 24 3)).bind fun rm => some (.flog2 gd (bv T 0 5) (bv T 5 5) ty rm) else none
  | 0x140 => if zr T 3 2 then some (.vld gd (bv T 0 3) (bv T 5 5) (bv T 13 2) ⟨bt T 12, bv T 10 2⟩ (bt T 15) (bv T 16 32)) else none
  | 0x141 => if zr T 3 2 && zr T 15 1 then some (.vst gd (bv T 0 3) (bv T 5 5) (bv T 13 2) ⟨bt T 12, bv T 10 2⟩ (bv T 16 32)) else none
  | 0x142 => if zr T 3 2 && zr T 15 5 && zr T 24 4 then (ty? (fld T 20 4)).bind fun ty => some (.vlds gd (bv T 0 3) (bv T 5 5) (bv T 10 5) ty ⟨bt T 31, bv T 29 2⟩ (bt T 28)) else none
  | 0x143 => if zr T 3 2 && zr T 15 5 && zr T 24 5 then (ty? (fld T 20 4)).bind fun ty => some (.vsts gd (bv T 0 3) (bv T 5 5) (bv T 10 5) ty ⟨bt T 31, bv T 29 2⟩) else none
  | 0x144 => if zr T 3 2 && zr T 10 10 && zr T 24 4 then (ty? (fld T 20 4)).bind fun ty => some (.vbcast gd (bv T 0 3) (bv T 5 5) ty ⟨bt T 31, bv T 29 2⟩ (bt T 28)) else none
  | 0x145 => if zr T 8 12 && zr T 30 2 then (ty? (fld T 20 4)).bind fun ty => some (.vext gd (bv T 0 5) (bv T 5 3) ty (bv T 24 6)) else none
  | 0x146 => if zr T 3 2 && zr T 10 10 && zr T 30 2 then (ty? (fld T 20 4)).bind fun ty => some (.vins gd (bv T 0 3) (bv T 5 5) ty (bv T 24 6)) else none
  | 0x147 => if zr T 3 2 && zr T 8 2 && zr T 15 5 then (bop? T).bind fun b => (ty? (fld T 20 4)).bind fun ty => (rnd? (fld T 24 3)).bind fun rm => some (.vadd gd (bv T 0 3) (bv T 5 3) b ty rm ⟨bt T 31, bv T 29 2⟩ (bt T 28)) else none
  | 0x148 => if zr T 3 2 && zr T 8 2 && zr T 15 5 then (bop? T).bind fun b => (ty? (fld T 20 4)).bind fun ty => (rnd? (fld T 24 3)).bind fun rm => some (.vsub gd (bv T 0 3) (bv T 5 3) b ty rm ⟨bt T 31, bv T 29 2⟩ (bt T 28)) else none
  | 0x149 => if zr T 3 2 && zr T 8 2 && zr T 15 5 then (bop? T).bind fun b => (ty? (fld T 20 4)).bind fun ty => (rnd? (fld T 24 3)).bind fun rm => some (.vmul gd (bv T 0 3) (bv T 5 3) b ty rm ⟨bt T 31, bv T 29 2⟩ (bt T 28)) else none
  | 0x14A => if zr T 3 2 && zr T 8 2 && zr T 18 2 then (bop? T).bind fun b => (ty? (fld T 20 4)).bind fun ty => (rnd? (fld T 24 3)).bind fun rm => some (.vfma gd (bv T 0 3) (bv T 5 3) b (bv T 15 3) ty rm ⟨bt T 31, bv T 29 2⟩ (bt T 28)) else none
  | 0x14B => if zr T 3 2 && zr T 8 2 && zr T 15 5 && zr T 24 3 then (bop? T).bind fun b => (ty? (fld T 20 4)).bind fun ty => some (.vmin gd (bv T 0 3) (bv T 5 3) b ty ⟨bt T 31, bv T 29 2⟩ (bt T 28)) else none
  | 0x14C => if zr T 3 2 && zr T 8 2 && zr T 15 5 && zr T 24 3 then (bop? T).bind fun b => (ty? (fld T 20 4)).bind fun ty => some (.vmax gd (bv T 0 3) (bv T 5 3) b ty ⟨bt T 31, bv T 29 2⟩ (bt T 28)) else none
  | 0x14D => if zr T 3 2 && zr T 8 12 && zr T 24 4 then (ty? (fld T 20 4)).bind fun ty => some (.vabs gd (bv T 0 3) (bv T 5 3) ty ⟨bt T 31, bv T 29 2⟩ (bt T 28)) else none
  | 0x14E => if zr T 3 2 && zr T 8 2 && zr T 15 5 then (bop? T).bind fun b => (ty? (fld T 20 4)).bind fun ty => (rnd? (fld T 24 3)).bind fun rm => some (.vdiv gd (bv T 0 3) (bv T 5 3) b ty rm ⟨bt T 31, bv T 29 2⟩ (bt T 28)) else none
  | 0x14F => if zr T 3 2 && zr T 8 12 && zr T 27 1 then (ty? (fld T 20 4)).bind fun ty => (rnd? (fld T 24 3)).bind fun rm => some (.vsqrt gd (bv T 0 3) (bv T 5 3) ty rm ⟨bt T 31, bv T 29 2⟩ (bt T 28)) else none
  | 0x150 => if zr T 3 2 && zr T 8 12 && zr T 27 1 then (ty? (fld T 20 4)).bind fun ty => (rnd? (fld T 24 3)).bind fun rm => some (.vrsq gd (bv T 0 3) (bv T 5 3) ty rm ⟨bt T 31, bv T 29 2⟩ (bt T 28)) else none
  | 0x151 => if zr T 3 2 && zr T 8 12 && zr T 27 1 then (ty? (fld T 20 4)).bind fun ty => (rnd? (fld T 24 3)).bind fun rm => some (.vexp2 gd (bv T 0 3) (bv T 5 3) ty rm ⟨bt T 31, bv T 29 2⟩ (bt T 28)) else none
  | 0x152 => if zr T 3 2 && zr T 8 12 && zr T 27 1 then (ty? (fld T 20 4)).bind fun ty => (rnd? (fld T 24 3)).bind fun rm => some (.vlog2 gd (bv T 0 3) (bv T 5 3) ty rm ⟨bt T 31, bv T 29 2⟩ (bt T 28)) else none
  | 0x153 => if zr T 3 2 && zr T 8 2 && zr T 15 5 && zr T 24 3 then (bop? T).bind fun b => (ty? (fld T 20 4)).bind fun ty => some (.vand gd (bv T 0 3) (bv T 5 3) b ty ⟨bt T 31, bv T 29 2⟩ (bt T 28)) else none
  | 0x154 => if zr T 3 2 && zr T 8 2 && zr T 15 5 && zr T 24 3 then (bop? T).bind fun b => (ty? (fld T 20 4)).bind fun ty => some (.vor gd (bv T 0 3) (bv T 5 3) b ty ⟨bt T 31, bv T 29 2⟩ (bt T 28)) else none
  | 0x155 => if zr T 3 2 && zr T 8 2 && zr T 15 5 && zr T 24 3 then (bop? T).bind fun b => (ty? (fld T 20 4)).bind fun ty => some (.vxor gd (bv T 0 3) (bv T 5 3) b ty ⟨bt T 31, bv T 29 2⟩ (bt T 28)) else none
  | 0x156 => if zr T 3 2 && zr T 8 2 && zr T 15 5 && zr T 24 3 then (bop? T).bind fun b => (ty? (fld T 20 4)).bind fun ty => some (.vshl gd (bv T 0 3) (bv T 5 3) b ty ⟨bt T 31, bv T 29 2⟩ (bt T 28)) else none
  | 0x157 => if zr T 3 2 && zr T 8 2 && zr T 15 5 && zr T 24 3 then (bop? T).bind fun b => (ty? (fld T 20 4)).bind fun ty => some (.vshr gd (bv T 0 3) (bv T 5 3) b ty ⟨bt T 31, bv T 29 2⟩ (bt T 28)) else none
  | 0x158 => if zr T 2 3 && zr T 8 2 && zr T 15 5 && zr T 28 1 then (bop? T).bind fun b => (ty? (fld T 20 4)).bind fun ty => (fcond? (fld T 24 3)).bind fun fc => some (.vcmp gd (bv T 0 2) (bv T 5 3) b ty fc ⟨bt T 31, bv T 29 2⟩) else none
  | 0x159 => if zr T 3 2 && zr T 8 2 && zr T 17 3 && zr T 24 3 && zr T 28 4 then (bop? T).bind fun b => (ty? (fld T 20 4)).bind fun ty => some (.vsel gd (bv T 0 3) (bv T 5 3) b (bv T 15 2) ty) else none
  | 0x15A => if zr T 3 2 && zr T 8 7 then (ty? (fld T 20 4)).bind fun tgt => (ty? (fld T 27 4)).bind fun frm => (rnd? (fld T 24 3)).bind fun rm => some (.vcvt gd (bv T 0 3) (bv T 5 3) tgt frm rm (bt T 31) (bv T 15 5)) else none
  | 0x15B => if zr T 8 12 then (ty? (fld T 20 4)).bind fun ty => (rnd? (fld T 24 3)).bind fun rm => some (.vred gd (bv T 0 5) (bv T 5 3) (bv T 27 2) ty rm ⟨bt T 31, bv T 29 2⟩) else none
  | 0x15C => if zr T 3 2 && zr T 8 12 then (ty? (fld T 20 4)).bind fun ty => (rnd? (fld T 24 3)).bind fun rm => some (.vscan gd (bv T 0 3) (bv T 5 3) (bv T 27 2) ty rm ⟨bt T 31, bv T 29 2⟩) else none
  | 0x15D => if zr T 3 2 && zr T 8 2 && zr T 13 7 && zr T 24 4 then (ty? (fld T 20 4)).bind fun ty => some (.vperm gd (bv T 0 3) (bv T 5 3) (bv T 10 3) ty ⟨bt T 31, bv T 29 2⟩ (bt T 28)) else none
  | 0x15E => if zr T 2 3 && zr T 12 8 && zr T 25 7 then some (.vmlog gd (bv T 0 2) (bv T 5 5) (bv T 10 2) (bv T 20 4) (bt T 24)) else none
  | 0x15F => if zr T 7 13 && zr T 21 11 then some (.vmpop gd (bv T 0 5) (bv T 5 2) (bt T 20)) else none
  | 0x160 => if zr T 3 2 && zr T 8 2 && zr T 17 3 && zr T 24 4 then (ty? (fld T 20 4)).bind fun ty => some (.barq gd (bv T 0 3) (bv T 5 3) (bv T 10 5) (bv T 15 2) ty ⟨bt T 31, bv T 29 2⟩ (bt T 28)) else none
  | _ => none

/-- The instruction of a tail, opcodes 0x180 to 0x1C6: matrix, engines and system (16, 17); none where a field that must be 0 is not or a code is reserved. -/
def decodeSys (op T : Nat) (gd : Guard) : Option Instr :=
  match op with
  | 0x180 => if zr T 5 11 then some (.oclaim gd (bv T 0 5)) else none
  | 0x181 => if zr T 0 5 && zr T 10 6 then some (.orel gd (bv T 5 5)) else none
  | 0x182 => if zr T 0 5 && zr T 25 7 then (ty? (fld T 20 4)).bind fun ty => some (.old gd (bv T 5 5) (bv T 10 5) (bv T 15 5) ty (bt T 24)) else none
  | 0x183 => if zr T 0 5 && zr T 31 1 then some (.mma gd (bv T 5 5) (bv T 10 5) (bv T 15 5) (bt T 20) (bt T 21) (bv T 22 9)) else none
  | 0x184 => if zr T 0 5 && zr T 24 8 then (ty? (fld T 20 4)).bind fun ty => some (.ard gd (bv T 5 5) (bv T 10 5) (bv T 15 5) ty) else none
  | 0x185 => if zr T 0 5 && zr T 24 8 then (ty? (fld T 20 4)).bind fun ty => some (.awr gd (bv T 5 5) (bv T 10 5) (bv T 15 5) ty) else none
  | 0x186 => if zr T 0 5 && zr T 12 4 then some (.aclr gd (bv T 5 5) (bv T 10 2)) else none
  | 0x187 => if zr T 10 6 then some (.mstat gd (bv T 0 5) (bv T 5 5)) else none
  | 0x188 => if zr T 0 5 && zr T 10 6 then some (.tbld gd (bv T 5 5)) else none
  | 0x1A0 => if zr T 0 5 && zr T 15 5 && zr T 24 8 then
      (match fld T 20 4 with
      | 0 => if zr T 10 5 then some (.pushCopy gd (bv T 5 5) false) else none
      | 1 => if zr T 10 5 then some (.pushCopy gd (bv T 5 5) true) else none
      | 2 => if zr T 10 5 then some (.pushCode gd (bv T 5 5)) else none
      | 3 => if zr T 10 5 then some (.pushColl gd (bv T 5 5)) else none
      | 4 => some (.pushProgram gd (bv T 5 5) (bv T 10 5))
      | _ => none) else none
  | 0x1A1 => if zr T 10 6 then some (.popcRec gd (bv T 0 5) (bv T 5 5)) else none
  | 0x1C0 => if zr T 0 10 then some (.trap gd (bv T 10 22)) else none
  | 0x1C1 => some (.rtt gd)
  | 0x1C2 => if zr T 18 14 then some (.mfs gd (bv T 0 5) (bv T 5 5) (bv T 10 8)) else none
  | 0x1C3 => if zr T 0 5 && zr T 18 14 then some (.mts gd (bv T 5 5) (bv T 10 8)) else none
  | 0x1C4 => some (.resume gd (bv T 0 5) (bv T 5 5) (bv T 10 5) (bt T 15))
  | 0x1C5 => if zr T 0 5 && zr T 15 1 then some (.cswap gd (bv T 5 5) (bv T 10 5)) else none
  | 0x1C6 => if zr T 0 5 && zr T 15 5 && zr T 22 10 then some (.invtlb gd (bv T 5 5) (bv T 10 5) (bv T 20 2)) else none
  | _ => none

/-- The fields of a tail under an opcode. A PUSH to engine 0 reads as COPY; which of COPY and FILL it is stands in its command
(R326), and the step settles it. -/
def decodeFields (op T : Nat) (gd : Guard) : Option Instr :=
  if op < 0x080 then decodeInt op T gd
  else if op < 0x100 then decodeMem op T gd
  else if op < 0x180 then decodeFv op T gd
  else decodeSys op T gd

/-- The guard of a head (R317). -/
def guardOf (head : Nat) : Guard := ⟨bv head 10 3, bt head 9⟩

/-- Decode a head and its tail value: opcode, then tail length, guard code, fields and values (R281 checks 1 and 2). -/
def decodeHead (head T : Nat) : Except DecodeErr Instr :=
  match tailLen (fld head 0 9) with
  | none => .error (.opcode (fld head 0 9))
  | some n =>
    if fld head 13 3 == n && (guardOf head).wf then
      match decodeFields (fld head 0 9) T (guardOf head) with
      | some i => if wfFields i then .ok i else .error (.encoding head)
      | none => .error (.encoding head)
    else .error (.encoding head)

/-- A line: its 32 halfwords, halfword 0 the descriptor (R312). -/
abbrev Line := List Half

/-- Halfword h of a line. -/
def hw (l : Line) (h : Nat) : Nat := (l.getD h 0).toNat

/-- N of a line (R312). -/
def lineN (l : Line) : Nat := fld (hw l 0) 11 5

/-- S_i of R313: the tail lengths of heads 1 to i. -/
def tailSum (l : Line) : Nat → Nat
  | 0 => 0
  | i + 1 => tailSum l i + fld (hw l (i + 1)) 13 3

/-- Every head from 1 to i has TL at most 4 (R314). -/
def tailsOk (l : Line) : Nat → Bool
  | 0 => true
  | i + 1 => tailsOk l i && decide (fld (hw l (i + 1)) 13 3 ≤ 4)

/-- A well-formed line (R314). -/
def lineOk (l : Line) : Bool :=
  1 ≤ lineN l && zr (hw l 0) 0 11 && tailsOk l (lineN l) && decide (1 + lineN l + tailSum l (lineN l) ≤ 32)

/-- The tail value of n halfwords from halfword h on (R313). -/
def tailVal (l : Line) (h : Nat) : Nat → Nat
  | 0 => 0
  | n + 1 => tailVal l h n + hw l (h + n) * 2 ^ (16 * n)

/-- The tail value T of head h of a well-formed line (R313). -/
def tailOf (l : Line) (h : Nat) : Nat := tailVal l (32 - tailSum l h) (fld (hw l h) 13 3)

/-- Decode head h of a line. -/
def decodeAt (l : Line) (h : Nat) : Except DecodeErr Instr :=
  if lineOk l then
    if 1 ≤ h && h ≤ lineN l then decodeHead (hw l h) (tailOf l h) else .error (.line (hw l 0))
  else .error (.line (hw l 0))

/-- The halfwords of a line's bytes (R2, R312). -/
def lineOfBytes : List (BitVec 8) → Line
  | a :: b :: rest => BitVec.ofNat 16 (a.toNat + 256 * b.toNat) :: lineOfBytes rest
  | _ => []

/-- Decode any bytes as a line and its head h; bytes that are missing read as 0. -/
def decodeBytes (bs : List (BitVec 8)) (h : Nat) : Except DecodeErr Instr := decodeAt (lineOfBytes bs) h

/-- A line of one head, with its tail in the last halfwords. -/
def oneHeadLine (head T : Nat) : Line :=
  let n := fld head 13 3
  (BitVec.ofNat 16 0x0800) :: (BitVec.ofNat 16 head) :: (List.replicate (30 - n) 0)
    ++ (List.range n).map (fun t => BitVec.ofNat 16 (T / 2 ^ (16 * t)))

/-- The instruction that the decoder reads from a word of the opcode table: its head stands in the word's upper 16 bits, its
tail's halfword 0 in the lower 16 bits where the word has 32, and the tail's other halfwords are 0. -/
def decodeTableWord (nbits w : Nat) : Option Instr :=
  match decodeAt (oneHeadLine (fld w (nbits - 16) 16) (fld w 0 (nbits - 16))) 1 with
  | .ok i => some i
  | .error _ => none

/-- A field's value at its place. -/
def shl (v lo : Nat) : Nat := v * 2 ^ lo

/-- A head (R317). -/
def hd (tl : Nat) (gd : Guard) (op : Nat) : Nat := op + gd.pn.toNat * 2 ^ 9 + gd.pg.toNat * 2 ^ 10 + tl * 2 ^ 13

/-- The SB and b fields of an operand (R386). -/
def encB : BOp → Nat
  | .v r => r.toNat * 2 ^ 10
  | .g r => 2 ^ 27 + r.toNat * 2 ^ 10

/-- The head and tail value of an instruction, from the layouts of R319 and the fields of the instruction chapters. An event has
none. -/
def encode : Instr → Nat × Nat
  | .nop gd => (hd 0 gd 0x000, 0)
  | .add gd d a b => (hd 1 gd 0x001, d.toNat + shl (a.toNat) 5 + shl (b.toNat) 10)
  | .sub gd d a b => (hd 1 gd 0x002, d.toNat + shl (a.toNat) 5 + shl (b.toNat) 10)
  | .mul gd d a b => (hd 1 gd 0x004, d.toNat + shl (a.toNat) 5 + shl (b.toNat) 10)
  | .mulh gd d a b => (hd 1 gd 0x005, d.toNat + shl (a.toNat) 5 + shl (b.toNat) 10)
  | .mulhn gd d a b => (hd 1 gd 0x006, d.toNat + shl (a.toNat) 5 + shl (b.toNat) 10)
  | .div gd d a b => (hd 1 gd 0x007, d.toNat + shl (a.toNat) 5 + shl (b.toNat) 10)
  | .divn gd d a b => (hd 1 gd 0x008, d.toNat + shl (a.toNat) 5 + shl (b.toNat) 10)
  | .rem gd d a b => (hd 1 gd 0x009, d.toNat + shl (a.toNat) 5 + shl (b.toNat) 10)
  | .remn gd d a b => (hd 1 gd 0x00A, d.toNat + shl (a.toNat) 5 + shl (b.toNat) 10)
  | .and gd d a b => (hd 1 gd 0x00B, d.toNat + shl (a.toNat) 5 + shl (b.toNat) 10)
  | .or gd d a b => (hd 1 gd 0x00C, d.toNat + shl (a.toNat) 5 + shl (b.toNat) 10)
  | .xor gd d a b => (hd 1 gd 0x00D, d.toNat + shl (a.toNat) 5 + shl (b.toNat) 10)
  | .andn gd d a b => (hd 1 gd 0x00E, d.toNat + shl (a.toNat) 5 + shl (b.toNat) 10)
  | .shl gd d a b => (hd 1 gd 0x012, d.toNat + shl (a.toNat) 5 + shl (b.toNat) 10)
  | .shr gd d a b => (hd 1 gd 0x013, d.toNat + shl (a.toNat) 5 + shl (b.toNat) 10)
  | .sra gd d a b => (hd 1 gd 0x014, d.toNat + shl (a.toNat) 5 + shl (b.toNat) 10)
  | .shli gd d a n => (hd 1 gd 0x015, d.toNat + shl (a.toNat) 5 + shl (n.toNat) 10)
  | .shri gd d a n => (hd 1 gd 0x016, d.toNat + shl (a.toNat) 5 + shl (n.toNat) 10)
  | .srai gd d a n => (hd 1 gd 0x017, d.toNat + shl (a.toNat) 5 + shl (n.toNat) 10)
  | .clz gd d a => (hd 1 gd 0x018, d.toNat + shl (a.toNat) 5)
  | .ctz gd d a => (hd 1 gd 0x019, d.toNat + shl (a.toNat) 5)
  | .popc gd d a => (hd 1 gd 0x01A, d.toNat + shl (a.toNat) 5)
  | .min gd d a b => (hd 1 gd 0x01B, d.toNat + shl (a.toNat) 5 + shl (b.toNat) 10)
  | .max gd d a b => (hd 1 gd 0x01C, d.toNat + shl (a.toNat) 5 + shl (b.toNat) 10)
  | .minn gd d a b => (hd 1 gd 0x01D, d.toNat + shl (a.toNat) 5 + shl (b.toNat) 10)
  | .maxn gd d a b => (hd 1 gd 0x01E, d.toNat + shl (a.toNat) 5 + shl (b.toNat) 10)
  | .addi gd d a imm => (hd 2 gd 0x003, d.toNat + shl (a.toNat) 5 + shl (imm.toNat) 10)
  | .andi gd d a imm => (hd 2 gd 0x00F, d.toNat + shl (a.toNat) 5 + shl (imm.toNat) 10)
  | .ori gd d a imm => (hd 2 gd 0x010, d.toNat + shl (a.toNat) 5 + shl (imm.toNat) 10)
  | .xori gd d a imm => (hd 2 gd 0x011, d.toNat + shl (a.toNat) 5 + shl (imm.toNat) 10)
  | .li gd d imm => (hd 4 gd 0x022, d.toNat + shl (imm.toNat) 16)
  | .lih gd d a imm => (hd 2 gd 0x023, d.toNat + shl (a.toNat) 5 + shl (imm.toNat) 10)
  | .bfx gd d a pos len1 => (hd 2 gd 0x01F, d.toNat + shl (a.toNat) 5 + shl (pos.toNat) 20 + shl (len1.toNat) 26)
  | .bfxs gd d a pos len1 => (hd 2 gd 0x020, d.toNat + shl (a.toNat) 5 + shl (pos.toNat) 20 + shl (len1.toNat) 26)
  | .bfi gd d a b pos len1 => (hd 2 gd 0x021, d.toNat + shl (a.toNat) 5 + shl (b.toNat) 10 + shl (pos.toNat) 20 + shl (len1.toNat) 26)
  | .lea gd d a b sh disp => (hd 2 gd 0x024, d.toNat + shl (a.toNat) 5 + shl (b.toNat) 10 + shl (sh.toNat) 20 + shl (disp.toNat) 22)
  | .cmp gd d a b cc => (hd 2 gd 0x025, d.toNat + shl (a.toNat) 5 + shl (b.toNat) 10 + shl (cc.code) 20)
  | .cmpi gd d a cc imm => (hd 3 gd 0x026, d.toNat + shl (a.toNat) 5 + shl (cc.code) 10 + shl (imm.toNat) 16)
  | .plog gd d a b table => (hd 2 gd 0x027, d.toNat + shl (a.toNat) 5 + shl (b.toNat) 10 + shl (table.toNat) 20)
  | .sel gd d a b c => (hd 2 gd 0x028, d.toNat + shl (a.toNat) 5 + shl (b.toNat) 10 + shl (c.toNat) 15)
  | .pset gd a => (hd 1 gd 0x029, shl (a.toNat) 5)
  | .pget gd d => (hd 1 gd 0x02A, d.toNat)
  | .sext gd d a n => (hd 1 gd 0x02B, d.toNat + shl (a.toNat) 5 + shl (n.toNat) 10)
  | .zext gd d a n => (hd 1 gd 0x02C, d.toNat + shl (a.toNat) 5 + shl (n.toNat) 10)
  | .br gd imm => (hd 2 gd 0x040, shl (imm.toNat) 10)
  | .brr gd a => (hd 1 gd 0x041, shl (a.toNat) 5)
  | .call gd d imm => (hd 2 gd 0x042, d.toNat + shl (imm.toNat) 10)
  | .callr gd d a => (hd 1 gd 0x043, d.toNat + shl (a.toNat) 5)
  | .jseg gd imm => (hd 2 gd 0x044, shl (imm.toNat) 10)
  | .btag gd d a b count => (hd 2 gd 0x045, d.toNat + shl (a.toNat) 5 + shl (b.toNat) 10 + shl (count.toNat) 20)
  | .fork gd a b imm => (hd 3 gd 0x046, shl (a.toNat) 5 + shl (b.toNat) 10 + shl (imm.toNat) 16)
  | .join gd a b => (hd 1 gd 0x047, shl (a.toNat) 5 + shl (b.toNat) 10)
  | .spawn gd a b sh imm => (hd 3 gd 0x048, shl (a.toNat) 5 + shl (b.toNat) 10 + shl (sh.toNat) 15 + shl (imm.toNat) 16)
  | .yield gd a b => (hd 1 gd 0x049, shl (a.toNat) 5 + shl (b.toNat) 10)
  | .exit gd a => (hd 1 gd 0x04A, shl (a.toNat) 5)
  | .wfw gd d a => (hd 1 gd 0x04B, d.toNat + shl (a.toNat) 5)
  | .send gd a b n tag => (hd 2 gd 0x060, shl (a.toNat) 5 + shl (b.toNat) 10 + shl (n.toNat) 15 + shl (tag.toNat) 20)
  | .recv gd d a n => (hd 2 gd 0x061, d.toNat + shl (a.toNat) 5 + shl (n.toNat) 15)
  | .enq gd a b c ack => (hd 2 gd 0x062, shl (a.toNat) 5 + shl (b.toNat) 10 + shl (c.toNat) 15 + shl (ack.toNat) 20)
  | .deq gd d a c => (hd 2 gd 0x063, d.toNat + shl (a.toNat) 5 + shl (c.toNat) 15)
  | .qres gd d a b => (hd 1 gd 0x064, d.toNat + shl (a.toNat) 5 + shl (b.toNat) 10)
  | .qprobe gd d a b => (hd 1 gd 0x065, d.toNat + shl (a.toNat) 5 + shl (b.toNat) 10)
  | .ld gd d a sz sgn imm => (hd 3 gd 0x080, d.toNat + shl (a.toNat) 5 + shl (sz.toNat) 10 + shl (sgn.toNat) 12 + shl (imm.toNat) 16)
  | .st gd d a sz imm => (hd 3 gd 0x081, d.toNat + shl (a.toNat) 5 + shl (sz.toNat) 10 + shl (imm.toNat) 16)
  | .ldx gd d a b sz sgn sh => (hd 2 gd 0x082, d.toNat + shl (a.toNat) 5 + shl (b.toNat) 10 + shl (sz.toNat) 20 + shl (sgn.toNat) 22 + shl (sh.toNat) 23)
  | .stx gd d a b sz sh => (hd 2 gd 0x083, d.toNat + shl (a.toNat) 5 + shl (b.toNat) 10 + shl (sz.toNat) 20 + shl (sh.toNat) 23)
  | .ldf gd d a sz sgn rlx imm => (hd 3 gd 0x084, d.toNat + shl (a.toNat) 5 + shl (sz.toNat) 10 + shl (sgn.toNat) 12 + shl (rlx.toNat) 15 + shl (imm.toNat) 16)
  | .stf gd d a sz rlx imm => (hd 3 gd 0x085, d.toNat + shl (a.toNat) 5 + shl (sz.toNat) 10 + shl (rlx.toNat) 15 + shl (imm.toNat) 16)
  | .take gd d a b sz sgn => (hd 2 gd 0x086, d.toNat + shl (a.toNat) 5 + shl (b.toNat) 10 + shl (sz.toNat) 20 + shl (sgn.toNat) 23)
  | .put gd d a b sz => (hd 2 gd 0x087, d.toNat + shl (a.toNat) 5 + shl (b.toNat) 10 + shl (sz.toNat) 20)
  | .peek gd d a b sz sgn => (hd 2 gd 0x088, d.toNat + shl (a.toNat) 5 + shl (b.toNat) 10 + shl (sz.toNat) 20 + shl (sgn.toNat) 23)
  | .feset gd a b st => (hd 2 gd 0x089, shl (a.toNat) 5 + shl (b.toNat) 10 + shl (st.toNat) 20)
  | .feget gd d a o => (hd 1 gd 0x08A, d.toNat + shl (a.toNat) 5 + shl (o.toNat) 15)
  | .amo gd d a b op dbl rlx => (hd 2 gd 0x08B, d.toNat + shl (a.toNat) 5 + shl (b.toNat) 10 + shl (op.toNat) 20 + shl (dbl.toNat) 24 + shl (rlx.toNat) 25)
  | .cas gd d a b c op dbl rlx => (hd 2 gd 0x08C, d.toNat + shl (a.toNat) 5 + shl (b.toNat) 10 + shl (c.toNat) 15 + shl (op.toNat) 20 + shl (dbl.toNat) 24 + shl (rlx.toNat) 25)
  | .red gd a b op dbl => (hd 2 gd 0x08D, shl (a.toNat) 5 + shl (b.toNat) 10 + shl (op.toNat) 20 + shl (dbl.toNat) 24)
  | .waitc gd a imm => (hd 3 gd 0x08E, shl (a.toNat) 5 + shl (imm.toNat) 16)
  | .fence gd d a mask => (hd 2 gd 0x08F, d.toNat + shl (a.toNat) 5 + shl (mask.toNat) 20)
  | .xfence gd a frm tgt => (hd 3 gd 0x090, shl (a.toNat) 5 + shl (frm.toNat) 16 + shl (tgt.toNat) 24)
  | .go gd a => (hd 1 gd 0x0C0, shl (a.toNat) 5)
  | .back gd => (hd 0 gd 0x0C1, 0)
  | .mld gd d a sz sgn imm => (hd 3 gd 0x0C2, d.toNat + shl (a.toNat) 5 + shl (sz.toNat) 10 + shl (sgn.toNat) 12 + shl (imm.toNat) 16)
  | .mst gd d a sz imm => (hd 3 gd 0x0C3, d.toNat + shl (a.toNat) 5 + shl (sz.toNat) 10 + shl (imm.toNat) 16)
  | .mamo gd d a b c op dbl rlx => (hd 2 gd 0x0C4, d.toNat + shl (a.toNat) 5 + shl (b.toNat) 10 + shl (c.toNat) 15 + shl (op.toNat) 20 + shl (dbl.toNat) 24 + shl (rlx.toNat) 25)
  | .remup gd a b op dbl => (hd 2 gd 0x0C5, shl (a.toNat) 5 + shl (b.toNat) 10 + shl (op.toNat) 20 + shl (dbl.toNat) 24)
  | .tlook gd d a => (hd 1 gd 0x0C8, d.toNat + shl (a.toNat) 5)
  | .tins gd a b fill dirty => (hd 2 gd 0x0C9, shl (a.toNat) 5 + shl (b.toNat) 10 + shl (fill.toNat) 20 + shl (dirty.toNat) 21)
  | .tdel gd a wide => (hd 1 gd 0x0CA, shl (a.toNat) 5 + shl (wide.toNat) 15)
  | .hnd gd d a left => (hd 1 gd 0x0E0, d.toNat + shl (a.toNat) 5 + shl (left.toNat) 15)
  | .narrow gd a => (hd 1 gd 0x0E1, shl (a.toNat) 5)
  | .union gd d a n => (hd 2 gd 0x0E2, d.toNat + shl (a.toNat) 5 + shl (n.toNat) 20)
  | .livemask gd d a => (hd 1 gd 0x0E3, d.toNat + shl (a.toNat) 5)
  | .cancel gd a => (hd 1 gd 0x0E4, shl (a.toNat) 5)
  | .adopt gd a => (hd 1 gd 0x0E5, shl (a.toNat) 5)
  | .rbegin gd d a imm => (hd 2 gd 0x0E8, d.toNat + shl (a.toNat) 5 + shl (imm.toNat) 10)
  | .rcommit gd => (hd 1 gd 0x0E9, 0)
  | .rabort gd => (hd 0 gd 0x0EA, 0)
  | .rstat gd d => (hd 1 gd 0x0EB, d.toNat)
  | .fadd gd d a b ty rm => (hd 2 gd 0x100, d.toNat + shl (a.toNat) 5 + shl (b.toNat) 10 + shl (ty.code) 20 + shl (rm.code) 24)
  | .fsub gd d a b ty rm => (hd 2 gd 0x101, d.toNat + shl (a.toNat) 5 + shl (b.toNat) 10 + shl (ty.code) 20 + shl (rm.code) 24)
  | .fmul gd d a b ty rm => (hd 2 gd 0x102, d.toNat + shl (a.toNat) 5 + shl (b.toNat) 10 + shl (ty.code) 20 + shl (rm.code) 24)
  | .fma gd d a b c ty rm => (hd 2 gd 0x103, d.toNat + shl (a.toNat) 5 + shl (b.toNat) 10 + shl (c.toNat) 15 + shl (ty.code) 20 + shl (rm.code) 24)
  | .fdiv gd d a b ty rm => (hd 2 gd 0x104, d.toNat + shl (a.toNat) 5 + shl (b.toNat) 10 + shl (ty.code) 20 + shl (rm.code) 24)
  | .fsqrt gd d a ty rm => (hd 2 gd 0x105, d.toNat + shl (a.toNat) 5 + shl (ty.code) 20 + shl (rm.code) 24)
  | .frsq gd d a ty rm => (hd 2 gd 0x106, d.toNat + shl (a.toNat) 5 + shl (ty.code) 20 + shl (rm.code) 24)
  | .fmin gd d a b ty => (hd 2 gd 0x107, d.toNat + shl (a.toNat) 5 + shl (b.toNat) 10 + shl (ty.code) 20)
  | .fmax gd d a b ty => (hd 2 gd 0x108, d.toNat + shl (a.toNat) 5 + shl (b.toNat) 10 + shl (ty.code) 20)
  | .fcmp gd d a b ty fc => (hd 2 gd 0x109, d.toNat + shl (a.toNat) 5 + shl (b.toNat) 10 + shl (ty.code) 20 + shl (fc.code) 27)
  | .fcvt gd d a tgt frm rm sat => (hd 2 gd 0x10A, d.toNat + shl (a.toNat) 5 + shl (tgt.code) 20 + shl (frm.code) 24 + shl (rm.code) 28 + shl (sat.toNat) 31)
  | .fclass gd d a ty => (hd 2 gd 0x10B, d.toNat + shl (a.toNat) 5 + shl (ty.code) 20)
  | .fexp2 gd d a ty rm => (hd 2 gd 0x10C, d.toNat + shl (a.toNat) 5 + shl (ty.code) 20 + shl (rm.code) 24)
  | .flog2 gd d a ty rm => (hd 2 gd 0x10D, d.toNat + shl (a.toNat) 5 + shl (ty.code) 20 + shl (rm.code) 24)
  | .vld gd d a esz mk z imm => (hd 3 gd 0x140, d.toNat + shl (a.toNat) 5 + shl (esz.toNat) 13 + shl (mk.m.toNat) 12 + shl (mk.msk.toNat) 10 + shl (z.toNat) 15 + shl (imm.toNat) 16)
  | .vst gd d a esz mk imm => (hd 3 gd 0x141, d.toNat + shl (a.toNat) 5 + shl (esz.toNat) 13 + shl (mk.m.toNat) 12 + shl (mk.msk.toNat) 10 + shl (imm.toNat) 16)
  | .vlds gd d a b ty mk z => (hd 2 gd 0x142, d.toNat + shl (a.toNat) 5 + shl (b.toNat) 10 + shl (ty.code) 20 + shl (mk.m.toNat) 31 + shl (mk.msk.toNat) 29 + shl (z.toNat) 28)
  | .vsts gd d a b ty mk => (hd 2 gd 0x143, d.toNat + shl (a.toNat) 5 + shl (b.toNat) 10 + shl (ty.code) 20 + shl (mk.m.toNat) 31 + shl (mk.msk.toNat) 29)
  | .vbcast gd d a ty mk z => (hd 2 gd 0x144, d.toNat + shl (a.toNat) 5 + shl (ty.code) 20 + shl (mk.m.toNat) 31 + shl (mk.msk.toNat) 29 + shl (z.toNat) 28)
  | .vext gd d a ty lane => (hd 2 gd 0x145, d.toNat + shl (a.toNat) 5 + shl (ty.code) 20 + shl (lane.toNat) 24)
  | .vins gd d a ty lane => (hd 2 gd 0x146, d.toNat + shl (a.toNat) 5 + shl (ty.code) 20 + shl (lane.toNat) 24)
  | .vadd gd d a b ty rm mk z => (hd 2 gd 0x147, d.toNat + shl (a.toNat) 5 + encB b + shl (ty.code) 20 + shl (rm.code) 24 + shl (mk.m.toNat) 31 + shl (mk.msk.toNat) 29 + shl (z.toNat) 28)
  | .vsub gd d a b ty rm mk z => (hd 2 gd 0x148, d.toNat + shl (a.toNat) 5 + encB b + shl (ty.code) 20 + shl (rm.code) 24 + shl (mk.m.toNat) 31 + shl (mk.msk.toNat) 29 + shl (z.toNat) 28)
  | .vmul gd d a b ty rm mk z => (hd 2 gd 0x149, d.toNat + shl (a.toNat) 5 + encB b + shl (ty.code) 20 + shl (rm.code) 24 + shl (mk.m.toNat) 31 + shl (mk.msk.toNat) 29 + shl (z.toNat) 28)
  | .vfma gd d a b c ty rm mk z => (hd 2 gd 0x14A, d.toNat + shl (a.toNat) 5 + encB b + shl (c.toNat) 15 + shl (ty.code) 20 + shl (rm.code) 24 + shl (mk.m.toNat) 31 + shl (mk.msk.toNat) 29 + shl (z.toNat) 28)
  | .vmin gd d a b ty mk z => (hd 2 gd 0x14B, d.toNat + shl (a.toNat) 5 + encB b + shl (ty.code) 20 + shl (mk.m.toNat) 31 + shl (mk.msk.toNat) 29 + shl (z.toNat) 28)
  | .vmax gd d a b ty mk z => (hd 2 gd 0x14C, d.toNat + shl (a.toNat) 5 + encB b + shl (ty.code) 20 + shl (mk.m.toNat) 31 + shl (mk.msk.toNat) 29 + shl (z.toNat) 28)
  | .vabs gd d a ty mk z => (hd 2 gd 0x14D, d.toNat + shl (a.toNat) 5 + shl (ty.code) 20 + shl (mk.m.toNat) 31 + shl (mk.msk.toNat) 29 + shl (z.toNat) 28)
  | .vdiv gd d a b ty rm mk z => (hd 2 gd 0x14E, d.toNat + shl (a.toNat) 5 + encB b + shl (ty.code) 20 + shl (rm.code) 24 + shl (mk.m.toNat) 31 + shl (mk.msk.toNat) 29 + shl (z.toNat) 28)
  | .vsqrt gd d a ty rm mk z => (hd 2 gd 0x14F, d.toNat + shl (a.toNat) 5 + shl (ty.code) 20 + shl (rm.code) 24 + shl (mk.m.toNat) 31 + shl (mk.msk.toNat) 29 + shl (z.toNat) 28)
  | .vrsq gd d a ty rm mk z => (hd 2 gd 0x150, d.toNat + shl (a.toNat) 5 + shl (ty.code) 20 + shl (rm.code) 24 + shl (mk.m.toNat) 31 + shl (mk.msk.toNat) 29 + shl (z.toNat) 28)
  | .vexp2 gd d a ty rm mk z => (hd 2 gd 0x151, d.toNat + shl (a.toNat) 5 + shl (ty.code) 20 + shl (rm.code) 24 + shl (mk.m.toNat) 31 + shl (mk.msk.toNat) 29 + shl (z.toNat) 28)
  | .vlog2 gd d a ty rm mk z => (hd 2 gd 0x152, d.toNat + shl (a.toNat) 5 + shl (ty.code) 20 + shl (rm.code) 24 + shl (mk.m.toNat) 31 + shl (mk.msk.toNat) 29 + shl (z.toNat) 28)
  | .vand gd d a b ty mk z => (hd 2 gd 0x153, d.toNat + shl (a.toNat) 5 + encB b + shl (ty.code) 20 + shl (mk.m.toNat) 31 + shl (mk.msk.toNat) 29 + shl (z.toNat) 28)
  | .vor gd d a b ty mk z => (hd 2 gd 0x154, d.toNat + shl (a.toNat) 5 + encB b + shl (ty.code) 20 + shl (mk.m.toNat) 31 + shl (mk.msk.toNat) 29 + shl (z.toNat) 28)
  | .vxor gd d a b ty mk z => (hd 2 gd 0x155, d.toNat + shl (a.toNat) 5 + encB b + shl (ty.code) 20 + shl (mk.m.toNat) 31 + shl (mk.msk.toNat) 29 + shl (z.toNat) 28)
  | .vshl gd d a b ty mk z => (hd 2 gd 0x156, d.toNat + shl (a.toNat) 5 + encB b + shl (ty.code) 20 + shl (mk.m.toNat) 31 + shl (mk.msk.toNat) 29 + shl (z.toNat) 28)
  | .vshr gd d a b ty mk z => (hd 2 gd 0x157, d.toNat + shl (a.toNat) 5 + encB b + shl (ty.code) 20 + shl (mk.m.toNat) 31 + shl (mk.msk.toNat) 29 + shl (z.toNat) 28)
  | .vcmp gd d a b ty fc mk => (hd 2 gd 0x158, d.toNat + shl (a.toNat) 5 + encB b + shl (ty.code) 20 + shl (fc.code) 24 + shl (mk.m.toNat) 31 + shl (mk.msk.toNat) 29)
  | .vsel gd d a b c ty => (hd 2 gd 0x159, d.toNat + shl (a.toNat) 5 + encB b + shl (c.toNat) 15 + shl (ty.code) 20)
  | .vcvt gd d a tgt frm rm sat part => (hd 2 gd 0x15A, d.toNat + shl (a.toNat) 5 + shl (tgt.code) 20 + shl (frm.code) 27 + shl (rm.code) 24 + shl (sat.toNat) 31 + shl (part.toNat) 15)
  | .vred gd d a op ty rm mk => (hd 2 gd 0x15B, d.toNat + shl (a.toNat) 5 + shl (op.toNat) 27 + shl (ty.code) 20 + shl (rm.code) 24 + shl (mk.m.toNat) 31 + shl (mk.msk.toNat) 29)
  | .vscan gd d a op ty rm mk => (hd 2 gd 0x15C, d.toNat + shl (a.toNat) 5 + shl (op.toNat) 27 + shl (ty.code) 20 + shl (rm.code) 24 + shl (mk.m.toNat) 31 + shl (mk.msk.toNat) 29)
  | .vperm gd d a b ty mk z => (hd 2 gd 0x15D, d.toNat + shl (a.toNat) 5 + shl (b.toNat) 10 + shl (ty.code) 20 + shl (mk.m.toNat) 31 + shl (mk.msk.toNat) 29 + shl (z.toNat) 28)
  | .vmlog gd d a b table isG => (hd 2 gd 0x15E, d.toNat + shl (a.toNat) 5 + shl (b.toNat) 10 + shl (table.toNat) 20 + shl (isG.toNat) 24)
  | .vmpop gd d a raw => (hd 2 gd 0x15F, d.toNat + shl (a.toNat) 5 + shl (raw.toNat) 20)
  | .barq gd d a b part ty mk z => (hd 2 gd 0x160, d.toNat + shl (a.toNat) 5 + shl (b.toNat) 10 + shl (part.toNat) 15 + shl (ty.code) 20 + shl (mk.m.toNat) 31 + shl (mk.msk.toNat) 29 + shl (z.toNat) 28)
  | .oclaim gd d => (hd 1 gd 0x180, d.toNat)
  | .orel gd a => (hd 1 gd 0x181, shl (a.toNat) 5)
  | .old gd a b c ty layB => (hd 2 gd 0x182, shl (a.toNat) 5 + shl (b.toNat) 10 + shl (c.toNat) 15 + shl (ty.code) 20 + shl (layB.toNat) 24)
  | .mma gd a b c zf sc k => (hd 2 gd 0x183, shl (a.toNat) 5 + shl (b.toNat) 10 + shl (c.toNat) 15 + shl (zf.toNat) 20 + shl (sc.toNat) 21 + shl (k.toNat) 22)
  | .ard gd a b c ty => (hd 2 gd 0x184, shl (a.toNat) 5 + shl (b.toNat) 10 + shl (c.toNat) 15 + shl (ty.code) 20)
  | .awr gd a b c ty => (hd 2 gd 0x185, shl (a.toNat) 5 + shl (b.toNat) 10 + shl (c.toNat) 15 + shl (ty.code) 20)
  | .aclr gd a kind => (hd 1 gd 0x186, shl (a.toNat) 5 + shl (kind.toNat) 10)
  | .mstat gd d a => (hd 1 gd 0x187, d.toNat + shl (a.toNat) 5)
  | .tbld gd a => (hd 1 gd 0x188, shl (a.toNat) 5)
  | .popcRec gd d a => (hd 1 gd 0x1A1, d.toNat + shl (a.toNat) 5)
  | .trap gd imm => (hd 2 gd 0x1C0, shl (imm.toNat) 10)
  | .rtt gd => (hd 0 gd 0x1C1, 0)
  | .mfs gd d a n => (hd 2 gd 0x1C2, d.toNat + shl (a.toNat) 5 + shl (n.toNat) 10)
  | .mts gd a n => (hd 2 gd 0x1C3, shl (a.toNat) 5 + shl (n.toNat) 10)
  | .resume gd d a b key => (hd 1 gd 0x1C4, d.toNat + shl (a.toNat) 5 + shl (b.toNat) 10 + shl (key.toNat) 15)
  | .cswap gd a b => (hd 1 gd 0x1C5, shl (a.toNat) 5 + shl (b.toNat) 10)
  | .invtlb gd a b scope => (hd 2 gd 0x1C6, shl (a.toNat) 5 + shl (b.toNat) 10 + shl (scope.toNat) 20)
  | .pushCopy gd a dist => (hd 2 gd 0x1A0, shl (a.toNat) 5 + shl (dist.toNat) 20)
  | .pushFill gd a => (hd 2 gd 0x1A0, shl (a.toNat) 5)
  | .pushCode gd a => (hd 2 gd 0x1A0, shl (a.toNat) 5 + shl (2) 20)
  | .pushColl gd a => (hd 2 gd 0x1A0, shl (a.toNat) 5 + shl (3) 20)
  | .pushProgram gd a b => (hd 2 gd 0x1A0, shl (a.toNat) 5 + shl (b.toNat) 10 + shl (4) 20)
  | _ => (0, 0)

/-- The halfwords of an instruction in storage order: its head, then its tail's halfwords (R313). -/
def encodeWords (i : Instr) : List Half :=
  BitVec.ofNat 16 (encode i).1 ::
    (List.range (fld (encode i).1 13 3)).map (fun t => BitVec.ofNat 16 ((encode i).2 / 2 ^ (16 * t)))

/-- The guard of an instruction: that of its head; an event's is the unguarded form. -/
def Instr.guard (i : Instr) : Guard := guardOf (encode i).1

/-- A step of the hardware, without an encoding. -/
def Instr.isEvent (i : Instr) : Bool := tailLen (fld (encode i).1 0 9) == some 0 && (encode i).1 == 0 && !(i == .nop ⟨0, false⟩)

/-- A well-formed instruction: one that the decoder accepts. -/
def Instr.wf (i : Instr) : Bool := !i.isEvent && i.guard.wf && wfFields i

end Sys2Proof
end

