-- ==== Sys2Proof/Config.lean ====
section
/-! DEFINITION. What a T45's making fixes outside the spec (the fuses and the signing key), and the free values the
spec leaves open. -/

namespace Sys2Proof.Config

/-- The bytes of a scratchpad (R7, R44, R76): compute and gateway cores. -/
def spadBytes : Nat := 0x180000

/-- The bytes of a memory core's scratchpad (R76). -/
def memSpadBytes : Nat := 0x80000

/-- The populated DRAM of a package: offsets 0 to 0x17F_FFFF_FFFF (R31). -/
def dramBytes : Nat := 0x18000000000

/-- DESIGN CHOICE (log 8): a 64-bit value the spec leaves open; the n-th one drawn. Nothing constrains it. -/
opaque freeWord : Nat → BitVec 64

/-- DESIGN CHOICE (log 8): a 512-bit value the spec leaves open (a vector register, R384). -/
opaque freeLine : Nat → BitVec 512

/-- DESIGN CHOICE (log 8): one bit the spec leaves open (a predicate, R275). -/
opaque freeBit : Nat → Bool

/-- DESIGN CHOICE (log 41): where a gateway thread's allotment receives a reduction block and its running partial. -/
opaque redPlace : Nat → Nat

/-- DESIGN CHOICE (log 22): how many buffers for chunks a package has beside the first (R133 gives no number). -/
opaque chunkBuffers : Nat → Nat

/-- DESIGN CHOICE (log 42): the links as they are wired: a port of a package leads towards another package. -/
opaque portReaches : Nat → Nat → Nat → Bool

/-- Of a package's HSS key (R478; log 10), tree 0 being the top level and tree n + 1 the lower tree n: the 16-byte identifier of a tree. -/
opaque lmsId : Nat → Nat → BitVec 128

/-- The root of a tree of a package's HSS key (R478; log 10). -/
opaque lmsRoot : Nat → Nat → BitVec 256

/-- The randomiser and the 67 chain values of the LM-OTS signature of a message: package, tree, leaf, message (R477, R478; log 10). -/
opaque lmsOts : Nat → Nat → Nat → List (BitVec 8) → BitVec 17408

/-- The 10 path nodes of a leaf: package, tree, leaf (R477, R478; log 10). -/
opaque lmsPath : Nat → Nat → Nat → BitVec 2560

/-- The fused key hash of a package (R477). -/
opaque fuseKeyHash : Nat → BitVec 256

/-- The fused minimum security version of a package (R477). -/
opaque fuseMinSvn : Nat → BitVec 32

/-- The 16-byte device id of a package's fuses (R480). -/
opaque fuseDeviceId : Nat → BitVec 128

end Sys2Proof.Config
end

