-- ==== Sys2Proof/Machine/State.lean ====
section
/-! DEFINITION. The state of a domain of T45 packages as plain data: every register, memory, table, queue and packet in flight
that the spec gives the machine, the reasons a step can stop, and the state after reset. -/

namespace Sys2Proof.Machine

/-- A sparse table: keys strictly rising, at most one value for a key. -/
abbrev Table (α : Type) := List (Nat × α)

/-- A byte memory in canonical form: addresses strictly rising, no entry equal to 0, which an unlisted address reads as (R49 for
scratchpads; log 4 for DRAM and host memory). -/
abbrev Memory := List Host.Cell

/-- A physical endpoint id (R29), as a number. -/
abbrev EP := Nat

/-- What every packet carries of its request's expiry (R107, R212). -/
structure Carry where
  /-- Instant (R201). -/
  inst : Instant
  /-- Handle; between packages the origin handle (R208). -/
  hnd : Handle
  /-- Origin package of the identity (R107). -/
  opkg : Nat
  deriving DecidableEq, Repr, Inhabited

/-- The requester a packet carries (R107): endpoint, slot, context, virtual core and thread, and the scoreboard entry its answer
settles (R286). `uid` tells apart the threads that a slot holds one after another; `ebit` is the sticky bit of the peer that
the operand named (R15, R18). -/
structure Req where
  ep : EP
  slot : Nat
  uid : Nat
  ctx : Ctx
  vcore : Nat
  vthr : Nat
  entry : Nat
  ebit : Nat
  deriving DecidableEq, Repr, Inhabited

/-- STATE of a scoreboard entry (R286): 0 empty, 1 re-issue, 2 sent, 3 done. -/
inductive SbState where
  | empty | reissue | sent | done
  deriving DecidableEq, Repr, Inhabited

/-- A scoreboard entry (R286). REG 0 also stands for a destination that is no longer pending (R117, R192). -/
structure SbEntry where
  state : SbState
  kind : Nat
  path : Nat
  reg : Reg
  pc : CodeAddr
  /-- issued inside the thread's open region (R192) -/
  inReg : Bool
  deriving DecidableEq, Repr, Inhabited

/-- An operation at a word's home: what a packet asks of the scratchpad or DRAM line it reaches (R172 to R174, R366 to R370). -/
inductive Access where
  | load (size : Nat) (sgn : Bool)
  | store (size : Nat) (data : Nat)
  | atom (op : Nat) (dbl : Bool) (val cmp : Word) (ret : Bool)
  | take (size : Nat) (sgn : Bool) (timeout : Word)
  | peek (size : Nat) (sgn : Bool) (timeout : Word)
  | put (size : Nat) (data : Nat) (timeout : Word)
  | feset (mask : Word) (st : Nat)
  | feget (ochre : Bool)
  | joinRead
  /-- the notice add of a copy: 1, on 8 bytes (R127) -/
  | notice
  deriving DecidableEq, Repr, Inhabited

/-- The answers a requester can receive (R117, R122, R142, R365, R366). -/
inductive Answer where
  | value (v : Nat) (flags : Nat)
  | ack (flags : Nat)
  | refused
  | ochre (info : Nat) (ebit : Nat)
  | timedOut
  | joined
  | busy
  | placed
  | notPlaced
  /-- applied at one home, the other being lost: the package lost, and that of the other home (R99) -/
  | mirrorLost (v flags lost other : Nat)
  /-- both homes are lost (R99) -/
  | failed (lost other : Nat)
  deriving DecidableEq, Repr, Inhabited

/-- A message of SEND (R118, R357): tag, sender and payload. -/
structure Msg where
  tag : BitVec 12
  pkg : Nat
  vcore : Nat
  vthr : Nat
  words : List Word
  deriving DecidableEq, Repr, Inhabited

/-- A message that waits for injection (R119): destination, channel, virtual core and thread, sticky bit of the peer. -/
structure OutMsg where
  dst : EP
  vc : Nat
  vcore : Nat
  vthr : Nat
  msg : Msg
  carry : Carry
  ebit : Nat
  deriving DecidableEq, Repr, Inhabited

/-- A work packet or queue item: eight words (R268, R353). -/
abbrev Packet := List Word

/-- An entry of a work-stealing deque (R271): its context, the group that forked it, and its packet. -/
structure Arm where
  ctx : Ctx
  vcore : Nat
  pkt : Packet
  deriving DecidableEq, Repr, Inhabited

/-- A completion record for POPC (R329). -/
structure CompRec where
  w0 : Word
  w1 : Word
  deriving DecidableEq, Repr, Inhabited

/-- What a parked instruction waits for (R259, R260): `turn`-type waits issue again when their condition holds. -/
inductive Until where
  /-- every path of the mask is drained, with HOST up to a number of host writes (R143) -/
  | drained (mask : BitVec 8) (host : Nat)
  /-- RCOMMIT: CORE and MIGR are drained (R439) -/
  | commit
  /-- the counters stand at or below the limits (R142) -/
  | counters (ldc stc cpc tlc : Nat)
  /-- LDC or STC below its limit (R115) -/
  | ldcRoom | stcRoom | tlcRoom
  /-- the inbox holds a message (R344, R357) -/
  | inbox
  /-- a MODE 2 ring holds an item for this thread's ticket (R354) -/
  | queueItem (q ticket : Nat)
  /-- a BW ring has room (R277) -/
  | queueRoom (q : Nat)
  /-- a pending XFENCE has set p7 (R485) -/
  | xfence
  /-- an engine accepts a command, and its counter is below the limit (R419, R420) -/
  | engine (e : Nat)
  /-- fewer than 16 record places are held (R420) -/
  | places
  /-- a completion record is there (R421) -/
  | record
  /-- the core's deferred-take list has room for the access first in its overflow order (R56) -/
  | dtl
  /-- a translation is there: context, virtual address (R40) -/
  | tlb (va : Nat)
  /-- no sealed entry on the words of a local access (R189) -/
  | unsealed (addr size : Nat)
  /-- the MMA that reads a slot has ended (R64, R410) -/
  | slotFree (n : Nat)
  /-- no MMA runs on the inactive LG6 bank (R70) -/
  | bankFree
  /-- no probe of the domain is under way (R279) -/
  | probeFree (dom : Nat)
  /-- a slot of the core has no migrant out and is no pair that still runs (R445) -/
  | swappable (slot : Nat)
  /-- no entry of the thread's image is in state sent and its CPC is 0 (R293 step 3) -/
  | imageSettled (uid : Nat)
  /-- the partner of a redundant pair has presented the same instruction (R294) -/
  | partner
  /-- the store comparator of the pair holds no entry (R294) -/
  | released
  deriving DecidableEq, Repr, Inhabited

/-- Why a thread is parked (R259). -/
inductive Wait where
  /-- the instruction issues again once the condition holds -/
  | again (c : Until)
  /-- an answer settles it: scoreboard entry 16 is in state sent, or a service unit answers -/
  | answer
  /-- an entry of a deferred-take list or its overflow order, local or remote (R53, R366) -/
  | fullEmpty
  /-- WFW: d receives the packet; `placed` is the wait of R255; `frame` is the wait of YIELD (R349, R350) -/
  | work (d : Reg) (placed yielded : Bool)
  /-- GO until BACK (R375) -/
  | away
  /-- an MMA or ACLR it issued (R413, R415) -/
  | mma
  /-- a vector region access, word by word (R181) -/
  | region
  /-- JOIN between a busy answer and its fresh read: the cycle of the next read (R347) -/
  | joinBusy (at_ : Nat)
  /-- JOIN's watch is recorded at the home (R347) -/
  | joinWatch
  /-- CSWAP until step 5 of R287 ends -/
  | swap
  /-- QPROBE until its probe returns (R279, R358) -/
  | probe
  /-- FORK until its counter add is answered (R346): argument, join address, target -/
  | fork (arg join : Word) (target : CodeAddr)
  /-- EXIT until its counter add is answered (R348) -/
  | exit
  /-- a trap that waits for a pending XFENCE (R485) or for the partner of a redundant pair (R294) -/
  | trap (cause : Nat) (addr : Word) (info : Nat)
  deriving DecidableEq, Repr, Inhabited

/-- A parked thread's wait: since which cycle, until which cycle (none: without end), and where the thread continues. -/
structure Park where
  why : Wait
  start : Nat
  limit : Option Nat
  next : CodeAddr
  dst : Reg
  /-- what the instruction keeps over its wait: for an access its operand, plus 2^64 times its size -/
  aux : Nat
  /-- the number of the request whose answer it awaits -/
  ser : Nat
  deriving DecidableEq, Repr, Inhabited

/-- A pending XFENCE (R145, R485). `step2` says that step 1 has ended; the counts are those of the queue entries that the core had
accepted when step 2 began, by their acceptance number. -/
structure XFence where
  frm : BitVec 8
  tgt : BitVec 8
  pc : CodeAddr
  limit : Option Nat
  step2 : Bool
  destUpTo : Nat
  tileUpTo : Nat
  hostUpTo : Nat
  deriving DecidableEq, Repr, Inhabited

/-- The reservation record of QRES (R355). -/
structure QRes where
  sel : Word
  count : Nat
  outstanding : Bool
  deriving DecidableEq, Repr, Inhabited

/-- The region a thread has open (R177): its id, and an abort that has reached the thread and waits for its delivery: cause, target and
cause register (R192). -/
structure RegionRef where
  id : Nat
  abort : Option (Nat × CodeAddr × Reg)
  deriving DecidableEq, Repr, Inhabited

/-- The register file a program names (R228, R321, R384). -/
structure Regs where
  /-- g0 to g31; g0 is kept 0 (R321). -/
  g : Vector Word 32
  /-- p0 to p7, bit i is p[i]; p0 is kept 1 (R321). -/
  p : BitVec 8
  /-- v0 to v7 (R384). -/
  v : Vector (BitVec 512) 8
  /-- vm0 to vm3 (R384). -/
  vm : Vector Word 4
  deriving DecidableEq, Repr, Inhabited


/-- A migrant's origin (R87): endpoint, slot, and the virtual thread that waits there. -/
structure Origin where
  ep : EP
  slot : Nat
  uid : Nat
  /-- the package that the migrant's latest GO left, whose lost homes it knows (R101, R375) -/
  via : Nat
  deriving DecidableEq, Repr, Inhabited

/-- The special registers held per slot (R325). -/
structure Specials where
  wid : Word
  /-- HANDLE[63:16] (R269). -/
  inst : Instant
  /-- HANDLE[15:0]. -/
  hnd : Handle
  sfa : BitVec 5
  sfb : BitVec 5
  ssa : BitVec 21
  ssb : BitVec 21
  /-- LBASE.BASE, in KiB (R8). -/
  lbase : BitVec 11
  /-- LSIZE.SIZE, in KiB (R9). -/
  lsize : BitVec 11
  /-- PEERMAP bits 55:12 (R17). -/
  peermap : BitVec 44
  /-- TRAPBASE bits 31:6 (R282). -/
  trapbase : BitVec 26
  tcause : BitVec 8
  taddr : Word
  trappc : CodeAddr
  /-- TSTAT, whole (R282). -/
  tstat : Word
  /-- FFLAGS (R232). -/
  fflags : BitVec 5
  /-- RCAUSE (R194). -/
  rcause : BitVec 4
  /-- The sticky error bits (R130). -/
  sticky : Word
  /-- DISPQ.PRI (R325). -/
  pri : BitVec 3
  deriving DecidableEq, Repr, Inhabited

/-- An entry of the load-value queue of a redundant pair (R294): the instruction, where it went on, and what it left in the leading
thread: registers, special registers, the open region, the mode. -/
structure LvEntry where
  pc : CodeAddr
  next : CodeAddr
  g : List (Nat × Word)
  /-- the predicates that it may have written, and their values -/
  pmask : BitVec 8
  p : BitVec 8
  v : List (Nat × BitVec 512)
  vm : List (Nat × Word)
  sr : Specials
  region : Option RegionRef
  sup : Bool
  handler : Bool
  /-- the XFENCE that was pending behind it (R485) -/
  xf : Option XFence
  deriving DecidableEq, Repr, Inhabited

/-- What a thread of a pair presents to the store comparator (R294, R295): the instruction, its kind and its address and data, or
the trap it raises. -/
structure Offer where
  pc : CodeAddr
  kind : Nat
  words : List Nat
  trap : Option Nat
  deriving DecidableEq, Repr, Inhabited

/-- The part of a redundant pair a thread plays (R294): leader or trailer, the partner's slot; in the leader the load-value queue, the
comparator's entries that wait for the trailer, the registers before the instruction under way with those it names as destinations
(vector register n as 32 + n), and the values that arrived for relaxed loads; in both what the thread presents and waits with. -/
structure PairRef where
  lead : Bool
  other : Nat
  lvq : List LvEntry
  cmp : List Offer
  before : Option (CodeAddr × Regs × List Nat)
  late : List (Nat × Word)
  offered : Option Offer
  deriving DecidableEq, Repr, Inhabited

/-- The counters of a slot (R115, R420) and its record places. -/
structure Counters where
  ldc : Nat
  stc : Nat
  cpc : Nat
  tlc : Nat
  /-- CODE commands, limit 4 (R420). -/
  code : Nat
  /-- COLL commands, limit 4 (R420). -/
  coll : Nat
  /-- record places held, limit 16 (R420). -/
  places : Nat
  deriving DecidableEq, Repr, Inhabited

/-- A thread in a slot (R246 to R260, R280 to R286): registers, specials, counters, scoreboard and what it waits for. -/
structure Thread where
  uid : Nat
  ctx : Ctx
  vcore : Nat
  vthr : Nat
  pc : CodeAddr
  /-- supervisor mode (R247, R280) -/
  sup : Bool
  /-- the handler bit (R280) -/
  handler : Bool
  /-- stopped by a double trap (R284) -/
  stopped : Bool
  /-- the PC was set from outside the line order: the next fetch makes the head test of R316 -/
  fresh : Bool
  regs : Regs
  sr : Specials
  cnt : Counters
  sb : Vector SbEntry 17
  park : Option Park
  xf : Option XFence
  /-- messages that wait for injection: at most 2 (R119) -/
  outbox : List OutMsg
  /-- the inbox: at most 4 (R120) -/
  inbox : List Msg
  /-- completion records for POPC, oldest first (R421) -/
  recs : List CompRec
  qres : QRes
  region : Option RegionRef
  /-- a failed lapse test kept while the handler runs (R217) -/
  lapsed : Bool
  /-- the provisional reference of UNION (R433) -/
  provisional : Option Handle
  pair : Option PairRef
  /-- a migrant's origin, in a visitor slot (R87) -/
  origin : Option Origin
  /-- the line fetched last, by its address: a line already fetched completes (R72) -/
  line : Option (Nat × List Half)
  /-- forfeits in a row (R46) -/
  forfeits : Nat
  /-- passes of VLDS or VSTS already performed (R47), and the lanes that a VLDS has read in them -/
  passes : Nat
  gather : BitVec 512
  deriving DecidableEq, Repr, Inhabited

/-- A granule's state (R50); an unlisted granule is empty. -/
inductive GState where
  | empty | full | ochre
  deriving DecidableEq, Repr, Inhabited

/-- A waiting TAKE, PEEK or PUT (R53): an entry of the deferred-take list or of the overflow order (R56). -/
structure DtlEntry where
  acc : Access
  addr : Nat
  req : Req
  carry : Carry
  local_ : Bool
  deadline : Option Nat
  deriving DecidableEq, Repr, Inhabited

/-- A tag-table entry (R57). -/
structure TagEntry where
  ctx : Ctx
  key : BitVec 46
  slot : Nat
  f : Bool
  d : Bool
  deriving DecidableEq, Repr, Inhabited

/-- An operand slot's state (R60): the group that claimed it, FMT (type and B layout) and POISON. -/
structure OpSlot where
  owner : Ctx × Nat
  fmt : Option (Ty × Bool)
  poison : Bool
  deriving DecidableEq, Repr, Inhabited

/-- The kind of an accumulator tile (R66). -/
inductive TileKind where
  | none | fp64 | fp32 | i32
  deriving DecidableEq, Repr, Inhabited

/-- A physical accumulator tile (R65 to R69, R408); an unlisted tile is of kind none and belongs to no group. -/
structure Tile where
  owner : Ctx × Nat
  name : Nat
  kind : TileKind
  busy : Bool
  stop : Bool
  prog : Nat
  /-- the tile's LG6 table (R69) -/
  table : Option (List Nat)
  deriving DecidableEq, Repr, Inhabited

/-- The LG6 code table (R69, R70): two banks, the active one, GEN. -/
structure Lg6 where
  banks : List (List Nat)
  active : Nat
  gen : BitVec 16
  deriving DecidableEq, Repr, Inhabited

/-- An operation of the tile path (R407): tiles by their physical number, scratchpad places by their physical offset. -/
inductive TileOp where
  | old (slot addr stride : Nat) (ty : Ty) (layB : Bool)
  | ard (tile addr stride width : Nat)
  | awr (tile addr stride width : Nat) (kind : TileKind)
  | aclr (tile : Nat) (kind : TileKind)
  /-- a copy write of a slot that waits behind earlier uses (R64), by its place in the order of arrival -/
  | copyIn (slot num : Nat)
  /-- `bank` is the LG6 bank that a running MMA holds (R70); 2 for none -/
  | mma (a b tile : Nat) (ta tb : Ty) (zf sc : Bool) (kl ssa ssb : Nat) (bank : Nat)
  deriving DecidableEq, Repr, Inhabited

/-- An operation with its issuer and progress, in issue order: `run` says that an MMA has started, `stopReq` that it is to stop
(R287, R219), `preempt` that pre-emption asks for that (R68), `step` is the rows done (ARD); `flags` the exception flags of the steps done. -/
structure TileJob where
  op : TileOp
  req : Req
  ctx : Ctx
  vcore : Nat
  run : Bool
  stopReq : Bool
  preempt : Bool
  step : Nat
  flags : Nat
  deriving DecidableEq, Repr, Inhabited

/-- An entry of a destination write queue (R137): bytes at a physical offset and the acceptance number; for a copy with set-full,
for each granule that the entry touches the mask of the bytes that the command writes there (R148); for an error piece (R126) no
byte is written. -/
structure DestEntry where
  addr : Nat
  data : List (BitVec 8)
  need : List Nat
  err : Bool
  cmd : Nat
  num : Nat
  deriving DecidableEq, Repr, Inhabited

/-- An entry of the tile write queue (R137). -/
structure TileEntry where
  addr : Nat
  data : List (BitVec 8)
  num : Nat
  deriving DecidableEq, Repr, Inhabited

/-- A version-buffer entry (R179). -/
structure VEntry where
  addr : Nat
  region : Nat
  write : Bool
  new : Word
  old : Word
  sealed_ : Bool
  /-- for a DRAM word of a mirrored page, the package of the other home, and whether this is the mirror home (R98) -/
  mpkg : Option (Nat × Bool)
  /-- a plain write has met it, and the abort of its region has been asked (R189, R486): it counts for no other access any more -/
  doomed : Bool
  deriving DecidableEq, Repr, Inhabited

/-- A group on a core (R252 to R255): its allotments, its launch-header shadows, and whether its operand slots and tiles are
reserved now (R291). -/
structure Group where
  ctx : Ctx
  vcore : Nat
  base : Nat
  spad : Nat
  thr : Nat
  ops : Nat
  acc : Nat
  pair : Bool
  slots : List Nat
  tiles : List Nat
  sfa : BitVec 5
  sfb : BitVec 5
  ssa : BitVec 21
  ssb : BitVec 21
  wroteMap : Bool
  deriving DecidableEq, Repr, Inhabited

/-- A cached translation (R38): context, the page's first virtual address and log2 size, the leaf. Lists of them stand in the
order of their last use (R39). -/
structure TlbEntry where
  ctx : Ctx
  va : Nat
  bits : Nat
  pa : Nat
  mpkg : Nat
  rd : Bool
  wr : Bool
  m : Bool
  pin : Bool
  deriving DecidableEq, Repr, Inhabited

/-- A line of the line buffer (R81 to R83): its data, dirty and ochre marks, and whether its fill or writeback runs. The
buffer's list stands in the order of last use. -/
structure BufLine where
  line : Nat
  data : BitVec 512
  dirty : Bool
  ochre : Bool
  filling : Bool
  writing : Bool
  /-- errors of the SECDED code: word of the line, and 1 or 2 bits (R83; log 12) -/
  upsets : Table Nat
  deriving DecidableEq, Repr, Inhabited

/-- A message held at a network interface (R120): for a thread that is swapped out or whose inbox is full. `chan` says that it
came over the context channel and holds it. -/
structure HeldMsg where
  ctx : Ctx
  vcore : Nat
  vthr : Nat
  msg : Msg
  /-- the sender's operation (R143, R119) -/
  req : Req
  carry : Carry
  chan : Bool
  deriving DecidableEq, Repr, Inhabited

/-- A migrant's state (R87). -/
structure Migrant where
  thr : Thread
  origin : Origin
  carry : Carry
  va : Nat
  /-- the GO that sent it, where a refusal traps (R109, R15) -/
  go : CodeAddr
  deriving DecidableEq, Repr, Inhabited

/-- The kinds of core of R29. -/
inductive CoreKind where
  | compute | memory | gateway
  deriving DecidableEq, Repr, Inhabited

/-- The registers the management plane holds at a core (R113, R471). -/
structure CoreMgmt where
  /-- AW0 to AW7 (R113). -/
  aw : Vector Word 8
  /-- CODESRC (R471). -/
  codesrc : Word
  /-- CODESEG: BUSY, FAIL and the last segment named (R471). -/
  codeBusy : Bool
  codeFail : Bool
  codeSeg : Nat
  /-- SECNT, DECNT (R48, R471). -/
  secnt : Word
  decnt : Word
  /-- PGCNT0 to PGCNT18 (R93, R471). -/
  pgcnt : List Word
  /-- LBCNT (R83, R471). -/
  lbcnt : Word
  /-- CHSTAT.FAILED (R97, R471). -/
  failed : Bool
  deriving DecidableEq, Repr, Inhabited

/-- What a memory core has besides (R80). -/
structure MemCore where
  /-- the line buffer (R81) -/
  buf : List BufLine
  /-- the program queue: at most 64 commands, with their requester and whether accepted (R85) -/
  progs : List (Ctx × Carry × Req × Packet)
  /-- the migrant ingress queue: at most 32 (R87) -/
  migrants : List Migrant
  /-- the line the patrol scrubber reads next (R94) -/
  scrub : Nat
  /-- accesses that have waited at the line-buffer port so far (R82) -/
  tick : Nat
  deriving DecidableEq, Repr, Inhabited

/-- A reduction block at a gateway core (R134, R427): the command, the block's number and bytes, its elements, and the thread it has
been delivered to with the place of the running partial. -/
structure RedBlock where
  ctx : Ctx
  carry : Carry
  cmd : Nat
  rpc : CodeAddr
  block : Nat
  data : List (BitVec 8)
  elems : Nat
  taken : Option (Nat × Nat)
  deriving DecidableEq, Repr, Inhabited

/-- A part of a core whose next reading reports a double-bit error (R104; log 12): the register files of a slot, an operand slot, or an
accumulator tile. -/
inductive Broken where
  | regs (slot : Nat)
  | operand (slot : Nat)
  | acc (tile : Nat)
  deriving DecidableEq, Repr, Inhabited

/-- A core: compute, memory or gateway (R44 to R77, R113, R137, R179, R256). -/
structure Core where
  kind : CoreKind
  /-- cycles of the core's clock begun since its release (R325) -/
  cycle : Nat
  /-- the core does not issue: contained (R104) -/
  halted : Bool
  spad : Memory
  /-- errors of the SECDED code: word number, and whether one bit (1) or two (2) stand wrong (R48; log 12) -/
  upsets : Table Nat
  /-- double-bit errors of register files, operand memory and accumulator memory that nothing has read yet (R104; log 12) -/
  broken : List Broken
  gran : Table GState
  dtl : List DtlEntry
  overflow : List DtlEntry
  /-- join watches: word offset, waiter, and the instant and handle of its JOIN (R347, R212) -/
  watches : List (Nat × Req × Carry)
  landed : BitVec 384
  /-- XB.BOUND (R10) -/
  xb : BitVec 9
  tags : List TagEntry
  opmem : Memory
  opslots : Table OpSlot
  acc : Memory
  tiles : Table Tile
  lg6 : Lg6
  jobs : List TileJob
  destQ : List DestEntry
  tileQ : List TileEntry
  /-- acceptance numbers given so far (R145) -/
  destNum : Nat
  tileNum : Nat
  /-- bytes written so far, as masks: command, granule of the scratchpad or operand slot (from 2^20 on), mask (R148, R63) -/
  fills : List (Nat × Nat × Nat)
  vbuf : List VEntry
  deque : List Arm
  /-- deque entries that a FORK under way has reserved (R346) -/
  reserved : Nat
  slots : Table Thread
  /-- per slot, 1 + the cycle of the last turn received (R257) -/
  turns : Table Nat
  /-- per slot, PRI of the packet or deque entry last delivered to it, or of the frame last re-entered in it (R325, DISPQ) -/
  pris : Table (BitVec 3)
  /-- swaps that have begun (R287): slot, cache entry, the thread that issued the CSWAP -/
  swaps : List (Nat × Nat × Nat)
  groups : List Group
  tlb : List TlbEntry
  held : List HeldMsg
  /-- per probe domain: signed count and blackness of this network interface (R278) -/
  ni : List (Nat × BitVec 32 × Bool)
  mgmt : CoreMgmt
  mem : MemCore
  reds : List RedBlock
  deriving DecidableEq, Repr, Inhabited

/-- A saved image in a thread-context cache (R287, R288). -/
structure Image where
  thr : Thread
  ep : EP
  dead : Bool
  /-- NOW when it was written or last settled by an answer (R289) -/
  used : Nat
  deriving DecidableEq, Repr, Inhabited

/-- A registered coroutine frame (R275): its core and address, its group, handle and carried instant, and its condition. -/
structure Frame where
  ep : EP
  /-- local address -/
  addr : Nat
  ctx : Ctx
  vcore : Nat
  carry : Carry
  /-- local address of the condition granule -/
  cond : Option Nat
  ready : Bool
  deriving DecidableEq, Repr, Inhabited

/-- A packet in a dispenser (R266): its words, the header's facts it was routed with, and the time it joined. -/
structure DispPkt where
  pkt : Packet
  ctx : Ctx
  queue : Nat
  seq : BitVec 32
  /-- the launch header as read (R250), or while its read is under way its address; and the group's number (R252) -/
  hdr : BitVec 512
  grp : Nat
  pri : Nat
  since : Nat
  carry : Carry
  /-- the host entry whose record it would fail, if any -/
  entry : Bool
  deriving DecidableEq, Repr, Inhabited

/-- A cluster (R38, R266, R275, R287). -/
structure Cluster where
  tlb : List TlbEntry
  packets : List DispPkt
  frames : List Frame
  tcc : Table Image
  deriving DecidableEq, Repr, Inhabited

/-- A walk in progress or queued at the die walker (R34, R40). -/
structure Walk where
  ctx : Ctx
  va : Nat
  /-- where the leaf goes: a core's TLB (0), the distributor's (1), the cluster's (2); and the commands (3) and threads (4) that wait for it -/
  fill : List (Nat × Nat)
  level : Nat
  table : Nat
  /-- an INVTLB reached the die since it began: its result is not entered (R447) -/
  stale : Bool
  /-- it has ended with nothing found (R37), or with a leaf that is entered in no TLB (R447), and commands that wait for it have yet to learn so -/
  ended : Bool
  /-- that leaf -/
  found : Option TlbEntry
  deriving DecidableEq, Repr, Inhabited

/-- A fault of a translation (R37). -/
inductive XFault where
  | notPresent
  | rights (noRd noWr : Bool) (pkg : Nat)
  deriving DecidableEq, Repr, Inhabited

/-- State of a region record (R178). -/
inductive RState where
  | opened | sealing | committed | aborting
  deriving DecidableEq, Repr, Inhabited

/-- A region record (R177). -/
structure Region where
  state : RState
  seq : BitVec 32
  owner : Req
  carry : Carry
  target : CodeAddr
  reg : Reg
  timeout : Word
  preds : List Nat
  owners : List EP
  /-- owners whose acknowledgement of the seal, resolve or discard is awaited -/
  waiting : List EP
  /-- the cause of an abort under way -/
  cause : Nat
  /-- the thread waits in RABORT, or the region ends with its thread: nothing is delivered -/
  silent : Bool
  /-- waiting for its predecessors in state sealing since this cycle, plus 1; 0 for none (R187) -/
  since : Nat
  /-- the core whose cycles count that wait: where the thread was when it began -/
  clock : EP
  deriving DecidableEq, Repr, Inhabited

/-- How a vector load in a region fills its register: the lanes as bit place, width and byte address, over a base value. -/
structure VecFill where
  d : VReg
  base : BitVec 512
  lanes : List (Nat × Nat × Nat)
  deriving DecidableEq, Repr, Inhabited

/-- How far an access has come at its owner (R186): it waits for those before it, the unit has been asked for its edges, the unit keeps it
parked with the edges asked for (step 3), or has granted those edges. An edge is named by the key of its region. -/
inductive RPhase where
  | waiting | asked | parked (frm : List Nat) | granted (frm : List Nat)
  deriving DecidableEq, Repr, Inhabited

/-- A region access: the word accesses of one instruction in ascending order, and what they have read. -/
structure RAccess where
  region : Nat
  home : EP
  dram : Bool
  words : List (Nat × Access)
  got : List (Nat × Nat)
  vec : Option VecFill
  req : Req
  carry : Carry
  relaxed : Bool
  /-- it never leaves the thread's core: no window is asked (R113) -/
  here : Bool
  /-- parked by step 3 of R186 since this cycle of the thread's core, plus 1; 0 for none -/
  since : Nat
  /-- as in a version-buffer entry -/
  mpkg : Option (Nat × Bool)
  phase : RPhase
  /-- its number -/
  num : Nat
  /-- its place in the order of arrival at the line-buffer port of its home, where it waits there (R82); 0 where it does not -/
  ticket : Nat
  deriving DecidableEq, Repr, Inhabited

/-- The messages of R486 between threads, the region unit and the owners. -/
inductive RMsg where
  | begin_ (target : CodeAddr) (reg : Reg) (timeout : Word)
  /-- the answer of RBEGIN: the region, or none where no record is free -/
  | opened (r : Option Nat) (target : CodeAddr) (reg : Reg)
  | access (a : RAccess)
  /-- an owner asks the unit for the edges of an access, by its number -/
  | edges (r num : Nat) (frm : List Nat)
  | granted (r num : Nat) (frm : List Nat)
  | commit (r : Nat)
  | seal_ (r : Nat)
  | sealAck (r : Nat) (ep : EP)
  | resolve (r : Nat)
  | resolveAck (r : Nat) (ep : EP)
  | discard (r : Nat)
  | discardAck (r : Nat) (ep : EP)
  | release (r : Nat)
  | deliver (r cause : Nat) (target : CodeAddr) (reg : Reg)
  | stat (r : Nat)
  /-- an owner or the thread asks for an abort: the region, with its begin sequence, and the cause -/
  | abort (r : Nat) (seq : BitVec 32) (cause : Nat)
  deriving DecidableEq, Repr, Inhabited

/-- What a broadcast of the instant unit changes (R203): a handle lapses; a union takes members and instant; a proxy takes an
instant (R208). `none` stands for a broadcast whose handle has been freed since. -/
inductive Change where
  | none
  | lapse (h : Nat)
  | union (h : Nat) (members : List (Nat × Bool)) (inst : Instant)
  | inst (h : Nat) (inst : Instant)
  deriving DecidableEq, Repr, Inhabited

/-- A die's replica of the instant unit (R203): lapsed bits, union membership with its member bits, the sequence number it
applies next, and broadcasts on their way or held back. -/
structure Replica where
  lapsed : List Nat
  unions : Table (List (Nat × Bool))
  next : BitVec 16
  coming : List (BitVec 16 × Change)
  deriving DecidableEq, Repr, Inhabited

/-- A die (R102, R177, R199, R203, R481). -/
structure Die where
  /-- the die's copy of NOW (R199) -/
  now : Word
  replica : Replica
  regions : Table Region
  /-- the begin sequence counter (R177) -/
  rseq : BitVec 32
  /-- region accesses that have reached their owners and are not ended, in the order of their arrival (R186) -/
  raccs : List RAccess
  walks : List Walk
  /-- the copy distributor's TLB (R38) -/
  tlb : List TlbEntry
  /-- AREC0 to AREC15 (R102) -/
  arec : Vector (BitVec 32) 16
  /-- routers of the rectangle's boundary are closed (R104, R105) -/
  closed : Vector Bool 16
  /-- the address and core of a consumption whose event is due -/
  consumed : Vector (Word × EP) 16
  /-- DIECLK (R471) -/
  dieclk : BitVec 4
  deriving DecidableEq, Repr, Inhabited

/-- KIND of a lapse-table entry (R204). -/
inductive HKind where
  | request | union | proxy
  deriving DecidableEq, Repr, Inhabited

/-- A lapse-table entry with its side table (R204); an unlisted handle is free. -/
structure Lapse where
  kind : HKind
  l : Bool
  c : Bool
  opkg : Nat
  ohnd : Handle
  inst : Instant
  ref : Nat
  ctx : Ctx
  tasks : BitVec 32
  msgs : BitVec 32
  stores : BitVec 32
  /-- the export list, and whether it has overflowed (NEXP = 15, R209) -/
  exports : List Nat
  overflow : Bool
  members : List (Nat × Bool)
  /-- a thread was lost to containment or a failed save (R222) -/
  fault : Bool
  /-- the request's queue and SEQ (R270) -/
  queue : Nat
  seq : BitVec 32
  /-- REF has reached 0 and the settle interval runs; its end (R222) -/
  settle : Option Nat
  deriving DecidableEq, Repr, Inhabited

/-- A request waiting at the instant unit (R205, R433 to R436). -/
inductive IuReq where
  | union (req : Req) (ctx : Ctx) (hs : List Nat) (d : Reg)
  /-- a union made, whose answer waits until every replica has applied its broadcast -/
  | unionMade (req : Req) (h : Nat) (d : Reg) (seq : BitVec 16)
  | cancel (req : Req) (h : Nat)
  | adopt (req : Req) (h : Nat)
  deriving DecidableEq, Repr, Inhabited

/-- Messages of the control plane between packages (R209, R218). -/
inductive Ctl where
  | drop (pkg : Nat) (h : Nat) (tasks msgs stores : Nat)
  | dropAt (frm : Nat) (pkg : Nat) (h : Nat) (tasks msgs stores : Nat)
  | exportNotice (frm : Nat) (pkg : Nat) (h : Nat) (third : Nat) (proxy : Nat)
  | noticeAck (pkg : Nat) (proxy : Nat)
  | proxyReport (frm : Nat) (pkg : Nat) (h : Nat) (tasks msgs stores : Nat) (fault : Bool)
  | cancel (pkg : Nat) (opkg : Nat) (h : Nat)
  | cancelOrigin (pkg : Nat) (h : Nat)
  | unionChange (pkg : Nat) (opkg : Nat) (h : Nat) (inst : Instant) (lapsed : Bool)
  deriving DecidableEq, Repr, Inhabited

/-- What the units of a package keep of a host queue (R263, R264, R270, R468). -/
structure QState where
  /-- next SEQ expected -/
  next : BitVec 32
  /-- SEQs of entries written and not yet admitted, with the data-window writes that had arrived before each (R466) -/
  waiting : List (BitVec 32 × Nat)
  /-- cancel flags of entries not yet admitted -/
  cancels : List (BitVec 32)
  /-- (SEQ, handle) of admitted entries whose completion record has not been sent -/
  admitted : List (BitVec 32 × Nat)
  /-- admitted entries the dispatcher has not served, with the time of admission -/
  ready : List (BitVec 512 × Nat × Carry)
  /-- records written or held so far (R270) -/
  records : Nat
  /-- MODE 1 and 2 rings: head and tail counts, entries reserved by QRES grants, and the admission time of each item -/
  head : Nat
  tail : Nat
  reserved : Nat
  times : List Nat
  /-- handles of MODE 1 items hold references; carried instants of items -/
  carries : List Carry
  /-- threads that wait in DEQ, in the order in which they issued (R354); one that waits no more is passed over -/
  takers : List Nat
  /-- the header address last read for the queue and its words (R251) -/
  header : Option (Word × BitVec 512)
  deriving DecidableEq, Repr, Inhabited

/-- An error event (R462, R472): kind, aux, endpoint and slot, NOW and data. -/
structure Event where
  kind : Nat
  aux : Nat
  ep : Nat
  slot : Nat
  now : Word
  data : Word
  seq : BitVec 32
  deriving DecidableEq, Repr, Inhabited

/-- A completion record held in the bridge's store or on its way (R467). -/
structure HostRec where
  queue : Nat
  idx : Nat
  data : BitVec 256
  since : Nat
  logged : Bool
  deriving DecidableEq, Repr, Inhabited

/-- The bridge's registers of R469 that hold a value. -/
structure Bridge where
  bootState : BitVec 3
  bootFail : BitVec 8
  ctxbase : Word
  grpbase : Word
  qdbase : Word
  commbase : Word
  /-- COMMIT under way: the value written (R470) -/
  commit : Option Word
  settle : BitVec 7
  mirrto : BitVec 10
  commto : BitVec 14
  scrub : BitVec 8
  plim : BitVec 13
  master : Bool
  unsync : Bool
  ptasks : Word
  pmsgs : Word
  pstores : Word
  mgaddr : Word
  ltidx : BitVec 16
  /-- LTDATA0 to LTDATA3 as the instant unit read them together last (R469) -/
  ltdata : BitVec 256
  evread : BitVec 32
  evnext : BitVec 32
  /-- EVLOG: 128 entries by place (R472) -/
  evlog : Table Event
  /-- events in the bridge's store, with the count dropped (R463, R472) -/
  events : List Event
  dropped : Nat
  lostRecs : Nat
  evseq : BitVec 32
  /-- since when a missing number holds back the log (R462) -/
  gap : Option Nat
  attnonce : BitVec 256
  attState : BitVec 2
  attIndex : BitVec 20
  attReport : List (BitVec 8)
  attSig : List (BitVec 8)
  deriving DecidableEq, Repr, Inhabited

/-- An island (R481 to R483). -/
structure Island where
  en : Bool
  fstep : BitVec 4
  dth : BitVec 4
  nstr : BitVec 16
  mv : BitVec 16
  temp : BitVec 16
  stretched : Bool
  /-- the clock is halved (105 °C, R483) -/
  halved : Bool
  deriving DecidableEq, Repr, Inhabited

/-- A collective command at the collective engine (R132 to R135, R426, R427). -/
structure Coll where
  id : Nat
  req : Req
  carry : Carry
  words : List Word
  /-- LBASE and PEERMAP at PUSH -/
  lbase : Nat
  peermap : BitVec 44
  comm : Nat
  /-- the number of the command on its communicator (R427) -/
  num : Nat
  /-- chunks still to leave: destination rank, chunk number; the own rank's among them -/
  toSend : List (Nat × Nat)
  /-- chunks still expected: source rank, chunk number -/
  toCome : List (Nat × Nat)
  /-- NOW when the command began -/
  since : Nat
  /-- NOW when the latest chunk of a rank came (R135) -/
  lastFrom : Table Nat
  /-- pieces on their way to the destination -/
  flying : Nat
  /-- reductions: block number, running partial once the own contribution is there, contributions still to combine -/
  parts : List (Nat × Option (List (BitVec 8)) × Nat)
  /-- bytes written at this rank's destination -/
  bytes : Nat
  /-- it stops, with this status (R135) -/
  isOver : Option Nat
  deriving DecidableEq, Repr, Inhabited

/-- What has come for a command of a communicator that the own rank has yet to issue (R133, R135, R427): a chunk in its reserved buffer
(source rank, chunk number, OPN, TYPE, ROP, COUNT and ROOT, bytes), or the failure or lapse of a rank. -/
inductive Early where
  | chunk (comm num from_ no : Nat) (hdr : List Nat) (data : List (BitVec 8))
  | partFail (comm num rank : Nat) (lapse : Bool)
  deriving DecidableEq, Repr, Inhabited

/-- A probe under way (R279): its domain, the packages whose interfaces it visits, and the requester (none once its wait has
expired, R358). -/
structure Probe where
  dom : Nat
  pkgs : List Nat
  req : Option Req
  deriving DecidableEq, Repr, Inhabited

/-- An image in a save area (R289), whose bytes stand in DRAM: what the bytes of R288 leave out of the thread, the core where it
was saved, and whether it is marked DEAD. -/
structure SpillRef where
  thr : Thread
  ep : EP
  dead : Bool
  deriving DecidableEq, Repr, Inhabited

/-- An INVTLB under way (R42, R447): scope, context, address, the dies still to apply it, and who waits. -/
structure Inv where
  scope : Nat
  ctx : Ctx
  va : Nat
  todo : List Nat
  req : Req
  deriving DecidableEq, Repr, Inhabited

/-- A package (R203, R246, R261, R461 to R483). -/
structure Pkg where
  /-- powered and past step 2 of R474 -/
  powered : Bool
  bridge : Bridge
  staging : Memory
  /-- the attestation register (R480) and the booted image's SVN -/
  measure : BitVec 256
  svn : BitVec 32
  /-- the next lower-tree index in flash, kept over power loss (R479) -/
  flash : Nat
  /-- the slew of the time base: no more than 100 ppm (R200) -/
  slew : Int
  /-- the part of a nanosecond that the slew has gathered, in millionths -/
  phase : Int
  lapse : Table Lapse
  /-- handles freed, oldest first, and the first never used (R206) -/
  freed : List Nat
  fresh : Nat
  /-- sequence number of the next broadcast (R203) -/
  bseq : BitVec 16
  iureqs : List IuReq
  queues : Table QState
  /-- queues that wait for a handle (R206) -/
  handleWait : List Nat
  /-- the round-robin pointer of the dispatcher (R264) -/
  rr : Nat
  /-- placements pending: context, group, cluster (R265) -/
  pending : List (Ctx × Nat × Nat)
  /-- header reads under way: queue, entry, admission, carry (R251) -/
  headerReads : List (Nat × DispPkt)
  /-- INVTLBs under way, oldest first (R42, R447) -/
  invs : List Inv
  hostRecs : List HostRec
  kblUp : Bool
  kblFails : Nat
  /-- data-window writes performed and arrived (R466) -/
  hostWrites : Nat
  /-- what the host's last read was answered -/
  hostValue : Nat
  /-- link tables: package id, die and port (R108) -/
  links : Table (Nat × Nat)
  /-- ports down, and replays failed in a row per port (R109) -/
  portsDown : List Nat
  replays : Table Nat
  unreachable : List Nat
  /-- homes declared lost (R100) -/
  lost : List Nat
  colls : List Coll
  /-- per communicator: commands seen (R427) -/
  collNums : Table Nat
  /-- the communicator served last (R133) -/
  collLast : Nat
  /-- what has come for commands not yet issued here, oldest first (R133) -/
  early : List Early
  /-- probes under way (R279) -/
  probes : List Probe
  /-- per probe domain: signed count and blackness of the host gateway's interface (R278) -/
  ni : List (Nat × BitVec 32 × Bool)
  islands : Table Island
  /-- images spilled to the save area (R289) -/
  spilled : List SpillRef
  /-- groups saved out of their slots and tiles, by context and virtual core, with their last endpoint (R290, R291) -/
  savedGroups : List (Ctx × Nat × EP)
  /-- the copies of table entries that the units keep (R470), by table and index -/
  copies : Table Nat
  /-- the registers held at the endpoints of cores that have not been released yet (R471) -/
  mgmt : Table CoreMgmt
  deriving DecidableEq, Repr, Inhabited

/-- A command of a copy engine, a copy distributor or a code-fetch engine (R326, R419 to R425). -/
structure Cmd where
  id : Nat
  engine : Nat
  /-- the accounting engine: the core, or the die's copy distributor -/
  ep : EP
  req : Req
  carry : Carry
  words : List Word
  /-- counts and strides of dimensions 0 to DIMS − 1, those of dimension 0 being 0 -/
  dims : List (Nat × Int × Int)
  /-- LBASE and PEERMAP at PUSH (R423, R419) -/
  lbase : Nat
  peermap : BitVec 44
  /-- bytes cut into pieces so far, in the order of the elements, and in all -/
  done : Nat
  total : Nat
  /-- where the instant is checked next (R124) -/
  mark : Nat
  /-- reports awaited -/
  flying : Nat
  failed : Nat
  bytes : Nat
  fault : Bool
  refused : Bool
  annulled : Bool
  /-- FILL: the read of the pattern has left; the pattern (R424) -/
  asked : Bool
  pattern : Option (List (BitVec 8))
  /-- a landing of the management plane (R74) -/
  landing : Bool
  deriving DecidableEq, Repr, Inhabited

/-- A side of a piece at its home (R124, R126, R129): endpoint; offset in the allotment of an unresolved virtual core (R14), physical
scratchpad offset (operand slot n from 0x18_0000 + 0x2000 n on) or physical DRAM address; whether it was named locally (R125); the
sticky bit of its peer; the package of the other home of a mirrored page, and whether this is the mirror home (R98). -/
structure PieceLoc where
  ep : EP
  addr : Nat
  vcore : Option Nat
  dram : Bool
  local_ : Bool
  ebit : Nat
  mpkg : Option Nat
  mir : Bool
  deriving DecidableEq, Repr, Inhabited

/-- How a piece ended (R126). -/
inductive PieceEnd where
  | written | fault | refused | annulled
  deriving DecidableEq, Repr, Inhabited

/-- Who is told once the mirror home has applied a write (R99): the requester of an access, or the engine of a piece. -/
inductive MirrorEnd where
  | answer (a : Answer)
  | piece (cmd len : Nat) (engine : EP)
  /-- a resolve: the die, the region, the owner (R188) -/
  | resolve (dk r : Nat) (ep : EP)
  deriving DecidableEq, Repr, Inhabited

/-- What a packet asks or says. -/
inductive Body where
  /-- an access to a scratchpad: physical offset once resolved (R13, R14) -/
  | access (vcore : Option Nat) (off : Nat) (phys : Option Nat) (acc : Access) (region : Option Nat) (relaxed local_ : Bool)
  /-- an access to a DRAM line: physical address (R82); `mirror` when it goes to the mirror home -/
  | dram (pa : Nat) (acc : Access) (region : Option Nat) (relaxed : Bool) (mpkg : Option Nat) (mirror : Bool)
  /-- an access to the management bridge window (R470) -/
  | window (off : Nat) (acc : Access) (priv : Bool)
  | answer (a : Answer)
  | message (vcore vthr : Nat) (m : Msg)
  | enq (q : Nat) (item : Packet) (ack : Bool)
  | qresReq (q n : Nat)
  | qresGrant (q n : Nat) (failed : Bool)
  | qresReturn (q n : Nat)
  /-- a piece on its way to its owner: source, destinations, length, and the masks of set-full (R148) -/
  | pieceRead (cmd : Nat) (src : PieceLoc) (len : Nat) (dsts : List PieceLoc) (need : List Nat) (engine : EP)
  /-- a piece at its recipient: the bytes, or none for an error piece -/
  | pieceWrite (cmd : Nat) (dst : PieceLoc) (data : Option (List (BitVec 8))) (len : Nat) (need : List Nat) (engine : EP)
  | pieceEnd (cmd len : Nat) (e : PieceEnd)
  | patternRead (cmd : Nat) (src : PieceLoc) (len : Nat) (engine : EP)
  /-- the answer of a pattern read: the element, or none for a fault; and whether it was annulled -/
  | pattern (cmd : Nat) (data : Option (List (BitVec 8))) (annulled : Bool)
  | program (cmd : Packet)
  | migrant (m : Migrant)
  | comeBack (m : Migrant) (trap : Option (Nat × Word × Word)) (ended : Bool)
  /-- a write that the mirror home applies, and whom it tells (R98, R99) -/
  | mirrorWrite (pa : Nat) (data : List (BitVec 8)) (fin : MirrorEnd) (orig : Carry)
  /-- a chunk of a collective (R133): communicator, command number, source rank, chunk number, OPN, TYPE, ROP, COUNT and ROOT, bytes -/
  | chunk (comm num from_ no : Nat) (hdr : List Nat) (data : List (BitVec 8))
  /-- a participant of a collective fails, or its instant lapses there (R135): communicator, command number, rank -/
  | partFail (comm num rank : Nat) (lapse : Bool)
  /-- a migrant's FENCE reads and clears the origin's sticky bits (R377) -/
  | sticky (d : Reg)
  /-- an error report of a migrant's operation on its way to the origin's sticky bits, and the operation that it then answers (R377) -/
  | stickySet (w : Word) (req : Req) (a : Answer)
  /-- a message of the region unit's (R486) -/
  | region (m : RMsg)
  deriving DecidableEq, Repr, Inhabited

/-- Where a packet is (R107, R208): at its source package before egress, between packages, in its destination package, or lost with a
failed port (R109). -/
inductive Stage where
  | egress | link | arrived | lost
  deriving DecidableEq, Repr, Inhabited

/-- A request of a mirrored page that its home in another package has served, kept with its reply: whoever sent it has not been answered yet
(R100). -/
structure Asked where
  src : EP
  dst : EP
  vc : Nat
  /-- NOW at its source when it left -/
  sent : Nat
  body : Body
  deriving DecidableEq, Repr, Inhabited

/-- A packet of the data plane (R107). -/
structure Pkt where
  src : EP
  dst : EP
  vc : Nat
  stage : Stage
  /-- NOW at its source when it left -/
  sent : Nat
  req : Req
  carry : Carry
  body : Body
  /-- its place in the order of arrival at the line-buffer port of its home, where it waits there (R82); 0 where it does not -/
  ticket : Nat
  /-- the request that it replies to, where the mirror timeout looks after that (R100) -/
  asked : Option Asked
  deriving DecidableEq, Repr, Inhabited

/-- The turn of a slot that has been granted and not yet used (R256): core, slot, the next head and the head halfword of the
instruction once fetched, and whether its access loses a bank in it (R46). -/
structure Turn where
  ep : EP
  slot : Nat
  next : CodeAddr
  head : Half
  lost : Bool
  deriving DecidableEq, Repr, Inhabited

/-- Something that happens to the domain: how many ns after the thing before it, and what (log 2). -/
structure Occ where
  dt : Nat
  ev : Ev
  deriving DecidableEq, Repr, Inhabited

/-- The state of a domain of T45 packages. -/
structure State where
  pkgs : Table Pkg
  /-- dies, by 8 × package + die -/
  dies : Table Die
  /-- clusters, by 256 × package + cluster -/
  clusters : Table Cluster
  /-- cores, by endpoint id -/
  cores : Table Core
  /-- DRAM bytes by physical address (R31) -/
  dram : Memory
  /-- check symbols: symbol k of codeword c of the line at PA is byte 12 × (PA / 64) + 3 × c + k (R91) -/
  check : Memory
  /-- packets in flight, in the order in which they left -/
  net : List Pkt
  /-- control-plane messages between instant units and collective engines -/
  ctl : List Ctl
  /-- commands of the copy engines, copy distributors and code-fetch engines -/
  cmds : List Cmd
  /-- host memory reached over the KBL, by package × 2^64 + address (R467) -/
  host : Memory
  turn : Option Turn
  /-- what is to happen, in order (log 2) -/
  agenda : List Occ
  /-- the model's own: next thread and command identity -/
  nextUid : Nat
  /-- the model's own: free values drawn so far (log 8) -/
  free : Nat
  deriving DecidableEq, Repr, Inhabited

/-- Why a step stops with a fault. Both arise only in states that no run from reset reaches. -/
inductive Fault where
  /-- Raised by every instruction of the Larbel set executed while no slot holds the turn: the core issues one only in a turn
  (R256). Safe: nothing is claimed of such a state. -/
  | noTurn
  /-- Raised by every instruction of the Larbel set when the slot that holds the turn holds no thread. Safe, as noTurn. -/
  | noThread
  deriving DecidableEq, Repr, Inhabited

/-- Why a step is refused. -/
inductive Refusal where
  /-- Raised by Dispatch for an instruction whose meaning is not written. Safe: no claim is made of it. -/
  | notModelled (mnemonic : String)
  deriving DecidableEq, Repr, Inhabited

/-- The domain before any power: no package is powered, BOOTSTAT.STATE is 0 everywhere (R474) and nothing is in any memory; the
agenda is empty. -/
def State.reset : State :=
  { pkgs := [], dies := [], clusters := [], cores := [], dram := [], check := [], net := [], ctl := [], cmds := [],
    host := [], turn := none, agenda := [], nextUid := 1, free := 0 }

end Sys2Proof.Machine
end

