-- ==== Sys2Proof/Machine/Bits.lean ====
section
/-! DEFINITION. Plain data operations the machine shares: sparse tables, byte memories in canonical form, little-endian words,
sign extension, and lists. -/

namespace Sys2Proof.Machine

/-- The value at a key of a table. -/
def tget {α : Type} : Table α → Nat → Option α
  | [], _ => none
  | (j, x) :: r, k => if j == k then some x else tget r k

/-- A table with a value at a key. -/
def tput {α : Type} (k : Nat) (x : α) : Table α → Table α
  | [] => [(k, x)]
  | (j, y) :: r => if j == k then (k, x) :: r else if k < j then (k, x) :: (j, y) :: r else (j, y) :: tput k x r

/-- A table without a key. -/
def tdelete {α : Type} (k : Nat) (t : Table α) : Table α := t.filter fun x => x.1 != k

/-- A table with the value at a key changed, where there is one. -/
def tmod {α : Type} (k : Nat) (f : α → α) : Table α → Table α
  | [] => []
  | (j, y) :: r => if j == k then (j, f y) :: r else (j, y) :: tmod k f r

/-- The byte at an address; an unlisted one reads 0. -/
def mget : Memory → Nat → BitVec 8
  | [], _ => 0
  | (j, b) :: r, a => if j == a then b else mget r a

/-- A memory with a byte written, in canonical form. -/
def mput (a : Nat) (b : BitVec 8) : Memory → Memory
  | [] => if b == 0 then [] else [(a, b)]
  | (j, c) :: r =>
    if j == a then (if b == 0 then r else (a, b) :: r)
    else if a < j then (if b == 0 then (j, c) :: r else (a, b) :: (j, c) :: r)
    else (j, c) :: mput a b r

/-- Every address of the memory is above a bound, or there is none, and no entry is 0. -/
def Memory.above : Option Nat → Memory → Bool
  | _, [] => true
  | lo, (j, b) :: r => (match lo with | none => true | some a => decide (a < j)) && b != 0 && Memory.above (some j) r

/-- The canonical form: addresses strictly rising, no entry 0. -/
def Memory.wf (m : Memory) : Bool := Memory.above none m

/-- n bytes at an address, as a little-endian number (R2). -/
def mread (m : Memory) (a : Nat) : Nat → Nat
  | 0 => 0
  | n + 1 => (mget m a).toNat + 256 * mread m (a + 1) n

/-- The low n bytes of a number written little-endian (R2). -/
def mwrite (m : Memory) (a : Nat) : Nat → Nat → Memory
  | 0, _ => m
  | n + 1, v => mwrite (mput a (BitVec.ofNat 8 v) m) (a + 1) n (v / 256)

/-- n bytes at an address, as a list. -/
def mbytes (m : Memory) (a : Nat) : Nat → List (BitVec 8)
  | 0 => []
  | n + 1 => mget m a :: mbytes m (a + 1) n

/-- A list of bytes written at an address. -/
def mputs (a : Nat) : List (BitVec 8) → Memory → Memory
  | [], m => m
  | b :: bs, m => mputs (a + 1) bs (mput a b m)

/-- The bytes of a range are 0 (listed no more). -/
def mclear (m : Memory) (a n : Nat) : Memory := m.filter fun c => c.1 < a || a + n ≤ c.1

/-- A list of bytes as a little-endian number. -/
def leNat : List (BitVec 8) → Nat
  | [] => 0
  | b :: bs => b.toNat + 256 * leNat bs

/-- The low n bytes of a number, little-endian. -/
def leBytes : Nat → Nat → List (BitVec 8)
  | 0, _ => []
  | n + 1, v => BitVec.ofNat 8 v :: leBytes n (v / 256)

/-- A number of w bits read as two's complement. -/
def signed (w v : Nat) : Int := if v % 2 ^ w < 2 ^ (w - 1) then (v % 2 ^ w : Nat) else (v % 2 ^ w : Nat) - (2 ^ w : Nat)

/-- An integer modulo 2^w. -/
def wrap (w : Nat) (v : Int) : Nat := (v % (2 ^ w : Nat)).toNat

/-- A value of w bits sign-extended to 64 bits. -/
def sextTo (w v : Nat) : Word := BitVec.ofInt 64 (signed w v)

/-- A 64-bit word of a number. -/
def word (n : Nat) : Word := BitVec.ofNat 64 n

/-- The first place of a list where a test holds. -/
def findPos {α : Type} (p : α → Bool) : List α → Option Nat
  | [] => none
  | x :: r => if p x then some 0 else (findPos p r).map (· + 1)

/-- A list without the item at a place. -/
def dropAt {α : Type} : Nat → List α → List α
  | _, [] => []
  | 0, _ :: r => r
  | n + 1, x :: r => x :: dropAt n r

/-- A list with the item at a place changed. -/
def modAt {α : Type} (f : α → α) : Nat → List α → List α
  | _, [] => []
  | 0, x :: r => f x :: r
  | n + 1, x :: r => x :: modAt f n r

/-- A list with the item at a place replaced. -/
def setAt {α : Type} (n : Nat) (x : α) (l : List α) : List α := modAt (fun _ => x) n l

/-- The number of one bits of the low n bits (R334). -/
def popCount (v : Nat) : Nat → Nat
  | 0 => 0
  | n + 1 => v % 2 + popCount (v / 2) n

/-- The number of trailing zero bits, at most n (R334). -/
def ctzN (v : Nat) : Nat → Nat
  | 0 => 0
  | n + 1 => if v % 2 == 1 then 0 else 1 + ctzN (v / 2) n

/-- The bits needed for a number: 0 for 0. -/
def bitLen (v : Nat) : Nat := if v == 0 then 0 else Nat.log2 v + 1

/-- A saturating 32-bit count (R224). -/
def satAdd (c : BitVec 32) (n : Nat) : BitVec 32 := BitVec.ofNat 32 (min (c.toNat + n) (2 ^ 32 - 1))

/-- A saturating 64-bit count (R471). -/
def satAdd64 (c : Word) (n : Nat) : Word := BitVec.ofNat 64 (min (c.toNat + n) (2 ^ 64 - 1))

/-- Ranges [a, a+n) and [b, b+m) share a byte. -/
def overlaps (a n b m : Nat) : Bool := decide (a < b + m) && decide (b < a + n) && decide (0 < n) && decide (0 < m)

/-- The aligned granules or words of size k that a range touches, as their numbers, ascending. -/
def blocks (a n k : Nat) : List Nat := if n == 0 then [] else (List.range ((a + n - 1) / k + 1 - a / k)).map (· + a / k)

/-- A mask of n ones. -/
def ones (n : Nat) : Nat := 2 ^ n - 1

/-- Bits hi..lo of a word, as a number. -/
def wb (w : Word) (hi lo : Nat) : Nat := bitsAt w.toNat hi lo

/-- The all-ones word. -/
def allOnes : Word := BitVec.ofNat 64 (2 ^ 64 - 1)

/-- The instant never (R202). -/
def never : Instant := BitVec.ofNat 48 (2 ^ 48 - 1)

/-- Every element of a range holds. -/
def allUpTo (n : Nat) (p : Nat → Bool) : Bool := (List.range n).all p

/-- Insert at the end, or once only. -/
def addOnce {α : Type} [BEq α] (x : α) (l : List α) : List α := if l.contains x then l else l ++ [x]

end Sys2Proof.Machine
end

