-- ==== Sys2Proof/Machine/Hash.lean ====
section
/-! DEFINITION. The algorithms that the boot ROM and the attestation use by name (R477, R480): SHA-256 (FIPS 180-4) and the verification
of an LMS signature (RFC 8554) with LMS_SHA256_M32_H10 and LMOTS_SHA256_N32_W4 (PRESUMED, log 10). -/

namespace Sys2Proof.Machine

open Sys2Proof

/-- The round constants. -/
def shaK : List (BitVec 32) :=
  [0x428A2F98, 0x71374491, 0xB5C0FBCF, 0xE9B5DBA5, 0x3956C25B, 0x59F111F1, 0x923F82A4, 0xAB1C5ED5] ++
  [0xD807AA98, 0x12835B01, 0x243185BE, 0x550C7DC3, 0x72BE5D74, 0x80DEB1FE, 0x9BDC06A7, 0xC19BF174] ++
  [0xE49B69C1, 0xEFBE4786, 0x0FC19DC6, 0x240CA1CC, 0x2DE92C6F, 0x4A7484AA, 0x5CB0A9DC, 0x76F988DA] ++
  [0x983E5152, 0xA831C66D, 0xB00327C8, 0xBF597FC7, 0xC6E00BF3, 0xD5A79147, 0x06CA6351, 0x14292967] ++
  [0x27B70A85, 0x2E1B2138, 0x4D2C6DFC, 0x53380D13, 0x650A7354, 0x766A0ABB, 0x81C2C92E, 0x92722C85] ++
  [0xA2BFE8A1, 0xA81A664B, 0xC24B8B70, 0xC76C51A3, 0xD192E819, 0xD6990624, 0xF40E3585, 0x106AA070] ++
  [0x19A4C116, 0x1E376C08, 0x2748774C, 0x34B0BCB5, 0x391C0CB3, 0x4ED8AA4A, 0x5B9CCA4F, 0x682E6FF3] ++
  [0x748F82EE, 0x78A5636F, 0x84C87814, 0x8CC70208, 0x90BEFFFA, 0xA4506CEB, 0xBEF9A3F7, 0xC67178F2]

/-- The initial hash value. -/
def shaInit : List (BitVec 32) :=
  [0x6A09E667, 0xBB67AE85, 0x3C6EF372, 0xA54FF53A, 0x510E527F, 0x9B05688C, 0x1F83D9AB, 0x5BE0CD19]

/-- A number of n bytes, the highest first. -/
def beBytes (n v : Nat) : List (BitVec 8) := (leBytes n v).reverse

/-- The message padded to whole blocks of 64 bytes. -/
def shaPad (m : List (BitVec 8)) : List (BitVec 8) :=
  m ++ 0x80 :: List.replicate ((119 - m.length % 64) % 64) 0 ++ beBytes 8 (8 * m.length)

/-- The words of a block, the last first. -/
def shaWords : Nat → List (BitVec 8) → List (BitVec 32) → List (BitVec 32)
  | n + 1, a :: b :: c :: d :: r, ws => shaWords n r ((a ++ b ++ c ++ d) :: ws)
  | _, _, ws => ws

/-- n more words of the message schedule, the last first. -/
def shaSchedule : Nat → List (BitVec 32) → List (BitVec 32)
  | 0, ws => ws
  | n + 1, ws =>
    let w := fun i => ws.getD i 0
    let s0 := (w 14).rotateRight 7 ^^^ (w 14).rotateRight 18 ^^^ (w 14) >>> 3
    let s1 := (w 1).rotateRight 17 ^^^ (w 1).rotateRight 19 ^^^ (w 1) >>> 10
    shaSchedule n ((s1 + w 6 + s0 + w 15) :: ws)

/-- One round: the eight working variables after a round constant and a word. -/
def shaRound (v : List (BitVec 32)) (kw : BitVec 32 × BitVec 32) : List (BitVec 32) := match v with
  | [a, b, c, d, e, f, g, h] =>
    let t1 := h + (e.rotateRight 6 ^^^ e.rotateRight 11 ^^^ e.rotateRight 25) + ((e &&& f) ^^^ (~~~e &&& g)) + kw.1 + kw.2
    let t2 := (a.rotateRight 2 ^^^ a.rotateRight 13 ^^^ a.rotateRight 22) + ((a &&& b) ^^^ (a &&& c) ^^^ (b &&& c))
    [t1 + t2, a, b, c, d + t1, e, f, g]
  | v => v

/-- The hash value after n blocks. -/
def shaBlocks : Nat → List (BitVec 8) → List (BitVec 32) → List (BitVec 32)
  | 0, _, h => h
  | n + 1, m, h =>
    let ws := (shaSchedule 48 (shaWords 16 m [])).reverse
    shaBlocks n (m.drop 64) (List.zipWith (· + ·) h ((shaK.zip ws).foldl shaRound h))

/-- SHA-256 of a list of bytes: the 32 bytes of the digest in their order. -/
def shaBytes (m : List (BitVec 8)) : List (BitVec 8) :=
  let p := shaPad m
  (shaBlocks (p.length / 64) p shaInit).flatMap fun w => beBytes 4 w.toNat

/-- SHA-256 as a register of 256 bits, the first byte of the digest lowest. -/
def sha256 (m : List (BitVec 8)) : BitVec 256 := BitVec.ofNat 256 ((shaBytes m).foldr (fun b n => b.toNat + 256 * n) 0)

/-- The i-th half byte of a string (RFC 8554, coef with w = 4). -/
def otsCoef (l : List (BitVec 8)) (i : Nat) : Nat := (l.getD (i / 2) 0).toNat / 16 ^ (1 - i % 2) % 16

/-- The checksum of a hash of 32 bytes, as two bytes (w = 4, ls = 4). -/
def otsChecksum (q : List (BitVec 8)) : List (BitVec 8) :=
  beBytes 2 (((List.range 64).map fun i => 15 - otsCoef q i).sum * 16)

/-- A hash chain carried on: n steps from step j of the chain whose prefix is given. -/
def otsChain (pre : List (BitVec 8)) : Nat → Nat → List (BitVec 8) → List (BitVec 8)
  | 0, _, t => t
  | n + 1, j, t => otsChain pre n (j + 1) (shaBytes (pre ++ BitVec.ofNat 8 j :: t))

/-- The LM-OTS public key that a signature implies for a message (RFC 8554 algorithm 4b; 67 chains). -/
def otsKey (i32 : List (BitVec 8)) (c y msg : List (BitVec 8)) : List (BitVec 8) :=
  let q := shaBytes (i32 ++ [0x81, 0x81] ++ c ++ msg)
  let q := q ++ otsChecksum q
  shaBytes (i32 ++ [0x80, 0x80] ++ (List.range 67).flatMap fun i =>
    otsChain (i32 ++ beBytes 2 i) (15 - otsCoef q i) (otsCoef q i) ((y.drop (32 * i)).take 32))

/-- The root that a path of the tree implies for a node (RFC 8554 algorithm 6a; ident is the 16 bytes of I). -/
def lmsRoot (ident : List (BitVec 8)) : Nat → Nat → List (BitVec 8) → List (BitVec 8) → List (BitVec 8)
  | 0, _, _, t => t
  | n + 1, node, path, t =>
    let p := path.take 32
    let h := shaBytes (ident ++ beBytes 4 (node / 2) ++ [0x83, 0x83] ++ if node % 2 == 1 then p ++ t else t ++ p)
    lmsRoot ident n (node / 2) (path.drop 32) h

/-- The type codes of RFC 8554 that R477 names: LMS_SHA256_M32_H10 and LMOTS_SHA256_N32_W4 (PRESUMED, log 10). -/
def lmsType : Nat := 6
/-- LMOTS_SHA256_N32_W4 of RFC 8554 (PRESUMED, log 10). -/
def lmotsType : Nat := 3

/-- An LMS signature of 2508 bytes verifies for a key of 56 bytes and a message (R477, RFC 8554 algorithm 6). -/
def lmsVerify (key msg sig : List (BitVec 8)) : Bool :=
  let part := fun (l : List (BitVec 8)) (a n : Nat) => (l.drop a).take n
  let ident := part key 8 16
  let qBytes := part sig 0 4
  let q := qBytes.foldl (fun n b => 256 * n + b.toNat) 0
  key.length == 56 && sig.length == 2508 && part key 0 4 == beBytes 4 lmsType && part key 4 4 == beBytes 4 lmotsType
  && part sig 4 4 == beBytes 4 lmotsType && part sig 2184 4 == beBytes 4 lmsType && decide (q < 1024)
  && (let kc := otsKey (ident ++ qBytes) (part sig 8 32) (part sig 40 2144) msg
      let leaf := shaBytes (ident ++ beBytes 4 (1024 + q) ++ [0x82, 0x82] ++ kc)
      lmsRoot ident 10 (1024 + q) (part sig 2188 320) leaf == part key 24 32)

end Sys2Proof.Machine
end

