-- ==== Sys2Proof/Machine/Float.lean ====
section
/-! DEFINITION. The floating formats as exact values (R226, R227, R229), the one rounding function (R230, R231, R233), and the exact
operations built on it (R239, R243, R244). -/

namespace Sys2Proof.Machine

/-- A format of R226: width, exponent bits, fraction bits, bias; E4M3 has no infinity and one NaN. -/
structure Fmt where
  w : Nat
  eb : Nat
  mb : Nat
  bias : Nat
  e4 : Bool
  deriving DecidableEq, Repr

/-- FP64. -/
def fmt64 : Fmt := ⟨64, 11, 52, 1023, false⟩
/-- FP32. -/
def fmt32 : Fmt := ⟨32, 8, 23, 127, false⟩
/-- FP16. -/
def fmt16 : Fmt := ⟨16, 5, 10, 15, false⟩
/-- BF16. -/
def fmtBf : Fmt := ⟨16, 8, 7, 127, false⟩
/-- E4M3. -/
def fmtE4 : Fmt := ⟨8, 4, 3, 7, true⟩
/-- E5M2. -/
def fmtE5 : Fmt := ⟨8, 5, 2, 15, false⟩

/-- The format of a floating type; LG6 and the integers have none. -/
def fmtOf : Ty → Fmt
  | .bf => fmtBf | .hf => fmt16 | .sf => fmt32 | .df => fmt64 | .e4 => fmtE4 | .e5 => fmtE5 | _ => fmt32

/-- A floating value: a NaN that signals or not, an infinity, or (−1)^s · m · 2^e exactly. -/
inductive FVal where
  | nan (sig : Bool)
  | inf (s : Bool)
  | num (s : Bool) (m : Nat) (e : Int)
  deriving DecidableEq, Repr

/-- The flags of R232 by bit. -/
def fNV : Nat := 16
/-- Division by zero. -/
def fDZ : Nat := 8
/-- Overflow. -/
def fOF : Nat := 4
/-- Underflow. -/
def fUF : Nat := 2
/-- Inexact. -/
def fNX : Nat := 1

/-- The value that the bits of a format hold (R226, R227). -/
def unpack (f : Fmt) (x : Nat) : FVal :=
  let s := bitAt x (f.w - 1)
  let ex := x / 2 ^ f.mb % 2 ^ f.eb
  let m := x % 2 ^ f.mb
  let top := 2 ^ f.eb - 1
  if f.e4 then
    if ex == top && m == 2 ^ f.mb - 1 then .nan false
    else if ex == 0 then .num s m (1 - (f.bias : Int) - f.mb) else .num s (m + 2 ^ f.mb) ((ex : Int) - f.bias - f.mb)
  else if ex == top then (if m == 0 then .inf s else .nan (!bitAt m (f.mb - 1)))
  else if ex == 0 then .num s m (1 - (f.bias : Int) - f.mb) else .num s (m + 2 ^ f.mb) ((ex : Int) - f.bias - f.mb)

/-- The canonical NaN of a format (R227). -/
def canonNan (f : Fmt) : Nat :=
  if f.e4 then 0x7F else (2 ^ f.eb - 1) * 2 ^ f.mb + 2 ^ (f.mb - 1)

/-- Zero with a sign. -/
def zeroOf (f : Fmt) (s : Bool) : Nat := b2n s * 2 ^ (f.w - 1)
/-- Infinity with a sign; in E4M3 its NaN with the sign (R233). -/
def infOf (f : Fmt) (s : Bool) : Nat :=
  b2n s * 2 ^ (f.w - 1) + (if f.e4 then 0x7F else (2 ^ f.eb - 1) * 2 ^ f.mb)
/-- The largest finite magnitude with a sign. -/
def maxOf (f : Fmt) (s : Bool) : Nat :=
  b2n s * 2 ^ (f.w - 1) + (if f.e4 then 0x7E else (2 ^ f.eb - 1) * 2 ^ f.mb - 1)

/-- Whether a discarded part makes a magnitude round up (R230): kept is odd, the part's place against the half, and the sign. -/
def roundsUp (rm : Rnd) (s odd : Bool) (rem half : Nat) : Bool :=
  if rem == 0 then false
  else match rm with
    | .rne => half < rem || (rem == half && odd)
    | .rz => false
    | .rd => s
    | .ru => !s
    | .rna => half ≤ rem

/-- m · 2^e rounded to a multiple of 2^q: the multiple, and whether it is inexact. -/
def roundAt (rm : Rnd) (s : Bool) (m : Nat) (e q : Int) : Nat × Bool :=
  if q ≤ e then (m * 2 ^ (e - q).toNat, false)
  else
    let k := (q - e).toNat
    let kept := m / 2 ^ k
    let rem := m % 2 ^ k
    (if roundsUp rm s (kept % 2 == 1) rem (2 ^ (k - 1)) then kept + 1 else kept, rem != 0)

/-- The rounding of an exact magnitude m · 2^e, or with `sticky` of one strictly between m and m + 1 times 2^e, m then having more
bits than the format keeps (R231, R233): bits and flags. `sat` clamps an overflow. -/
def roundTo (f : Fmt) (rm : Rnd) (sat : Bool) (s : Bool) (m : Nat) (e : Int) (sticky : Bool) : Nat × Nat :=
  if m == 0 && !sticky then (zeroOf f s, 0)
  else
    let m := 4 * m + b2n sticky
    let e := e - 2
    let top : Int := e + bitLen m - 1
    let emin : Int := 1 - (f.bias : Int)
    let q := max (top - f.mb) (emin - f.mb)
    let (r, inx) := roundAt rm s m e q
    -- a carry out of the top bit gives the next power of two, which the comparison and the packing see as such
    let maxE : Int := if f.e4 then 8 else (2 ^ f.eb - 2 : Nat) - (f.bias : Int)
    let maxM : Nat := if f.e4 then 14 else 2 ^ (f.mb + 1) - 1
    let isOver := decide (maxE - f.mb < q) && decide (maxM * 1 < r * 2 ^ (q - (maxE - f.mb)).toNat)
      || decide (q = maxE - f.mb) && decide (maxM < r)
    if isOver then
      let flags := fOF + fNX
      if sat then (maxOf f s, flags)
      else if f.e4 then (infOf f s, flags)
      else match rm with
        | .rz => (maxOf f s, flags)
        | .rd => (if s then infOf f s else maxOf f s, flags)
        | .ru => (if s then maxOf f s else infOf f s, flags)
        | _ => (infOf f s, flags)
    else
      let (u, _) := roundAt rm s m e (top - f.mb)
      -- tiny after rounding: the result with unbounded exponent is below 2^emin (R231)
      let tiny := decide (top < emin) && !(decide (top = emin - 1) && u == 2 ^ (f.mb + 1))
      let flags := (if inx then fNX else 0) + (if inx && tiny then fUF else 0)
      let mag := if r < 2 ^ f.mb then r
        else if r == 2 ^ (f.mb + 1) then ((q + 1 + f.mb + f.bias).toNat) * 2 ^ f.mb
        else (q + f.mb + f.bias).toNat * 2 ^ f.mb + (r - 2 ^ f.mb)
      (b2n s * 2 ^ (f.w - 1) + mag, flags)

/-- An exact finite value as a signed mantissa and an exponent. -/
structure Exact where
  m : Int
  e : Int
  deriving DecidableEq, Repr

/-- The signed mantissa of a sign and a magnitude. -/
def sgnOf (s : Bool) (m : Nat) : Int := if s then -(m : Int) else m

/-- The exact sum. -/
def Exact.add (a b : Exact) : Exact :=
  let e := min a.e b.e
  ⟨a.m * 2 ^ (a.e - e).toNat + b.m * 2 ^ (b.e - e).toNat, e⟩

/-- The exact product. -/
def Exact.mul (a b : Exact) : Exact := ⟨a.m * b.m, a.e + b.e⟩

/-- A rounded exact value; `zs` is the sign of an exact zero. -/
def roundExact (f : Fmt) (rm : Rnd) (zs : Bool) (x : Exact) : Nat × Nat :=
  if x.m == 0 then (zeroOf f zs, 0) else roundTo f rm false (decide (x.m < 0)) x.m.natAbs x.e false

/-- The flag of a NaN operand (R227). -/
def nvOf : FVal → Nat
  | .nan true => fNV
  | _ => 0

/-- A value is a NaN. -/
def FVal.isNan : FVal → Bool
  | .nan _ => true
  | _ => false

/-- The product as a value; 0 · ∞ is a NaN that the flags report. -/
def mulVal (a b : FVal) : FVal × Nat :=
  let fl := nvOf a ||| nvOf b
  match a, b with
  | .nan _, _ => (.nan false, fl)
  | _, .nan _ => (.nan false, fl)
  | .inf s, .inf t => (.inf (s != t), fl)
  | .inf s, .num t m _ => if m == 0 then (.nan false, fl ||| fNV) else (.inf (s != t), fl)
  | .num s m _, .inf t => if m == 0 then (.nan false, fl ||| fNV) else (.inf (s != t), fl)
  | .num s m e, .num t n g => (.num (s != t) (m * n) (e + g), fl)

/-- The exact sum of two values as a value, and the flags of R239: an exact zero has the sign that the mode gives. -/
def addVal (rm : Rnd) (a b : FVal) : FVal × Nat :=
  let fl := nvOf a ||| nvOf b
  match a, b with
  | .nan _, _ => (.nan false, fl)
  | _, .nan _ => (.nan false, fl)
  | .inf s, .inf t => if s == t then (.inf s, fl) else (.nan false, fl ||| fNV)
  | .inf s, .num .. => (.inf s, fl)
  | .num .., .inf t => (.inf t, fl)
  | .num s m e, .num t n g =>
    let x := (Exact.mk (sgnOf s m) e).add ⟨sgnOf t n, g⟩
    if x.m == 0 then (.num (if m == 0 && s == t then s else rm == .rd) 0 0, fl)
    else (.num (decide (x.m < 0)) x.m.natAbs x.e, fl)

/-- A value rounded into a format: bits and flags. -/
def packVal (f : Fmt) (rm : Rnd) (v : FVal) : Nat × Nat :=
  match v with
  | .nan _ => (canonNan f, 0)
  | .inf s => (infOf f s, 0)
  | .num s m e => roundTo f rm false s m e false

/-- A value with flags, rounded. -/
def packWith (f : Fmt) (rm : Rnd) (v : FVal × Nat) : Nat × Nat :=
  let (x, fl) := packVal f rm v.1
  (x, fl ||| v.2)

/-- a + b (R389). -/
def fAdd (f : Fmt) (rm : Rnd) (a b : Nat) : Nat × Nat := packWith f rm (addVal rm (unpack f a) (unpack f b))

/-- A value with its sign turned. -/
def FVal.neg : FVal → FVal
  | .nan s => .nan s
  | .inf s => .inf (!s)
  | .num s m e => .num (!s) m e

/-- a − b (R389). -/
def fSub (f : Fmt) (rm : Rnd) (a b : Nat) : Nat × Nat := packWith f rm (addVal rm (unpack f a) (unpack f b).neg)

/-- a · b (R389). -/
def fMul (f : Fmt) (rm : Rnd) (a b : Nat) : Nat × Nat := packWith f rm (mulVal (unpack f a) (unpack f b))

/-- a · b + c with one rounding (R239, R389). -/
def fmaVal (rm : Rnd) (a b c : FVal) : FVal × Nat :=
  let (p, f1) := mulVal a b
  let (r, f2) := addVal rm p c
  (r, f1 ||| f2)

/-- FMA on bits (R389). -/
def fFma (f : Fmt) (rm : Rnd) (a b c : Nat) : Nat × Nat := packWith f rm (fmaVal rm (unpack f a) (unpack f b) (unpack f c))

/-- The integer square root of a number of at most 2n bits, bit by bit. -/
def isqrtBits (x : Nat) : Nat → Nat → Nat
  | 0, r => r
  | n + 1, r => let c := r + 2 ^ n; isqrtBits x n (if c * c ≤ x then c else r)

/-- The integer square root. -/
def isqrt (x : Nat) : Nat := isqrtBits x ((bitLen x + 1) / 2) 0

/-- a / b (R243, R389). -/
def fDiv (f : Fmt) (rm : Rnd) (a b : Nat) : Nat × Nat :=
  let va := unpack f a
  let vb := unpack f b
  let fl := nvOf va ||| nvOf vb
  match va, vb with
  | .nan _, _ => (canonNan f, fl)
  | _, .nan _ => (canonNan f, fl)
  | .inf _, .inf _ => (canonNan f, fNV)
  | .inf s, .num t _ _ => (infOf f (s != t), 0)
  | .num s _ _, .inf t => (zeroOf f (s != t), 0)
  | .num s m e, .num t n g =>
    if n == 0 then (if m == 0 then (canonNan f, fNV) else (infOf f (s != t), fDZ))
    else if m == 0 then (zeroOf f (s != t), 0)
    else
      let k := f.mb + 5 + bitLen n
      let x := m * 2 ^ k
      roundTo f rm false (s != t) (x / n) (e - g - k) (x % n != 0)

/-- √a (R243, R389): √−0 is −0, below 0 is invalid. -/
def fSqrt (f : Fmt) (rm : Rnd) (a : Nat) : Nat × Nat :=
  match unpack f a with
  | .nan sg => (canonNan f, if sg then fNV else 0)
  | .inf s => if s then (canonNan f, fNV) else (infOf f false, 0)
  | .num s m e =>
    if m == 0 then (zeroOf f s, 0)
    else if s then (canonNan f, fNV)
    else
      let k := 2 * (f.mb + 5)
      let k := if (e - k) % 2 == 0 then k else k + 1
      let x := m * 2 ^ k
      let r := isqrt x
      roundTo f rm false false r ((e - k) / 2) (r * r != x)

/-- 1 / √a (R243). -/
def fRsq (f : Fmt) (rm : Rnd) (a : Nat) : Nat × Nat :=
  match unpack f a with
  | .nan sg => (canonNan f, if sg then fNV else 0)
  | .inf s => if s then (canonNan f, fNV) else (zeroOf f false, 0)
  | .num s m e =>
    if m == 0 then (infOf f s, fDZ)
    else if s then (canonNan f, fNV)
    else
      let m := if e % 2 == 0 then m else 2 * m
      let e := if e % 2 == 0 then e else e - 1
      let k := f.mb + 6 + bitLen m
      let r := isqrt (2 ^ (2 * k) / m)
      roundTo f rm false false r (-(e / 2) - k) (r * r * m != 2 ^ (2 * k))

/-- 2^f · 2^P for a fraction f = n / 2^w below 1, rounded down with an error below 2^12: the product of the factors 2^(2^−i) for the
bits of f, each the square root of the one before. -/
def pow2Frac (P n w : Nat) : Nat → Nat → Nat → Nat
  | 0, _, acc => acc
  | k + 1, c, acc =>
    let c := isqrt (c * 2 ^ P)
    pow2Frac P n w k c (if bitAt n k then acc * c / 2 ^ P else acc)

/-- The bits of working precision of exp2 (log 11). -/
def expBits : Nat := 256

/-- 2^a, correctly rounded (R243; log 11). -/
def fExp2 (f : Fmt) (rm : Rnd) (a : Nat) : Nat × Nat :=
  match unpack f a with
  | .nan sg => (canonNan f, if sg then fNV else 0)
  | .inf s => if s then (zeroOf f false, 0) else (infOf f false, 0)
  | .num s m e =>
    if m == 0 then roundTo f rm false false 1 0 false
    else if e + bitLen m > 20 then
      -- beyond every exponent of the format
      (if s then roundTo f rm false false (2 ^ (f.mb + 4)) (-(2 ^ 14 : Nat)) true
       else roundTo f rm false false (2 ^ (f.mb + 4)) (2 ^ 14 : Nat) true)
    else if e + bitLen m < -((f.mb : Int) + 8) then
      (if s then roundTo f rm false false (2 ^ (f.mb + 8) - 1) (-(f.mb + 8 : Nat)) true
       else roundTo f rm false false (2 ^ (f.mb + 8)) (-(f.mb + 8 : Nat)) true)
    else
      let w := if e < 0 then (-e).toNat else 0
      let v : Int := sgnOf s m * (if e < 0 then 1 else 2 ^ e.toNat)
      let ip := v / (2 ^ w : Nat)
      let fr := (v % (2 ^ w : Nat)).toNat
      if fr == 0 then roundTo f rm false false 1 ip false
      else
        let y := pow2Frac expBits fr w w (2 * 2 ^ expBits) (2 ^ expBits)
        let cut := expBits - (f.mb + 80)
        roundTo f rm false false (y / 2 ^ cut) (ip - (f.mb + 80 : Nat)) true

/-- The bits of a base-two logarithm of z / 2^P in [1, 2): n of them, by squaring. -/
def log2Bits (P : Nat) : Nat → Nat → Nat → Nat
  | 0, _, acc => acc
  | n + 1, z, acc =>
    let z := z * z / 2 ^ P
    if 2 ^ (P + 1) ≤ z then log2Bits P n (z / 2) (2 * acc + 1) else log2Bits P n z (2 * acc)

/-- The bits of fraction that log2 works to (log 11). -/
def logBits : Nat := 240

/-- log2 of a, correctly rounded (R243; log 11). -/
def fLog2 (f : Fmt) (rm : Rnd) (a : Nat) : Nat × Nat :=
  match unpack f a with
  | .nan sg => (canonNan f, if sg then fNV else 0)
  | .inf s => if s then (canonNan f, fNV) else (infOf f false, 0)
  | .num s m e =>
    if m == 0 then (infOf f true, fDZ)
    else if s then (canonNan f, fNV)
    else
      let ip : Int := e + bitLen m - 1
      if m == 2 ^ (bitLen m - 1) then
        (if ip == 0 then (zeroOf f false, 0) else roundTo f rm false (decide (ip < 0)) ip.natAbs 0 false)
      else
        let P := logBits + 32
        let z := m * 2 ^ P / 2 ^ (bitLen m - 1)
        let v : Int := ip * (2 ^ logBits : Nat) + log2Bits P logBits z 0
        if 0 ≤ v then roundTo f rm false false v.natAbs (-(logBits : Int)) true
        else roundTo f rm false true (v.natAbs - 1) (-(logBits : Int)) true

/-- The order of two values that are not NaN, −0 below +0 where `zeros` says so (R244). -/
def ltVal (zeros : Bool) (a b : FVal) : Bool :=
  match a, b with
  | .nan _, _ => false
  | _, .nan _ => false
  | .inf s, .inf t => s && !t
  | .inf s, .num .. => s
  | .num .., .inf t => !t
  | .num s m e, .num t n g =>
    if m == 0 && n == 0 then zeros && s && !t
    else
      let k := min e g
      decide (sgnOf s m * 2 ^ (e - k).toNat < sgnOf t n * 2 ^ (g - k).toNat)

/-- FMIN and FMAX (R244). -/
def fMinMax (f : Fmt) (mx : Bool) (a b : Nat) : Nat × Nat :=
  let va := unpack f a
  let vb := unpack f b
  let fl := nvOf va ||| nvOf vb
  match va.isNan, vb.isNan with
  | true, true => (canonNan f, fl)
  | true, false => (b, fl)
  | false, true => (a, fl)
  | false, false => (if ltVal true va vb then (if mx then b else a) else (if mx then a else b), fl)

/-- The value of an LG6 code by a table (R229). -/
def lgVal (tab : List Nat) (x : Nat) : FVal :=
  let m := x % 32
  if m == 0 then .num false 0 0 else .num (bitAt x 5) (tab.getD (m % 4) 0) ((m / 4 : Nat) - 16)

/-- The value of the product of two LG6 codes (R229). -/
def lgMul (tab : List Nat) (a b : Nat) : FVal :=
  let ma := a % 32
  let mb := b % 32
  if ma == 0 || mb == 0 then .num false 0 0
  else .num (bitAt a 5 != bitAt b 5) (tab.getD ((ma + mb) % 4) 0) (((ma + mb) / 4 : Nat) - 20)

/-- A conversion to LG6 (R234): the nearest m to 4·log2|x| + 16, ties to the larger, is the greatest with 2^(2m) ≤ x^8 · 2^33. An infinite source
raises OF alone, as R234's pseudocode has it, where R231 has OF always raised together with NX (DEDUCED, log 83). -/
def toLg (v : FVal) : Nat × Nat :=
  match v with
  | .nan _ => (0, fNV)
  | .inf s => (b2n s * 32 + 31, fOF)
  | .num s x e =>
    if x == 0 then (0, 0)
    else
      let m : Int := ((bitLen (x ^ 8) : Int) - 1 + 8 * e + 33) / 2
      let exact := x == 2 ^ (bitLen x - 1) && m == 4 * ((bitLen x : Int) - 1 + e) + 16
      let nx := if exact then 0 else fNX
      if m < 1 then (0, fUF ||| fNX)
      else if 31 < m then (b2n s * 32 + 31, fOF ||| fNX ||| nx)
      else (b2n s * 32 + m.toNat, nx)

/-- The value of a type's bits: LG6 by a table (R229). -/
def tyVal (tab : List Nat) (ty : Ty) (x : Nat) : FVal := if ty == .lg then lgVal tab x else unpack (fmtOf ty) x

/-- A floating value converted to a floating type (R233, R234). -/
def cvtFloat (tgt : Ty) (rm : Rnd) (sat : Bool) (v : FVal) : Nat × Nat :=
  if tgt == .lg then toLg v
  else
    let f := (fmtOf tgt)
    match v with
    | .nan sg => (canonNan f, if sg then fNV else 0)
    | .inf s => if f.e4 then (if sat then (maxOf f s, 0) else (infOf f s, fNV)) else (infOf f s, 0)
    | .num s m e => roundTo f rm sat s m e false

/-- The least and the greatest value of an integer type. -/
def intRange (ty : Ty) : Int × Int :=
  if ty.isSigned then (-(2 ^ (ty.width - 1) : Nat), (2 ^ (ty.width - 1) : Nat) - 1) else (0, (2 ^ ty.width : Nat) - 1)

/-- A floating value converted to an integer type (R235). -/
def cvtToInt (tgt : Ty) (rm : Rnd) (v : FVal) : Nat × Nat :=
  let (lo, hi) := intRange tgt
  match v with
  | .nan _ => (0, fNV)
  | .inf s => (wrap tgt.width (if s then lo else hi), fNV)
  | .num s m e =>
    let (r, inx) := roundAt rm s m e 0
    let x := sgnOf s r
    if x < lo then (wrap tgt.width lo, fNV)
    else if hi < x then (wrap tgt.width hi, fNV)
    else (wrap tgt.width x, if inx then fNX else 0)

/-- The integer that the bits of an integer type hold. -/
def intOf (ty : Ty) (x : Nat) : Int := if ty.isSigned then signed ty.width x else (x % 2 ^ ty.width : Nat)

/-- An integer converted to a floating type (R235). -/
def cvtFromInt (tgt : Ty) (rm : Rnd) (sat : Bool) (x : Int) : Nat × Nat :=
  if tgt == .lg then toLg (.num (decide (x < 0)) x.natAbs 0)
  else if x == 0 then (0, 0) else roundTo (fmtOf tgt) rm sat (decide (x < 0)) x.natAbs 0 false

/-- Between integer types (R235): the low bits, or with sat clamped; no flag. -/
def cvtInt (tgt : Ty) (sat : Bool) (x : Int) : Nat :=
  let (lo, hi) := intRange tgt
  wrap tgt.width (if sat then (if x < lo then lo else if hi < x then hi else x) else x)

/-- A conversion between any two types (R233 to R235). -/
def convert (tab : List Nat) (tgt frm : Ty) (rm : Rnd) (sat : Bool) (x : Nat) : Nat × Nat :=
  if frm.isI then
    (if tgt.isI then (cvtInt tgt sat (intOf frm x), 0) else cvtFromInt tgt rm sat (intOf frm x))
  else if tgt.isI then cvtToInt tgt rm (tyVal tab frm x)
  else cvtFloat tgt rm sat (tyVal tab frm x)

end Sys2Proof.Machine
end

