-- ==== Sys2Proof/Machine/Topology.lean ====
section
/-! DEFINITION. Endpoint ids, clusters, islands and homes (R29 to R33, R461), the values of every register at reset or release
(R49), and the accessors of the tables of the state. -/

namespace Sys2Proof.Machine

/-- An endpoint id from its fields (R29). -/
def mkEp (pkg die kind x y : Nat) : EP := pkg * 2 ^ 14 + die * 2 ^ 11 + kind * 2 ^ 9 + x * 2 ^ 4 + y
/-- PKG of an endpoint id. -/
def epPkg (e : EP) : Nat := e / 2 ^ 14
/-- DIE of an endpoint id. -/
def epDie (e : EP) : Nat := e / 2 ^ 11 % 8
/-- KIND of an endpoint id. -/
def epKind (e : EP) : Nat := e / 2 ^ 9 % 4
/-- X of an endpoint id. -/
def epX (e : EP) : Nat := e / 2 ^ 4 % 32
/-- Y of an endpoint id. -/
def epY (e : EP) : Nat := e % 16

/-- An endpoint id that names something (R30). -/
def validEp (e : EP) : Bool :=
  e < 2 ^ 24 && match epKind e with
    | 0 => true
    | 1 => epY e == 0
    | 2 => epX e ≤ 3 && epY e ≤ 1
    | _ => epY e == 0 && (epX e == 0 || epX e == 4 || epX e == 5 || (epDie e == 0 && (epX e == 1 || epX e == 2 || epX e == 3)))

/-- An endpoint id that names a core (R22, R30). -/
def isCore (e : EP) : Bool := validEp e && epKind e != 3

/-- The kind of the core an id names. -/
def kindOf (e : EP) : CoreKind := match epKind e with
  | 1 => .memory
  | 2 => .gateway
  | _ => .compute

/-- The bytes of a core's scratchpad (R7, R76, R77). -/
def spadSize (e : EP) : Nat := if epKind e == 1 then Config.memSpadBytes else Config.spadBytes

/-- The key of a die in the table of dies. -/
def dieKey (e : EP) : Nat := epPkg e * 8 + epDie e

/-- The cluster of a core within its package (R461). Memory and gateway cores stand in no cluster of R461: the model serves them
by the first cluster of their die (DESIGN CHOICE, log 13). -/
def clusterOf (e : EP) : Nat := if epKind e == 0 then epDie e * 32 + epY e / 4 * 8 + epX e / 4 else epDie e * 32

/-- The key of a core's cluster in the table of clusters. -/
def clusterKey (e : EP) : Nat := epPkg e * 256 + clusterOf e

/-- The island of a compute core (R471). -/
def islandOf (e : EP) : Nat := epDie e * 128 + epY e / 2 * 16 + epX e / 2

/-- The compute cores of a cluster, row by row (R253). -/
def clusterCores (pkg cl : Nat) : List EP :=
  (List.range 16).map fun i =>
    mkEp pkg (cl / 32) 0 (cl % 32 % 8 * 4 + i % 4) (cl % 32 / 8 * 4 + i / 4)

/-- The package of a physical address (R31). -/
def paPkg (pa : Nat) : Nat := pa / 2 ^ 46 % 2 ^ 10

/-- The home channel of a physical address (R32). -/
def channelOf (pa : Nat) : Nat := (pa / 2 ^ 8 % 256) ^^^ (pa / 2 ^ 16 % 256) ^^^ (pa / 2 ^ 24 % 256) ^^^ (pa / 2 ^ 32 % 256)

/-- The home memory core of a physical address (R32). -/
def homeOf (pa : Nat) : EP := mkEp (paPkg pa) (channelOf pa / 32) 1 (channelOf pa % 32) 0

/-- A range lies within the populated offsets of one package (R31). -/
def populated (pa n : Nat) : Bool := pa < 2 ^ 56 && pa % 2 ^ 46 + n ≤ Config.dramBytes

/-- The line of a physical address (R31). -/
def lineOfPa (pa : Nat) : Nat := pa / 64 * 64

/-- The gateway core of a port that performs egress (Y = 0) or ingress (Y = 1) (R108). -/
def gatewayEp (pkg die port y : Nat) : EP := mkEp pkg die 2 port y
/-- The management bridge's endpoint (R470). -/
def bridgeEp (pkg : Nat) : EP := mkEp pkg 0 3 3 0
/-- The host gateway's endpoint (R30). -/
def hostGwEp (pkg : Nat) : EP := mkEp pkg 0 3 1 0
/-- The collective engine's endpoint (R30). -/
def ceEp (pkg : Nat) : EP := mkEp pkg 0 3 2 0
/-- The region unit's endpoint of a die, by the die's key (R30). -/
def unitEp (dk : Nat) : EP := mkEp (dk / 8) (dk % 8) 3 5 0
/-- The copy distributor's endpoint of an endpoint's die (R30). -/
def distEp (e : EP) : EP := mkEp (epPkg e) (epDie e) 3 4 0

/-- A router of a die's mesh: its column and row (R484). -/
abbrev Router := Nat × Nat

/-- The router that an endpoint is attached to (R484). -/
def routerOf (e : EP) : Router := match epKind e with
  | 0 => (epX e + 1, epY e + 1)
  | 1 => if epX e < 16 then (2 * epX e + 1, 0) else (2 * (epX e - 16) + 1, 17)
  | 2 => (33, 4 * epX e + 2 * epY e + 2)
  | _ => (0, match epX e with
    | 0 => 2
    | 4 => 4
    | 5 => 6
    | 1 => 8
    | 2 => 10
    | _ => 12)

/-- The router of the die crossing towards a die (R484). -/
def crossingTo (die : Nat) : Router := (0, 2 * die + 1)

/-- The numbers from one to another, both included, up or down. -/
def numbersTo (a b : Nat) : List Nat :=
  if a ≤ b then (List.range (b + 1 - a)).map (a + ·) else (List.range (a + 1 - b)).map (a - ·)

/-- The routers that a packet passes from one router of a mesh to another (R108): first along X, then along Y. -/
def meshRoute (a b : Router) : List Router :=
  (numbersTo a.1 b.1).map (fun x => (x, a.2)) ++ ((numbersTo a.2 b.2).drop 1).map fun y => (b.1, y)

/-- The routers on the way between two endpoints of a package, with the key of their die (R108): another die is entered through the crossing
fixed for the pair of dies. -/
def wayWithin (a b : EP) : List (Nat × Router) :=
  let on := fun (e : EP) (l : List Router) => l.map fun r => (dieKey e, r)
  if dieKey a == dieKey b then on a (meshRoute (routerOf a) (routerOf b))
  else on a (meshRoute (routerOf a) (crossingTo (epDie b))) ++ on b (meshRoute (crossingTo (epDie a)) (routerOf b))

/-- A scoreboard entry with nothing in it (R286). -/
def SbEntry.none : SbEntry := ⟨.empty, 0, 0, 0, 0, false⟩

/-- The registers of a thread before anything is delivered: g and p of R321; v and vm are free values (R384, log 8). -/
def Regs.start (free : Nat) : Regs :=
  { g := Vector.replicate 32 0, p := 1,
    v := Vector.ofFn fun i => Config.freeLine (free + i.val),
    vm := Vector.ofFn fun i => Config.freeWord (free + 8 + i.val) }

/-- The special registers at their reset values (R325 and the layouts it names); handle 0 with instant never (R255). -/
def Specials.start : Specials :=
  { wid := 0, inst := never, hnd := 0, sfa := 0, sfb := 0, ssa := 0, ssb := 0, lbase := 0, lsize := 0, peermap := 0,
    trapbase := 0, tcause := 0, taddr := 0, trappc := 0, tstat := 0, fflags := 0, rcause := 0, sticky := 0, pri := 0 }

/-- No counter raised (R115, R420). -/
def Counters.zero : Counters := ⟨0, 0, 0, 0, 0, 0, 0⟩

/-- A thread as placement creates it, placed-waiting (R255). -/
def Thread.start (uid free : Nat) (ctx : Ctx) (vcore vthr : Nat) : Thread :=
  { uid := uid, ctx := ctx, vcore := vcore, vthr := vthr, pc := 0, sup := false, handler := false, stopped := false,
    fresh := true, regs := Regs.start free, sr := Specials.start, cnt := Counters.zero,
    sb := Vector.replicate 17 SbEntry.none,
    park := some ⟨.work 0 true false, 0, none, 0, 0, 0, 0⟩, xf := none, outbox := [], inbox := [], recs := [],
    qres := ⟨0, 0, false⟩, region := none, lapsed := false, provisional := none, pair := none, origin := none,
    line := none, forfeits := 0, passes := 0, gather := 0 }

/-- The LG6 code table at reset (R69). -/
def Lg6.start : Lg6 := ⟨[[4096, 4871, 5793, 6888], [4096, 4871, 5793, 6888]], 0, 0⟩

/-- The management registers of a core before any is written (log 5). -/
def CoreMgmt.start : CoreMgmt :=
  { aw := Vector.replicate 8 0, codesrc := 0, codeBusy := false, codeFail := false, codeSeg := 0, secnt := 0, decnt := 0,
    pgcnt := List.replicate 19 0, lbcnt := 0, failed := false }

/-- A core at its release (R49, R10, R69, R71). -/
def Core.start (kind : CoreKind) : Core :=
  { kind := kind, cycle := 0, halted := false, spad := [], upsets := [], broken := [], gran := [], dtl := [], overflow := [], watches := [], landed := 0,
    xb := 0x020, tags := [], opmem := [], opslots := [], acc := [], tiles := [], lg6 := Lg6.start, jobs := [], destQ := [],
    tileQ := [], destNum := 0, tileNum := 0, fills := [], vbuf := [], deque := [], reserved := 0, slots := [], turns := [], pris := [], swaps := [], groups := [], tlb := [], held := [],
    ni := [], mgmt := CoreMgmt.start, mem := ⟨[], [], [], 0, 0⟩, reds := [] }

/-- A core that a containment rectangle resets: the state of R49, with what the management plane and the network
interface hold kept (R104; log 39). -/
def Core.contained (c : Core) : Core :=
  { Core.start c.kind with cycle := c.cycle, halted := true, mgmt := c.mgmt, xb := c.xb, ni := c.ni }

/-- A die at power-up (R102, R177, R203, R471). -/
def Die.start : Die :=
  { now := 0, replica := ⟨[], [], 0, []⟩, regions := [], rseq := 0, raccs := [], walks := [], tlb := [],
    arec := Vector.replicate 16 0, closed := Vector.replicate 16 false, consumed := Vector.replicate 16 (0, 0), dieclk := 12 }

/-- A cluster with nothing in it. -/
def Cluster.start : Cluster := ⟨[], [], [], []⟩

/-- The bridge's registers at power-up (R469, R474; log 5). -/
def Bridge.start : Bridge :=
  { bootState := 0, bootFail := 0, ctxbase := 0, grpbase := 0, qdbase := 0, commbase := 0, commit := none, settle := 4,
    mirrto := 20, commto := 100, scrub := 24, plim := 4500, master := false, unsync := false, ptasks := 0, pmsgs := 0,
    pstores := 0, mgaddr := 0, ltidx := 0, ltdata := 0, evread := 0, evnext := 0, evlog := [], events := [], dropped := 0, lostRecs := 0,
    evseq := 0, gap := none, attnonce := 0, attState := 0, attIndex := 0, attReport := [], attSig := [] }

/-- A package that is not powered: nothing persists but the attestation index (R474, R479). -/
def Pkg.off (flash : Nat) : Pkg :=
  { powered := false, bridge := Bridge.start, staging := [], measure := 0, svn := 0, flash := flash, slew := 0, phase := 0, lapse := [],
    freed := [], fresh := 1, bseq := 0, iureqs := [], queues := [], handleWait := [], rr := 0, pending := [],
    headerReads := [], invs := [], hostRecs := [], kblUp := true, kblFails := 0, hostWrites := 0, hostValue := 0, links := [],
    portsDown := [], replays := [], unreachable := [], lost := [], colls := [], collNums := [], collLast := 0, early := [], probes := [], ni := [], islands := [],
    spilled := [], savedGroups := [], copies := [], mgmt := [] }

/-- An island at reset (R481). -/
def Island.start : Island := ⟨true, 12, 4, 0, 0, 0, false, false⟩

/-- A queue's state after its descriptor is written (R263). -/
def QState.start : QState := ⟨0, [], [], [], [], 0, 0, 0, 0, [], [], [], none⟩

/-- A package; one that the table does not list is off. -/
def State.pkg (s : State) (i : Nat) : Pkg := (tget s.pkgs i).getD (Pkg.off 0)
/-- A package changed. -/
def State.modPkg (s : State) (i : Nat) (f : Pkg → Pkg) : State := { s with pkgs := tput i (f (s.pkg i)) s.pkgs }
/-- The bridge of a package changed. -/
def State.modBridge (s : State) (i : Nat) (f : Bridge → Bridge) : State := s.modPkg i fun p => { p with bridge := f p.bridge }
/-- A die, by its key; one that the table does not list is as at power-up. -/
def State.die (s : State) (k : Nat) : Die := (tget s.dies k).getD Die.start
/-- A die changed. -/
def State.modDie (s : State) (k : Nat) (f : Die → Die) : State := { s with dies := tput k (f (s.die k)) s.dies }
/-- A cluster, by its key. -/
def State.cluster (s : State) (k : Nat) : Cluster := (tget s.clusters k).getD Cluster.start
/-- A cluster changed. -/
def State.modCluster (s : State) (k : Nat) (f : Cluster → Cluster) : State :=
  { s with clusters := tput k (f (s.cluster k)) s.clusters }
/-- A core that is released; none where no core is. -/
def State.core? (s : State) (e : EP) : Option Core := tget s.cores e
/-- A core, or one as at release where none is. -/
def State.core (s : State) (e : EP) : Core := (tget s.cores e).getD (Core.start (kindOf e))
/-- A core changed, where it is. -/
def State.modCore (s : State) (e : EP) (f : Core → Core) : State := { s with cores := tmod e f s.cores }
/-- The registers that the management plane holds at a core's endpoint, released or not (R471). -/
def State.mgmt (s : State) (e : EP) : CoreMgmt := match s.core? e with
  | some c => c.mgmt
  | none => (tget (s.pkg (epPkg e)).mgmt e).getD CoreMgmt.start
/-- Those registers changed. -/
def State.modMgmt (s : State) (e : EP) (f : CoreMgmt → CoreMgmt) : State := match s.core? e with
  | some _ => s.modCore e fun c => { c with mgmt := f c.mgmt }
  | none => s.modPkg (epPkg e) fun p => { p with mgmt := tput e (f (s.mgmt e)) p.mgmt }
/-- The thread in a slot. -/
def State.thr? (s : State) (e : EP) (slot : Nat) : Option Thread := (tget s.cores e).bind fun c => tget c.slots slot
/-- The thread in a slot changed. -/
def State.modThr (s : State) (e : EP) (slot : Nat) (f : Thread → Thread) : State :=
  s.modCore e fun c => { c with slots := tmod slot f c.slots }
/-- A slot made vacant. -/
def State.vacate (s : State) (e : EP) (slot : Nat) : State :=
  s.modCore e fun c => { c with slots := tdelete slot c.slots }
/-- A queue's state. -/
def State.queue (s : State) (pkg q : Nat) : QState := (tget (s.pkg pkg).queues q).getD QState.start
/-- A queue's state changed. -/
def State.modQueue (s : State) (pkg q : Nat) (f : QState → QState) : State :=
  s.modPkg pkg fun p => { p with queues := tput q (f ((tget p.queues q).getD QState.start)) p.queues }
/-- An island of a package. -/
def State.island (s : State) (pkg i : Nat) : Island := (tget (s.pkg pkg).islands i).getD Island.start
/-- An island changed. -/
def State.modIsland (s : State) (pkg i : Nat) (f : Island → Island) : State :=
  s.modPkg pkg fun p => { p with islands := tput i (f ((tget p.islands i).getD Island.start)) p.islands }

/-- The die's copy of NOW at an endpoint (R199). -/
def State.now (s : State) (e : EP) : Word := (s.die (dieKey e)).now
/-- The package's NOW: the copy of die 0, where the instant unit stands (R203). -/
def State.pkgNow (s : State) (pkg : Nat) : Word := (s.die (pkg * 8)).now

/-- An answer waits for nothing: a fresh free-value number (log 8). -/
def State.draw (s : State) (n : Nat) : Nat × State := (s.free, { s with free := s.free + n })

end Sys2Proof.Machine
end

