-- ==== Sys2Proof/Machine/Dram.lean ====
section
/-! DEFINITION. The channel code of R91 to R95, DRAM lines and their value at the home memory core (R81, R82), and the
hardware's own physical reads and writes. -/

namespace Sys2Proof.Machine

/-- A product in GF(2^8) with the polynomial 0x11D (R91), n bits of the multiplier. -/
def gfMulN (a b : Nat) : Nat → Nat
  | 0 => 0
  | n + 1 =>
    let a2 := if a < 128 then 2 * a else (2 * a) ^^^ 0x11D
    (if b % 2 == 1 then a else 0) ^^^ gfMulN a2 (b / 2) n

/-- A product in GF(2^8) (R91). -/
def gfMul (a b : Nat) : Nat := gfMulN a b 8

/-- A power of α = 2 in GF(2^8) (R91). -/
def gfPow : Nat → Nat
  | 0 => 1
  | n + 1 => gfMul 2 (gfPow n)

/-- The remainder of m(x)·x^3 by g(x) (R92), coefficients of m from the highest: the check symbols (c0, c1, c2). -/
def rsRemainder : List Nat → Nat × Nat × Nat → Nat × Nat × Nat
  | [], r => r
  | m :: ms, (r0, r1, r2) =>
    let t := m ^^^ r2
    rsRemainder ms (gfMul t 0x08, r0 ^^^ gfMul t 0x0E, r1 ^^^ gfMul t 0x07)

/-- The check symbols of 16 data symbols, symbol 0 first (R91, R92). -/
def rsChecks (data : List Nat) : List Nat :=
  let (c0, c1, c2) := rsRemainder data.reverse (0, 0, 0)
  [c0, c1, c2]

/-- The syndrome c(α^i) of a codeword, its coefficients from x^0 (R92). -/
def rsSyndrome (i : Nat) : List Nat → Nat
  | [] => 0
  | c :: cs => c ^^^ gfMul (gfPow i) (rsSyndrome i cs)

/-- How a codeword decodes (R92). -/
inductive RsResult where
  | clean
  | corrected (l : Nat) (by_ : Nat)
  | bad
  deriving DecidableEq, Repr

/-- The decoder of R92 on a codeword, its coefficients from x^0: check symbols 0 to 2, then data symbols. -/
def rsDecode (c : List Nat) : RsResult :=
  let s0 := rsSyndrome 0 c
  let s1 := rsSyndrome 1 c
  let s2 := rsSyndrome 2 c
  if s0 == 0 && s1 == 0 && s2 == 0 then .clean
  else if s0 != 0 && s1 != 0 && s2 != 0 && gfMul s1 s1 == gfMul s0 s2 then
    match (List.range 19).find? (fun l => gfMul s0 (gfPow l) == s1) with
    | some l => .corrected l s0
    | none => .bad
  else .bad

/-- The 16 data symbols of codeword c of a line (R79, R91): symbol j takes line bits 4j of beat 2c and of beat 2c + 1. -/
def lineSymbols (data : Nat) (c : Nat) : List Nat :=
  (List.range 16).map fun j =>
    data / 2 ^ (128 * c + 4 * j) % 16 + 16 * (data / 2 ^ (128 * c + 64 + 4 * j) % 16)

/-- The 128 data bits of a codeword's symbols (R91). -/
def symbolsLine (syms : List Nat) : Nat :=
  (syms.zipIdx.map fun (x, j) => x % 16 * 2 ^ (4 * j) + x / 16 % 16 * 2 ^ (64 + 4 * j)).sum

/-- The byte address of a line's first check symbol in the memory of check symbols. -/
def checkAddr (line : Nat) : Nat := line / 64 * 12

/-- Codeword c of a stored line: check symbols 0 to 2, then data symbols (R91). -/
def codeword (s : State) (line c : Nat) : List Nat :=
  let data := mread s.dram line 64
  ((List.range 3).map fun k => (mget s.check (checkAddr line + 3 * c + k)).toNat) ++ lineSymbols data c

/-- The ochre marker in one codeword (R95): all-ones data, each check symbol complemented. -/
def markerWord : List Nat := (rsChecks (List.replicate 16 0xFF)).map (fun c => c ^^^ 0xFF) ++ List.replicate 16 0xFF

/-- The places where two codewords differ. -/
def differences (a b : List Nat) : Nat := ((a.zip b).filter fun (x, y) => x != y).length

/-- A stored line as read from DRAM (R92, R93, R95): its data, whether it is ochre or uncorrectable, and the symbols corrected. -/
structure LineRead where
  data : Nat
  marker : Bool
  bad : Bool
  fixed : List Nat
  deriving DecidableEq, Repr

/-- Read and decode a line of DRAM: the marker test, then each codeword (R92, R95). -/
def readLine (s : State) (line : Nat) : LineRead :=
  let cws := (List.range 4).map (codeword s line)
  if cws.all (fun c => differences c markerWord ≤ 1) then ⟨mread s.dram line 64, true, false, []⟩
  else
    let rs := cws.map rsDecode
    if rs.any (· == .bad) then ⟨mread s.dram line 64, false, true, []⟩
    else
      let outs := (cws.zip rs).map fun (c, r) => match r with
        | .corrected l b => (modAt (fun x => x ^^^ b) l c).drop 3
        | _ => c.drop 3
      ⟨(outs.zipIdx.map fun (d, c) => symbolsLine d * 2 ^ (128 * c)).sum, false, false,
        rs.filterMap fun r => match r with | .corrected l _ => some l | _ => none⟩

/-- Write a line's data with its check symbols into DRAM (R91, R92). -/
def storeLine (s : State) (line data : Nat) : State :=
  { s with dram := mwrite s.dram line 64 data,
           check := mputs (checkAddr line)
             (((List.range 4).flatMap fun c => rsChecks (lineSymbols data c)).map (BitVec.ofNat 8)) s.check }

/-- Write the ochre marker into DRAM (R95). -/
def storeMarker (s : State) (line : Nat) : State :=
  { s with dram := mwrite s.dram line 64 (ones 512),
           check := mputs (checkAddr line)
             ((List.replicate 4 (markerWord.take 3)).flatten.map (BitVec.ofNat 8)) s.check }

/-- A memory core's line-buffer entry for a line (R81). -/
def bufLine? (s : State) (line : Nat) : Option BufLine :=
  (s.core? (homeOf line)).bind fun c => c.mem.buf.find? fun b => b.line == line

/-- The line's value now (R81): the buffer's where it holds the line, else the decoded DRAM; none where it is ochre,
uncorrectable or on a failed channel (R95, R97). -/
def lineValue (s : State) (line : Nat) : Option Nat :=
  if (s.core (homeOf line)).mgmt.failed then none
  else match bufLine? s line with
  | some b =>
    if b.filling then (let r := readLine s line; if r.marker || r.bad then none else some r.data)
    else if b.ochre then none else some b.data.toNat
  | none => let r := readLine s line; if r.marker || r.bad then none else some r.data

/-- Set a line's value: in the buffer where it holds the line (dirty then), else in DRAM, from where a fill under way brings it. -/
def setLine (s : State) (line data : Nat) : State :=
  match (bufLine? s line).filter fun b => !b.filling with
  | some _ => s.modCore (homeOf line) fun c => { c with mem := { c.mem with buf := c.mem.buf.map fun b =>
      if b.line == line then { b with data := BitVec.ofNat 512 data, dirty := true, ochre := false } else b } }
  | none => storeLine s line data

/-- The hardware's own read of n bytes at a physical address (R17, R22, R34, R246): lines that cannot be read give 0. -/
def physRead (s : State) (pa : Nat) : Nat → Nat
  | 0 => 0
  | n + 1 =>
    (match lineValue s (lineOfPa pa) with
      | some d => d / 2 ^ (8 * (pa % 64)) % 256
      | none => 0) + 256 * physRead s (pa + 1) n

/-- A double-bit error stands in a word of the buffer that a read of n bytes meets (R83): nothing is read of it. -/
def wordBad (s : State) (pa n : Nat) : Bool := (bufLine? s (lineOfPa pa)).any fun b =>
  b.upsets.any fun (w, k) => k != 1 && overlaps (b.line + 8 * w) 8 pa n

/-- An aligned field of at most 64 bytes inside one line, read at once; 0 where the line or the word cannot be read. -/
def physWord (s : State) (pa n : Nat) : Nat :=
  if wordBad s pa n then 0
  else match lineValue s (lineOfPa pa) with
  | some d => d / 2 ^ (8 * (pa % 64)) % 2 ^ (8 * n)
  | none => 0

/-- Bytes of a line replaced by those of a list, from a byte offset on. -/
def patchLine (d off : Nat) (bs : List (BitVec 8)) : Nat :=
  d % 2 ^ (8 * off) + leNat bs * 2 ^ (8 * off) + d / 2 ^ (8 * (off + bs.length)) * 2 ^ (8 * (off + bs.length))

/-- The lines that a list of bytes at an address touches: line, offset in it, bytes. -/
def lineParts (pa : Nat) (bs : List (BitVec 8)) : List (Nat × Nat × List (BitVec 8)) :=
  (blocks pa bs.length 64).map fun b =>
    let a := max pa (64 * b)
    (64 * b, a - 64 * b, (bs.drop (a - pa)).take (64 * b + 64 - a))

end Sys2Proof.Machine
end

