-- ==== Sys2Proof/Machine/Thread.lean ====
section
/-! DEFINITION. The plain operations over a thread and the fabric: registers, the scoreboard, the event log, packets, retiring and
parking (R117, R259, R260, R286, R321). -/

namespace Sys2Proof.Machine

/-- A register read: g0 reads 0 (R321). -/
def gr (t : Thread) (r : Reg) : Word := if r == 0 then 0 else t.regs.g.get r.toFin

/-- A predicate read: p0 reads 1 (R321). -/
def pr (t : Thread) (p : Pred) : Bool := p == 0 || t.regs.p.getLsbD p.toNat

/-- A register write without the rule of pending registers: g0 discards (R321). -/
def Thread.setG (t : Thread) (r : Reg) (v : Word) : Thread :=
  if r == 0 then t else { t with regs := { t.regs with g := t.regs.g.set r.toFin.val v r.toFin.isLt } }

/-- A register is no longer pending: an answer that arrives for it writes nothing (R117). -/
def Thread.unpend (t : Thread) (r : Reg) : Thread :=
  { t with sb := t.sb.map fun e => if e.reg == r && e.state == .sent && e.kind ≤ 1 then { e with reg := 0 } else e }

/-- A register written by an instruction: it wins over a pending answer (R117). -/
def Thread.putG (t : Thread) (r : Reg) (v : Word) : Thread := (t.unpend r).setG r v

/-- A predicate write: p0 discards (R321). -/
def Thread.putP (t : Thread) (p : Pred) (b : Bool) : Thread :=
  if p == 0 then t
  else { t with regs := { t.regs with
    p := if b then t.regs.p ||| (1#8 <<< p.toNat) else t.regs.p &&& ~~~(1#8 <<< p.toNat) } }

/-- The wait flag p7 (R260, R321). -/
def Thread.p7 (t : Thread) (b : Bool) : Thread := t.putP 7 b

/-- Exception flags ORed into FFLAGS (R231, R232): NV, DZ, OF, UF, NX from bit 4 down. -/
def Thread.orFlags (t : Thread) (f : Nat) : Thread := { t with sr := { t.sr with fflags := t.sr.fflags ||| BitVec.ofNat 5 f } }

/-- A sticky error bit set (R130). -/
def Thread.stick (t : Thread) (b : Nat) : Thread := { t with sr := { t.sr with sticky := t.sr.sticky ||| (1#64 <<< (b % 64)) } }

/-- A vector register written. -/
def Thread.putV (t : Thread) (r : VReg) (x : BitVec 512) : Thread :=
  { t with regs := { t.regs with v := t.regs.v.set r.toFin.val x r.toFin.isLt } }
/-- A mask register written. -/
def Thread.putM (t : Thread) (r : VMsk) (x : Word) : Thread :=
  { t with regs := { t.regs with vm := t.regs.vm.set r.toFin.val x r.toFin.isLt } }
/-- A vector register read. -/
def vr (t : Thread) (r : VReg) : BitVec 512 := t.regs.v.get r.toFin
/-- A mask register read. -/
def mr (t : Thread) (r : VMsk) : Word := t.regs.vm.get r.toFin

/-- A scoreboard entry set (R286). -/
def Thread.setSb (t : Thread) (i : Nat) (e : SbEntry) : Thread := { t with sb := t.sb.setIfInBounds i e }
/-- A scoreboard entry. -/
def Thread.sbAt (t : Thread) (i : Nat) : SbEntry := (t.sb[i]?).getD SbEntry.none
/-- The lowest empty entry of a range of the scoreboard. -/
def Thread.freeSb (t : Thread) (lo n : Nat) : Option Nat :=
  ((List.range n).map (· + lo)).find? fun i => (t.sbAt i).state == .empty || (t.sbAt i).state == .done
/-- NPEND: the scoreboard entries that are not empty at a trap (R282). -/
def Thread.npend (t : Thread) : Nat := (t.sb.toList.filter fun e => e.state != .empty).length

/-- A thread whose instruction issues is parked no more (R259): entry 16 holds nothing but a pending XFENCE (R286; log 53). -/
def Thread.unpark (t : Thread) : Thread :=
  { t with park := none, sb := if t.xf.isSome then t.sb else t.sb.setIfInBounds 16 SbEntry.none }

/-- A visitor slot of a memory core: positions 16 to 31 (R80). -/
def isVisitor (e : EP) (slot : Nat) : Bool := epKind e == 1 && 16 ≤ slot

/-- The slots of a core (R80, R256). -/
def slotCount (e : EP) : Nat := if epKind e == 1 then 32 else 16

/-- What the packets of a slot carry: its held instant and handle and the own package (R212, R208). -/
def carryOf (e : EP) (t : Thread) : Carry := ⟨t.sr.inst, t.sr.hnd, epPkg e⟩

/-- The requester of a slot's operation (R107). -/
def reqOf (e : EP) (slot : Nat) (t : Thread) (entry ebit : Nat) : Req := ⟨e, slot, t.uid, t.ctx, t.vcore, t.vthr, entry, ebit⟩

/-- The timeout of an operand (R260): all ones waits without end, else the cycle in which it expires. -/
def deadline (s : State) (e : EP) (w : Word) : Option Nat := if w == allOnes then none else some ((s.core e).cycle + w.toNat)

/-- An error event reaches the management bridge (R462, R472): it takes the next sequence number and waits for its place, or is
dropped and counted where the store is full (R463). -/
def State.event (s : State) (pkg kind aux ep slot : Nat) (data : Word) : State :=
  s.modBridge pkg fun b =>
    if b.events.length + (s.pkg pkg).hostRecs.length < 4096 then
      { b with events := b.events ++ [⟨kind, aux, ep, slot, s.pkgNow pkg, data, b.evseq⟩], evseq := b.evseq + 1 }
    else { b with dropped := b.dropped + 1 }

/-- A packet leaves its source (R107, R108): within a package it is on its way at once, else it meets the egress gateway first. -/
def State.send (s : State) (src dst vc : Nat) (req : Req) (carry : Carry) (body : Body) : State :=
  { s with net := s.net ++ [⟨src, dst, vc, if epPkg src == epPkg dst then .arrived else .egress, (s.now src).toNat, req, carry, body, 0, none⟩] }

/-- An answer goes back to the requester on VC0 (R110). -/
def State.answer (s : State) (src : EP) (req : Req) (carry : Carry) (a : Answer) : State :=
  s.send src req.ep 0 req carry (.answer a)

/-- A drop report of an item with a local handle (R218): it goes to the instant unit of the package. -/
def State.report (s : State) (pkg h tasks msgs stores : Nat) : State :=
  if h == 0 then s else { s with ctl := s.ctl ++ [.drop pkg h tasks msgs stores] }

/-- The turn has been used. -/
def State.noTurn (s : State) : State := { s with turn := none }

/-- The thread goes on at an address: it is not parked, its forfeits and passes start afresh, and further on in its line it keeps
the line as fetched (R72). -/
def Thread.goTo (t : Thread) (pc : CodeAddr) : Thread :=
  { t with pc := pc, park := none, forfeits := 0, passes := 0, fresh := false,
           line := if pc.toNat / 64 == t.pc.toNat / 64 && t.pc.toNat < pc.toNat then t.line else none,
           sb := if t.xf.isSome then t.sb else t.sb.setIfInBounds 16 SbEntry.none }

/-- The instruction completes: the thread is changed and continues at the next head (R315, R332). -/
def State.retire (s : State) (u : Turn) (f : Thread → Thread) : State :=
  (s.modThr u.ep u.slot fun t => (f t).goTo u.next).noTurn

/-- The thread is changed and continues at a target. -/
def State.jump (s : State) (u : Turn) (pc : CodeAddr) (f : Thread → Thread) : State :=
  (s.modThr u.ep u.slot fun t => (f t).goTo pc).noTurn

/-- A wait for a condition of the instruction's own; not one that only delays its issue (R485, R294), a translation (R40), or what a
local access meets before it is examined (R189, R137). -/
def Wait.own : Wait → Bool
  | .again .xfence | .again .partner | .again .released | .again (.tlb _) | .again (.unsealed ..) => false
  | .again _ => true
  | _ => false

/-- The park whose wait an instruction that parks again goes on with (R260): its timeout runs from its issue. -/
def Thread.sameWait (t : Thread) (why : Wait) : Option Park := t.park.filter fun p => p.why.own && (why.own || why == .probe)

/-- The thread parks at the instruction (R259): scoreboard entry 16 is in state re-issue where nothing outside the core answers
(R286). A thread that parks again in the same wait keeps its start and its end (R260). -/
def State.parkAt (s : State) (u : Turn) (why : Wait) (kind path : Nat) (sent : Bool) (limit : Option Nat) (d : Reg) (aux : Nat)
    (ser : Nat := 0) : State :=
  (s.modThr u.ep u.slot fun t =>
    let old := t.sameWait why
    { t with
      park := some ⟨why, (old.map (·.start)).getD (s.core u.ep).cycle, (old.map (·.limit)).getD limit, u.next, d, aux, ser⟩,
      sb := if t.xf.isSome then t.sb else t.sb.setIfInBounds 16 ⟨if sent then .sent else .reissue, kind, path, d, t.pc, false⟩ }).noTurn

/-- A limit lies in a cycle that is over (R260): what comes about within the cycle in which a timeout expires comes first. -/
def limitOver (s : State) (e : EP) : Option Nat → Bool
  | none => false
  | some l => decide (l < (s.core e).cycle)

/-- A wait whose condition has been tested and does not hold has reached its end (R260): at its first test where the timeout is 0,
later once the cycle of its end is over. -/
def waitedOut (s : State) (e : EP) (t : Thread) (limit : Option Nat) : Bool :=
  match t.park.filter (·.why.own) with
  | some p => limitOver s e p.limit
  | none => match limit with
    | none => false
    | some l => decide (l ≤ (s.core e).cycle)

/-- Wait for a condition with a timeout, with scoreboard kind 7 (R286) or another: park until it holds, or end at once with p7 = 0 where the timeout is 0 or has passed. -/
def State.waitFor (s : State) (u : Turn) (t : Thread) (c : Until) (w : Word) (kind : Nat := 7) : State :=
  if waitedOut s u.ep t (deadline s u.ep w) then s.retire u (·.p7 false)
  else s.parkAt u (.again c) kind 0 false (deadline s u.ep w) 0 0

/-- Park for a condition without a timeout. -/
def State.waitEver (s : State) (u : Turn) (c : Until) : State := s.parkAt u (.again c) 7 0 false none 0 0

end Sys2Proof.Machine
end

