-- ==== Sys2Proof/Machine/Buffer.lean ====
section
/-! DEFINITION. The line buffers of the memory cores (R80 to R83, R93, R95): the lines that accesses use, the order at the port, fills, and the
lines that the units of a package read and write. -/

namespace Sys2Proof.Machine

/-- A region record by its id (R177). -/
def regionAt (s : State) (dk id : Nat) : Option Region := tget (s.die dk).regions (id % 1024)

/-- The key of the die of a region id (R177), in a package. -/
def regionDie (pkg id : Nat) : Nat := pkg * 8 + id / 1024

/-- The identity under which the region unit knows a thread: a migrant's is that of its origin slot (R197). -/
def Thread.regionUid (t : Thread) : Nat := match t.origin with
  | some o => o.uid
  | none => t.uid

/-- The channel of a message of the region unit's (R110, R486): requests on VC1, answers and acknowledgements on VC0. -/
def RMsg.vc : RMsg → Nat
  | .begin_ .. | .access _ | .edges .. | .commit _ | .seal_ _ | .resolve _ | .discard _ | .stat _ | .abort .. => 1
  | .opened .. | .granted .. | .sealAck .. | .resolveAck .. | .discardAck .. | .release _ | .deliver .. => 0

/-- A message that a thread creates, or that answers one (R212); the others are between the unit and the owners, and carry the system handle. -/
def RMsg.ofThread : RMsg → Bool
  | .begin_ .. | .access _ | .commit _ | .stat _ | .opened .. | .release _ => true
  | .edges .. | .granted .. | .seal_ _ | .sealAck .. | .resolve _ | .resolveAck .. | .discard _ | .discardAck .. | .deliver .. | .abort .. => false

/-- A message of the region unit's leaves (R486), for the requester of its region. -/
def State.sendRegion (s : State) (src dst : EP) (req : Req) (carry : Carry) (m : RMsg) : State :=
  s.send src dst m.vc req (if m.ofThread then carry else ⟨never, 0, epPkg src⟩) (.region m)

/-- The unit of a die is asked to abort a region (R486). -/
def State.askAbort (s : State) (src : EP) (dk id cause : Nat) : State := match regionAt s dk id with
  | some r => s.sendRegion src (unitEp dk) r.owner r.carry (.abort id r.seq cause)
  | none => s

/-- Entries of a region at a core. -/
def entriesOf (s : State) (e : EP) (r : Nat) : List VEntry := (s.core e).vbuf.filter fun v => v.region == r

/-- The entries of a word in a core's version buffer, oldest first (R179). -/
def stackOf (s : State) (e : EP) (w : Nat) : List VEntry := (s.core e).vbuf.filter fun v => v.addr == w

/-- The key of a DRAM word in a memory core's version buffer: it stands apart from the scratchpad's words. -/
def dramKey (pa : Nat) : Nat := 2 ^ 60 + pa

/-- The words of a byte range. -/
def wordsOf (a n : Nat) : List Nat := (blocks a n 8).map (8 * ·)

/-- A sealed entry holds back plain accesses to the range (R189). -/
def anySealed (s : State) (e : EP) (a n : Nat) : Bool := (wordsOf a n).any fun w => (stackOf s e w).any (·.sealed_)

/-- A plain write aborts every region that holds an entry of its words, with cause 5 (R189): the owner asks their unit (R486), once for each region,
and acknowledges no seal of theirs any more. -/
def abortPlain (s : State) (e : EP) (a n : Nat) : State :=
  let ws := wordsOf a n
  let met := (s.core e).vbuf.filter fun v => ws.contains v.addr && !v.doomed
  if met.isEmpty then s
  else
    let s := s.modCore e fun c => { c with vbuf := c.vbuf.map fun v => if ws.contains v.addr then { v with doomed := true } else v }
    (met.foldl (fun l v => addOnce v.region l) []).foldl (fun s r => s.askAbort e (regionDie (epPkg e) r) r 5) s

/-- The set of the line buffer that a line falls in (R81). -/
def lineSet (line : Nat) : Nat := line / 2 ^ 16 % 128 * 4 + line / 64 % 4

/-- The lines of a byte range. -/
def linesOf (pa n : Nat) : List Nat := (blocks pa n 64).map (64 * ·)

/-- The lines that a packet's access uses at a memory core. -/
def usesLines : Body → List Nat
  | .dram pa .. => [lineOfPa pa]
  | .pieceRead _ src len .. | .patternRead _ src len _ => if src.dram then linesOf src.addr len else []
  | .pieceWrite _ dst _ len .. => if dst.dram then linesOf dst.addr len else []
  | .mirrorWrite pa data .. => linesOf pa data.length
  | _ => []

/-- The lines that a packet uses at its destination: a resolve those of the DRAM words that it commits there (R188). -/
def pktLines (s : State) (p : Pkt) : List Nat := match p.body with
  | .region (.resolve id) =>
    ((entriesOf s p.dst id).filter fun v => v.write && 2 ^ 60 ≤ v.addr).map fun v => lineOfPa (v.addr - 2 ^ 60)
  | b => usesLines b

/-- The accesses that wait at the line-buffer port of a memory core (R81, R82), packets and those of regions: their places in the order of
arrival, and their lines. -/
def portWaiters (s : State) (e : EP) : List (Nat × List Nat) :=
  (s.net.filterMap fun p => if p.ticket != 0 && p.dst == e && p.stage == .arrived then some (p.ticket, pktLines s p) else none)
  ++ (s.die (dieKey e)).raccs.filterMap fun a =>
    if a.ticket != 0 && a.home == e && a.dram then some (a.ticket, [lineOfPa ((a.words.head?.map (·.1)).getD 0)]) else none

/-- A line that an access uses (R81): filling, being written back, or with an access that waits at the port. -/
def lineInUse (s : State) (e : EP) (b : BufLine) : Bool :=
  b.filling || b.writing || (portWaiters s e).any fun x => x.2.contains b.line

/-- The line buffer changed. -/
def State.modBuf (s : State) (e : EP) (f : List BufLine → List BufLine) : State :=
  s.modCore e fun c => { c with mem := { c.mem with buf := f c.mem.buf } }

/-- A line in its buffer changed. -/
def State.modLine (s : State) (e : EP) (line : Nat) (f : BufLine → BufLine) : State :=
  s.modBuf e fun l => l.map fun b => if b.line == line then f b else b

/-- The way that a line not held may take now (R81): a free one of its set, or that of the least recently used line that no access uses; none
where all are in use. -/
def wayFor (s : State) (e : EP) (line : Nat) : Option (Option BufLine) :=
  let set := (s.core e).mem.buf.filter fun b => lineSet b.line == lineSet line
  if set.length < 16 then some none else (set.find? fun b => !lineInUse s e b).map some

/-- A line of the set is being written back: its way is for the miss that waits for it (R81). -/
def setWriting (s : State) (e : EP) (line : Nat) : Bool := (s.core e).mem.buf.any fun b => b.writing && lineSet b.line == lineSet line

/-- An access needs a line (R81, R82), at its place in the order of arrival, 0 where it comes only now. Behind an earlier access to the same line,
or a missing one of the same set where the line is missing itself, it waits. True where the buffer holds the line, which is the most
recently used then; else its fill begins, or first the writeback of the line whose way it takes, or the miss waits: while a line of the set is
being written back no other line of it gives up its way. -/
def needLine (s : State) (e : EP) (ticket line : Nat) : Bool × State :=
  let buf := (s.core e).mem.buf
  let held := fun (l : Nat) => buf.any (·.line == l)
  let ahead := (portWaiters s e).filter fun x => ticket == 0 || x.1 < ticket
  if ahead.any fun x => x.2.contains line then (false, s)
  else match buf.find? (·.line == line) with
  | some b => if b.filling || b.writing then (false, s) else (true, s.modBuf e fun l => l.filter (·.line != line) ++ [b])
  | none =>
    if setWriting s e line || ahead.any fun x => x.2.any fun l => lineSet l == lineSet line && !held l then (false, s)
    else
      let fill : BufLine := ⟨line, 0, false, false, true, false, []⟩
      match wayFor s e line with
      | some none => (false, s.modBuf e (· ++ [fill]))
      | some (some v) =>
        if v.dirty then (false, s.modLine e v.line fun b => { b with writing := true })
        else (false, s.modBuf e fun l => l.filter (·.line != v.line) ++ [fill])
      | none => (false, s)

/-- An access needs several lines. -/
def needLines (s : State) (e : EP) (ticket : Nat) (l : List Nat) : Bool × State :=
  l.foldl (fun (a : Bool × State) x => let (ok, s) := needLine a.2 e ticket x; (a.1 && ok, s)) (true, s)

/-- The k-th packet changed. -/
def State.modPkt (s : State) (k : Nat) (f : Pkt → Pkt) : State := { s with net := modAt f k s.net }

/-- The next place in the order of arrival at a memory core's port. -/
def nextTicket (s : State) (e : EP) : Nat × State :=
  let n := (s.core e).mem.tick + 1
  (n, s.modCore e fun c => { c with mem := { c.mem with tick := n } })

/-- The k-th packet waits at the port of its home, and keeps the place that it has there (R82). -/
def State.heldAtPort (s : State) (k : Nat) (p : Pkt) : State :=
  if p.ticket != 0 then s
  else let (n, s) := nextTicket s p.dst; s.modPkt k fun p => { p with ticket := n }

/-- The k-th packet, an access to lines of its home, is applied once the buffer holds them all; else it waits at the port in the order of
arrival (R82). -/
def atPort (s : State) (k : Nat) (p : Pkt) (lines : List Nat) (f : State → State) : State :=
  match needLines s p.dst p.ticket lines with
  | (true, s) => f s
  | (false, s) => s.heldAtPort k p

/-- The k-th packet is held back before the port (R189): it has no place there. -/
def State.offPort (s : State) (k : Nat) : State := s.modPkt k fun p => { p with ticket := 0 }

/-- A line becomes ochre (R95): in the buffer and by the marker in DRAM, with an event. -/
def makeOchre (s : State) (e : EP) (line kind : Nat) : State :=
  (storeMarker (s.modLine e line fun b => { b with ochre := true, dirty := false, filling := false, upsets := [] }) line).event
    (epPkg e) kind 0 e 255 (word line)

/-- A read meets the SECDED errors of the words of a line (R83): a single bit is corrected and counted, two make the line ochre. -/
def meetLineErrors (s : State) (e : EP) (pa n : Nat) : State :=
  match (s.core e).mem.buf.find? (·.line == lineOfPa pa) with
  | none => s
  | some b =>
    let hit := b.upsets.filter fun (w, _) => overlaps (b.line + 8 * w) 8 pa n
    if hit.isEmpty then s
    else if hit.any fun (_, k) => k != 1 then makeOchre s e b.line 0x0011
    else
      (s.modLine e b.line fun b => { b with upsets := b.upsets.filter fun x => !hit.contains x }).modCore e fun c =>
        { c with mgmt := { c.mgmt with lbcnt := satAdd64 c.mgmt.lbcnt hit.length } }

/-- The counter of a corrected symbol (R93, R471): data groups 0 to 15, then check groups. -/
def pinGroup (l : Nat) : Nat := if l < 3 then 16 + l else l - 3

/-- Corrections counted at a memory core (R93). -/
def countFixed (s : State) (e : EP) (l : List Nat) : State :=
  s.modCore e fun c => { c with mgmt := { c.mgmt with
    pgcnt := l.foldl (fun p x => modAt (fun w => satAdd64 w 1) (pinGroup x) p) c.mgmt.pgcnt } }

/-- A line comes into the buffer for a unit's read or the scrubber's: into a free way, or that of the least recently used line that no access uses,
which meets its errors (R83) and is written back first where it is dirty (R81). -/
def enterLine (s : State) (e : EP) (b : BufLine) : State := match wayFor s e b.line with
  | some none => s.modBuf e (· ++ [b])
  | some (some v) =>
    let s := if v.dirty then meetLineErrors s e v.line 64 else s
    let s := match (s.core e).mem.buf.find? (·.line == v.line) with
      | some v => if v.dirty then storeLine s v.line v.data.toNat else s
      | none => s
    s.modBuf e fun l => l.filter (·.line != v.line) ++ [b]
  | none => s

/-- A line that the buffer does not hold can enter it now (R81). -/
def canEnter (s : State) (e : EP) (line : Nat) : Bool :=
  !setWriting s e line && (wayFor s e line).isSome
    && !(portWaiters s e).any fun x => x.2.any fun l => lineSet l == lineSet line && !(s.core e).mem.buf.any (·.line == l)

/-- A line read from DRAM enters the buffer (R93, R95): a corrected one dirty, its corrections counted, an uncorrectable one ochre. -/
def enterRead (s : State) (e : EP) (line : Nat) : State :=
  let r := readLine s line
  if r.marker then enterLine s e ⟨line, 0, false, true, false, false, []⟩
  else if r.bad then makeOchre (enterLine s e ⟨line, 0, false, true, false, false, []⟩) e line 0x0012
  else enterLine (countFixed s e r.fixed) e ⟨line, BitVec.ofNat 512 r.data, !r.fixed.isEmpty, false, false, false, []⟩

/-- A unit of the package reads n bytes of a line at its home (R80, R93, R95): their errors in the buffer are met, and a line that the buffer does
not hold is read from DRAM and decoded; corrections are counted, an uncorrectable line turns ochre. The model does it in the step of the
unit (log 82). -/
def unitReadLine (s : State) (line pa n : Nat) : State :=
  let e := homeOf line
  match s.core? e with
  | none => s
  | some c =>
    if c.mgmt.failed then s
    else match c.mem.buf.find? (·.line == line) with
    | some b => if b.filling then s else meetLineErrors s e pa n
    | none => enterRead s e line

/-- A unit reads n bytes at a physical address. -/
def unitRead (s : State) (pa n : Nat) : State :=
  (linesOf pa n).foldl (fun s l => let a := max pa l; unitReadLine s l a (min (pa + n) (l + 64) - a)) s

/-- A write of a unit of the package to a line is on its way to the line's home. -/
def unitWriting (s : State) (e : EP) (line : Nat) : Bool :=
  s.net.any fun p => p.src == bridgeEp (epPkg e) && p.dst == e && (usesLines p.body).contains line

/-- A unit of the package cannot be served at a line now (R80 to R82): accesses to it wait at its home, it is filled or written back, it has no way
to enter by, or a unit's own write to it is on its way. The unit's access comes only behind them. -/
def lineBusy (s : State) (line : Nat) : Bool :=
  let e := homeOf line
  match s.core? e with
  | none => false
  | some c =>
    !c.mgmt.failed && ((portWaiters s e).any (·.2.contains line) || unitWriting s e line
      || match c.mem.buf.find? (·.line == line) with
        | some b => b.filling || b.writing
        | none => !canEnter s e line)

/-- A unit of the package must wait before it reads n bytes at a physical address: a line of theirs is busy, or a sealed entry holds one of
their words (R189, R190). -/
def unitBusy (s : State) (pa n : Nat) : Bool :=
  (linesOf pa n).any fun l =>
    let a := max pa l
    lineBusy s l || anySealed s (homeOf l) (dramKey a) (min (pa + n) (l + 64) - a)

/-- What the packets of a package's units carry: no thread and no request. -/
def unitReq (pkg : Nat) : Req := ⟨bridgeEp pkg, 0, 0, 0, 0, 0, 17, 0⟩

/-- A write of a part of a line applied at its home: a part is written over what is read, and of an ochre line it is not applied unless it covers
the line (R96). It is a plain write (R189). -/
def applyPart (s : State) (line off : Nat) (part : List (BitVec 8)) : State :=
  let s := abortPlain s (homeOf line) (dramKey (line + off)) part.length
  let s := if part.length == 64 then s else unitReadLine s line (line + off) part.length
  match lineValue s line with
  | some d => setLine s line (patchLine d off part)
  | none => if part.length == 64 then setLine s line (leNat part) else s

/-- A unit of the package writes bytes at a physical address (R80, R82): at once where their line is free, else as a packet that takes its place in
the order of arrival at its home. -/
def physWrite (s : State) (pa : Nat) (bs : List (BitVec 8)) : State :=
  (lineParts pa bs).foldl (fun s (line, off, part) =>
    if unitBusy s (line + off) part.length then
      let pkg := paPkg pa
      s.send (bridgeEp pkg) (homeOf line) 1 (unitReq pkg) ⟨never, 0, pkg⟩
        (.pieceWrite 0 ⟨homeOf line, line + off, none, true, true, 0, none, false⟩ (some part) part.length [] (bridgeEp pkg))
    else applyPart s line off part) s

/-- An aligned word as the units of a package know it: what the latest of their writes on its way there gives it, else what stands there. -/
def unitWord (s : State) (pa : Nat) : Nat :=
  let put := fun (p : Pkt) => match p.body with
    | .pieceWrite _ dst (some bs) .. =>
      if p.src == bridgeEp (paPkg pa) && dst.dram && dst.addr ≤ pa && pa + 8 ≤ dst.addr + bs.length then
        some (leNat ((bs.drop (pa - dst.addr)).take 8)) else none
    | _ => none
  ((s.net.filterMap put).getLast?).getD (physWord s pa 8)

/-- The address and the bytes of an entry of a table of R470: 0 contexts, 1 queues, 2 communicators, 3 groups. -/
def entryAt (s : State) (pkg kind i : Nat) : Nat × Nat :=
  let b := (s.pkg pkg).bridge
  match kind with
  | 0 => (b.ctxbase.toNat + 64 * i, 64)
  | 1 => (b.qdbase.toNat + 64 * i, 64)
  | 2 => (b.commbase.toNat + 16 * i, 16)
  | _ => (b.grpbase.toNat + 8 * i, 8)

/-- The key of the copy of an entry. -/
def entryKey (kind i : Nat) : Nat := kind * 2 ^ 14 + i

/-- An entry of a table as the units of a package see it (R470): their copy, else what stands in DRAM. -/
def tableEntry (s : State) (pkg kind i : Nat) : Nat :=
  (tget (s.pkg pkg).copies (entryKey kind i)).getD (let (a, n) := entryAt s pkg kind i; physWord s a n)

/-- An entry of which the units keep no copy cannot be read now at its home (R82). -/
def entryWaits (s : State) (pkg kind i : Nat) : Bool :=
  (s.pkg pkg).powered && (tget (s.pkg pkg).copies (entryKey kind i)).isNone && (let (a, n) := entryAt s pkg kind i; unitBusy s a n)

/-- A unit of the package uses an entry (R470, R80): the first use reads it at its home, with the errors that it meets there (R83, R93, R95), and
the units keep a copy. -/
def noteEntry (s : State) (pkg kind i : Nat) : State :=
  if !(s.pkg pkg).powered || (tget (s.pkg pkg).copies (entryKey kind i)).isSome then s
  else
    let (a, n) := entryAt s pkg kind i
    let s := unitRead s a n
    s.modPkg pkg fun p => { p with copies := tput (entryKey kind i) (physWord s a n) p.copies }

/-- The units of a package keep no copies of some entries any more (R470). -/
def dropCopies (s : State) (pkg : Nat) (f : Nat → Bool) : State :=
  s.modPkg pkg fun p => { p with copies := p.copies.filter fun x => !f x.1 }

/-- A base register has been written: every copy of its table's entries goes (R470). -/
def dropTable (s : State) (pkg kind : Nat) : State := dropCopies s pkg fun k => k / 2 ^ 14 == kind

end Sys2Proof.Machine
end

