-- ==== Sys2Proof/Machine/Expiry.lean ====
section
/-! DEFINITION. Expiry (07): the lapse test, check points, the lapse table, references, broadcasts, unions and proxies. -/

namespace Sys2Proof.Machine

/-- lapsed(inst) at a value of NOW (R201, R202). -/
def lapsedAt (now : Word) (inst : Instant) : Bool :=
  if inst == never then false else decide ((now.setWidth 48 - inst).toNat < 2 ^ 47)

/-- Instant a is earlier than instant b (R202). -/
def earlier (a b : Instant) : Bool :=
  if a == b then false else if a == never then false else if b == never then true else decide ((b - a).toNat < 2 ^ 47)

/-- The later of two instants (R202). -/
def later (a b : Instant) : Instant := if earlier a b then b else a

/-- A check at a die fails (R216): the carried instant has lapsed there, or the die's replica shows the handle lapsed. -/
def checkFails (s : State) (dk : Nat) (inst : Instant) (h : Nat) : Bool :=
  lapsedAt (s.die dk).now inst || (s.die dk).replica.lapsed.contains h

/-- A check of a packet's carried expiry on the die of an endpoint (R216). -/
def expired (s : State) (e : EP) (c : Carry) : Bool := checkFails s (dieKey e) c.inst c.hnd.toNat

/-- A lapse-table entry (R204). -/
def State.lapse? (s : State) (pkg h : Nat) : Option Lapse := tget (s.pkg pkg).lapse h

/-- A lapse-table entry changed. -/
def State.modLapse (s : State) (pkg h : Nat) (f : Lapse → Lapse) : State := s.modPkg pkg fun p => { p with lapse := tmod h f p.lapse }

/-- A handle is live (R204). -/
def State.live (s : State) (pkg h : Nat) : Bool := match s.lapse? pkg h with
  | some e => !e.l
  | none => false

/-- A broadcast leaves the instant unit for every die (R203). -/
def State.broadcast (s : State) (pkg : Nat) (c : Change) : State :=
  let n := (s.pkg pkg).bseq
  let s := s.modPkg pkg fun p => { p with bseq := p.bseq + 1 }
  (List.range 8).foldl (fun s d => s.modDie (pkg * 8 + d) fun x =>
    { x with replica := { x.replica with coming := x.replica.coming ++ [(n, c)] } }) s

/-- A broadcast that names a handle. -/
def Change.names (h : Nat) : Change → Bool
  | .none => false
  | .lapse x => x == h
  | .union x _ _ => x == h
  | .inst x _ => x == h

/-- No replica knows anything of a handle any more: it has been freed. -/
def forget (s : State) (pkg h : Nat) : State :=
  (List.range 8).foldl (fun s d => s.modDie (pkg * 8 + d) fun x =>
    { x with replica := { x.replica with
        lapsed := x.replica.lapsed.filter (· != h),
        unions := tdelete h x.replica.unions,
        coming := x.replica.coming.map fun (n, c) => (n, if c.names h then .none else c) } }) s

/-- How many handles of a package are free (R206). -/
def Pkg.handlesFree (p : Pkg) : Nat := 65536 - p.fresh + p.freed.length

/-- A free handle, the one that has been free longest (R206): those never used first, in rising order (log 5). One is there behind the n
queues that wait for a handle already. -/
def takeHandleBehind (s : State) (pkg n : Nat) : Option (Nat × State) :=
  let p := s.pkg pkg
  if p.handlesFree ≤ n then none
  else if p.fresh < 65536 then some (p.fresh, s.modPkg pkg fun p => { p with fresh := p.fresh + 1 })
  else match p.freed with
    | h :: rest => some (h, s.modPkg pkg fun p => { p with freed := rest })
    | [] => none

/-- A free handle for a union or a proxy: the queues that wait come first (R206). -/
def takeHandle (s : State) (pkg : Nat) : Option (Nat × State) := takeHandleBehind s pkg (s.pkg pkg).handleWait.length

/-- The queues that wait receive the handles that have become free, in the order in which they began waiting and in the cycle in which one became
free (R206): their admission comes next. -/
def grantHandle (s : State) (pkg : Nat) : State :=
  let p := s.pkg pkg
  { s with agenda := ((p.handleWait.take p.handlesFree).map fun q => Occ.mk 0 (.entryAdmission pkg q)) ++ s.agenda }

/-- An entry with nothing in it (R204). -/
def Lapse.start (kind : HKind) (opkg : Nat) (ohnd : Handle) (inst : Instant) (ref : Nat) (ctx : Ctx) : Lapse :=
  { kind := kind, l := false, c := false, opkg := opkg, ohnd := ohnd, inst := inst, ref := ref, ctx := ctx, tasks := 0, msgs := 0,
    stores := 0, exports := [], overflow := false, members := [], fault := false, queue := 0, seq := 0, settle := none }

/-- A handle's entry is made (R205): every replica forgets what it knew of the handle before. -/
def makeHandle (s : State) (pkg h : Nat) (e : Lapse) : State :=
  forget (s.modPkg pkg fun p => { p with lapse := tput h e p.lapse }) pkg h

/-- Counts are added to the package counters (R211, R224). -/
def addPkgCounts (s : State) (pkg tasks msgs stores : Nat) : State :=
  s.modBridge pkg fun b => { b with ptasks := satAdd64 b.ptasks tasks, pmsgs := satAdd64 b.pmsgs msgs, pstores := satAdd64 b.pstores stores }

/-- A handle is freed (R205), and a queue that waits for one receives it (R206). -/
def freeHandle (s : State) (pkg h : Nat) : State :=
  grantHandle (forget (s.modPkg pkg fun p => { p with lapse := tdelete h p.lapse, freed := p.freed ++ [h] }) pkg h) pkg

/-- The drop reports of a handle that are on their way to its instant unit (R218): their counts. -/
def comingDrops (s : State) (pkg h : Nat) : Nat × Nat × Nat := s.ctl.foldl (fun n m => match m with
  | .drop p x a b c => if p == pkg && x == h then (n.1 + a, n.2.1 + b, n.2.2 + c) else n
  | _ => n) (0, 0, 0)

/-- A proxy's REF has reached 0 (R209): the reports of its last drops are taken, its counters go to the origin unit, and the proxy is freed. -/
def endProxy (s : State) (pkg h : Nat) (e : Lapse) : State :=
  let n := comingDrops s pkg h
  let others := s.ctl.filter fun m => match m with
    | .drop p x _ _ _ => !(p == pkg && x == h)
    | _ => true
  let full := fun (x : BitVec 32) (k : Nat) => (satAdd x k).toNat
  freeHandle { s with ctl := others ++ [.proxyReport pkg e.opkg e.ohnd.toNat (full e.tasks n.1) (full e.msgs n.2.1) (full e.stores n.2.2) e.fault] } pkg h

/-- A reference is added (R207); handle 0 counts none. A request that was settling settles no more until REF is 0 again (log 65). -/
def refInc (s : State) (pkg h : Nat) : State :=
  if h == 0 then s else s.modLapse pkg h fun e => { e with ref := e.ref + 1, settle := none }

/-- A reference of a request or proxy ends (R207, R222, R209). A request whose instant has passed by then has lapsed (R205). -/
def refDecPlain (s : State) (pkg h : Nat) : State :=
  match s.lapse? pkg h with
  | none => s
  | some e =>
    if 1 < e.ref then s.modLapse pkg h fun e => { e with ref := e.ref - 1 }
    else if e.kind == .proxy then endProxy s pkg h e
    else
      let due := !e.l && lapsedAt (s.pkgNow pkg) e.inst
      let s := if due then s.broadcast pkg (.lapse h) else s
      s.modLapse pkg h fun e => { e with ref := 0, l := e.l || due,
                                         settle := some ((s.pkgNow pkg).toNat + (s.pkg pkg).bridge.settle.toNat * 1000) }

/-- A union's REF has reached 0 (R211, R433): its counters go to the package counters, its references on live members end, and it
is freed. -/
def endUnion (s : State) (pkg h : Nat) (e : Lapse) : State :=
  let s := addPkgCounts s pkg e.tasks.toNat e.msgs.toNat e.stores.toNat
  e.members.foldl (fun s (m, live) => if live then refDecPlain s pkg m else s) (freeHandle s pkg h)

/-- A reference ends (R207). -/
def refDec (s : State) (pkg h : Nat) : State :=
  if h == 0 then s
  else match s.lapse? pkg h with
    | none => s
    | some e =>
      if e.kind == .union then
        if 1 < e.ref then s.modLapse pkg h fun e => { e with ref := e.ref - 1 } else endUnion s pkg h e
      else refDecPlain s pkg h

/-- The latest instant among the live members of a union (R210). -/
def unionInst (s : State) (pkg : Nat) (members : List (Nat × Bool)) : Option Instant :=
  members.foldl (fun acc (m, live) =>
    if live then match s.lapse? pkg m with
      | some e => some (match acc with | none => e.inst | some i => later i e.inst)
      | none => acc
    else acc) none

/-- A change of a handle goes to the packages of its export list, or to every package of the domain where the list has
overflowed (R209). -/
def propagate (s : State) (pkg : Nat) (e : Lapse) (f : Nat → Ctl) : State :=
  let targets := if e.overflow then (s.pkgs.map (·.1)).filter (· != pkg) else e.exports
  { s with ctl := s.ctl ++ targets.map f }

/-- A member's instant has changed (R208, R210): the INST of every union that holds it live is recomputed, and goes to the replicas and to the
packages of the union's export list (R209). -/
def memberMoved (s : State) (pkg h : Nat) : State :=
  ((s.pkg pkg).lapse.filter fun (_, x) => x.kind == .union && x.members.contains (h, true)).foldl (fun s (u, e) =>
    match unionInst s pkg e.members with
    | some i =>
      if i == e.inst then s
      else propagate ((s.modLapse pkg u fun e => { e with inst := i }).broadcast pkg (.union u e.members i)) pkg e
        fun p => .unionChange p pkg u i false
    | none => s) s

/-- A union changes after a member's lapse (R205, R211): INST is recomputed and broadcast; it lapses when no member stays live. -/
def unionChanged (s : State) (pkg u h : Nat) : State :=
  match s.lapse? pkg u with
  | none => s
  | some e =>
    if e.members.contains (h, true) then
      let ms := e.members.map fun (m, b) => (m, b && m != h)
      let s := refDecPlain (s.modLapse pkg u fun e => { e with members := ms }) pkg h
      match unionInst s pkg ms with
      | some i =>
        let s := (s.modLapse pkg u fun e => { e with inst := i }).broadcast pkg (.union u ms i)
        propagate s pkg e fun p => .unionChange p pkg u i false
      | none =>
        if e.l then s.broadcast pkg (.union u ms e.inst)
        else
          let s := (((s.modLapse pkg u fun e => { e with l := true }).broadcast pkg (.union u ms e.inst)).broadcast pkg (.lapse u))
          propagate s pkg e fun p => .unionChange p pkg u e.inst true
    else s

/-- A live handle lapses, by its instant or by CANCEL (R205, R209): L, C, broadcast, its unions, and for a CANCEL the packages of
its export list; a CANCEL of a proxy is forwarded to its origin. -/
def lapseHandle (s : State) (pkg h : Nat) (cancel : Bool) : State :=
  match s.lapse? pkg h with
  | none => s
  | some e =>
    if e.l then s
    else
      let s := (s.modLapse pkg h fun e => { e with l := true, c := cancel }).broadcast pkg (.lapse h)
      let s := if cancel then
          (if e.kind == .proxy then { s with ctl := s.ctl ++ [.cancelOrigin e.opkg e.ohnd.toNat] }
           else propagate s pkg e fun p => .cancel p pkg h)
        else s
      ((s.pkg pkg).lapse.filterMap fun (u, x) => if x.kind == .union then some u else none).foldl
        (fun s u => unionChanged s pkg u h) s

/-- Counts are added to a handle's entry, or to the package counters where the handle is free (R218, R224). -/
def addCounts (s : State) (pkg h tasks msgs stores : Nat) : State :=
  match s.lapse? pkg h with
  | none => addPkgCounts s pkg tasks msgs stores
  | some _ => s.modLapse pkg h fun e => { e with tasks := satAdd e.tasks tasks, msgs := satAdd e.msgs msgs, stores := satAdd e.stores stores }

/-- A handle of a thread lost to containment or a failed save (R222). -/
def markFault (s : State) (pkg h : Nat) : State := s.modLapse pkg h fun e => { e with fault := true }

/-- A package joins a handle's export list with a reference (R209); more than 8 overflow the list. A handle that CANCEL has
lapsed already sends the cancellation at once. Whether a package that an overflowed list has no room for holds a reference the spec does not
say: the model gives it none (DESIGN CHOICE, log 81). -/
def addExport (s : State) (pkg h third : Nat) : State :=
  match s.lapse? pkg h with
  | none => s
  | some e =>
    if e.exports.contains third then s
    else
      let s := s.modLapse pkg h fun e =>
        if e.exports.length < 8 then { e with exports := e.exports ++ [third], ref := e.ref + 1, settle := none } else { e with overflow := true }
      if e.l && e.c then { s with ctl := s.ctl ++ [.cancel third pkg h] } else s

/-- The proxy of an origin identity (R208). -/
def proxyOf (s : State) (pkg opkg : Nat) (oh : Handle) : Option Nat :=
  ((s.pkg pkg).lapse.find? fun (_, e) => e.kind == .proxy && e.opkg == opkg && e.ohnd == oh).map (·.1)

/-- The origin identity of a local handle (R208): the handle itself for a request or union, OHND for a proxy. -/
def identityOf (s : State) (pkg h : Nat) : Nat × Handle :=
  match s.lapse? pkg h with
  | some e => if e.kind == .proxy then (e.opkg, e.ohnd) else (pkg, BitVec.ofNat 16 h)
  | none => (pkg, BitVec.ofNat 16 h)

/-- A carry with its origin identity instead of a local handle (R208). -/
def outCarry (s : State) (c : Carry) : Carry :=
  if c.hnd == 0 then c else let (opkg, oh) := identityOf s c.opkg c.hnd.toNat; ⟨c.inst, oh, opkg⟩

/-- A carry as a package knows it (R208): its own handle, or that of the proxy it holds, 0 where it holds none. -/
def localCarry (s : State) (own : Nat) (c : Carry) : Carry :=
  let c := outCarry s c
  let h := if c.hnd == 0 then 0 else if c.opkg == own then c.hnd.toNat else (proxyOf s own c.opkg c.hnd).getD 0
  ⟨c.inst, BitVec.ofNat 16 h, own⟩

/-- A report of an item (R218): by the local handle where one exists, else to the origin package by the origin identity. -/
def reportItem (s : State) (pkg : Nat) (c : Carry) (tasks msgs stores : Nat) : State :=
  if c.hnd == 0 then s
  else if c.opkg == pkg then s.report pkg c.hnd.toNat tasks msgs stores
  else { s with ctl := s.ctl ++ [.dropAt pkg c.opkg c.hnd.toNat tasks msgs stores] }

end Sys2Proof.Machine
end

