-- ==== Sys2Proof/Machine/Maps.lean ====
section
/-! DEFINITION. The tables that join a program's addresses to the machine's (01): context records, peer maps, virtual-core maps,
translation with its TLBs and walker, and the checks of address operands (R6, R7, R14). -/

namespace Sys2Proof.Machine

/-- What a failed check raises: cause, TADDR and INFO (R283). -/
structure Trap where
  cause : Nat
  addr : Word
  info : Nat
  deriving DecidableEq, Repr, Inhabited

/-- A check that passes with a value or raises a trap. -/
abbrev Checked (α : Type) := Except Trap α

/-- The 64-byte record of a context on a package (R246), as a number. -/
def ctxRecord (s : State) (pkg : Nat) (c : Ctx) : Nat := tableEntry s pkg 0 c.toNat
/-- V of a context record. -/
def ctxValid (s : State) (pkg : Nat) (c : Ctx) : Bool := bitAt (ctxRecord s pkg c) 63
/-- PRIV of a context record (R247). -/
def ctxPriv (s : State) (pkg : Nat) (c : Ctx) : Bool := bitAt (ctxRecord s pkg c) 62
/-- The context channel: 0 none, else 4 to 15 (R246). -/
def ctxChannel (s : State) (pkg : Nat) (c : Ctx) : Nat := let v := bitsAt (ctxRecord s pkg c) 59 56; if v < 4 then 0 else v
/-- The virtual channel of a context's requests (R110). -/
def ctxVc (s : State) (pkg : Nat) (c : Ctx) : Nat := let v := ctxChannel s pkg c; if v == 0 then 1 else v
/-- The L0 table of a context (R34). -/
def ctxRoot (s : State) (pkg : Nat) (c : Ctx) : Nat := bitsAt (ctxRecord s pkg c) 55 13 * 2 ^ 13
/-- SAVE, the base of a context's save area (R289). -/
def ctxSave (s : State) (pkg : Nat) (c : Ctx) : Nat := bitsAt (ctxRecord s pkg c) 375 330 * 2 ^ 10
/-- VCLEN (R22). -/
def ctxVclen (s : State) (pkg : Nat) (c : Ctx) : Nat := min 65536 (bitsAt (ctxRecord s pkg c) 144 128)
/-- The physical address of a virtual-core map entry (R22). -/
def vcAddr (s : State) (pkg : Nat) (c : Ctx) (v : Nat) : Nat := bitsAt (ctxRecord s pkg c) 119 76 * 2 ^ 12 + 8 * v

/-- A supervisor of the whole package: supervisor mode in a context with PRIV = 1 (R247). -/
def isSystem (s : State) (e : EP) (t : Thread) : Bool := t.sup && ctxPriv s (epPkg e) t.ctx

/-- A peer's package and sticky bit; none where the entry is invalid (R17 to R19). -/
def peerOf (s : State) (own : Nat) (peermap : BitVec 44) (p : Nat) : Option (Nat × Nat) :=
  let base := peermap.toNat * 2 ^ 12
  let readable := paPkg base == own && populated base 4096
  let w := if readable then physWord s (base + 4 * p) 4 else 0
  if p == 0 then some (own, w % 64)
  else if readable && bitAt w 31 && bitsAt w 30 22 == 0 && bitsAt w 11 6 == 0 then some (bitsAt w 21 12, w % 64)
  else none

/-- The sticky bit of a package: EBIT of the lowest-numbered valid peer-map entry that names it (R21). -/
def ebitOf (s : State) (own : Nat) (peermap : BitVec 44) (pkg : Nat) : Option Nat :=
  (List.range 1024).findSome? fun p => match peerOf s own peermap p with
    | some (k, b) => if k == pkg then some b else none
    | none => none

/-- A valid entry in the layout of R22: endpoint, BASE and SIZE in KiB. -/
def vcDecode (w : Nat) : Option (EP × Nat × Nat) :=
  let ep := w % 2 ^ 24
  let base := bitsAt w 34 24
  let size := bitsAt w 58 48
  if bitAt w 63 && bitsAt w 62 59 == 0 && bitsAt w 47 35 == 0 && 1 ≤ size && size ≤ 1536
      && isCore ep && base + size ≤ spadSize ep / 1024 then some (ep, base, size) else none

/-- A virtual core of a context on a package (R22). -/
def vcOf (s : State) (pkg : Nat) (c : Ctx) (v : Nat) : Option (EP × Nat × Nat) :=
  if ctxVclen s pkg c ≤ v then none else vcDecode (physWord s (vcAddr s pkg c v) 8)

/-- XB of a core in bytes, as it acts (R10, R76). -/
def xbBytes (c : Core) : Nat := min c.xb.toNat (if c.kind == .memory then 0x80 else 0x180) * 4096

/-- INFO of causes 0x07 and 0x08: the access size, 0 for 16 or more (R283). -/
def sizeInfo (n : Nat) : Nat := if n < 16 then n else 0

/-- The checks of a local address in their order (R7): the physical offset. -/
def checkLocal (s : State) (e : EP) (t : Thread) (a : Word) (n : Nat) : Checked Nat :=
  let off := a.toNat % 2 ^ 21
  let phys := t.sr.lbase.toNat * 1024 + off
  if a.toNat / 2 ^ 21 != 0 then .error ⟨0x07, a, sizeInfo n⟩
  else if t.sr.lsize.toNat * 1024 < off + n then .error ⟨0x07, a, sizeInfo n⟩
  else if spadSize e < phys + n then .error ⟨0x07, a, sizeInfo n⟩
  else if phys < xbBytes (s.core e) then .error ⟨0x05, a, 1⟩
  else .ok phys

/-- Alignment to `n` of an access of `size` bytes (R361, R283): cause 0x08. -/
def checkAlignedOf (a : Word) (n size : Nat) : Checked Unit := if a.toNat % n == 0 then .ok () else .error ⟨0x08, a, sizeInfo size⟩

/-- Natural alignment (R361): cause 0x08. -/
def checkAligned (a : Word) (n : Nat) : Checked Unit := checkAlignedOf a n n

/-- A fabric operand resolved as far as its issuer resolves it (R14 steps 1 and 2): the packet's destination, the virtual core that
travels unresolved, the offset, the physical scratchpad offset where it is resolved and within the allotment (R13, R15), and the
sticky bit of the peer. -/
structure Route where
  dst : EP
  vcore : Option Nat
  off : Nat
  phys : Option Nat
  ebit : Nat
  deriving DecidableEq, Repr, Inhabited

/-- The physical offset of n bytes at offset o of a map entry (R13, R15); none outside the allotment. -/
def rebase (base size o n : Nat) : Option Nat := if o + n ≤ size * 1024 then some (base * 1024 + o) else none

/-- The peer index of a fabric address. -/
def peerIndex (a : Word) : Nat := bitsAt a.toNat 49 40

/-- A fabric operand of n bytes: form, peer, virtual core (R6, R14). -/
def checkFabric (s : State) (e : EP) (t : Thread) (a : Word) (n cause : Nat) : Checked Route :=
  let bad : Checked Route := .error ⟨cause, a, peerIndex a⟩
  if a.toNat / 2 ^ 62 != 1 || bitsAt a.toNat 61 50 != 0 then bad
  else
    let v := bitsAt a.toNat 39 24
    let off := a.toNat % 2 ^ 24
    match peerOf s (epPkg e) t.sr.peermap (peerIndex a) with
    | none => .error ⟨0x13, a, peerIndex a⟩
    | some (pkg, eb) =>
      if pkg == epPkg e then
        match vcOf s pkg t.ctx v with
        | none => .error ⟨0x13, a, peerIndex a⟩
        | some (ep, base, size) => .ok ⟨ep, none, off, rebase base size off n, eb⟩
      else .ok ⟨gatewayEp pkg 0 0 1, some v, off, none, eb⟩

/-- A scratchpad operand: local, or over the fabric. -/
inductive Place where
  | local_ (phys : Nat)
  | fabric (r : Route)
  deriving DecidableEq, Repr

/-- An operand that may be local or fabric (R6): another form traps with the cause given. -/
def checkPlace (s : State) (e : EP) (t : Thread) (a : Word) (n cause : Nat) : Checked Place :=
  if a.toNat / 2 ^ 62 == 0 then
    if a.toNat / 2 ^ 21 != 0 && cause != 0x07 then .error ⟨cause, a, peerIndex a⟩
    else (checkLocal s e t a n).map .local_
  else (checkFabric s e t a n cause).map .fabric

/-- A device-virtual operand (R5, R6): its virtual address. -/
def checkDv (a : Word) : Checked Nat :=
  if a.toNat / 2 ^ 62 == 2 && bitsAt a.toNat 61 56 == 0 then .ok (a.toNat % 2 ^ 56) else .error ⟨0x10, a, 0⟩

/-- What a page-table entry says at a level (R35, R36). -/
inductive Pte where
  | absent
  | table (pa : Nat)
  | leaf (bits pa : Nat)
  deriving DecidableEq, Repr

/-- A page-table entry read at a level of a walk (R36). -/
def pteOf (w level : Nat) : Pte :=
  let pa := bitsAt w 57 18 * 2 ^ 16
  if !bitAt w 0 || bitsAt w 7 6 != 0 then .absent
  else if bitAt w 4 then
    let bits := 16 + 10 * (3 - level)
    if level == 0 || pa % 2 ^ bits != 0 || !populated pa (2 ^ bits) then .absent else .leaf bits pa
  else if level == 3 || bitsAt w 17 11 != 0 then .absent
  else .table (pa + bitsAt w 10 8 * 2 ^ 13)

/-- The index of a virtual address at a level (R34). -/
def ptIndex (va level : Nat) : Nat := va / 2 ^ (16 + 10 * (3 - level)) % 1024

/-- A step of a walk: the table at a level is read (R34, R36, R41). -/
def walkRead (s : State) (pkg table va level : Nat) : Pte × Nat :=
  if paPkg table == pkg && populated table 8192 then
    let w := physWord s (table + 8 * ptIndex va level) 8
    (pteOf w level, w)
  else (.absent, 0)

/-- The cached translation that a leaf gives. -/
def tlbEntryOf (ctx : Ctx) (va bits pa w : Nat) : TlbEntry :=
  ⟨ctx, va / 2 ^ bits * 2 ^ bits, bits, pa, bitsAt w 17 8, bitAt w 1, bitAt w 2, bitAt w 3, bitAt w 5⟩

/-- A whole walk at one moment: what the dispatcher's header read uses (R251). -/
def walkAll (s : State) (pkg : Nat) (ctx : Ctx) (va : Nat) : Nat → Nat → Nat → Option TlbEntry
  | _, _, 0 => none
  | table, level, n + 1 => match walkRead s pkg table va level with
    | (.absent, _) => none
    | (.table pa, _) => walkAll s pkg ctx va pa (level + 1) n
    | (.leaf bits pa, w) => some (tlbEntryOf ctx va bits pa w)

/-- The addresses of the table entries that a whole walk reads. -/
def walkAddrs (s : State) (pkg va : Nat) : Nat → Nat → Nat → List Nat
  | _, _, 0 => []
  | table, level, n + 1 =>
    if paPkg table == pkg && populated table 8192 then
      (table + 8 * ptIndex va level) :: match walkRead s pkg table va level with
        | (.table pa, _) => walkAddrs s pkg va pa (level + 1) n
        | _ => []
    else []

/-- A unit walks the tables of a context (R251): it reads their entries at their homes. -/
def unitWalk (s : State) (pkg : Nat) (ctx : Ctx) (va : Nat) : State :=
  (walkAddrs s pkg va (ctxRoot s pkg ctx) 0 4).foldl (fun s a => unitRead s a 8) s

/-- The translation of a virtual address at one moment. -/
def walkNow (s : State) (pkg : Nat) (ctx : Ctx) (va : Nat) : Option TlbEntry := walkAll s pkg ctx va (ctxRoot s pkg ctx) 0 4

/-- An entry translates an address of a context. -/
def TlbEntry.hits (x : TlbEntry) (ctx : Ctx) (va : Nat) : Bool := x.ctx == ctx && va / 2 ^ x.bits * 2 ^ x.bits == x.va

/-- The physical address that an entry gives. -/
def TlbEntry.addr (x : TlbEntry) (va : Nat) : Nat := x.pa + va % 2 ^ x.bits

/-- The physical address at the mirror home (R98): the same offset on package MPKG. -/
def TlbEntry.mirror (x : TlbEntry) (va : Nat) : Nat := x.mpkg * 2 ^ 46 + x.addr va % 2 ^ 46

/-- A TLB looked up; a hit becomes the most recently used (R39). -/
def tlbLook (l : List TlbEntry) (ctx : Ctx) (va : Nat) : Option (TlbEntry × List TlbEntry) :=
  match l.find? (·.hits ctx va) with
  | some x => some (x, l.filter (· != x) ++ [x])
  | none => none

/-- The set of an entry: the spec gives no function, the model takes the page number (DESIGN CHOICE, log 15). -/
def tlbSet (sets : Nat) (x : TlbEntry) : Nat := x.va / 2 ^ x.bits % sets

/-- An entry filled into a TLB of sets and ways (R38, R39): the victim is the least recently used unpinned entry of the set, or
where all are pinned the least recently used. -/
def tlbFill (sets ways : Nat) (l : List TlbEntry) (x : TlbEntry) : List TlbEntry :=
  let l := l.filter fun y => !(y.ctx == x.ctx && y.va == x.va && y.bits == x.bits)
  let mine := l.filter fun y => tlbSet sets y == tlbSet sets x
  if mine.length < ways then l ++ [x]
  else
    match (mine.find? (!·.pin)).or mine.head? with
    | some v => l.filter (· != v) ++ [x]
    | none => l ++ [x]

/-- A walk of the same page and context is under way (R40), no INVTLB having reached the die since it began (R447). R40 names one cluster's L2 TLB and does not say what the same page is before the leaf
is known: the model joins the misses of every structure of a die, by the 64 KiB page (DESIGN CHOICE, log 81). -/
def walking (d : Die) (ctx : Ctx) (va : Nat) : Bool :=
  d.walks.any fun w => !w.ended && !w.stale && w.ctx == ctx && w.va / 2 ^ 16 == va / 2 ^ 16

/-- A miss joins the walk of its page, or starts one at the root (R34, R40). -/
def startWalk (s : State) (dk : Nat) (ctx : Ctx) (va : Nat) (fill : List (Nat × Nat)) : State :=
  if walking (s.die dk) ctx va then
    s.modDie dk fun d => { d with walks := d.walks.map fun w =>
      if !w.ended && !w.stale && w.ctx == ctx && w.va / 2 ^ 16 == va / 2 ^ 16 then
        { w with fill := fill.foldl (fun l x => addOnce x l) w.fill } else w }
  else
    let root := ctxRoot s (dk / 8) ctx
    s.modDie dk fun d => { d with walks := d.walks ++ [⟨ctx, va, fill, 0, root, false, false, none⟩] }

/-- Where a walk for a core fills: its own TLB, and for a compute core the cluster's (R38). R38's table names no TLB of a gateway core: the model
gives it one like a compute core's, of 128 entries, fully associative (DESIGN CHOICE, log 81). -/
def coreFills (e : EP) : List (Nat × Nat) := if epKind e == 0 then [(0, e), (2, clusterKey e)] else [(0, e)]

/-- The outcome of a translation at a core: a leaf, a fault found by the walk that the thread waited for, or a miss whose walk
runs. -/
inductive Xlate where
  | hit (x : TlbEntry)
  | absent
  | miss
  deriving DecidableEq, Repr

/-- The walk that a parked thread waited for has found nothing (R37): a mark in its park. -/
def walkFailed (t : Thread) : Bool := match t.park with
  | some ⟨.again (.tlb _), _, _, _, _, aux, _⟩ => aux == 1
  | _ => false

/-- A leaf as the mark of a parked thread keeps it: page size, package of the mirror, rights, and physical address. -/
def TlbEntry.mark (x : TlbEntry) : Nat :=
  2 + x.bits + 64 * (x.mpkg + 1024 * (b2n x.rd + 2 * b2n x.wr + 4 * b2n x.m + 8 * b2n x.pin + 16 * x.pa))

/-- The leaf of a mark. -/
def leafOf (ctx : Ctx) (va mark : Nat) : TlbEntry :=
  let n := mark - 2
  let r := n / 65536 % 16
  tlbLeaf ctx va (n % 64) (n / 1048576) (n / 64 % 1024) r
where
  /-- The entry with its rights as four bits. -/
  tlbLeaf (ctx : Ctx) (va bits pa mpkg r : Nat) : TlbEntry :=
    ⟨ctx, va / 2 ^ bits * 2 ^ bits, bits, pa, mpkg, bitAt r 0, bitAt r 1, bitAt r 2, bitAt r 3⟩

/-- The leaf that the walk a parked thread waited for has found for it alone, an INVTLB having overtaken the walk (R447). -/
def walkGave (t : Thread) (va : Nat) : Option TlbEntry := match t.park with
  | some ⟨.again (.tlb a), _, _, _, _, aux, _⟩ => if 2 ≤ aux && a == va then some (leafOf t.ctx va aux) else none
  | _ => none

/-- A thread waits for a walk under way (R40). -/
def Thread.awaitsWalk (t : Thread) (d : Die) : Bool := d.walks.any fun w => !w.ended && w.fill.contains (4, t.uid)

/-- Translate at a core (R38, R40): its own TLB, the cluster's, what a walk that an INVTLB has overtaken gives the thread that waited for it
(R447), else a walk. -/
def coreXlate (s : State) (e : EP) (t : Thread) (va : Nat) : Xlate × State :=
  match tlbLook (s.core e).tlb t.ctx va with
  | some (x, l) => (.hit x, s.modCore e fun c => { c with tlb := l })
  | none =>
    match (if epKind e == 0 then tlbLook (s.cluster (clusterKey e)).tlb t.ctx va else none) with
    | some (x, l) =>
      (.hit x, (s.modCluster (clusterKey e) fun c => { c with tlb := l }).modCore e fun c => { c with tlb := tlbFill 1 128 c.tlb x })
    | none =>
      if walkFailed t then (.absent, s)
      else match walkGave t va with
        | some x => (.hit x, s)
        | none => (.miss, startWalk s (dieKey e) t.ctx va (coreFills e ++ [(4, t.uid)]))

/-- The trap of an access whose leaf lacks a right (R37, R283). -/
def rightsTrap (x : TlbEntry) (a : Word) (rd wr : Bool) : Option Trap :=
  let noRd := rd && !x.rd
  let noWr := wr && !x.wr
  if noRd || noWr then some ⟨0x11, a, b2n noRd + 2 * b2n noWr⟩ else none

/-- A package can be reached from another (R109). -/
def reachable (s : State) (own pkg : Nat) : Bool :=
  own == pkg || (((tget (s.pkg own).links pkg).isSome) && !(s.pkg own).unreachable.contains pkg)

/-- A home that its package has declared lost (R100). -/
def isLost (s : State) (own pkg : Nat) : Bool := (s.pkg own).lost.contains pkg

/-- The gateway that egress from a package towards another takes (R108). -/
def egressOf (s : State) (own pkg : Nat) : EP := match tget (s.pkg own).links pkg with
  | some (die, port) => gatewayEp own die port 0
  | none => gatewayEp own 0 0 0

/-- Word 0 of a communicator descriptor (R132). -/
def commWord (s : State) (pkg k : Nat) : Nat := tableEntry s pkg 2 k % 2 ^ 64
/-- A communicator is valid and belongs to a context (R132). -/
def commServes (s : State) (pkg k : Nat) (c : Ctx) : Bool :=
  let w := commWord s pkg k
  bitAt w 63 && bitsAt w 41 32 != 0 && bitsAt w 59 48 == c.toNat && ctxValid s pkg c
/-- The participants of a communicator (R132). -/
def commSize (s : State) (pkg k : Nat) : Nat := bitsAt (commWord s pkg k) 41 32 + 1
/-- The own rank. -/
def commRank (s : State) (pkg k : Nat) : Nat := bitsAt (commWord s pkg k) 31 22
/-- PRI of a communicator. -/
def commPri (s : State) (pkg k : Nat) : Nat := bitsAt (commWord s pkg k) 62 60
/-- The peer index of a rank in the participant list. -/
def commPeer (s : State) (pkg k rank : Nat) : Nat :=
  let list := bitsAt (tableEntry s pkg 2 k) 119 75 * 2 ^ 11
  physWord s (list + 2 * rank) 2 % 2 ^ 10
/-- The package of a rank, by a context's peer map (R132, R17). -/
def commPkg (s : State) (pkg k rank : Nat) (peermap : BitVec 44) : Option Nat := (peerOf s pkg peermap (commPeer s pkg k rank)).map (·.1)

/-- The queue number and peer of a queue selector (R351). -/
def selQueue (w : Word) : Nat := w.toNat % 2 ^ 14
/-- The peer of a queue selector. -/
def selPeer (w : Word) : Nat := bitsAt w.toNat 25 16

/-- The unused reservation of a slot goes back to its target (R355), with the slot's instant and handle (R212). -/
def returnRes (s : State) (e : EP) (slot : Nat) (t : Thread) : State :=
  if t.qres.count == 0 then s
  else match peerOf s (epPkg e) t.sr.peermap (selPeer t.qres.sel) with
    | none => s
    | some (pkg, eb) =>
      s.send e (hostGwEp pkg) (ctxVc s (epPkg e) t.ctx) (reqOf e slot t 17 eb) (carryOf e t) (.qresReturn (selQueue t.qres.sel) t.qres.count)

/-- A message leaves its injection place (R119). -/
def injectMsg (s : State) (e : EP) (slot : Nat) (t : Thread) (o : OutMsg) : State :=
  s.send e o.dst o.vc (reqOf e slot t 19 o.ebit) o.carry (.message o.vcore o.vthr o.msg)

/-- Every message that waits for injection leaves: its slot is about to be vacant. -/
def flushOutbox (s : State) (e : EP) (slot : Nat) : State :=
  match s.thr? e slot with
  | none => s
  | some t => (t.outbox.foldl (fun s o => injectMsg s e slot t o) s).modThr e slot fun t => { t with outbox := [] }

/-- A migrant leaves its visitor slot (R89, R207, R285, R355): its unused reservation goes back, its messages leave, its references on
another package than its origin's end, and the slot is vacant. -/
def leaveVisitor (s : State) (e : EP) (slot : Nat) (t : Thread) (o : Origin) : State :=
  let s := flushOutbox (returnRes s e slot t) e slot
  let s := if epPkg o.ep == epPkg e then s else refDec s (epPkg e) t.sr.hnd.toNat
  let s := match t.provisional with
    | some h => refDec s (epPkg e) h.toNat
    | none => s
  s.vacate e slot

end Sys2Proof.Machine
end

