-- ==== Sys2Proof/Machine/Ops.lean ====
section
/-! DEFINITION. The named operations over a thread, its core and the fabric: the end of a region, TAKING A TRAP (R280 to R285), checked
and translated operands, and the issue of one instruction (R281, R318, R324, R182, R485, R294). -/

namespace Sys2Proof.Machine

/-- Containment rectangles of a core's die that hold it (R102): their descriptor numbers. -/
def rectOf (s : State) (e : EP) : Option Nat :=
  if epKind e != 0 then none
  else (List.range 16).find? fun r =>
    let w := ((s.die (dieKey e)).arec.toList.getD r 0).toNat
    bitAt w 31 && bitsAt w 26 22 ≤ epX e && epX e ≤ bitsAt w 17 13 && bitsAt w 21 18 ≤ epY e && epY e ≤ bitsAt w 12 9

/-- STATE of a containment descriptor (R102). -/
def arecState (s : State) (dk r : Nat) : Nat := bitsAt ((s.die dk).arec.toList.getD r 0).toNat 30 29

/-- A descriptor with another STATE (R104). -/
def setArecState (s : State) (dk r st : Nat) : State :=
  s.modDie dk fun d =>
    let w := (d.arec.toList.getD r 0).toNat
    { d with arec := d.arec.setIfInBounds r (BitVec.ofNat 32 (w % 2 ^ 29 + st * 2 ^ 29 + bitsAt w 31 31 * 2 ^ 31)) }

/-- The cores of a containment rectangle (R102). -/
def rectCores (s : State) (pkg die r : Nat) : List EP :=
  let w := ((s.die (pkg * 8 + die)).arec.toList.getD r 0).toNat
  (List.range (bitsAt w 12 9 + 1 - bitsAt w 21 18)).flatMap fun j =>
    (List.range (bitsAt w 17 13 + 1 - bitsAt w 26 22)).map fun i => mkEp pkg die 0 (bitsAt w 26 22 + i) (bitsAt w 21 18 + j)

/-- A core inside an open rectangle consumes an uncorrectable error (R104): the rectangle starts closing and every core inside
stops issuing. The boundary closes by BOUNDARY_CLOSE, the reset and its event come by RECTANGLE_RESET_COMPLETE. -/
def consume (s : State) (e : EP) (r : Nat) (addr : Word) : State :=
  let s := setArecState s (dieKey e) r 1
  let s := s.modDie (dieKey e) fun d => { d with consumed := d.consumed.setIfInBounds r (addr, e) }
  { (rectCores s (epPkg e) (epDie e) r).foldl (fun s c => s.modCore c fun k => { k with halted := true }) s with turn := none }

/-- The region that a thread has open; one whose abort has reached it has ended (R192). -/
def Thread.openRegion (t : Thread) : Option RegionRef := t.region.filter (·.abort.isNone)

/-- The status word of a trap (R282): PM, RG, PR, NPEND, INFO. -/
def trapStatus (t : Thread) (info : Nat) : Word :=
  BitVec.ofNat 64 (info % 2 ^ 32 + t.npend * 2 ^ 51 + t.pair.isSome.toNat * 2 ^ 61 + t.region.isSome.toNat * 2 ^ 62
    + t.sup.toNat * 2 ^ 63)

/-- The slot takes a trap (R280): the trap registers are written, the mode becomes supervisor, the handler bit is set, and the PC
goes to head 1 of the handler's line. -/
def Thread.trapTo (t : Thread) (cause : Nat) (addr : Word) (info : Nat) (trappc : CodeAddr) : Thread :=
  { t with
    sr := { t.sr with tcause := BitVec.ofNat 8 cause, taddr := addr, trappc := trappc, tstat := trapStatus t info },
    sup := true, handler := true, fresh := false, line := none, park := none, forfeits := 0, passes := 0,
    pair := t.pair.map fun q => { q with before := none, offered := none },
    pc := BitVec.ofNat 32 (t.sr.trapbase.toNat * 64 + 64 * cause + 2), sb := t.sb.setIfInBounds 16 SbEntry.none }

/-- A trap in a slot, for its own sake: a migrant returns as by BACK and takes the trap at its origin (R285), a double trap stops the slot (R284), and cause 0x14 inside a containment rectangle is not delivered: an open one consumes it, and one that is resetting
already does nothing more (R104). -/
def State.trapNow (s : State) (e : EP) (slot cause : Nat) (addr : Word) (info : Nat) (trappc : CodeAddr) : State :=
  match s.thr? e slot with
  | none => s.noTurn
  | some t =>
    match (if cause == 0x14 then rectOf s e else none) with
    | some r => if arecState s (dieKey e) r == 0 then consume s e r addr else s.noTurn
    | none =>
      match t.origin with
      | some o =>
        let m : Migrant := ⟨{ t with pc := trappc }, o, carryOf e t, 0, trappc⟩
        (leaveVisitor (s.send e o.ep (ctxVc s (epPkg e) t.ctx) (reqOf e slot t 17 0) (carryOf e t)
          (.comeBack m (some (cause, addr, word info)) false)) e slot t o).noTurn
      | none =>
        if t.handler then
          ((s.modThr e slot fun t => { t.unpark with stopped := true }).event (epPkg e) 0x0030
            (t.sr.tcause.toNat + cause % 256 * 256) e slot (t.sr.trappc.setWidth 64)).noTurn
        else (s.modThr e slot fun t => t.trapTo cause addr info trappc).noTurn

/-- A mismatch of a redundant pair (R295): both slots trap with cause 0x20, and the comparator and the load-value queue are cleared. For kind
10 TRAPPC is that of the leading thread, and TADDR the address of the trap that it raised; 0 where the trailing thread alone raised one
(log 52). -/
def pairMismatch (s : State) (e : EP) (slot kind : Nat) (addr : Word) : State :=
  match s.thr? e slot with
  | none => s.noTurn
  | some t =>
    match t.pair with
    | none => s.noTurn
    | some q =>
      let clear := fun (t : Thread) => { t with pair := t.pair.map fun q =>
        { q with lvq := [], cmp := [], before := none, late := [], offered := none } }
      let s := (s.modThr e slot clear).modThr e q.other clear
      let leadSlot := if q.lead then slot else q.other
      match s.thr? e leadSlot with
      | none => s.noTurn
      | some l =>
        let kind := if kind == 0 && l.region.isSome then 1 else kind
        let one := fun (s : State) (k : Nat) => match s.thr? e k with
          | some x => s.trapNow e k 0x20 (if kind == 10 then addr else 0) kind (if kind == 10 then l.pc else x.pc)
          | none => s
        one (one s slot) q.other

/-- The load-value queue entry of the instruction a leader has completed (R294): the registers it changed or names as destinations, and what
it left in the special registers and of the open region. -/
def lvEntry (pc : CodeAddr) (b : Regs) (dst : List Nat) (late : List (Nat × Word)) (t : Thread) : LvEntry :=
  let g := fun i => t.regs.g.toList.getD i 0
  let v := fun i => t.regs.v.toList.getD i 0
  let m := fun i => t.regs.vm.toList.getD i 0
  { pc := pc, next := t.pc,
    g := late ++ ((List.range 32).filter fun i => b.g.toList.getD i 0 != g i || dst.contains i).map fun i => (i, g i),
    pmask := (b.p ^^^ t.regs.p) ||| 0x80, p := t.regs.p,
    v := ((List.range 8).filter fun i => b.v.toList.getD i 0 != v i || dst.contains (32 + i)).map fun i => (i, v i),
    vm := ((List.range 4).filter fun i => b.vm.toList.getD i 0 != m i).map fun i => (i, m i),
    sr := t.sr, region := t.region, sup := t.sup, handler := t.handler, xf := t.xf }

/-- The XFENCE that was pending behind an entry has set p7 since (R485). -/
def LvEntry.fenced (x : LvEntry) (ok : Bool) : LvEntry :=
  if x.xf.isNone then x else { x with xf := none, pmask := x.pmask ||| 0x80, p := (x.p &&& 0x7F) ||| (if ok then 0x80 else 0) }

/-- The trailer takes an entry (R294); while its leader's XFENCE is pending it is held where the leader is (R485). -/
def Thread.takeLv (t : Thread) (x : LvEntry) : Thread :=
  let t := x.g.foldl (fun t (i, w) => t.putG (BitVec.ofNat 5 i) w) t
  let t := x.v.foldl (fun t (i, w) => t.putV (BitVec.ofNat 3 i) w) t
  let t := x.vm.foldl (fun t (i, w) => t.putM (BitVec.ofNat 2 i) w) t
  { t with regs := { t.regs with p := (t.regs.p &&& ~~~x.pmask) ||| (x.p &&& x.pmask) }, sr := x.sr, region := x.region,
             sup := x.sup, handler := x.handler, xf := x.xf }.goTo x.next

/-- The leader's completed instruction enters the load-value queue (R294); one still under way does not. -/
def flushLead (s : State) (e : EP) (slot : Nat) (t : Thread) : State :=
  match t.pair with
  | some q =>
    match q.before with
    | some (pc, b, dst) => if pc == t.pc then s else s.modThr e slot fun t => { t with pair := some { q with
        lvq := q.lvq ++ [lvEntry pc b dst q.late t], before := none, late := [] } }
    | none => s
  | none => s

/-- An instruction raises a trap (R280, R281). While an XFENCE is pending the slot parks first (R485). In a redundant pair the
trap is delivered to both threads once both raise it (R294). -/
def State.raise (s : State) (u : Turn) (cause : Nat) (addr : Word) (info : Nat) : State :=
  match s.thr? u.ep u.slot with
  | none => s.noTurn
  | some t =>
    if t.xf.isSome then s.parkAt u (.trap cause addr info) 7 0 false none 0 0
    else
      let alone := (s.modThr u.ep u.slot Thread.unpark).trapNow u.ep u.slot cause addr info (if cause == 0x21 then u.next else t.pc)
      match t.pair with
      | none => alone
      | some q =>
        match s.thr? u.ep q.other with
        | none => alone
        | some o =>
          let mine : Offer := ⟨t.pc, 10, [addr.toNat, info], some cause⟩
          match o.pair.bind (·.offered) with
          | some w =>
            if w == mine then
              (alone.modThr u.ep q.other Thread.unpark).trapNow u.ep q.other cause addr info
                (if cause == 0x21 then (o.park.map (·.next)).getD o.pc else o.pc)
            else pairMismatch s u.ep u.slot 10 (if q.lead then addr else if w.trap.isSome then word (w.words.headD 0) else 0)
          | none =>
            ((flushLead s u.ep u.slot t).modThr u.ep u.slot fun t => { t with pair := t.pair.map fun q => { q with offered := some mine } })
              |>.waitEver u .partner

/-- The register files of the slot that issues report a double-bit error (R104): it is consumed in the place of the instruction. The rule
gives neither the address nor the INFO of such an error: both are free values (log 12). -/
def State.reportRegs (s : State) (u : Turn) : State :=
  let (n, s) := s.draw 2
  (s.modCore u.ep fun c => { c with broken := c.broken.filter (· != .regs u.slot) }).raise u 0x14 (Config.freeWord n)
    ((Config.freeWord (n + 1)).toNat % 2 ^ 32)

/-- A region of a die with its record changed. -/
def modRegion (s : State) (dk r : Nat) (f : Region → Region) : State := s.modDie dk fun d => { d with regions := tmod r f d.regions }

/-- An access of a region counts in its context's probe domain (R278): an STF, whose store leaves the core. -/
def RAccess.probed (a : RAccess) : Bool := !a.here && !a.dram && a.words.any fun x => match x.2 with
  | .store .. => true
  | _ => false

/-- The count and colour of a probe domain at an interface changed (R278): a core's, or the host gateway's. -/
def modNi (s : State) (e : EP) (dom : Nat) (f : BitVec 32 × Bool → BitVec 32 × Bool) : State :=
  let g := fun (l : List (Nat × BitVec 32 × Bool)) =>
    (l.filter (·.1 != dom)) ++ [(dom, f (((l.find? (·.1 == dom)).map (·.2)).getD (0, false)))]
  if epKind e == 3 then s.modPkg (epPkg e) fun p => { p with ni := g p.ni } else s.modCore e fun c => { c with ni := g c.ni }

/-- A message, enqueue item, STF, RED or REMUP leaves an interface (R278): the count of its context's domain rises. -/
def countOut (s : State) (e : EP) (ctx : Ctx) : State :=
  if ctxChannel s (epPkg e) ctx == 0 then s else modNi s e ctx.toNat fun x => (x.1 + 1, x.2)

/-- One is delivered, applied, refused or dropped at an interface (R278): the count falls and the interface turns black. -/
def countIn (s : State) (e : EP) (ctx : Ctx) : State :=
  if ctxChannel s (epPkg e) ctx == 0 then s else modNi s e ctx.toNat fun x => (x.1 - 1, true)

/-- A region access at its owner has ended: it goes from the accesses there, and is counted at the interface (R278). -/
def endAccess (s : State) (dk : Nat) (a : RAccess) : State :=
  let s := s.modDie dk fun d => { d with raccs := d.raccs.filter (·.num != a.num) }
  if a.probed then countIn s a.home a.req.ctx else s

/-- The stores and atomics among the words of a region access that have not been performed (R224). -/
def RAccess.stores (a : RAccess) : Nat := (a.words.filter fun x => match x.2 with
  | .store .. | .atom .. => true
  | _ => false).length

/-- One region aborts (R191, R192): its record turns to aborting, its edges end, its accesses at the owners go, and a discard goes to every
owner; without owners the record is free at once. With cause 4 each of its W entries, and each store or atomic that waited, counts as a store
not applied (R219, R224). The relaxed accesses that go settle their counters (R181, R192). -/
def abortOne (s : State) (dk id cause : Nat) (silent : Bool) : State :=
  match tget (s.die dk).regions (id % 1024) with
  | none => s
  | some r =>
    if r.state == .opened || r.state == .sealing then
      let mine := (s.die dk).raccs.filter (·.region == id)
      let lost := (r.owners.map fun e => ((entriesOf s e id).filter (·.write)).length).sum + (mine.map (·.stores)).sum
      let s := if cause == 4 then s.report (dk / 8) r.carry.hnd.toNat 0 0 lost else s
      let s := mine.foldl (fun s a => let s := endAccess s dk a; if a.relaxed then s.answer a.home a.req a.carry (.ack 0) else s) s
      if r.owners.isEmpty then
        let s := s.modDie dk fun d => { d with regions := tdelete (id % 1024) d.regions }
        if silent then s else s.sendRegion (unitEp dk) r.owner.ep r.owner r.carry (.deliver id cause r.target r.reg)
      else
        let s := modRegion s dk (id % 1024) fun r =>
          { r with state := .aborting, cause := cause, waiting := r.owners, preds := [], silent := silent }
        r.owners.foldl (fun s e => s.sendRegion (unitEp dk) e r.owner r.carry (.discard id)) s
    else s

/-- The regions of a die that depend on one of a list (R193). -/
def successors (s : State) (dk : Nat) (ids : List Nat) : List Nat :=
  (s.die dk).regions.filterMap fun (k, r) =>
    if (r.state == .opened || r.state == .sealing) && r.preds.any (ids.contains ·) then some (dk % 8 * 1024 + k) else none

/-- The cascade of an abort (R193): successors abort with cause 2, level by level. -/
def cascade (s : State) (dk : Nat) (ids : List Nat) : Nat → State
  | 0 => s
  | n + 1 =>
    let next := successors s dk ids
    if next.isEmpty then s else cascade (next.foldl (fun s i => abortOne s dk i 2 false) s) dk next n

/-- A region aborts with a cause and its successors cascade, in one step of the unit (R192, R193). -/
def abortRegion (s : State) (dk id cause : Nat) (silent : Bool) : State :=
  cascade (abortOne s dk id cause silent) dk [id] 1024

/-- The region of a thread that ends aborts with a cause and nothing is delivered, where the record is still the thread's (R191, R192). -/
def State.endRegion (s : State) (pkg : Nat) (t : Thread) (cause : Nat) : State := match t.region with
  | some r =>
    let dk := regionDie pkg r.id
    if (regionAt s dk r.id).any fun x => x.owner.uid == t.regionUid then abortRegion s dk r.id cause true else s
  | none => s

/-- The thread asks its region's unit for an abort with a cause (R182, R180, R440, R486), where the record is still its own: the thread parks until
the abort is delivered, with the kind of a region access where its access left its reach, else with kind 7 (R429). Within a trap handler the instruction is not executed either; the handler
goes on behind it once the abort has come, which its RTT then delivers (R284). Both are the model's reading (log 80): R182 says neither
that the thread waits nor how a handler goes on. -/
def State.abortOwn (s : State) (u : Turn) (t : Thread) (cause : Nat) : State :=
  match t.region with
  | none => s.retire u id
  | some r =>
    if r.abort.isSome then s.retire u id
    else
      let dk := regionDie (epPkg u.ep) r.id
      let s := if (regionAt s dk r.id).any fun x => x.owner.uid == t.regionUid then s.askAbort u.ep dk r.id cause else s
      s.parkAt u .answer (if cause == 8 then 9 else 7) 0 false none 0 0

/-- A translated operand, with its rights checked; a miss parks the thread until the walk ends (R40). -/
def withXlate (s : State) (u : Turn) (t : Thread) (a : Word) (va : Nat) (rd wr : Bool)
    (body : State → TlbEntry → State) : State :=
  match coreXlate s u.ep t va with
  | (.hit x, s) => match rightsTrap x a rd wr with
    | some tr => s.raise u tr.cause tr.addr tr.info
    | none => body s x
  | (.absent, s) => s.raise u 0x10 a 0
  | (.miss, s) => s.waitEver u (.tlb va)

/-- A check that raises its trap, or goes on. -/
def State.checked {α : Type} (s : State) (u : Turn) (c : Checked α) (body : α → State) : State :=
  match c with
  | .error t => s.raise u t.cause t.addr t.info
  | .ok x => body x

/-- What the issue of an instruction looks at besides its operands. -/
structure Meta where
  /-- opcode (R322) -/
  op : Nat
  /-- the tail bits that R88 and R324 look at: FCVT's source type, PUSH's engine -/
  tail : Nat := 0
  /-- the paths of its access (R138) -/
  path : BitVec 8 := 0
  /-- illegal inside a region (R182) -/
  illegal : Bool := false
  /-- it reads or sets p7, or parks under R259, or is named by R485: it waits for a pending XFENCE -/
  holds : Bool := false
  /-- its result depends on more than the thread's registers, or it has an outward effect (R294) -/
  ext : Bool := false
  /-- an outward effect: its kind of R295 -/
  out : Option Nat := none
  /-- the registers the store comparator compares (R294) -/
  cmp : List Reg := []
  /-- what else it compares: the data of a vector store -/
  more : Thread → List Nat := fun _ => []
  /-- its destination registers: vector register n as 32 + n (R294) -/
  dst : List Nat := []

/-- The numbers of n registers from one on (R321). -/
def regRun (d : Reg) (n : Nat) : List Nat := (List.range n).map fun i => (d + BitVec.ofNat 5 i).toNat

/-- The instructions that a slot lacks (R324 and the tables it names): check 1 of R281. -/
def lacks (kind : CoreKind) (visitor pair : Bool) (op tail : Nat) : Bool :=
  let tiles := 0x180 ≤ op && op ≤ 0x188
  let vectors := 0x140 ≤ op && op ≤ 0x160
  let swaps := op == 0x1C4 || op == 0x1C5
  let fromLg := op == 0x10A && fld tail 24 4 == 14
  (match kind with
    | .compute => op == 0x160
    | .gateway => (0x0C8 ≤ op && op ≤ 0x0CA) || op == 0x046 || op == 0x049 || fromLg || (op == 0x15A && fld tail 27 4 == 14) || tiles
        || swaps
    | .memory => (0x0C8 ≤ op && op ≤ 0x0CA) || op == 0x046 || op == 0x049 || fromLg || vectors || tiles || swaps)
  || (op == 0x0C1 && !visitor)
  || (op == 0x0C0 && ((kind == .memory && !visitor) || pair))
  || (visitor && (op == 0x04B || op == 0x0E8 || op == 0x061 || op == 0x045
      || (op == 0x1A0 && (fld tail 20 4 == 0 || fld tail 20 4 == 2 || fld tail 20 4 == 3))))

/-- The guard passes (R318). -/
def passes (t : Thread) (gd : Guard) : Bool := pr t gd.pg != gd.pn

/-- An effect that gives its thread no result: the leading thread may leave it to the comparator and go on (R294). -/
def Meta.deferred (m : Meta) : Bool := m.out.isSome && m.dst.isEmpty && !m.holds

/-- The kind of R295 of what failed to agree: where the first of two kinds is that of the first operand, which agrees, the second. -/
def Offer.failed (w mine : Offer) : Nat :=
  if 16 ≤ w.kind && w.pc == mine.pc && w.kind == mine.kind && w.words.head? == mine.words.head? then w.kind / 16 else w.kind % 16

/-- The digest of what a thread presents: values of the compared registers. -/
def offerOf (t : Thread) (m : Meta) : Offer :=
  ⟨t.pc, m.out.getD 10, (m.cmp.map fun r => (gr t r).toNat) ++ m.more t, none⟩

/-- A thread's part in its pair changed. -/
def Thread.modPair (t : Thread) (f : PairRef → PairRef) : Thread := { t with pair := t.pair.map f }

/-- The thread of a turn has completed its instruction in it: it goes on at the next head and is not parked. -/
def wentOn (s : State) (u : Turn) : Bool := match s.thr? u.ep u.slot with
  | some t => t.park.isNone && t.pc == u.next && t.forfeits == 0 && t.passes == 0
  | none => false

/-- The leader's part of a rendezvous, its earlier result standing in the queue (R294). A value it performs alone; of an outward effect it
performs its own where the trailer has presented the same, leaves one that would complete without a result to the comparator, and waits with
every other, whose result it needs; before whatever may depend on an effect left there it waits until that has been released (R140). The
checks of tile instructions depend on those before: of theirs one alone stands there. -/
def pairLead (m : Meta) (s : State) (u : Turn) (q : PairRef) (body : Turn → Thread → State → State) : State :=
  match s.thr? u.ep u.slot, (s.thr? u.ep q.other).bind (·.pair) with
  | some t, some oq =>
    let mine := offerOf t m
    let start := fun (s : State) =>
      let s := s.modThr u.ep u.slot (·.modPair fun q => { q with before := some (t.pc, t.regs, m.dst), offered := none })
      match s.thr? u.ep u.slot with | some t => body u t s | none => s.noTurn
    let wait := fun (s : State) => (s.modThr u.ep u.slot (·.modPair fun q => { q with offered := some mine })).waitEver u .partner
    match m.out with
    | none => if q.cmp.isEmpty then start s else s.waitEver u .released
    | some _ =>
      match oq.offered with
      | some w =>
        if w == mine then start (s.modThr u.ep q.other (·.modPair fun oq => { oq with offered := none }))
        else pairMismatch s u.ep u.slot (if w.trap.isSome then 10 else w.failed mine) 0
      | none =>
        if m.deferred && (m.out != some 8 || q.cmp.isEmpty) && wentOn (body u t s) u then
          (if 16 ≤ q.cmp.length then s.waitEver u .partner
           else s.retire u (·.modPair fun q => { q with cmp := q.cmp ++ [mine] }))
        else if q.cmp.isEmpty then wait s
        else s.waitEver u .released
  | _, _ => s.noTurn

/-- An effect that the leader has left in the comparator is released (R294): it acts once, as the leader's own, whose counters and entries it takes,
with the operands that both have presented, and the trailer goes on. Where it must wait the trailer waits for it; where it would trap now, the
trailer alone traps (R295). -/
def forLeader (s : State) (u : Turn) (t o : Thread) (q : PairRef) (body : Turn → Thread → State → State) : State :=
  let then_ := { u with slot := q.other }
  let old := { o with pc := t.pc, regs := t.regs, park := t.park, forfeits := t.forfeits, passes := t.passes, xf := none }
  let s' := body then_ old (s.modThr u.ep q.other fun _ => old)
  match s'.thr? u.ep q.other with
  | none => s.noTurn
  | some x =>
    let back := s'.modThr u.ep q.other fun _ => { o with cnt := x.cnt, sb := x.sb.setIfInBounds 16 (o.sbAt 16), outbox := x.outbox }
    if wentOn s' then_ then
      (back.modThr u.ep q.other (·.modPair fun oq => { oq with cmp := oq.cmp.drop 1 })).retire u id
    else if x.park.isSome || x.pc == t.pc then
      (back.modThr u.ep u.slot fun y => { y with park := x.park, forfeits := x.forfeits, passes := x.passes }).noTurn
    else pairMismatch s u.ep u.slot 10 0

/-- The trailer's part (R294): it takes the leader's result; an effect that the leader has left in the comparator it releases; else it presents its own and waits, and a trap that the leader raised at the same instruction it raises too. -/
def pairTrail (m : Meta) (s : State) (u : Turn) (t o : Thread) (q oq : PairRef) (body : Turn → Thread → State → State) : State :=
  let wait := (s.modThr u.ep u.slot (·.modPair fun q => { q with offered := m.out.map fun _ => offerOf t m })).waitEver u .partner
  match oq.lvq, oq.cmp with
  | x :: rest, _ =>
    if x.pc == t.pc then
      ((s.modThr u.ep q.other (·.modPair fun oq => { oq with lvq := rest })).modThr u.ep u.slot
        fun t => (t.takeLv x).modPair fun q => { q with offered := none }).noTurn
    else pairMismatch s u.ep u.slot (m.out.getD 10 % 16) 0
  | [], w :: _ =>
    if m.out.isSome && w == offerOf t m then forLeader s u t o q body
    else pairMismatch s u.ep u.slot (w.failed (offerOf t m)) 0
  | [], [] =>
    match (if o.pc == t.pc then o.park.map (fun (p : Park) => p.why) else none) with
    | some (Wait.trap c a i) => (s.trapNow u.ep u.slot c a i t.pc).trapNow u.ep q.other c a i o.pc
    | _ =>
      match oq.offered with
      | some w => match w.trap with
        | some c =>
          if w.pc == t.pc then s.raise u c (word (w.words.headD 0)) (w.words.getD 1 0)
          else pairMismatch s u.ep u.slot 10 (word (w.words.headD 0))
        | none => if m.out.isSome && w != offerOf t m then pairMismatch s u.ep u.slot (w.failed (offerOf t m)) 0 else wait
      | none => wait

/-- The rendezvous of a redundant pair at an instruction that is not computed from registers alone (R294): the load-value queue holds 32
entries, the comparator 16. -/
def pairIssue (m : Meta) (s : State) (u : Turn) (t : Thread) (q : PairRef) (body : Turn → Thread → State → State) : State :=
  match (s.thr? u.ep q.other) with
  | none => body u t s
  | some o =>
    match o.pair with
    | none => body u t s
    | some oq =>
      if !q.lead then pairTrail m s u t o q oq body
      else match q.before with
        | some (pc, _) =>
          if pc == t.pc && (t.park.isSome || t.forfeits != 0 || t.passes != 0) then body u t s
          else if 31 ≤ q.lvq.length then s.waitEver u .partner
          else pairLead m (flushDone s u t) u q body
        | none => if 32 ≤ q.lvq.length then s.waitEver u .partner else pairLead m s u q body
where
  /-- The result of the instruction before, which may be the same one, enters the queue. -/
  flushDone (s : State) (u : Turn) (t : Thread) : State := match q.before with
    | some (pc, b, dst) => s.modThr u.ep u.slot fun t => t.modPair fun q =>
        { q with lvq := q.lvq ++ [lvEntry pc b dst q.late t], before := none, late := [] }
    | none => flushLead s u.ep u.slot t

/-- The issue of an instruction of the Larbel set (R281): it needs a turn and a thread; then check 1, the guard, a pending XFENCE
(R485), region legality (R182), the pair (R294), and its own effect. -/
def issue (m : Meta) (gd : Guard) (s : State) (body : Turn → Thread → State → State) : Host.Outcome State Fault Refusal :=
  match s.turn with
  | none => .fault .noTurn
  | some u =>
    match s.thr? u.ep u.slot with
    | none => .fault .noThread
    | some t => .next (
      if lacks (kindOf u.ep) (isVisitor u.ep u.slot) t.pair.isSome m.op m.tail then s.raise u 0x01 0 m.op
      else if !gd.wf then s.raise u 0x02 0 u.head.toNat
      else if t.xf.isSome && gd.pg == 7 then s.waitEver u .xfence
      else if !passes t gd then s.retire u id
      else if t.xf.isSome && (m.holds || (((t.xf.map (·.tgt)).getD 0) &&& m.path) != 0) then s.waitEver u .xfence
      else
        let bad := m.illegal && t.region.any fun r => r.abort.isNone || m.op == 0x0E8
        let body := if bad then fun u t s => s.abortOwn u t 9 else body
        match t.pair with
        | none => body u t s
        | some q =>
          if m.ext || bad then pairIssue (if bad then { m with out := none, dst := [] } else m) s u t q body
          else body u t (if q.lead then flushLead s u.ep u.slot t else s))

/-- An instruction that changes only the thread's registers: it completes in its turn. -/
def pure_ (m : Meta) (gd : Guard) (s : State) (f : Thread → Thread) : Host.Outcome State Fault Refusal :=
  issue m gd s fun u _ s => s.retire u f

end Sys2Proof.Machine
end

