-- ==== Sys2Proof/Machine/Image.lean ====
section
/-! DEFINITION. Saved images (R287 to R289): the 1 KiB layout, the thread-context cache, save areas, and where a thread is that an
answer looks for (R292). -/

namespace Sys2Proof.Machine

/-- The SHADOW layout of R274. -/
def shadowWord (r : Specials) : Nat := r.sfa.toNat + r.sfb.toNat * 2 ^ 8 + r.ssa.toNat * 2 ^ 16 + r.ssb.toNat * 2 ^ 37

/-- The shadows set from a word of that layout. -/
def Thread.setShadow (t : Thread) (w : Nat) : Thread :=
  { t with sr := { t.sr with sfa := BitVec.ofNat 5 w, sfb := BitVec.ofNat 5 (w / 2 ^ 8), ssa := BitVec.ofNat 21 (w / 2 ^ 16),
                             ssb := BitVec.ofNat 21 (w / 2 ^ 37) } }

/-- HANDLE as a word (R325): instant in 63:16, handle in 15:0. -/
def handleWord (inst : Instant) (h : Handle) : Word := BitVec.ofNat 64 (inst.toNat * 2 ^ 16 + h.toNat)

/-- HANDLE set from a word. -/
def Thread.setHandle (t : Thread) (w : Word) : Thread :=
  { t with sr := { t.sr with inst := BitVec.ofNat 48 (w.toNat / 2 ^ 16), hnd := BitVec.ofNat 16 w.toNat } }

/-- CNT (R116). -/
def cntWord (c : Counters) : Nat := c.ldc % 16 + c.stc % 16 * 2 ^ 4 + c.cpc % 16 * 2 ^ 8 + c.tlc % 16 * 2 ^ 12

/-- STATE of a scoreboard entry as a code (R286). -/
def SbState.code : SbState → Nat
  | .empty => 0 | .reissue => 1 | .sent => 2 | .done => 3

/-- A scoreboard entry as a word (R286). -/
def SbEntry.word (e : SbEntry) : Nat :=
  e.pc.toNat + e.reg.toNat * 2 ^ 50 + e.path % 8 * 2 ^ 55 + e.kind % 16 * 2 ^ 58 + e.state.code * 2 ^ 62

/-- A scoreboard entry read from a word of an image; what the word leaves out is kept. -/
def SbEntry.ofWord (old : SbEntry) (w : Nat) : SbEntry :=
  { state := match w / 2 ^ 62 % 4 with | 0 => .empty | 1 => .reissue | 2 => .sent | _ => .done,
    kind := bitsAt w 61 58, path := bitsAt w 57 55, reg := BitVec.ofNat 5 (w / 2 ^ 50), pc := BitVec.ofNat 32 w, inReg := old.inReg }

/-- The region word of STAT: id and open (R288). -/
def regionWord (t : Thread) : Nat := match t.region with
  | some r => r.id % 2 ^ 13 * 2 ^ 32 + 2 ^ 45
  | none => 0

/-- CTL of an image (R288). The PC of a parked thread whose answer is awaited is where it continues. -/
def ctlWord (t : Thread) (dead : Bool) : Nat :=
  let pc := match t.park with
    | some p => if (t.sbAt 16).state == SbState.reissue then t.pc else p.next
    | none => t.pc
  pc.toNat + t.regs.p.toNat / 2 * 2 ^ 32 + b2n t.sup * 2 ^ 39 + b2n t.handler * 2 ^ 40 + b2n dead * 2 ^ 41 + b2n t.stopped * 2 ^ 42
    + b2n t.pair.isSome * 2 ^ 43

/-- The 64-bit words of a vector register, lowest first. -/
def lineWords (x : BitVec 512) : List Nat := (List.range 8).map fun i => x.toNat / 2 ^ (64 * i) % 2 ^ 64

/-- The image of a thread as 128 words (R288). -/
def imageWords (ep : EP) (t : Thread) (dead : Bool) : List Nat :=
  (t.regs.g.toList.drop 1).map (·.toNat) ++ [ctlWord t dead] ++ t.regs.v.toList.flatMap lineWords ++ t.regs.vm.toList.map (·.toNat)
  ++ [t.sr.wid.toNat, (handleWord t.sr.inst t.sr.hnd).toNat, shadowWord t.sr,
      t.sr.fflags.toNat + t.sr.rcause.toNat * 2 ^ 8 + cntWord t.cnt * 2 ^ 16 + regionWord t, t.sr.sticky.toNat,
      t.sr.trappc.toNat, t.sr.tcause.toNat, t.sr.taddr.toNat, t.sr.tstat.toNat,
      ep + t.vcore * 2 ^ 24 + t.vthr * 2 ^ 40 + t.ctx.toNat * 2 ^ 44, 0]
  ++ t.sb.toList.map SbEntry.word

/-- A thread with what the words of an image say (R288). -/
def Thread.ofImage (t : Thread) (w : Nat → Nat) : Thread :=
  let ctl := w 31
  let t := { t with
    regs := { g := Vector.ofFn fun i => if i.val == 0 then 0 else word (w (i.val - 1)),
              p := BitVec.ofNat 8 (1 + ctl / 2 ^ 32 % 2 ^ 7 * 2),
              v := Vector.ofFn fun i => BitVec.ofNat 512 (((List.range 8).map fun k => w (32 + 8 * i.val + k) * 2 ^ (64 * k)).sum),
              vm := Vector.ofFn fun i => word (w (96 + i.val)) },
    sup := bitAt ctl 39, handler := bitAt ctl 40, stopped := bitAt ctl 42,
    cnt := { t.cnt with ldc := bitsAt (w 103) 19 16, stc := bitsAt (w 103) 23 20, cpc := bitsAt (w 103) 27 24, tlc := bitsAt (w 103) 31 28 },
    sb := Vector.ofFn fun i => (t.sbAt i.val).ofWord (w (111 + i.val)) }
  let t := (t.setHandle (word (w 101))).setShadow (w 102)
  let t := { t with sr := { t.sr with
    wid := word (w 100), fflags := BitVec.ofNat 5 (w 103), rcause := BitVec.ofNat 4 (w 103 / 2 ^ 8), sticky := word (w 104),
    trappc := BitVec.ofNat 32 (w 105), tcause := BitVec.ofNat 8 (w 106), taddr := word (w 107), tstat := word (w 108) } }
  match t.park with
  | some p => if (t.sbAt 16).state == SbState.reissue then { t with pc := BitVec.ofNat 32 ctl }
              else { t with park := some { p with next := BitVec.ofNat 32 ctl } }
  | none => { t with pc := BitVec.ofNat 32 ctl }

/-- Where a spilled image stands (R289). -/
def spillAddr (s : State) (pkg : Nat) (t : Thread) : Nat := ctxSave s pkg t.ctx + 1024 * (16 * t.vcore + t.vthr)

/-- The bytes of words. -/
def wordBytes (l : List Nat) : List (BitVec 8) := l.flatMap (leBytes 8)

/-- A spilled image read back (R289). -/
def spillRead (s : State) (pkg : Nat) (r : SpillRef) : Thread :=
  let a := spillAddr s pkg r.thr
  r.thr.ofImage fun i => unitWord s (a + 8 * i)

/-- An image written to its save area. -/
def spillWrite (s : State) (pkg : Nat) (r : SpillRef) : State :=
  physWrite s (spillAddr s pkg r.thr) (wordBytes (imageWords r.ep r.thr r.dead))

/-- Where a thread is (R292): in a slot, in a cache entry, in a save area, or no more. -/
inductive Whereabouts where
  | slot (n : Nat)
  | tcc (n : Nat)
  | spilled (k : Nat)
  | gone
  deriving DecidableEq, Repr

/-- The thread that an answer at a core looks for: by its identity, in a slot there, else in the cluster's cache or a save area. -/
def locate (s : State) (e : EP) (uid : Nat) : Whereabouts :=
  match (s.core e).slots.find? fun (_, t) => t.uid == uid with
  | some (n, _) => .slot n
  | none =>
    match (s.cluster (clusterKey e)).tcc.find? fun (_, i) => i.thr.uid == uid && !i.dead with
    | some (n, _) => .tcc n
    | none =>
      match findPos (fun r : SpillRef => r.thr.uid == uid && !r.dead) (s.pkg (epPkg e)).spilled with
      | some k => .spilled k
      | none => .gone

/-- A thread changed where it is: in its slot or in its image (R292). -/
def State.modWhere (s : State) (e : EP) (w : Whereabouts) (f : Thread → Thread) : State :=
  match w with
  | .slot n => s.modThr e n f
  | .tcc n => s.modCluster (clusterKey e) fun c =>
      { c with tcc := tmod n (fun i => { i with thr := f i.thr, used := (s.now e).toNat }) c.tcc }
  | .spilled k =>
    match (s.pkg (epPkg e)).spilled[k]? with
    | none => s
    | some r =>
      let r := { r with thr := f (spillRead s (epPkg e) r) }
      spillWrite (s.modPkg (epPkg e) fun p => { p with spilled := setAt k r p.spilled }) (epPkg e) r
  | .gone => s

/-- The thread where it is. -/
def State.thrWhere (s : State) (e : EP) (w : Whereabouts) : Option Thread :=
  match w with
  | .slot n => s.thr? e n
  | .tcc n => (tget (s.cluster (clusterKey e)).tcc n).map (·.thr)
  | .spilled k => ((s.pkg (epPkg e)).spilled[k]?).map (spillRead s (epPkg e))
  | .gone => none

end Sys2Proof.Machine
end

