-- ==== Sys2Proof/Machine/Groups.lean ====
section
/-! DEFINITION. Groups and the end of threads (R252 to R255, R217, R220, R348). -/

namespace Sys2Proof.Machine

/-- The group of a context and virtual core on a core. -/
def groupOf (s : State) (e : EP) (ctx : Ctx) (vcore : Nat) : Option Group :=
  (s.core e).groups.find? fun g => g.ctx == ctx && g.vcore == vcore

/-- A group changed. -/
def State.modGroup (s : State) (e : EP) (ctx : Ctx) (vcore : Nat) (f : Group → Group) : State :=
  s.modCore e fun c => { c with groups := c.groups.map fun g => if g.ctx == ctx && g.vcore == vcore then f g else g }

/-- A thread waits in WFW, a placed-waiting one included (R254, R255). -/
def Thread.waitsWork (t : Thread) : Bool := match t.park with
  | some p => match p.why with | .work .. => true | _ => false
  | none => false

/-- A thread belongs to a group of a context and virtual core; a migrant in a visitor slot belongs to none there. -/
def Thread.inGroup (t : Thread) (ctx : Ctx) (vcore : Nat) : Bool := t.ctx == ctx && t.vcore == vcore && t.origin.isNone

/-- The trailing thread of a redundant pair: it waits and ends with its leader (R294). -/
def Thread.trails (t : Thread) : Bool := match t.pair with
  | some q => !q.lead
  | none => false

/-- A thread's slot and its partner's, where it is of a pair. -/
def pairSlots (t : Thread) (slot : Nat) : List Nat := match t.pair with
  | some q => [slot, q.other]
  | none => [slot]

/-- The PRI last delivered to slots (R325). -/
def State.keepPri (s : State) (e : EP) (slots : List Nat) (p : BitVec 3) : State :=
  s.modCore e fun c => { c with pris := slots.foldl (fun l k => tput k p l) c.pris }

/-- Something of the group keeps it from ending (R254): a thread that has neither exited nor waits in WFW, an image that is not
DEAD (R289), a packet, a deque entry, a frame. -/
def groupBusy (s : State) (e : EP) (ctx : Ctx) (vcore : Nat) : Bool :=
  let pkg := epPkg e
  ((s.core e).slots.any fun (_, t) => t.inGroup ctx vcore && !t.waitsWork && !t.trails)
  || (s.clusters.any fun (k, c) => k / 256 == pkg &&
      ((c.tcc.any fun (_, i) => !i.dead && i.thr.ctx == ctx && i.thr.vcore == vcore)
        || (c.packets.any fun p => p.ctx == ctx && p.grp == vcore)
        || (c.frames.any fun f => f.ctx == ctx && f.vcore == vcore)))
  || ((s.pkg pkg).spilled.any fun r => !r.dead && r.thr.ctx == ctx && r.thr.vcore == vcore)
  || (s.cores.any fun (k, c) => epPkg k == pkg && c.deque.any fun a => a.ctx == ctx && a.vcore == vcore)

/-- The operand slots and tiles of a group are released (R254, R287). -/
def releaseClaims (s : State) (e : EP) (ctx : Ctx) (vcore : Nat) : State :=
  s.modCore e fun c => { c with
    opslots := c.opslots.filter fun (_, o) => !(o.owner == (ctx, vcore)),
    tiles := c.tiles.filter fun (_, o) => !(o.owner == (ctx, vcore)) }

/-- Tile operations of a thread that ends (R219) or is pre-empted (R287, R68): a running MMA stops at its next K step, one not started is
withdrawn, as is an ACLR not applied. -/
def stopJobs (s : State) (e : EP) (uid : Nat) (preempt : Bool) : State :=
  s.modCore e fun c => { c with jobs := c.jobs.filterMap fun j =>
    match j.op with
    | .mma .. => if j.req.uid == uid then (if j.run then some { j with stopReq := true, preempt := preempt } else none) else some j
    | .aclr .. => if j.req.uid == uid then none else some j
    | _ => some j }

/-- A thread on a core waits in step 3 of RESUME for an image of a group (R293). -/
def resumeWaits (s : State) (e : EP) (ctx : Ctx) (vcore : Nat) : Bool :=
  let imgs := (s.clusters.flatMap fun (key, c) => if key / 256 == epPkg e then c.tcc.map fun (_, i) => i.thr else [])
    ++ (s.pkg (epPkg e)).spilled.map (·.thr)
  (s.core e).slots.any fun (_, t) => match t.park with
    | some ⟨.again (.imageSettled uid), _, _, _, _, _, _⟩ => imgs.any fun x => x.uid == uid && x.ctx == ctx && x.vcore == vcore
    | _ => false

/-- What step 2 of a RESUME reserved for a group, of which no thread has come to the core and no RESUME waits, is released (R260, R293): the
group is out of its slots and tiles as before. -/
def State.unreserve (s : State) (e : EP) (ctx : Ctx) (vcore : Nat) : State :=
  match groupOf s e ctx vcore with
  | none => s
  | some g =>
    if g.slots.isEmpty || ((s.core e).slots.any fun (_, t) => t.inGroup ctx vcore) || resumeWaits s e ctx vcore then s
    else
      let s := releaseClaims s e ctx vcore
      let s := s.modGroup e ctx vcore fun g => { g with slots := [], tiles := [], ops := 0, acc := 0 }
      s.modPkg (epPkg e) fun p => { p with savedGroups := p.savedGroups ++ [(ctx, vcore, e)] }

/-- The reservation of a thread that waits in step 3 of RESUME no more. -/
def leaveResume (s : State) (e : EP) (p : Park) : State := match p.why with
  | .again (.imageSettled uid) =>
    let imgs := (s.clusters.flatMap fun (key, c) => if key / 256 == epPkg e then c.tcc.map fun (_, i) => i.thr else [])
      ++ (s.pkg (epPkg e)).spilled.map (·.thr)
    (match imgs.find? (·.uid == uid) with
    | some x => s.unreserve e x.ctx x.vcore
    | none => s)
  | _ => s

/-- The group ends (R254): its slots, scratchpad range, operand slots and tiles are released with what its threads left on the tile
path (log 17), and a map entry that the dispenser wrote is cleared; one that a supervisor has written since stays. -/
def endGroup (s : State) (e : EP) (g : Group) : State :=
  let mine := g.wroteMap && vcOf s (epPkg e) g.ctx g.vcore == some (e, g.base, g.spad)
  let s := if mine then physWrite s (vcAddr s (epPkg e) g.ctx g.vcore) (leBytes 8 0) else s
  let s := ((s.core e).slots.filter fun (_, t) => t.inGroup g.ctx g.vcore).foldl
    (fun s (k, t) => stopJobs (flushOutbox (returnRes s e k t) e k) e t.uid false) s
  let s := releaseClaims s e g.ctx g.vcore
  let s := s.modCore e fun c => { c with
    jobs := c.jobs.filter fun j => !(j.ctx == g.ctx && j.vcore == g.vcore),
    slots := c.slots.filter fun (_, t) => !t.inGroup g.ctx g.vcore,
    groups := c.groups.filter fun h => !(h.ctx == g.ctx && h.vcore == g.vcore) }
  s.modPkg (epPkg e) fun p => { p with savedGroups := p.savedGroups.filter fun (c, v, _) => !(c == g.ctx && v == g.vcore) }

/-- The end of a group where nothing of it is left. -/
def checkGroup (s : State) (e : EP) (ctx : Ctx) (vcore : Nat) : State :=
  match groupOf s e ctx vcore with
  | some g => if groupBusy s e ctx vcore then s else endGroup s e g
  | none => s

/-- A thread ends (R348, R217): its references end, its region aborts with cause 4 (R196), its reservation goes back, and its slot,
with a redundant pair both slots, becomes vacant. Answers that come later find nobody. -/
def endThread (s : State) (e : EP) (slot : Nat) : State :=
  match s.thr? e slot with
  | none => s
  | some t =>
    let s := s.endRegion (epPkg e) t 4
    let s := flushOutbox (returnRes s e slot t) e slot
    let s := match t.park with
      | some p => (match p.why with
        | .fork .. => s.modCore e fun c => { c with reserved := c.reserved - 1 }
        | _ => s)
      | none => s
    let s := stopJobs s e t.uid false
    let s := (s.vacate e slot)
    let s := match t.pair with
      | some q => s.vacate e q.other
      | none => s
    let s := match t.park with
      | some p => leaveResume s e p
      | none => s
    if t.origin.isSome then s
    else
      let s := refDec s (epPkg e) t.sr.hnd.toNat
      let s := match t.provisional with
        | some h => refDec s (epPkg e) h.toNat
        | none => s
      checkGroup s e t.ctx t.vcore

/-- A migrant in a visitor slot ends: the origin slot is told so (R89). -/
def endVisitor (s : State) (e : EP) (slot : Nat) : State :=
  match s.thr? e slot with
  | none => s
  | some t => match t.origin with
    | none => endThread s e slot
    | some o =>
      let s := s.endRegion (epPkg e) t 4
      (leaveVisitor s e slot t o).send e o.ep 0 (reqOf e slot t 17 0) (carryOf e t) (.comeBack ⟨t, o, carryOf e t, 0, t.pc⟩ none true)

/-- An entry of a write queue of the core covers some of the bytes (R137). -/
def queued (s : State) (e : EP) (a n : Nat) : Bool :=
  ((s.core e).destQ.any fun q => overlaps q.addr q.data.length a n) || ((s.core e).tileQ.any fun q => overlaps q.addr q.data.length a n)

/-- The running partial of a combined block cannot be read back yet: a sealed entry (R189) or a write-queue entry (R137) holds one of its words. -/
def redHeld (s : State) (e : EP) (b : RedBlock) : Bool := match b.taken with
  | some (_, place) => anySealed s e place b.data.length || queued s e place b.data.length
  | none => true

/-- The running partial of a block is read back, and the block counts as combined (R134, R427). -/
def redRead (s : State) (e : EP) (b : RedBlock) : State :=
  let data := mbytes (s.core e).spad ((b.taken.map (·.2)).getD 0) b.data.length
  let part := fun (x : Nat × Option (List (BitVec 8)) × Nat) => if x.1 == b.block then (x.1, some data, x.2.2 - 1) else x
  (s.modCore e fun c => { c with reds := c.reds.erase b }).modPkg (epPkg e) fun p =>
    { p with colls := p.colls.map fun c => if c.id == b.cmd then { c with parts := c.parts.map part } else c }

/-- The reduction block that an exiting thread has combined (R134, R427): it counts, at once or when its running partial can be read; until then it is
marked by the thread number 0, which no thread has. -/
def redCombined (s : State) (e : EP) (uid : Nat) : State :=
  match (s.core e).reds.find? fun b => (b.taken.map (·.1)) == some uid with
  | none => s
  | some b =>
    if redHeld s e b then s.modCore e fun c => { c with reds := c.reds.map fun x =>
      if x == b then { x with taken := x.taken.map fun y => (0, y.2) } else x }
    else redRead s e b

/-- A thread has issued EXIT (R348, R427). -/
def exitThread (s : State) (e : EP) (slot : Nat) : State :=
  match s.thr? e slot with
  | some t => endVisitor (redCombined s e t.uid) e slot
  | none => s

/-- A slot whose lapse test fails is freed (R217, R219): one task is counted, for a migrant at its origin. -/
def freeLapsed (s : State) (e : EP) (slot : Nat) : State :=
  match s.thr? e slot with
  | none => s
  | some t =>
    if t.origin.isSome then endVisitor (s.modThr e slot fun t => { t with lapsed := true }) e slot
    else endVisitor (s.report (epPkg e) t.sr.hnd.toNat 1 0 0) e slot

end Sys2Proof.Machine
end

