-- ==== Sys2Proof/Machine/Settle.lean ====
section
/-! DEFINITION. What an answer does at its requester (R117, R130, R142, R143, R286, R292, R365, R366): the entry it settles, the
register, flags and sticky bits it writes, the trap it raises, and where the thread goes on. -/

namespace Sys2Proof.Machine

/-- The sticky bits of a word are set (R130). -/
def Thread.stickAll (t : Thread) (w : Word) : Thread := { t with sr := { t.sr with sticky := t.sr.sticky ||| w } }

/-- A value that arrives for a pending register is also kept for the trailing thread of a pair (R294). -/
def Thread.lateVal (t : Thread) (r : Reg) (v : Word) : Thread :=
  { t with pair := t.pair.map fun q => if q.lead && r != 0 then { q with late := q.late ++ [(r.toNat, v)] } else q }

/-- The answer of a relaxed access (R117): its counter drops, its entry is emptied (in an image: done, R292), and a value goes to
its register unless that was written since. -/
def Thread.settleRelaxed (t : Thread) (i ebit : Nat) (resident : Bool) (a : Answer) (bits : Word) : Thread :=
  let en := t.sbAt i
  if en.state != .sent then t
  else
    let t := { t with cnt := if i < 8 then { t.cnt with ldc := t.cnt.ldc - 1 } else { t.cnt with stc := t.cnt.stc - 1 } }
    let t := t.setSb i (if resident then SbEntry.none else { en with state := .done })
    match a with
    | .value v f => ((t.setG en.reg (word v)).lateVal en.reg (word v)).orFlags f
    | .ack f => t.orFlags f
    | .mirrorLost v f _ _ => (((t.setG en.reg (word v)).lateVal en.reg (word v)).orFlags f).stickAll bits
    | .failed .. => t.stickAll bits
    | .refused | .timedOut => t.stick ebit
    | .ochre _ eb => t.stick eb
    | _ => t

/-- A sticky bit that an instruction of the slot itself sets (R119); that of a migrant is set at its origin (R377), and its MSG path is drained only
then (R143). -/
def State.stickSelf (s : State) (u : Turn) (t : Thread) (bit : Nat) : State := match t.origin with
  | none => s.modThr u.ep u.slot (·.stick bit)
  | some o =>
    let req := reqOf u.ep u.slot t 19 bit
    s.send u.ep o.ep 0 req (carryOf u.ep t) (.stickySet (1#64 <<< (bit % 64)) req (.ack 0))

/-- The wait of entry 16 ends and the thread goes on (in an image: where it will go on, R292). -/
def Thread.done16 (t : Thread) (resident : Bool) (p : Park) : Thread :=
  if resident then t.goTo p.next
  else { t with pc := p.next, park := none, sb := t.sb.setIfInBounds 16 { t.sbAt 16 with state := .done } }

/-- The value of a full/empty or plain load: a 16-byte one fills two registers (R360). -/
def Thread.putWide (t : Thread) (d : Reg) (size v : Nat) : Thread :=
  if size == 16 then (t.putG d (word v)).putG (d + 1) (word (v / 2 ^ 64)) else t.putG d (word v)

/-- The memory operand and the size that a park keeps. -/
def Park.operand (p : Park) : Word := word p.aux
/-- The size that a park keeps. -/
def Park.size (p : Park) : Nat := p.aux / 2 ^ 64

/-- A thread ends in its image: the image goes, with its references (R348). -/
def endImage (s : State) (e : EP) (w : Whereabouts) : State :=
  match s.thrWhere e w with
  | none => s
  | some t =>
    let s := match w with
      | .tcc n => s.modCluster (clusterKey e) fun c => { c with tcc := tdelete n c.tcc }
      | .spilled k => s.modPkg (epPkg e) fun p => { p with spilled := dropAt k p.spilled }
      | _ => s
    let s := refDec s (epPkg e) t.sr.hnd.toNat
    let s := match t.provisional with
      | some h => refDec s (epPkg e) h.toNat
      | none => s
    checkGroup s e t.ctx t.vcore

/-- A trap that an answer raises (R281, R365): in the slot, once a pending XFENCE has set p7 and a redundant partner has met it, or
in the image. -/
def trapAt (s : State) (e : EP) (w : Whereabouts) (t : Thread) (p : Park) (cause info : Nat) : State :=
  let s := match p.why with
    | .fork .. => s.modCore e fun c => { c with reserved := c.reserved - 1 }
    | _ => s
  match w with
  | .slot n =>
    if t.xf.isSome || t.pair.isSome then s.modThr e n fun t => { t with park := some { p with why := .trap cause p.operand info } }
    else { s.trapNow e n cause p.operand info t.pc with turn := s.turn }
  | _ =>
    if t.handler then
      (s.modWhere e w fun t => { t with stopped := true, park := none, sb := t.sb.setIfInBounds 16 { t.sbAt 16 with state := .done } }).event (epPkg e) 0x0030
        (t.sr.tcause.toNat + cause % 256 * 256) e 0 (t.sr.trappc.setWidth 64)
    else s.modWhere e w fun t => t.trapTo cause p.operand info t.pc

/-- The deque entry of a FORK (R271). -/
def armOf (t : Thread) (arg join : Word) (target : CodeAddr) : Arm :=
  let fmt := t.sr.sfa.toNat + t.sr.sfb.toNat * 2 ^ 8
  { ctx := t.ctx, vcore := t.vcore,
    pkt := [word (target.toNat + t.sr.pri.toNat * 2 ^ 32 + 2 ^ 36 + 2 * 2 ^ 37), t.sr.wid, handleWord t.sr.inst t.sr.hnd, 0,
            word (fmt + b2n (join != 0) * 2 ^ 16 + join.toNat % 2 ^ 40 * 2 ^ 24),
            word (t.sr.ssa.toNat + t.sr.ssb.toNat * 2 ^ 32), arg, 0] }

/-- FORK's push (R346): the reserved entry is filled, with a reference on its handle (R207). -/
def pushArm (s : State) (e : EP) (t : Thread) (arg join : Word) (target : CodeAddr) : State :=
  refInc (s.modCore e fun c => { c with reserved := c.reserved - 1, deque := c.deque ++ [armOf t arg join target] }) (epPkg e)
    t.sr.hnd.toNat

/-- The answer of the instruction a thread is parked on (R286 entry 16). -/
def settlePlain (s : State) (e : EP) (w : Whereabouts) (t : Thread) (p : Park) (a : Answer) (bits : Word) : State :=
  let resident := match w with | .slot _ => true | _ => false
  let finish := fun (s : State) (f : Thread → Thread) => s.modWhere e w fun t => (f t).done16 resident p
  match a with
  | .refused => trapAt s e w t p 0x13 (peerIndex p.operand)
  | .ochre info _ => trapAt s e w t p 0x14 info
  | .timedOut => finish s (·.p7 false)
  | .joined => finish s (·.p7 true)
  | .placed => finish s (·.p7 true)
  | .notPlaced => finish s fun t => (t.stickAll bits).p7 false
  | .busy =>
    if resident then s.modWhere e w fun t => { t with park := some { p with why := .joinBusy ((s.core e).cycle + 256) } } else s
  | .failed .. => finish s (·.stickAll bits)
  | .mirrorLost v f _ _ => finish s fun t => ((t.putWide p.dst p.size v).orFlags f).stickAll bits
  | .value v f =>
    (match p.why with
      | .joinWatch => finish s (·.p7 (v == 0))
      | .fork arg join target => finish (pushArm s e t arg join target) (·.p7 true)
      | .exit => (match w with
        | .slot n => { exitThread s e n with turn := s.turn }
        | _ => endImage s e w)
      | .fullEmpty => finish s fun t => (t.putWide p.dst p.size v).p7 true
      | _ => finish s fun t => (t.putWide p.dst p.size v).orFlags f)
  | .ack f =>
    (match p.why with
      | .fullEmpty => finish s (·.p7 true)
      | _ => finish s (·.orFlags f))

/-- The sticky bit of a lost home, or where no valid entry names it that of the other home (R99). -/
def lostBit (s : State) (own : Nat) (peermap : BitVec 44) (lost other : Nat) : Word :=
  match (ebitOf s own peermap lost).or (ebitOf s own peermap other) with
  | some b => 1#64 <<< (b % 64)
  | none => 0

/-- The sticky bits that an answer of a mirrored access sets (R99). -/
def answerBits (s : State) (own : Nat) (t : Thread) : Answer → Word
  | .mirrorLost _ _ lost other => lostBit s own t.sr.peermap lost other
  | .failed lost other => lostBit s own t.sr.peermap lost other ||| lostBit s own t.sr.peermap other lost
  | _ => 0

/-- An answer to something that the requester does not wait for (R127, R130): only what failed leaves a mark. -/
def Thread.settleLoose (t : Thread) (ebit : Nat) (bits : Word) : Answer → Thread
  | .ack _ | .value .. | .placed => t
  | .mirrorLost .. | .failed .. => t.stickAll bits
  | _ => t.stick ebit

/-- The sticky bits that an answer sets at its requester. -/
def stickyOf (s : State) (own : Nat) (t : Thread) (req : Req) (a : Answer) : Word :=
  if 19 < req.entry then (if a == .notPlaced then 1#64 <<< (req.ebit % 64) else answerBits s own t a)
  else match a with
    | .value .. | .ack _ => 0
    | .placed => 0
    | .mirrorLost .. | .failed .. => answerBits s own t a
    | .ochre _ eb => 1#64 <<< (eb % 64)
    | _ => 1#64 <<< (req.ebit % 64)

/-- What an answer says besides its sticky bits. -/
def Answer.clean : Answer → Answer
  | .mirrorLost v f _ _ => .value v f
  | .value v f => .value v f
  | .ack f => .ack f
  | .notPlaced => .timedOut
  | _ => .ack 0

/-- An answer reaches its requester (R117, R292); an error report of a migrant goes to its origin first (R377). Entries 0 to 15 are those of relaxed accesses; 16 with the request's number is the
instruction the thread is parked on; 17, or of a message or item 19, is a report that concerns its sticky bits alone; 18 is that of an engine-4 command, whose
CPC drops (R420). One for a thread that is no more, or for a wait that has ended since, is discarded. -/
def State.settle (s : State) (req : Req) (a : Answer) : State :=
  let w := locate s req.ep req.uid
  match s.thrWhere req.ep w with
  | none => s
  | some t =>
    let bits := if a == .notPlaced then 1#64 <<< (req.ebit % 64) else answerBits s (epPkg req.ep) t a
    let stick := stickyOf s (epPkg req.ep) t req a
    match t.origin.filter fun _ => stick != 0 with
    | some o => s.send req.ep o.ep 0 req (carryOf req.ep t) (.stickySet stick req a.clean)
    | none =>
    if req.entry < 16 then
      let resident := match w with | .slot _ => true | _ => false
      s.modWhere req.ep w (·.settleRelaxed req.entry req.ebit resident a bits)
    else if req.entry == 17 || req.entry == 19 then s.modWhere req.ep w (·.settleLoose req.ebit bits a)
    else if req.entry == 18 then
      s.modWhere req.ep w fun t => { t with cnt := { t.cnt with cpc := t.cnt.cpc - 1 } }.settleLoose req.ebit bits a
    else match t.park with
      | some p =>
        if req.entry == 16 + 32 * p.ser then settlePlain s req.ep w t p a bits
        else if a == .notPlaced then s.modWhere req.ep w (·.stickAll bits) else s
      | none => if a == .notPlaced then s.modWhere req.ep w (·.stickAll bits) else s

/-- An answer given by a unit of the requester's own core takes effect at once; another travels (R110). -/
def State.respond (s : State) (src : EP) (req : Req) (carry : Carry) (here : Bool) (a : Answer) : State :=
  if here then s.settle req a else s.answer src req carry a

/-- A plain access leaves and its thread parks (R286, R363); while an XFENCE is pending it waits for it (R485). -/
def State.ask (s : State) (u : Turn) (t : Thread) (dst vc ebit : Nat) (why : Wait) (kind path : Nat) (d : Reg) (operand : Word)
    (size : Nat) (body : Body) : State :=
  if t.xf.isSome then s.waitEver u .xfence
  else
  let ser := s.nextUid
  let s := { s with nextUid := ser + 1 }
  let s := s.send u.ep dst vc (reqOf u.ep u.slot t (16 + 32 * ser) ebit) (carryOf u.ep t) body
  s.parkAt u why kind path (kind ≤ 6) none d (operand.toNat + size * 2 ^ 64) ser

/-- The wait that the thread has just begun ends by its timeout (R260); a timeout of 0 waits for the one answer. -/
def State.limitPark (s : State) (u : Turn) (w : Word) : State :=
  let l := if w == 0 then none else deadline s u.ep w
  s.modThr u.ep u.slot fun t => { t with park := t.park.map fun p => { p with limit := l } }

/-- A relaxed access leaves with a scoreboard entry and its counter raised (R115, R286); its destination register becomes pending
(R117). The caller has seen that the counter is below its limit. -/
def State.askRelaxed (s : State) (u : Turn) (t : Thread) (dst vc ebit : Nat) (isLoad : Bool) (kind path : Nat) (d : Reg) (body : Body) :
    State :=
  let i := (t.freeSb (if isLoad then 0 else 8) 8).getD (if isLoad then 7 else 15)
  let s := s.send u.ep dst vc (reqOf u.ep u.slot t i ebit) (carryOf u.ep t) body
  s.retire u fun t =>
    let t := if isLoad then { t.unpend d with cnt := { t.cnt with ldc := t.cnt.ldc + 1 } }
             else { t with cnt := { t.cnt with stc := t.cnt.stc + 1 } }
    t.setSb i ⟨.sent, kind, path, d, t.pc, t.region.isSome && !t.handler⟩

end Sys2Proof.Machine
end

