-- ==== Sys2Proof/Machine/Owner.lean ====
section
/-! DEFINITION. A scratchpad and its owner (02, 06): granule states, atomics, the treatment of version-buffer entries by plain
accesses, the deferred-take list, join watches, and admission of fabric accesses. -/

namespace Sys2Proof.Machine

/-- The state of the granule that holds a byte (R50). -/
def granAt (s : State) (e : EP) (a : Nat) : GState := (tget (s.core e).gran (a / 16)).getD .empty

/-- The physical address of a frame's condition granule at its core now (R275). -/
def condAt (s : State) (f : Frame) : Option Nat := match f.cond, groupOf s f.ep f.ctx f.vcore with
  | some c, some g => some (g.base * 1024 + c)
  | _, _ => none

/-- Frames whose condition granule has become full are ready (R275). -/
def markFrames (s : State) (e : EP) (a : Nat) : State :=
  if (s.cluster (clusterKey e)).frames.isEmpty then s
  else
    let mark := fun (f : Frame) => if f.ep == e && (condAt s f).map (· / 16) == some (a / 16) then { f with ready := true } else f
    s.modCluster (clusterKey e) fun c => { c with frames := c.frames.map mark }

/-- A granule's state set; an empty one is not listed. -/
def State.setGran (s : State) (e : EP) (a : Nat) (st : GState) : State :=
  let s := s.modCore e fun c => { c with gran := if st == .empty then tdelete (a / 16) c.gran else tput (a / 16) st c.gran }
  if st == .full then markFrames s e a else s

/-- A granule of the range is ochre. -/
def anyOchre (s : State) (e : EP) (a n : Nat) : Bool := (blocks a n 16).any fun g => granAt s e (16 * g) == .ochre

/-- A read meets the SECDED errors of its words (R48): a single bit is corrected and counted; two make the granule ochre, with an
event. -/
def meetErrors (s : State) (e : EP) (a n : Nat) : State :=
  if (s.core e).upsets.isEmpty then s
  else (blocks a n 8).foldl (fun s w => match tget (s.core e).upsets w with
    | none => s
    | some k =>
      let s := s.modCore e fun c => { c with upsets := tdelete w c.upsets, mgmt :=
        if k == 1 then { c.mgmt with secnt := satAdd64 c.mgmt.secnt 1 } else { c.mgmt with decnt := satAdd64 c.mgmt.decnt 1 } }
      if k == 1 then s else (s.setGran e (8 * w) .ochre).event (epPkg e) 0x0010 0 e 255 (word (8 * w))) s

/-- Words written whole hold no error any more (R48). -/
def clearErrors (m : Table Nat) (a n : Nat) : Table Nat := m.filter fun (w, _) => !(a ≤ 8 * w && 8 * w + 8 ≤ a + n)

/-- n bytes of a scratchpad, little-endian (R2). -/
def spadRead (s : State) (e : EP) (a n : Nat) : Nat := mread (s.core e).spad a n

/-- The low n bytes of a number written into a scratchpad. -/
def State.spadWrite (s : State) (e : EP) (a n v : Nat) : State := s.modCore e fun c => { c with spad := mwrite c.spad a n v, upsets := clearErrors c.upsets a n }

/-- Bytes written into a scratchpad. -/
def State.spadPut (s : State) (e : EP) (a : Nat) (bs : List (BitVec 8)) : State := s.modCore e fun c => { c with spad := mputs a bs c.spad, upsets := clearErrors c.upsets a bs.length }

/-- A value of a size as its register receives it (R360). -/
def extend (size : Nat) (sgn : Bool) (v : Nat) : Nat := if sgn then (sextTo (8 * size) v).toNat else v

/-- The new word of an atomic and its exception flags (R174, R175). -/
def atomNew (op : Nat) (dbl : Bool) (old v cmp : Nat) : Nat × Nat :=
  let w := if dbl then 64 else 32
  let v := v % 2 ^ w
  let cmp := cmp % 2 ^ w
  match op with
  | 0 => ((old + v) % 2 ^ w, 0)
  | 1 => (old &&& v, 0)
  | 2 => (old ||| v, 0)
  | 3 => (old ^^^ v, 0)
  | 4 => (if signed w v < signed w old then v else old, 0)
  | 5 => (if signed w old < signed w v then v else old, 0)
  | 6 => (if v < old then v else old, 0)
  | 7 => (if old < v then v else old, 0)
  | 8 => (v, 0)
  | 9 => fAdd (if dbl then fmt64 else fmt32) .rne old v
  | _ => (if old == cmp then v else old, 0)

/-- The bytes of an access. -/
def Access.size : Access → Nat
  | .load n _ | .store n _ | .take n _ _ | .peek n _ _ | .put n _ _ => n
  | .atom _ dbl .. => if dbl then 8 else 4
  | .feset .. | .feget _ => 1024
  | .joinRead | .notice => 8

/-- The access writes the word, for R189 and R176. A FESET changes states and no word: R176 does not list it, and the model does not take
it for a plain write (log 59). -/
def Access.writes : Access → Bool
  | .store .. | .atom .. | .put .. | .notice => true
  | _ => false

/-- The rights that an access needs of a window: RD, WR, FE (R113). -/
def Access.needs : Access → Bool × Bool × Bool
  | .load .. | .peek .. | .feget _ | .joinRead => (true, false, false)
  | .store .. | .notice => (false, true, false)
  | .atom .. => (true, true, false)
  | .take .. | .put .. | .feset .. => (false, false, true)

/-- A refused or dropped access counts as a store not applied (R224). -/
def Access.counts : Access → Bool
  | .store .. | .atom .. | .put .. | .notice => true
  | _ => false

/-- Some valid window of the core covers the physical range for the context with the needed rights (R113, R114). One that names a context that is
not valid serves nothing (R246). -/
def admits (s : State) (e : EP) (ctx : Ctx) (a n : Nat) (need : Bool × Bool × Bool) : Bool :=
  let c := s.core e
  ctxValid s (epPkg e) ctx && xbBytes c ≤ a && a + n ≤ spadSize e &&
  c.mgmt.aw.toList.any fun w =>
    let base := wb w 10 0
    let size := wb w 42 32
    bitAt w.toNat 63 && (!need.1 || bitAt w.toNat 62) && (!need.2.1 || bitAt w.toNat 61) && (!need.2.2 || bitAt w.toNat 60)
      && wb w 59 48 == ctx.toNat && size != 0 && (base + size) * 1024 ≤ spadSize e
      && base * 1024 ≤ a && a + n ≤ (base + size) * 1024

/-- A join watch is still of use: its thread is resident and waits (R347). -/
def watchLive (s : State) (w : Nat × Req × Carry) : Bool := match locate s w.2.1.ep w.2.1.uid with
  | .slot _ => true
  | _ => false

/-- The watches of a word that reads 0 are answered (R347), each under the instant and handle of its JOIN (R212). -/
def answerWatches (s : State) (e : EP) (w : Nat) : State :=
  let ws := (s.core e).watches.filter (·.1 == w)
  if ws.isEmpty || spadRead s e w 8 != 0 then s
  else
    let s := s.modCore e fun c => { c with watches := c.watches.filter (·.1 != w) }
    ws.foldl (fun s (_, req, carry) => s.respond e req carry (req.ep == e) .joined) s

/-- Watches on the words that an access has written. -/
def answerRange (s : State) (e : EP) (a n : Nat) : State :=
  if (s.core e).watches.isEmpty then s else (wordsOf a n).foldl (fun s w => answerWatches s e w) s

/-- The bitmap of FEGET (R52): full, or ochre. -/
def granMap (s : State) (e : EP) (a : Nat) (ochre : Bool) : Nat :=
  ((List.range 64).map fun i => if granAt s e (a / 1024 * 1024 + 16 * i) == (if ochre then GState.ochre else GState.full) then 2 ^ i else 0).sum

/-- FESET's states (R368), in ascending order; service follows. -/
def setBlock (s : State) (e : EP) (a : Nat) (mask : Word) (st : Nat) : State :=
  let g := match st with | 0 => GState.empty | 1 => GState.full | _ => GState.ochre
  (List.range 64).foldl (fun s i => if bitAt mask.toNat i then s.setGran e (a / 1024 * 1024 + 16 * i) g else s) s

/-- An access performed at its owner by the table of R51: the answer, or none where it must wait (R53). One that reads its word meets the errors
there (R48). -/
def perform (s : State) (e : EP) (a : Nat) (acc : Access) (req : Req) (carry : Carry) (here : Bool) : State × Option Answer :=
  let s := if acc.writes && !(match acc with | .put .. => granAt s e a == .full | _ => false) then abortPlain s e a acc.size else s
  let s := match acc with
    | .store .. | .put .. | .feset .. | .feget _ => s
    | .take .. | .peek .. => if granAt s e a == .full then meetErrors s e a acc.size else s
    | _ => meetErrors s e a acc.size
  let bad : Option Answer := some (.ochre (if here then 0 else 2) req.ebit)
  match acc with
  | .load n sg => if anyOchre s e a n then (s, bad) else (s, some (.value (extend n sg (spadRead s e a n)) 0))
  | .store n v => (s.spadWrite e a n v, some (.ack 0))
  | .atom op dbl v cmp ret =>
    let n := if dbl then 8 else 4
    if anyOchre s e a n then (s, bad)
    else
      let old := spadRead s e a n
      let (x, fl) := atomNew op dbl old v.toNat cmp.toNat
      (s.spadWrite e a n x, some (if ret then .value old fl else .ack fl))
  | .notice =>
    if anyOchre s e a 8 then (s, bad) else (s.spadWrite e a 8 (spadRead s e a 8 + 1), some (.ack 0))
  | .take n sg _ =>
    if granAt s e a == .full then (s.setGran e a .empty, some (.value (extend n sg (spadRead s e a n)) 0)) else (s, none)
  | .peek n sg _ => if granAt s e a == .full then (s, some (.value (extend n sg (spadRead s e a n)) 0)) else (s, none)
  | .put n v _ =>
    (match granAt s e a with
      | .full => (s, none)
      | .empty => ((s.spadWrite e a n v).setGran e a .full, some (.ack 0))
      | .ochre => (((s.spadWrite e (a / 16 * 16) 16 0).spadWrite e a n v).setGran e a .full, some (.ack 0)))
  | .feset mask st => (setBlock s e a mask st, some (.ack 0))
  | .feget o => (s, some (.value (granMap s e a o) 0))
  | .joinRead =>
    if anyOchre s e a 8 then (s, bad)
    else if spadRead s e a 8 == 0 then (s, some .joined)
    else
      let s := s.modCore e fun c => { c with watches := c.watches.filter (watchLive s) }
      if (s.core e).watches.length < 32 then (s.modCore e fun c => { c with watches := c.watches ++ [(a, req, carry)] }, none)
      else (s, some .busy)

/-- A waiting entry's timeout has expired in an earlier cycle (R55): service in the cycle of its expiry still wins. -/
def entryLate (s : State) (e : EP) (x : DtlEntry) : Bool := limitOver s e x.deadline

/-- A waiting entry is dropped at service: its instant or handle has lapsed here, or its timeout has expired before (R55, R56). -/
def entryOver (s : State) (e : EP) (x : DtlEntry) : Bool := expired s e x.carry || entryLate s e x

/-- A waiting entry's answer goes to its requester. -/
def entryAnswer (s : State) (e : EP) (x : DtlEntry) (a : Answer) : State := s.respond e x.req x.carry x.local_ a

/-- The list without its k-th entry. -/
def dropEntry (s : State) (e : EP) (k : Nat) : State := s.modCore e fun c => { c with dtl := dropAt k c.dtl }

/-- Service of an access must wait: a sealed entry (R189) or an earlier-accepted write-queue entry covers some of its bytes (R137). -/
def serviceHeld (s : State) (e : EP) (x : DtlEntry) : Bool := anySealed s e x.addr x.acc.size || queued s e x.addr x.acc.size

/-- The waiters of a granule are served in arrival order (R54), at most n of them: on a full granule each PEEK up to the first TAKE,
which empties it; on an empty one the oldest PUT, after which it goes on. One that the read finds ochre (R48) keeps its entry. -/
def serve (s : State) (e : EP) (g : Nat) : Nat → State
  | 0 => s
  | n + 1 =>
    let st := granAt s e (16 * g)
    let mine := fun (x : DtlEntry) => x.addr / 16 == g && (match x.acc with
      | .put .. => st == .empty
      | _ => st == .full)
    match findPos mine (s.core e).dtl with
    | none => s
    | some k => match (s.core e).dtl[k]? with
      | none => s
      | some x =>
        if entryOver s e x then serve (entryAnswer (dropEntry s e k) e x .timedOut) e g n
        else if serviceHeld s e x then s
        else match perform s e x.addr x.acc x.req x.carry x.local_ with
          | (s, some a) => serve (entryAnswer (answerRange (dropEntry s e k) e x.addr x.acc.size) e x a) e g n
          | (s, none) => s

/-- Freed places of the list go to the accesses first in the overflow order (R56), each examined afresh; one that must wait, for its
granule, a sealed entry or a queue entry, takes the place. -/
def admitOverflow (s : State) (e : EP) : Nat → State
  | 0 => s
  | n + 1 =>
    if 64 ≤ (s.core e).dtl.length then s
    else match (s.core e).overflow with
      | [] => s
      | x :: rest =>
        let s := s.modCore e fun c => { c with overflow := rest }
        let join := fun (s : State) => s.modCore e fun c => { c with dtl := c.dtl ++ [x] }
        if entryOver s e x then admitOverflow (entryAnswer s e x .timedOut) e n
        else if serviceHeld s e x then admitOverflow (join s) e n
        else match perform s e x.addr x.acc x.req x.carry x.local_ with
          | (s, some a) => admitOverflow (serve (entryAnswer (answerRange s e x.addr x.acc.size) e x a) e (x.addr / 16) 130) e n
          | (s, none) => admitOverflow (join s) e n

/-- Every access in the overflow order of a core is examined for the places that are free (R56). -/
def State.admitAll (s : State) (e : EP) : State := admitOverflow s e (s.core e).overflow.length

/-- Service after something has changed granules of a range (R54, R56). -/
def serveRange (s : State) (e : EP) (a n : Nat) : State :=
  let s := if (s.core e).dtl.isEmpty then s else (blocks a n 16).foldl (fun s g => serve s e g 130) s
  s.admitAll e

/-- When a full/empty access that must wait gives up (R260, R366): its timeout, counted from now at the owner. -/
def Access.deadline (s : State) (e : EP) : Access → Option Nat
  | .take _ _ w | .peek _ _ w | .put _ _ w => Machine.deadline s e w
  | _ => none

/-- The timeout of an access is 0: it is examined once (R260). -/
def Access.once : Access → Bool
  | .take _ _ w | .peek _ _ w | .put _ _ w => w == 0
  | _ => false

/-- The access must wait: it joins the list, or the overflow order where the list is full (R53, R56). -/
def enlist (s : State) (e : EP) (x : DtlEntry) : State :=
  if (s.core e).dtl.length < 64 && (s.core e).overflow.isEmpty then s.modCore e fun c => { c with dtl := c.dtl ++ [x] }
  else s.modCore e fun c => { c with overflow := c.overflow ++ [x] }

/-- An access at its owner: performed with its answer and the service it brings about, or waiting. The caller has checked
admission, sealed entries (R189) and overlapping queue entries (R137). -/
def ownerAccess (s : State) (e : EP) (a : Nat) (acc : Access) (req : Req) (carry : Carry) (here : Bool) : State :=
  match perform s e a acc req carry here with
  | (s, some ans) =>
    let s := answerRange s e a (if acc.writes then acc.size else 0)
    let s := s.respond e req carry here ans
    (match acc with
      | .take .. | .put .. => serveRange s e a 1
      | .feset .. => serveRange s e (a / 1024 * 1024) 1024
      | _ => s)
  | (s, none) =>
    (match acc with
      | .joinRead => s
      | _ => if acc.once then s.respond e req carry here .timedOut
             else enlist s e ⟨acc, a, req, carry, here, acc.deadline s e⟩)

end Sys2Proof.Machine
end

