-- ==== Sys2Proof/Machine/Access.lean ====
section
/-! DEFINITION. How a thread's accesses leave it (R136 to R149, R180, R181, R278): drained paths, bank grants, region accesses,
local and fabric accesses, plain and relaxed. -/

namespace Sys2Proof.Machine

/-- The thread's accesses are region accesses: a region is open and no trap handler runs (R181). -/
def inRegion (t : Thread) : Bool := t.region.isSome && !t.handler

/-- A relaxed entry of a path is still sent (R143). -/
def pathBusy (t : Thread) (path : Nat) : Bool :=
  (t.sb.toList.take 16).any fun e => e.state == .sent && e.path == path

/-- A message or enqueue of the thread is on its way or held, or its refusal has yet to set the sticky bit (R143). -/
def msgBusy (s : State) (t : Thread) : Bool :=
  !t.outbox.isEmpty
  || (s.net.any fun p => p.req.uid == t.uid && match p.body with
      | .message .. => true
      | .enq .. => true
      | .answer _ => p.req.entry == 19
      | .stickySet _ r _ => r.entry == 19
      | _ => false)
  || s.cores.any fun (_, c) => c.held.any fun h => h.req.uid == t.uid

/-- A host write that the gateway admitted before number `mark` is still on its way (R143). -/
def hostBusy (s : State) (pkg mark : Nat) : Bool :=
  s.net.any fun p => p.src == hostGwEp pkg && p.req.entry < mark && match p.body with
    | .access _ _ _ (.store ..) _ _ _ => true
    | .dram _ (.store ..) _ _ _ _ => true
    | .pieceWrite .. => true
    | _ => false

/-- An MMA of the thread has been issued and has not ended. -/
def mmaBusy (s : State) (e : EP) (t : Thread) : Bool :=
  (s.core e).jobs.any fun j => j.req.uid == t.uid && match j.op with
    | .mma .. => true
    | _ => false

/-- Every path of the mask is drained for the slot (R143). -/
def drainedMask (s : State) (e : EP) (t : Thread) (mask : BitVec 8) (mark : Nat) : Bool :=
  (!mask.getLsbD 0 || !pathBusy t 0)
  && (!mask.getLsbD 1 || (t.cnt.cpc == 0 && t.cnt.code == 0))
  && (!mask.getLsbD 2 || (t.cnt.tlc == 0 && !mmaBusy s e t))
  && (!mask.getLsbD 3 || !pathBusy t 3)
  && (!mask.getLsbD 4 || !pathBusy t 4)
  && (!mask.getLsbD 5 || !msgBusy s t)
  && (!mask.getLsbD 6 || t.cnt.coll == 0)
  && (!mask.getLsbD 7 || !hostBusy s (epPkg e) mark)

/-- An atomic or update of the thread on its own scratchpad is on its way to the atomic unit (R370). -/
def localOut (s : State) (e : EP) (t : Thread) : Bool :=
  s.net.any fun p => p.src == e && p.dst == e && p.req.uid == t.uid && match p.body with
    | .access _ _ _ _ _ _ here => here
    | _ => false

/-- The turn passes without effect, and the same instruction is attempted again at the thread's next one (R46). -/
def State.forfeit (s : State) (u : Turn) : State := (s.modThr u.ep u.slot fun t => { t with forfeits := t.forfeits + 1 }).noTurn

/-- The issuing thread's access asks its banks (R46): where the turn loses one it is forfeited, unless three forfeits in a row have
made the access guarded. While an earlier atomic of the thread has yet to be applied it is attempted again: local accesses of a thread
are performed in the order of their issue (R140). -/
def withBanks (s : State) (u : Turn) (t : Thread) (body : State → State) : State :=
  if localOut s u.ep t || (u.lost && t.forfeits < 3) then s.forfeit u else body s

/-- The passes of a strided access that a turn performs, of those up to four that it attempts (R47): all, or where the turn loses a bank
those before the pass that lost, which one being a free value (log 6); the pass that has lost three times in a row is guarded. -/
def passesWon (s : State) (u : Turn) (t : Thread) (tried : Nat) : Nat × State :=
  let sure := if t.forfeits < 3 then 0 else 1
  if u.lost && sure < tried then
    let (n, s) := s.draw 1
    (sure + (Config.freeWord n).toNat % (tried - sure), s)
  else (tried, s)

/-- An access counts in its context's probe domain (R278): stores and the updates that return nothing. -/
def Access.probed : Access → Bool
  | .store .. => true
  | .atom _ _ _ _ ret => !ret
  | _ => false

/-- The virtual channel of a thread's requests (R110). -/
def vcOfThread (s : State) (e : EP) (t : Thread) : Nat := ctxVc s (epPkg e) t.ctx

/-- A region access (R181, R186): its words in ascending order leave for the owner, on the thread's channel behind its other requests (R108);
the thread parks, or with a relaxed access goes on. -/
def regionAccess (s : State) (u : Turn) (t : Thread) (home : EP) (dram : Bool) (words : List (Nat × Access)) (relaxed : Bool)
    (path ebit : Nat) (d : Reg) (operand : Word) (vec : Option VecFill) (here : Bool) (mpkg : Option (Nat × Bool) := none) : State :=
  match t.region with
  | none => s.retire u id
  | some r =>
    if here && localOut s u.ep t then s.forfeit u
    else if !relaxed && t.xf.isSome then s.waitEver u .xfence
    else
      let num := s.nextUid
      let atom := words.any fun x => match x.2 with | .atom .. => true | _ => false
      let isLoad := atom || words.any fun x => match x.2 with | .load .. => true | _ => false
      let i := if relaxed then (t.freeSb (if isLoad then 0 else 8) 8).getD (if isLoad then 7 else 15) else 16 + 32 * num
      let req := reqOf u.ep u.slot t i ebit
      let a : RAccess := ⟨r.id, home, dram, words, [], vec, req, carryOf u.ep t, relaxed, here, 0, mpkg, .waiting, num, 0⟩
      let s := { s with nextUid := num + 1 }
      let s := if a.probed then countOut s u.ep t.ctx else s
      let s := s.send u.ep home (vcOfThread s u.ep t) req (carryOf u.ep t) (.region (.access a))
      if relaxed then s.retire u fun t =>
        let t := if isLoad then { t.unpend d with cnt := { t.cnt with ldc := t.cnt.ldc + 1 } }
                 else { t with cnt := { t.cnt with stc := t.cnt.stc + 1 } }
        t.setSb i ⟨.sent, if atom then 1 else if isLoad then 0 else 2, path, d, t.pc, true⟩
      else s.parkAt u (if vec.isSome then .region else .answer) 9 path false none d operand.toNat num

/-- An access to the thread's own scratchpad (R364): plain, or in a region. -/
def localAccess (s : State) (u : Turn) (t : Thread) (ea : Word) (acc : Access) (d : Reg) : State :=
  s.checked u (checkLocal s u.ep t ea acc.size) fun phys =>
  s.checked u (checkAligned ea acc.size) fun _ =>
    if inRegion t then regionAccess s u t u.ep false [(phys, acc)] false 0 0 d ea none true
    else if anySealed s u.ep phys acc.size then s.waitEver u (.unsealed phys acc.size)
    else withBanks s u t fun s =>
      match perform s u.ep phys acc (reqOf u.ep u.slot t 17 0) (carryOf u.ep t) true with
      | (s, some (.value v _)) => s.retire u (·.putG d (word v))
      | (s, some (.ack _)) => (answerRange s u.ep phys acc.size).retire u id
      | (s, some (.ochre info _)) => s.raise u 0x14 ea info
      | (s, _) => s.retire u id

/-- The counter of a relaxed access is at its limit (R115). -/
def atLimit (t : Thread) (isLoad : Bool) : Bool := if isLoad then 8 ≤ t.cnt.ldc else 8 ≤ t.cnt.stc

/-- A fabric access leaves (R365, R370): plain or relaxed, in a region or not. One outside its allotment is refused at its target (R15), by a
region of the own die too. -/
def fabricAccess (s : State) (u : Turn) (t : Thread) (r : Route) (ea : Word) (acc : Access) (relaxed : Bool)
    (isLoad : Bool) (kind path : Nat) (d : Reg) : State :=
  if inRegion t && (dieKey r.dst != dieKey u.ep || r.vcore.isSome) then s.abortOwn u t 8
  else if relaxed && atLimit t isLoad then s.waitEver u (if isLoad then .ldcRoom else .stcRoom)
  else if inRegion t && r.phys.isSome then regionAccess s u t r.dst false [(r.phys.getD 0, acc)] relaxed path r.ebit d ea none false
  else
    let s := if acc.probed && (relaxed || t.xf.isNone) then countOut s u.ep t.ctx else s
    let body : Body := .access r.vcore r.off r.phys acc none relaxed false
    if relaxed then s.askRelaxed u t r.dst (vcOfThread s u.ep t) r.ebit isLoad kind path d body
    else s.ask u t r.dst (vcOfThread s u.ep t) r.ebit .answer 5 path d ea acc.size body

/-- A local atomic or update (R370, R172): it goes to the own atomic unit, which applies it behind overlapping queue entries. -/
def localAtomic (s : State) (u : Turn) (t : Thread) (phys : Nat) (ea : Word) (acc : Access) (relaxed : Bool) (isLoad : Bool)
    (kind path : Nat) (d : Reg) : State :=
  let eb := ((peerOf s (epPkg u.ep) t.sr.peermap 0).map (·.2)).getD 0
  if relaxed && atLimit t isLoad then s.waitEver u (if isLoad then .ldcRoom else .stcRoom)
  else if inRegion t then regionAccess s u t u.ep false [(phys, acc)] relaxed path eb d ea none true
  else
    let body : Body := .access none 0 (some phys) acc none relaxed true
    if relaxed then s.askRelaxed u t u.ep (vcOfThread s u.ep t) eb isLoad kind path d body
    else s.ask u t u.ep (vcOfThread s u.ep t) eb .answer 5 path d ea acc.size body

/-- An atomic on a scratchpad word, local or fabric (R370). -/
def scratchAtomic (s : State) (u : Turn) (t : Thread) (ea : Word) (acc : Access) (relaxed isLoad : Bool) (kind path : Nat) (d : Reg) :
    State :=
  s.checked u (checkPlace s u.ep t ea acc.size 0x13) fun pl =>
  s.checked u (checkAligned ea acc.size) fun _ =>
    match pl with
    | .local_ phys => localAtomic s u t phys ea acc relaxed isLoad kind path d
    | .fabric r => fabricAccess s u t r ea acc relaxed isLoad kind path d

/-- The granule's state lets a full/empty access be performed at once (R51): only then it touches a bank. -/
def servedNow (s : State) (e : EP) (a : Nat) : Access → Bool
  | .take .. | .peek .. => granAt s e a == .full
  | .put .. => granAt s e a != .full
  | _ => false

/-- A full/empty access (R366, R367): a local one is examined at once by the own state array, performed in its turn (R46) or kept in its
list, a fabric one goes to its owner; the thread parks with scoreboard kind 6. Like every access of the issuing thread it waits for no
queue entry (R137). -/
def feAccess (s : State) (u : Turn) (t : Thread) (ea : Word) (acc : Access) (d : Reg) : State :=
  s.checked u (checkPlace s u.ep t ea acc.size 0x13) fun pl =>
  s.checked u (checkAligned ea acc.size) fun _ =>
    match pl with
    | .fabric r =>
      s.ask u t r.dst (vcOfThread s u.ep t) r.ebit .fullEmpty 6 0 d ea acc.size (.access r.vcore r.off r.phys acc none false false)
    | .local_ phys =>
      if anySealed s u.ep phys acc.size then
        s.parkAt u (.again (.unsealed phys acc.size)) 6 0 false none d (match acc with
          | .put _ _ w => if w == allOnes then 0 else (s.core u.ep).cycle + w.toNat + 1
          | _ => 0)
      else if localOut s u.ep t then s.forfeit u
      else
        let go := fun (s : State) =>
          let ser := s.nextUid
          let s := { s with nextUid := ser + 1 }.parkAt u .fullEmpty 6 0 false none d (ea.toNat + acc.size * 2 ^ 64) ser
          ownerAccess s u.ep phys acc (reqOf u.ep u.slot t (16 + 32 * ser) 0) (carryOf u.ep t) true
        if servedNow s u.ep phys acc then withBanks s u t go else go s

/-- FESET and FEGET (R368, R369): the 1 KiB block that holds the address, locally within the turn, behind the thread's earlier atomics (R140). -/
def blockAccess (s : State) (u : Turn) (t : Thread) (ea : Word) (acc : Access) (d : Reg) : State :=
  let base := BitVec.ofNat 64 (ea.toNat / 1024 * 1024)
  let pl := match checkPlace s u.ep t base 1024 0x13 with
    | .error tr => .error { tr with addr := ea }
    | .ok p => .ok p
  s.checked u pl fun pl =>
    match pl with
    | .fabric r =>
      s.ask u t r.dst (vcOfThread s u.ep t) r.ebit .answer 5 0 d ea 8 (.access r.vcore r.off r.phys acc none false false)
    | .local_ phys =>
      if anySealed s u.ep phys 1024 then s.waitEver u (.unsealed phys 1024)
      else if localOut s u.ep t then s.forfeit u
      else
        match perform s u.ep phys acc (reqOf u.ep u.slot t 17 0) (carryOf u.ep t) true with
        | (s, some (.value v _)) => s.retire u (·.putG d (word v))
        | (s, _) => (serveRange (s.retire u id) u.ep (phys / 1024 * 1024) 1024)

/-- The time that a PUT has left after its drain, and after a wait for a sealed word (R366). -/
def timeLeft (s : State) (e : EP) (t : Thread) (w : Word) : Word :=
  if w == allOnes then w
  else match t.park with
    | some p => (match p.limit, p.why with
      | some l, _ => BitVec.ofNat 64 (l - (s.core e).cycle)
      | none, .again (.unsealed ..) => if p.aux == 0 then w else BitVec.ofNat 64 (p.aux - 1 - (s.core e).cycle)
      | none, _ => w)
    | none => w

end Sys2Proof.Machine
end

