-- ==== Sys2Proof/Machine/Migrate.lean ====
section
/-! DEFINITION. Migration and DRAM accesses (14, 03): GO, BACK, MLD, MST, MAMO, REMUP. -/

namespace Sys2Proof.Machine

/-- The package whose lost homes count for a thread at an address (R101, R375): for a migrant whose way here failed over, the package that had
declared the primary lost, as long as it does, else the one it is on. -/
def Thread.homesOf (s : State) (e : EP) (t : Thread) (x : TlbEntry) (va : Nat) : Nat := match t.origin with
  | some o => if isLost s o.via (paPkg (x.addr va)) then o.via else epPkg e
  | none => epPkg e

/-- Where an access to a translated line goes (R86, R98, R100, R101): the home memory core, the physical address there, the other
home's package of a mirrored page, and whether it is the mirror home. -/
def dramTarget (s : State) (own : Nat) (x : TlbEntry) (va : Nat) : EP × Nat × Option Nat × Bool :=
  let pa := x.addr va
  if !x.m then (homeOf pa, pa, none, false)
  else if isLost s own (paPkg pa) then (homeOf (x.mirror va), x.mirror va, some (paPkg pa), true)
  else (homeOf pa, pa, some x.mpkg, false)

/-- What travels of a thread that migrates (R87, R444): its scalar state, its mode and its special registers; the visitor slot keeps counters of
its own (R377) and has no local space (R88). -/
def migrantOf (t : Thread) (next : CodeAddr) : Thread :=
  { t with
    pc := next, fresh := false, park := none, xf := none, cnt := Counters.zero,
    sb := Vector.replicate 17 SbEntry.none, outbox := [], inbox := [], recs := [], qres := ⟨0, 0, false⟩,
    provisional := none, pair := none, line := none, forfeits := 0, passes := 0,
    sr := { t.sr with lsize := 0, sticky := 0 } }

/-- GO (R375). An open region, of a handler's thread too, does not leave its die (R180). -/
def execGo (gd : Guard) (a : Reg) (s : State) :=
  issue { op := 0x0C0, path := 8, holds := true, ext := true } gd s fun u t s =>
    let ea := gr t a
    s.checked u (checkDv ea) fun va =>
    withXlate s u t ea va true false fun s x =>
      let (home, pa, _, mir) := dramTarget s (t.homesOf s u.ep x va) x va
      let crossed := fun (s : State) => if mir then s.event (epPkg u.ep) 0x0040 (paPkg (x.addr va)) u.ep 255 (word pa) else s
      if t.region.isSome && dieKey home != dieKey u.ep then s.abortOwn u t 8
      else if epPkg home != epPkg u.ep && (ebitOf s (epPkg u.ep) t.sr.peermap (epPkg home)).isNone then s.raise u 0x13 ea 0
      else if !countersOk t then s.waitEver u (.counters 0 0 (if t.origin.isSome then 0 else 15) 15)
      else match t.origin with
        | some o =>
          if home == u.ep then s.retire u id
          else
            let via := if isLost s o.via (paPkg (x.addr va)) then o.via else epPkg u.ep
            let m : Migrant := ⟨migrantOf t u.next, { o with via := via }, carryOf u.ep t, va, t.pc⟩
            let s := (crossed s).send u.ep home (vcOfThread s u.ep t) (reqOf u.ep u.slot t 17 0) (carryOf u.ep t) (.migrant m)
            (leaveVisitor s u.ep u.slot t o).noTurn
        | none =>
          let m : Migrant := ⟨migrantOf t u.next, ⟨u.ep, u.slot, t.uid, epPkg u.ep⟩, carryOf u.ep t, va, t.pc⟩
          ((crossed s).send u.ep home (vcOfThread s u.ep t) (reqOf u.ep u.slot t 17 0) (carryOf u.ep t) (.migrant m)).parkAt u .away 7 3 false none 0 0
where
  /-- LDC and STC are 0, and for a migrant CPC (R149). -/
  countersOk (t : Thread) : Bool := t.cnt.ldc == 0 && t.cnt.stc == 0 && (t.origin.isNone || t.cnt.cpc == 0)

/-- BACK (R376). -/
def execBack (gd : Guard) (s : State) :=
  issue { op := 0x0C1, path := 8, holds := true, ext := true } gd s fun u t s =>
    if t.cnt.ldc != 0 || t.cnt.stc != 0 || t.cnt.cpc != 0 then s.waitEver u (.counters 0 0 0 15)
    else match t.origin with
      | none => s.raise u 0x01 0 0x0C1
      | some o =>
        let m : Migrant := ⟨{ t with pc := u.next }, o, carryOf u.ep t, 0, t.pc⟩
        let s := s.send u.ep o.ep (vcOfThread s u.ep t) (reqOf u.ep u.slot t 17 0) (carryOf u.ep t) (.comeBack m none false)
        (leaveVisitor s u.ep u.slot t o).noTurn

/-- A migrant's open region belongs to another die than the one it is on (R180). -/
def Thread.offDie (t : Thread) (e : EP) : Bool := match t.origin, t.region with
  | some o, some r => regionDie (epPkg o.ep) r.id != dieKey e
  | _, _ => false

/-- An access of MLD, MST or MAMO (R378, R379): form, alignment, translation, home, then the line buffer of the own core. -/
def homeAccess (s : State) (u : Turn) (t : Thread) (ea : Word) (acc : Access) (rd wr relaxed : Bool) (kind : Nat) (d : Reg) : State :=
  s.checked u (checkDv ea) fun va =>
  s.checked u (checkAligned ea acc.size) fun _ =>
  withXlate s u t ea va rd wr fun s x =>
    let (home, pa, mpkg, mir) := dramTarget s (t.homesOf s u.ep x va) x va
    let eb := (ebitOf s (epPkg u.ep) t.sr.peermap (paPkg pa)).getD 0
    if home != u.ep then s.raise u 0x12 ea (channelOf (x.addr va))
    else if inRegion t && t.offDie u.ep then s.abortOwn u t 8
    else if relaxed && atLimit t true then s.waitEver u .ldcRoom
    else if inRegion t then regionAccess s u t u.ep true [(pa, acc)] relaxed 3 eb d ea none true (mpkg.map fun m => (m, mir))
    else
      let body : Body := .dram pa acc none relaxed mpkg mir
      if relaxed then s.askRelaxed u t u.ep (vcOfThread s u.ep t) eb true kind 3 d body
      else s.ask u t u.ep (vcOfThread s u.ep t) eb .answer 5 3 d ea acc.size body

/-- MLD (R378). -/
def execMld (gd : Guard) (d a : Reg) (sz : BitVec 2) (sgn : Bool) (imm : BitVec 32) (s : State) :=
  issue { op := 0x0C2, path := 8, holds := true, ext := true, dst := [d.toNat] } gd s fun u t s =>
    homeAccess s u t (gr t a + imm.signExtend 64) (.load (2 ^ sz.toNat) sgn) true false false 5 d

/-- MST (R378). -/
def execMst (gd : Guard) (d a : Reg) (sz : BitVec 2) (imm : BitVec 32) (s : State) :=
  issue { op := 0x0C3, path := 8, holds := true, ext := true, out := some 0, cmp := [d, a] } gd s fun u t s =>
    homeAccess s u t (gr t a + imm.signExtend 64) (.store (2 ^ sz.toNat) (gr t d).toNat) false true false 5 0

/-- MAMO (R379): code 15 compares with g[b] and stores g[c]. -/
def execMamo (gd : Guard) (d a b c : Reg) (op : BitVec 4) (dbl rlx : Bool) (s : State) :=
  issue { op := 0x0C4, path := 8, holds := !rlx, ext := true, dst := [d.toNat], out := some 2, cmp := [a, b, c] } gd s fun u t s =>
    let acc : Access := if op == 15 then .atom 15 dbl (gr t c) (gr t b) true else .atom op.toNat dbl (gr t b) 0 true
    homeAccess s u t (gr t a) acc true true rlx 1 d

/-- REMUP (R380). -/
def execRemup (gd : Guard) (a b : Reg) (op : BitVec 4) (dbl : Bool) (s : State) :=
  issue { op := 0x0C5, path := 0x10, illegal := true, ext := true, out := some 3, cmp := [a, b] } gd s fun u t s =>
    let ea := gr t a
    let acc : Access := .atom op.toNat dbl (gr t b) 0 false
    s.checked u (checkDv ea) fun va =>
    s.checked u (checkAligned ea acc.size) fun _ =>
    withXlate s u t ea va true true fun s x =>
      let (home, pa, mpkg, mir) := dramTarget s (epPkg u.ep) x va
      match ebitOf s (epPkg u.ep) t.sr.peermap (paPkg (x.addr va)) with
      | none => s.raise u 0x13 ea 0
      | some eb =>
        if atLimit t false then s.waitEver u .stcRoom
        else
          let s := countOut s u.ep t.ctx
          s.askRelaxed u t home (vcOfThread s u.ep t) eb false 4 4 0 (.dram pa acc none true mpkg mir)

end Sys2Proof.Machine
end

