-- ==== Sys2Proof/Machine/Engines.lean ====
section
/-! DEFINITION. PUSH with its command checks (R326 to R328, R419 to R426) for each engine, and POPC (R421). -/

namespace Sys2Proof.Machine

/-- A check that holds, or its trap. -/
def need (ok : Bool) (tr : Trap) : Checked Unit := if ok then .ok () else .error tr

/-- A check that is made in some cases only. -/
def onlyIf (c : Bool) (x : Checked Unit) : Checked Unit := if c then x else .ok ()

/-- The eight words of a command: g[a] to g[a + 7] (R326). -/
def cmdWords (t : Thread) (a : Reg) : List Word := (List.range 8).map fun i => gr t (a + BitVec.ofNat 5 i)

/-- A word of a command. -/
def cw (w : List Word) (i : Nat) : Word := w.getD i 0
/-- The same as a number. -/
def cwn (w : List Word) (i : Nat) : Nat := (cw w i).toNat

/-- KIND of a command. -/
def cKind (w : List Word) : Nat := cwn w 0 % 256
/-- NOTIFY. -/
def cNotify (w : List Word) : Bool := bitAt (cwn w 0) 8
/-- NOTE. -/
def cNote (w : List Word) : Bool := bitAt (cwn w 0) 9
/-- SETF. -/
def cSetf (w : List Word) : Bool := bitAt (cwn w 0) 10
/-- MIRR. -/
def cMirr (w : List Word) : Bool := bitAt (cwn w 0) 11
/-- GRP. -/
def cGrp (w : List Word) : Bool := bitAt (cwn w 0) 12
/-- DIMS. -/
def cDims (w : List Word) : Nat := bitsAt (cwn w 0) 23 16
/-- ESZ. -/
def cEsz (w : List Word) : Nat := bitsAt (cwn w 0) 27 24

/-- The form of an address operand with its reserved bits 0 (R5, R6, R26): 0 local, 1 fabric, 2 device virtual, 3 group. -/
def formOf (a : Word) : Option Nat :=
  let x := a.toNat
  match x / 2 ^ 62 with
  | 0 => if x / 2 ^ 21 == 0 then some 0 else none
  | 1 => if bitsAt x 61 50 == 0 then some 1 else none
  | 2 => if bitsAt x 61 56 == 0 then some 2 else none
  | _ => if bitsAt x 61 50 == 0 && bitsAt x 37 24 == 0 then some 3 else none

/-- An address operand has one of the forms that its command accepts (R423 to R426): else cause 0x02. Where already R6 accepts no
such form of the word, TADDR is the operand; else it is 0 (R283; log 55). -/
def needForm (a : Word) (forms general : List Nat) (head : Nat) : Checked Unit :=
  let one := fun (l : List Nat) => match formOf a with | some f => l.contains f | none => false
  need (one forms) ⟨0x02, if one general then 0 else a, head⟩

/-- Counts and strides of the dimensions after the first, on a side (0 source, 1 destination). -/
def stride (side : Nat) (d : Nat × Int × Int) : Int := if side == 0 then d.2.1 else d.2.2

/-- The lowest byte a command touches on a side, from its address on, and the bytes from there (R419). -/
def extent (dims : List (Nat × Int × Int)) (esz side : Nat) : Int × Nat :=
  let lo := (dims.map fun d => min 0 (((d.1 : Int) - 1) * stride side d)).sum
  let hi := (dims.map fun d => max 0 (((d.1 : Int) - 1) * stride side d)).sum
  (lo, (hi - lo).toNat + ((dims.map (·.1)).headD 0) * 2 ^ esz)

/-- The shape of a command (R326, R328): from w4 to w6, or from the shape record. -/
def shapeOf (s : State) (e : EP) (t : Thread) (w : List Word) (head : Nat) : Checked (List (Nat × Int × Int)) :=
  let bad : Trap := ⟨0x02, 0, head⟩
  let n := cDims w
  if n ≤ 2 then do
    need (bitsAt (cwn w 5) 63 32 == 0 && bitsAt (cwn w 6) 63 32 == 0) bad
    if n == 1 then do
      need (bitsAt (cwn w 4) 63 32 == 0 && cwn w 5 == 0 && cwn w 6 == 0) bad
      return [(bitsAt (cwn w 4) 31 0, 0, 0)]
    else
      return [(bitsAt (cwn w 4) 31 0, 0, 0), (bitsAt (cwn w 4) 63 32, signed 32 (cwn w 5), signed 32 (cwn w 6))]
  else do
    need (cwn w 5 == 0 && cwn w 6 == 0) bad
    let phys ← checkLocal s e t (cw w 4) (12 * n)
    checkAligned (cw w 4) 4
    need (!anyOchre s e phys (12 * n)) ⟨0x14, cw w 4, 0⟩
    let at_ := fun i => spadRead s e (phys + 4 * i) 4
    let dims := (List.range n).map fun i => (at_ (3 * i), signed 32 (at_ (3 * i + 1)), signed 32 (at_ (3 * i + 2)))
    need (match dims with | d :: _ => d.2.1 == 0 && d.2.2 == 0 | [] => false) bad
    return dims

/-- The shape record that PUSH reads, where it does and its range passes R7 (R328): physical offset and bytes. -/
def shapeRecord (s : State) (e : EP) (t : Thread) (w : List Word) : Option (Nat × Nat) :=
  if cDims w ≤ 2 || 8 < cDims w then none
  else match checkLocal s e t (cw w 4) (12 * cDims w), checkAligned (cw w 4) 4 with
    | .ok phys, .ok _ => some (phys, 12 * cDims w)
    | _, _ => none

/-- The elements of a shape. -/
def shapeCount (dims : List (Nat × Int × Int)) : Nat := dims.foldl (fun n d => n * d.1) 1

/-- The part common to every command of engines 0 to 3 (R326): reserved bits, DIMS, ESZ, flags, w3 and w7. -/
def checkHead (w : List Word) (kind : Nat) (refused : Nat) (head : Nat) : Checked Unit :=
  let w0 := cwn w 0
  need (cKind w == kind && bitsAt w0 31 28 == 0 && bitsAt w0 15 13 == 0 && cEsz w ≤ 3 && 1 ≤ cDims w && cDims w ≤ 8
    && w0 / 2 ^ 8 % 32 &&& refused == 0 && cwn w 7 == 0 && (cNote w || cwn w 3 == 0)) ⟨0x02, 0, head⟩

/-- A fabric operand's peer and virtual core resolve (R14 steps 1 and 2, R419). -/
def checkPeer (s : State) (e : EP) (t : Thread) (a : Word) : Checked Unit :=
  if formOf a == some 1 then (checkFabric s e t a 1 0x13).map fun _ => () else .ok ()

/-- The notice address resolves (R423): a local one is 8 bytes of the allotment. -/
def checkNotice (s : State) (e : EP) (t : Thread) (w : List Word) : Checked Unit :=
  if cNote w && formOf (cw w 3) == some 0 then (checkLocal s e t (cw w 3) 8).map fun _ => () else .ok ()

/-- A local extent of a side passes R7 (R419). -/
def checkExtent (s : State) (e : EP) (t : Thread) (a : Word) (lo : Int) (n : Nat) : Checked Unit :=
  if formOf a == some 0 && n != 0 then (checkLocal s e t (a + BitVec.ofInt 64 lo) n).map fun _ => () else .ok ()

/-- The checks of COPY and FILL that come before the shape is read (R419, R423, R424, R6): reserved bits, and the forms of the addresses. -/
def checkForms (w : List Word) (fill dist : Bool) (head : Nat) : Checked Unit := do
  checkHead w (if fill then 4 else 1) (if dist then 0 else 8) head
  needForm (cw w 1) (if dist then [2] else [0, 1]) [0, 1, 2] head
  needForm (cw w 2) (if cGrp w then [3] else [0, 1, 2]) (if cGrp w then [3] else [0, 1, 2]) head
  onlyIf (cNote w) (needForm (cw w 3) [0, 1] [0, 1] head)
  need (!(cSetf w && formOf (cw w 2) == some 2)) ⟨0x02, 0, head⟩

/-- The checks of COPY and FILL (R419, R423, R424): the shape. -/
def checkCopy (s : State) (e : EP) (t : Thread) (w : List Word) (fill dist : Bool) (head : Nat) : Checked (List (Nat × Int × Int)) := do
  let bad : Trap := ⟨0x02, 0, head⟩
  checkForms w fill dist head
  let dims ← shapeOf s e t w head
  let n : Nat := 2 ^ cEsz w
  need (dims.all fun d => d.2.1 % (n : Int) == 0 && d.2.2 % (n : Int) == 0) bad
  need (!fill || dims.all fun d => d.2.1 == 0) bad
  need (decide (shapeCount dims * n ≤ 2 ^ 40)) bad
  checkAligned (cw w 1) n
  checkAligned (cw w 2) n
  onlyIf (cNote w) (checkAligned (cw w 3) 8)
  checkPeer s e t (cw w 1)
  checkPeer s e t (cw w 2)
  onlyIf (cNote w) (checkPeer s e t (cw w 3))
  let some_ := shapeCount dims != 0
  onlyIf (some_ && fill) (checkExtent s e t (cw w 1) 0 n)
  onlyIf (some_ && !fill) (checkExtent s e t (cw w 1) (extent dims (cEsz w) 0).1 (extent dims (cEsz w) 0).2)
  onlyIf some_ (checkExtent s e t (cw w 2) (extent dims (cEsz w) 1).1 (extent dims (cEsz w) 1).2)
  checkNotice s e t w
  return dims

/-- The checks of CODE (R425). -/
def checkCode (s : State) (e : EP) (t : Thread) (w : List Word) (head : Nat) : Checked (List (Nat × Int × Int)) := do
  let bad : Trap := ⟨0x02, 0, head⟩
  checkHead w 2 (4 + 16) head
  need (cDims w == 1 && cEsz w == 3 && cwn w 4 == 512 && cwn w 5 == 0 && cwn w 6 == 0) bad
  needForm (cw w 2) [0] [0, 1, 2] head
  need (cwn w 2 % 2 ^ 12 == 0 && cwn w 2 < xbBytes (s.core e)) bad
  needForm (cw w 1) [2] [0, 1, 2] head
  onlyIf (cNote w) (needForm (cw w 3) [0, 1] [0, 1] head)
  checkAligned (cw w 1) 64
  onlyIf (cNote w) (checkAligned (cw w 3) 8)
  onlyIf (cNote w) (checkPeer s e t (cw w 3))
  checkNotice s e t w
  return [(512, 0, 0)]

/-- OPN of a COLL (R426). -/
def colOpn (w : List Word) : Nat := bitsAt (cwn w 4) 11 8
/-- COUNT. -/
def colCount (w : List Word) : Nat := bitsAt (cwn w 5) 39 0
/-- COMM. -/
def colComm (w : List Word) : Nat := cwn w 4 % 256
/-- ROOT. -/
def colRoot (w : List Word) : Nat := bitsAt (cwn w 4) 27 18
/-- The operation reduces. -/
def colReduces (w : List Word) : Bool := colOpn w == 1 || colOpn w == 2
/-- RPC. -/
def colRpc (w : List Word) : CodeAddr := BitVec.ofNat 32 (cwn w 6)
/-- Bytes of COUNT elements. -/
def colBytes (w : List Word) : Nat := colCount w * 2 ^ cEsz w

/-- The bytes of the source and of the destination of a rank with n participants (R427). -/
def colSides (w : List Word) (n : Nat) : Nat × Nat :=
  let b := colBytes w
  match colOpn w with
  | 0 => (b, n * b)
  | 1 => (n * b, b)
  | 4 => (n * b, n * b)
  | _ => (b, b)

/-- The checks of COLL (R426, R419). -/
def checkColl (s : State) (e : EP) (t : Thread) (w : List Word) (head : Nat) : Checked Unit := do
  let bad : Trap := ⟨0x02, 0, head⟩
  checkHead w 3 (4 + 8 + 16) head
  let ty := ty? (bitsAt (cwn w 4) 15 12)
  need (cDims w == 1 && (match ty with | some ty => ty.width == 8 * 2 ^ cEsz w | none => false)) bad
  need (bitsAt (cwn w 4) 63 28 == 0 && colOpn w ≤ 4 && (colOpn w == 3 || colRoot w == 0) && bitsAt (cwn w 5) 63 40 == 0
    && bitsAt (cwn w 6) 63 32 == 0 && (colReduces w || colRpc w == 0)) bad
  needForm (cw w 1) [0, 2] [0, 1, 2] head
  needForm (cw w 2) [0, 2] [0, 1, 2] head
  onlyIf (cNote w) (needForm (cw w 3) [0, 1] [0, 1] head)
  need (decide (colBytes w ≤ 2 ^ 40)) bad
  checkAligned (cw w 1) (2 ^ cEsz w)
  checkAligned (cw w 2) (2 ^ cEsz w)
  onlyIf (cNote w) (checkAligned (cw w 3) 8)
  onlyIf (cNote w) (checkPeer s e t (cw w 3))
  let k := colComm w
  let ok := commServes s (epPkg e) k t.ctx
  let sides := colSides w (commSize s (epPkg e) k)
  onlyIf (ok && (colOpn w != 3 || colRoot w == commRank s (epPkg e) k)) (checkExtent s e t (cw w 1) 0 sides.1)
  onlyIf ok (checkExtent s e t (cw w 2) 0 sides.2)
  checkNotice s e t w

/-- Where the accounting engine of an engine id stands (R123). -/
def engineEp (e : EP) (engine : Nat) : EP := if engine == 1 then distEp e else e

/-- The commands that an engine holds (R420). -/
def engineHolds (s : State) (e : EP) (engine : Nat) : Nat :=
  if engine == 3 then (s.pkg (epPkg e)).colls.length
  else (s.cmds.filter fun c => c.engine == engine && c.ep == engineEp e engine && !c.landing).length

/-- The engine accepts a command of the thread, and the thread's counter is below its limit (R420). -/
def engineTakes (s : State) (e : EP) (t : Thread) (engine : Nat) : Bool :=
  match engine with
  | 0 => decide (t.cnt.cpc < 15 && engineHolds s e 0 < 32)
  | 1 => decide (t.cnt.cpc < 15 && engineHolds s e 1 < 256)
  | 2 => decide (t.cnt.code < 4 && engineHolds s e 2 < 8)
  | 3 => decide (t.cnt.coll < 4 && engineHolds s e 3 < 64)
  | _ => decide (t.cnt.cpc < 15)

/-- A record place is reserved where NOTIFY asks for one (R420). -/
def Thread.reserve (t : Thread) (w : List Word) : Thread :=
  if cNotify w then { t with cnt := { t.cnt with places := t.cnt.places + 1 } } else t

/-- The command leaves once the engine accepts it and the counters allow (R419, R420). -/
def pushGate (s : State) (u : Turn) (t : Thread) (engine : Nat) (w : List Word) (go : State → State) : State :=
  if !engineTakes s u.ep t engine then s.waitEver u (.engine engine)
  else if cNotify w && 16 ≤ t.cnt.places then s.waitEver u .places
  else go s

/-- A command of engines 0 to 2 as its engine holds it (R123, R419). -/
def newCmd (s : State) (u : Turn) (t : Thread) (engine : Nat) (w : List Word) (dims : List (Nat × Int × Int)) : State :=
  let eb := ((peerOf s (epPkg u.ep) t.sr.peermap 0).map (·.2)).getD 0
  let carry : Carry := if engine == 2 then ⟨never, 0, epPkg u.ep⟩ else carryOf u.ep t
  let c : Cmd :=
    { id := s.nextUid, engine := engine, ep := engineEp u.ep engine, req := reqOf u.ep u.slot t 17 eb, carry := carry, words := w,
      dims := dims, lbase := t.sr.lbase.toNat, peermap := t.sr.peermap, done := 0, total := shapeCount dims * 2 ^ cEsz w, mark := 0,
      flying := 0, failed := 0, bytes := 0, fault := false, refused := false, annulled := false, asked := false, pattern := none,
      landing := false }
  { s with cmds := s.cmds ++ [c], nextUid := s.nextUid + 1 }

/-- PUSH of a COPY or FILL (R419). A shape record is read as a local access of the thread: behind a seal (R189), with its banks (R46),
meeting its errors (R48). -/
def pushCopyOn (s : State) (u : Turn) (t : Thread) (a : Reg) (fill dist : Bool) : State :=
  let w := cmdWords t a
  let engine := if dist then 1 else 0
  let go := fun (s : State) =>
    s.checked u (checkCopy s u.ep t w fill dist u.head.toNat) fun dims =>
      let s := if dist then (coreXlate s u.ep t (cwn w 1 % 2 ^ 56)).2 else s
      pushGate s u t engine w fun s =>
        (newCmd s u t engine w dims).retire u fun t => ({ t with cnt := { t.cnt with cpc := t.cnt.cpc + 1 } }).reserve w
  s.checked u (checkForms w fill dist u.head.toNat) fun _ =>
    match shapeRecord s u.ep t w with
    | none => go s
    | some (phys, n) =>
      if anySealed s u.ep phys n then s.waitEver u (.unsealed phys n)
      else withBanks s u t fun s => go (meetErrors s u.ep phys n)

/-- The registers that the store comparator compares for a command. -/
def cmdRegs (a : Reg) : List Reg := (List.range 8).map fun i => a + BitVec.ofNat 5 i

/-- PUSH of a COPY on engine 0 or 1 (R419, R423). -/
def execPushCopy (gd : Guard) (a : Reg) (dist : Bool) (s : State) :=
  issue { op := 0x1A0, tail := b2n dist * 2 ^ 20, path := 2, illegal := true, ext := true, out := some 4, cmp := cmdRegs a } gd s
    fun u t s => pushCopyOn s u t a false dist

/-- PUSH of a FILL on engine 0 (R419, R424). -/
def execPushFill (gd : Guard) (a : Reg) (s : State) :=
  issue { op := 0x1A0, tail := 0, path := 2, illegal := true, ext := true, out := some 4, cmp := cmdRegs a } gd s
    fun u t s => pushCopyOn s u t a true false

/-- PUSH of a CODE on engine 2 (R419, R425). -/
def execPushCode (gd : Guard) (a : Reg) (s : State) :=
  issue { op := 0x1A0, tail := 2 * 2 ^ 20, path := 2, illegal := true, ext := true, out := some 4, cmp := cmdRegs a } gd s
    fun u t s =>
      let w := cmdWords t a
      s.checked u (checkCode s u.ep t w u.head.toNat) fun dims =>
        pushGate s u t 2 w fun s =>
          (newCmd s u t 2 w dims).retire u fun t => ({ t with cnt := { t.cnt with code := t.cnt.code + 1 } }).reserve w

/-- A completion record (R329). -/
def recordOf (w : List Word) (status failed bytes : Nat) : CompRec :=
  ⟨word (bitsAt (cwn w 0) 63 32 * 2 ^ 32 + min failed 0xFFFF * 2 ^ 16 + status * 2 ^ 8 + cKind w), word bytes⟩

/-- The chunks of n bytes: 64 KiB each, the last may be shorter (R133). -/
def chunksOf (n : Nat) : List Nat := List.range ((n + 65535) / 65536)

/-- A COLL as the collective engine begins it (R133, R427): what leaves for every rank, and what is expected of every other. A rank without a chunk
for the others lets them know its command by an empty one, so that each can match it (log 22). -/
def newColl (s : State) (u : Turn) (t : Thread) (w : List Word) : State :=
  let pkg := epPkg u.ep
  let k := colComm w
  let n := commSize s pkg k
  let me := commRank s pkg k
  let chunks := chunksOf (colBytes w)
  let others := (List.range n).filter (· != me)
  let sends := colOpn w != 3 || colRoot w == me
  let froms := if colOpn w == 3 then (if colRoot w == me then [] else [colRoot w]) else others
  let num := (tget (s.pkg pkg).collNums k).getD 0
  let nblocks := (colBytes w + 4095) / 4096
  let c : Coll :=
    { id := s.nextUid, req := reqOf u.ep u.slot t 17 0, carry := carryOf u.ep t, words := w, lbase := t.sr.lbase.toNat,
      peermap := t.sr.peermap, comm := k, num := num,
      toSend := if sends && !chunks.isEmpty then (me :: others).flatMap fun r => chunks.map fun c => (r, c)
        else others.map fun r => (r, chunks.length),
      toCome := froms.flatMap fun r => chunks.map fun c => (r, c),
      since := (s.pkgNow pkg).toNat, lastFrom := [], flying := 0,
      parts := if colReduces w then (List.range nblocks).map fun b => (b, none, n - 1) else [], bytes := 0, isOver := none }
  { s with nextUid := s.nextUid + 1 }.modPkg pkg fun p => { p with colls := p.colls ++ [c], collNums := tput k (num + 1) p.collNums }

/-- PUSH of a COLL on engine 3 (R419, R426): on a communicator that is invalid or of another context it completes with status refused
(R132). -/
def execPushColl (gd : Guard) (a : Reg) (s : State) :=
  issue { op := 0x1A0, tail := 3 * 2 ^ 20, path := 0x40, illegal := true, ext := true, out := some 4, cmp := cmdRegs a } gd s
    fun u t s =>
      let w := cmdWords t a
      s.checked u (checkColl s u.ep t w u.head.toNat) fun _ =>
        pushGate s u t 3 w fun s =>
          if commServes s (epPkg u.ep) (colComm w) t.ctx then
            (newColl s u t w).retire u fun t => ({ t with cnt := { t.cnt with coll := t.cnt.coll + 1 } }).reserve w
          else s.retire u fun t =>
            let t := t.reserve w
            if cNotify w then { t with recs := t.recs ++ [recordOf w 3 0 0] } else t

/-- PUSH on engine 4 (R84, R419): the target's translation is synchronous, the words are not looked at. Where no peer-map entry names the target's
package R283 gives no INFO for cause 0x13: the model puts bits 49:40 of the address there (DESIGN CHOICE, log 83). -/
def execPushProgram (gd : Guard) (a b : Reg) (s : State) :=
  issue { op := 0x1A0, tail := 4 * 2 ^ 20, path := 2, illegal := true, ext := true, out := some 4, cmp := b :: cmdRegs a } gd s
    fun u t s =>
      let ea := gr t b
      s.checked u (checkDv ea) fun va =>
      withXlate s u t ea va true false fun s x =>
        let (home, pa, _, _) := dramTarget s (epPkg u.ep) x va
        match ebitOf s (epPkg u.ep) t.sr.peermap (paPkg pa) with
        | none => s.raise u 0x13 ea (peerIndex ea)
        | some eb =>
          if !engineTakes s u.ep t 4 then s.waitEver u (.engine 4)
          else
            (s.send u.ep home (vcOfThread s u.ep t) (reqOf u.ep u.slot t 18 eb) (carryOf u.ep t) (.program (cmdWords t a))).retire u
              fun t => { t with cnt := { t.cnt with cpc := t.cnt.cpc + 1 } }

/-- POPC.REC (R421). -/
def execPopcRec (gd : Guard) (d a : Reg) (s : State) :=
  issue { op := 0x1A1, holds := true, ext := true, dst := regRun d 2 } gd s fun u t s =>
    match t.recs with
    | r :: rest => s.retire u fun t =>
      ((({ t with recs := rest, cnt := { t.cnt with places := t.cnt.places - 1 } }).putG d r.w0).putG (d + 1) r.w1).p7 true
    | [] => s.waitFor u t .record (gr t a)

end Sys2Proof.Machine
end

