-- ==== Sys2Proof/Machine/Lines.lean ====
section
/-! DEFINITION. Memory cores' line buffers and mirrored pages (03): LINE_BUFFER_ACCESS, LINE_FILL_COMPLETE, VICTIM_WRITEBACK,
PATROL_SCRUB_READ, MIRROR_WRITE_APPLY. -/

namespace Sys2Proof.Machine

/-- A packet without the k-th. -/
def State.dropPkt (s : State) (k : Nat) : State := { s with net := dropAt k s.net }

/-- A write on its way from the primary home of a mirrored page to the other (R98). -/
def Pkt.mirrors (p : Pkt) : Bool := match p.body with
  | .mirrorWrite .. => true
  | _ => false

/-- An earlier packet of the same source, destination and channel is still on its way (R108, R110): this one may not overtake it. Writes to a mirror
home keep the primary's order whatever their channels (R98). An access that waits at the line-buffer port has arrived: it holds back those of its
thread (R140) and the writes behind a mirrored one, and others go on (R81). -/
def overtakes (s : State) (k : Nat) (p : Pkt) : Bool :=
  (s.net.take k).any fun q => q.src == p.src && q.dst == p.dst && q.stage != .lost &&
    (if q.ticket != 0 && !(usesLines q.body).isEmpty then (q.vc == p.vc && q.req.uid == p.req.uid) || (q.mirrors && p.mirrors)
     else q.vc == p.vc || (q.mirrors && p.mirrors))

/-- A channel is held at an endpoint under back-pressure: by a message that waits for its thread (R120), or a remote full/empty access
that waits for a place in the list (R56). -/
def channelHeld (s : State) (e : EP) (vc : Nat) : Bool :=
  vc != 0 && (((s.core e).held.any fun h => h.chan && ctxVc s (epPkg e) h.ctx == vc)
    || (s.core e).overflow.any fun x => !x.local_ && ctxVc s (epPkg e) x.req.ctx == vc)

/-- The k-th packet, where it has arrived, overtakes none, and its channel is not held. -/
def arrivedPkt (s : State) (k : Nat) : Option Pkt := match s.net[k]? with
  | some p => if p.stage == .arrived && !overtakes s k p && !channelHeld s p.dst p.vc then some p else none
  | none => none

/-- A proxy that nothing references any more, once no packet of its package carries it (R207, R209): it ends. -/
def reapProxy (s : State) (pkg h : Nat) : State := match s.lapse? pkg h with
  | some x =>
    if x.kind == .proxy && x.ref == 0 && !(s.net.any fun q => q.stage == .arrived && epPkg q.dst == pkg && q.carry.hnd.toNat == h) then
      endProxy s pkg h x
    else s
  | none => s

/-- The request that replies to a packet keep with them (R100): one of a mirrored page that came from another package, or of a mirrored write
the request that its primary served. -/
def Pkt.asking (p : Pkt) : Option Asked :=
  let self : Option Asked := if epPkg p.src == epPkg p.dst then none else some ⟨p.src, p.dst, p.vc, p.sent, p.body⟩
  match p.body with
  | .mirrorWrite .. => p.asked
  | .dram _ _ _ _ mpkg _ => if mpkg.isSome then self else none
  | .pieceRead _ src .. | .patternRead _ src .. => if src.mpkg.isSome && src.dram && !src.mir then self else none
  | .pieceWrite _ dst (some _) .. => if dst.mpkg.isSome && dst.dram then self else none
  | _ => none

/-- A packet replies to a request of a mirrored page: the answer, the write at the other home before it, or what was read; of a read for several
destinations that of this one. -/
def Pkt.repliesTo (q p : Pkt) (a : Asked) : Option Asked := match q.body with
  | .answer _ => if q.req == p.req then some a else none
  | .mirrorWrite .. => some a
  | .pieceEnd .. | .pattern .. => some a
  | .pieceWrite _ dst (some _) .. => (match a.body with
    | .pieceRead id src len _ need engine => some { a with body := .pieceRead id src len [dst] need engine }
    | _ => none)
  | _ => none

/-- Once a packet has been served, those that it has left behind carry the request that they reply to; `s` is the state before. -/
def State.noteReplies (s s' : State) (p : Pkt) : State := match p.asking with
  | none => s'
  | some a =>
    let n := s.net.length - 1
    let waiting := fun (s : State) => s.net.countP fun q => { q with ticket := 0 } == { p with ticket := 0 }
    if waiting s' < waiting s then
      { s' with net := s'.net.take n ++ (s'.net.drop n).map fun q => { q with asked := q.repliesTo p a } }
    else s'

/-- What an arrived packet does at its endpoint; a proxy that only it kept ends. -/
def onPacket (s : State) (k : Nat) (f : Pkt → State) : State := match arrivedPkt s k with
  | some p => reapProxy (s.noteReplies (f p) p) (epPkg p.dst) p.carry.hnd.toNat
  | none => s

/-- The rectangle that holds a core has closed its boundary (R105). -/
def closedAt (s : State) (e : EP) : Bool := match rectOf s e with
  | some r => (s.die (dieKey e)).closed.toList.getD r false
  | none => false

/-- The channel of a context's request (R110, R111): a packet on another one is refused. What the host and the units of the package send names no
channel of a context, and remote enqueues come on VC2. -/
def wrongChannel (s : State) (e : EP) (p : Pkt) : Bool :=
  !(epKind p.src == 3 && (epX p.src == 1 || epX p.src == 3)) && p.vc != 2 && p.vc != ctxVc s (epPkg e) p.req.ctx

/-- A packet counts in its context's probe domain (R278): messages, enqueue items, STF (one to the bridge window and one of a region too), RED
and REMUP that leave their core; host writes and MST do not. -/
def Pkt.probed (p : Pkt) : Bool := match p.body with
  | .access _ _ _ acc _ _ here => acc.probed && !here && epKind p.src != 3
  | .window _ acc _ => acc.probed && epKind p.src != 3
  | .dram _ (.atom _ _ _ _ ret) _ _ _ _ => !ret
  | .message .. | .enq .. => true
  | .region (.access a) => a.probed
  | _ => false

/-- A packet is done with at an interface: taken off the net, and counted there (R278). -/
def takePkt (s : State) (k : Nat) (e : EP) (p : Pkt) : State :=
  let s := s.dropPkt k
  if p.probed then countIn s e p.req.ctx else s

/-- Bytes written into a line that the buffer holds: the line is dirty, its words written whole hold no error, and with all of its
bytes written it is ochre no more (R81, R95). -/
def putLine (s : State) (e : EP) (pa : Nat) (bs : List (BitVec 8)) : State :=
  s.modLine e (lineOfPa pa) fun b => { b with
    data := BitVec.ofNat 512 (patchLine b.data.toNat (pa % 64) bs), dirty := true, ochre := false,
    upsets := b.upsets.filter fun (w, _) => !(pa ≤ b.line + 8 * w && b.line + 8 * w + 8 ≤ pa + bs.length) }

/-- An access of up to 8 bytes applied in the line buffer, which holds its line (R82, R96, R174): what it answers. -/
def lineApply (s : State) (e : EP) (pa : Nat) (acc : Access) (ebit : Nat) : State × Answer :=
  let s := match acc with
    | .store .. => s
    | _ => meetLineErrors s e pa acc.size
  match (s.core e).mem.buf.find? (·.line == lineOfPa pa) with
  | none => (s, .refused)
  | some b =>
    if b.ochre || (s.core e).mgmt.failed then (s, .ochre 1 ebit)
    else
      let old := b.data.toNat / 2 ^ (8 * (pa % 64)) % 2 ^ (8 * acc.size)
      match acc with
      | .load n sg => (s, .value (extend n sg old) 0)
      | .store n v => (putLine s e pa (leBytes n v), .ack 0)
      | .atom op dbl v cmp ret =>
        let (x, fl) := atomNew op dbl old v.toNat cmp.toNat
        (putLine s e pa (leBytes acc.size x), if ret then .value old fl else .ack fl)
      | _ => (s, .refused)

/-- What the writer is answered with one home lost (R99). -/
def withLost (a : Answer) (lost other : Nat) : Answer := match a with
  | .value v f => .mirrorLost v f lost other
  | .ack f => .mirrorLost 0 f lost other
  | a => a

/-- The physical address at the other home of a mirrored page (R98). -/
def otherPa (pa pkg : Nat) : Nat := pkg * 2 ^ 46 + pa % 2 ^ 46

/-- The end of a mirrored write is told (R99). -/
def mirrorTell (s : State) (src : EP) (req : Req) (carry : Carry) (fin : MirrorEnd) : State := match fin with
  | .answer a => s.respond src req carry (req.ep == src) a
  | .piece cmd len engine => s.send src engine 0 req carry (.pieceEnd cmd len .written)
  | .resolve dk r ep => s.sendRegion ep (unitEp dk) req carry (.resolveAck r ep)

/-- The same with one home lost: the sticky bit of R99 is set besides. -/
def mirrorTellLost (s : State) (src : EP) (req : Req) (carry : Carry) (fin : MirrorEnd) (lost other : Nat) : State := match fin with
  | .answer a => s.respond src req carry (req.ep == src) (withLost a lost other)
  | .piece cmd len engine =>
    (s.answer src { req with entry := 17 } carry (.mirrorLost 0 0 lost other)).send src engine 0 req carry (.pieceEnd cmd len .written)
  | .resolve dk r ep =>
    (s.answer src { req with entry := 17 } carry (.mirrorLost 0 0 lost other)).sendRegion ep (unitEp dk) req carry (.resolveAck r ep)

/-- The sticky bit of R21 for a package, as the requester's peer map has it. -/
def mirrorBit (s : State) (req : Req) (pkg : Nat) : Nat :=
  match s.thrWhere req.ep (locate s req.ep req.uid) with
  | some t => (ebitOf s (epPkg req.ep) t.sr.peermap pkg).getD req.ebit
  | none => req.ebit

/-- A mirrored write that the mirror home cannot apply, to a part of an ochre line there (R96): it fails as at the primary, with the
sticky bit of the mirror's package. -/
def mirrorOchre (s : State) (src : EP) (req : Req) (carry : Carry) (fin : MirrorEnd) : State :=
  let bit := mirrorBit s req (epPkg src)
  let mark := fun (s : State) => s.answer src { req with entry := 17, ebit := bit } carry .refused
  match fin with
  | .answer _ => s.respond src req carry (req.ep == src) (.ochre 1 bit)
  | .piece cmd len engine => (mark s).send src engine 0 req carry (.pieceEnd cmd len .fault)
  | .resolve dk r ep => (mark s).sendRegion ep (unitEp dk) req carry (.resolveAck r ep)

/-- A write has been applied at one home: the other home of a mirrored page follows, or is lost (R98, R99). What follows is the primary's own packet
under the system handle, which no lapse keeps from the mirror; its replies carry what the request carried (R212; log 35). -/
def mirrorOn (s : State) (e : EP) (pa : Nat) (data : List (BitVec 8)) (mpkg : Option Nat) (mir : Bool) (vc : Nat) (req : Req)
    (carry : Carry) (fin : MirrorEnd) : State :=
  match mpkg with
  | none => mirrorTell s e req carry fin
  | some m =>
    if mir then mirrorTellLost s e req carry fin m (epPkg e)
    else if isLost s (epPkg e) m then mirrorTellLost s e req carry fin m (epPkg e)
    else s.send e (homeOf (otherPa pa m)) vc req ⟨never, 0, epPkg e⟩ (.mirrorWrite (otherPa pa m) data fin (outCarry s carry))

/-- A packet's item is dropped after a lapse (R216, R219, R224). -/
def lapseDrop (s : State) (e : EP) (p : Pkt) (stores : Nat) : State :=
  reportItem s (epPkg e) p.carry 0 0 stores

/-- LINE_BUFFER_ACCESS (R82): the k-th packet, an access to a DRAM word, is applied at its home once the buffer holds the line and no
sealed entry holds it back (R189); one whose instant has lapsed is not applied (R216). -/
def execLineBufferAccess (k : Nat) (s : State) : Host.Outcome State Fault Refusal :=
  .next (onPacket s k fun p => match p.body with
      | .dram pa acc _ _ mpkg mir =>
        let e := p.dst
        if expired s e p.carry then lapseDrop (takePkt s k e p) e p (b2n acc.counts)
        else if p.req.ep != e && wrongChannel s e p then (takePkt s k e p).answer e p.req p.carry .refused
        else atPort s k p [lineOfPa pa] fun s =>
          if anySealed s e (dramKey pa) acc.size then s.offPort k
          else
            let s := takePkt s k e p
            let s := if acc.writes then abortPlain s e (dramKey pa) acc.size else s
            let reads := match acc with
              | .load .. => true
              | .atom _ _ _ _ ret => ret
              | _ => false
            let s := match mpkg with
              | some m => if mir && reads then s.event (epPkg p.req.ep) 0x0040 m e 255 (word pa) else s
              | none => s
            (match lineApply s e pa acc p.req.ebit with
              | (s, .ochre i b) => s.respond e p.req p.carry (p.req.ep == e) (.ochre i b)
              | (s, a) =>
                if acc.writes then
                  let data := leBytes acc.size (physWord s pa acc.size)
                  mirrorOn s e pa data mpkg mir p.vc p.req p.carry (.answer a)
                else s.respond e p.req p.carry (p.req.ep == e) a)
      | _ => s)

/-- LINE_FILL_COMPLETE (R81, R92, R93, R95): the k-th entry of the buffer, a line being filled, arrives and is decoded; a corrected
line is dirty, an uncorrectable one turns ochre. What a failed channel gives is looked at only once it has been restored (R97). -/
def execLineFillComplete (e k : Nat) (s : State) : Host.Outcome State Fault Refusal :=
  .next (match (s.core e).mem.buf[k]? with
    | none => s
    | some b =>
      if !b.filling then s
      else
        let r := readLine s b.line
        if r.marker || (r.bad && (s.core e).mgmt.failed) then s.modLine e b.line fun b => { b with ochre := true, filling := false }
        else if r.bad then makeOchre s e b.line 0x0012
        else
          (countFixed s e r.fixed).modLine e b.line fun b =>
            { b with data := BitVec.ofNat 512 r.data, dirty := !r.fixed.isEmpty, filling := false })

/-- VICTIM_WRITEBACK (R81, R83, R97): the k-th entry of the buffer, a victim, meets its errors, is written to DRAM and its way is free. After three retries
without success its line takes the marker, and a failed marker write declares the channel failed. -/
def execVictimWriteback (e k : Nat) (ok markOk : Bool) (s : State) : Host.Outcome State Fault Refusal :=
  .next (match (s.core e).mem.buf[k]? with
    | none => s
    | some b =>
      if !b.writing then s
      else
        let gone := fun (s : State) => s.modBuf e fun l => l.filter (·.line != b.line)
        let s := meetLineErrors s e b.line 64
        if (bufLine? s b.line).any (·.ochre) then gone s
        else if ok then gone (storeLine s b.line b.data.toNat)
        else
          let s := gone (s.event (epPkg e) 0x0013 0 e 255 (word b.line))
          if markOk then storeMarker s b.line
          else (s.modCore e fun c => { c with mgmt := { c.mgmt with failed := true } }).event (epPkg e) 0x0014
            (channelOf b.line) e 255 0)

/-- PATROL_SCRUB_READ (R94, R92, R93, R95): a line of the channel that the buffer does not hold is read and decoded; a corrected line enters the
buffer, its corrections counted, and is rewritten on eviction, an uncorrectable one enters it ochre and takes the marker. Where no way is free
for it the scrubber comes back to it. -/
def execPatrolScrubRead (e line : Nat) (s : State) : Host.Outcome State Fault Refusal :=
  .next (
    if line % 64 != 0 || !populated line 64 || homeOf line != e || (s.core? e).isNone || (s.core e).mgmt.failed then s
    else
      let r := readLine s line
      let clean := (bufLine? s line).isSome || r.marker || (!r.bad && r.fixed.isEmpty)
      if !clean && !canEnter s e line then s
      else
        let s := s.modCore e fun c => { c with mem := { c.mem with scrub := line + 64 } }
        if clean then s else enterRead s e line)

/-- Bytes written into lines that the buffer holds; a part of an ochre line is not applied (R96). -/
def putParts (s : State) (e : EP) (pa : Nat) (bs : List (BitVec 8)) : State :=
  (lineParts pa bs).foldl (fun s (line, off, part) =>
    match (s.core e).mem.buf.find? (·.line == line) with
    | some b => if (b.ochre || (s.core e).mgmt.failed) && part.length < 64 then s else putLine s e (line + off) part
    | none => s) s

/-- MIRROR_WRITE_APPLY (R98, R99, R111): the k-th packet, a write that the primary has applied, is applied at the mirror home, and the
writer is told; one refused there fares as with the mirror home lost. -/
def execMirrorWriteApply (k : Nat) (s : State) : Host.Outcome State Fault Refusal :=
  .next (onPacket s k fun p => match p.body with
      | .mirrorWrite pa data fin orig =>
        let back := localCarry s (epPkg p.dst) orig
        if wrongChannel s p.dst p then mirrorTellLost (s.dropPkt k) p.dst p.req back fin (epPkg p.dst) (epPkg p.src)
        else atPort s k p (linesOf pa data.length) fun s =>
          if anySealed s p.dst (dramKey pa) data.length then s.offPort k
          else
          let s := abortPlain s p.dst (dramKey pa) data.length
          let part := (lineParts pa data).any fun (line, _, x) =>
            x.length < 64 && ((s.core p.dst).mgmt.failed || ((s.core p.dst).mem.buf.find? (·.line == line)).any (·.ochre))
          if part then mirrorOchre (s.dropPkt k) p.dst p.req back fin
          else mirrorTell (putParts (s.dropPkt k) p.dst pa data) p.dst p.req back fin
      | _ => s)

/-- A home is declared lost by a package (R100). -/
def declareLost (s : State) (own pkg : Nat) : State :=
  if isLost s own pkg then s
  else (s.modPkg own fun p => { p with lost := p.lost ++ [pkg] }).event own 0x0041 pkg (gatewayEp own 0 0 0) 255 0

/-- The package's mirror timeout has passed since a packet left (R100). -/
def mirrorLate (s : State) (p : Pkt) : Bool :=
  decide (p.sent + (s.pkg (epPkg p.src)).bridge.mirrto.toNat * 1000 ≤ (s.now p.src).toNat)

end Sys2Proof.Machine
end

