-- ==== Sys2Proof/Machine/Matrix.lean ====
section
/-! DEFINITION. Operand slots, accumulator tiles and the tile path (02, 16): OCLAIM, OREL, OLD, MMA, ARD, AWR, ACLR, MSTAT, TBLD,
and the events of the transfer unit, the matrix array and the tile write queue. -/

namespace Sys2Proof.Machine

/-- The K depth of a format (R61); 0 for a type that no operand slot holds. -/
def depthOf : Ty → Nat
  | .df => 32
  | .sf => 64
  | .bf | .hf => 128
  | .e4 | .e5 | .lg | .i8 => 256
  | _ => 0

/-- The tile kind of a pairing (R238), or none where it is not allowed. -/
def pairKind (ta tb : Ty) : Option TileKind := match ta, tb with
  | .df, .df => some .fp64
  | .sf, .sf | .bf, .bf | .hf, .hf | .lg, .lg => some .fp32
  | .e4, .e4 | .e4, .e5 | .e5, .e4 | .e5, .e5 => some .fp32
  | .i8, .i8 => some .i32
  | _, _ => none

/-- The pairing sums blocks of 32 steps (R239) and may be scaled (R412). -/
def blockPair (ta : Ty) : Bool := ta == .e4 || ta == .e5 || ta == .lg

/-- KIND of a tile as a code (R68). -/
def TileKind.code : TileKind → Nat
  | .none => 0 | .fp64 => 1 | .fp32 => 2 | .i32 => 3

/-- The tile kind of a code (R415). -/
def kindOfCode : Nat → TileKind
  | 1 => .fp64 | 2 => .fp32 | 3 => .i32 | _ => .none

/-- The tile kind and the cell width of a type of ARD and AWR (R416). -/
def cellKind : Ty → TileKind × Nat
  | .df => (.fp64, 64)
  | .sf => (.fp32, 32)
  | _ => (.i32, 32)

/-- What an operation reads of slots (n) and tiles (32 + n) (R407). -/
def TileOp.reads : TileOp → List Nat
  | .mma a b .. => [a, b]
  | .ard tile .. => [32 + tile]
  | _ => []

/-- What an operation writes. -/
def TileOp.writes : TileOp → List Nat
  | .old slot .. | .copyIn slot _ => [slot]
  | .awr tile .. | .aclr tile _ => [32 + tile]
  | .mma _ _ tile .. => [32 + tile]
  | .ard .. => []

/-- An operation of the transfer unit. -/
def TileOp.transfers : TileOp → Bool
  | .old .. | .ard .. | .awr .. => true
  | _ => false

/-- An MMA. -/
def TileOp.isMma : TileOp → Bool
  | .mma .. => true
  | _ => false

/-- Lists share an item. -/
def meets (a b : List Nat) : Bool := a.any b.contains

/-- An operation waits for an earlier one that writes what it reads or writes, or reads what it writes (R407). -/
def blockedBy (op earlier : TileOp) : Bool :=
  meets earlier.writes op.reads || meets earlier.writes op.writes || meets earlier.reads op.writes

/-- The k-th operation of a core may apply: nothing earlier holds it back. -/
def jobReady (jobs : List TileJob) (k : Nat) : Bool := match jobs[k]? with
  | some j => !((jobs.take k).any fun i => blockedBy j.op i.op)
  | none => false

/-- The slot as the group of a thread claims it (R64); none where it does not. -/
def claimed (s : State) (e : EP) (t : Thread) (n : Nat) : Option OpSlot :=
  if n < 32 then (tget (s.core e).opslots n).filter fun o => o.owner == (t.ctx, t.vcore) else none

/-- The slot that a register names, or the trap 0x19 (R407). INFO has 5 bits for the number: of one above 31 the model gives the low five (DESIGN
CHOICE, log 83). -/
def checkSlot (s : State) (e : EP) (t : Thread) (w : Word) : Checked OpSlot :=
  match claimed s e t w.toNat with
  | some o => .ok o
  | none => .error ⟨0x19, 0, w.toNat % 32⟩

/-- The physical tile that a register names, or the trap 0x1A (R65, R407), with INFO as for a slot (log 83). -/
def checkTile (s : State) (e : EP) (t : Thread) (w : Word) : Checked (Nat × Tile) :=
  match (s.core e).tiles.find? fun (_, x) => x.owner == (t.ctx, t.vcore) && x.name == w.toNat with
  | some x => .ok x
  | none => .error ⟨0x1A, 0, w.toNat % 32⟩

/-- The kind of a tile once every earlier-issued operation on it has applied (R408). -/
def issuedKind (jobs : List TileJob) (tile : Nat) (kind : TileKind) : TileKind :=
  jobs.foldl (fun k j => match j.op with
    | .aclr x nk => if x == tile then nk else k
    | .awr x _ _ _ nk => if x == tile then nk else k
    | .mma _ _ x ta tb .. => if x == tile && k == .none then (pairKind ta tb).getD .none else k
    | _ => k) kind

/-- FMT of a slot once every earlier-issued OLD of it has applied (DEDUCED from the worked sequence of R418, log 18). -/
def issuedFmt (jobs : List TileJob) (slot : Nat) (fmt : Option (Ty × Bool)) : Option (Ty × Bool) :=
  jobs.foldl (fun f j => match j.op with
    | .old x _ _ ty lay => if x == slot then some (ty, lay) else f
    | _ => f) fmt

/-- Type and layout of SFA or SFB (R325). -/
def shadowFmt (w : BitVec 5) : Option (Ty × Bool) := (ty? (w.toNat % 16)).map fun ty => (ty, bitAt w.toNat 4)

/-- A kind differs from a tile's kind, other than none (R66). -/
def kindClash (have_ want : TileKind) : Bool := have_ != .none && have_ != want

/-- An operation joins the tile path (R407). -/
def addJob (s : State) (u : Turn) (t : Thread) (op : TileOp) : State :=
  s.modCore u.ep fun c => { c with jobs := c.jobs ++
    [⟨op, reqOf u.ep u.slot t 16 0, t.ctx, t.vcore, false, false, false, 0, 0⟩] }

/-- OCLAIM (R409, R62): the lowest free slot, where the group's allotment is not used up; it is cleared. -/
def execOclaim (gd : Guard) (d : Reg) (s : State) :=
  issue { op := 0x180, holds := true, ext := true, dst := [d.toNat] } gd s fun u t s =>
    let c := s.core u.ep
    let used := (c.opslots.filter fun (_, o) => o.owner == (t.ctx, t.vcore)).length
    let room := match groupOf s u.ep t.ctx t.vcore with
      | some g => decide (used < g.ops)
      | none => false
    match (if room then (List.range 32).find? fun n => (tget c.opslots n).isNone else none) with
    | none => s.retire u (·.p7 false)
    | some n =>
      (s.modCore u.ep fun c => { c with
        opslots := tput n ⟨(t.ctx, t.vcore), none, false⟩ c.opslots, opmem := mclear c.opmem (n * 8192) 8192,
        broken := c.broken.filter (· != .operand n) }).retire u
        fun t => (t.putG d (word n)).p7 true

/-- An OLD or copy write of a slot is in flight (R64). -/
def slotWriting (s : State) (e : EP) (n : Nat) : Bool :=
  ((s.core e).jobs.any fun j => match j.op with
    | .old x .. => x == n
    | _ => false)
  || s.net.any fun p => match p.body with
    | .pieceWrite _ dst .. => dst.ep == e && !dst.dram && dst.vcore.isNone && dst.addr / 8192 == 192 + n
    | _ => false

/-- An MMA that reads a slot is running (R64, R410). -/
def slotReading (s : State) (e : EP) (n : Nat) : Bool :=
  (s.core e).jobs.any fun j => j.run && j.op.reads.contains n

/-- OREL (R410, R64). -/
def execOrel (gd : Guard) (a : Reg) (s : State) :=
  issue { op := 0x181, ext := true, out := some 8, cmp := [a] } gd s fun u t s =>
    let n := (gr t a).toNat
    s.checked u (checkSlot s u.ep t (gr t a)) fun _ =>
      if slotWriting s u.ep n then s.raise u 0x19 0 n
      else if slotReading s u.ep n then s.waitEver u (.slotFree n)
      else (s.modCore u.ep fun c => { c with opslots := tdelete n c.opslots }).retire u id

/-- A row stride: 0 stands for the row's bytes; else a multiple of 8 and at least those (R411, R416). -/
def strideOf (w : Word) (row : Nat) : Option Nat :=
  if w == 0 then some row else if w.toNat % 8 == 0 && row ≤ w.toNat then some w.toNat else none

/-- The physical offset of 32 rows (R411, R416): the extent, then the alignment. -/
def checkRows (s : State) (e : EP) (t : Thread) (a : Word) (stride row : Nat) : Checked Nat :=
  match checkLocal s e t a (31 * stride + row), checkAlignedOf a 8 row with
  | .error tr, _ => .error tr
  | _, .error tr => .error tr
  | .ok phys, .ok _ => .ok phys

/-- TLC is raised (R115). -/
def Thread.tlcUp (t : Thread) : Thread := { t with cnt := { t.cnt with tlc := t.cnt.tlc + 1 } }
/-- TLC drops (R142). -/
def Thread.tlcDown (t : Thread) : Thread := { t with cnt := { t.cnt with tlc := t.cnt.tlc - 1 } }

/-- OLD (R411). -/
def execOld (gd : Guard) (a b c : Reg) (ty : Ty) (layB : Bool) (s : State) :=
  issue { op := 0x182, path := 4, illegal := true, ext := true, out := some 8, cmp := [a, b, c] } gd s fun u t s =>
    let n := (gr t b).toNat
    if depthOf ty == 0 then s.raise u 0x19 0 (n % 32)
    else s.checked u (checkSlot s u.ep t (gr t b)) fun _ =>
      match strideOf (gr t c) 256 with
      | none => s.raise u 0x02 0 u.head.toNat
      | some stride => s.checked u (checkRows s u.ep t (gr t a) stride 256) fun phys =>
        if 15 ≤ t.cnt.tlc then s.waitEver u .tlcRoom
        else (addJob s u t (.old n phys stride ty layB)).retire u (·.tlcUp)

/-- A row of 256 bytes, or of a tile, touches an ochre granule. -/
def ochreRows (s : State) (e : EP) (phys stride row : Nat) : Bool := (List.range 32).any fun i => anyOchre s e (phys + i * stride) row

/-- Rows that are read meet their errors (R48). -/
def meetRows (s : State) (e : EP) (phys stride row : Nat) : State := (List.range 32).foldl (fun s i => meetErrors s e (phys + i * stride) row) s

/-- A sealed entry holds back the reading of rows (R189). -/
def sealedRows (s : State) (e : EP) (phys stride row : Nat) : Bool := (List.range 32).any fun i => anySealed s e (phys + i * stride) row

/-- The scale ranges of R412 step 5, as physical offsets. -/
def checkScales (s : State) (e : EP) (t : Thread) (kl : Nat) : Checked (Nat × Nat) :=
  let n := 32 * 31 + 4 * ((kl + 31) / 32)
  let sa : Word := t.sr.ssa.setWidth 64
  let sb : Word := t.sr.ssb.setWidth 64
  match checkLocal s e t sa n, checkLocal s e t sb n, checkAligned sa 4, checkAligned sb 4 with
  | .error tr, _, _, _ => .error tr
  | _, .error tr, _, _ => .error tr
  | _, _, .error tr, _ => .error tr
  | _, _, _, .error tr => .error tr
  | .ok pa, .ok pb, .ok _, .ok _ => .ok (pa, pb)

/-- MMA (R412): the thread parks with kind 8 until the MMA ends. Where its formats, layouts or K limit fail two slots are involved and R283 names one
number: the model gives slot A's (DESIGN CHOICE, log 83). -/
def execMma (gd : Guard) (a b c : Reg) (zf sc : Bool) (k : BitVec 9) (s : State) :=
  issue { op := 0x183, path := 4, illegal := true, holds := true, ext := true, out := some 8, cmp := [a, b, c] } gd s fun u t s =>
    let na := (gr t a).toNat
    let nb := (gr t b).toNat
    let jobs := (s.core u.ep).jobs
    s.checked u (checkSlot s u.ep t (gr t a)) fun oa =>
    s.checked u (checkSlot s u.ep t (gr t b)) fun ob =>
    s.checked u (checkTile s u.ep t (gr t c)) fun x =>
      match (issuedFmt jobs na oa.fmt).or (shadowFmt t.sr.sfa), (issuedFmt jobs nb ob.fmt).or (shadowFmt t.sr.sfb) with
      | some (ta, false), some (tb, true) =>
        (match pairKind ta tb with
        | none => s.raise u 0x19 0 na
        | some kind =>
          let kl := if k == 0 then depthOf ta else k.toNat
          if sc && !blockPair ta then s.raise u 0x19 0 na
          else if depthOf ta < kl then s.raise u 0x19 0 na
          else if kindClash (issuedKind jobs x.1 x.2.kind) kind then s.raise u 0x1A 0 x.2.name
          else
            let go := fun (s : State) (p : Nat × Nat) =>
              (addJob s u t (.mma na nb x.1 ta tb zf sc kl p.1 p.2 2)).parkAt u .mma 8 2 false none 0 0
            if sc then s.checked u (checkScales s u.ep t kl) (go s) else go s (0, 0))
      | _, _ => s.raise u 0x19 0 na

/-- ARD and AWR (R416): checks in their order, then TLC and the transfer unit. -/
def tileTransfer (s : State) (u : Turn) (t : Thread) (a b c : Reg) (ty : Ty) (write : Bool) : State :=
  let (kind, w) := cellKind ty
  s.checked u (checkTile s u.ep t (gr t b)) fun x =>
    if kindClash (issuedKind (s.core u.ep).jobs x.1 x.2.kind) kind then s.raise u 0x1A 0 x.2.name
    else match strideOf (gr t c) (4 * w) with
    | none => s.raise u 0x02 0 u.head.toNat
    | some stride => s.checked u (checkRows s u.ep t (gr t a) stride (4 * w)) fun phys =>
      if 15 ≤ t.cnt.tlc then s.waitEver u .tlcRoom
      else if write && anyOchre s u.ep phys (31 * stride + 4 * w) then s.raise u 0x14 (gr t a) 0
      else (addJob s u t (if write then .awr x.1 phys stride w kind else .ard x.1 phys stride w)).retire u (·.tlcUp)

/-- ARD (R416). -/
def execArd (gd : Guard) (a b c : Reg) (ty : Ty) (s : State) :=
  issue { op := 0x184, path := 4, illegal := true, ext := true, out := some 8, cmp := [a, b, c] } gd s fun u t s =>
    tileTransfer s u t a b c ty false

/-- AWR (R416). -/
def execAwr (gd : Guard) (a b c : Reg) (ty : Ty) (s : State) :=
  issue { op := 0x185, path := 4, illegal := true, ext := true, out := some 8, cmp := [a, b, c] } gd s fun u t s =>
    tileTransfer s u t a b c ty true

/-- A tile changed. -/
def State.modTile (s : State) (e : EP) (n : Nat) (f : Tile → Tile) : State := s.modCore e fun c => { c with tiles := tmod n f c.tiles }

/-- ACLR applies (R415, R66): the kind, every cell 0, PROG and STOP 0. -/
def applyAclr (s : State) (e : EP) (n : Nat) (kind : TileKind) : State :=
  (s.modTile e n fun x => { x with kind := kind, stop := false, prog := 0 }).modCore e fun c =>
    { c with acc := mclear c.acc (n * 8192) 8192, broken := c.broken.filter (· != .acc n) }

/-- ACLR (R415): at once, or parked until the operations before it have applied. -/
def execAclr (gd : Guard) (a : Reg) (kind : BitVec 2) (s : State) :=
  issue { op := 0x186, path := 4, illegal := true, ext := true, out := some 8, cmp := [a] } gd s fun u t s =>
    s.checked u (checkTile s u.ep t (gr t a)) fun x =>
      let op : TileOp := .aclr x.1 (kindOfCode kind.toNat)
      let held := (s.core u.ep).jobs.any fun j => blockedBy op j.op
      if held && t.xf.isSome then s.waitEver u .xfence
      else if held then (addJob s u t op).parkAt u .mma 7 2 false none 0 0
      else (applyAclr s u.ep x.1 (kindOfCode kind.toNat)).retire u id

/-- The tile status word (R68). -/
def mstatWord (x : Tile) : Word := word (x.kind.code * 2 ^ 12 + b2n x.busy * 2 ^ 11 + b2n x.stop * 2 ^ 10 + x.prog)

/-- MSTAT (R417). -/
def execMstat (gd : Guard) (d a : Reg) (s : State) :=
  issue { op := 0x187, ext := true, dst := [d.toNat] } gd s fun u t s =>
    s.checked u (checkTile s u.ep t (gr t a)) fun x => s.retire u (·.putG d (mstatWord x.2))

/-- A running MMA holds an LG6 bank (R70). -/
def bankHeld (s : State) (e : EP) (bank : Nat) : Bool :=
  (s.core e).jobs.any fun j => j.run && match j.op with
    | .mma _ _ _ _ _ _ _ _ _ _ b => b == bank
    | _ => false

/-- TBLD (R418, R70). -/
def execTbld (gd : Guard) (a : Reg) (s : State) :=
  issue { op := 0x188, illegal := true, ext := true, out := some 8, cmp := [a] } gd s fun u t s =>
    let w := (gr t a).toNat
    if (List.range 4).any fun i => bitsAt w (16 * i + 15) (16 * i + 13) != 0 then s.raise u 0x02 0 u.head.toNat
    else
      let bank := 1 - (s.core u.ep).lg6.active
      if bankHeld s u.ep bank then s.waitEver u .bankFree
      else (s.modCore u.ep fun c => { c with lg6 :=
        { banks := setAt bank ((List.range 4).map fun i => bitsAt w (16 * i + 12) (16 * i)) c.lg6.banks,
          active := bank, gen := c.lg6.gen + 1 } }).retire u id

/-- An operation has applied and leaves the path. -/
def dropJob (s : State) (e : EP) (k : Nat) : State := s.modCore e fun c => { c with jobs := dropAt k c.jobs }

/-- The first operation of the transfer unit or of the array: only that one may run there (R407). -/
def unitHead (s : State) (e : EP) (p : TileOp → Bool) : Option (Nat × TileJob) :=
  let jobs := (s.core e).jobs
  match findPos (fun j : TileJob => p j.op) jobs with
  | some k => (if jobReady jobs k then jobs[k]?.map fun j => (k, j) else none)
  | none => none

/-- The thread of an operation, where it is now, changed: looked for from the core where it was issued, and where it has resumed on
another core (R293) in that core's slot. -/
def State.modIssuer (s : State) (e : EP) (uid : Nat) (f : Thread → Thread) : State :=
  match locate s e uid with
  | .gone =>
    (match s.cores.findSome? fun (x, c) => if epPkg x != epPkg e then none
        else (c.slots.find? fun (_, t) => t.uid == uid).map fun (k, _) => (x, k) with
    | some (x, k) => s.modThr x k f
    | none => s)
  | w => s.modWhere e w f

/-- The thread of an operation it is parked on goes on (R413, R415). -/
def endWait (s : State) (e : EP) (uid : Nat) (f : Thread → Thread) : State :=
  let w := locate s e uid
  match w, s.thrWhere e w with
  | .slot n, some t => (match t.park with
    | some p => if p.why == .mma then s.modThr e n fun t => (f t).done16 true p else s
    | none => s)
  | _, _ => s.modWhere e w f

/-- What is written whole reports no earlier error (R104). -/
def mendPart (s : State) (e : EP) (x : Broken) : State := s.modCore e fun c => { c with broken := c.broken.filter (· != x) }

/-- An ARD reads a tile whose accumulator memory reports a double-bit error (R104): an open rectangle consumes it, and outside every
rectangle the issuing thread takes the trap at its next turn (log 12). -/
def ardBroken (s : State) (e : EP) (tile uid : Nat) : State :=
  let (n, s) := (mendPart s e (.acc tile)).draw 1
  match rectOf s e, locate s e uid with
  | some r, _ => if arecState s (dieKey e) r == 0 then { consume s e r (Config.freeWord n) with turn := s.turn } else s
  | none, .slot k => s.modCore e fun c => { c with broken := addOnce (.regs k) c.broken }
  | none, _ => s

/-- OLD_COMPLETE (R411): the rows enter the slot, with FMT and POISON, once no sealed entry holds them back (R189). -/
def execOldComplete (e : Nat) (s : State) : Host.Outcome State Fault Refusal :=
  .next (match unitHead s e TileOp.transfers with
    | some (k, j) => (match j.op with
      | .old slot phys stride ty lay =>
        if sealedRows s e phys stride 256 then s else
        let s := meetRows s e phys stride 256
        let rows := (List.range 32).flatMap fun i => mbytes (s.core e).spad (phys + i * stride) 256
        let poison := ochreRows s e phys stride 256
        let s := s.modCore e fun c => { c with
          opmem := mputs (slot * 8192) rows c.opmem,
          opslots := tmod slot (fun o => { o with fmt := some (ty, lay), poison := poison }) c.opslots }
        (dropJob (mendPart s e (.operand slot)) e k).modIssuer e j.req.uid (·.tlcDown)
      | _ => s)
    | none => s)

/-- The byte of a cell of a tile (R65). -/
def cellAddr (tile i j : Nat) : Nat := tile * 8192 + (i * 32 + j) * 8

/-- The bytes of a row that ARD stores. -/
def rowBytes (s : State) (e : EP) (tile i w : Nat) (none_ : Bool) : List (BitVec 8) :=
  (List.range 32).flatMap fun j => leBytes (w / 8) (if none_ then 0 else mread (s.core e).acc (cellAddr tile i j) (w / 8))

/-- The parts of bytes at an address that lie in one 256-byte block each (R137). -/
def blockParts (a : Nat) (bs : List (BitVec 8)) : List (Nat × List (BitVec 8)) :=
  (blocks a bs.length 256).map fun b =>
    let x := max a (256 * b)
    (x, (bs.drop (x - a)).take (256 * b + 256 - x))

/-- Rows of an ARD enter the tile write queue while it has room (R137): the rows done. -/
def ardRows (s : State) (e : EP) (tile phys stride w : Nat) (none_ : Bool) (i : Nat) : Nat → Nat × State
  | 0 => (i, s)
  | n + 1 =>
    let parts := blockParts (phys + i * stride) (rowBytes s e tile i w none_)
    if (s.core e).tileQ.length + parts.length ≤ 32 then
      let s := parts.foldl (fun s (a, bs) => s.modCore e fun c =>
        { c with tileQ := c.tileQ ++ [⟨a, bs, c.tileNum⟩], tileNum := c.tileNum + 1 }) s
      ardRows s e tile phys stride w none_ (i + 1) n
    else (i, s)

/-- ARD_COMPLETE (R416): the rows that fit enter the tile write queue; with the last one TLC drops. -/
def execArdComplete (e : Nat) (s : State) : Host.Outcome State Fault Refusal :=
  .next (match unitHead s e TileOp.transfers with
    | some (k, j) => (match j.op with
      | .ard tile phys stride w =>
        if (s.core e).broken.contains (.acc tile) then (ardBroken (dropJob s e k) e tile j.req.uid).modIssuer e j.req.uid (·.tlcDown) else
        let none_ := ((tget (s.core e).tiles tile).map (·.kind)).getD .none == .none
        let (i, s) := ardRows s e tile phys stride w none_ j.step (32 - j.step)
        if i == 32 then (dropJob s e k).modIssuer e j.req.uid (·.tlcDown)
        else s.modCore e fun c => { c with jobs := modAt (fun j => { j with step := i }) k c.jobs }
      | _ => s)
    | none => s)

/-- The value that a cell takes of an ochre granule (R416). -/
def nanCell : TileKind → Nat
  | .fp64 => canonNan fmt64
  | .fp32 => canonNan fmt32
  | _ => 0x80000000

/-- AWR_COMPLETE (R416): kind, STOP and PROG, then every cell with the value read; a granule that has turned ochre gives the
canonical NaN with NV, or 0x8000_0000. A sealed entry holds the read back (R189). -/
def execAwrComplete (e : Nat) (s : State) : Host.Outcome State Fault Refusal :=
  .next (match unitHead s e TileOp.transfers with
    | some (k, j) => (match j.op with
      | .awr tile phys stride w kind =>
        if sealedRows s e phys stride (4 * w) then s else
        let s := meetRows s e phys stride (4 * w)
        let at_ := fun i c => phys + i * stride + c * (w / 8)
        let bad := fun i c => anyOchre s e (at_ i c) (w / 8)
        let cells := (List.range 32).flatMap fun i => (List.range 32).flatMap fun c =>
          leBytes 8 (if bad i c then nanCell kind else mread (s.core e).spad (at_ i c) (w / 8))
        let flags := if ochreRows s e phys stride (4 * w) then fNV else 0
        let s := (s.modTile e tile fun x => { x with kind := kind, stop := false, prog := 0 }).modCore e fun c =>
          { c with acc := mputs (tile * 8192) cells c.acc }
        (dropJob (mendPart s e (.acc tile)) e k).modIssuer e j.req.uid fun t => t.tlcDown.orFlags flags
      | _ => s)
    | none => s)

/-- Element k of row or column i of a slot (R61). -/
def elemAt (s : State) (e : EP) (slot : Nat) (ty : Ty) (i k : Nat) : Nat :=
  mread (s.core e).opmem (slot * 8192 + 256 * i + ty.width / 8 * k) (ty.width / 8)

/-- The LG6 table that a tile's MMAs use (R69). -/
def tileTable (s : State) (e : EP) (tile : Nat) : List Nat :=
  ((tget (s.core e).tiles tile).bind (·.table)).getD ((s.core e).lg6.banks.getD (s.core e).lg6.active [])

/-- A product of a block (R229, R239) and its flags. -/
def blockTerm (tab : List Nat) (ta tb : Ty) (x y : Nat) : FVal × Nat :=
  if ta == .lg then (lgMul tab x y, 0) else mulVal (unpack (fmtOf ta) x) (unpack (fmtOf tb) y)

/-- The exact sum of a block's products (R239): a NaN makes it NaN; infinities of both signs make it NaN with NV, beside a NaN too; exact zeros
sum to −0 only when every product is −0. -/
def blockSum (l : List (FVal × Nat)) : FVal × Nat :=
  let fl := l.foldl (fun f x => f ||| x.2) 0
  let infs := fun (neg : Bool) => l.any fun x => x.1 == .inf neg
  if l.any fun x => x.1.isNan then (.nan false, if infs false && infs true then fl ||| fNV else fl)
  else match l.map (·.1) with
    | [] => (.num false 0 0, fl)
    | x :: xs =>
      let (v, f) := xs.foldl (fun (a : FVal × Nat) y => let (v, f) := addVal .rne a.1 y; (v, a.2 ||| f)) (x, 0)
      (v, fl ||| f)

/-- The scale of a row or column and block, and its flag (R236, R413): an ochre granule gives the canonical NaN with NV. -/
def scaleAt (s : State) (e : EP) (base i b : Nat) : Nat × Nat :=
  let a := base + 32 * i + 4 * b
  if anyOchre s e a 4 then (canonNan fmt32, fNV) else (mread (s.core e).spad a 4, 0)

/-- A cell after the steps k0 to k1 − 1 (R239), and the flags: one step, or one block. -/
def cellStep (s : State) (e : EP) (tab : List Nat) (a b : Nat) (ta tb : Ty) (sc : Bool) (ssa ssb i j k0 k1 c : Nat) : Nat × Nat :=
  if ta == .i8 then (wrap 32 ((c : Int) + signed 8 (elemAt s e a ta i k0) * signed 8 (elemAt s e b tb j k0)), 0)
  else if blockPair ta then
    let d := blockSum ((List.range (k1 - k0)).map fun n => blockTerm tab ta tb (elemAt s e a ta i (k0 + n)) (elemAt s e b tb j (k0 + n)))
    if sc then
      let (x, f1) := scaleAt s e ssa i (k0 / 32)
      let (y, f2) := scaleAt s e ssb j (k0 / 32)
      let (z, f3) := packWith fmt32 .rne (mulVal (unpack fmt32 x) (unpack fmt32 y))
      let (r, f4) := packWith fmt32 .rne (fmaVal .rne d.1 (unpack fmt32 z) (unpack fmt32 c))
      (r, d.2 ||| f1 ||| f2 ||| f3 ||| f4)
    else
      let (r, f) := packWith fmt32 .rne (addVal .rne d.1 (unpack fmt32 c))
      (r, d.2 ||| f)
  else
    let f := if ta == .df then fmt64 else fmt32
    packWith f .rne (fmaVal .rne (unpack (fmtOf ta) (elemAt s e a ta i k0)) (unpack (fmtOf tb) (elemAt s e b tb j k0)) (unpack f c))

/-- Every cell of a tile after a step or block (R239), and the flags. -/
def tileStep (s : State) (e : EP) (tile a b : Nat) (ta tb : Ty) (sc : Bool) (ssa ssb k0 k1 : Nat) : State × Nat :=
  let tab := tileTable s e tile
  let w := if ta == .df then 8 else 4
  let out := (List.range 1024).map fun n =>
    cellStep s e tab a b ta tb sc ssa ssb (n / 32) (n % 32) k0 k1 (mread (s.core e).acc (tile * 8192 + 8 * n) w)
  (s.modCore e fun c => { c with acc := mputs (tile * 8192) (out.flatMap fun x => leBytes 8 x.1) c.acc },
   out.foldl (fun f x => f ||| x.2) 0)

/-- MMA_START (R413, R104): the first MMA of the array, once nothing earlier holds it back. A poisoned slot traps the thread with cause
0x14, and so does a double-bit error of what it reads, at a free address with a free INFO (log 12); an MMA at or above its K limit ends
at once. -/
def execMmaStart (e : Nat) (s : State) : Host.Outcome State Fault Refusal :=
  .next (match unitHead s e TileOp.isMma with
    | some (k, j) => if j.run then s else (match j.op with
      | .mma a b tile ta tb zf sc kl ssa ssb _ =>
        let c := s.core e
        let poisoned := fun n => ((tget c.opslots n).map (·.poison)).getD false
        if poisoned a || poisoned b then
          let s := dropJob s e k
          let w := locate s e j.req.uid
          (match s.thrWhere e w with
            | some t => (match t.park with
              | some p => trapAt s e w t p 0x14 3
              | none => s)
            | none => s)
        else
          let x := (tget c.tiles tile).getD ⟨(0, 0), 0, .none, false, false, 0, none⟩
          let cont := x.stop
          let reads : List Broken := [.operand a, .operand b] ++ if zf && !cont then [] else [.acc tile]
          if c.broken.any reads.contains then
            let (n, s) := (reads.foldl (fun s x => mendPart s e x) (dropJob s e k)).draw 2
            let w := locate s e j.req.uid
            (match s.thrWhere e w with
              | some t => (match t.park with
                | some p => trapAt s e w t { p with aux := (Config.freeWord n).toNat } 0x14 ((Config.freeWord (n + 1)).toNat % 2 ^ 32)
                | none => s)
              | none => s)
          else
          let k0 := if cont then x.prog else 0
          let s := if !cont && zf then s.modCore e fun c => { c with acc := mclear c.acc (tile * 8192) 8192 } else s
          let kind := if x.kind == .none then (pairKind ta tb).getD .none else x.kind
          let fresh := !cont && ta == .lg
          let table := if fresh then some (c.lg6.banks.getD c.lg6.active []) else x.table
          let s := s.modTile e tile fun x => { x with kind := kind, stop := false, prog := k0, table := table, busy := decide (k0 < kl) }
          if kl ≤ k0 then endWait (dropJob s e k) e j.req.uid id
          else
            let op : TileOp := .mma a b tile ta tb zf sc kl ssa ssb (if fresh then c.lg6.active else 2)
            s.modCore e fun c => { c with jobs := modAt (fun j => { j with op := op, run := true }) k c.jobs }
      | _ => s)
    | none => s)

/-- MMA_K_STEP (R413, R414): the running MMA performs a step, or a block of a block pairing; it stops after it where
a stop has been asked (R287, R219, R240), with STOP set by pre-emption alone, and else ends with its last one. Sealed scales hold it back (R189). A
stop at the last block of a K limit that is no multiple of 32 leaves PROG at the limit, by R413's loop, where R240 has PROG a multiple of 32
(DEDUCED, log 83). -/
def execMmaKStep (e : Nat) (s : State) : Host.Outcome State Fault Refusal :=
  .next (match unitHead s e TileOp.isMma with
    | some (k, j) => if !j.run then s else (match j.op with
      | .mma a b tile ta tb _ sc kl ssa ssb _ =>
        let k0 := ((tget (s.core e).tiles tile).map (·.prog)).getD 0
        let k1 := if blockPair ta then min (k0 / 32 * 32 + 32) kl else k0 + 1
        if sc && (sealedRows s e (ssa + k0 / 32 * 4) 32 4 || sealedRows s e (ssb + k0 / 32 * 4) 32 4) then s else
        let s := if sc then meetRows (meetRows s e (ssa + k0 / 32 * 4) 32 4) e (ssb + k0 / 32 * 4) 32 4 else s
        let (s, fl) := tileStep s e tile a b ta tb sc ssa ssb k0 k1
        let flags := j.flags ||| fl
        let s := s.modTile e tile fun x => { x with prog := k1 }
        if j.stopReq then
          ((dropJob s e k).modTile e tile fun x => { x with busy := false, stop := j.preempt }).modIssuer e j.req.uid (·.orFlags flags)
        else if kl ≤ k1 then
          endWait ((dropJob s e k).modTile e tile fun x => { x with busy := false }) e j.req.uid (·.orFlags flags)
        else s.modCore e fun c => { c with jobs := modAt (fun j => { j with flags := flags }) k c.jobs }
      | _ => s)
    | none => s)

/-- ACLR_APPLY (R415): the k-th operation of the core, an ACLR that nothing earlier holds back, applies, and its thread goes on. -/
def execAclrApply (e k : Nat) (s : State) : Host.Outcome State Fault Refusal :=
  .next (match (s.core e).jobs[k]? with
    | some j => (match j.op with
      | .aclr tile kind =>
        if jobReady (s.core e).jobs k then endWait (dropJob (applyAclr s e tile kind) e k) e j.req.uid id else s
      | _ => s)
    | none => s)

/-- Ochre granules that bytes written without set-full cover entirely become empty (R51). -/
def clearOchre (s : State) (e : EP) (a n : Nat) : State :=
  (blocks a n 16).foldl (fun s g =>
    if a ≤ 16 * g && 16 * g + 16 ≤ a + n && granAt s e (16 * g) == .ochre then s.setGran e (16 * g) .empty else s) s

/-- TILE_WRITE_QUEUE_WRITE (R137, R416): the oldest entry reaches the banks, unless a sealed entry holds it back (R189). -/
def execTileWriteQueueWrite (e : Nat) (s : State) : Host.Outcome State Fault Refusal :=
  .next (match (s.core e).tileQ with
    | x :: rest =>
      let n := x.data.length
      if anySealed s e x.addr n then s
      else
        let s := abortPlain (s.modCore e fun c => { c with tileQ := rest }) e x.addr n
        serveRange (answerRange (clearOchre (s.spadPut e x.addr x.data) e x.addr n) e x.addr n) e x.addr n
    | [] => s)

end Sys2Proof.Machine
end

