-- ==== Sys2Proof/Machine/Copy.lean ====
section
/-! DEFINITION. The copy engines, copy distributors and code-fetch engines at work (R123 to R129, R422 to R425, R71, R74): pieces,
their owners, recipients and reports, the destination write queue, and landed segments. -/

namespace Sys2Proof.Machine

/-- The bytes of a row: dimension 0. -/
def Cmd.rowLen (c : Cmd) : Nat := (c.dims.map (·.1)).headD 0 * 2 ^ cEsz c.words

/-- The stride offset of row r on a side: its indices are those of the dimensions after the first, the lowest fastest (R422). -/
def strideSum (side : Nat) : List (Nat × Int × Int) → Nat → Int
  | [], _ => 0
  | d :: ds, r => ((r % d.1 : Nat) : Int) * stride side d + strideSum side ds (r / d.1)

/-- The address word of a side: w1 or w2. -/
def Cmd.side (c : Cmd) (side : Nat) : Word := cw c.words (1 + side)

/-- The number that a side's offsets are added to: a physical scratchpad offset for a local address, an offset in the allotment for a
fabric or group address, a virtual address, or the physical source of a landing. -/
def Cmd.base (c : Cmd) (side : Nat) : Nat :=
  let a := (c.side side).toNat
  if c.engine == 2 && side == 1 then a
  else if c.landing then a
  else match a / 2 ^ 62 with
    | 0 => c.lbase * 1024 + a % 2 ^ 21
    | 2 => a % 2 ^ 56
    | _ => a % 2 ^ 24

/-- Where byte x of the command's stream lies on a side (R422). -/
def Cmd.at_ (c : Cmd) (side x : Nat) : Int := (c.base side : Int) + (x % c.rowLen : Nat) + strideSum side (c.dims.drop 1) (x / c.rowLen)

/-- The length of the piece that begins at byte x (R124): contiguous on both sides, at most 256 bytes, over no 256-byte boundary. -/
def Cmd.pieceLen (c : Cmd) (x : Nat) : Nat :=
  let toEdge := fun side => (256 - c.at_ side x % 256).toNat
  let n := min (c.rowLen - x % c.rowLen) (toEdge 1)
  if cKind c.words == 4 then n else min n (toEdge 0)

/-- The pieces from byte x on, at most n of them. -/
def Cmd.pieces (c : Cmd) (x : Nat) : Nat → Nat
  | 0 => 0
  | n + 1 => if c.total ≤ x then 0 else 1 + c.pieces (x + max 1 (c.pieceLen x)) n

/-- The command writes the byte at a destination offset. -/
def Cmd.covers (c : Cmd) (a : Int) : Bool :=
  (List.range (c.total / c.rowLen)).any fun r =>
    let lo := c.at_ 1 (r * c.rowLen)
    decide (lo ≤ a) && decide (a < lo + c.rowLen)

/-- With set-full, for each granule of the piece's destination the mask of the bytes that the command writes there (R148). -/
def Cmd.need (c : Cmd) (x len : Nat) : List Nat :=
  if !cSetf c.words then []
  else
    let a := (c.at_ 1 x).toNat
    (blocks a len 16).map fun g =>
      ((List.range 16).map fun i =>
        let b := 16 * g + i
        if (a ≤ b && b < a + len) || c.covers b then 2 ^ i else 0).sum

/-- What the engine finds of a side of a piece (R124, R126): its home; a translation that misses; a fault, with the sticky bit that it
sets; a refusal. -/
inductive Found where
  | ok (l : PieceLoc)
  | miss
  | fault (bit : Option Nat)
  | refused (bit : Nat)
  deriving DecidableEq, Repr

/-- A command that has ended, or has learnt that a walk found nothing, waits for no walk of its die any more (R37). -/
def unmarkWalks (s : State) (dk id : Nat) : State :=
  s.modDie dk fun d => { d with walks :=
    (d.walks.map fun w => { w with fill := w.fill.filter (· != (3, id)) }).filter fun w => !(w.ended && w.fill.isEmpty) }

/-- Translate for an engine (R38): the copy distributor's TLB; for engine 0 the cluster's, or the TLB of a core that is in none; for code
fetch the core's own and then the cluster's. What a walk has found that enters no TLB (R447), or that it has found nothing, is kept for the commands
that waited for it, and taken here. -/
def engineXlate (s : State) (c : Cmd) (va : Nat) : Xlate × State :=
  let dk := dieKey c.ep
  let ctx := c.req.ctx
  let cl := clusterKey c.ep
  let look := if c.engine == 1 then (tlbLook (s.die dk).tlb ctx va).map fun (x, l) => (x, s.modDie dk fun d => { d with tlb := l })
    else
      let own := if c.engine == 2 || epKind c.ep != 0 then
          (tlbLook (s.core c.ep).tlb ctx va).map fun (x, l) => (x, s.modCore c.ep fun k => { k with tlb := l }) else none
      own.or (if epKind c.ep != 0 then none
        else (tlbLook (s.cluster cl).tlb ctx va).map fun (x, l) => (x, s.modCluster cl fun k => { k with tlb := l }))
  match look with
  | some (x, s) => (.hit x, s)
  | none =>
    match (s.die dk).walks.find? fun w => w.ended && w.ctx == ctx && w.va / 2 ^ 16 == va / 2 ^ 16 && w.fill.contains (3, c.id) with
    | some w => ((match w.found with | some x => .hit x | none => .absent), unmarkWalks s dk c.id)
    | none => (.miss, startWalk s dk ctx va ((if c.engine == 1 then [(1, dk)] else coreFills c.ep) ++ [(3, c.id)]))

/-- A scratchpad place of a virtual core on the package that holds it (R13 to R15): endpoint and physical offset; the operand range is
not rebased. -/
def resolveAt (s : State) (pkg : Nat) (ctx : Ctx) (v off len : Nat) : Option (EP × Nat) :=
  match vcOf s pkg ctx v with
  | none => none
  | some (ep, base, size) =>
    if 0x180000 ≤ off then (if off + len ≤ 0x1C0000 then some (ep, off) else none)
    else (rebase base size off len).map fun a => (ep, a)

/-- A fabric side of a piece: offset and length (R14). -/
def fabricLoc (s : State) (own : Nat) (ctx : Ctx) (peermap : BitVec 44) (a : Word) (off : Int) (len : Nat) : Found :=
  match peerOf s own peermap (peerIndex a) with
  | none => .refused 0
  | some (pkg, eb) =>
    let v := bitsAt a.toNat 39 24
    if off < 0 then .refused eb
    else if pkg == own then
      match resolveAt s own ctx v off.toNat len with
      | some (ep, x) => .ok ⟨ep, x, none, false, false, eb, none, false⟩
      | none => .refused eb
    else .ok ⟨gatewayEp pkg 0 0 1, off.toNat, some v, false, false, eb, none, false⟩

/-- A DRAM side of a piece (R37, R21, R101): its home, with the needed right. -/
def dramLoc (s : State) (c : Cmd) (va : Int) (write mirr : Bool) : Found × State :=
  let own := epPkg c.ep
  if va < 0 || (2 ^ 56 : Int) ≤ va then (.fault (some c.req.ebit), s)
  else match engineXlate s c va.toNat with
    | (.miss, s) => (.miss, s)
    | (.absent, s) => (.fault (some c.req.ebit), s)
    | (.hit x, s) =>
      let leafBit := ebitOf s own c.peermap (paPkg (x.addr va.toNat))
      if (write && !x.wr) || (!write && !x.rd) then (.fault leafBit, s)
      else if mirr && !x.m then (.fault leafBit, s)
      else
        let (ep, pa, mpkg, mir) := if mirr then (homeOf (x.mirror va.toNat), x.mirror va.toNat, none, false)
          else dramTarget s own x va.toNat
        match ebitOf s own c.peermap (paPkg pa) with
        | none => (.fault none, s)
        | some eb => (.ok ⟨ep, pa, none, true, false, eb, mpkg, mir⟩, s)

/-- The members of a group (R27, R28): endpoint, BASE and SIZE; none for an invalid group. R27 and R28 say neither that a word with a reserved bit
set is an invalid group, which the model takes it for, nor that a list is looked for on the own package alone: the model reads it where
LIST points (DESIGN CHOICE, log 81). -/
def groupMembers (s : State) (pkg g : Nat) : Option (List (EP × Nat × Nat)) :=
  let w := tableEntry s pkg 3 g
  if !bitAt w 63 then none
  else if bitAt w 62 then
    let x0 := bitsAt w 17 13; let y0 := bitsAt w 12 9; let x1 := bitsAt w 8 4; let y1 := bitsAt w 3 0
    if x1 < x0 || y1 < y0 || bitsAt w 61 53 != 0 then none
    else some ((List.range (y1 + 1 - y0)).flatMap fun j => (List.range (x1 + 1 - x0)).map fun i =>
      (mkEp (bitsAt w 30 21) (bitsAt w 20 18) 0 (x0 + i) (y0 + j), bitsAt w 41 31, bitsAt w 52 42))
  else if bitsAt w 8 0 != 0 then none
  else some ((List.range (bitsAt w 61 56 + 1)).filterMap fun i => vcDecode (physWord s (bitsAt w 55 9 * 2 ^ 9 + 8 * i) 8))

/-- A member's place (R26, R129): within its allotment (R15) and its scratchpad (R114), or refused. An offset in the operand range lies in no
allotment, and R26 does not send it to the members' operand slots: the model refuses it (DESIGN CHOICE, log 81). -/
def memberLoc (s : State) (c : Cmd) (off : Int) (len : Nat) (m : EP × Nat × Nat) : Found :=
  match ebitOf s (epPkg c.ep) c.peermap (epPkg m.1) with
  | none => .fault none
  | some eb => if off < 0 then .refused eb else match rebase m.2.1 m.2.2 off.toNat len with
    | some a => if a + len ≤ spadSize m.1 then .ok ⟨m.1, a, none, false, false, eb, none, false⟩ else .refused eb
    | none => .refused eb

/-- The source of a piece. -/
def srcLoc (s : State) (c : Cmd) (x len : Nat) : Found × State :=
  let a := c.at_ 0 x
  if c.landing then
    let pa := a.toNat
    if paPkg pa == epPkg c.ep && populated pa len then (.ok ⟨homeOf pa, pa, none, true, false, 0, none, false⟩, s) else (.fault none, s)
  else match (c.side 0).toNat / 2 ^ 62 with
    | 0 => (.ok ⟨c.req.ep, a.toNat, none, false, true, c.req.ebit, none, false⟩, s)
    | 1 => (fabricLoc s (epPkg c.ep) c.req.ctx c.peermap (c.side 0) a len, s)
    | _ => dramLoc s c a false (cMirr c.words)

/-- The destinations of a piece: one, or one for each member of a group; none at all for an invalid group (R28). -/
def dstLocs (s : State) (c : Cmd) (x len : Nat) : Option (List Found) × State :=
  let a := c.at_ 1 x
  if c.engine == 2 then (some [.ok ⟨c.req.ep, a.toNat, none, false, true, c.req.ebit, none, false⟩], s)
  else match (c.side 1).toNat / 2 ^ 62 with
    | 0 => (some [.ok ⟨c.req.ep, a.toNat, none, false, true, c.req.ebit, none, false⟩], s)
    | 1 => (some [fabricLoc s (epPkg c.ep) c.req.ctx c.peermap (c.side 1) a len], s)
    | 2 => let (f, s) := dramLoc s c a true false; (some [f], s)
    | _ => ((groupMembers s (epPkg c.ep) (bitsAt (c.side 1).toNat 49 38)).map fun l => l.map (memberLoc s c a len), s)

/-- A command changed, by its identity. -/
def State.modCmd (s : State) (id : Nat) (f : Cmd → Cmd) : State := { s with cmds := s.cmds.map fun c => if c.id == id then f c else c }

/-- A sticky bit of the requester, set by a notice from a unit (R126). -/
def stickNotice (s : State) (src : EP) (req : Req) (carry : Carry) (bit : Option Nat) : State := match bit with
  | some b => s.answer src { req with entry := 17, ebit := b } carry .refused
  | none => s

/-- A notice to the requester of a command is still on its way (R128: its FENCE must find the bit set). -/
def noticesOut (s : State) (uid : Nat) : Bool := s.net.any fun p => p.stage != .lost && p.req.uid == uid && p.req.entry == 17 &&
  match p.body with
    | .answer _ | .stickySet .. => true
    | _ => false

/-- The status of a command that has ended (R127). -/
def Cmd.status (c : Cmd) : Nat := if c.annulled then 2 else if c.fault then 1 else if c.refused then 3 else 0

/-- The notice add (R127): to the notice address, under the requester's context. -/
def sendNotice (s : State) (c : Cmd) : State :=
  let vc := ctxVc s (epPkg c.ep) c.req.ctx
  let a := cw c.words 3
  if a.toNat / 2 ^ 62 == 0 then
    s.send c.ep c.req.ep vc c.req c.carry (.access none 0 (some (c.lbase * 1024 + a.toNat % 2 ^ 21)) .notice none true true)
  else match fabricLoc s (epPkg c.ep) c.req.ctx c.peermap a (a.toNat % 2 ^ 24 : Nat) 8 with
    | .ok l =>
      s.send c.ep l.ep vc { c.req with ebit := l.ebit } c.carry
        (.access l.vcore (a.toNat % 2 ^ 24) (if l.vcore.isSome then none else some l.addr) .notice none true false)
    | .refused b => stickNotice s c.ep c.req c.carry (some b)
    | .fault b => stickNotice s c.ep c.req c.carry b
    | .miss => s

/-- A command has ended (R127, R420): its counter drops, its record is queued, and with status ok the notice is sent. -/
def completeCmd (s : State) (c : Cmd) : State :=
  let s := unmarkWalks { s with cmds := s.cmds.filter (·.id != c.id) } (dieKey c.ep) c.id
  if c.landing then
    let fail := c.status != 0
    let s := s.modCore c.ep fun k => { k with mgmt := { k.mgmt with codeBusy := false, codeFail := fail } }
    if fail then s.event (epPkg c.ep) 0x0073 (cwn c.words 2 / 4096) c.ep 255 (cw c.words 1) else s
  else
    let s := s.modIssuer c.req.ep c.req.uid fun t =>
      let t := if c.engine == 2 then { t with cnt := { t.cnt with code := t.cnt.code - 1 } }
               else { t with cnt := { t.cnt with cpc := t.cnt.cpc - 1 } }
      if cNotify c.words then { t with recs := t.recs ++ [recordOf c.words c.status c.failed c.bytes] } else t
    if cNote c.words && c.status == 0 then sendNotice s c else s

/-- A command is complete once every piece has been cut and reported and no notice to its requester is on its way; a code segment
lands by an event of its own (R71). -/
def tryFinish (s : State) (id : Nat) : State := match s.cmds.find? (·.id == id) with
  | some c =>
    if c.total ≤ c.done && c.flying == 0 && !noticesOut s c.req.uid && !(c.engine == 2 && c.status == 0) then completeCmd s c else s
  | none => s

/-- The rest of a command is not cut any more. -/
def Cmd.stop (c : Cmd) : Cmd := { c with done := c.total }

/-- A command's landed bit is cleared when it starts (R71). -/
def startLanding (s : State) (c : Cmd) : State :=
  if c.engine == 2 && c.done == 0 then
    s.modCore c.req.ep fun k => { k with landed := k.landed &&& ~~~(1#384 <<< (cwn c.words 2 / 4096)) }
  else s

/-- A piece leaves (R124, R126): the destinations that hold, then the source, the faults being accounted for at once. -/
def sendPiece (s : State) (c : Cmd) (x len : Nat) (dsts : List Found) (src : Option Found) : State :=
  let vc := ctxVc s (epPkg c.ep) c.req.ctx
  let oks := dsts.filterMap fun | .ok l => some l | _ => none
  let faults := (dsts.filter fun | .fault _ => true | _ => false).length
  let refusals := (dsts.filter fun | .refused _ => true | _ => false).length
  let s := dsts.foldl (fun s f => match f with
    | .fault b => stickNotice s c.ep c.req c.carry b
    | .refused b => stickNotice s c.ep c.req c.carry (some b)
    | _ => s) s
  let s := s.modCmd c.id fun c => { c with
    done := x + len, failed := c.failed + faults + refusals, fault := c.fault || faults != 0, refused := c.refused || refusals != 0 }
  let need := c.need x len
  match src with
  | none =>
    let data := (List.replicate (len / (2 ^ cEsz c.words)) (c.pattern.getD [])).flatten
    let s := oks.foldl (fun s l => s.send c.ep l.ep vc c.req c.carry (.pieceWrite c.id l (some data) len need c.ep)) s
    s.modCmd c.id fun c => { c with flying := c.flying + oks.length }
  | some (.ok l) =>
    if oks.isEmpty then s
    else
      (s.send c.ep l.ep vc { c.req with ebit := l.ebit } c.carry (.pieceRead c.id l len oks need c.ep)).modCmd c.id
        fun c => { c with flying := c.flying + oks.length }
  | some (.fault b) =>
    let s := stickNotice s c.ep c.req c.carry b
    let s := oks.foldl (fun s l => if l.dram then s else s.send c.ep l.ep vc c.req c.carry (.pieceWrite c.id l none len need c.ep)) s
    s.modCmd c.id fun c => { c with failed := c.failed + oks.length, fault := true }
  | some (.refused b) =>
    (stickNotice s c.ep c.req c.carry (some b)).modCmd c.id fun c => { c with failed := c.failed + oks.length, refused := true }
  | some .miss => s

/-- COPY_PIECE_DISPATCH (R124): the next piece of the k-th command; before each 4 KiB the instant is checked (R216), and a lapse annuls
what has not left (R219). The first step of a FILL asks for its pattern (R424). -/
def execCopyPieceDispatch (k : Nat) (s : State) : Host.Outcome State Fault Refusal :=
  .next (match s.cmds[k]? with
    | none => s
    | some c =>
      if c.total ≤ c.done then tryFinish s c.id
      else if c.mark ≤ c.done && expired s c.ep c.carry then
        let n := c.pieces c.done c.total
        tryFinish ((reportItem s (epPkg c.ep) c.carry 0 0 n).modCmd c.id fun c =>
          { c.stop with failed := c.failed + n, annulled := true }) c.id
      else if cKind c.words == 4 && c.pattern.isNone then
        (if c.asked then s
         else
          let vc := ctxVc s (epPkg c.ep) c.req.ctx
          match srcLoc s c 0 (2 ^ cEsz c.words) with
          | (.ok l, s) =>
            (s.send c.ep l.ep vc { c.req with ebit := l.ebit } c.carry (.patternRead c.id l (2 ^ cEsz c.words) c.ep)).modCmd c.id
              fun c => { c with asked := true }
          | (.refused b, s) => (stickNotice s c.ep c.req c.carry (some b)).modCmd c.id fun c => { c.stop with fault := true }
          | (.fault b, s) => (stickNotice s c.ep c.req c.carry b).modCmd c.id fun c => { c.stop with fault := true }
          | (.miss, s) => s)
      else
        let s := startLanding s c
        let x := c.done
        let len := max 1 (c.pieceLen x)
        match dstLocs s c x len with
        | (none, s) => tryFinish (s.modCmd c.id fun c => { c.stop with refused := true }) c.id
        | (some dsts, s) =>
          if dsts.contains .miss then s
          else
            let (src, s) := if cKind c.words == 4 then (none, s) else (let (f, s) := srcLoc s c x len; (some f, s))
            if src == some .miss then s
            else
              let s := if c.mark ≤ x then s.modCmd c.id fun c => { c with mark := x / 4096 * 4096 + 4096 } else s
              tryFinish (sendPiece s c x len dsts src) c.id)

/-- The failure of a rank, or a lapse there, is told to ranks of a collective on VC1 (R135), under the system handle. -/
def tellRanks (s : State) (pkg : Nat) (c : Coll) (ranks : List Nat) (rank : Nat) (lapse : Bool) : State :=
  ranks.foldl (fun s r => match commPkg s pkg c.comm r c.peermap with
    | some far => s.send (ceEp pkg) (ceEp far) 1 c.req ⟨never, 0, pkg⟩ (.partFail c.comm c.num rank lapse)
    | none => s) s

/-- A collective command changed, by its identity. -/
def modColl (s : State) (pkg id : Nat) (f : Coll → Coll) : State :=
  s.modPkg pkg fun p => { p with colls := p.colls.map fun c => if c.id == id then f c else c }

/-- A failed participant's rank, or a lapse, is told to every other participant (R135). -/
def tellParticipants (s : State) (pkg : Nat) (c : Coll) (rank : Nat) (lapse : Bool) : State :=
  tellRanks s pkg c ((List.range (commSize s pkg c.comm)).filter (· != commRank s pkg c.comm)) rank lapse

/-- What has come early belongs to a command. -/
def Early.isFor (x : Early) (comm num : Nat) : Bool := match x with
  | .chunk c n .. | .partFail c n .. => c == comm && n == num

/-- What has come for a command in reserved buffers is discarded (R135). -/
def dropEarly (s : State) (pkg : Nat) (c : Coll) : State :=
  s.modPkg pkg fun p => { p with early := p.early.filter fun x => !x.isFor c.comm c.num }

/-- A participant has failed, or the instant has lapsed (R135): the command stops at the next chunk boundary, what is not written is
discarded, and a failure sets the sticky bit of the participant's peer in the requesting slot. -/
def stopColl (s : State) (pkg : Nat) (c : Coll) (rank : Nat) (lapse : Bool) : State :=
  if c.isOver.isSome then s
  else
    let s := dropEarly (modColl s pkg c.id fun c =>
      { c with isOver := some (if lapse then 2 else 1), toSend := [], toCome := [], parts := [] }) pkg c
    let cs := s.cores.map fun (x : Nat × Core) => (x.1, { x.2 with reds := x.2.reds.filter fun b => b.cmd != c.id })
    let s := { s with cores := cs }
    if lapse then s
    else match peerOf s pkg c.peermap (commPeer s pkg c.comm rank) with
      | some (_, eb) => s.modIssuer c.req.ep c.req.uid (·.stick eb)
      | none => s

/-- The own rank fails, or its instant lapses (R135). R135 speaks of the survivors alone: that the failing rank ends as they do, with the status that they
give and the sticky bit of its own package's peer, is the model's choice (DESIGN CHOICE, log 83). -/
def failColl (s : State) (pkg : Nat) (c : Coll) (rank : Nat) (lapse : Bool) : State :=
  if c.isOver.isSome then s else stopColl (tellParticipants s pkg c rank lapse) pkg c rank lapse

/-- A piece report counted by its engine (R126): a command of a copy engine, or a collective, whose rank
fails by a piece that is not written (R135). -/
def reportPiece (s : State) (pkg id len : Nat) (e : PieceEnd) : State :=
  match s.cmds.find? (·.id == id) with
  | some _ =>
    tryFinish (s.modCmd id fun c => match e with
      | .written => { c with flying := c.flying - 1, bytes := c.bytes + len }
      | .fault => { c with flying := c.flying - 1, failed := c.failed + 1, fault := true }
      | .refused => { c with flying := c.flying - 1, failed := c.failed + 1, refused := true }
      | .annulled => { c with flying := c.flying - 1, failed := c.failed + 1, annulled := true }) id
  | none =>
    let s := match (s.pkg pkg).colls.find? fun c => c.id == id && e != .written with
      | some c => failColl s pkg c (commRank s pkg c.comm) (e == PieceEnd.annulled)
      | none => s
    modColl s pkg id fun c => { c with flying := c.flying - 1, bytes := c.bytes + if e == .written then len else 0 }

/-- A piece of a collective, or its report: a chunk is written whole or not at all (R134), so that the command is tested at its chunk boundaries and
nowhere else (R216, R219; log 22). -/
def Pkt.ofColl (p : Pkt) : Bool := match p.body with
  | .pieceWrite _ _ _ _ _ engine => engine == ceEp (epPkg engine)
  | .pieceEnd .. => p.dst == ceEp (epPkg p.dst)
  | _ => false

/-- A packet of a copy fails its check at an endpoint (R216): of a collective none does. -/
def Pkt.lapsed (s : State) (e : EP) (p : Pkt) : Bool := !p.ofColl && expired s e p.carry

/-- PIECE_REPORT (R126, R127): the k-th packet, a report, reaches the accounting engine. That of a lapsed command is dropped, and its outcome is known to
the engine all the same (R218; log 35). -/
def execPieceReport (k : Nat) (s : State) : Host.Outcome State Fault Refusal :=
  .next (onPacket s k fun p => match p.body with
      | .pieceEnd id len e =>
        let s := if p.lapsed s p.dst then lapseDrop s p.dst p 0 else s
        reportPiece (s.dropPkt k) (epPkg p.dst) id len e
      | _ => s)

/-- An outcome goes to the accounting engine on VC0, once for each destination. -/
def tellEngine (s : State) (src engine : EP) (p : Pkt) (id len n : Nat) (e : PieceEnd) : State :=
  (List.replicate n ()).foldl (fun s _ => s.send src engine 0 p.req p.carry (.pieceEnd id len e)) s

/-- What an owner reads of a source (R51, R96, R126): the bytes; none for an ochre source; a refusal; or it is held, at the line-buffer port or
before it. -/
inductive SrcRead where
  | bytes (l : List (BitVec 8))
  | ochre
  | refused
  | atPort
  | wait
  deriving DecidableEq, Repr

/-- The owner's read of n bytes (R125, R113, R137, R189). -/
def ownerRead (s : State) (e : EP) (ctx : Ctx) (ticket : Nat) (src : PieceLoc) (n : Nat) : SrcRead × State :=
  if src.dram then
    match needLines s e ticket (linesOf src.addr n) with
    | (false, s) => (.atPort, s)
    | (true, s) =>
      if anySealed s e (dramKey src.addr) n then (.wait, s)
      else
        let s := (linesOf src.addr n).foldl (fun s l => meetLineErrors s e (max src.addr l) (min (src.addr + n) (l + 64) - max src.addr l)) s
        if (linesOf src.addr n).any fun l => (lineValue s l).isNone then (.ochre, s)
        else (.bytes ((List.range n).map fun i => BitVec.ofNat 8 (physWord s (src.addr + i) 1)), s)
  else if !src.local_ && !admits s e ctx src.addr n (true, false, false) then (.refused, s)
  else if anySealed s e src.addr n || queued s e src.addr n then (.wait, s)
  else
    let s := meetErrors s e src.addr n
    if anyOchre s e src.addr n then (.ochre, s) else (.bytes (mbytes (s.core e).spad src.addr n), s)

/-- A piece leaves its owner for a recipient (R125, R126). Where the recipient's package is the owner's own, its address is resolved here by the
maps of that package (R14); one that they do not hold is refused. -/
def toRecipient (s : State) (e : EP) (p : Pkt) (id len : Nat) (need : List Nat) (engine : EP) (data : Option (List (BitVec 8)))
    (d : PieceLoc) : State :=
  let go := fun (d : PieceLoc) => s.send e d.ep p.vc p.req p.carry (.pieceWrite id d data len need engine)
  match (if epPkg d.ep == epPkg e then d.vcore else none) with
  | none => go d
  | some v => match resolveAt s (epPkg e) p.req.ctx v d.addr len with
    | some (ep, a) => go { d with ep := ep, addr := a, vcore := none }
    | none => if data.isNone then s else tellEngine (stickNotice s e p.req p.carry (some d.ebit)) e engine p id len 1 .refused

/-- A read of a mirrored page at the mirror home is a failover, and is logged (R101). -/
def logFailover (s : State) (e : EP) (p : Pkt) (src : PieceLoc) : State := match src.mpkg with
  | some m => if src.mir then s.event (epPkg p.req.ep) 0x0040 m e 255 (word src.addr) else s
  | none => s

/-- PIECE_AT_OWNER (R126): the k-th packet, a piece on its way to its owner, is read there and goes on to its recipients. -/
def execPieceAtOwner (k : Nat) (s : State) : Host.Outcome State Fault Refusal :=
  .next (onPacket s k fun p => match p.body with
      | .pieceRead id src len dsts need engine =>
        let e := p.dst
        let n := dsts.length
        if src.vcore.isSome then s
        else if expired s e p.carry then tellEngine (lapseDrop (s.dropPkt k) e p n) e engine p id len n .annulled
        else match (if closedAt s e || wrongChannel s e p then (SrcRead.refused, s) else ownerRead s e p.req.ctx p.ticket src len) with
        | (.wait, s) => s.offPort k
        | (.atPort, s) => s.heldAtPort k p
        | (.refused, s) =>
          tellEngine (stickNotice (s.dropPkt k) e p.req p.carry (some src.ebit)) e engine p id len n .refused
        | (.ochre, s) =>
          let s := dsts.foldl (fun s d => if d.dram then s else toRecipient s e p id len need engine none d) (s.dropPkt k)
          tellEngine (stickNotice s e p.req p.carry (some src.ebit)) e engine p id len n .fault
        | (.bytes bs, s) =>
          dsts.foldl (fun s d => toRecipient s e p id len need engine (some bs) d) (logFailover (s.dropPkt k) e p src)
      | _ => s)

/-- The answer to a pattern's read is known to its engine (R424): the bytes; a fault; or annulled, when no piece has left, and all of them count
as stores not applied (R219, R224). -/
def patternIn (s : State) (id : Nat) (data : Option (List (BitVec 8))) (annulled : Bool) : State := match s.cmds.find? (·.id == id) with
  | none => s
  | some c =>
    let n := c.pieces c.done c.total
    let s := if data.isNone && annulled then reportItem s (epPkg c.ep) c.carry 0 0 n else s
    tryFinish (s.modCmd id fun c => match data with
      | some bs => { c with pattern := some bs }
      | none => if annulled then { c.stop with failed := c.failed + n, annulled := true } else { c.stop with fault := true }) id

/-- FILL_PATTERN_READ (R424): the k-th packet, a read of a pattern at its owner, or its answer at the engine. One that lapses annuls its command. -/
def execFillPatternRead (k : Nat) (s : State) : Host.Outcome State Fault Refusal :=
  .next (onPacket s k fun p => match p.body with
      | .patternRead id src len engine =>
        let e := p.dst
        if src.vcore.isSome then s
        else if expired s e p.carry then (lapseDrop (s.dropPkt k) e p 0).send e engine 0 p.req p.carry (.pattern id none true)
        else match (if closedAt s e || wrongChannel s e p then (SrcRead.refused, s) else ownerRead s e p.req.ctx p.ticket src len) with
        | (.wait, s) => s.offPort k
        | (.atPort, s) => s.heldAtPort k p
        | (.bytes bs, s) => (logFailover (s.dropPkt k) e p src).send e engine 0 p.req p.carry (.pattern id (some bs) false)
        | (_, s) => (stickNotice (s.dropPkt k) e p.req p.carry (some src.ebit)).send e engine 0 p.req p.carry (.pattern id none false)
      | .pattern id data annulled =>
        if expired s p.dst p.carry then patternIn (lapseDrop (s.dropPkt k) p.dst p 0) id none true
        else patternIn (s.dropPkt k) id data annulled
      | _ => s)

/-- The entries of a core's destination write queue (R137). -/
def destCap (e : EP) : Nat := if epKind e == 1 then 32 else 64

/-- An entry joins the destination write queue. -/
def enqueueDest (s : State) (e : EP) (a : Nat) (data : List (BitVec 8)) (need : List Nat) (err : Bool) (id : Nat) : State :=
  s.modCore e fun c => { c with destQ := c.destQ ++ [⟨a, data, need, err, id, c.destNum⟩], destNum := c.destNum + 1 }

/-- The bytes written of a granule or slot by a command, with those of a mask added. -/
def addFill (s : State) (e : EP) (id key mask : Nat) : Nat × State :=
  let old := (((s.core e).fills.find? fun f => f.1 == id && f.2.1 == key).map (·.2.2)).getD 0
  let m := old ||| mask
  (m, s.modCore e fun c => { c with fills := (c.fills.filter fun f => !(f.1 == id && f.2.1 == key)) ++ [(id, key, m)] })

/-- What was noted of a granule or slot is done with. -/
def dropFill (s : State) (e : EP) (id key : Nat) : State :=
  s.modCore e fun c => { c with fills := c.fills.filter fun f => !(f.1 == id && f.2.1 == key) }

/-- Whether a copy write of a slot, by its place there, waits behind earlier uses of the tile path (R64): the uses apply in the order in which they
reach it. -/
def tileBusy (s : State) (e : EP) (n ticket : Nat) : Bool :=
  let jobs := (s.core e).jobs
  (jobs.take ((findPos (fun j : TileJob => j.op == .copyIn n ticket) jobs).getD jobs.length)).any fun j =>
    j.op.reads.contains n || j.op.writes.contains n

/-- The k-th packet, a copy write of a slot, takes its place in the tile path, behind which later uses wait (R64). -/
def State.joinTile (s : State) (k : Nat) (p : Pkt) (n : Nat) : State :=
  if p.ticket != 0 then s
  else
    let (m, s) := nextTicket s p.dst
    (s.modPkt k fun p => { p with ticket := m }).modCore p.dst fun c => { c with jobs := c.jobs ++
      [⟨.copyIn n m, p.req, p.req.ctx, p.req.vcore, false, false, false, 0, 0⟩] }

/-- A copy write of a slot leaves its place in the tile path. -/
def State.leaveTile (s : State) (p : Pkt) : State :=
  if p.ticket == 0 then s
  else s.modCore p.dst fun c => { c with jobs := c.jobs.filter fun j => match j.op with
    | .copyIn _ m => m != p.ticket
    | _ => true }

/-- A copy write into an operand slot (R63, R64, R114, R126): none where it must wait in the tile path; false where it is refused. -/
def operandWrite (s : State) (e : EP) (ctx : Ctx) (id a ticket : Nat) (data : Option (List (BitVec 8))) (need : List Nat) : Option (Bool × State) :=
  let n := a / 8192 - 192
  match tget (s.core e).opslots n with
  | none => some (false, s)
  | some o =>
    if o.owner.1 != ctx || !need.isEmpty || (s.core e).kind != .compute then some (false, s)
    else if tileBusy s e n ticket then none
    else match data with
      | none => some (true, s.modCore e fun c => { c with opslots := tmod n (fun o => { o with poison := true }) c.opslots })
      | some bs =>
        let at_ := a % 8192
        let (m, s) := addFill s e id (2 ^ 20 + n) (ones bs.length * 2 ^ at_)
        let whole := m == ones 8192
        let s := if whole then dropFill s e id (2 ^ 20 + n) else s
        some (true, s.modCore e fun c => { c with
          opmem := mputs (n * 8192 + at_) bs c.opmem,
          opslots := tmod n (fun o => { o with fmt := none, poison := o.poison && !whole }) c.opslots })

/-- A copy piece at its DRAM home (R96, R98, R126): none where it must wait. -/
def dramPiece (s : State) (e : EP) (p : Pkt) (k id len : Nat) (dst : PieceLoc) (bs : List (BitVec 8)) (engine : EP) : State :=
  atPort s k p (linesOf dst.addr len) fun s =>
    if anySealed s e (dramKey dst.addr) len then s.offPort k
    else
      let partial_ := (lineParts dst.addr bs).any fun (line, _, part) => part.length < 64 && (lineValue s line).isNone
      if partial_ then tellEngine (stickNotice (s.dropPkt k) e p.req p.carry (some dst.ebit)) e engine p id len 1 .fault
      else
        let s := putParts (abortPlain (s.dropPkt k) e (dramKey dst.addr) len) e dst.addr bs
        mirrorOn s e dst.addr bs dst.mpkg dst.mir p.vc p.req p.carry (.piece id len engine)

/-- PIECE_AT_RECIPIENT (R126, R136): the k-th packet, a piece at its recipient: refused, applied at DRAM or an operand slot, or accepted by
the destination write queue. An error piece of which nothing is applied vanishes. The host's writes
are performed in the order of their arrival (R466). -/
def execPieceAtRecipient (k : Nat) (s : State) : Host.Outcome State Fault Refusal :=
  .next (onPacket s k fun p => match p.body with
      | .pieceWrite id dst data len need engine =>
        let e := p.dst
        let refuse := fun (s : State) =>
          if data.isNone then (s.leaveTile p).dropPkt k
          else tellEngine (stickNotice ((s.leaveTile p).dropPkt k) e p.req p.carry (some dst.ebit)) e engine p id len 1 .refused
        if dst.vcore.isSome then s
        else if epKind p.src == 3 && epX p.src == 1 && (s.net.take k).any (fun q => q.src == p.src && match q.body with
            | .pieceWrite .. => true
            | _ => false) then s
        else if p.lapsed s e then
          (let s := s.leaveTile p
           if data.isNone then s.dropPkt k else tellEngine (lapseDrop (s.dropPkt k) e p 1) e engine p id len 1 .annulled)
        else if closedAt s e || wrongChannel s e p then refuse s
        else if dst.dram then
          (match data with
            | some bs => dramPiece s e p k id len dst bs engine
            | none => s.dropPkt k)
        else if 0x180000 ≤ dst.addr then
          (match operandWrite s e p.req.ctx id dst.addr p.ticket data need with
            | none => s.joinTile k p (dst.addr / 8192 - 192)
            | some (false, s) => refuse s
            | some (true, s) =>
              let s := (s.leaveTile p).dropPkt k
              if data.isNone then s else tellEngine s e engine p id len 1 .written)
        else if !dst.local_ && !admits s e p.req.ctx dst.addr len (false, true, !need.isEmpty) then refuse s
        else if destCap e ≤ (s.core e).destQ.length then s
        else
          let s := enqueueDest (s.dropPkt k) e dst.addr (data.getD (List.replicate len 0)) need data.isNone id
          if data.isNone then s else tellEngine s e engine p id len 1 .written
      | _ => s)

/-- The bytes of an entry in a granule, as a mask. -/
def maskIn (a n g : Nat) : Nat := ((List.range 16).map fun i => if a ≤ 16 * g + i && 16 * g + i < a + n then 2 ^ i else 0).sum

/-- With set-full, what an entry does to a granule that it touches (R51, R148): over ochre the bytes that the command does not write
become 0; once every byte that it writes there has been written the granule is full and its waiters are served. -/
def setFull (s : State) (e : EP) (x : DestEntry) (g need : Nat) : State :=
  let s := if granAt s e (16 * g) == .ochre then
      ((List.range 16).foldl (fun s i => if bitAt need i then s else s.spadWrite e (16 * g + i) 1 0) s).setGran e (16 * g) .empty
    else s
  let (m, s) := addFill s e x.cmd g (maskIn x.addr x.data.length g)
  if need &&& m == need then serveRange ((dropFill s e x.cmd g).setGran e (16 * g) .full) e (16 * g) 16 else s

/-- DEST_WRITE_QUEUE_WRITE (R137, R51, R126, R189): the oldest entry reaches the banks, unless a sealed entry holds it back; waiters whose
service it held are served. -/
def execDestWriteQueueWrite (e : Nat) (s : State) : Host.Outcome State Fault Refusal :=
  .next (match (s.core e).destQ with
    | x :: rest =>
      let n := x.data.length
      if anySealed s e x.addr n then s
      else
        let s := s.modCore e fun c => { c with destQ := rest }
        if x.err then serveRange ((blocks x.addr n 16).foldl (fun s g => s.setGran e (16 * g) .ochre) s) e x.addr n
        else
          let s := (abortPlain s e x.addr n).spadPut e x.addr x.data
          let s := if x.need.isEmpty then clearOchre s e x.addr n
            else ((blocks x.addr n 16).zip x.need).foldl (fun s (g, m) => setFull s e x g m) s
          serveRange (answerRange s e x.addr n) e x.addr n
    | [] => s)

/-- CODE_SEGMENT_LANDED (R71): the k-th command, a landing whose pieces have all been accepted and have reached the banks: the landed bit
is set and the command ends. -/
def execCodeSegmentLanded (k : Nat) (s : State) : Host.Outcome State Fault Refusal :=
  .next (match s.cmds[k]? with
    | none => s
    | some c =>
      if c.engine == 2 && c.total ≤ c.done && c.flying == 0 && c.status == 0
          && !((s.core c.req.ep).destQ.any fun q => q.cmd == c.id) then
        completeCmd (s.modCore c.req.ep fun k => { k with landed := k.landed ||| (1#384 <<< (cwn c.words 2 / 4096)) }) c
      else s)

/-- A management access that selects nothing (R471). -/
def mgDiscard (s : State) (pkg : Nat) (data : Word) : State := s.event pkg 0x0072 0 (bridgeEp pkg) 255 data

/-- A write of CODESEG (R74, R471): the management plane lands a segment from CODESRC; a segment not below XB fails at once, and so does a landing on
a core that has not been released, which then has no segment landed (log 19). -/
def codesegWrite (s : State) (ep : EP) (w : Word) : State :=
  match s.core? ep with
    | none =>
      if isCore ep then s.modMgmt ep fun m => { m with codeSeg := w.toNat % 512, codeFail := true }
      else mgDiscard s (epPkg ep) (word (ep * 2 ^ 32 + 0x11))
    | some c =>
      let seg := w.toNat % 512
      if c.mgmt.codeBusy then s
      else
        let s := s.modCore ep fun c => { c with mgmt := { c.mgmt with codeSeg := seg, codeBusy := true, codeFail := false } }
        let src := bitsAt c.mgmt.codesrc.toNat 55 12 * 4096
        let cmd : Cmd :=
          { id := s.nextUid, engine := 2, ep := ep, req := ⟨ep, 0, 0, 0, 0, 0, 17, 0⟩, carry := ⟨never, 0, epPkg ep⟩,
            words := [word (2 + 2 ^ 16 + 3 * 2 ^ 24), word src, word (seg * 4096), 0, 512, 0, 0, 0], dims := [(512, 0, 0)], lbase := 0,
            peermap := 0, done := 0, total := 4096, mark := 0, flying := 0, failed := 0, bytes := 0, fault := false, refused := false,
            annulled := false, asked := false, pattern := none, landing := true }
        if xbBytes c ≤ seg * 4096 then completeCmd s { cmd with refused := true }
        else { s with cmds := s.cmds ++ [cmd], nextUid := s.nextUid + 1 }

/-- CODESEG_WRITE (R74, R471). -/
def execCodesegWrite (ep : Nat) (w : BitVec 64) (s : State) : Host.Outcome State Fault Refusal := .next (codesegWrite s ep w)

end Sys2Proof.Machine
end

