-- ==== Sys2Proof/Machine/Queues.lean ====
section
/-! DEFINITION. The hardware queues of a package (09, 23): descriptors, rings, completion records, admission, and the host's writes
to the entry and cancel windows. -/

namespace Sys2Proof.Machine

/-- The 64-byte descriptor of a queue (R261), as a number. -/
def qDesc (s : State) (pkg q : Nat) : Nat := tableEntry s pkg 1 q
/-- MODE of a descriptor; 3 also stands for an invalid queue (R261). -/
def qMode (d : Nat) : Nat := if bitAt d 63 && bitsAt d 44 32 != 0 then bitsAt d 47 46 else 3
/-- PRI of a descriptor. -/
def qPri (d : Nat) : Nat := bitsAt d 62 60
/-- CTX of a descriptor. -/
def qCtx (d : Nat) : Ctx := BitVec.ofNat 12 (bitsAt d 59 48)
/-- BW of a descriptor. -/
def qBw (d : Nat) : Bool := bitAt d 45
/-- ENTRIES of a descriptor. -/
def qEntries (d : Nat) : Nat := bitsAt d 44 32
/-- RING of a descriptor. -/
def qRing (d : Nat) : Nat := bitsAt d 119 70 * 64
/-- LHDR of a descriptor. -/
def qLhdr (d : Nat) : Nat := bitsAt d 191 128
/-- CRING of a descriptor. -/
def qCring (d : Nat) : Nat := bitsAt d 255 192
/-- The clusters of a descriptor's MASK. -/
def qMask (d : Nat) : List Nat := (List.range 256).filter fun n => bitAt d (256 + n)

/-- A queue serves a context in a mode (R246, R261). -/
def qServes (s : State) (pkg q mode : Nat) (ctx : Ctx) : Bool :=
  let d := qDesc s pkg q
  qMode d == mode && qCtx d == ctx && ctxValid s pkg ctx

/-- The items in a ring. -/
def QState.items (x : QState) : Nat := x.tail - x.head

/-- The ring is full: filled or reserved entries (R276, R355). -/
def ringFull (s : State) (pkg q : Nat) : Bool := qEntries (qDesc s pkg q) ≤ (s.queue pkg q).items + (s.queue pkg q).reserved

/-- A packet of eight words as bytes. -/
def packetBytes (p : Packet) : List (BitVec 8) := p.flatMap fun w => leBytes 8 w.toNat

/-- The eight words of a 64-byte number. -/
def wordsOfLine (n : Nat) : List Word := (List.range 8).map fun i => word (n / 2 ^ (64 * i))

/-- An item enters the ring of a MODE 1 or MODE 2 queue (R276): with MODE 1 SRC is 1 and a reference on its handle is taken. -/
def pushItem (s : State) (pkg q : Nat) (item : Packet) (c : Carry) : State :=
  let d := qDesc s pkg q
  let w0 := (item.getD 0 0).toNat
  let item := if qMode d == 1 then item.set 0 (word (w0 - bitsAt w0 38 37 * 2 ^ 37 + 2 ^ 37)) else item
  let item := item.set 2 (handleWord c.inst c.hnd)
  let x := s.queue pkg q
  let s := physWrite s (qRing d + 64 * (x.tail % qEntries d)) (packetBytes item)
  let s := if qMode d == 1 then refInc s pkg c.hnd.toNat else s
  s.modQueue pkg q fun x => { x with tail := x.tail + 1, times := x.times ++ [(s.pkgNow pkg).toNat], carries := x.carries ++ [c] }

/-- The oldest item of a ring, and the ring without it. -/
def popItem (s : State) (pkg q : Nat) : Packet × Carry × State :=
  let d := qDesc s pkg q
  let x := s.queue pkg q
  let s := unitRead s (qRing d + 64 * (x.head % qEntries d)) 64
  (wordsOfLine (physWord s (qRing d + 64 * (x.head % qEntries d)) 64), (x.carries.head?).getD ⟨never, 0, pkg⟩,
    s.modQueue pkg q fun x => { x with head := x.head + 1, times := x.times.drop 1, carries := x.carries.drop 1 })

/-- A ring holds an item, and its oldest can be read now (R82, R189). -/
def headThere (s : State) (pkg q : Nat) : Bool :=
  let d := qDesc s pkg q
  (s.queue pkg q).items != 0 && !unitBusy s (qRing d + 64 * ((s.queue pkg q).head % qEntries d)) 64

/-- The address of record r of a queue in host memory, by package (R467). -/
def recordAddr (s : State) (pkg q r : Nat) : Nat :=
  let d := qDesc s pkg q
  pkg * 2 ^ 64 + (qCring d + 32 * (r % 2 ^ (bitsAt d 31 28 + 6))) % 2 ^ 64

/-- The slot of a record has been released by the host, and the KBL is up (R463, R467). -/
def recordSlotFree (s : State) (pkg q r : Nat) : Bool := (s.pkg pkg).kblUp && mread s.host (recordAddr s pkg q r + 24) 8 == 0

/-- The KBL has carried something: its replays in a row end (R463). -/
def kblGood (s : State) (pkg : Nat) : State := s.modPkg pkg fun p => { p with kblFails := 0 }

/-- Dropped events are told by a LOST entry as soon as the store has room (R472). -/
def noteDropped (s : State) (pkg : Nat) : State :=
  let n := (s.pkg pkg).bridge.dropped
  if n == 0 || 4096 ≤ (s.pkg pkg).bridge.events.length + (s.pkg pkg).hostRecs.length then s
  else (s.modBridge pkg fun b => { b with dropped := 0 }).event pkg 0x0001 0 (bridgeEp pkg) 255 (word n)

/-- Records of a queue that have been held for 1 ms are logged, each once, in their order (R467). -/
def logHeld (s : State) (pkg q : Nat) : State :=
  ((s.pkg pkg).hostRecs.filter fun r => r.queue == q && !r.logged && r.since + 1000000 ≤ (s.pkgNow pkg).toNat).foldl (fun s r =>
    (s.modPkg pkg fun p => { p with hostRecs := p.hostRecs.map fun x =>
      if x.queue == q && x.idx == r.idx then { x with logged := true } else x }).event pkg 0x0062 q (bridgeEp pkg) 0xFF (word r.idx)) s

/-- The records of a queue that can be written are written, in order, up to the first that is held (R467); the room that they leave in the store goes
to a LOST entry first (R472). -/
def flushRecords (s : State) (pkg q : Nat) : Nat → State
  | 0 => s
  | n + 1 =>
    match (s.pkg pkg).hostRecs.find? (·.queue == q) with
    | none => s
    | some r =>
      if recordSlotFree s pkg q r.idx then
        let s := kblGood (logHeld s pkg q) pkg
        let s := { s with host := mwrite s.host (recordAddr s pkg q r.idx) 32 r.data.toNat }
        let s := noteDropped (s.modPkg pkg fun p => { p with hostRecs := p.hostRecs.filter fun x => !(x.queue == q && x.idx == r.idx) }) pkg
        flushRecords (s.modQueue pkg q fun x => { x with admitted := x.admitted.filter fun (e, _) => e != BitVec.ofNat 32 r.data.toNat })
          pkg q n
      else s

/-- The layout of a completion record (R270). -/
def recordBits (seq h status tasks msgs stores q now : Nat) : BitVec 256 :=
  BitVec.ofNat 256 (seq % 2 ^ 32 + h % 2 ^ 16 * 2 ^ 32 + status % 8 * 2 ^ 48 + tasks % 2 ^ 32 * 2 ^ 64 + msgs % 2 ^ 32 * 2 ^ 96
    + stores % 2 ^ 32 * 2 ^ 128 + q % 2 ^ 14 * 2 ^ 160 + now % 2 ^ 64 * 2 ^ 192)

/-- A request completes with a record (R270, R467): it is written at once where its slot is free and no earlier record is held, else
held; with the KBL down and the store full it is dropped and counted (R463). -/
def pushRecord (s : State) (pkg q : Nat) (seq : BitVec 32) (h status tasks msgs stores : Nat) : State :=
  let idx := (s.queue pkg q).records
  let now := (s.pkgNow pkg).toNat
  let s := s.modQueue pkg q fun x => { x with records := x.records + 1 }
  let p := s.pkg pkg
  let direct := recordSlotFree s pkg q idx && !p.hostRecs.any (·.queue == q)
  if !direct && !p.kblUp && 4096 ≤ p.hostRecs.length + p.bridge.events.length then
    (s.modBridge pkg fun b => { b with lostRecs := b.lostRecs + 1 }).modQueue pkg q fun x =>
      { x with admitted := x.admitted.filter (·.1 != seq) }
  else
    let s := s.modPkg pkg fun p => { p with hostRecs := p.hostRecs ++
      [⟨q, idx, recordBits seq.toNat h status tasks msgs stores q now, now, false⟩] }
    flushRecords s pkg q (s.pkg pkg).hostRecs.length

/-- An entry of a MODE 0 ring (R262), as placed by the host gateway (R465). -/
def ringEntry (s : State) (pkg q seq : Nat) : BitVec 512 :=
  let d := qDesc s pkg q
  BitVec.ofNat 512 (physWord s (qRing d + 64 * (seq % qEntries d)) 64)

/-- The next entry of a queue stands in its ring and may be admitted now (R263, R466, R467). -/
def admissible (s : State) (pkg q : Nat) : Bool :=
  let d := qDesc s pkg q
  let x := s.queue pkg q
  let p := s.pkg pkg
  qMode d == 0 && ctxValid s pkg (qCtx d)
  && (x.waiting.any fun (e, mark) => e == x.next && !hostBusy s pkg mark)
  && !(p.hostRecs.any (·.queue == q) && 4096 ≤ p.hostRecs.length + p.bridge.events.length)
  && !unitBusy s (qRing d + 64 * (x.next.toNat % qEntries d)) 64

/-- The next entry of a queue is admitted (R206, R263, R468): cancelled or lapsed it completes without a handle; else it takes a
handle, or its queue waits for one. -/
def admitEntry (s : State) (pkg q : Nat) : State :=
  if !admissible s pkg q then s
  else
    let d := qDesc s pkg q
    let x := s.queue pkg q
    let seq := x.next
    let s := unitRead s (qRing d + 64 * (seq.toNat % qEntries d)) 64
    let e := ringEntry s pkg q seq.toNat
    let inst : Instant := BitVec.ofNat 48 (bitsAt e.toNat 111 64)
    let take := fun (s : State) => s.modQueue pkg q fun x =>
      { x with next := x.next + 1, waiting := x.waiting.filter (·.1 != seq), cancels := x.cancels.filter (· != seq) }
    let bare := fun (s : State) (status : Nat) =>
      pushRecord ((take s).modQueue pkg q fun x => { x with admitted := x.admitted ++ [(seq, 0)] }) pkg q seq 0 status 1 0 0
    let unwait := fun (s : State) => s.modPkg pkg fun p => { p with handleWait := p.handleWait.filter (· != q) }
    if x.cancels.contains seq then unwait (bare s 3)
    else if lapsedAt (s.pkgNow pkg) inst then unwait (bare s 1)
    else
      match takeHandleBehind s pkg ((s.pkg pkg).handleWait.takeWhile (· != q)).length with
      | none => s.modPkg pkg fun p => { p with handleWait := addOnce q p.handleWait }
      | some (h, s) =>
        let l := { Lapse.start .request pkg (BitVec.ofNat 16 h) inst 1 (qCtx d) with queue := q, seq := seq }
        let s := unwait (makeHandle (take s) pkg h l)
        s.modQueue pkg q fun x =>
          { x with admitted := x.admitted ++ [(seq, h)],
                   ready := x.ready ++ [(e, (s.pkgNow pkg).toNat, ⟨inst, BitVec.ofNat 16 h, pkg⟩)] }

/-- The host can reach the package: power, bridge and KBL (R463, R474). -/
def hostReaches (s : State) (pkg : Nat) : Bool := (s.pkg pkg).powered && (s.pkg pkg).kblUp && (s.pkg pkg).bridge.bootState != 0

/-- A host access is discarded and logged (R464). -/
def hostDiscard (s : State) (pkg off : Nat) : State := s.event pkg 0x0060 0 (bridgeEp pkg) 0xFF (word off)

/-- HOST_QUEUE_ENTRY_WRITE (R465, R263). -/
def execHostQueueEntryWrite (pkg off n : Nat) (entry : BitVec 512) (s : State) : Host.Outcome State Fault Refusal :=
  .next (
    let q := off / 64
    let d := qDesc s pkg q
    let seq := BitVec.ofNat 32 entry.toNat
    let ahead := (seq - (s.queue pkg q).next).toNat
    if !hostReaches s pkg then s
    else
    let s := kblGood s pkg
    if n != 64 || off % 64 != 0 || 16384 ≤ q || qMode d != 0 then hostDiscard s pkg (0x100000000 + off)
    else if qEntries d ≤ ahead then s.event pkg 0x0061 q (bridgeEp pkg) 0xFF (seq.setWidth 64)
    else
      let s := physWrite s (qRing d + 64 * (seq.toNat % qEntries d)) (leBytes 64 entry.toNat)
      s.modQueue pkg q fun x => { x with waiting := (x.waiting.filter (·.1 != seq)) ++ [(seq, (s.pkg pkg).hostWrites)] })

/-- ENTRY_ADMISSION (R263). -/
def execEntryAdmission (pkg q : Nat) (s : State) : Host.Outcome State Fault Refusal := .next (admitEntry s pkg q)

/-- The gateway still keeps the slot of an entry whose record has been sent (R468): one of the last ENTRIES that it has admitted. Of those, `held` have
their records made and not yet sent. -/
def slotKept (d : Nat) (x : QState) (held : Nat) (seq : BitVec 32) : Bool :=
  decide ((x.next - seq).toNat ≤ min (qEntries d) (x.records + x.admitted.length - held))

/-- HOST_CANCEL_WRITE (R468). -/
def execHostCancelWrite (pkg off n : Nat) (w : BitVec 64) (s : State) : Host.Outcome State Fault Refusal :=
  .next (
    let q := off / 8
    let d := qDesc s pkg q
    let x := s.queue pkg q
    let seq := BitVec.ofNat 32 w.toNat
    let held := ((s.pkg pkg).hostRecs.filter (·.queue == q)).length
    if !hostReaches s pkg then s
    else
    let s := kblGood s pkg
    let bad := hostDiscard s pkg (0x100100000 + off)
    if n != 8 || off % 8 != 0 || 16384 ≤ q || qMode d != 0 || w.toNat / 2 ^ 32 != 0 then bad
    else match x.admitted.find? (·.1 == seq) with
      | some (_, h) =>
        (match s.lapse? pkg h with
          | some e => if e.kind == .request && e.queue == q && e.seq == seq && !e.l && e.ref != 0 then lapseHandle s pkg h true else s
          | none => s)
      | none =>
        if (seq - x.next).toNat < qEntries d then s.modQueue pkg q fun x => { x with cancels := addOnce seq x.cancels }
        else if slotKept d x held seq then s
        else bad)

/-- HELD_RECORD_RETRY (R467): each record held for 1 ms is logged once, and the slot of the first is read again. -/
def execHeldRecordRetry (pkg q : Nat) (s : State) : Host.Outcome State Fault Refusal :=
  .next (let s := logHeld s pkg q; flushRecords s pkg q (s.pkg pkg).hostRecs.length)

end Sys2Proof.Machine
end

