-- ==== Sys2Proof/Machine/Sched.lean ====
section
/-! DEFINITION. The dispatcher and the cluster dispensers (R249 to R272, R275): launch headers, routing, placement of groups, delivery
of packets, stealing and frame re-entry. -/

namespace Sys2Proof.Machine

/-- A field of a launch header (R250). -/
def hf (h : BitVec 512) (hi lo : Nat) : Nat := bitsAt h.toNat hi lo

/-- The boundary B_L of a work identifier (R249). -/
def widBound (h : BitVec 512) (l : Nat) : Nat := ((List.range l).map fun i => hf h (7 * i + 6) (7 * i)).sum

/-- The number of the group of a packet (R252): with all widths 0 and ALEV 0 it is WID (R458). -/
def groupNum (h : BitVec 512) (wid : Word) : Nat := wid.toNat / 2 ^ widBound h (hf h 47 45)

/-- A launch header is usable as far as its own bits say (R251): reserved bits, ranges, the widths' sum. -/
def headerOk (h : BitVec 512) : Bool :=
  h.toNat / 2 ^ 341 == 0 && hf h 319 277 == 0 && hf h 255 205 == 0 && hf h 199 197 == 0 && hf h 191 160 == 0 && hf h 127 92 == 0
  && hf h 63 48 == 0 && hf h 44 42 == 0
  && widBound h 6 ≤ 64 && hf h 47 45 ≤ 6 && 1 ≤ hf h 74 64 && hf h 74 64 ≤ 1536 && (hf h 91 91 == 0 || hf h 78 75 ≤ 7)
  && hf h 84 79 ≤ 32 && hf h 90 85 ≤ 32 && hf h 195 192 != 15 && hf h 203 200 != 15

/-- Some core of the clusters of a queue's mask could hold the allotment (R251). Of an empty mask R251 does not speak: the model takes the header as
usable (DESIGN CHOICE, log 83). -/
def couldHold (s : State) (pkg d spad : Nat) : Bool :=
  (qMask d).isEmpty || (qMask d).any fun cl => (clusterCores pkg cl).any fun e => spad * 1024 + xbBytes (s.core e) ≤ spadSize e

/-- The map entry of a group, where it names a core of the package (R22, R253). -/
def vcMine (s : State) (pkg : Nat) (ctx : Ctx) (g : Nat) : Option (EP × Nat × Nat) := (vcOf s pkg ctx g).filter fun (e, _) => epPkg e == pkg

/-- The core that holds a group's record. -/
def groupHome (s : State) (pkg : Nat) (ctx : Ctx) (g : Nat) : Option EP :=
  (s.cores.find? fun (e, c) => epPkg e == pkg && c.groups.any fun x => x.ctx == ctx && x.vcore == g).map (·.1)

/-- The end of a group wherever it is, where nothing of it is left (R254). -/
def checkHome (s : State) (pkg : Nat) (ctx : Ctx) (g : Nat) : State := match groupHome s pkg ctx g with
  | some e => checkGroup s e ctx g
  | none => s

/-- A packet that fails its lapse check is discarded (R267). -/
def discardPacket (s : State) (pkg : Nat) (c : Carry) : State := refDec (s.report pkg c.hnd.toNat 1 0 0) pkg c.hnd.toNat

/-- An entry that the dispatcher or a dispenser rejects completes FAILED at once (R270); a packet that is no entry is discarded and
counted (R218). -/
def rejectPacket (s : State) (pkg : Nat) (p : DispPkt) : State :=
  if p.entry then freeHandle (pushRecord s pkg p.queue p.seq p.carry.hnd.toNat 4 0 0 0) pkg p.carry.hnd.toNat
  else discardPacket s pkg p.carry

/-- The packets in a cluster's dispenser. -/
def packetsIn (s : State) (pkg cl : Nat) : Nat := (s.cluster (pkg * 256 + cl)).packets.length

/-- The cluster of a mask with the fewest packets, the lowest number first (R265). -/
def fewest (s : State) (pkg : Nat) (l : List Nat) : Option Nat :=
  l.foldl (fun acc c => match acc with
    | none => some c
    | some b => if packetsIn s pkg c < packetsIn s pkg b then some c else acc) none

/-- The cluster that a packet of a group goes to, and whether it becomes a pending placement (R265); none where no candidate has
room. -/
def routeOf (s : State) (pkg d : Nat) (ctx : Ctx) (g : Nat) : Option (Nat × Bool) :=
  let room := fun c => packetsIn s pkg c < 512
  match vcMine s pkg ctx g with
  | some (e, _, _) => if room (clusterOf e) then some (clusterOf e, false) else none
  | none =>
    match (s.pkg pkg).pending.find? fun (c, v, _) => c == ctx && v == g with
    | some (_, _, cl) => if room cl then some (cl, false) else none
    | none => (fewest s pkg ((qMask d).filter room)).map (·, true)

/-- A packet with a usable header leaves the dispatcher (R252, R265); none where it must wait. -/
def routePacket (s : State) (pkg : Nat) (p : DispPkt) (h : BitVec 512) : Option State :=
  let d := qDesc s pkg p.queue
  if !headerOk h || !couldHold s pkg d (hf h 74 64) then some (rejectPacket s pkg p)
  else
    let g := groupNum h (p.pkt.getD 1 0)
    if 65536 ≤ g || ctxVclen s pkg p.ctx ≤ g then some (rejectPacket s pkg p)
    else (routeOf s pkg d p.ctx g).map fun (cl, new) =>
      let w0 := p.pkt.getD 0 0
      let w0 := if p.entry then word (w0.toNat / 2 ^ 32 * 2 ^ 32 + hf h 159 128) else w0
      let s := if new then s.modPkg pkg fun x => { x with pending := x.pending ++ [(p.ctx, g, cl)] } else s
      s.modCluster (pkg * 256 + cl) fun x => { x with packets := x.packets ++
        [{ p with pkt := p.pkt.set 0 w0, hdr := h, grp := g, since := (s.pkgNow pkg).toNat }] }

/-- A launch header read under the context's translation (R251); none where the read faults. -/
def readHeader (s : State) (pkg : Nat) (ctx : Ctx) (a : Word) : Option (BitVec 512) :=
  if a.toNat / 2 ^ 62 == 2 && bitsAt a.toNat 61 56 == 0 && a.toNat % 64 == 0 then
    match walkNow s pkg ctx (a.toNat % 2 ^ 56) with
    | some x => if x.rd then (lineValue s (x.addr (a.toNat % 2 ^ 56))).map (BitVec.ofNat 512) else none
    | none => none
  else none

/-- The read of a launch header meets the errors of the lines that it reads (R93, R95). -/
def meetHeader (s : State) (pkg : Nat) (ctx : Ctx) (a : Word) : State :=
  let va := a.toNat % 2 ^ 56
  let s := unitWalk s pkg ctx va
  match walkNow s pkg ctx va with
  | some x => if x.rd then unitRead s (x.addr va) 64 else s
  | none => s

/-- A unit's walk of the tables of a context, and its read of n bytes at the address that it gives, must wait at their homes (R82). -/
def walkBusy (s : State) (pkg : Nat) (ctx : Ctx) (va n : Nat) : Bool :=
  (walkAddrs s pkg va (ctxRoot s pkg ctx) 0 4).any (unitBusy s · 8)
    || (walkNow s pkg ctx va).any fun x => unitBusy s (x.addr va) n

/-- The packet at the head of a queue that the dispatcher may serve now, with its header's address; none where the queue has
nothing to serve (R264). -/
def headOf (s : State) (pkg q : Nat) : Option (DispPkt × Word × Nat) :=
  let d := qDesc s pkg q
  let x := s.queue pkg q
  let ctx := qCtx d
  if !ctxValid s pkg ctx || (s.pkg pkg).headerReads.any (·.1 == q) then none
  else if qMode d == 0 then
    match x.ready with
    | [] => none
    | (e, at_, c) :: _ =>
      let n := e.toNat
      let seq := BitVec.ofNat 32 n
      if bitAt n 32 && x.admitted.any fun (k, _) => k == seq - 1 then none
      else
        let lh := bitsAt n 191 128
        some (⟨[word (qPri d * 2 ^ 32), word (bitsAt n 255 192), handleWord c.inst c.hnd, word (bitsAt n 319 256), 0,
            word (bitsAt n 511 448), word (bitsAt n 383 320), word (bitsAt n 447 384)], ctx, q, seq, 0, 0, qPri d, at_, c, true⟩,
          word (if lh == 0 then qLhdr d else lh), at_)
  else if qMode d == 1 then
    if !headThere s pkg q then none
    else
      let (ws, c, _) := popItem s pkg q
      let at_ := (x.times.head?).getD 0
      some (⟨ws, ctx, q, 0, 0, 0, bitsAt (ws.getD 0 0).toNat 34 32, at_, c, false⟩, word (qLhdr d), at_)
  else none

/-- The queue without its head. -/
def dropHead (s : State) (pkg q : Nat) : State :=
  if qMode (qDesc s pkg q) == 0 then s.modQueue pkg q fun x => { x with ready := x.ready.drop 1 } else (popItem s pkg q).2.2

/-- The effective priority of a queue whose oldest entry has waited since a time (R264). -/
def effPri (s : State) (pkg q at_ : Nat) : Nat := min 7 (qPri (qDesc s pkg q) + ((s.pkgNow pkg).toNat - at_) / 64000)

/-- The head of a queue can leave now: lapsed ones and those whose header must be read always can, the others where their
dispenser has room. -/
def canLeave (s : State) (pkg q : Nat) (p : DispPkt) (lh : Word) : Bool :=
  expired s (pkg * 2 ^ 14) p.carry || match (s.queue pkg q).header with
    | some (a, h) => a != lh || (routePacket s pkg p h).isSome
    | none => true

/-- The queues that can be served now, with their effective priority. -/
def servable (s : State) (pkg : Nat) : List (Nat × Nat) :=
  (s.pkg pkg).queues.filterMap fun (q, _) => match headOf s pkg q with
    | some (p, lh, at_) => if canLeave s pkg q p lh then some (q, effPri s pkg q at_) else none
    | none => none

/-- The queue that the dispatcher serves next (R264): the highest effective priority, round-robin among equals. -/
def nextQueue (s : State) (pkg : Nat) : Option Nat :=
  let l := servable s pkg
  let top := (l.map (·.2)).foldl max 0
  let best := (l.filter (·.2 == top)).map (·.1)
  ((best.filter fun q => (s.pkg pkg).rr < q) ++ best).head?

/-- DISPATCH_ENTRY (R264): the head of the queue that is served next leaves it; its header is read unless the queue's last one had
the same address (R251). -/
def execDispatchEntry (pkg : Nat) (s : State) : Host.Outcome State Fault Refusal :=
  .next (
    match nextQueue s pkg with
    | none => s
    | some q => match headOf s pkg q with
      | none => s
      | some (p, lh, _) =>
        let s := s.modPkg pkg fun x => { x with rr := q }
        if expired s (pkg * 2 ^ 14) p.carry then discardPacket (dropHead s pkg q) pkg p.carry
        else match (s.queue pkg q).header with
          | some (a, h) =>
            if a == lh then (match routePacket (dropHead s pkg q) pkg p h with
              | some s => s
              | none => s)
            else (dropHead s pkg q).modPkg pkg fun x => { x with headerReads := x.headerReads ++ [(q, { p with hdr := lh.setWidth 512 })] }
          | none => (dropHead s pkg q).modPkg pkg fun x => { x with headerReads := x.headerReads ++ [(q, { p with hdr := lh.setWidth 512 })] })

/-- LAUNCH_HEADER_READ (R251): the k-th read under way returns; the packet leaves where its dispenser has room, and until then keeps what has been
read unless an INVTLB drops it. -/
def execLaunchHeaderRead (pkg k : Nat) (s : State) : Host.Outcome State Fault Refusal :=
  .next (
    match (s.pkg pkg).headerReads[k]? with
    | none => s
    | some (q, p) =>
      let a : Word := p.hdr.setWidth 64
      let done := fun (s : State) => s.modPkg pkg fun x => { x with headerReads := dropAt k x.headerReads }
      let leave := fun (s : State) (h : BitVec 512) => match routePacket (done s) pkg p h with
        | some s => s
        | none => s
      match (s.queue pkg q).header.filter (·.1 == a) with
      | some (_, h) => leave s h
      | none =>
        if walkBusy s pkg p.ctx (a.toNat % 2 ^ 56) 64 then s
        else
          let s := meetHeader s pkg p.ctx a
          match readHeader s pkg p.ctx a with
          | none => rejectPacket (done s) pkg p
          | some h => leave (s.modQueue pkg q fun x => { x with header := some (a, h) }) h)

/-- Every entry that the core's write queues hold has been written (R146). -/
def quiet (s : State) (e : EP) : Bool := (s.core e).destQ.isEmpty && (s.core e).tileQ.isEmpty

/-- The threads of a cluster that wait for work on a quiet core, in the order of their cores and slots (log 2). -/
def waiters (s : State) (key : Nat) : List (EP × Nat × Thread) :=
  s.cores.flatMap fun (e, c) =>
    if clusterKey e == key && quiet s e then
      c.slots.filterMap fun (k, t) => if t.waitsWork && !t.trails && t.origin.isNone && !t.stopped then some (e, k, t) else none
    else []

/-- A thread receives a packet (R269): one that issued WFW in g[d] and the seven after it; one set waiting by placement, and one
that waits after YIELD (log 16), in g1 to g8 with everything else cleared. -/
def receive (s : State) (e : EP) (t : Thread) (ws : Packet) : Thread :=
  let w := fun i => (ws.getD i 0).toNat
  let t := match t.park with
    | some ⟨.work d false false, _, _, next, _, _, _⟩ =>
      (((ws.zipIdx.foldl (fun (t : Thread) (x, i) => t.putG (d + BitVec.ofNat 5 i) x) t).p7 true).goTo next)
    | _ =>
      let t := (List.range 32).foldl (fun (t : Thread) i => t.putG (BitVec.ofNat 5 i) (if 1 ≤ i && i ≤ 8 then ws.getD (i - 1) 0 else 0)) t
      let c := ctxRecord s (epPkg e) t.ctx
      let (base, size) := match vcOf s (epPkg e) t.ctx t.vcore with
        | some (_, b, z) => (b, z)
        | none => (t.sr.lbase.toNat, t.sr.lsize.toNat)
      { (t.goTo (BitVec.ofNat 32 (w 0))) with
        fresh := true, regs := { t.regs with p := 1 },
        sr := { t.sr with lbase := BitVec.ofNat 11 base, lsize := BitVec.ofNat 11 size,
                          peermap := BitVec.ofNat 44 (bitsAt c 247 204), trapbase := BitVec.ofNat 26 (bitsAt c 287 262) } }
  let t := t.setHandle (word (w 2))
  let t := { t with sr := { t.sr with wid := word (w 1), pri := BitVec.ofNat 3 (w 0 / 2 ^ 32) } }
  if bitAt (w 0) 36 then
    { t with sr := { t.sr with sfa := BitVec.ofNat 5 (w 4), sfb := BitVec.ofNat 5 (w 4 / 2 ^ 8), ssa := BitVec.ofNat 21 (w 5),
                               ssb := BitVec.ofNat 21 (w 5 / 2 ^ 32) } }
  else match groupOf s e t.ctx t.vcore with
    | some g => { t with sr := { t.sr with sfa := g.sfa, sfb := g.sfb, ssa := g.ssa, ssb := g.ssb } }
    | none => t

/-- A packet is written into a slot; into both slots of a redundant pair that placement has just made (R255, R269), while to the trailer of
one that waits elsewhere its leader's queue brings it (R294). The slot keeps the packet's priority (R325). -/
def deliver (s : State) (e : EP) (slot : Nat) (ws : Packet) : State :=
  match s.thr? e slot with
  | none => s
  | some t =>
    let both := match t.park with
      | some ⟨.work _ placed _, _, _, _, _, _, _⟩ => placed
      | _ => false
    let s := s.modThr e slot fun x => receive s e x ws
    let s := match t.pair with
      | some q => if both then s.modThr e q.other fun x => receive s e x ws else s
      | none => s
    s.keepPri e (pairSlots t slot) (BitVec.ofNat 3 ((ws.getD 0 0).toNat / 2 ^ 32))

/-- Packets in the order of their examination: by priority, then by age (R266). -/
def examOrder (l : List DispPkt) : List DispPkt := (List.range 8).reverse.flatMap fun p => l.filter (·.pri == p)

/-- A packet leaves its dispenser. -/
def dropPacket (s : State) (key : Nat) (p : DispPkt) : State := s.modCluster key fun c => { c with packets := c.packets.erase p }

/-- The slots of a core that no group has reserved and no thread holds. -/
def freeSlots (s : State) (e : EP) : List Nat :=
  (List.range 16).filter fun k => !((s.core e).groups.any fun g => g.slots.contains k) && (s.thr? e k).isNone

/-- Operand slots that the groups of a core have reserved. -/
def opsReserved (s : State) (e : EP) : Nat := ((s.core e).groups.map (·.ops)).sum

/-- The physical tiles of a core that no group has reserved. -/
def freeTiles (s : State) (e : EP) : List Nat := (List.range 32).filter fun k => !((s.core e).groups.any fun g => g.tiles.contains k)

/-- The slots for n threads on a core: any, or for pairs slots k and k + 8 (R252, R253). -/
def slotsFor (s : State) (e : EP) (n : Nat) (pair : Bool) : Option (List Nat) :=
  let f := freeSlots s e
  let l := if pair then (f.filter fun k => k < 8 && f.contains (k + 8)).take n else f.take n
  if l.length == n then some l else none

/-- The core runs and can take new threads (R104, R481). -/
def coreOpen (s : State) (e : EP) : Bool := match s.core? e with
  | some c => !c.halted && (c.kind != .compute || (s.island (epPkg e) (islandOf e)).en)
  | none => false

/-- Slots and tiles of a core for a launch header (R253). -/
def coreTakes (s : State) (e : EP) (h : BitVec 512) : Option (List Nat × List Nat) :=
  if coreOpen s e && (epKind e == 0 || (hf h 84 79 == 0 && hf h 90 85 == 0)) && opsReserved s e + hf h 84 79 ≤ 32 then
    let tiles := (freeTiles s e).take (hf h 90 85)
    if tiles.length == hf h 90 85 then (slotsFor s e (hf h 78 75 + 1) (hf h 91 91 == 1)).map fun l => (l, tiles) else none
  else none

/-- The range of a group still belongs to it (R291): threads of it are placed, or the map entry still names its core and base. -/
def rangeHeld (s : State) (e : EP) (g : Group) : Bool :=
  !g.slots.isEmpty || match vcOf s (epPkg e) g.ctx g.vcore with
    | some (x, b, _) => x == e && b == g.base
    | none => false

/-- The ranges of a core that belong to groups without a resident thread by their map entries (R291), which may name it while the group's record
stands with another core (R452): base and size. -/
def movedRanges (s : State) (e : EP) : List (Nat × Nat) :=
  (s.cores.filter fun (k, _) => epPkg k == epPkg e).flatMap fun (_, c) => c.groups.filterMap fun g =>
    if !g.slots.isEmpty then none
    else match vcOf s (epPkg e) g.ctx g.vcore with
      | some (x, b, size) => if x == e then some (b, size) else none
      | none => none

/-- The lowest range of a size on a core at or above XB that meets no reserved range (R253, R291), in KiB. -/
def firstFit (s : State) (e : EP) (spad : Nat) : Option Nat :=
  let held := (((s.core e).groups.filter (rangeHeld s e)).map fun g => (g.base, g.spad)) ++ movedRanges s e
  let low := ceilDiv (xbBytes (s.core e)) 1024
  let ok := fun b => low ≤ b && b + spad ≤ spadSize e / 1024 && held.all fun g => !overlaps b spad g.1 g.2
  ((low :: held.map fun g => g.1 + g.2).filter ok).foldl (fun acc b => match acc with
    | none => some b
    | some a => some (min a b)) none

/-- The threads of a new group, each placed-waiting, a pair in two slots (R255). -/
def createThreads (s : State) (e : EP) (ctx : Ctx) (g : Nat) (pair : Bool) : List Nat → Nat → State
  | [], _ => s
  | k :: rest, t =>
    let (n, s) := s.draw 24
    let uid := s.nextUid
    let s := { s with nextUid := uid + 2 }
    let ref := fun lead other => if pair then some (PairRef.mk lead other [] [] none [] none) else none
    let a := { Thread.start uid n ctx g t with pair := ref true (k + 8) }
    let s := s.modCore e fun c => { c with slots := tput k a c.slots }
    let s := if pair then s.modCore e fun c => { c with
        slots := tput (k + 8) { Thread.start (uid + 1) (n + 12) ctx g t with pair := ref false k } c.slots } else s
    createThreads s e ctx g pair rest (t + 1)

/-- A group is placed on a core (R253, R255): its tiles with no kind and every cell 0 (R66), its record, its threads, and where the dispenser chose the core its map entry. -/
def placeGroup (s : State) (e : EP) (p : DispPkt) (base spad : Nat) (slots tiles : List Nat) (wrote : Bool) : State :=
  let h := p.hdr
  let pair := hf h 91 91 == 1
  let g : Group := ⟨p.ctx, p.grp, base, spad, hf h 78 75, hf h 84 79, hf h 90 85, pair,
    if pair then slots ++ slots.map (· + 8) else slots, tiles, BitVec.ofNat 5 (hf h 196 192), BitVec.ofNat 5 (hf h 204 200),
    BitVec.ofNat 21 (hf h 276 256), BitVec.ofNat 21 (hf h 340 320), wrote⟩
  let pkg := epPkg e
  let s := if wrote then physWrite s (vcAddr s pkg p.ctx p.grp) (leBytes 8 (e + base * 2 ^ 24 + spad * 2 ^ 48 + 2 ^ 63)) else s
  let s := s.modPkg pkg fun x => { x with pending := x.pending.filter fun (c, v, _) => !(c == p.ctx && v == p.grp) }
  let s := s.modCore e fun c => { c with groups := c.groups ++ [g] }
  let s := tiles.zipIdx.foldl (fun s (k, n) => s.modCore e fun c =>
    { c with tiles := tput k ⟨(p.ctx, p.grp), n, .none, false, false, 0, none⟩ c.tiles, acc := mclear c.acc (k * 8192) 8192 }) s
  createThreads s e p.ctx p.grp pair slots 0

/-- What the dispenser can do with a packet whose group is placed nowhere (R253). -/
inductive Placing where
  | place (e : EP) (base spad : Nat) (slots tiles : List Nat) (wrote : Bool)
  | reject
  | wait
  deriving DecidableEq, Repr

/-- Where a group can be placed (R253): on its map entry's core, else by first fit in the cluster. -/
def placing (s : State) (pkg cl : Nat) (p : DispPkt) : Placing :=
  let spad := hf p.hdr 74 64
  match vcMine s pkg p.ctx p.grp with
  | some (e, base, size) =>
    if size < spad then .reject
    else match coreTakes s e p.hdr with
      | some (slots, tiles) => if quiet s e then .place e base size slots tiles false else .wait
      | none => .wait
  | none =>
    match (clusterCores pkg cl).findSome? (fun e => match firstFit s e spad, coreTakes s e p.hdr with
        | some b, some (slots, tiles) => some (e, b, slots, tiles)
        | _, _ => none) with
    | some (e, b, slots, tiles) =>
      if quiet s e && !unitBusy s (vcAddr s pkg p.ctx p.grp) 8 then .place e b spad slots tiles true else .wait
    | none => .wait

/-- What the dispenser can do with a packet now: a thread of its group that waits, or a placement. -/
inductive Dispose where
  | discard | reject
  | into (e : EP) (slot : Nat)
  | place (e : EP) (base spad : Nat) (slots tiles : List Nat) (wrote : Bool)
  | pass
  deriving DecidableEq, Repr

/-- A packet examined (R266, R267): lapsed, deliverable to a waiting thread, placeable, or passed over. No new group is placed behind
a packet that has waited 64 µs before it. -/
def examine (s : State) (pkg cl : Nat) (before : List DispPkt) (p : DispPkt) : Dispose :=
  let key := pkg * 256 + cl
  if expired s (pkg * 2 ^ 14 + cl / 32 * 2 ^ 11) p.carry then .discard
  else match (waiters s key).find? fun (_, _, t) => t.ctx == p.ctx && t.vcore == p.grp with
    | some (e, k, _) => .into e k
    | none =>
      if (groupHome s pkg p.ctx p.grp).isSome then .pass
      else match placing s pkg cl p with
        | .reject => .reject
        | .wait => .pass
        | .place e b z sl ti w =>
          if before.any fun x => x.since + 64000 ≤ (s.pkgNow pkg).toNat then .pass else .place e b z sl ti w

/-- The packet at the bottom of a deque, or at its top. -/
def armAt (s : State) (e : EP) (bottom : Bool) : Option Arm :=
  if bottom then (s.core e).deque.getLast? else (s.core e).deque.head?

/-- The deque that a waiting thread takes from (R272): its own core's bottom, else another's top, where the context agrees. -/
def dequeFor (s : State) (e : EP) (t : Thread) : Option (EP × Bool × Arm) :=
  match (armAt s e true).filter fun a => a.ctx == t.ctx with
  | some a => some (e, true, a)
  | none => s.cores.findSome? fun (x, _) =>
      if clusterKey x == clusterKey e && x != e && epKind x == 0 && epKind e == 0 then
        ((armAt s x false).filter fun a => a.ctx == t.ctx).map fun a => (x, false, a)
      else none

/-- The carry of an arm: its handle word. -/
def armCarry (pkg : Nat) (a : Arm) : Carry :=
  let w := (a.pkt.getD 2 0).toNat
  ⟨BitVec.ofNat 48 (w / 2 ^ 16), BitVec.ofNat 16 w, pkg⟩

/-- A waiting thread takes a deque entry, or the entry is discarded at its lapse check (R272). -/
def takeArm (s : State) (e : EP) (slot : Nat) (t : Thread) : Option State :=
  (dequeFor s e t).map fun (x, bottom, a) =>
    let pkg := epPkg e
    let s := s.modCore x fun c => { c with deque := if bottom then c.deque.dropLast else c.deque.drop 1 }
    let s := if expired s e (armCarry pkg a) then discardPacket s pkg (armCarry pkg a) else deliver s e slot a.pkt
    checkHome s pkg a.ctx a.vcore

/-- A packet for a group waits at the dispenser. -/
def hasPacket (s : State) (key : Nat) (t : Thread) : Bool := (s.cluster key).packets.any fun p => p.ctx == t.ctx && p.grp == t.vcore

/-- DISPENSER_EXAMINE (R266): of the k-th packet in examination order, which is acted on where none before it can be delivered; past
the packets, the waiting threads take deque entries (R272). -/
def execDispenserExamine (pkg cl k : Nat) (s : State) : Host.Outcome State Fault Refusal :=
  .next (
    let key := pkg * 256 + cl
    let l := examOrder (s.cluster key).packets
    match l[k]? with
    | some p =>
      let before := l.take k
      let free := (List.range k).all fun i => match l[i]? with
        | some x => (match examine s pkg cl (l.take i) x with | .into .. => false | .place .. => false | _ => true)
        | none => true
      (match examine s pkg cl before p with
        | .discard => checkHome (discardPacket (dropPacket s key p) pkg p.carry) pkg p.ctx p.grp
        | .reject => rejectPacket (dropPacket s key p) pkg p
        | .into e slot => if free then deliver (dropPacket s key p) e slot p.pkt else s
        | .place e b z sl ti w =>
          if free then deliver (placeGroup (dropPacket s key p) e p b z sl ti w) e (sl.headD 0) p.pkt else s
        | .pass => s)
    | none =>
      match ((waiters s key).filter fun (e, _, t) => !hasPacket s key t && (dequeFor s e t).isSome)[k - l.length]? with
      | some (e, slot, t) => (takeArm s e slot t).getD s
      | none => s)

/-- A frame is re-entered in a waiting thread of its group (R275): marked registers from memory, the others undefined (log 8). -/
def reenter (s : State) (e : EP) (slot : Nat) (f : Frame) : State :=
  match s.thr? e slot with
  | none => s
  | some t0 =>
    let (base, size) := match vcOf s (epPkg e) f.ctx f.vcore with
      | some (_, b, z) => (b, z)
      | none => (t0.sr.lbase.toNat, t0.sr.lsize.toNat)
    let at_ := fun i => spadRead s e (base * 1024 + f.addr + 8 * i) 8
    let mask := at_ 1 / 2 ^ 32
    let (n, s) := s.draw 64
    let place := fun i => 8 + popCount (mask % 2 ^ i) 32
    let pw := at_ (place 0)
    let g : Vector Word 32 := Vector.ofFn fun i =>
      if i.val == 0 then 0 else if bitAt mask i.val then word (at_ (place i.val)) else Config.freeWord (n + i.val)
    let p : BitVec 8 := (List.range 7).foldl (fun p i =>
      if (if bitAt mask 0 then bitAt pw (i + 1) else Config.freeBit (n + i)) then p ||| (1#8 <<< (i + 1)) else p) 1
    (s.keepPri e (pairSlots t0 slot) (BitVec.ofNat 3 (at_ 1))).modThr e slot fun t =>
      let t := (List.range 32).foldl (fun (t : Thread) i => t.unpend (BitVec.ofNat 5 i)) t
      let t := (t.setShadow (at_ 4)).setHandle (handleWord f.carry.inst f.carry.hnd)
      { t.goTo (BitVec.ofNat 32 (at_ 0)) with
        fresh := true, regs := { Regs.start (n + 32) with g := g, p := p },
        sr := { t.sr with wid := word (at_ 2), pri := BitVec.ofNat 3 (at_ 1), lbase := BitVec.ofNat 11 base, lsize := BitVec.ofNat 11 size } }

/-- A sealed entry holds back the reading of a frame (R189). -/
def frameSealed (s : State) (e : EP) (f : Frame) : Bool := match vcOf s (epPkg e) f.ctx f.vcore with
  | some (_, base, _) =>
    let a := base * 1024 + f.addr
    anySealed s e a 64 || anySealed s e a (64 + 8 * popCount (spadRead s e (a + 8) 8 / 2 ^ 32) 32)
  | none => false

/-- A frame leaves the dispenser. -/
def dropFrame (s : State) (key k : Nat) : State := s.modCluster key fun c => { c with frames := dropAt k c.frames }

/-- FRAME_REENTRY (R275): the k-th registered frame, once its condition holds and a thread of its group waits. -/
def execFrameReentry (pkg cl k : Nat) (s : State) : Host.Outcome State Fault Refusal :=
  .next (
    let key := pkg * 256 + cl
    match (s.cluster key).frames[k]? with
    | none => s
    | some f =>
      if !f.ready then s
      else if expired s f.ep f.carry then checkHome (discardPacket (dropFrame s key k) pkg f.carry) pkg f.ctx f.vcore
      else match (waiters s key).find? fun (_, _, t) => t.ctx == f.ctx && t.vcore == f.vcore with
        | none => s
        | some (e, slot, _) => if frameSealed s e f then s else reenter (dropFrame s key k) e slot f)

/-- Work that a thread of a quiet core could take now (R260, R272): a packet of its group, a deque entry, a frame; none where there is
none. -/
def workNow (s : State) (e : EP) (slot : Nat) (t : Thread) : Option State :=
  let key := clusterKey e
  let pkg := epPkg e
  if !quiet s e || t.trails then none
  else match (examOrder (s.cluster key).packets).find? fun p => p.ctx == t.ctx && p.grp == t.vcore && !expired s e p.carry with
    | some p => some (deliver (dropPacket s key p) e slot p.pkt)
    | none =>
      match (dequeFor s e t).filter fun (_, _, a) => !expired s e (armCarry pkg a) with
      | some _ => takeArm s e slot t
      | none =>
        match findPos (fun f : Frame => f.ready && f.ctx == t.ctx && f.vcore == t.vcore && !expired s e f.carry && !frameSealed s e f)
          (s.cluster key).frames with
        | some k => ((s.cluster key).frames[k]?).map fun f => reenter (dropFrame s key k) e slot f
        | none => none

end Sys2Proof.Machine
end

