-- ==== Sys2Proof/Machine/Integer.lean ====
section
/-! DEFINITION. The integer, address and predicate instructions (R330 to R342): they read and write registers alone. -/

namespace Sys2Proof.Machine

/-- An instruction of layout A on registers: g[d] receives f of g[a] and g[b] (R333). -/
def arith (op : Nat) (gd : Guard) (d a b : Reg) (f : Word → Word → Word) (s : State) : Host.Outcome State Fault Refusal :=
  pure_ { op := op } gd s fun t => t.putG d (f (gr t a) (gr t b))

/-- Signed quotient truncated toward zero (R333, R245). -/
def divS (x y : Word) : Word := if y == 0 then allOnes else BitVec.ofInt 64 (x.toInt.tdiv y.toInt)
/-- Unsigned quotient (R245). -/
def divU (x y : Word) : Word := if y == 0 then allOnes else BitVec.ofNat 64 (x.toNat / y.toNat)
/-- Signed remainder with the sign of the dividend (R245). -/
def remS (x y : Word) : Word := if y == 0 then x else BitVec.ofInt 64 (x.toInt.tmod y.toInt)
/-- Unsigned remainder (R245). -/
def remU (x y : Word) : Word := if y == 0 then x else BitVec.ofNat 64 (x.toNat % y.toNat)
/-- The amount of a shift by register: bits 5:0. -/
def shiftOf (w : Word) : Nat := w.toNat % 64

/-- NOP (R322). -/
def execNop (gd : Guard) (s : State) := pure_ { op := 0x000 } gd s id
/-- ADD (R333). -/
def execAdd (gd : Guard) (d a b : Reg) (s : State) := arith 0x001 gd d a b (· + ·) s
/-- SUB (R333). -/
def execSub (gd : Guard) (d a b : Reg) (s : State) := arith 0x002 gd d a b (· - ·) s
/-- MUL (R333). -/
def execMul (gd : Guard) (d a b : Reg) (s : State) := arith 0x004 gd d a b (· * ·) s
/-- MULH (R333). -/
def execMulh (gd : Guard) (d a b : Reg) (s : State) :=
  arith 0x005 gd d a b (fun x y => BitVec.ofInt 64 (x.toInt * y.toInt / 2 ^ 64)) s
/-- MULHN (R333). -/
def execMulhn (gd : Guard) (d a b : Reg) (s : State) :=
  arith 0x006 gd d a b (fun x y => BitVec.ofNat 64 (x.toNat * y.toNat / 2 ^ 64)) s
/-- DIV (R333, R245). -/
def execDiv (gd : Guard) (d a b : Reg) (s : State) := arith 0x007 gd d a b divS s
/-- DIVN (R333, R245). -/
def execDivn (gd : Guard) (d a b : Reg) (s : State) := arith 0x008 gd d a b divU s
/-- REM (R333, R245). -/
def execRem (gd : Guard) (d a b : Reg) (s : State) := arith 0x009 gd d a b remS s
/-- REMN (R333, R245). -/
def execRemn (gd : Guard) (d a b : Reg) (s : State) := arith 0x00A gd d a b remU s
/-- AND (R333). -/
def execAnd (gd : Guard) (d a b : Reg) (s : State) := arith 0x00B gd d a b (· &&& ·) s
/-- OR (R333). -/
def execOr (gd : Guard) (d a b : Reg) (s : State) := arith 0x00C gd d a b (· ||| ·) s
/-- XOR (R333). -/
def execXor (gd : Guard) (d a b : Reg) (s : State) := arith 0x00D gd d a b (· ^^^ ·) s
/-- ANDN (R333). -/
def execAndn (gd : Guard) (d a b : Reg) (s : State) := arith 0x00E gd d a b (fun x y => x &&& ~~~y) s
/-- SHL (R333). -/
def execShl (gd : Guard) (d a b : Reg) (s : State) := arith 0x012 gd d a b (fun x y => x <<< shiftOf y) s
/-- SHR (R333). -/
def execShr (gd : Guard) (d a b : Reg) (s : State) := arith 0x013 gd d a b (fun x y => x >>> shiftOf y) s
/-- SRA (R333). -/
def execSra (gd : Guard) (d a b : Reg) (s : State) := arith 0x014 gd d a b (fun x y => x.sshiftRight (shiftOf y)) s
/-- MIN (R333). -/
def execMin (gd : Guard) (d a b : Reg) (s : State) := arith 0x01B gd d a b (fun x y => if x.slt y then x else y) s
/-- MAX (R333). -/
def execMax (gd : Guard) (d a b : Reg) (s : State) := arith 0x01C gd d a b (fun x y => if x.slt y then y else x) s
/-- MINN (R333). -/
def execMinn (gd : Guard) (d a b : Reg) (s : State) := arith 0x01D gd d a b (fun x y => if x.ult y then x else y) s
/-- MAXN (R333). -/
def execMaxn (gd : Guard) (d a b : Reg) (s : State) := arith 0x01E gd d a b (fun x y => if x.ult y then y else x) s

/-- An instruction of one register operand: g[d] receives f of g[a]. -/
def unary (op : Nat) (gd : Guard) (d a : Reg) (f : Word → Word) (s : State) : Host.Outcome State Fault Refusal :=
  pure_ { op := op } gd s fun t => t.putG d (f (gr t a))

/-- SHLI (R334). -/
def execShli (gd : Guard) (d a : Reg) (n : BitVec 6) (s : State) := unary 0x015 gd d a (fun x => x <<< n.toNat) s
/-- SHRI (R334). -/
def execShri (gd : Guard) (d a : Reg) (n : BitVec 6) (s : State) := unary 0x016 gd d a (fun x => x >>> n.toNat) s
/-- SRAI (R334). -/
def execSrai (gd : Guard) (d a : Reg) (n : BitVec 6) (s : State) := unary 0x017 gd d a (fun x => x.sshiftRight n.toNat) s
/-- CLZ (R334). -/
def execClz (gd : Guard) (d a : Reg) (s : State) := unary 0x018 gd d a (fun x => word (64 - bitLen x.toNat)) s
/-- CTZ (R334). -/
def execCtz (gd : Guard) (d a : Reg) (s : State) := unary 0x019 gd d a (fun x => word (ctzN x.toNat 64)) s
/-- POPC (R334). -/
def execPopc (gd : Guard) (d a : Reg) (s : State) := unary 0x01A gd d a (fun x => word (popCount x.toNat 64)) s
/-- SEXT (R335). -/
def execSext (gd : Guard) (d a : Reg) (n : BitVec 6) (s : State) := unary 0x02B gd d a (fun x => sextTo (n.toNat + 1) x.toNat) s
/-- ZEXT (R335). -/
def execZext (gd : Guard) (d a : Reg) (n : BitVec 6) (s : State) := unary 0x02C gd d a (fun x => word (x.toNat % 2 ^ (n.toNat + 1))) s

/-- ADDI (R336). -/
def execAddi (gd : Guard) (d a : Reg) (imm : BitVec 22) (s : State) := unary 0x003 gd d a (· + imm.signExtend 64) s
/-- ANDI (R336). -/
def execAndi (gd : Guard) (d a : Reg) (imm : BitVec 22) (s : State) := unary 0x00F gd d a (· &&& imm.signExtend 64) s
/-- ORI (R336). -/
def execOri (gd : Guard) (d a : Reg) (imm : BitVec 22) (s : State) := unary 0x010 gd d a (· ||| imm.signExtend 64) s
/-- XORI (R336). -/
def execXori (gd : Guard) (d a : Reg) (imm : BitVec 22) (s : State) := unary 0x011 gd d a (· ^^^ imm.signExtend 64) s
/-- LI (R336). -/
def execLi (gd : Guard) (d : Reg) (imm : BitVec 48) (s : State) := pure_ { op := 0x022 } gd s fun t => t.putG d (imm.signExtend 64)
/-- LIH (R336). -/
def execLih (gd : Guard) (d a : Reg) (imm : BitVec 16) (s : State) :=
  unary 0x023 gd d a (fun x => (x &&& 0x0000FFFFFFFFFFFF) ||| (imm.setWidth 64 <<< 48)) s

/-- BFX (R337): len1 is len − 1. -/
def execBfx (gd : Guard) (d a : Reg) (pos len1 : BitVec 6) (s : State) :=
  unary 0x01F gd d a (fun x => word (x.toNat / 2 ^ pos.toNat % 2 ^ (len1.toNat + 1))) s
/-- BFXS (R337). -/
def execBfxs (gd : Guard) (d a : Reg) (pos len1 : BitVec 6) (s : State) :=
  unary 0x020 gd d a (fun x => sextTo (len1.toNat + 1) (x.toNat / 2 ^ pos.toNat)) s
/-- BFI (R337). -/
def execBfi (gd : Guard) (d a b : Reg) (pos len1 : BitVec 6) (s : State) :=
  arith 0x021 gd d a b (fun x y =>
    let mask := word (ones (len1.toNat + 1) * 2 ^ pos.toNat)
    (y &&& ~~~mask) ||| ((x <<< pos.toNat) &&& mask)) s
/-- LEA (R338). -/
def execLea (gd : Guard) (d a b : Reg) (sh : BitVec 2) (disp : BitVec 10) (s : State) :=
  arith 0x024 gd d a b (fun x y => x + (y <<< sh.toNat) + disp.signExtend 64) s

/-- A condition of R339. -/
def condHolds (cc : Cond) (x y : Word) : Bool := match cc with
  | .eq => x == y
  | .ne => x != y
  | .lt => x.slt y
  | .le => !y.slt x
  | .gt => y.slt x
  | .ge => !x.slt y
  | .ltn => x.ult y
  | .len => !y.ult x
  | .gtn => y.ult x
  | .gen => !x.ult y

/-- CMP (R339). -/
def execCmp (gd : Guard) (d : Pred) (a b : Reg) (cc : Cond) (s : State) :=
  pure_ { op := 0x025, holds := d == 7 } gd s fun t => t.putP d (condHolds cc (gr t a) (gr t b))
/-- CMPI (R339). -/
def execCmpi (gd : Guard) (d : Pred) (a : Reg) (cc : Cond) (imm : BitVec 32) (s : State) :=
  pure_ { op := 0x026, holds := d == 7 } gd s fun t => t.putP d (condHolds cc (gr t a) (imm.signExtend 64))
/-- PLOG (R340). -/
def execPlog (gd : Guard) (d a b : Pred) (table : BitVec 4) (s : State) :=
  pure_ { op := 0x027, holds := d == 7 || a == 7 || b == 7 } gd s fun t =>
    t.putP d (table.getLsbD (2 * b2n (pr t a) + b2n (pr t b)))
/-- SEL (R340). -/
def execSel (gd : Guard) (d a b : Reg) (c : Pred) (s : State) :=
  pure_ { op := 0x028, holds := c == 7 } gd s fun t => t.putG d (if pr t c then gr t a else gr t b)
/-- PSET (R341). -/
def execPset (gd : Guard) (a : Reg) (s : State) :=
  pure_ { op := 0x029, holds := true } gd s fun t =>
    { t with regs := { t.regs with p := ((gr t a).setWidth 8 &&& 0xFE) ||| 1 } }
/-- PGET (R341). -/
def execPget (gd : Guard) (d : Reg) (s : State) :=
  pure_ { op := 0x02A, holds := true } gd s fun t => t.putG d ((t.regs.p ||| 1).setWidth 64)

end Sys2Proof.Machine
end

