-- ==== Sys2Proof/Machine/Control.lean ====
section
/-! DEFINITION. Lines and heads in a scratchpad (R72, R73, R312 to R316), and the branches, calls and returns (R343). -/

namespace Sys2Proof.Machine

/-- The line of a code address in a core's scratchpad. -/
def lineAt (s : State) (e : EP) (pc : Nat) : Line := lineOfBytes (mbytes (s.core e).spad (pc / 64 * 64) 64)

/-- The segment of a code address has landed (R71). -/
def landed (s : State) (e : EP) (pc : Nat) : Bool := (s.core e).landed.getLsbD (pc / 4096)

/-- A code address is a head: the test of R316 on its line. -/
def isHead (l : Line) (pc : Nat) : Bool :=
  pc % 2 == 0 && 1 ≤ pc / 2 % 32 && pc / 2 % 32 ≤ lineN l && lineOk l

/-- The next head after one of a line (R332). -/
def nextHead (l : Line) (pc : CodeAddr) : CodeAddr :=
  let h := pc.toNat / 2 % 32
  if h < lineN l then pc + 2 else BitVec.ofNat 32 (pc.toNat / 64 * 64 + 66)

/-- A target that a fetch would trap on is reached first, and tested there (R316, R72, R73). -/
def fetchTraps (s : State) (e : EP) (pc : Nat) : Bool :=
  xbBytes (s.core e) ≤ pc || !landed s e pc || anyOchre s e (pc / 64 * 64) 64

/-- Control goes to a target (R316): not a head, cause 0x03 at the instruction, with whatever it had written before. Where the fetch of
the target traps, the head test is made when control next reaches it. -/
def branchTo (s : State) (u : Turn) (target : CodeAddr) (f : Thread → Thread) : State :=
  if fetchTraps s u.ep target.toNat then (s.jump u target f).modThr u.ep u.slot fun t => { t with fresh := true }
  else if isHead (lineAt s u.ep target.toNat) target.toNat then s.jump u target f
  else (s.modThr u.ep u.slot f).raise u 0x03 (target.setWidth 64) 0

/-- A branch by displacement from the instruction's own head (R316). -/
def relTarget (t : Thread) (disp : Int) : CodeAddr := BitVec.ofInt 32 (t.pc.toNat + 2 * disp)

/-- BR (R343). -/
def execBr (gd : Guard) (imm : BitVec 22) (s : State) :=
  issue { op := 0x040 } gd s fun u t s => branchTo s u (relTarget t imm.toInt) id

/-- A branch through a register (R343): bits above 31 set trap with cause 0x03. -/
def regBranch (s : State) (u : Turn) (w : Word) (f : Thread → Thread) : State :=
  if w.toNat / 2 ^ 32 != 0 then (s.modThr u.ep u.slot f).raise u 0x03 w 0
  else branchTo s u (w.setWidth 32) f

/-- BRR (R343). -/
def execBrr (gd : Guard) (a : Reg) (s : State) := issue { op := 0x041 } gd s fun u t s => regBranch s u (gr t a) id

/-- CALL (R343): the link is written before the target is tested. -/
def execCall (gd : Guard) (d : Reg) (imm : BitVec 22) (s : State) :=
  issue { op := 0x042 } gd s fun u t s =>
    branchTo s u (relTarget t imm.toInt) (·.putG d (u.next.setWidth 64))

/-- CALLR (R343). -/
def execCallr (gd : Guard) (d a : Reg) (s : State) :=
  issue { op := 0x043 } gd s fun u t s => regBranch s u (gr t a) (·.putG d (u.next.setWidth 64))

/-- JSEG (R343, R72): a target in a segment that has not landed traps at the JSEG, at or above XB too; past the last segment there is no
landed bit, and the fetch traps (R73; log 77). -/
def execJseg (gd : Guard) (imm : BitVec 22) (s : State) :=
  issue { op := 0x044 } gd s fun u t s =>
    let target := relTarget t imm.toInt
    if target.toNat / 4096 < 384 && !landed s u.ep target.toNat then
      s.raise u 0x06 (target.setWidth 64) (target.toNat / 4096)
    else branchTo s u target id

/-- What the reads of BTAG's table come to (R344): a check that fails when it is met, a word under a seal (R189), an entry's address, or the
end of the table. -/
inductive Scan where
  | trap (tr : Trap)
  | held (phys : Nat)
  | hit (target : CodeAddr)
  | fall
  deriving DecidableEq, Repr

/-- The table of BTAG read word by word from an address on (R344). -/
def btagScan (s : State) (u : Turn) (t : Thread) (tag : Nat) (a : Word) : Nat → State × Scan
  | 0 => (s, .fall)
  | n + 1 =>
    match checkLocal s u.ep t a 8, checkAligned a 8 with
    | .error tr, _ => (s, .trap tr)
    | _, .error tr => (s, .trap tr)
    | .ok phys, .ok _ =>
      if anySealed s u.ep phys 8 then (s, .held phys)
      else
        let s := meetErrors s u.ep phys 8
        if anyOchre s u.ep phys 8 then (s, .trap ⟨0x14, a, 0⟩)
        else
          let w := spadRead s u.ep phys 8
          if bitsAt w 31 12 == 0 && w % 2 ^ 12 == tag then (s, .hit (BitVec.ofNat 32 (w / 2 ^ 32)))
          else btagScan s u t tag (a + 8) n

/-- BTAG (R344). A trap of a read, or of the target's test, leaves none of its effects (R280). -/
def execBtag (gd : Guard) (d a b : Reg) (count : BitVec 12) (s : State) :=
  issue { op := 0x045, holds := true, ext := true, dst := [d.toNat] } gd s fun u t s =>
    match t.inbox with
    | [] => s.waitFor u t .inbox (gr t b)
    | m :: _ => withBanks s u t fun s =>
      let f := fun (t : Thread) => (t.putG d (m.tag.setWidth 64)).p7 true
      match btagScan s u t m.tag.toNat (gr t a) count.toNat with
      | (s, .trap tr) => s.raise u tr.cause tr.addr tr.info
      | (s, .held phys) => s.waitEver u (.unsealed phys 8)
      | (s, .fall) => s.retire u f
      | (s, .hit target) =>
        if !fetchTraps s u.ep target.toNat && !isHead (lineAt s u.ep target.toNat) target.toNat then
          s.raise u 0x03 (target.setWidth 64) 0
        else branchTo s u target f

end Sys2Proof.Machine
end

