-- ==== Sys2Proof/Machine/System.lean ====
section
/-! DEFINITION. The expiry, region and system instructions (17): handles and instants, regions, traps and returns, special registers,
and translation shootdown. CSWAP and RESUME stand in Swap.lean. -/

namespace Sys2Proof.Machine

/-- The members of a union as the die's replica holds them (R203, R434). -/
def unionMembers (s : State) (e : EP) (h : Nat) : Option (List (Nat × Bool)) := tget (s.die (dieKey e)).replica.unions h

/-- The replica of the die knows a handle as live (R431); handle 0 never lapses and is never free (R205). -/
def knownLive (s : State) (e : EP) (h : Nat) : Bool :=
  h == 0 || (s.lapse? (epPkg e) h).isSome && !(s.die (dieKey e)).replica.lapsed.contains h

/-- The handle belongs to the thread's context (R247). -/
def ownHandle (s : State) (e : EP) (t : Thread) (h : Nat) : Bool := match s.lapse? (epPkg e) h with
  | some x => x.ctx == t.ctx
  | none => false

/-- A handle is the slot's held handle or a member of the union it holds (R215, R431). -/
def holdsHandle (s : State) (e : EP) (t : Thread) (h : Nat) : Bool :=
  h == t.sr.hnd.toNat || ((unionMembers s e t.sr.hnd.toNat).getD []).any (·.1 == h)

/-- The slot may cancel a handle (R215, R247). -/
def mayCancel (s : State) (e : EP) (t : Thread) (h : Nat) : Bool :=
  h != 0 && (isSystem s e t || (t.sup && ownHandle s e t h) || holdsHandle s e t h)

/-- A handle operand: g[a][15:0] (R429). -/
def handleOf (w : Word) : Nat := w.toNat % 2 ^ 16

/-- HND's status word (R431). -/
def hndWord (s : State) (e : EP) (t : Thread) (h : Nat) : Word :=
  word (b2n (!knownLive s e h) + 2 * b2n (unionMembers s e h).isSome + 4 * b2n (holdsHandle s e t h))

/-- The time left to an instant (R431). -/
def timeToInst (now : Word) (inst : Instant) : Word :=
  if inst == never then BitVec.ofNat 64 (2 ^ 63 - 1)
  else if !lapsedAt now inst then (inst - now.setWidth 48).setWidth 64
  else 0 - (now.setWidth 48 - inst).setWidth 64

/-- HND (R431). -/
def execHnd (gd : Guard) (d a : Reg) (left : Bool) (s : State) :=
  issue { op := 0x0E0, holds := !left, ext := true, dst := [d.toNat] } gd s fun u t s =>
    if left then s.retire u (·.putG d (timeToInst (s.now u.ep) t.sr.inst))
    else
      let h := handleOf (gr t a)
      s.retire u fun t => (t.putG d (hndWord s u.ep t h)).p7 (knownLive s u.ep h)

/-- NARROW (R432, R213). -/
def execNarrow (gd : Guard) (a : Reg) (s : State) :=
  pure_ { op := 0x0E1 } gd s fun t =>
    let i : Instant := (gr t a).setWidth 48
    if earlier i t.sr.inst then { t with sr := { t.sr with inst := i } } else t

/-- The n halfwords of a list at a physical offset. -/
def listAt (s : State) (e : EP) (phys n : Nat) : List Nat := (List.range n).map fun i => spadRead s e (phys + 2 * i) 2

/-- A request goes to the instant unit and the thread parks until its answer (R433, R435, R436). -/
def State.askUnit (s : State) (u : Turn) (t : Thread) (d : Reg) (r : Req → IuReq) : State :=
  let ser := s.nextUid
  let s := { s with nextUid := ser + 1 }.modPkg (epPkg u.ep) fun p =>
    { p with iureqs := p.iureqs ++ [r (reqOf u.ep u.slot t (16 + 32 * ser) 0)] }
  s.parkAt u .answer 7 0 false none d 0 ser

/-- UNION (R433): the list is read, the rights are checked, and an earlier provisional reference ends. -/
def execUnion (gd : Guard) (d a : Reg) (n : BitVec 7) (s : State) :=
  issue { op := 0x0E2, holds := true, ext := true, dst := [d.toNat], out := some 6, cmp := [a] } gd s fun u t s =>
    let la := gr t a
    let len := 2 * n.toNat
    s.checked u (checkLocal s u.ep t la len) fun phys =>
    s.checked u (checkAligned la 2) fun _ =>
      if anySealed s u.ep phys len then s.waitEver u (.unsealed phys len)
      else withBanks s u t fun s =>
        let s := meetErrors s u.ep phys len
        if anyOchre s u.ep phys len then s.raise u 0x14 la 0
        else
          let hs := listAt s u.ep phys n.toNat
          match (if isSystem s u.ep t then none else hs.find? fun h => !mayCancel s u.ep t h) with
          | some h => s.raise u 0x04 (word h) 0x0E2
          | none =>
            let s := match t.provisional with
              | some h => (refDec s (epPkg u.ep) h.toNat).modThr u.ep u.slot fun t => { t with provisional := none }
              | none => s
            s.askUnit u t d fun req => .union req t.ctx hs d

/-- LIVEMASK (R434). -/
def execLivemask (gd : Guard) (d a : Reg) (s : State) :=
  issue { op := 0x0E3, holds := true, ext := true, dst := [d.toNat] } gd s fun u t s =>
    match unionMembers s u.ep (handleOf (gr t a)) with
    | some ms => s.retire u fun t => (t.putG d (word (ms.zipIdx.map fun (m, i) => if m.2 then 2 ^ i else 0).sum)).p7 true
    | none => s.retire u fun t => (t.putG d 0).p7 false

/-- CANCEL (R435, R215). -/
def execCancel (gd : Guard) (a : Reg) (s : State) :=
  issue { op := 0x0E4, holds := true, ext := true, out := some 6, cmp := [a] } gd s fun u t s =>
    let h := handleOf (gr t a)
    if !mayCancel s u.ep t h then s.raise u 0x04 (word h) 0x0E4
    else s.askUnit u t 0 fun req => .cancel req h

/-- ADOPT (R436, R214). -/
def execAdopt (gd : Guard) (a : Reg) (s : State) :=
  issue { op := 0x0E5, holds := true, ext := true, out := some 6, cmp := [a] } gd s fun u t s =>
    let h := handleOf (gr t a)
    let member := ((unionMembers s u.ep h).getD []).any (·.1 == t.sr.hnd.toNat)
    if !isSystem s u.ep t && !member then s.raise u 0x04 0 0x0E5
    else s.askUnit u t 0 fun req => .adopt req h

/-- A message of the thread goes to its die's region unit, and the thread parks until the answer (R438, R439, R441, R486). -/
def State.askRegion (s : State) (u : Turn) (t : Thread) (kind : Nat) (d : Reg) (dk : Nat) (m : RMsg) : State :=
  let ser := s.nextUid
  let s := { s with nextUid := ser + 1 }.sendRegion u.ep (unitEp dk) (reqOf u.ep u.slot t (16 + 32 * ser) 0) (carryOf u.ep t) m
  s.parkAt u .answer kind 0 false none d 0 ser

/-- RBEGIN (R438, R177). -/
def execRbegin (gd : Guard) (d a : Reg) (imm : BitVec 22) (s : State) :=
  issue { op := 0x0E8, illegal := true, holds := true, ext := true, out := some 7, cmp := [a] } gd s fun u t s =>
    s.askRegion u t 7 d (dieKey u.ep) (.begin_ (relTarget t imm.toInt) d (gr t a))

/-- RCOMMIT (R439). -/
def execRcommit (gd : Guard) (s : State) :=
  issue { op := 0x0E9, holds := true, ext := true, out := some 7 } gd s fun u t s =>
    match t.openRegion with
    | none => s.retire u (·.p7 false)
    | some r =>
      if !drainedMask s u.ep t 0x09 0 then s.waitEver u .commit
      else s.askRegion u t 9 0 (regionDie (epPkg u.ep) r.id) (.commit r.id)

/-- RABORT (R440). -/
def execRabort (gd : Guard) (s : State) :=
  issue { op := 0x0EA, holds := true, ext := true, out := some 7 } gd s fun u t s =>
    match t.openRegion with
    | none => s.retire u id
    | some _ => s.abortOwn u t 7

/-- RSTAT (R441, R195). -/
def execRstat (gd : Guard) (d : Reg) (s : State) :=
  issue { op := 0x0EB, holds := true, ext := true, dst := [d.toNat] } gd s fun u t s =>
    match t.openRegion with
    | none => s.retire u (·.putG d (word (t.sr.rcause.toNat * 2 ^ 12)))
    | some r => s.askRegion u t 7 d (regionDie (epPkg u.ep) r.id) (.stat r.id)

/-- TRAP (R442). -/
def execTrap (gd : Guard) (imm : BitVec 22) (s : State) :=
  issue { op := 0x1C0, holds := true } gd s fun u _ s => s.raise u 0x21 (imm.signExtend 64) 0

/-- An abort reaches its thread (R192): the cause register and RCAUSE are written, destinations of the region's relaxed accesses are
pending no more, and the thread goes on at the abort target, whose test may trap with cause 0x03 (R438). -/
def deliverAbort (s : State) (e : EP) (slot cause : Nat) (target : CodeAddr) (reg : Reg) : State :=
  let s := s.modThr e slot fun t =>
    let t := t.putG reg (word cause)
    let t := { t with region := none, sr := { t.sr with rcause := BitVec.ofNat 4 cause },
                      sb := t.sb.map fun (x : SbEntry) => if x.inReg then { x with reg := 0, inReg := false } else x }
    { t.goTo target with fresh := fetchTraps s e target.toNat }
  if !fetchTraps s e target.toNat && !isHead (lineAt s e target.toNat) target.toNat then
    { s.trapNow e slot 0x03 (target.setWidth 64) 0 target with turn := s.turn }
  else s

/-- The trailing thread of a pair has come up with its leader, and both queues are empty (R294). -/
def inStep (t o : Thread) : Bool :=
  let empty := fun (t : Thread) => match t.pair with
    | some q => q.lvq.isEmpty && q.cmp.isEmpty
    | none => true
  o.pc == t.pc && o.stopped == t.stopped && empty t && empty o

/-- An abort that has reached the thread is delivered (R192): none where none has. In a redundant pair both threads take it once the trailing
one has come up with its leader, which issues nothing until then; the trailing one goes on (R197). -/
def deliverHeld (s : State) (e : EP) (slot : Nat) (t : Thread) : Option State :=
  if t.trails then none
  else (t.region.bind (·.abort)).map fun (c, target, reg) =>
    match t.pair with
    | none => deliverAbort s e slot c target reg
    | some q =>
      let s := flushLead s e slot t
      match s.thr? e slot, s.thr? e q.other with
      | some t, some o =>
        if inStep t o then
          let fresh := fun (t : Thread) => t.unpark.modPair fun q => { q with before := none, offered := none }
          let s := (s.modThr e slot fresh).modThr e q.other fresh
          deliverAbort (deliverAbort s e slot c target reg) e q.other c target reg
        else s
      | _, _ => s

/-- RTT (R443, R284): a held lapse frees the slot, a held abort is delivered, else the thread returns to TRAPPC, whose test may trap. -/
def execRtt (gd : Guard) (s : State) :=
  issue { op := 0x1C1, holds := true, ext := true } gd s fun u t s =>
    if !t.sup then s.raise u 0x04 0 0x1C1
    else if t.handler && t.lapsed then (freeLapsed s u.ep u.slot).noTurn
    else
      let target := t.sr.trappc
      let back := fun (t : Thread) => { t with sup := bitAt t.sr.tstat.toNat 63, handler := false }
      match (if t.handler then t.region.bind (·.abort) else none) with
      | some (c, tgt, reg) => (deliverAbort (s.modThr u.ep u.slot fun t => (back t).goTo target) u.ep u.slot c tgt reg).noTurn
      | none =>
        if fetchTraps s u.ep target.toNat then (s.jump u target back).modThr u.ep u.slot fun t => { t with fresh := true }
        else if isHead (lineAt s u.ep target.toNat) target.toNat then s.jump u target back
        else s.raise u 0x03 (target.setWidth 64) 0

/-- A special register that only a supervisor reads or writes (R325). -/
def specialSup (n : Nat) : Bool := (0x0C ≤ n && n ≤ 0x0E) || (0x13 ≤ n && n ≤ 0x18)

/-- SLOT (R325). -/
def slotWord (e : EP) (slot : Nat) : Word := word (e * 2 ^ 8 + slot)

/-- SEGLAND: 64 landed bits of a window (R75); a memory core has 128 (R76). -/
def seglandWord (c : Core) (w : Nat) : Word :=
  if (if c.kind == .memory then 2 else 6) ≤ w then 0 else BitVec.ofNat 64 (c.landed.toNat / 2 ^ (64 * w))

/-- The value of a special register (R325 and the layouts it names). A core without LG6 engines has no code table (R77), and the spec does not say
what CTAB reads there: the model reads an unused table, 0 (DESIGN CHOICE, log 81). -/
def specialValue (s : State) (e : EP) (slot : Nat) (t : Thread) (n : Nat) (a : Word) : Word :=
  match n with
  | 0x00 => slotWord e slot
  | 0x01 => t.sr.wid
  | 0x02 => handleWord t.sr.inst t.sr.hnd
  | 0x03 => s.now e
  | 0x04 => word ((s.core e).cycle - 1)
  | 0x08 => t.sr.sfa.setWidth 64
  | 0x09 => t.sr.sfb.setWidth 64
  | 0x0A => t.sr.ssa.setWidth 64
  | 0x0B => t.sr.ssb.setWidth 64
  | 0x0C => word (t.sr.lbase.toNat * 2 ^ 10)
  | 0x0D => word (t.sr.lsize.toNat * 2 ^ 10)
  | 0x0E => word ((s.core e).xb.toNat * 2 ^ 12)
  | 0x0F => seglandWord (s.core e) (a.toNat % 8)
  | 0x10 => word (cntWord t.cnt)
  | 0x11 => t.sr.fflags.setWidth 64
  | 0x12 => t.sr.rcause.setWidth 64
  | 0x13 => word (t.sr.peermap.toNat * 2 ^ 12)
  | 0x14 => word (t.sr.trapbase.toNat * 2 ^ 6)
  | 0x15 => t.sr.tcause.setWidth 64
  | 0x16 => t.sr.taddr
  | 0x17 => t.sr.trappc.setWidth 64
  | 0x18 => t.sr.tstat
  | 0x19 => t.ctx.setWidth 64
  | 0x1B => word (t.sr.pri.toNat * 2 ^ 8 + clusterOf ((t.origin.map (·.ep)).getD e))
  | _ => word ((s.core e).lg6.gen.toNat * 2 + (s.core e).lg6.active % 2)

/-- MFS (R444, R325). -/
def execMfs (gd : Guard) (d a : Reg) (n : BitVec 8) (s : State) :=
  issue { op := 0x1C2, ext := true, dst := [d.toNat] } gd s fun u t s =>
    if specialSup n.toNat && !t.sup then s.raise u 0x04 0 0x1C2
    else s.retire u (·.putG d (specialValue s u.ep u.slot t n.toNat (gr t a)))

/-- A value has a reserved bit of a special register set (R325). -/
def reservedSet (n w : Nat) : Bool :=
  match n with
  | 0x08 | 0x09 | 0x11 => w / 2 ^ 5 != 0
  | 0x0A | 0x0B => w / 2 ^ 21 != 0
  | 0x0C | 0x0D => w / 2 ^ 21 != 0 || w % 2 ^ 10 != 0
  | 0x13 => w / 2 ^ 56 != 0 || w % 2 ^ 12 != 0
  | 0x14 => w / 2 ^ 32 != 0 || w % 2 ^ 6 != 0
  | 0x15 => w / 2 ^ 8 != 0
  | 0x17 => w / 2 ^ 32 != 0
  | 0x18 => bitsAt w 60 56 != 0 || bitsAt w 50 32 != 0
  | _ => false

/-- A special register of the slot written (R325); read-only fields of TSTAT keep their value (R282). -/
def Thread.setSpecial (t : Thread) (n w : Nat) : Thread :=
  let r := t.sr
  { t with sr := match n with
    | 0x08 => { r with sfa := BitVec.ofNat 5 w }
    | 0x09 => { r with sfb := BitVec.ofNat 5 w }
    | 0x0A => { r with ssa := BitVec.ofNat 21 w }
    | 0x0B => { r with ssb := BitVec.ofNat 21 w }
    | 0x0C => { r with lbase := BitVec.ofNat 11 (w / 2 ^ 10) }
    | 0x0D => { r with lsize := BitVec.ofNat 11 (w / 2 ^ 10) }
    | 0x11 => { r with fflags := BitVec.ofNat 5 w }
    | 0x13 => { r with peermap := BitVec.ofNat 44 (w / 2 ^ 12) }
    | 0x14 => { r with trapbase := BitVec.ofNat 26 (w / 2 ^ 6) }
    | 0x15 => { r with tcause := BitVec.ofNat 8 w }
    | 0x16 => { r with taddr := word w }
    | 0x17 => { r with trappc := BitVec.ofNat 32 w }
    | 0x18 => { r with tstat := word (bitsAt w 63 63 * 2 ^ 63 + bitsAt r.tstat.toNat 62 32 * 2 ^ 32 + w % 2 ^ 32) }
    | _ => r }

/-- MTS (R444, R325). XB belongs to the core and not to a slot of the writer's context: it takes a system context's supervisor (R247). -/
def execMts (gd : Guard) (a : Reg) (n : BitVec 8) (s : State) :=
  issue { op := 0x1C3 } gd s fun u t s =>
    let w := (gr t a).toNat
    let k := n.toNat
    if isVisitor u.ep u.slot && ((0x0C ≤ k && k ≤ 0x0E) || k == 0x13 || k == 0x14) then s.raise u 0x01 0 0x1C3
    else if specialSup k && !(if k == 0x0E then isSystem s u.ep t else t.sup) then s.raise u 0x04 0 0x1C3
    else if reservedSet k w then s.raise u 0x02 0 u.head.toNat
    else if k == 0x0E then (s.modCore u.ep fun c => { c with xb := BitVec.ofNat 9 (w / 2 ^ 12) }).retire u id
    else s.retire u (·.setSpecial k w)

/-- INVTLB (R447, R42): it parks until every die of the package has applied it. -/
def execInvtlb (gd : Guard) (a b : Reg) (scope : BitVec 2) (s : State) :=
  issue { op := 0x1C6, holds := true, ext := true, out := some 9, cmp := [a, b] } gd s fun u t s =>
    let ctx : Ctx := BitVec.ofNat 12 (gr t a).toNat
    if !t.sup || ((scope == 2 || ctx != t.ctx) && !isSystem s u.ep t) then s.raise u 0x04 0 0x1C6
    else
      let va := checkDv (gr t b)
      match (if scope == 1 then va else .ok 0) with
      | .error _ => s.raise u 0x02 0 u.head.toNat
      | .ok va =>
        let ser := s.nextUid
        let s := { s with nextUid := ser + 1 }.modPkg (epPkg u.ep) fun p =>
          { p with invs := p.invs ++ [Inv.mk scope.toNat ctx va (List.range 8) (reqOf u.ep u.slot t (16 + 32 * ser) 0)] }
        s.parkAt u .answer 7 0 false none 0 0 ser

/-- A TLB entry that an INVTLB removes (R447). -/
def Inv.removes (i : Inv) (x : TlbEntry) : Bool :=
  match i.scope with
  | 0 => x.ctx == i.ctx
  | 1 => x.hits i.ctx i.va
  | _ => true

/-- An INVTLB names a context. -/
def Inv.names (i : Inv) (ctx : Ctx) : Bool := 2 ≤ i.scope || ctx == i.ctx

/-- INVTLB_APPLY (R42, R447): the oldest shootdown of the package that a die has yet to apply; with the last die its header copies go
and the instruction ends. -/
def execInvtlbApply (pkg die : Nat) (s : State) : Host.Outcome State Fault Refusal :=
  .next (match (s.pkg pkg).invs.find? fun i => i.todo.contains die with
    | none => s
    | some i =>
      let dk := pkg * 8 + die
      let keep := fun (l : List TlbEntry) => l.filter fun x => !i.removes x
      let met := fun (w : Walk) => i.names w.ctx && (i.scope != 1 || w.va / 2 ^ 36 == i.va / 2 ^ 36)
      let s := s.modDie dk fun d =>
        { d with tlb := keep d.tlb, walks := d.walks.map fun w => if met w then { w with stale := true } else w }
      let inDie := fun (x : Nat × Cluster) => x.1 / 256 == pkg && x.1 % 256 / 32 == die
      let cls := s.clusters.map fun x => if inDie x then (x.1, { x.2 with tlb := keep x.2.tlb }) else x
      let crs := s.cores.map fun (x : Nat × Core) => if dieKey x.1 == dk then (x.1, { x.2 with tlb := keep x.2.tlb }) else x
      let s := { s with clusters := cls, cores := crs }
      let todo := i.todo.filter (· != die)
      let put := fun (s : State) (f : List Inv → List Inv) => s.modPkg pkg fun p => { p with invs := f p.invs }
      if todo.isEmpty then
        let s := put s fun l => l.filter (·.req != i.req)
        let s := (s.pkg pkg).queues.foldl (fun (s : State) (q, _) =>
          if i.names (qCtx (qDesc s pkg q)) then s.modQueue pkg q fun x => { x with header := none } else s) s
        s.settle i.req (.ack 0)
      else put s fun l => l.map fun x => if x.req == i.req then { x with todo := todo } else x)

end Sys2Proof.Machine
end

