-- ==== Sys2Proof/Machine/Swap.lean ====
section
/-! DEFINITION. Swapping threads out and in (R287 to R294, R445, R446): CSWAP, RESUME, the save of a group, and the images that are
marked dead. -/

namespace Sys2Proof.Machine

/-- The requests of a thread that waits no more are withdrawn: they are made again when its instruction issues again (R286, R293). -/
def withdraw (s : State) (pkg uid : Nat) : State :=
  let mine := fun (r : Req) => r.uid == uid
  let s := s.modPkg pkg fun p => { p with iureqs := p.iureqs.filter fun r => match r with
    | .union q _ _ _ => !mine q
    | .cancel q _ => !mine q
    | .adopt q _ => !mine q
    | .unionMade .. => true }
  let held := s.dies.flatMap fun (dk, d) =>
    if dk / 8 == pkg then (d.raccs.filter fun a => !a.relaxed && mine a.req).map fun a => (dk, a) else []
  let s := held.foldl (fun s (dk, a) => endAccess s dk a) s
  let cs := s.cores.map fun (x : Nat × Core) => (x.1, { x.2 with watches := x.2.watches.filter fun w => !mine w.2.1 })
  { s with cores := cs }

/-- A thread as its image holds it (R286, R287): what a parked instruction waits for from outside the core stays in state sent, every
other wait is in state re-issue. -/
def Thread.forImage (t : Thread) : Thread :=
  let t := { t with inbox := [], outbox := [], qres := ⟨0, 0, false⟩, forfeits := 0, passes := 0 }
  let again := { t with park := none, sb := t.sb.setIfInBounds 16 { t.sbAt 16 with
    state := .reissue, kind := if (t.sbAt 16).state == .empty then 7 else (t.sbAt 16).kind, pc := t.pc } }
  match t.park with
  | none => t
  | some p => match p.why with
    | .work _ placed yielded => if placed || yielded then t else again
    | .fullEmpty => if (t.sbAt 16).kind ≤ 6 then t else again
    | _ => if (t.sbAt 16).state == .sent && (t.sbAt 16).kind ≤ 6 then t else again

/-- A swapped-out thread is lost or has lapsed (R219, R289): one task is counted, its references end, its region aborts. -/
def loseThread (s : State) (pkg : Nat) (t : Thread) (fault : Bool) : State :=
  let h := t.sr.hnd.toNat
  let s := s.report pkg h 1 0 0
  let s := if fault then markFault s pkg h else s
  let s := s.endRegion pkg t (if fault then 10 else 4)
  let s := match t.provisional with
    | some p => refDec s pkg p.toNat
    | none => s
  refDec s pkg h

/-- The end of a group that a dead image no longer holds (R254, R289). -/
def checkAnywhere (s : State) (pkg : Nat) (ctx : Ctx) (vcore : Nat) : State :=
  match s.cores.find? fun (e, c) => epPkg e == pkg && c.groups.any fun g => g.ctx == ctx && g.vcore == vcore with
  | some (e, _) => checkGroup s e ctx vcore
  | none => s

/-- The deque entry that a swapped-out FORK has reserved on its core is reserved no more (R346). -/
def releaseFork (s : State) (e : EP) (t : Thread) : State := match t.park with
  | some p => (match p.why with
    | .fork .. => s.modCore e fun c => { c with reserved := c.reserved - 1 }
    | _ => s)
  | none => s

/-- An image in a cache is marked dead (R289). -/
def killCached (s : State) (key n : Nat) (fault : Bool) : State := match tget (s.cluster key).tcc n with
  | some i =>
    if i.dead then s
    else
      let s := s.modCluster key fun c => { c with tcc := tmod n (fun i => { i with dead := true }) c.tcc }
      checkAnywhere (loseThread (releaseFork s i.ep i.thr) (key / 256) i.thr fault) (key / 256) i.thr.ctx i.thr.vcore
  | none => s

/-- An image in a save area is marked dead (R289): bit 41 of its CTL word is set. -/
def killSpilled (s : State) (pkg k : Nat) (fault : Bool) : State := match (s.pkg pkg).spilled[k]? with
  | some r =>
    if r.dead then s
    else
      let r := { r with dead := true }
      let s := spillWrite (s.modPkg pkg fun p => { p with spilled := setAt k r p.spilled }) pkg r
      checkAnywhere (loseThread (releaseFork s r.ep r.thr) pkg r.thr fault) pkg r.thr.ctx r.thr.vcore
  | none => s

/-- The images of a package that a test picks are marked dead. -/
def killImages (s : State) (pkg : Nat) (p : Thread → Bool) (fault : Bool) : State :=
  let cached := s.clusters.flatMap fun (key, c) =>
    if key / 256 == pkg then c.tcc.filterMap fun (n, i) => if p i.thr && !i.dead then some (key, n) else none else []
  let spilt := (s.pkg pkg).spilled.zipIdx.filterMap fun (r, k) => if p r.thr && !r.dead then some k else none
  spilt.foldl (fun s k => killSpilled s pkg k fault) (cached.foldl (fun s (key, n) => killCached s key n fault) s)

/-- An image is spilled to its save area (R289); one that does not fit in the package's populated DRAM is discarded and marked dead. -/
def spillImage (s : State) (key n : Nat) : State := match tget (s.cluster key).tcc n with
  | some i =>
    let pkg := key / 256
    let a := spillAddr s pkg i.thr
    let s := if paPkg a == pkg && populated a 1024 then
        let r : SpillRef := ⟨i.thr, i.ep, i.dead⟩
        spillWrite (s.modPkg pkg fun p => { p with spilled := p.spilled ++ [r] }) pkg r
      else (killCached s key n true).event pkg 0x0031 0 i.ep 255 (word a)
    s.modCluster key fun c => { c with tcc := tdelete n c.tcc }
  | none => s

/-- The base of a group's save area (R290). -/
def groupSave (s : State) (pkg : Nat) (ctx : Ctx) (vcore : Nat) : Nat := ctxSave s pkg ctx + 2 ^ 30 + 2 ^ 20 * vcore

/-- The bytes of a group save area. -/
def groupSaveLen : Nat := 0x80400

/-- The byte of an operand slot in the group save area (R290). -/
def slotByte (o : OpSlot) : Nat := match o.fmt with
  | some (ty, l) => ty.code + b2n l * 16 + b2n o.poison * 64
  | none => b2n o.poison * 64 + 128

/-- The tile of a group by its name. -/
def tileNamed (s : State) (e : EP) (ctx : Ctx) (vcore n : Nat) : Option (Nat × Tile) :=
  (s.core e).tiles.find? fun (_, x) => x.owner == (ctx, vcore) && x.name == n

/-- An LG6 table as a word (R290). -/
def tableWord (l : List Nat) : Nat := (l.zipIdx.map fun (v, i) => v % 2 ^ 13 * 2 ^ (16 * i)).sum

/-- The group's tiles and claimed operand slots are saved (R290). -/
def saveGroup (s : State) (e : EP) (g : Group) : State :=
  let pkg := epPkg e
  let a := groupSave s pkg g.ctx g.vcore
  let c := s.core e
  let mine := c.opslots.filter fun (_, o) => o.owner == (g.ctx, g.vcore)
  let claimed := (mine.map fun (n, _) => 2 ^ n).sum
  let tile := fun n => (tileNamed s e g.ctx g.vcore n).map (·.2)
  let names := List.range 32
  let head := leBytes 8 (claimed + g.acc * 2 ^ 32 + g.ops * 2 ^ 38 + g.thr * 2 ^ 44)
    ++ names.flatMap (fun n => leBytes 8 (match tile n with | some x => (mstatWord { x with busy := false }).toNat | none => 0))
    ++ names.flatMap (fun n => leBytes 1 (match mine.find? (·.1 == n) with | some (_, o) => slotByte o | none => 0))
  let tables := names.flatMap fun n => leBytes 8 (match tile n with | some x => tableWord (x.table.getD []) | none => 0)
  let s := physWrite (physWrite s a head) (a + 0x200) tables
  let s := (List.range g.acc).foldl (fun s n => match tileNamed s e g.ctx g.vcore n with
    | some (k, _) => physWrite s (a + 0x400 + 0x2000 * n) (mbytes c.acc (k * 8192) 8192)
    | none => s) s
  mine.foldl (fun s (n, _) => physWrite s (a + 0x40400 + 0x2000 * n) (mbytes c.opmem (n * 8192) 8192)) s

/-- Step 6 of R287: with its last resident thread gone, the group is saved and its operand slots, tiles and slots are released. -/
def groupLeaves (s : State) (e : EP) (g : Group) : State :=
  let pkg := epPkg e
  let a := groupSave s pkg g.ctx g.vcore
  let mine := fun (t : Thread) => t.ctx == g.ctx && t.vcore == g.vcore
  let fits := paPkg a == pkg && populated a groupSaveLen
  let s := if fits then
      (saveGroup s e g).modPkg pkg fun p => { p with savedGroups := p.savedGroups ++ [(g.ctx, g.vcore, e)] }
    else s.event pkg 0x0031 0 e 255 (word a)
  let s := releaseClaims s e g.ctx g.vcore
  let s := s.modGroup e g.ctx g.vcore fun g => { g with slots := [], tiles := [], ops := 0, acc := 0 }
  if fits then s else killImages s pkg mine true

/-- The leader of a pair has completed an instruction that the trailer has yet to take: it enters the load-value queue (R294). -/
def flushPair (s : State) (e : EP) (slot : Nat) : State :=
  match s.thr? e slot with
  | some t => (match t.pair with
    | some q =>
      let k := if q.lead then slot else q.other
      (match s.thr? e k with
      | some l => flushLead s e k l
      | none => s)
    | none => s)
  | none => s

/-- A slot can be swapped out now (R445): no migrant is out, no swap of it has begun, and in a pair the trailer has come up with its
leader. -/
def swappable (s : State) (e : EP) (slot : Nat) : Bool :=
  match s.thr? e slot with
  | none => true
  | some t =>
    !((s.core e).swaps.any fun x => (pairSlots t slot).contains x.1)
    && (t.park.map (·.why)) != some .away
    && match t.pair with
      | none => true
      | some q => (match s.thr? e q.other with
        | some o => inStep t o
        | none => true)

/-- CSWAP (R445): it parks until step 5 of R287 has ended. -/
def execCswap (gd : Guard) (a b : Reg) (s : State) :=
  issue { op := 0x1C5, holds := true, ext := true, out := some 9, cmp := [a, b] } gd s fun u t s =>
    let w := (gr t a).toNat
    let k := bitsAt w 3 0
    if !t.sup || ((s.thr? u.ep k).any (·.ctx != t.ctx) && !isSystem s u.ep t) then s.raise u 0x04 0 0x1C5
    else if w / 2 ^ 15 != 0 || bitsAt w 7 4 != 0 || k == u.slot then s.raise u 0x02 0 u.head.toNat
    else match s.thr? u.ep k with
      | none => s.retire u (·.p7 false)
      | some x =>
        let s := flushPair s u.ep k
        if !swappable s u.ep k then s.waitFor u t (.swappable k) (gr t b)
        else
          let lead := match x.pair with
            | some q => if q.lead then k else q.other
            | none => k
          let uid := ((s.thr? u.ep lead).map (·.uid)).getD x.uid
          let s := (stopJobs s u.ep uid true).modCore u.ep fun c => { c with swaps := c.swaps ++ [(lead, bitsAt w 14 8, t.uid)] }
          s.parkAt u .swap 7 0 false none 0 0

/-- The CSWAP ends (R287): its thread goes on with p7. -/
def endSwap (s : State) (e : EP) (slot issuer : Nat) (ok : Bool) : State :=
  let s := s.modCore e fun c => { c with swaps := c.swaps.filter (·.1 != slot) }
  match (s.core e).slots.find? fun (_, t) => t.uid == issuer && (t.park.map (·.why)) == some .swap with
  | some (k, _) => s.modThr e k fun t => (t.p7 ok).goTo ((t.park.map (·.next)).getD t.pc)
  | none => s

/-- Steps 4 and 5 of R287: the inbox goes to the held store, the image to its entry, and the slot becomes vacant. -/
def writeImage (s : State) (e : EP) (slot entry : Nat) (t : Thread) : State :=
  let key := clusterKey e
  let s := flushOutbox (returnRes s e slot t) e slot
  let held := t.inbox.map fun m => HeldMsg.mk t.ctx t.vcore t.vthr m ⟨e, 0, 0, t.ctx, 0, 0, 17, 0⟩ (carryOf e t) false
  let s := s.modCore e fun c => { c with held := held ++ c.held }
  let s := spillImage (withdraw s (epPkg e) t.uid) key entry
  let s := s.modCluster key fun c => { c with tcc := tput entry ⟨t.forImage, e, false, (s.now e).toNat⟩ c.tcc }
  (pairSlots t slot).foldl (fun s k => s.vacate e k) s

/-- SWAP_IMAGE_WRITTEN (R287): once a pending XFENCE, the slot's tile operations and a running MMA have ended, steps 2 to 6 take place.
The swap completes whatever lapses meanwhile (R445); the image of a thread that has lapsed is then marked dead (R219). -/
def execSwapImageWritten (e slot : Nat) (s : State) : Host.Outcome State Fault Refusal :=
  .next (match (s.core e).swaps.find? (·.1 == slot) with
    | none => s
    | some (_, entry, issuer) =>
      match s.thr? e slot with
      | none => endSwap s e slot issuer false
      | some t =>
        if t.xf.isSome || t.cnt.tlc != 0 || mmaBusy s e t then s
        else
          let s := endSwap (writeImage s e slot entry t) e slot issuer true
          let s := match groupOf s e t.ctx t.vcore with
            | some g => if (s.core e).slots.any fun (_, x) => x.inGroup t.ctx t.vcore then s else groupLeaves s e g
            | none => s
          if expired s e (carryOf e t) then killCached s (clusterKey e) entry false else s)

/-- An image that RESUME has found: where, the thread, where it was saved, and whether it is dead. -/
structure ImageFound where
  at_ : Whereabouts
  thr : Thread
  ep : EP
  dead : Bool
  deriving DecidableEq, Repr

/-- The image in an entry of the cluster's cache. -/
def imageAt (s : State) (e : EP) (n : Nat) : Option ImageFound :=
  (tget (s.cluster (clusterKey e)).tcc n).map fun i => ⟨.tcc n, i.thr, i.ep, i.dead⟩

/-- A thread has the key in the ORIGIN layout (R446). -/
def Thread.hasKey (t : Thread) (w : Nat) : Bool :=
  t.ctx.toNat == bitsAt w 55 44 && t.vthr == bitsAt w 43 40 && t.vcore == bitsAt w 39 24

/-- Some cache of the package or its save areas hold an image of a key (R446). -/
def keyHeld (s : State) (pkg w : Nat) : Bool :=
  (s.clusters.any fun (key, c) => key / 256 == pkg && c.tcc.any fun (_, i) => i.thr.hasKey w)
  || (s.pkg pkg).spilled.any (·.thr.hasKey w)

/-- The image of a key (R446): in the own cluster's cache; else in another's, which spills it; else in the save area. -/
def imageOf (s : State) (e : EP) (w : Nat) : Option ImageFound × State :=
  match (s.cluster (clusterKey e)).tcc.find? fun (_, i) => i.thr.hasKey w with
  | some (n, i) => (some ⟨.tcc n, i.thr, i.ep, i.dead⟩, s)
  | none =>
    let other := s.clusters.findSome? fun (key, c) => if key / 256 == epPkg e then
        (c.tcc.find? fun (_, i) => i.thr.hasKey w).map fun (n, _) => (key, n) else none
    let s := match other with
      | some (key, n) => spillImage s key n
      | none => s
    match findPos (fun r : SpillRef => r.thr.hasKey w) (s.pkg (epPkg e)).spilled with
    | some k => match (s.pkg (epPkg e)).spilled[k]? with
      | some r =>
        let a := spillAddr s (epPkg e) r.thr
        let s := if unitBusy s a 1024 then s else unitRead s a 1024
        (some ⟨.spilled k, spillRead s (epPkg e) r, r.ep, r.dead⟩, s)
      | none => (none, s)
    | none => (none, s)

/-- The image leaves its entry or its save area. -/
def dropImage (s : State) (e : EP) : Whereabouts → State
  | .tcc n => s.modCluster (clusterKey e) fun c => { c with tcc := tdelete n c.tcc }
  | .spilled k => s.modPkg (epPkg e) fun p => { p with spilled := dropAt k p.spilled }
  | _ => s

/-- Word 0 of a group save area (R290): claimed operand slots, ACC, OPS, THR. -/
structure GroupWord where
  claimed : List Nat
  acc : Nat
  ops : Nat
  thr : Nat
  deriving DecidableEq, Repr

/-- The group record of a save area (R291). -/
def groupWord (s : State) (pkg a : Nat) : GroupWord :=
  let w := physWord s a 8
  ⟨(List.range 32).filter (bitAt w ·), bitsAt w 37 32, bitsAt w 43 38, bitsAt w 47 44⟩

/-- A tile as the group save area gives it (R290). A table word 0 means no table, but on a tile with STOP set, whose MMA goes on with the
table it had: one of four zeros is legal (R69, R418). -/
def savedTile (s : State) (a n : Nat) (owner : Ctx × Nat) : Tile :=
  let w := physWord s (a + 8 + 8 * n) 8
  let tb := physWord s (a + 0x200 + 8 * n) 8
  { owner := owner, name := n, kind := kindOfCode (bitsAt w 13 12), busy := false, stop := bitAt w 10, prog := bitsAt w 8 0,
    table := if tb == 0 && !bitAt w 10 then none else some ((List.range 4).map fun i => tb / 2 ^ (16 * i) % 2 ^ 13) }

/-- An operand slot as the group save area gives it (R290). -/
def savedSlot (s : State) (a n : Nat) (owner : Ctx × Nat) : OpSlot :=
  let b := physWord s (a + 0x108 + n) 1
  { owner := owner, poison := bitAt b 6,
    fmt := if bitAt b 7 then none else (ty? (b % 16)).map fun ty => (ty, bitAt b 4) }

/-- Bytes of a save area. -/
def savedBytes (s : State) (a : Nat) : List (BitVec 8) := leBytes 8192 (physRead s a 8192)

/-- The read of an image in its save area must wait at its home (R82). -/
def imageBusy (s : State) (e : EP) (f : ImageFound) : Bool := match f.at_ with
  | .spilled _ => unitBusy s (spillAddr s (epPkg e) f.thr) 1024
  | _ => false

/-- What step 2 of R293 restores of a group must wait at its home (R82). -/
def restoreBusy (s : State) (e : EP) (x : Thread) : Bool :=
  let a := groupSave s (epPkg e) x.ctx x.vcore
  let w := groupWord s (epPkg e) a
  let there := match groupOf s e x.ctx x.vcore with
    | some g => !g.slots.isEmpty
    | none => false
  !there && (unitBusy s a 0x400 || ((List.range w.acc).any fun n => unitBusy s (a + 0x400 + 0x2000 * n) 8192)
    || w.claimed.any fun n => unitBusy s (a + 0x40400 + 0x2000 * n) 8192)

/-- Step 2 of R293: the group's slots, operand slots and tiles are reserved on the core and restored; none where something does not
fit. -/
def reserveGroup (s : State) (e : EP) (x : Thread) (base size : Nat) : Option State :=
  match groupOf s e x.ctx x.vcore with
  | some g => if !g.slots.isEmpty then some s else go s
  | none => go s
where
  /-- The reservation, where everything fits. -/
  go (s : State) : Option State :=
    let pkg := epPkg e
    let a := groupSave s pkg x.ctx x.vcore
    let s := unitRead s a 0x400
    let w := groupWord s pkg a
    let owner := (x.ctx, x.vcore)
    let tiles := (freeTiles s e).take w.acc
    if tiles.length != w.acc || 32 < opsReserved s e + w.ops || w.claimed.any fun n => (tget (s.core e).opslots n).isSome then none
    else (slotsFor s e (w.thr + 1) x.pair.isSome).map fun sl =>
      let old := s.cores.findSome? fun (k, c) => if epPkg k == pkg then
        (c.groups.find? fun g => g.ctx == x.ctx && g.vcore == x.vcore).map fun g => (k, g) else none
      let shadows := (old.map (·.2)).getD default
      let same := old.any fun (k, g) => k == e && g.base == base && g.spad == size
      let g : Group :=
        { ctx := x.ctx, vcore := x.vcore, base := base, spad := size, thr := w.thr, ops := w.ops, acc := w.acc, pair := x.pair.isSome,
          slots := if x.pair.isSome then sl ++ sl.map (· + 8) else sl, tiles := tiles,
          sfa := shadows.sfa, sfb := shadows.sfb, ssa := shadows.ssa, ssb := shadows.ssb, wroteMap := same && shadows.wroteMap }
      let away := fun (c : Core) => { c with groups := c.groups.filter fun g => !(g.ctx == x.ctx && g.vcore == x.vcore) }
      let cs := s.cores.map fun (k : Nat × Core) => if epPkg k.1 == pkg then (k.1, away k.2) else k
      let s := { s with cores := cs }
      let s := s.modPkg pkg fun p => { p with savedGroups := p.savedGroups.filter fun (c, v, _) => !(c == x.ctx && v == x.vcore) }
      let s := s.modCore e fun c => { c with groups := c.groups ++ [g] }
      let s := tiles.zipIdx.foldl (fun s (k, n) =>
        let tile := savedTile s a n owner
        let s := unitRead s (a + 0x400 + 0x2000 * n) 8192
        let bytes := savedBytes s (a + 0x400 + 0x2000 * n)
        s.modCore e fun c => { c with tiles := tput k tile c.tiles, acc := mputs (k * 8192) bytes c.acc }) s
      w.claimed.foldl (fun s n =>
        let slot := savedSlot s a n owner
        let s := unitRead s (a + 0x40400 + 0x2000 * n) 8192
        let bytes := savedBytes s (a + 0x40400 + 0x2000 * n)
        s.modCore e fun c => { c with opslots := tput n slot c.opslots, opmem := mputs (n * 8192) bytes c.opmem }) s

/-- The lowest vacant slot, or for a pair the lowest of two vacant ones 8 apart (R446). -/
def vacantSlot (s : State) (e : EP) (x : Thread) : Option Nat :=
  let open_ := fun k => (s.thr? e k).isNone
  if x.pair.isSome then (List.range 8).find? fun k => open_ k && open_ (k + 8) else (List.range 16).find? open_

/-- A slot taken outside the group's reservation joins it in place of a vacant one, which the group that held the slot receives (R291,
R446; log 71). -/
def exchangeSlot (s : State) (e : EP) (x : Thread) (k : Nat) : State :=
  match groupOf s e x.ctx x.vcore with
  | none => s
  | some g =>
    if g.slots.contains k then s
    else match g.slots.find? fun j => (s.thr? e j).isNone && (x.pair.isNone || (j < 8 && (s.thr? e (j + 8)).isNone)) with
      | none => s
      | some j =>
        let swap := fun (i : Nat) =>
          if i == k then j else if i == j then k
          else if x.pair.isSome && i == k + 8 then j + 8 else if x.pair.isSome && i == j + 8 then k + 8 else i
        s.modCore e fun c => { c with groups := c.groups.map fun g => { g with slots := g.slots.map swap } }

/-- The image holds nothing in state sent, and no copy is in flight (R293 step 3). -/
def Thread.settled (t : Thread) : Bool := !(t.sb.toList.any fun x => x.state == .sent) && t.cnt.cpc == 0

/-- The condition of step 3 for a thread by its identity; one that is no more holds nothing up. -/
def imageSettled (s : State) (pkg uid : Nat) : Bool :=
  !(s.clusters.any fun (key, c) => key / 256 == pkg && c.tcc.any fun (_, i) => i.thr.uid == uid && !i.thr.settled)
  && !((s.pkg pkg).spilled.any fun r => r.thr.uid == uid && !(spillRead s pkg r).settled)

/-- The waiting full/empty access of a thread leaves its list: it issues again (R293 step 5), and its place goes to the overflow order
(R56). -/
def dropWaits (s : State) (e : EP) (uid : Nat) : State :=
  (s.modCore e fun c => { c with dtl := c.dtl.filter (·.req.uid != uid), overflow := c.overflow.filter (·.req.uid != uid) }).admitAll e

/-- Messages held for a thread move to the core where it resumes, ahead of later ones (R293). -/
def moveHeld (s : State) (frm tgt : EP) (x : Thread) : State :=
  if frm == tgt then s
  else
    let mine := fun (h : HeldMsg) => h.ctx == x.ctx && h.vcore == x.vcore && h.vthr == x.vthr
    let l := (s.core frm).held.filter mine
    (s.modCore frm fun c => { c with held := c.held.filter fun h => !mine h }).modCore tgt fun c => { c with held := l ++ c.held }

/-- A thread as it enters its slot (R293 steps 4 and 5): done entries are emptied, a re-issue goes to its instruction; the registers
that the image does not hold come from the map and the context record (R288, R23; log 33). -/
def Thread.restored (s : State) (e : EP) (x : Thread) (base size : Nat) : Thread :=
  let c := ctxRecord s (epPkg e) x.ctx
  let en := x.sbAt 16
  let redo := en.state == .reissue
  let x := if redo then { x with pc := en.pc, park := none } else x
  { x with
    sb := (x.sb.map fun (b : SbEntry) => if b.state == .done then SbEntry.none else b).setIfInBounds 16
      (if redo || en.state == .done then SbEntry.none else en),
    fresh := true, line := none,
    sr := { x.sr with lbase := BitVec.ofNat 11 base, lsize := BitVec.ofNat 11 size,
                      peermap := BitVec.ofNat 44 (bitsAt c 247 204), trapbase := BitVec.ofNat 26 (bitsAt c 287 262) } }

/-- The region unit knows where a restored thread now is (R197): its region's record names the core. -/
def moveRegion (s : State) (dk id : Nat) (e : EP) (uid : Nat) : State :=
  modRegion s dk (id % 1024) fun r => if r.owner.uid == uid then { r with owner := { r.owner with ep := e } } else r

/-- The image used least recently of a cache, of those that no operation is using (R289): no swap writes its entry, and no RESUME waits for
it. -/
def leastUsed (s : State) (key : Nat) : Option Nat :=
  let busy := fun (n uid : Nat) => s.cores.any fun (e, c) => clusterKey e == key &&
    ((c.swaps.any fun x => x.2.1 == n) || c.slots.any fun (_, t) => (t.park.map (·.why)) == some (.again (.imageSettled uid)))
  ((s.cluster key).tcc.filter fun (n, i) => !busy n i.thr.uid).foldl (fun best (n, i) => match best with
    | none => some (n, i.used)
    | some (m, b) => if i.used < b then some (n, i.used) else some (m, b)) none |>.map (·.1)

/-- An entry of a full cache is freed (R289): an image read from a save area passes through one (R293; log 79). -/
def makeRoom (s : State) (key : Nat) : State :=
  if (s.cluster key).tcc.length < 128 then s
  else match leastUsed s key with
    | some n => spillImage s key n
    | none => s

/-- Steps 4 to 6 of R293: the thread is placed in slot k, a pair in slots k and k + 8. -/
def placeImage (s : State) (e : EP) (f : ImageFound) (k base size : Nat) : State :=
  let x := Thread.restored s e f.thr base size
  let x := { x with sr := { x.sr with pri := (tget (s.core e).pris k).getD 0 } }
  let s := match f.at_ with
    | .spilled _ => makeRoom s (clusterKey e)
    | _ => s
  let s := dropImage s e f.at_
  let s := if (f.thr.sbAt 16).state == .reissue then dropWaits s f.ep x.uid else s
  let s := exchangeSlot s e x k
  let s := moveHeld s f.ep e x
  let ref := fun (lead : Bool) other before => f.thr.pair.map fun _ => PairRef.mk lead other [] [] before [] none
  let before := if x.park.isSome then (x.pair.bind (·.before)) else none
  let s := s.modCore e fun c => { c with slots := tput k { x with pair := ref true (k + 8) before } c.slots }
  let s := if f.thr.pair.isSome then
      let y := { x with uid := x.uid + 1, park := none, sb := Vector.replicate 17 SbEntry.none, cnt := Counters.zero, pair := ref false k none }
      s.modCore e fun c => { c with slots := tput (k + 8) y c.slots }
    else s
  match x.region with
  | some r =>
    let dk := regionDie (epPkg e) r.id
    let s := moveRegion s dk r.id e x.uid
    if dk != dieKey e && (regionAt s dk r.id).any (·.owner.uid == x.uid) then s.askAbort e dk r.id 8 else s
  | none => s

/-- RESUME of an image that has been found (R293): dead or lapsed ones are discarded; steps 2 and 3; then it is placed. What step 2 has
reserved is released where the instruction then ends without effect (R260). -/
def resumeImage (s : State) (u : Turn) (t : Thread) (d b : Reg) (f : ImageFound) : State :=
  let pkg := epPkg u.ep
  let x := f.thr
  let no := fun (s : State) => (s.retire u (·.p7 false)).unreserve u.ep x.ctx x.vcore
  if f.dead then no (dropImage s u.ep f.at_)
  else if expired s u.ep (carryOf u.ep x) then
    no (checkAnywhere (dropImage (loseThread s pkg x false) u.ep f.at_) pkg x.ctx x.vcore)
  else match (vcOf s pkg x.ctx x.vcore).filter fun (ep, _, _) => ep == u.ep with
    | none => no s
    | some (_, base, size) =>
      match (if restoreBusy s u.ep x then none else some (reserveGroup s u.ep x base size)) with
      | none => s.forfeit u
      | some none => no s
      | some (some s) =>
        match vacantSlot s u.ep x with
        | none => no s
        | some k =>
          if f.ep != u.ep && !x.settled then
            (if waitedOut s u.ep t (deadline s u.ep (gr t b)) then no s else s.waitFor u t (.imageSettled x.uid) (gr t b))
          else (placeImage s u.ep f k base size).retire u fun t => (t.putG d (word k)).p7 true

/-- RESUME (R446, R293): the rights over the image's context are checked before its operand, and both before anything moves (R281). Where what it
reads of the save areas is not to be had now, it is attempted again at the thread's next turn. -/
def execResume (gd : Guard) (d a b : Reg) (key : Bool) (s : State) :=
  issue { op := 0x1C4, holds := true, ext := true, dst := [d.toNat], out := some 9, cmp := [a, b] } gd s fun u t s =>
    let w := (gr t a).toNat
    let foreign := if key then keyHeld s (epPkg u.ep) w && bitsAt w 55 44 != t.ctx.toNat
      else (imageAt s u.ep (w % 2 ^ 7)).any (·.thr.ctx != t.ctx)
    if !t.sup || (foreign && !isSystem s u.ep t) then s.raise u 0x04 0 0x1C4
    else if (if key then w / 2 ^ 56 != 0 || w % 2 ^ 24 != 0 else w / 2 ^ 7 != 0) then s.raise u 0x02 0 u.head.toNat
    else
      let (f, s) := if key then imageOf s u.ep w else (imageAt s u.ep w, s)
      match f with
      | some f => if imageBusy s u.ep f then s.forfeit u else resumeImage s u t d b f
      | none => s.retire u (·.p7 false)

end Sys2Proof.Machine
end

