-- ==== Sys2Proof/Machine/Lapses.lean ====
section
/-! DEFINITION. The instant unit at work (R203 to R211, R218, R222, R433 to R437): lapses, broadcasts at the replicas, requests, the
settle interval, and what packages tell each other. -/

namespace Sys2Proof.Machine

/-- A handle that may still lapse: live, and not in its settle interval, whose outcome is DONE already (R221, R222). -/
def usable (s : State) (pkg h : Nat) : Bool := match s.lapse? pkg h with
  | some e => !e.l && e.settle.isNone
  | none => false

/-- INSTANT_LAPSE (R205): a live handle's instant has passed on die 0. -/
def execInstantLapse (pkg h : Nat) (s : State) : Host.Outcome State Fault Refusal :=
  .next (match s.lapse? pkg h with
    | some e => if usable s pkg h && lapsedAt (s.pkgNow pkg) e.inst then lapseHandle s pkg h false else s
    | none => s)

/-- The slots of a die that hold a handle take its new instant (R437). -/
def rewriteSlots (s : State) (dk h : Nat) (inst : Instant) : State :=
  let f := fun (t : Thread) => if t.sr.hnd.toNat == h then { t with sr := { t.sr with inst := inst } } else t
  let cs := s.cores.map fun (x : Nat × Core) =>
    if dieKey x.1 == dk then (x.1, { x.2 with slots := x.2.slots.map fun (y : Nat × Thread) => (y.1, f y.2) }) else x
  { s with cores := cs }

/-- The saved images of a die's caches that hold a lapsed handle are marked dead, and with die 0 those of the save areas (R219). -/
def killHolders (s : State) (pkg die h : Nat) : State :=
  let mine := fun (t : Thread) => t.sr.hnd.toNat == h
  let cached := s.clusters.flatMap fun (key, c) =>
    if key / 256 == pkg && key % 256 / 32 == die then c.tcc.filterMap fun (n, i) => if mine i.thr && !i.dead then some (key, n) else none
    else []
  let s := cached.foldl (fun s (key, n) => killCached s key n false) s
  if die == 0 then
    ((s.pkg pkg).spilled.zipIdx.filterMap fun (r, k) => if mine r.thr && !r.dead then some k else none).foldl
      (fun s k => killSpilled s pkg k false) s
  else s

/-- A replica, its comparators and its caches take a change (R203, R219, R434, R437). -/
def applyChange (s : State) (pkg die : Nat) (c : Change) : State :=
  let dk := pkg * 8 + die
  match c with
  | .none => s
  | .lapse h => killHolders (s.modDie dk fun d => { d with replica := { d.replica with lapsed := addOnce h d.replica.lapsed } }) pkg die h
  | .union h ms inst =>
    rewriteSlots (s.modDie dk fun d => { d with replica := { d.replica with unions := tput h ms d.replica.unions } }) dk h inst
  | .inst h inst => rewriteSlots s dk h inst

/-- Every replica of the package has applied a broadcast. -/
def allApplied (s : State) (pkg : Nat) (seq : BitVec 16) : Bool :=
  (List.range 8).all fun d => !((s.die (pkg * 8 + d)).replica.coming.any (·.1 == seq))

/-- The thread of a request at the instant unit still waits for its answer. -/
def awaits (s : State) (req : Req) : Bool := match s.thrWhere req.ep (locate s req.ep req.uid) with
  | some t => (match t.park with
    | some p => req.entry == 16 + 32 * p.ser
    | none => false)
  | none => false

/-- UNION's answer (R433): the issuing slot holds the union by a provisional reference; where nobody is left to hold it, it ends. -/
def answerUnion (s : State) (pkg : Nat) (req : Req) (h : Nat) (d : Reg) : State :=
  let w := locate s req.ep req.uid
  match s.thrWhere req.ep w with
  | none => refDec s pkg h
  | some t =>
    let s := match t.provisional with
      | some p => refDec s pkg p.toNat
      | none => s
    let waits := awaits s req
    let s := s.modWhere req.ep w fun t => { t with provisional := some (BitVec.ofNat 16 h) }
    if waits then (s.modWhere req.ep w (·.putG d (word h))).settle req .joined else s

/-- The unions made whose broadcast every replica has applied are answered. -/
def answerUnions (s : State) (pkg : Nat) : State :=
  (s.pkg pkg).iureqs.foldl (fun s r => match r with
    | .unionMade req h d seq =>
      if allApplied s pkg seq then answerUnion (s.modPkg pkg fun p => { p with iureqs := p.iureqs.erase r }) pkg req h d else s
    | _ => s) s

/-- LAPSE_BROADCAST_APPLY (R203): the k-th broadcast on its way to a die is applied there, where it is the next in sequence. -/
def execLapseBroadcastApply (pkg die k : Nat) (s : State) : Host.Outcome State Fault Refusal :=
  .next (
    let dk := pkg * 8 + die
    let r := (s.die dk).replica
    match r.coming[k]? with
    | some (n, c) =>
      if n != r.next then s
      else
        let s := s.modDie dk fun d => { d with replica := { d.replica with next := d.replica.next + 1, coming := dropAt k d.replica.coming } }
        answerUnions (applyChange s pkg die c) pkg
    | none => s)

/-- SETTLE_EXPIRY (R222): the request's record is sent and its handle is freed. -/
def execSettleExpiry (pkg h : Nat) (s : State) : Host.Outcome State Fault Refusal :=
  .next (match s.lapse? pkg h with
    | some e =>
      (match e.settle with
      | some at_ =>
        if e.kind != .request || e.ref != 0 || (s.pkgNow pkg).toNat < at_ then s
        else
          let status := if e.fault then 2 else if e.l && e.c then 3 else if e.l then 1 else 0
          freeHandle (pushRecord s pkg e.queue e.seq h status e.tasks.toNat e.msgs.toNat e.stores.toNat) pkg h
      | none => s)
    | none => s)

/-- A union that can be made of a list (R433): no handle 0, union or free handle, none twice, at least one live, room for it. -/
def unionOk (s : State) (pkg : Nat) (hs : List Nat) : Bool :=
  hs.all (fun h => h != 0 && match s.lapse? pkg h with
    | some e => e.kind != .union
    | none => false)
  && decide hs.Nodup && hs.any (s.live pkg ·)
  && ((s.pkg pkg).lapse.filter fun (_, e) => e.kind == .union).length < 4096

/-- A union is made (R433, R210): its entry, its references on live members, its membership broadcast; its answer waits for the
replicas. -/
def makeUnion (s : State) (pkg : Nat) (req : Req) (ctx : Ctx) (hs : List Nat) (d : Reg) : State :=
  let no := s.settle req .timedOut
  if !unionOk s pkg hs then no
  else match takeHandle s pkg with
    | none => no
    | some (h, s) =>
      let ms := hs.map fun m => (m, s.live pkg m)
      let inst := (unionInst s pkg ms).getD never
      let s := makeHandle s pkg h { Lapse.start .union pkg (BitVec.ofNat 16 h) inst 1 ctx with members := ms }
      let s := ms.foldl (fun s (m, live) => if live then refInc s pkg m else s) s
      let seq := (s.pkg pkg).bseq
      (s.broadcast pkg (.union h ms inst)).modPkg pkg fun p => { p with iureqs := p.iureqs ++ [.unionMade req h d seq] }

/-- ADOPT at the instant unit (R436): the reference moves from the old handle to the target; a migrant shares that of its origin on the
same package. -/
def adoptHandle (s : State) (pkg : Nat) (req : Req) (h : Nat) : State :=
  let w := locate s req.ep req.uid
  match s.thrWhere req.ep w with
  | none => s
  | some t =>
    if h != 0 && !s.live pkg h then s.settle req .timedOut
    else
      let inst := match s.lapse? pkg h with
        | some e => if h == 0 then never else e.inst
        | none => never
      let s := refDec (refInc s pkg h) pkg t.sr.hnd.toNat
      let mine := t.provisional == some (BitVec.ofNat 16 h) && h != 0
      let s := if mine then refDec s pkg h else s
      let s := match t.origin with
        | some o => if epPkg o.ep == pkg then s.modWhere o.ep (locate s o.ep o.uid) fun t =>
            { t with sr := { t.sr with inst := inst, hnd := BitVec.ofNat 16 h } } else s
        | none => s
      (s.modWhere req.ep w fun t => { t with
        provisional := if mine then none else t.provisional,
        sr := { t.sr with inst := inst, hnd := BitVec.ofNat 16 h } }).settle req .joined

/-- INSTANT_UNIT_REQUEST (R205, R433, R435, R436): the oldest request that waits at the instant unit. -/
def execInstantUnitRequest (pkg : Nat) (s : State) : Host.Outcome State Fault Refusal :=
  .next (
    let fresh := fun (r : IuReq) => match r with
      | .unionMade .. => false
      | _ => true
    match (s.pkg pkg).iureqs.find? fresh with
    | none => s
    | some r =>
      let s := s.modPkg pkg fun p => { p with iureqs := p.iureqs.erase r }
      match r with
      | .union req ctx hs d => if awaits s req then makeUnion s pkg req ctx hs d else s
      | .cancel req h =>
        if usable s pkg h then (lapseHandle s pkg h true).settle req .joined else s.settle req .timedOut
      | .adopt req h => if awaits s req then adoptHandle s pkg req h else s
      | .unionMade .. => s)

/-- A control-plane message is taken. -/
def dropCtl (s : State) (k : Nat) : State := { s with ctl := dropAt k s.ctl }

/-- A package's reference on a handle of its origin ends (R209), where the export list holds it. -/
def releaseExport (s : State) (pkg h frm : Nat) : State := match s.lapse? pkg h with
  | some e =>
    if e.exports.contains frm then refDec (s.modLapse pkg h fun e => { e with exports := e.exports.filter (· != frm) }) pkg h else s
  | none => s

/-- DROP_REPORT (R218, R209, R459): the k-th message of the control plane, a report of dropped items, is counted; by the origin
identity from a package without a proxy it also stands as that package's report. -/
def execDropReport (k : Nat) (s : State) : Host.Outcome State Fault Refusal :=
  .next (match s.ctl[k]? with
    | some (.drop pkg h a b c) => addCounts (dropCtl s k) pkg h a b c
    | some (.dropAt frm pkg h a b c) =>
      let s := addCounts (dropCtl s k) pkg h a b c
      if (proxyOf s frm pkg (BitVec.ofNat 16 h)).isSome then s else releaseExport s pkg h frm
    | _ => s)

/-- EXPORT_NOTICE (R209): the origin lists the third package and acknowledges. -/
def execExportNotice (k : Nat) (s : State) : Host.Outcome State Fault Refusal :=
  .next (match s.ctl[k]? with
    | some (.exportNotice frm pkg h third proxy) =>
      let s := addExport (dropCtl s k) pkg h third
      { s with ctl := s.ctl ++ [.noticeAck frm proxy] }
    | _ => s)

/-- EXPORT_NOTICE_ACK (R209): the proxy's extra reference ends. -/
def execExportNoticeAck (k : Nat) (s : State) : Host.Outcome State Fault Refusal :=
  .next (match s.ctl[k]? with
    | some (.noticeAck pkg proxy) => refDec (dropCtl s k) pkg proxy
    | _ => s)

/-- PROXY_REPORT (R209, R224): a freed proxy's counters reach its origin, whose reference for that package ends. -/
def execProxyReport (k : Nat) (s : State) : Host.Outcome State Fault Refusal :=
  .next (match s.ctl[k]? with
    | some (.proxyReport frm pkg h a b c fault) =>
      let s := addCounts (dropCtl s k) pkg h a b c
      releaseExport (if fault then markFault s pkg h else s) pkg h frm
    | _ => s)

/-- A proxy lapses because its origin has told it so (R209): nothing goes back. -/
def lapseProxy (s : State) (pkg h : Nat) (cancel : Bool) : State := match s.lapse? pkg h with
  | some e =>
    if e.l then s
    else
      let s := (s.modLapse pkg h fun e => { e with l := true, c := cancel }).broadcast pkg (.lapse h)
      ((s.pkg pkg).lapse.filterMap fun (u, x) => if x.kind == .union then some u else none).foldl (fun s u => unionChanged s pkg u h) s
  | none => s

/-- CANCEL_PROPAGATION (R209): a cancellation reaches a package that holds a proxy, or a proxy's cancellation its origin. -/
def execCancelPropagation (k : Nat) (s : State) : Host.Outcome State Fault Refusal :=
  .next (match s.ctl[k]? with
    | some (.cancel pkg opkg h) =>
      (match proxyOf s pkg opkg (BitVec.ofNat 16 h) with
      | some x => lapseProxy (dropCtl s k) pkg x true
      | none => dropCtl s k)
    | some (.cancelOrigin pkg h) => if usable s pkg h then lapseHandle (dropCtl s k) pkg h true else dropCtl s k
    | _ => s)

/-- UNION_CHANGE_PROPAGATION (R208, R209): a proxy of a union takes its recomputed instant, or lapses with it. -/
def execUnionChangePropagation (k : Nat) (s : State) : Host.Outcome State Fault Refusal :=
  .next (match s.ctl[k]? with
    | some (.unionChange pkg opkg h inst lapsed) =>
      (match proxyOf s pkg opkg (BitVec.ofNat 16 h) with
      | some x =>
        if lapsed then lapseProxy (dropCtl s k) pkg x false
        else memberMoved (((dropCtl s k).modLapse pkg x fun e => { e with inst := inst }).broadcast pkg (.inst x inst)) pkg x
      | none => dropCtl s k)
    | _ => s)

end Sys2Proof.Machine
end

