-- ==== Sys2Proof/Machine/Memory.lean ====
section
/-! DEFINITION. The instructions of scratchpad memory and ordering (14): loads and stores, full/empty accesses, atomics, WAITC, FENCE,
XFENCE, and the tag table. -/

namespace Sys2Proof.Machine

/-- The bytes of a size code (R360). -/
def sizeOf {w : Nat} (sz : BitVec w) : Nat := 2 ^ sz.toNat

/-- A register plus a sign-extended displacement (R361). -/
def dispAddr (t : Thread) (a : Reg) (imm : BitVec 32) : Word := gr t a + imm.signExtend 64
/-- A register plus a shifted one. -/
def idxAddr (t : Thread) (a b : Reg) (sh : BitVec 2) : Word := gr t a + (gr t b <<< sh.toNat)

/-- The number that 16 bytes of registers d and d + 1 make, or the register d (R360). -/
def wideReg (t : Thread) (d : Reg) (size : Nat) : Nat :=
  if size == 16 then (gr t d).toNat + (gr t (d + 1)).toNat * 2 ^ 64 else (gr t d).toNat

/-- LD (R364). -/
def execLd (gd : Guard) (d a : Reg) (sz : BitVec 2) (sgn : Bool) (imm : BitVec 32) (s : State) :=
  issue { op := 0x080, path := 1, ext := true, dst := [d.toNat] } gd s fun u t s =>
    localAccess s u t (dispAddr t a imm) (.load (sizeOf sz) sgn) d

/-- ST (R364). -/
def execSt (gd : Guard) (d a : Reg) (sz : BitVec 2) (imm : BitVec 32) (s : State) :=
  issue { op := 0x081, path := 1, ext := true, out := some 0, cmp := [d, a] } gd s fun u t s =>
    localAccess s u t (dispAddr t a imm) (.store (sizeOf sz) (gr t d).toNat) 0

/-- LDX (R364). -/
def execLdx (gd : Guard) (d a b : Reg) (sz : BitVec 2) (sgn : Bool) (sh : BitVec 2) (s : State) :=
  issue { op := 0x082, path := 1, ext := true, dst := [d.toNat] } gd s fun u t s =>
    localAccess s u t (idxAddr t a b sh) (.load (sizeOf sz) sgn) d

/-- STX (R364). -/
def execStx (gd : Guard) (d a b : Reg) (sz sh : BitVec 2) (s : State) :=
  issue { op := 0x083, path := 1, ext := true, out := some 0, cmp := [d, a, b] } gd s fun u t s =>
    localAccess s u t (idxAddr t a b sh) (.store (sizeOf sz) (gr t d).toNat) 0

/-- The own package's bridge window that a fabric operand names (R470): its map entry holds the bridge's endpoint; the window
offset and the peer's sticky bit. -/
def bridgeRoute (s : State) (e : EP) (t : Thread) (a : Word) : Option (Nat × Nat) :=
  if a.toNat / 2 ^ 62 != 1 || bitsAt a.toNat 61 50 != 0 then none
  else match peerOf s (epPkg e) t.sr.peermap (peerIndex a) with
    | none => none
    | some (pkg, eb) =>
      let v := bitsAt a.toNat 39 24
      let w := physWord s (vcAddr s pkg t.ctx v) 8
      if pkg == epPkg e && decide (v < ctxVclen s pkg t.ctx) && bitAt w 63 && bitsAt w 62 59 == 0 && bitsAt w 47 35 == 0
          && w % 2 ^ 24 == bridgeEp pkg then some (a.toNat % 2 ^ 24, eb) else none

/-- An LDF or STF to the bridge window (R470): it is no access of a region (R180), and the bridge answers it. -/
def windowOp (s : State) (u : Turn) (t : Thread) (off eb : Nat) (ea : Word) (acc : Access) (relaxed isLoad : Bool) (kind path : Nat)
    (d : Reg) : State :=
  s.checked u (checkAligned ea acc.size) fun _ =>
    if inRegion t then s.abortOwn u t 8
    else if relaxed && atLimit t isLoad then s.waitEver u (if isLoad then .ldcRoom else .stcRoom)
    else
      let s := if acc.probed && (relaxed || t.xf.isNone) then countOut s u.ep t.ctx else s
      let body : Body := .window off acc (isSystem s u.ep t)
      let dst := bridgeEp (epPkg u.ep)
      if relaxed then s.askRelaxed u t dst (vcOfThread s u.ep t) eb isLoad kind path d body
      else s.ask u t dst (vcOfThread s u.ep t) eb .answer 5 path d ea acc.size body

/-- LDF (R365, R470). -/
def execLdf (gd : Guard) (d a : Reg) (sz : BitVec 2) (sgn rlx : Bool) (imm : BitVec 32) (s : State) :=
  issue { op := 0x084, path := 1, ext := true, dst := [d.toNat] } gd s fun u t s =>
    let ea := dispAddr t a imm
    match bridgeRoute s u.ep t ea with
    | some (off, eb) => windowOp s u t off eb ea (.load (sizeOf sz) sgn) rlx true (if rlx then 0 else 5) 0 d
    | none =>
      s.checked u (checkFabric s u.ep t ea (sizeOf sz) 0x13) fun r =>
      s.checked u (checkAligned ea (sizeOf sz)) fun _ => fabricAccess s u t r ea (.load (sizeOf sz) sgn) rlx true (if rlx then 0 else 5) 0 d

/-- STF (R365, R470). -/
def execStf (gd : Guard) (d a : Reg) (sz : BitVec 2) (rlx : Bool) (imm : BitVec 32) (s : State) :=
  issue { op := 0x085, path := 1, ext := true, out := some 0, cmp := [d, a] } gd s fun u t s =>
    let ea := dispAddr t a imm
    let acc : Access := .store (sizeOf sz) (gr t d).toNat
    match bridgeRoute s u.ep t ea with
    | some (off, eb) => windowOp s u t off eb ea acc rlx false (if rlx then 2 else 5) 0 0
    | none =>
      s.checked u (checkFabric s u.ep t ea (sizeOf sz) 0x13) fun r =>
      s.checked u (checkAligned ea (sizeOf sz)) fun _ => fabricAccess s u t r ea acc rlx false (if rlx then 2 else 5) 0 0

/-- TAKE (R366). -/
def execTake (gd : Guard) (d a b : Reg) (sz : BitVec 3) (sgn : Bool) (s : State) :=
  issue { op := 0x086, path := 1, illegal := true, holds := true, ext := true, dst := regRun d 2 } gd s fun u t s =>
    feAccess s u t (gr t a) (.take (sizeOf sz) sgn (gr t b)) d

/-- PEEK (R366). -/
def execPeek (gd : Guard) (d a b : Reg) (sz : BitVec 3) (sgn : Bool) (s : State) :=
  issue { op := 0x088, path := 1, illegal := true, holds := true, ext := true, dst := regRun d 2 } gd s fun u t s =>
    feAccess s u t (gr t a) (.peek (sizeOf sz) sgn (gr t b)) d

/-- PUT (R366, R147): its checks, then CORE, UPD and MIGR drained, then the access with the time that is left. -/
def execPut (gd : Guard) (d a b : Reg) (sz : BitVec 3) (s : State) :=
  issue { op := 0x087, path := 1, illegal := true, holds := true, ext := true, out := some 0,
          cmp := [a, d] ++ if sz == 4 then [d + 1] else [] } gd s fun u t s =>
    let ea := gr t a
    s.checked u (checkPlace s u.ep t ea (sizeOf sz) 0x13) fun _ =>
    s.checked u (checkAligned ea (sizeOf sz)) fun _ =>
      if !drainedMask s u.ep t 0x19 0 then s.waitFor u t (.drained 0x19 0) (gr t b) 6
      else feAccess s u t ea (.put (sizeOf sz) (wideReg t d (sizeOf sz)) (timeLeft s u.ep t (gr t b))) 0

/-- FESET (R368). -/
def execFeset (gd : Guard) (a b : Reg) (st : BitVec 2) (s : State) :=
  issue { op := 0x089, path := 1, illegal := true, ext := true, out := some 0, cmp := [a, b] } gd s fun u t s =>
    blockAccess s u t (gr t a) (.feset (gr t b) st.toNat) 0

/-- FEGET (R369). -/
def execFeget (gd : Guard) (d a : Reg) (o : Bool) (s : State) :=
  issue { op := 0x08A, path := 1, illegal := true, ext := true, dst := [d.toNat] } gd s fun u t s => blockAccess s u t (gr t a) (.feget o) d

/-- AMO (R370). -/
def execAmo (gd : Guard) (d a b : Reg) (op : BitVec 4) (dbl rlx : Bool) (s : State) :=
  issue { op := 0x08B, path := 1, ext := true, dst := [d.toNat], out := some 2, cmp := [a, b] } gd s fun u t s =>
    scratchAtomic s u t (gr t a) (.atom op.toNat dbl (gr t b) 0 true) rlx true (if rlx then 1 else 5) 0 d

/-- CAS (R370): the operation field is ignored (R174). -/
def execCas (gd : Guard) (d a b c : Reg) (_op : BitVec 4) (dbl rlx : Bool) (s : State) :=
  issue { op := 0x08C, path := 1, ext := true, dst := [d.toNat], out := some 2, cmp := [a, b, c] } gd s fun u t s =>
    scratchAtomic s u t (gr t a) (.atom 15 dbl (gr t c) (gr t b) true) rlx true (if rlx then 1 else 5) 0 d

/-- RED (R370). -/
def execRed (gd : Guard) (a b : Reg) (op : BitVec 4) (dbl : Bool) (s : State) :=
  issue { op := 0x08D, path := 0x10, illegal := true, ext := true, out := some 3, cmp := [a, b] } gd s fun u t s =>
    scratchAtomic s u t (gr t a) (.atom op.toNat dbl (gr t b) 0 false) true false 3 4 0

/-- Every counter stands at or below its limit (R142). -/
def countersOk (t : Thread) (ld st cp tl : Nat) : Bool := t.cnt.ldc ≤ ld && t.cnt.stc ≤ st && t.cnt.cpc ≤ cp && t.cnt.tlc ≤ tl

/-- WAITC (R371). -/
def execWaitc (gd : Guard) (a : Reg) (imm : BitVec 32) (s : State) :=
  issue { op := 0x08E, holds := true, ext := true } gd s fun u t s =>
    let f := fun k => bitsAt imm.toNat (8 * k + 7) (8 * k)
    if countersOk t (f 0) (f 1) (f 2) (f 3) then s.retire u (·.p7 true)
    else s.waitFor u t (.counters (f 0) (f 1) (f 2) (f 3)) (gr t a)

/-- The number of host writes admitted when the FENCE issued (R143). -/
def hostMark (s : State) (e : EP) (t : Thread) : Nat := match t.park with
  | some ⟨.again (.drained _ m), _, _, _, _, _, _⟩ => m
  | _ => (s.pkg (epPkg e)).hostWrites

/-- FENCE (R372, R144): the sticky bits of the slot, or for a migrant those of its origin (R377), are read and cleared once the paths
are drained. -/
def execFence (gd : Guard) (d a : Reg) (mask : BitVec 8) (s : State) :=
  issue { op := 0x08F, holds := true, ext := true, dst := [d.toNat] } gd s fun u t s =>
    let m := hostMark s u.ep t
    if drainedMask s u.ep t mask m then
      match t.origin with
      | none => s.retire u fun t => (({ t with sr := { t.sr with sticky := 0 } }).putG d t.sr.sticky).p7 true
      | some o => s.ask u t o.ep (vcOfThread s u.ep t) 0 .fullEmpty 7 0 d 0 8 (.sticky d)
    else s.waitFor u t (.drained mask m) (gr t a)

/-- The queue entries of step 2 of an XFENCE have reached the banks (R145). -/
def xfWritten (s : State) (e : EP) (x : XFence) : Bool :=
  (s.core e).destQ.all (fun q => x.destUpTo ≤ q.num) && (s.core e).tileQ.all (fun q => x.tileUpTo ≤ q.num)

/-- An XFENCE as it stands now: step 2 begins once the paths are drained (R145). -/
def xfAdvance (s : State) (e : EP) (t : Thread) (x : XFence) : XFence :=
  if x.step2 || !drainedMask s e t x.frm x.hostUpTo then x
  else { x with step2 := true,
                destUpTo := if (x.frm &&& 0xC2) != 0 then (s.core e).destNum else 0,
                tileUpTo := if (x.frm &&& 0x04) != 0 then (s.core e).tileNum else 0 }

/-- XFENCE (R373, R145, R485): it ends at once where nothing has to be waited for, else it is pending and the thread goes on. -/
def execXfence (gd : Guard) (a : Reg) (frm tgt : BitVec 8) (s : State) :=
  issue { op := 0x090, holds := true, ext := true } gd s fun u t s =>
    let x := xfAdvance s u.ep t ⟨frm, tgt, t.pc, deadline s u.ep (gr t a), false, 0, 0, (s.pkg (epPkg u.ep)).hostWrites⟩
    if frm == 0 || (x.step2 && xfWritten s u.ep x) then s.retire u (·.p7 true)
    else if gr t a == 0 then s.retire u (·.p7 false)
    else s.retire u fun t => { t with xf := some x, sb := t.sb.setIfInBounds 16 ⟨.sent, 7, 0, 0, t.pc, false⟩ }

/-- The key of a tag-table instruction (R381). -/
def tagKey (w : Word) : BitVec 46 := BitVec.ofNat 46 (w.toNat / 2 ^ 10)

/-- The word of TLOOK (R59). -/
def tagWord (t : Thread) (x : TagEntry) : Word :=
  let base := t.sr.lbase.toNat
  if base ≤ x.slot && x.slot - base < t.sr.lsize.toNat then
    BitVec.ofNat 64 (x.slot - base + b2n x.f * 2 ^ 12 + b2n x.d * 2 ^ 13)
  else allOnes

/-- TLOOK (R381). -/
def execTlook (gd : Guard) (d a : Reg) (s : State) :=
  issue { op := 0x0C8, ext := true, dst := [d.toNat] } gd s fun u t s =>
    let r := match (s.core u.ep).tags.find? fun x => x.ctx == t.ctx && x.key == tagKey (gr t a) with
      | some x => tagWord t x
      | none => allOnes
    s.retire u (·.putG d r)

/-- TINS (R381, R58). -/
def execTins (gd : Guard) (a b : Reg) (fill dirty : Bool) (s : State) :=
  issue { op := 0x0C9, holds := true, ext := true, out := some 9, cmp := [a, b] } gd s fun u t s =>
    let k := tagKey (gr t a)
    let slot := (gr t b).toNat
    if t.sr.lsize.toNat ≤ slot then s.raise u 0x07 (gr t b) 0
    else
      let new : TagEntry := ⟨t.ctx, k, slot + t.sr.lbase.toNat, fill, dirty⟩
      let tags := (s.core u.ep).tags
      if tags.any fun x => x.ctx == t.ctx && x.key == k then
        (s.modCore u.ep fun c => { c with tags := c.tags.map fun x => if x.ctx == t.ctx && x.key == k then new else x }).retire u (·.p7 true)
      else if tags.length < 512 then
        (s.modCore u.ep fun c => { c with tags := c.tags ++ [new] }).retire u (·.p7 true)
      else s.retire u (·.p7 false)

/-- TDEL (R381, R58): context-wide only for a supervisor, of another context only for the system's (R247). -/
def execTdel (gd : Guard) (a : Reg) (wide : Bool) (s : State) :=
  issue { op := 0x0CA, holds := true, ext := true, out := some 9, cmp := [a] } gd s fun u t s =>
    let ctx : Ctx := BitVec.ofNat 12 (gr t a).toNat
    if wide && (!t.sup || (ctx != t.ctx && !isSystem s u.ep t)) then s.raise u 0x04 0 0x0CA
    else
      let gone := fun (x : TagEntry) => if wide then x.ctx == ctx else x.ctx == t.ctx && x.key == tagKey (gr t a)
      let any := (s.core u.ep).tags.any gone
      (s.modCore u.ep fun c => { c with tags := c.tags.filter fun x => !gone x }).retire u (·.p7 any)

end Sys2Proof.Machine
end

