-- ==== Sys2Proof/Machine/Tasks.lean ====
section
/-! DEFINITION. Forking, joining, waiting for work, queues, messages and the phase probe (13: R345 to R358). -/

namespace Sys2Proof.Machine

/-- A join address in fabric form (R345): a local one names the issuing group's virtual core. -/
def joinAddr (t : Thread) (w : Word) (anyPeer : Bool) : Checked Word :=
  if w.toNat / 2 ^ 62 == 0 then
    if w.toNat / 2 ^ 21 != 0 then .error ⟨0x13, w, peerIndex w⟩ else .ok (word (2 ^ 62 + t.vcore % 2 ^ 16 * 2 ^ 24 + w.toNat))
  else if w.toNat / 2 ^ 62 != 1 || bitsAt w.toNat 61 50 != 0 || (!anyPeer && peerIndex w != 0) then .error ⟨0x13, w, peerIndex w⟩
  else .ok w

/-- The checks of a join address (R345, R14): its fabric form and its route. -/
def joinRoute (s : State) (e : EP) (t : Thread) (w : Word) (anyPeer : Bool) : Checked (Word × Route) :=
  match joinAddr t w anyPeer with
  | .error tr => .error tr
  | .ok ja => match checkFabric s e t ja 8 0x13 with
    | .error tr => .error { tr with addr := w }
    | .ok r => if w.toNat % 8 == 0 then .ok (ja, r) else .error ⟨0x08, w, 8⟩

/-- A plain access to a join counter leaves and the thread parks (R346 to R348). -/
def askJoin (s : State) (u : Turn) (t : Thread) (r : Route) (w : Word) (why : Wait) (kind : Nat) (acc : Access) : State :=
  s.ask u t r.dst (vcOfThread s u.ep t) r.ebit why kind 0 0 w 8 (.access r.vcore r.off r.phys acc none false false)

/-- FORK (R346, R271): the deque has room, the counter is raised at its home, then the entry is pushed. Of a bad join address with a full deque the
model takes the trap (R14, R281), where R346's pseudocode tests the deque first (DEDUCED, log 83). A pair compares the join address for the
add, and what is pushed besides (R295). -/
def execFork (gd : Guard) (a b : Reg) (imm : BitVec 32) (s : State) :=
  issue { op := 0x046, path := 1, illegal := true, holds := true, ext := true, out := some (2 + 16 * 5), cmp := [b, a] } gd s fun u t s =>
    let target := relTarget t imm.toInt
    let full := 64 ≤ (s.core u.ep).deque.length + (s.core u.ep).reserved
    let reserve := fun (s : State) => s.modCore u.ep fun c => { c with reserved := c.reserved + 1 }
    if gr t b == 0 then
      if full then s.retire u (·.p7 false) else (pushArm (reserve s) u.ep t (gr t a) 0 target).retire u (·.p7 true)
    else s.checked u (joinRoute s u.ep t (gr t b) false) fun (ja, r) =>
      if full then s.retire u (·.p7 false)
      else askJoin (reserve s) u t r (gr t b) (.fork (gr t a) ja target) 5 (.atom 0 true 1 0 true)

/-- JOIN (R347): a plain read that leaves a watch at the home; with timeout 0 the one answer decides (R260). -/
def execJoin (gd : Guard) (a b : Reg) (s : State) :=
  issue { op := 0x047, path := 1, illegal := true, holds := true, ext := true } gd s fun u t s =>
    s.checked u (joinRoute s u.ep t (gr t a) true) fun (_, r) =>
      (askJoin s u t r (gr t a) .joinWatch 7 (if gr t b == 0 then .load 8 false else .joinRead)).limitPark u (gr t b)

/-- EXIT (R348): with a join address the CORE, UPD and MIGR paths drain and −1 is added, then the thread ends. -/
def execExit (gd : Guard) (a : Reg) (s : State) :=
  issue { op := 0x04A, path := 1, illegal := true, holds := true, ext := true, out := some 2, cmp := [a] } gd s fun u t s =>
    if gr t a == 0 then (exitThread s u.ep u.slot).noTurn
    else s.checked u (joinRoute s u.ep t (gr t a) false) fun (_, r) =>
      if !drainedMask s u.ep t 0x19 0 then s.waitEver u (.drained 0x19 0)
      else askJoin s u t r (gr t a) .exit 5 (.atom 0 true allOnes 0 true)

/-- The thread's task ends (R349 step 1): its references go, and it holds handle 0. -/
def endTask (s : State) (e : EP) (slot : Nat) (t : Thread) : State :=
  let s := refDec s (epPkg e) t.sr.hnd.toNat
  let s := match t.provisional with
    | some h => refDec s (epPkg e) h.toNat
    | none => s
  s.modThr e slot fun t => { t with provisional := none, sr := { t.sr with hnd := 0, inst := never } }

/-- WFW (R349): with timeout 0 the condition is tested once (R260). -/
def execWfw (gd : Guard) (d a : Reg) (s : State) :=
  issue { op := 0x04B, illegal := true, holds := true, ext := true, dst := regRun d 8 } gd s fun u t s =>
    let s := endTask s u.ep u.slot t
    let s0 := s.parkAt u (.work d false false) 7 0 false (deadline s u.ep (gr t a)) d 0
    if gr t a == 0 then
      match (s0.thr? u.ep u.slot).bind (workNow s0 u.ep u.slot ·) with
      | some s => s
      | none => s.retire u (·.p7 false)
    else checkGroup s0 u.ep t.ctx t.vcore

/-- The words that YIELD writes over a frame: place and value (R274, R350). -/
def frameWords (t : Thread) (next : CodeAddr) (old1 : Nat) (cond : Word) : List (Nat × Nat) :=
  let mask := old1 / 2 ^ 32
  [(0, next.toNat), (1, t.sr.pri.toNat + mask * 2 ^ 32), (2, t.sr.wid.toNat), (3, (handleWord t.sr.inst t.sr.hnd).toNat),
   (4, shadowWord t.sr), (5, cond.toNat)]
  ++ ((List.range 32).filter (bitAt mask ·)).zipIdx.map fun (i, k) =>
       (8 + k, if i == 0 then (t.regs.p ||| 1).toNat else (gr t (BitVec.ofNat 5 i)).toNat)

/-- YIELD (R350, R274, R275): where the turn loses a bank its frame is not even read (R46). -/
def execYield (gd : Guard) (a b : Reg) (s : State) :=
  issue { op := 0x049, path := 1, illegal := true, holds := true, ext := true } gd s fun u t s =>
    let fa := gr t a
    let cond := gr t b
    s.checked u (checkLocal s u.ep t fa 64) fun phys =>
      if anySealed s u.ep phys 64 then s.waitEver u (.unsealed phys 64)
      else withBanks s u t fun s =>
      let s := meetErrors s u.ep (phys + 8) 8
      let ochre := anyOchre s u.ep (phys + 8) 8
      let old1 := spadRead s u.ep (phys + 8) 8
      let len := if ochre then 64 else 64 + 8 * popCount (old1 / 2 ^ 32) 32
      s.checked u (checkLocal s u.ep t fa len) fun _ =>
      s.checked u (checkAligned fa 16) fun _ =>
      s.checked u (if cond == 0 then .ok 0 else checkLocal s u.ep t (word (cond.toNat / 16 * 16)) 16) fun cphys =>
        if ochre then s.raise u 0x14 fa 0
        else if 256 ≤ (s.cluster (clusterKey u.ep)).frames.length then s.retire u (·.p7 false)
        else if anySealed s u.ep phys len then s.waitEver u (.unsealed phys len)
        else
          let ws := frameWords t u.next old1 cond
          let s := ws.foldl (fun s (i, v) => (abortPlain s u.ep (phys + 8 * i) 8).spadWrite u.ep (phys + 8 * i) 8 v) s
          let s := answerRange s u.ep phys len
          let f : Frame := ⟨u.ep, fa.toNat, t.ctx, t.vcore, carryOf u.ep t, if cond == 0 then none else some (cond.toNat / 16 * 16),
            cond == 0 || granAt s u.ep cphys == .full⟩
          let s := s.modCluster (clusterKey u.ep) fun c => { c with frames := c.frames ++ [f] }
          let s := endTask (refInc s (epPkg u.ep) t.sr.hnd.toNat) u.ep u.slot t
          s.parkAt u (.work 0 false true) 7 0 false none 0 0

/-- The checks of a queue selector (R351): queue, package and sticky bit of its peer. -/
def checkSel (s : State) (e : EP) (t : Thread) (w : Word) (peer0 : Bool) : Checked (Nat × Nat × Nat) :=
  let bad : Checked (Nat × Nat × Nat) := .error ⟨0x13, w, selPeer w⟩
  if w.toNat / 2 ^ 26 != 0 || bitsAt w.toNat 15 14 != 0 || (peer0 && selPeer w != 0) then bad
  else match peerOf s (epPkg e) t.sr.peermap (selPeer w) with
    | none => bad
    | some (pkg, eb) => .ok (selQueue w, pkg, eb)

/-- SPAWN (R352). -/
def execSpawn (gd : Guard) (a b : Reg) (sh : Bool) (imm : BitVec 32) (s : State) :=
  issue { op := 0x048, path := 0x20, illegal := true, holds := true, ext := true, out := some 5, cmp := [a, a + 1, a + 2, a + 3, b] } gd s
  fun u t s =>
    s.checked u (checkSel s u.ep t (gr t b) true) fun (q, pkg, _) =>
      if !qServes s pkg q 1 t.ctx || ringFull s pkg q then s.retire u (·.p7 false)
      else
        let fmt := if sh then t.sr.sfa.toNat + t.sr.sfb.toNat * 2 ^ 8 else 0
        let w5 := if sh then t.sr.ssa.toNat + t.sr.ssb.toNat * 2 ^ 32 else 0
        let w0 := (relTarget t imm.toInt).toNat + qPri (qDesc s pkg q) * 2 ^ 32 + b2n sh * 2 ^ 36 + 2 ^ 37
        let pkt : Packet := [word w0, gr t a, handleWord t.sr.inst t.sr.hnd, gr t (a + 1), word fmt, word w5, gr t (a + 2), gr t (a + 3)]
        (pushItem s pkg q pkt (carryOf u.ep t)).retire u (·.p7 true)

/-- The eight registers from b on. -/
def eightRegs (t : Thread) (b : Reg) : Packet := (List.range 8).map fun i => gr t (b + BitVec.ofNat 5 i)

/-- ENQ (R353, R276, R277, R121, R122). Whether an item to a queue of the own package counts at an interface R278 does not say: the model counts it
neither out nor in (DESIGN CHOICE, log 83). -/
def execEnq (gd : Guard) (a b c : Reg) (ack : Bool) (s : State) :=
  issue { op := 0x062, path := 0x20, illegal := true, holds := true, ext := true, out := some 5,
          cmp := [a, b, b + 1, b + 2, b + 3, b + 4, b + 5, b + 6, b + 7] } gd s fun u t s =>
    s.checked u (checkSel s u.ep t (gr t a) false) fun (q, pkg, eb) =>
      let item := eightRegs t b
      if pkg == epPkg u.ep then
        if !(qServes s pkg q 1 t.ctx || qServes s pkg q 2 t.ctx) then s.retire u (·.p7 false)
        else if !ringFull s pkg q then (pushItem s pkg q item (carryOf u.ep t)).retire u (·.p7 true)
        else if !qBw (qDesc s pkg q) then s.retire u (·.p7 false)
        else
          let limit := some ((s.core u.ep).cycle + (if gr t c == allOnes then 2 ^ 24 else (gr t c).toNat))
          if waitedOut s u.ep t limit then
            let x := s.queue pkg q
            let n := qEntries (qDesc s pkg q)
            s.raise u 0x18 (word q) (x.head % n + x.tail % n * 2 ^ 16)
          else s.parkAt u (.again (.queueRoom q)) 7 0 false limit 0 0
      else if t.qres.count == 0 || t.qres.sel != gr t a then s.retire u (·.p7 false)
      else
        let item := item.set 2 (handleWord t.sr.inst t.sr.hnd)
        let s := (countOut s u.ep t.ctx).modThr u.ep u.slot fun t => { t with qres := { t.qres with count := t.qres.count - 1 } }
        if ack then
          (s.ask u t (hostGwEp pkg) 2 eb .fullEmpty 7 5 0 (gr t a) 0 (.enq q item true)).limitPark u (gr t c)
        else
          (s.send u.ep (hostGwEp pkg) 2 (reqOf u.ep u.slot t 19 eb) (carryOf u.ep t) (.enq q item false)).retire u (·.p7 true)

/-- The threads that wait in DEQ of a queue, oldest first (R354). -/
def takersOf (s : State) (pkg q : Nat) : List Nat :=
  (s.queue pkg q).takers.filter fun n => s.cores.any fun (e, c) => epPkg e == pkg && c.slots.any fun (_, t) =>
    t.uid == n && match t.park with
      | some ⟨.again (.queueItem x _), _, _, _, _, _, _⟩ => x == q
      | _ => false

/-- DEQ (R354): concurrent DEQs are served in the order in which they issued. -/
def execDeq (gd : Guard) (d a c : Reg) (s : State) :=
  issue { op := 0x063, path := 0x20, illegal := true, holds := true, ext := true, dst := regRun d 8 } gd s fun u t s =>
    s.checked u (checkSel s u.ep t (gr t a) true) fun (q, pkg, _) =>
      if !qServes s pkg q 2 t.ctx then s.retire u (·.p7 false)
      else
        let l := takersOf s pkg q
        let pos := (findPos (· == t.uid) l).getD l.length
        if pos == 0 && headThere s pkg q then
          let (ws, _, s) := popItem s pkg q
          let s := s.modQueue pkg q fun x => { x with takers := l.filter (· != t.uid) }
          s.retire u fun t => (ws.zipIdx.foldl (fun (t : Thread) (x, i) => t.putG (d + BitVec.ofNat 5 i) x) t).p7 true
        else if (s.queue pkg q).items ≤ pos && waitedOut s u.ep t (deadline s u.ep (gr t c)) then
          (s.modQueue pkg q fun x => { x with takers := l.filter (· != t.uid) }).retire u (·.p7 false)
        else
          (s.modQueue pkg q fun x => { x with takers := addOnce t.uid l }).parkAt u (.again (.queueItem q t.uid)) 7 5 false
            (deadline s u.ep (gr t c)) d 0

/-- QRES (R355). -/
def execQres (gd : Guard) (d a b : Reg) (s : State) :=
  issue { op := 0x064, path := 0x20, illegal := true, holds := true, ext := true, dst := [d.toNat], out := some 5, cmp := [a, b] } gd s fun u t s =>
    s.checked u (checkSel s u.ep t (gr t a) false) fun (q, pkg, eb) =>
      let r := t.qres
      let now := word (r.count + b2n r.outstanding * 2 ^ 63)
      let out := fun (s : State) (ok : Bool) => s.retire u fun t => (t.putG d now).p7 ok
      if gr t b == 0 then out s true
      else if selPeer (gr t a) == 0 || 4096 < (gr t b).toNat then out s false
      else if r.outstanding || (r.count != 0 && r.sel != gr t a) then out s false
      else
        let s := s.send u.ep (hostGwEp pkg) (vcOfThread s u.ep t) (reqOf u.ep u.slot t 17 eb) (carryOf u.ep t) (.qresReq q (gr t b).toNat)
        out (s.modThr u.ep u.slot fun t => { t with qres := ⟨gr t a, r.count, true⟩ }) true

/-- SEND (R356, R118, R119). -/
def execSend (gd : Guard) (a b : Reg) (n : BitVec 5) (tag : BitVec 12) (s : State) :=
  issue { op := 0x060, path := 0x20, illegal := true, holds := true, ext := true, out := some 5,
          cmp := a :: (List.range n.toNat).map fun i => b + BitVec.ofNat 5 i } gd s fun u t s =>
    let w := gr t a
    let bad := s.raise u 0x13 w (peerIndex w)
    if ctxChannel s (epPkg u.ep) t.ctx == 0 then bad
    else if w.toNat / 2 ^ 62 != 1 || bitsAt w.toNat 61 50 != 0 || bitsAt w.toNat 23 4 != 0 then bad
    else match peerOf s (epPkg u.ep) t.sr.peermap (peerIndex w) with
      | none => bad
      | some (pkg, eb) =>
        if 2 ≤ t.outbox.length then s.retire u (·.p7 false)
        else
          let v := bitsAt w.toNat 39 24
          let m : Msg := ⟨tag, epPkg u.ep, t.vcore, t.vthr, (List.range n.toNat).map fun i => gr t (b + BitVec.ofNat 5 i)⟩
          let s := countOut s u.ep t.ctx
          let dst := if pkg == epPkg u.ep then (vcOf s pkg t.ctx v).map (·.1) else some (gatewayEp pkg 0 0 1)
          match dst with
          | some e =>
            let o : OutMsg := ⟨e, ctxVc s (epPkg u.ep) t.ctx, v, w.toNat % 16, m, carryOf u.ep t, eb⟩
            s.retire u fun t => ({ t with outbox := t.outbox ++ [o] }).p7 true
          | none => ((countIn s u.ep t.ctx).stickSelf u t eb).retire u (·.p7 true)

/-- The word that RECV writes (R357). -/
def msgWord (m : Msg) : Word :=
  word (m.tag.toNat + m.words.length * 2 ^ 12 + m.vthr % 16 * 2 ^ 26 + m.vcore % 2 ^ 16 * 2 ^ 30 + m.pkg % 2 ^ 10 * 2 ^ 46)

/-- RECV (R357, R111). -/
def execRecv (gd : Guard) (d a : Reg) (n : BitVec 5) (s : State) :=
  issue { op := 0x061, path := 0x20, illegal := true, holds := true, ext := true, dst := regRun d (1 + n.toNat) } gd s fun u t s =>
    if ctxChannel s (epPkg u.ep) t.ctx == 0 then s.raise u 0x13 0 0
    else match t.inbox with
      | [] => s.waitFor u t .inbox (gr t a)
      | m :: rest => s.retire u fun t =>
          let t := { t with inbox := rest }.putG d (msgWord m)
          ((m.words.take n.toNat).zipIdx.foldl (fun (t : Thread) (x, i) => t.putG (d + 1 + BitVec.ofNat 5 i) x) t).p7 true

/-- The probe domain that a register names (R358, R278): a context by its number, a communicator behind 4096. -/
def probeDomain (s : State) (e : EP) (t : Thread) (w : Word) : Option (Nat × List Nat) :=
  let own := epPkg e
  if w == 0 then
    if ctxChannel s own t.ctx == 0 then none
    else some (t.ctx.toNat, (List.range 1024).filter fun k =>
      (List.range 1024).any fun p => match peerOf s own t.sr.peermap p with
        | some (x, _) => x == k
        | none => false)
  else if w.toNat / 2 ^ 63 == 1 && bitsAt w.toNat 62 8 == 0 then
    let k := w.toNat % 256
    if commServes s own k t.ctx then
      some (4096 + k, (List.range (commSize s own k)).filterMap fun r => commPkg s own k r t.sr.peermap)
    else none
  else none

/-- A probe of a domain is under way (R279). -/
def probing (s : State) (dom : Nat) : Bool := s.pkgs.any fun (_, p) => p.probes.any (·.dom == dom)

/-- QPROBE (R358, R279): one probe of a domain at a time; an expired wait gives a sum that none can equal. -/
def execQprobe (gd : Guard) (d a b : Reg) (s : State) :=
  issue { op := 0x065, holds := true, ext := true, dst := [d.toNat] } gd s fun u t s =>
    match probeDomain s u.ep t (gr t a) with
    | none => s.raise u 0x13 (gr t a) (peerIndex (gr t a))
    | some (dom, pkgs) =>
      let limit := deadline s u.ep (gr t b)
      if probing s dom then
        if waitedOut s u.ep t limit then s.retire u fun t => (t.putG d (word (2 ^ 63))).p7 false
        else s.parkAt u (.again (.probeFree dom)) 7 0 false limit d 0
      else
        let ser := s.nextUid
        let s := { s with nextUid := ser + 1 }.modPkg (epPkg u.ep) fun p =>
          { p with probes := p.probes ++ [Probe.mk dom pkgs (some (reqOf u.ep u.slot t (16 + 32 * ser) 0))] }
        s.parkAt u .probe 7 0 false (if gr t b == 0 then none else limit) d 0 ser

end Sys2Proof.Machine
end

