-- ==== Sys2Proof/Machine/Packets.lean ====
section
/-! DEFINITION. Packets on their way (R107 to R122, R208, R209, R216, R459): gateways, fabric ingress, replies, messages, remote
enqueues, reservations, and the deferred-take list's timeouts. -/

namespace Sys2Proof.Machine

/-- What a dropped packet counts as (R224): tasks, messages, stores. -/
def dropCounts : Body → Nat × Nat × Nat
  | .access _ _ _ acc _ _ _ | .dram _ acc _ _ _ _ | .window _ acc _ => (0, 0, b2n acc.counts)
  | .message .. | .enq .. => (0, 1, 0)
  | .pieceRead _ _ _ dsts _ _ => (0, 0, dsts.length)
  | .pieceWrite _ _ data _ _ _ => (0, 0, b2n data.isSome)
  | .program _ => (1, 0, 0)
  | _ => (0, 0, 0)

/-- Reserved entries of a ring change (R121). -/
def unreserve (s : State) (pkg q n : Nat) : State := s.modQueue pkg q fun x => { x with reserved := x.reserved - n }

/-- The origin slot of a migrant, where its thread is still there. -/
def originSlot (s : State) (o : Origin) : Option (Nat × Thread) := (s.core o.ep).slots.find? fun (_, t) => t.uid == o.uid

/-- What a dropped packet leaves to its unit, which the report of the drop tells it (R218; log 35): the outcome annulled of a piece, or that of a piece
report, counts at its engine (R126), a migrant's origin ends (R219), and entries that were granted or returned are reserved no more (R355). -/
def tellDropped (s : State) (e : EP) (p : Pkt) : State := match p.body with
  | .pieceRead id _ len dsts _ engine => tellEngine s e engine p id len dsts.length .annulled
  | .pieceWrite id _ data len _ engine => if data.isSome then tellEngine s e engine p id len 1 .annulled else s
  | .patternRead id _ _ engine => s.send e engine 0 p.req p.carry (.pattern id none true)
  | .migrant m => s.send e m.origin.ep 0 p.req p.carry (.comeBack { m with thr := { m.thr with lapsed := true } } none true)
  | .comeBack m _ _ => (match originSlot s m.origin with
    | some (n, _) => freeLapsed s m.origin.ep n
    | none => s)
  | .pieceEnd id len x => reportPiece s (epPkg p.dst) id len x
  | .pattern id _ _ => patternIn s id none true
  | .qresGrant q n _ => unreserve s (epPkg p.src) q n
  | .qresReturn q n => unreserve s (epPkg p.dst) q n
  | _ => s

/-- The k-th packet fails its lapse check at an endpoint (R216, R218, R459): it is dropped and reported. -/
def dropLapsed (s : State) (k : Nat) (e : EP) (p : Pkt) (c : Carry) : State :=
  let (a, b, d) := dropCounts p.body
  reportItem (tellDropped (takePkt s k e p) e p) (epPkg e) c a b d

/-- The origin of a migrant that is lost on its way goes on as under a timeout (R109; log 43). -/
def loseMigrant (s : State) (o : Origin) : State := match originSlot s o with
  | some (n, t) => s.modThr o.ep n fun x => (x.p7 false).goTo ((t.park.map (·.next)).getD t.pc)
  | none => s

/-- The k-th packet is refused at an endpoint (R15, R109): a negative acknowledgement to whoever asked. A report of a migrant's sticky bits that
cannot reach its origin gives its answer all the same; a migrant that cannot go home is lost (log 43). -/
def refusePkt (s : State) (k : Nat) (e : EP) (p : Pkt) : State :=
  let s := takePkt s k e p
  match p.body with
  | .access .. | .dram .. | .window .. | .message .. | .program _ | .sticky _ => s.answer e p.req p.carry .refused
  | .stickySet _ req a => s.answer e req p.carry a
  | .comeBack m _ _ => loseMigrant s m.origin
  | .enq _ _ ack => s.answer e p.req p.carry (if ack then .notPlaced else .refused)
  | .qresReq q _ => s.send e p.req.ep 0 p.req p.carry (.qresGrant q 0 true)
  | .qresReturn .. => s.answer e { p.req with entry := 17 } p.carry .refused
  | .pieceRead id src len dsts _ engine =>
    tellEngine (stickNotice s e p.req p.carry (some src.ebit)) e engine p id len dsts.length .refused
  | .pieceWrite id dst data len _ engine =>
    if data.isNone then s else tellEngine (stickNotice s e p.req p.carry (some dst.ebit)) e engine p id len 1 .refused
  | .patternRead id src _ engine => (stickNotice s e p.req p.carry (some src.ebit)).send e engine 0 p.req p.carry (.pattern id none false)
  | .migrant m =>
    s.send e m.origin.ep 0 p.req p.carry (.comeBack { m with thr := { m.thr with pc := m.go } } (some (0x13, word (2 ^ 63 + m.va), 0)) false)
  | .mirrorWrite _ _ fin orig => mirrorTellLost s e p.req (localCarry s (epPkg e) orig) fin (epPkg p.dst) (epPkg p.src)
  | .answer _ => s.settle p.req .timedOut
  | .pieceEnd id len x => reportPiece s (epPkg p.dst) id len x
  | .pattern id _ _ => patternIn s id none false
  | .qresGrant q n _ => unreserve s (epPkg p.src) q n
  | .chunk .. | .partFail .. | .region _ => s

/-- Where an access of a mirrored page goes once its package is lost (R99, R100, R101): the other home. -/
def otherHome (s : State) (p : Pkt) : Option (EP × Body) :=
  let far := epPkg p.dst
  let other := fun (l : PieceLoc) => match l.mpkg, l.dram && !l.mir with
    | some m, true => let pa := otherPa l.addr m; some { l with ep := homeOf pa, addr := pa, mpkg := some far, mir := true }
    | _, _ => none
  match p.body with
  | .dram pa acc r rel (some m) false => some (homeOf (otherPa pa m), .dram (otherPa pa m) acc r rel (some far) true)
  | .pieceRead id src len dsts need engine => (other src).map fun l => (l.ep, .pieceRead id l len dsts need engine)
  | .pieceWrite id dst data len need engine => (other dst).map fun l => (l.ep, .pieceWrite id l data len need engine)
  | .patternRead id src len engine => (other src).map fun l => (l.ep, .patternRead id l len engine)
  | .migrant m =>
    (match walkNow s (epPkg p.src) m.thr.ctx m.va with
      | some x => if x.m && paPkg (x.addr m.va) == far then some (homeOf (x.mirror m.va), p.body) else none
      | none => none)
  | _ => none

/-- A write that goes to the mirror home of a page, whose other home is the package given (R99). -/
def bothLost (p : Pkt) : Option Nat := match p.body with
  | .dram _ acc _ _ (some m) true => if acc.writes then some m else none
  | .pieceWrite _ dst (some _) _ _ _ => if dst.mir then dst.mpkg else none
  | _ => none

/-- The k-th packet, of a mirrored page, goes to its other home (R100, R101). The failover of a read is logged where the mirror home answers it,
that of a migrant here. -/
def failOver (s : State) (k : Nat) (p : Pkt) (dst : EP) (body : Body) : State :=
  let own := epPkg p.src
  let s := declareLost (s.dropPkt k) own (epPkg p.dst)
  let s := match p.body with
    | .migrant m => s.event own 0x0040 (epPkg p.dst) p.src 255 (word m.va)
    | _ => s
  s.send p.src dst p.vc p.req p.carry body

/-- The k-th packet, a mirrored write, fails with both homes lost (R99). -/
def failBoth (s : State) (k : Nat) (p : Pkt) (other : Nat) : State :=
  let far := epPkg p.dst
  let s := declareLost (takePkt s k p.src p) (epPkg p.src) far
  match p.body with
  | .pieceWrite id _ _ len _ engine =>
    tellEngine (s.answer p.src { p.req with entry := 17 } p.carry (.failed far other)) p.src engine p id len 1 .refused
  | _ => s.answer p.src p.req p.carry (.failed far other)

/-- The k-th packet is bound for an unreachable package (R109, R99 to R101). A reply that the mirror timeout looks after is left to it. -/
def unreachablePkt (s : State) (k : Nat) (p : Pkt) : State :=
  if p.asked.isSome && !p.mirrors then s.modPkt k fun p => { p with stage := .lost }
  else match otherHome s p, bothLost p with
  | some (dst, body), _ => failOver s k p dst body
  | none, some other => failBoth s k p other
  | none, none => refusePkt s k p.src p

/-- MIRROR_TIMEOUT (R100, R101): the k-th packet, a mirrored write or a read of a mirrored page or a reply to one, has not been answered in time: the home is lost
to the package it left from. A writer at the primary is told, an access goes to the other home, and a write that had gone there
already fails with both. -/
def execMirrorTimeout (k : Nat) (s : State) : Host.Outcome State Fault Refusal :=
  .next (match s.net[k]? with
    | none => s
    | some p =>
      let own := epPkg p.src
      let far := epPkg p.dst
      match p.asked.filter fun _ => !p.mirrors with
      | some a =>
        let q := { p with src := a.src, dst := a.dst, vc := a.vc, sent := a.sent, body := a.body, asked := none,
                          carry := localCarry s (epPkg a.src) p.carry }
        let s := if q.probed && mirrorLate s q then countOut s q.src q.req.ctx else s
        if !mirrorLate s q then s
        else (match otherHome s q, bothLost q with
          | some (dst, body), _ => failOver s k q dst body
          | none, some other => failBoth s k q other
          | none, none => s)
      | none =>
      if own == far || !mirrorLate s p then s
      else match p.body with
      | .mirrorWrite _ _ fin orig => mirrorTellLost (declareLost (s.dropPkt k) own far) p.src p.req (localCarry s own orig) fin far own
      | _ => match otherHome s p, bothLost p with
        | some (dst, body), _ => failOver s k p dst body
        | none, some other => failBoth s k p other
        | none, none => s)

/-- How far a packet has come. -/
def Stage.rank : Stage → Nat
  | .egress => 0 | .link => 1 | .arrived => 2 | .lost => 3

/-- An earlier packet of the same source, destination and channel has come no further than this one (R108). -/
def waitsBehind (s : State) (k : Nat) (p : Pkt) : Bool :=
  (s.net.take k).any fun q => q.src == p.src && q.dst == p.dst && (q.vc == p.vc || (q.mirrors && p.mirrors)) && q.stage.rank ≤ p.stage.rank

/-- The identity that leaves a package with a local handle, with what the export list and the origin must learn (R208, R209). A packet turned
away at the ingress before its identity became local goes back with it. -/
def exportCarry (s : State) (own far : Nat) (c : Carry) : Carry × State :=
  if c.hnd == 0 || c.opkg != own then (c, s)
  else
    let h := c.hnd.toNat
    let (opkg, oh) := identityOf s own h
    let s := if opkg == own then addExport s own h far
      else if far == opkg then s
      else
        let s := refInc s own h
        { s with ctl := s.ctl ++ [.exportNotice own opkg oh.toNat far h] }
    ({ c with hnd := oh, opkg := opkg }, s)

/-- Chunks count in their communicator's probe domain at the gateway cores (R278). -/
def countChunk (s : State) (gw : EP) (p : Pkt) (n : BitVec 32) (black : Bool) : State := match p.body with
  | .chunk comm .. => modNi s gw (4096 + comm) fun x => (x.1 + n, x.2 || black)
  | _ => s

/-- GATEWAY_EGRESS (R208, R209, R216, R109): the k-th packet leaves its package. -/
def execGatewayEgress (k : Nat) (s : State) : Host.Outcome State Fault Refusal :=
  .next (match s.net[k]? with
    | none => s
    | some p =>
      let own := epPkg p.src
      let far := epPkg p.dst
      if p.stage != .egress || waitsBehind s k p then s
      else if !reachable s own far then unreachablePkt s k p
      else if (bothLost p).any fun other => isLost s own far && isLost s own other then failBoth s k p ((bothLost p).getD 0)
      else
        let gw := egressOf s own far
        if !p.ofColl && expired s gw p.carry then dropLapsed s k gw p p.carry
        else
          let (c, s) := exportCarry s own far p.carry
          (countChunk s gw p 1 false).modPkt k fun p => { p with stage := .link, carry := c })

/-- The gateway core where a packet of another package comes in (R108). By which port it does the spec does not say: the model takes the port of
the receiver's own entry for the sender, and die 0 port 0 where it has none (DESIGN CHOICE, log 81). -/
def ingressGw (s : State) (own frm : Nat) : EP := match tget (s.pkg own).links frm with
  | some (die, port) => gatewayEp own die port 1
  | none => gatewayEp own 0 0 1

/-- The local handle of an identity from outside (R208): handle 0, the own one, or a proxy's. -/
def importHandle (s : State) (own : Nat) (c : Carry) : Option Nat :=
  if c.hnd == 0 then some 0
  else if c.opkg == own then some c.hnd.toNat
  else proxyOf s own c.opkg c.hnd

/-- A packet resolves its virtual core on the package that it has reached (R14 step 3): where it goes on to; none for a refusal. -/
def resolveIngress (s : State) (own : Nat) (p : Pkt) : Option (EP × Body) :=
  let ctx := p.req.ctx
  match p.body with
  | .access (some v) off _ acc r rel l =>
    (vcOf s own ctx v).map fun (e, base, size) => (e, .access none off (rebase base size off acc.size) acc r rel l)
  | .message v t m => (vcOf s own ctx v).map fun (e, _, _) => (e, .message v t m)
  | .pieceRead id src len dsts need engine =>
    (match src.vcore with
      | some v => (resolveAt s own ctx v src.addr len).map fun (e, a) =>
          (e, .pieceRead id { src with ep := e, addr := a, vcore := none } len dsts need engine)
      | none => some (p.dst, p.body))
  | .patternRead id src len engine =>
    (match src.vcore with
      | some v => (resolveAt s own ctx v src.addr len).map fun (e, a) =>
          (e, .patternRead id { src with ep := e, addr := a, vcore := none } len engine)
      | none => some (p.dst, p.body))
  | .pieceWrite id dst data len need engine =>
    (match dst.vcore with
      | some v => (resolveAt s own ctx v dst.addr len).map fun (e, a) =>
          (e, .pieceWrite id { dst with ep := e, addr := a, vcore := none } data len need engine)
      | none => some (p.dst, p.body))
  | b => some (p.dst, b)

/-- The k-th packet goes on inside its package, resolved, or is refused (R14 step 3, R15). -/
def enterPkg (s : State) (k : Nat) (gw : EP) (p : Pkt) (c : Carry) : State :=
  match resolveIngress s (epPkg p.dst) p with
  | some (e, b) => s.modPkt k fun p => { p with stage := .arrived, dst := e, body := b, carry := c }
  | none => reapProxy (refusePkt s k gw { p with carry := c }) (epPkg p.dst) c.hnd.toNat

/-- A later instant raises that of a proxy (R208), and with it the INST of its unions (R210). -/
def raiseProxy (s : State) (own h : Nat) (inst : Instant) : State := match s.lapse? own h with
  | some e => if earlier e.inst inst then memberMoved (s.modLapse own h fun e => { e with inst := inst }) own h else s
  | none => s

/-- GATEWAY_INGRESS (R208, R216, R459): the k-th packet comes into its package: the lapse check, whose failure is reported by the origin identity;
then the handle or proxy, and the virtual core. -/
def execGatewayIngress (k : Nat) (s : State) : Host.Outcome State Fault Refusal :=
  .next (match s.net[k]? with
    | none => s
    | some p =>
      let own := epPkg p.dst
      if p.stage != .link || waitsBehind s k p then s
      else
      let s := if p.mirrors then s else s.modPkt k fun p => { p with asked := none }
      let s := s.modPkg (epPkg p.src) fun x => { x with replays := match tget x.links own with
        | some (die, port) => tdelete (4 * die + port) x.replays
        | none => x.replays }
      let gw := ingressGw s own (epPkg p.src)
      let c := p.carry
      let s := countChunk s gw p (-1) true
      let here := fun h => { c with hnd := BitVec.ofNat 16 h, opkg := own }
      if !p.ofColl && checkFails s (dieKey gw) c.inst ((importHandle s own c).getD 0) then dropLapsed s k gw p c
      else match importHandle s own c with
      | some h =>
        if h == 0 then enterPkg s k gw p (here 0)
        else if (s.lapse? own h).isNone then dropLapsed s k gw p (here h)
        else enterPkg (if c.opkg == own then s else raiseProxy s own h c.inst) k gw p (here h)
      | none => match takeHandle s own with
        | some (h, s) => enterPkg (makeHandle s own h (Lapse.start .proxy c.opkg c.hnd c.inst 0 p.req.ctx)) k gw p (here h)
        | none =>
          let (a, b, d) := dropCounts p.body
          reportItem (refusePkt s k gw p) own c a b d)

/-- The migrant of a request, where it is a visitor: its origin. -/
def originOf (s : State) (req : Req) : Option Origin := (s.thrWhere req.ep (locate s req.ep req.uid)).bind (·.origin)

/-- RBEGIN's answer reaches its thread (R438): it goes on with its region open; with no free record it continues at the abort target with
cause 3. A record whose thread no longer waits, swapped out or gone, is freed: RBEGIN is issued again. -/
def regionOpened (s : State) (p : Pkt) (r : Option Nat) (target : CodeAddr) (reg : Reg) : State :=
  match locate s p.req.ep p.req.uid, awaits s p.req, r with
  | .slot n, true, some id => s.modThr p.req.ep n fun t => { t.goTo ((t.park.map (·.next)).getD t.pc) with region := some ⟨id, none⟩ }
  | .slot n, true, none => deliverAbort s p.req.ep n 3 target reg
  | _, _, some id => if (regionAt s (dieKey p.src) id).any (·.owner.uid == p.req.uid) then abortRegion s (dieKey p.src) id 7 true else s
  | _, _, none => s

/-- The thread that waits in RCOMMIT for its region, at home or in a visitor slot (R439). -/
def committer (s : State) (r : Region) : Option (EP × Nat) :=
  let waits := fun (t : Thread) => (t.sbAt 16).kind == 9 && match t.park with
    | some p => p.why == .answer
    | none => false
  s.cores.findSome? fun (e, c) => c.slots.findSome? fun (n, t) =>
    if (t.uid == r.owner.uid || t.origin.any fun o => o.uid == r.owner.uid) && waits t then some (e, n) else none

/-- The release reaches the thread (R439): it goes on past RCOMMIT with p7 = 1 and RCAUSE 0, and the record is free. -/
def regionReleased (s : State) (dk id uid : Nat) : State :=
  match regionAt s dk id with
  | none => s
  | some r =>
    if r.state != .committed || !r.waiting.isEmpty || r.owner.uid != uid then s
    else match committer s r with
      | some (e, n) => (s.modDie dk fun d => { d with regions := tdelete (id % 1024) d.regions }).modThr e n fun t =>
          let t := t.p7 true
          { t.goTo ((t.park.map (·.next)).getD t.pc) with region := none, sr := { t.sr with rcause := 0 } }
      | none => s

/-- The answer to RBEGIN or RCOMMIT has lapsed on its way (R216): its thread is freed by its own lapse test, an open record ends by the unit's (R196), and
that of a region that has committed is free. -/
def lapsedRegion (s : State) (k : Nat) (p : Pkt) (m : RMsg) : State :=
  let dk := dieKey p.src
  let s := dropLapsed s k p.dst p p.carry
  match m with
  | .release id => if (regionAt s dk id).any fun r => r.state == .committed && r.waiting.isEmpty && r.owner.uid == p.req.uid then
      s.modDie dk fun d => { d with regions := tdelete (id % 1024) d.regions } else s
  | _ => s

/-- REPLY_ARRIVAL (R117, R130, R292, R377): the k-th packet, an answer, reaches its requester; or a migrant's request about the sticky
bits its origin; or the region unit's answer to RBEGIN or RCOMMIT its thread (R486). Replies to threads of a closed rectangle are discarded (R105),
and a lapsed one too (R216, R219). -/
def execReplyArrival (k : Nat) (s : State) : Host.Outcome State Fault Refusal :=
  .next (onPacket s k fun p =>
    let e := p.dst
    match p.body with
    | .answer a =>
      if closedAt s e then s.dropPkt k
      else if expired s e p.carry then dropLapsed s k e p p.carry
      else (s.dropPkt k).settle p.req a
    | .sticky _ =>
      if expired s e p.carry then dropLapsed s k e p p.carry
      else if wrongChannel s e p then refusePkt s k e p
      else
      let s := s.dropPkt k
      (match originOf s p.req with
        | some o =>
          let w := locate s e o.uid
          let v := match s.thrWhere e w with
            | some t => t.sr.sticky.toNat
            | none => 0
          (s.modWhere e w fun t => { t with sr := { t.sr with sticky := 0 } }).answer e p.req p.carry (.value v 0)
        | none => s)
    | .stickySet w req a =>
      if expired s e p.carry then dropLapsed s k e p p.carry
      else
      let s := s.dropPkt k
      (match originOf s req with
        | some o => (s.modWhere e (locate s e o.uid) (·.stickAll w)).answer e req p.carry a
        | none => s)
    | .region m =>
      if expired s e p.carry then lapsedRegion s k p m
      else match m with
      | .opened r target reg => regionOpened (s.dropPkt k) p r target reg
      | .release id => regionReleased (s.dropPkt k) (dieKey p.src) id p.req.uid
      | _ => s
    | _ => s)

/-- The slots that hold messages for injection, in the order of cores and slots (R119). -/
def outboxes (s : State) : List (EP × Nat × Thread) :=
  s.cores.flatMap fun (e, c) => c.slots.filterMap fun (n, t) => if t.outbox.isEmpty then none else some (e, n, t)

/-- MESSAGE_INJECTION (R119): the oldest waiting message of the k-th slot that holds any leaves into the mesh. -/
def execMessageInjection (k : Nat) (s : State) : Host.Outcome State Fault Refusal :=
  .next (match (outboxes s)[k]? with
    | some (e, n, t) => (match t.outbox with
      | o :: rest => (injectMsg s e n t o).modThr e n fun t => { t with outbox := rest }
      | [] => s)
    | none => s)

/-- The thread of a virtual core that a message names (R119): resident at the endpoint, or swapped out. Of a thread that a double trap has
stopped R119 does not speak: the model delivers to it (DESIGN CHOICE, log 81). -/
def addressee (s : State) (e : EP) (ctx : Ctx) (vcore vthr : Nat) : Whereabouts :=
  let mine := fun (t : Thread) => t.ctx == ctx && t.vcore == vcore && t.vthr == vthr && t.origin.isNone && !t.trails
  match (s.core e).slots.find? fun (_, t) => mine t with
  | some (n, _) => .slot n
  | none =>
    match (s.cluster (clusterKey e)).tcc.find? fun (_, i) => mine i.thr && !i.dead with
    | some (n, _) => .tcc n
    | none => match findPos (fun (r : SpillRef) => mine r.thr && !r.dead) (s.pkg (epPkg e)).spilled with
      | some k => .spilled k
      | none => .gone

/-- A message held for a thread at an endpoint. -/
def HeldMsg.isFor (h : HeldMsg) (ctx : Ctx) (vcore vthr : Nat) : Bool := h.ctx == ctx && h.vcore == vcore && h.vthr == vthr

/-- MESSAGE_DELIVERY (R118 to R120, R111, R216): the k-th packet, a message, reaches its thread's inbox, is held, or is refused where its thread
is not at the endpoint that it carries, which no later change of the map alters (R25). -/
def execMessageDelivery (k : Nat) (s : State) : Host.Outcome State Fault Refusal :=
  .next (onPacket s k fun p => match p.body with
    | .message v n m =>
      let e := p.dst
      let ctx := p.req.ctx
      if expired s e p.carry then dropLapsed s k e p p.carry
      else if closedAt s e || wrongChannel s e p then refusePkt s k e p
      else
        let hold := fun (_ : Unit) => (s.dropPkt k).modCore e fun c => { c with held := c.held ++ [⟨ctx, v, n, m, p.req, p.carry, true⟩] }
        match addressee s e ctx v n with
        | .slot i =>
          let full := match s.thr? e i with
            | some t => decide (4 ≤ t.inbox.length)
            | none => true
          if full || (s.core e).held.any (·.isFor ctx v n) then hold ()
          else (takePkt s k e p).modThr e i fun t => { t with inbox := t.inbox ++ [m] }
        | .gone =>
          refusePkt s k e p
        | _ => hold ()
    | _ => s)

/-- The k-th held message of an endpoint is no longer held. -/
def dropHeld (s : State) (e : EP) (k : Nat) (h : HeldMsg) : State :=
  let s := s.modCore e fun c => { c with held := dropAt k c.held }
  if h.chan then countIn s e h.req.ctx else s

/-- HELD_MESSAGE_RELEASE (R120, R219): the k-th message held at an endpoint is delivered once its thread is resident with room in its
inbox; a lapsed one is dropped, and one whose thread is no more is refused. -/
def execHeldMessageRelease (e k : Nat) (s : State) : Host.Outcome State Fault Refusal :=
  .next (match (s.core e).held[k]? with
    | none => s
    | some h =>
      if ((s.core e).held.take k).any (·.isFor h.ctx h.vcore h.vthr) then s
      else if h.chan && expired s e h.carry then reportItem (dropHeld s e k h) (epPkg e) h.carry 0 1 0
      else match addressee s e h.ctx h.vcore h.vthr with
        | .slot i =>
          let room := match s.thr? e i with
            | some t => decide (t.inbox.length < 4)
            | none => false
          if room then (dropHeld s e k h).modThr e i fun t => { t with inbox := t.inbox ++ [h.msg] } else s
        | .gone => if h.chan then (dropHeld s e k h).answer e h.req h.carry .refused else dropHeld s e k h
        | _ => s)

/-- The queue serves a remote enqueue of a context (R122, R355). -/
def takesEnq (s : State) (pkg q : Nat) (ctx : Ctx) : Bool := qServes s pkg q 1 ctx || qServes s pkg q 2 ctx

/-- REMOTE_ENQ_ARRIVAL (R121, R122, R353): the k-th packet, an item from another package, fills the entry that was reserved for it. -/
def execRemoteEnqArrival (k : Nat) (s : State) : Host.Outcome State Fault Refusal :=
  .next (onPacket s k fun p => match p.body with
    | .enq q item ack =>
      let pkg := epPkg p.dst
      if expired s p.dst p.carry then unreserve (dropLapsed s k p.dst p p.carry) pkg q 1
      else if !takesEnq s pkg q p.req.ctx then refusePkt s k p.dst p
      else
        let s := pushItem (unreserve (takePkt s k p.dst p) pkg q 1) pkg q item p.carry
        if ack then s.answer p.dst p.req p.carry .placed else s
    | _ => s)

/-- QRES_REQUEST_ARRIVAL (R355): the k-th packet, a request for entries, is granted what is neither filled nor reserved. -/
def execQresRequestArrival (k : Nat) (s : State) : Host.Outcome State Fault Refusal :=
  .next (onPacket s k fun p => match p.body with
    | .qresReq q n =>
      let pkg := epPkg p.dst
      if expired s p.dst p.carry then dropLapsed s k p.dst p p.carry
      else if wrongChannel s p.dst p then refusePkt s k p.dst p
      else
        let s := s.dropPkt k
        if !takesEnq s pkg q p.req.ctx then s.send p.dst p.req.ep 0 p.req p.carry (.qresGrant q 0 true)
        else
          let x := s.queue pkg q
          let g := min n (qEntries (qDesc s pkg q) - x.items - x.reserved)
          (s.modQueue pkg q fun x => { x with reserved := x.reserved + g }).send p.dst p.req.ep 0 p.req p.carry (.qresGrant q g false)
    | _ => s)

/-- The reservation record of a slot asks a queue of a package for entries (R355). -/
def asksQueue (s : State) (e : EP) (t : Thread) (pkg q : Nat) : Bool :=
  t.qres.outstanding && selQueue t.qres.sel == q
  && (peerOf s (epPkg e) t.sr.peermap (selPeer t.qres.sel)).any fun x => x.1 == pkg

/-- QRES_GRANT_ARRIVAL (R355): the k-th packet, a grant, reaches the record of its slot; one that the slot does not ask that queue for goes
back. -/
def execQresGrantArrival (k : Nat) (s : State) : Host.Outcome State Fault Refusal :=
  .next (onPacket s k fun p => match p.body with
    | .qresGrant q n failed =>
      let e := p.dst
      if expired s e p.carry then dropLapsed s k e p p.carry
      else
      let s := s.dropPkt k
      let w := locate s e p.req.uid
      let s := if failed then s.settle { p.req with entry := 17 } .refused else s
      let asks := match w, s.thrWhere e w with
        | .slot _, some t => asksQueue s e t (epPkg p.src) q
        | _, _ => false
      if asks then s.modWhere e w fun t => { t with qres := { t.qres with count := t.qres.count + n, outstanding := false } }
      else if n == 0 then s
      else s.send e p.src (ctxVc s (epPkg e) p.req.ctx) { p.req with entry := 17 } p.carry (.qresReturn q n)
    | _ => s)

/-- RESERVATION_RETURN (R355): the k-th packet, unused entries, reaches the target. -/
def execReservationReturn (k : Nat) (s : State) : Host.Outcome State Fault Refusal :=
  .next (onPacket s k fun p => match p.body with
    | .qresReturn q n =>
      if expired s p.dst p.carry then dropLapsed s k p.dst p p.carry
      else if wrongChannel s p.dst p then refusePkt s k p.dst p
      else unreserve (s.dropPkt k) (epPkg p.dst) q n
    | _ => s)

/-- DTL_ENTRY_TIMEOUT (R55, R56): the k-th access that waits at a core, in its list or behind it in the overflow order, has waited its
time: the cycle in which its timeout expires has passed, since service in that cycle wins. -/
def execDtlEntryTimeout (e k : Nat) (s : State) : Host.Outcome State Fault Refusal :=
  .next (
    let c := s.core e
    match (c.dtl ++ c.overflow)[k]? with
    | none => s
    | some x =>
      if !entryLate s e x then s
      else
        let n := c.dtl.length
        let s := s.modCore e fun c =>
          if k < n then { c with dtl := dropAt k c.dtl } else { c with overflow := dropAt (k - n) c.overflow }
        (entryAnswer s e x .timedOut).admitAll e)

end Sys2Proof.Machine
end

