-- ==== Sys2Proof/Machine/Visitors.lean ====
section
/-! DEFINITION. Memory cores' program queues (R84, R85), migrants (R87 to R89, R285, R377), the page walker (R34 to R41) and probes of a
phase (R279). -/

namespace Sys2Proof.Machine

/-- A context has program slots on a memory core (R84, R85). -/
def hasProgram (s : State) (e : EP) (ctx : Ctx) : Bool := (s.core e).groups.any fun g => g.ctx == ctx && !g.slots.isEmpty

/-- The memory part of a core changed. -/
def State.modMem (s : State) (e : EP) (f : MemCore → MemCore) : State := s.modCore e fun c => { c with mem := f c.mem }

/-- PROGRAM_COMMAND_ARRIVAL (R84, R85, R420): the k-th packet, a command of engine 4, is accepted by its program queue, held while that
is full, or refused. -/
def execProgramCommandArrival (k : Nat) (s : State) : Host.Outcome State Fault Refusal :=
  .next (onPacket s k fun p => match p.body with
    | .program ws =>
      let e := p.dst
      if expired s e p.carry then dropLapsed s k e p p.carry
      else if wrongChannel s e p || !hasProgram s e p.req.ctx then refusePkt s k e p
      else if 64 ≤ (s.core e).mem.progs.length then s
      else
        let s := (s.dropPkt k).modMem e fun m => { m with progs := m.progs ++ [(p.req.ctx, p.carry, p.req, ws)] }
        (refInc s (epPkg e) p.carry.hnd.toNat).answer e p.req p.carry .placed
    | _ => s)

/-- A command written into a waiting thread as a work packet (R84, R269); the thread holds what the command carried (R212, log 36). -/
def deliverCommand (s : State) (e : EP) (slot : Nat) (ws : Packet) (c : Carry) : State :=
  let s := deliver s e slot ws
  let held := handleWord c.inst c.hnd
  match s.thr? e slot with
  | none => s
  | some t =>
    let s := s.modThr e slot (·.setHandle held)
    match t.pair with
    | some q => s.modThr e q.other (·.setHandle held)
    | none => s

/-- PROGRAM_COMMAND_DELIVERY (R84, R85, R216): the oldest command of a memory core that has lapsed is discarded, or the oldest whose
context has a waiting thread there is delivered. -/
def execProgramCommandDelivery (e : Nat) (s : State) : Host.Outcome State Fault Refusal :=
  .next (
    let l := (s.core e).mem.progs
    let drop := fun (s : State) (k : Nat) => s.modMem e fun m => { m with progs := dropAt k m.progs }
    let waiting := fun (ctx : Ctx) => (s.core e).slots.find? fun (n, t) =>
      t.waitsWork && !t.trails && !t.stopped && t.ctx == ctx && !isVisitor e n
    match findPos (fun (x : Ctx × Carry × Req × Packet) => expired s e x.2.1) l with
    | some k => (match l[k]? with
      | some (_, c, _, _) => discardPacket (drop s k) (epPkg e) c
      | none => s)
    | none =>
      if !quiet s e then s
      else match findPos (fun (x : Ctx × Carry × Req × Packet) => (waiting x.1).isSome) l with
      | some k => (match l[k]? with
        | some (ctx, c, _, ws) => (match waiting ctx with
          | some (n, _) => deliverCommand (drop s k) e n ws c
          | none => s)
        | none => s)
      | none => s)

/-- A free visitor slot (R80, R87). -/
def freeVisitor (s : State) (e : EP) : Option Nat := ((List.range 16).map (· + 16)).find? fun n => (s.thr? e n).isNone

/-- A migrant takes a visitor slot (R87, R88, R377, R444): an identity of its own, its handle as this package knows it, on another package the
context's peer map there (log 37), its region as an abort has left it meanwhile (R192); the carried PC is tested when it is fetched (R316). -/
def placeMigrant (s : State) (e : EP) (n : Nat) (m : Migrant) : State :=
  let c := ctxRecord s (epPkg e) m.thr.ctx
  let home := (s.thrWhere m.origin.ep (locate s m.origin.ep m.origin.uid)).bind (·.region)
  let (fr, s) := s.draw 12
  let v := Regs.start fr
  let t := { m.thr with
    uid := s.nextUid, origin := some m.origin, park := none, fresh := true, line := none,
    region := if m.thr.region.isSome && home.isSome then home else m.thr.region,
    regs := { m.thr.regs with v := v.v, vm := v.vm },
    sr := { m.thr.sr with inst := m.carry.inst, hnd := m.carry.hnd,
                          peermap := if epPkg m.origin.ep == epPkg e then m.thr.sr.peermap else BitVec.ofNat 44 (bitsAt c 247 204) } }
  { s with nextUid := s.nextUid + 1 }.modCore e fun k => { k with slots := tput n t k.slots }

/-- MIGRANT_ARRIVAL (R87, R216, R219): the k-th packet, a migrant, takes a free visitor slot, joins the ingress queue, or is held while
that is full; a lapsed one is ended. -/
def execMigrantArrival (k : Nat) (s : State) : Host.Outcome State Fault Refusal :=
  .next (onPacket s k fun p => match p.body with
    | .migrant m =>
      let e := p.dst
      let m := { m with carry := p.carry }
      if expired s e p.carry then dropLapsed s k e p p.carry
      else if wrongChannel s e p then refusePkt s k e p
      else
        let take := fun (s : State) =>
          if epPkg m.origin.ep == epPkg e then s.dropPkt k else refInc (s.dropPkt k) (epPkg e) p.carry.hnd.toNat
        match (if (s.core e).mem.migrants.isEmpty then freeVisitor s e else none) with
        | some n => placeMigrant (take s) e n m
        | none =>
          if 32 ≤ (s.core e).mem.migrants.length then s
          else (take s).modMem e fun x => { x with migrants := x.migrants ++ [m] }
    | _ => s)

/-- MIGRANT_QUEUE_ADMIT (R87): the oldest migrant of the ingress queue takes a visitor slot that is free. -/
def execMigrantQueueAdmit (e : Nat) (s : State) : Host.Outcome State Fault Refusal :=
  .next (match (s.core e).mem.migrants, freeVisitor s e with
    | m :: rest, some n => placeMigrant (s.modMem e fun x => { x with migrants := rest }) e n m
    | _, _ => s)

/-- The state that a migrant brings back (R87, R376, R444): scalar registers, mode, special registers, instant and handle, its region. What
a visitor slot cannot write stays the origin's. -/
def Thread.comeHome (t : Thread) (m : Migrant) (c : Carry) : Thread :=
  let r := m.thr
  { t.goTo r.pc with
    fresh := true, regs := { t.regs with g := r.regs.g, p := r.regs.p },
    sup := r.sup, handler := r.handler, lapsed := t.lapsed || r.lapsed,
    region := if r.region.isSome && (t.region.bind (·.abort)).isSome then t.region else r.region,
    sr := { r.sr with inst := c.inst, hnd := c.hnd, lbase := t.sr.lbase, lsize := t.sr.lsize, peermap := t.sr.peermap,
                      trapbase := t.sr.trapbase, sticky := t.sr.sticky } }

/-- MIGRANT_RETURN (R89, R285, R219, R111): the k-th packet, a migrant on its way home, re-enters its origin slot, takes its trap there, or
ends the origin with it. -/
def execMigrantReturn (k : Nat) (s : State) : Host.Outcome State Fault Refusal :=
  .next (onPacket s k fun p => match p.body with
    | .comeBack m trap ended =>
      let e := p.dst
      let pkg := epPkg e
      if expired s e p.carry then dropLapsed s k e p p.carry
      else if p.vc != 0 && wrongChannel s e p then refusePkt s k e p
      else
      let s := s.dropPkt k
      (match originSlot s m.origin with
        | none => s
        | some (n, t) =>
          if ended then (if m.thr.lapsed then freeLapsed s e n else endThread s e n)
          else
            let h := p.carry.hnd
            let s := if h == t.sr.hnd || epPkg p.src == pkg then s else refDec (refInc s pkg h.toNat) pkg t.sr.hnd.toNat
            let s := s.modThr e n (·.comeHome m p.carry)
            match trap with
            | none => s
            | some (c, a, i) => { s.trapNow e n c a i.toNat m.thr.pc with turn := s.turn })
    | _ => s)

/-- A leaf enters the TLBs that a walk serves (R38, R39). -/
def fillTlbs (s : State) (x : TlbEntry) (fill : List (Nat × Nat)) : State :=
  fill.foldl (fun s (kind, key) => match kind with
    | 0 => s.modCore key fun c => { c with tlb := tlbFill 1 128 c.tlb x }
    | 1 => s.modDie key fun d => { d with tlb := tlbFill 64 8 d.tlb x }
    | 2 => s.modCluster key fun c => { c with tlb := tlbFill 512 8 c.tlb x }
    | _ => s) s

/-- A thread is parked on a walk (R40). -/
def Thread.awaits (t : Thread) (w : Walk) : Bool := w.fill.contains (4, t.uid) && match t.park with
  | some ⟨.again (.tlb _), _, _, _, _, _, _⟩ => true
  | _ => false

/-- The threads of a die that wait for a walk learn what it has found: a mark in their park, 1 for nothing (R37). -/
def tellWaiters (s : State) (dk : Nat) (w : Walk) (mark : Nat) : State :=
  let f := fun (t : Thread) => if t.awaits w then { t with park := t.park.map fun p => { p with aux := mark } } else t
  let cs := s.cores.map fun (x : Nat × Core) =>
    if dieKey x.1 == dk then (x.1, { x.2 with slots := x.2.slots.map fun (y : Nat × Thread) => (y.1, f y.2) }) else x
  { s with cores := cs }

/-- A walk ends without filling a TLB: the threads that wait for it learn what it has found, and it is kept for the commands that do. -/
def endWalk (s : State) (dk : Nat) (w : Walk) (leaf : Option TlbEntry) : State :=
  let s := tellWaiters s dk w ((leaf.map TlbEntry.mark).getD 1)
  let kept : Walk := { w with ended := true, found := leaf, fill := w.fill.filter (·.1 == 3) }
  s.modDie dk fun d => { d with walks := if kept.fill.isEmpty then d.walks.erase w else d.walks.map fun x => if x == w then kept else x }

/-- PAGE_WALK_STEP (R34, R36, R40, R41, R447): a table entry read for the k-th of the 64 walks in progress returns: the walk goes on a
level, fills the TLBs, or has found nothing. The result of a walk that an INVTLB has overtaken serves the accesses that wait for it and is not
entered. The read is served at the entry's home behind what waits there (R82). -/
def execPageWalkStep (dk k : Nat) (s : State) : Host.Outcome State Fault Refusal :=
  .next (
    let active := ((s.die dk).walks.filter fun w => !w.ended).take 64
    match active[k]? with
    | none => s
    | some w =>
      let a := w.table + 8 * ptIndex w.va w.level
      let there := paPkg w.table == dk / 8 && populated w.table 8192
      if there && unitBusy s a 8 then s
      else
        let s := if there then unitRead s a 8 else s
        match walkRead s (dk / 8) w.table w.va w.level with
        | (.table pa, _) => s.modDie dk fun d => { d with walks := d.walks.map fun x => if x == w then { w with level := w.level + 1, table := pa } else x }
        | (.leaf bits pa, e) =>
          let x := tlbEntryOf w.ctx w.va bits pa e
          if w.stale then endWalk s dk w (some x)
          else fillTlbs (s.modDie dk fun d => { d with walks := d.walks.erase w }) x w.fill
        | (.absent, _) => endWalk s dk w none)

/-- The signed count and the colour of a domain at an interface. -/
def niAt (l : List (Nat × BitVec 32 × Bool)) (dom : Nat) : Int × Bool :=
  ((l.find? (·.1 == dom)).map fun x => (x.2.1.toInt, x.2.2)).getD (0, false)

/-- The interfaces of a package that count for a domain are visited: the sum, whether one was black, all of them white after it. -/
def visitPkg (s : State) (dom : Nat) (acc : Int × Bool) (pkg : Nat) : (Int × Bool) × State :=
  let white := fun (l : List (Nat × BitVec 32 × Bool)) => l.map fun (d, n, b) => if d == dom then (d, n, false) else (d, n, b)
  let mine := s.cores.filter fun (e, _) => epPkg e == pkg
  let all := (mine.map fun (_, c) => niAt c.ni dom) ++ [niAt (s.pkg pkg).ni dom]
  let acc := all.foldl (fun (a : Int × Bool) x => (a.1 + x.1, a.2 || x.2)) acc
  let cs := s.cores.map fun (x : Nat × Core) => if epPkg x.1 == pkg then (x.1, { x.2 with ni := white x.2.ni }) else x
  (acc, { s with cores := cs }.modPkg pkg fun p => { p with ni := white p.ni })

/-- QPROBE_RETURN (R279, R358): the k-th probe under way returns from its interfaces, in the order of packages. -/
def execQprobeReturn (k : Nat) (s : State) : Host.Outcome State Fault Refusal :=
  .next (
    let all := s.pkgs.flatMap fun (n, p) => p.probes.map fun x => (n, x)
    match all[k]? with
    | none => s
    | some (n, x) =>
      let ((sum, black), s) := x.pkgs.foldl (fun (a : (Int × Bool) × State) pkg => visitPkg a.2 x.dom a.1 pkg) ((0, false), s)
      let s := s.modPkg n fun p => { p with probes := p.probes.erase x }
      match x.req with
      | none => s
      | some req =>
        let w := locate s req.ep req.uid
        let done := !black && sum == 0
        s.modWhere req.ep w fun t => match t.park with
          | some p =>
            if req.entry == 16 + 32 * p.ser then
              ((t.putG p.dst (if done then 0 else BitVec.ofInt 64 sum)).p7 done).done16 (match w with | .slot _ => true | _ => false) p
            else t
          | none => t)

end Sys2Proof.Machine
end

