-- ==== Sys2Proof/Machine/Regions.lean ====
section
/-! DEFINITION. The region unit at work (R177 to R198, R438 to R441, R486): begins, accesses with their edges, seals, the commit
decision, resolves, discards, the delivery of aborts, instants and timeouts. Each event takes the key of a die and the place of a packet
among those of its region unit, of an access at its owner behind them, or of a record there. -/

namespace Sys2Proof.Machine

/-- A region that has neither committed nor aborted (R186). -/
def uncommitted (s : State) (dk id : Nat) : Bool := match regionAt s dk id with
  | some r => r.state == .opened || r.state == .sealing
  | none => false

/-- A requester is the thread that owns a region, at home or as a migrant (R197). -/
def ownsRegion (s : State) (r : Region) (req : Req) : Bool :=
  r.owner.uid == req.uid || (originOf s req).any fun o => o.uid == r.owner.uid

/-- The die whose region unit a packet concerns (R486): an abort or a release may follow its thread to another die. -/
def Pkt.unitDie (p : Pkt) : Option Nat := match p.body with
  | .region (.deliver ..) | .region (.release _) => some (dieKey p.src)
  | .region _ => some (dieKey p.dst)
  | _ => none

/-- The packets of a die's region unit, by their places in the net. -/
def regionPkts (s : State) (dk : Nat) : List (Pkt × Nat) := s.net.zipIdx.filter fun x => x.1.unitDie == some dk

/-- The k-th packet of a die's region unit, where it has arrived and overtakes none (R108): its place in the net, and what it says. -/
def regionPkt (s : State) (dk k : Nat) : Option (Nat × Pkt × RMsg) :=
  match (regionPkts s dk)[k]? with
  | some (_, i) => (arrivedPkt s i).bind fun p => match p.body with
    | .region m => some (i, p, m)
    | _ => none
  | none => none

/-- REGION_BEGIN_REQUEST (R177, R438): the free record of the lowest index is allocated with the next begin sequence, or none is free; the
answer leaves for the thread. -/
def execRegionBeginRequest (dk k : Nat) (s : State) : Host.Outcome State Fault Refusal :=
  .next (match regionPkt s dk k with
    | some (i, p, .begin_ target reg timeout) =>
      if expired s p.dst p.carry then dropLapsed s i p.dst p p.carry
      else
      let s := s.dropPkt i
      let back := fun (s : State) (r : Option Nat) => s.sendRegion (unitEp dk) p.req.ep p.req p.carry (.opened r target reg)
      if !awaits s p.req then s
      else (match (List.range 1024).find? fun i => (tget (s.die dk).regions i).isNone with
        | some i =>
          let r : Region :=
            { state := .opened, seq := (s.die dk).rseq, owner := p.req, carry := p.carry, target := target, reg := reg, timeout := timeout,
              preds := [], owners := [], waiting := [], cause := 0, silent := false, since := 0, clock := p.req.ep }
          back (s.modDie dk fun d => { d with regions := tput i r d.regions, rseq := d.rseq + 1 }) (some (dk % 8 * 1024 + i))
        | none => back s none)
    | _ => s)

/-- The greatest number of uncommitted regions in a row behind a region (R186), counted to n. -/
def regionDepth (s : State) (dk : Nat) : Nat → Nat → Nat
  | 0, _ => 0
  | n + 1, id => match regionAt s dk id with
    | some r => if r.preds.isEmpty then 0 else 1 + (r.preds.map (regionDepth s dk n)).foldl max 0
    | none => 0

/-- The regions on a path of edges from one region to another, both included (R186). -/
def edgePath (s : State) (dk frm : Nat) : Nat → Nat → Option (List Nat)
  | 0, _ => none
  | n + 1, q =>
    if !uncommitted s dk q then none
    else if q == frm then some [q]
    else match regionAt s dk q with
      | some r => r.preds.findSome? fun p => (edgePath s dk frm n p).map (q :: ·)
      | none => none

/-- The youngest region of a list (R177). -/
def youngest (s : State) (dk : Nat) (l : List Nat) : Nat :=
  let seq := fun i => ((regionAt s dk i).map (·.seq)).getD 0
  l.foldl (fun a b => if (seq b - seq a).toNat < 2 ^ 31 then b else a) (l.headD 0)

/-- Step 2 of R186 for one new edge: while the accessing region already reaches the other end, the youngest on the way aborts. -/
def breakCycle (s : State) (dk id q : Nat) : Nat → State
  | 0 => s
  | n + 1 =>
    if !uncommitted s dk id then s
    else match edgePath s dk id 8 q with
      | some l => breakCycle (abortRegion s dk (youngest s dk l) 1 false) dk id q n
      | none => s

/-- The new edges into a region that still count (R186 step 1). -/
def newEdges (s : State) (dk id : Nat) (qs : List Nat) : List Nat :=
  let old := ((regionAt s dk id).map (·.preds)).getD []
  (qs.foldl (fun acc q => addOnce q acc) []).filter fun q => q != id && uncommitted s dk q && !old.contains q

/-- A region with more predecessors. -/
def addPreds (s : State) (dk id : Nat) (qs : List Nat) : State := modRegion s dk (id % 1024) fun r => { r with preds := r.preds ++ qs }

/-- Step 3 of R186: a region would have more than 4 uncommitted predecessors, or a depth above 4. -/
def tooDeep (s : State) (dk id : Nat) : Bool :=
  decide (4 < (((regionAt s dk id).map (·.preds)).getD []).length)
  || (s.die dk).regions.any fun (i, _) => 4 < regionDepth s dk 6 i

/-- The entries of a version buffer (R179). -/
def vbufSize (e : EP) : Nat := if epKind e == 1 then 1024 else 128

/-- The version-buffer key of the word of an access. -/
def RAccess.key (a : RAccess) (p : Nat) : Nat := if a.dram then dramKey (p / 8 * 8) else p / 8 * 8

/-- The entries of a word that no abort has ended and no plain write has met (R189), oldest first. -/
def liveStack (s : State) (dk : Nat) (e : EP) (key : Nat) : List VEntry :=
  (stackOf s e key).filter fun v => !v.doomed && match regionAt s dk v.region with
    | some r => r.state != .aborting
    | none => false

/-- The key of a region: its id and its begin sequence, so that a region that reuses a record is another one (R177). -/
def regionKey (s : State) (dk id : Nat) : Nat := id + 8192 * ((regionAt s dk id).map (·.seq.toNat)).getD 0

/-- The regions of keys that still have their records. -/
def ofKeys (s : State) (dk : Nat) (l : List Nat) : List Nat := (l.filter fun k => regionKey s dk (k % 8192) == k).map (· % 8192)

/-- The newest version of a word (R183). -/
def newestW (l : List VEntry) : Option VEntry := (l.filter (·.write)).getLast?

/-- The committed value of a word: 8 bytes at its home. -/
def committedWord (s : State) (a : RAccess) (w : Nat) : Nat := if a.dram then physWord s w 8 else spadRead s a.home w 8

/-- The committed word cannot be read, or for a DRAM line not be written either (R176, R51, R96): INFO of the answer. -/
def ochreWord (s : State) (a : RAccess) (w : Nat) (reads : Bool) : Option Nat :=
  if a.dram then (if (lineValue s (lineOfPa w)).isNone then some 1 else none)
  else if reads && anyOchre s a.home w 8 then some (if a.here then 0 else 2) else none

/-- The accesses of one instruction to one word, on the word's visible value: what they read, the word after them, exception flags. -/
def applyWord (v : Nat) (l : List (Nat × Access)) : List (Nat × Nat) × Nat × Nat :=
  l.foldl (fun (got, v, fl) (p, acc) =>
    let sh := 2 ^ (8 * (p % 8))
    let old := v / sh % 2 ^ (8 * acc.size)
    let put := fun x => v - old * sh + x % 2 ^ (8 * acc.size) * sh
    match acc with
    | .store _ x => (got, put x, fl)
    | .atom op dbl x cmp _ => let (n, f) := atomNew op dbl old x.toNat cmp.toNat; (got ++ [(p, old)], put n, fl ||| f)
    | _ => (got ++ [(p, old)], v, fl)) ([], v, 0)

/-- A vector register filled from the words that were read (R395). -/
def VecFill.fill (f : VecFill) (got : List (Nat × Nat)) : BitVec 512 :=
  f.lanes.foldl (fun x (lo, w, p) =>
    let v := ((got.find? (·.1 == p / 8 * 8)).map (·.2)).getD 0 / 2 ^ (8 * (p % 8)) % 2 ^ w
    (x &&& ~~~(BitVec.ofNat 512 (ones w * 2 ^ lo))) ||| BitVec.ofNat 512 (v * 2 ^ lo)) f.base

/-- The answer of an access that ends (R181, R365). -/
def answerRegion (s : State) (a : RAccess) (x : Answer) : State := s.respond a.home a.req a.carry a.here x

/-- A region access has performed all its words: a vector register is filled, or the answer goes to the thread. -/
def finishAccess (s : State) (a : RAccess) (last : Access) (fl : Nat) : State :=
  match a.vec with
  | some f => (match locate s a.req.ep a.req.uid, awaits s a.req with
    | .slot n, true => s.modThr a.req.ep n fun t => (t.putV f.d (f.fill a.got)).goTo ((t.park.map (·.next)).getD t.pc)
    | _, _ => s)
  | none =>
    let v := ((a.got.getLast?).map (·.2)).getD 0
    answerRegion s a (match last with
      | .load n sg => .value (extend n sg v) 0
      | .atom .. => .value v fl
      | _ => .ack 0)

/-- A vector load that meets an ochre word traps with the address of that word (R393). -/
def noteElement (s : State) (a : RAccess) (w : Nat) : State :=
  match a.vec, locate s a.req.ep a.req.uid with
  | some _, .slot n => s.modThr a.req.ep n fun t => { t with park := t.park.map fun k => { k with aux := w - t.sr.lbase.toNat * 1024 } }
  | _, _ => s

/-- An access of the same region that came before this one to its owner and touches one of its words (R168). -/
def accessBehind (s : State) (dk : Nat) (a : RAccess) : Bool :=
  let keys := a.words.map fun x => a.key x.1
  ((s.die dk).raccs.takeWhile (·.num != a.num)).any fun b => b.region == a.region && b.home == a.home && b.words.any fun x => keys.contains (b.key x.1)

/-- An access at its owner changed. -/
def setAccess (s : State) (dk : Nat) (a : RAccess) : State :=
  s.modDie dk fun d => { d with raccs := d.raccs.map fun b => if b.num == a.num then a else b }

/-- Step 4 of R186: the owner performs the accesses to one word (R183, R184) and notes them in its version buffer. -/
def performWord (s : State) (dk : Nat) (a : RAccess) (w : Nat) (mine rest : List (Nat × Access)) (needR needW : Bool) : State :=
  let key := a.key w
  let live := liveStack s dk a.home key
  let old := match newestW live with
    | some v => v.new.toNat
    | none => committedWord s a w
  let (got, new, fl) := applyWord old mine
  let writes := mine.any fun x => x.2.writes
  let s := s.modCore a.home fun c => { c with vbuf :=
    (if needW then
      c.vbuf ++ (if needR then [⟨key, a.region, false, 0, 0, false, none, false⟩] else [])
        ++ [⟨key, a.region, true, word new, word old, false, a.mpkg, false⟩]
    else
      (c.vbuf.map fun v => if writes && v.write && v.addr == key && v.region == a.region then { v with new := word new } else v)
        ++ (if needR then [⟨key, a.region, false, 0, 0, false, none, false⟩] else [])) }
  let s := modRegion s dk (a.region % 1024) fun r => if needR || needW then { r with owners := addOnce a.home r.owners } else r
  let a' := { a with words := rest, got := a.got ++ got, since := 0, phase := .waiting }
  if rest.isEmpty then finishAccess (endAccess s dk a) a' ((mine.getLast?.map (·.2)).getD (.load 8 false)) fl else setAccess s dk a'

/-- The edges that the next word of an access asks for at its owner (R183, R184): a read from the newest writer, a write from every region with
an entry; by their keys. -/
def edgesOf (s : State) (dk : Nat) (a : RAccess) (key : Nat) (writes : Bool) : List Nat :=
  let live := liveStack s dk a.home key
  ((if writes then live.map (·.region) else (newestW live).toList.map (·.region)).filter (· != a.region)).map (regionKey s dk)

/-- The accesses of an instruction to its next word, and those to the words behind it. -/
def RAccess.nextWord (a : RAccess) : Nat × List (Nat × Access) × List (Nat × Access) :=
  let p := ((a.words.head?.map (·.1)).getD 0) / 8
  (p * 8, a.words.takeWhile fun x => x.1 / 8 == p, a.words.dropWhile fun x => x.1 / 8 == p)

/-- The owner settles the accesses of an instruction to its next word, whose edges the unit has granted (R183 to R186): where others have
come up since, it asks again. Where a plain write has met an entry of the region it waits for the abort (R189); a full version buffer asks for
one (R185, R486). -/
def accessWord (s : State) (dk : Nat) (a : RAccess) (frm : List Nat) : State :=
  let (w, mine, rest) := a.nextWord
  let key := a.key w
  let reads := mine.any fun x => match x.2 with
    | .store .. => false
    | _ => true
  let writes := mine.any fun x => x.2.writes
  if (entriesOf s a.home a.region).any (·.doomed) then s
  else if !(edgesOf s dk a key writes).all frm.contains then setAccess s dk { a with phase := .waiting }
  else
    let fresh := (newestW (liveStack s dk a.home key)).isNone
    let s := if reads && fresh then (if a.dram then meetLineErrors s a.home w 8 else meetErrors s a.home w 8) else s
    match (if fresh then ochreWord s a w reads else none) with
    | some i => answerRegion (noteElement (endAccess s dk a) a w) a (.ochre i a.req.ebit)
    | none =>
      let live := liveStack s dk a.home key
      let own := fun (write : Bool) => (stackOf s a.home key).any fun v => v.region == a.region && v.write == write
      let needR := reads && !(newestW live).any (·.region == a.region) && !own false
      let needW := writes && !own true
      if vbufSize a.home < (s.core a.home).vbuf.length + b2n needR + b2n needW then
        (setAccess s dk { a with phase := .asked }).askAbort a.home dk a.region 3
      else performWord s dk a w mine rest needR needW

/-- Steps 1 to 3 of R186 at the unit, for an access at its owner and the keys of the regions asked for: edges that would close a cycle abort
the youngest region on it; where depth or predecessors pass their limit the access is parked, and its wait begins (R187); else the edges are
recorded and granted. -/
def edgeStep (s : State) (dk : Nat) (a : RAccess) (frm : List Nat) : State :=
  let s := (newEdges s dk a.region (ofKeys s dk frm)).foldl (fun s q => breakCycle s dk a.region q 64) s
  if !uncommitted s dk a.region then s
  else
    let s' := addPreds s dk a.region (newEdges s dk a.region (ofKeys s dk frm))
    if tooDeep s' dk a.region then
      setAccess s dk { a with phase := .parked frm, since := if a.since == 0 then (s.core a.req.ep).cycle + 1 else a.since }
    else match a.phase with
      | .parked _ => (setAccess s' dk { a with phase := .asked, since := 0 }).sendRegion (unitEp dk) a.home a.req a.carry (.granted a.region a.num frm)
      | _ => s'.sendRegion (unitEp dk) a.home a.req a.carry (.granted a.region a.num frm)

/-- The thread that issued a region access still has use for it: it waits for the answer, or its entry still belongs to the open region
(R192). -/
def accessCurrent (s : State) (a : RAccess) : Bool :=
  if a.relaxed then (s.thrWhere a.req.ep (locate s a.req.ep a.req.uid)).any fun t =>
    (t.sbAt a.req.entry).state == .sent && (t.sbAt a.req.entry).inReg
  else awaits s a.req

/-- The record of an access whose region is open and belongs to its thread. -/
def accessRegion (s : State) (dk : Nat) (a : RAccess) : Option Region :=
  (regionAt s dk a.region).filter fun r => r.state == .opened && ownsRegion s r a.req

/-- A region access comes to its owner (R181, R186, R216): a lapsed one asks for the end of its region and counts as stores not applied, one whose region has
ended goes, a fabric access is checked like any other (R15, R113), and the rest join the accesses there. -/
def accessArrives (s : State) (dk i : Nat) (p : Pkt) (a : RAccess) : State :=
  let s := s.dropPkt i
  let gone := fun (s : State) => if p.probed then countIn s a.home a.req.ctx else s
  let ack := fun (s : State) => if a.relaxed then answerRegion s a (.ack 0) else s
  if expired s p.dst p.carry then
    let s := ack (gone (reportItem s (epPkg p.dst) p.carry 0 0 a.stores))
    if (accessRegion s dk a).isSome then s.askAbort a.home dk a.region 4 else s
  else if !accessCurrent s a || (accessRegion s dk a).isNone then ack (gone s)
  else if !a.here && (closedAt s a.home || wrongChannel s a.home p
      || !a.words.all fun (q, acc) => admits s a.home a.req.ctx q acc.size acc.needs) then answerRegion (gone s) a .refused
  else s.modDie dk fun d => { d with raccs := d.raccs ++ [a] }

/-- The next step of an access at its owner: the unit is asked for its edges, those the unit keeps parked are tried again, and those granted
are performed once no write-queue entry (R137) and no fill of its line (R81) holds them. -/
def accessStep (s : State) (dk : Nat) (a : RAccess) : State :=
  let (w, mine, _) := a.nextWord
  match a.phase with
  | .waiting =>
    if accessBehind s dk a then s
    else (setAccess s dk { a with phase := .asked }).sendRegion a.home (unitEp dk) a.req a.carry
      (.edges a.region a.num (edgesOf s dk a (a.key w) (mine.any fun x => x.2.writes)))
  | .asked => s
  | .parked frm => edgeStep s dk a frm
  | .granted frm =>
    let atom := mine.any fun x => match x.2 with | .atom .. => true | _ => false
    if !a.dram && (mine.any fun x => queued s a.home x.1 x.2.size) && (!a.here || atom) then s
    else if a.dram then
      (match needLine s a.home a.ticket (lineOfPa w) with
      | (false, s) =>
        if a.ticket != 0 then s
        else let (n, s) := nextTicket s a.home; setAccess s dk { a with ticket := n }
      | (true, s) => accessWord s dk { a with ticket := 0 } frm)
    else accessWord s dk a frm

/-- REGION_ACCESS_EDGES (R180, R181, R183 to R187, R486): the k-th packet of a die's region unit, where it belongs to a region access (the
access at its owner, the owner's question at the unit, the unit's answer at the owner), or behind the packets the k-th access at its owner. -/
def execRegionAccessEdges (dk k : Nat) (s : State) : Host.Outcome State Fault Refusal :=
  .next (
    let byNum := fun (n : Nat) => (s.die dk).raccs.find? (·.num == n)
    match regionPkt s dk k with
    | some (i, p, .access a) => accessArrives s dk i p a
    | some (i, _, .edges _ n frm) => (match byNum n with
      | some a => edgeStep (s.dropPkt i) dk a frm
      | none => s.dropPkt i)
    | some (i, _, .granted _ n frm) => (match byNum n with
      | some a => setAccess (s.dropPkt i) dk { a with phase := .granted frm }
      | none => s.dropPkt i)
    | some _ => s
    | none => match (s.die dk).raccs[k - (regionPkts s dk).length]? with
      | some a => if k < (regionPkts s dk).length then s else accessStep s dk a
      | none => s)

/-- Every owner has acknowledged the resolve (R178, R439): the release leaves for the thread that waits in RCOMMIT. While that is swapped out
the record waits for its RCOMMIT to be issued again; where the thread is no more the record is free. -/
def releaseCommitted (s : State) (dk id : Nat) : State :=
  match regionAt s dk id with
  | none => s
  | some r =>
    if r.state != .committed || !r.waiting.isEmpty then s
    else match committer s r with
      | some (e, _) => s.sendRegion (unitEp dk) e r.owner r.carry (.release id)
      | none => match locate s r.owner.ep r.owner.uid with
        | .gone => s.modDie dk fun d => { d with regions := tdelete (id % 1024) d.regions }
        | _ => s

/-- The commit decision (R188): the instant and the handle are tested (R216) and the region commits or aborts in one step. Its edges end, and
a resolve goes to every owner. -/
def decideCommit (s : State) (dk id : Nat) : State :=
  match regionAt s dk id with
  | none => s
  | some r =>
    if checkFails s dk r.carry.inst r.carry.hnd.toNat then abortRegion s dk id 4 false
    else
      let s := s.modDie dk fun d => { d with
        regions := d.regions.map fun (i, x) =>
          (i, if i == id % 1024 then { x with state := .committed, waiting := x.owners, since := 0 }
              else { x with preds := x.preds.filter (· != id) }) }
      releaseCommitted (r.owners.foldl (fun s e => s.sendRegion (unitEp dk) e r.owner r.carry (.resolve id)) s) dk id

/-- A region that can be decided: sealed everywhere, no uncommitted predecessor (R178). -/
def decidable (s : State) (dk : Nat) : Option Nat :=
  ((s.die dk).regions.find? fun (_, r) => r.state == .sealing && r.waiting.isEmpty && r.preds.isEmpty).map fun (i, _) => dk % 8 * 1024 + i

/-- Every region that can be decided is, and those that waited for it after it (R187). -/
def decideAll (s : State) (dk : Nat) : Nat → State
  | 0 => s
  | n + 1 => match decidable s dk with
    | some id => decideAll (decideCommit s dk id) dk n
    | none => s

/-- A sealed region whose predecessors have not committed begins its wait (R187). From when that wait counts R187 does not say: the model counts it
from the last acknowledgement of a seal (DESIGN CHOICE, log 83). -/
def startWait (s : State) (dk id : Nat) : State := modRegion s dk (id % 1024) fun r =>
  if r.state == .sealing && r.waiting.isEmpty && r.since == 0 then { r with since := (s.core r.owner.ep).cycle + 1, clock := r.owner.ep } else r

/-- The word of RSTAT (R195). -/
def rstatWord (s : State) (dk id cause : Nat) : Nat := match regionAt s dk id with
  | some r =>
    let st := match r.state with | .opened => 1 | .sealing => 2 | _ => 0
    if st == 0 then cause * 2 ^ 12
    else r.seq.toNat * 2 ^ 32 + dk % 8 * 2 ^ 26 + id % 1024 * 2 ^ 16 + cause * 2 ^ 12 + regionDepth s dk 6 id * 2 ^ 7
      + r.preds.length * 2 ^ 4 + st
  | none => cause * 2 ^ 12

/-- REGION_COMMIT_REQUEST (R178, R439, R441): the k-th packet of the unit, a commit, reaches it: a seal goes to every owner. A commit that a
restored thread issues again finds its region sealing or committed. An RSTAT is answered with what the record holds. -/
def execRegionCommitRequest (dk k : Nat) (s : State) : Host.Outcome State Fault Refusal :=
  .next (match regionPkt s dk k with
    | some (i, p, .commit id) =>
      if expired s p.dst p.carry then dropLapsed s i p.dst p p.carry
      else
      let s := s.dropPkt i
      (match (regionAt s dk id).filter fun r => ownsRegion s r p.req && awaits s p.req with
      | some r =>
        if r.state == .opened then
          let s := modRegion s dk (id % 1024) fun r => { r with state := .sealing, waiting := r.owners }
          decideAll (startWait (r.owners.foldl (fun s e => s.sendRegion (unitEp dk) e r.owner r.carry (.seal_ id)) s) dk id) dk 1024
        else releaseCommitted s dk id
      | none => s)
    | some (i, p, .stat id) =>
      if expired s p.dst p.carry then dropLapsed s i p.dst p p.carry
      else
      let s := s.dropPkt i
      let cause := match s.thrWhere p.req.ep (locate s p.req.ep p.req.uid) with
        | some t => t.sr.rcause.toNat
        | none => 0
      let mine := ((regionAt s dk id).filter fun r => ownsRegion s r p.req).isSome
      s.answer (unitEp dk) p.req p.carry (.value (if mine then rstatWord s dk id cause else cause * 2 ^ 12) 0)
    | _ => s)

/-- SEAL_AT_OWNER (R190): the k-th packet of the unit, a seal, marks the region's entries at their owner, which acknowledges it; where a plain
write has met one of them the abort is on its way, and none is acknowledged (R189). -/
def execSealAtOwner (dk k : Nat) (s : State) : Host.Outcome State Fault Refusal :=
  .next (match regionPkt s dk k with
    | some (i, p, .seal_ id) =>
      if (entriesOf s p.dst id).any (·.doomed) then s.dropPkt i
      else ((s.dropPkt i).modCore p.dst fun c => { c with vbuf := c.vbuf.map fun v =>
        if v.region == id then { v with sealed_ := true } else v }).sendRegion p.dst (unitEp dk) p.req p.carry (.sealAck id p.dst)
    | _ => s)

/-- SEAL_ACK (R178, R187, R188): the k-th packet of the unit, an acknowledgement; with the last one the region is decided, or waits for its
predecessors. -/
def execSealAck (dk k : Nat) (s : State) : Host.Outcome State Fault Refusal :=
  .next (match regionPkt s dk k with
    | some (i, _, .sealAck id e) =>
      let s := modRegion (s.dropPkt i) dk (id % 1024) fun r => if r.state == .sealing then { r with waiting := r.waiting.erase e } else r
      decideAll (startWait s dk id) dk 1024
    | _ => s)

/-- A version becomes the committed value of its word (R188); a mirrored page's other home follows, and the owner's acknowledgement
with it (R98). -/
def resolveEntry (s : State) (dk id : Nat) (e : EP) (req : Req) (carry : Carry) (v : VEntry) : State :=
  let bs := leBytes 8 v.new.toNat
  if v.addr < 2 ^ 60 then answerRange (s.spadPut e v.addr bs) e v.addr 8
  else
    let pa := v.addr - 2 ^ 60
    let s := putParts s e pa bs
    match v.mpkg with
    | none => s
    | some (m, mir) =>
      let s := modRegion s dk (id % 1024) fun r => { r with waiting := e :: r.waiting }
      mirrorOn s e pa bs (some m) mir (ctxVc s (epPkg e) req.ctx) { req with entry := 17 } carry (.resolve dk id e)

/-- An owner's entries of a region go, and the full/empty accesses that they held back are examined (R189, R54). -/
def dropVersions (s : State) (e : EP) (id : Nat) : State :=
  let l := (entriesOf s e id).filter fun v => v.addr < 2 ^ 60
  let s := s.modCore e fun c => { c with vbuf := c.vbuf.filter fun v => v.region != id }
  l.foldl (fun s v => serveRange s e v.addr 8) s

/-- A version becomes committed (R188) and its word's entries go: those of a scratchpad at once, those of a DRAM word once its line is there
(R81), at the resolve's place in the order of arrival at the port (R82). -/
def commitEntry (s : State) (dk id : Nat) (e : EP) (ticket : Nat) (req : Req) (carry : Carry) (v : VEntry) : State :=
  let done := fun (s : State) => (resolveEntry s dk id e req carry v).modCore e fun c =>
    { c with vbuf := c.vbuf.filter fun x => !(x.region == id && x.addr == v.addr) }
  if v.addr < 2 ^ 60 then serveRange (done s) e v.addr 8
  else match needLine s e ticket (lineOfPa (v.addr - 2 ^ 60)) with
    | (true, s) => done s
    | (false, s) => s

/-- RESOLVE_AT_OWNER (R188, R190): the k-th packet of the unit, a resolve: each version of the region becomes committed, its entries go, and with
the last the owner acknowledges. The words that are not committed yet stay sealed, and the resolve keeps its place at the port for them. -/
def execResolveAtOwner (dk k : Nat) (s : State) : Host.Outcome State Fault Refusal :=
  .next (match regionPkt s dk k with
    | some (i, p, .resolve id) =>
      let e := p.dst
      let carry := ((regionAt s dk id).map (·.carry)).getD p.carry
      let s := ((entriesOf s e id).filter (·.write)).foldl (fun s v => commitEntry s dk id e p.ticket p.req carry v) s
      if (entriesOf s e id).any (·.write) then s.heldAtPort i p
      else (dropVersions (s.dropPkt i) e id).sendRegion e (unitEp dk) p.req p.carry (.resolveAck id e)
    | _ => s)

/-- RESOLVE_ACK (R178): the k-th packet of the unit, an acknowledgement; with the last one the thread is released past RCOMMIT. -/
def execResolveAck (dk k : Nat) (s : State) : Host.Outcome State Fault Refusal :=
  .next (match regionPkt s dk k with
    | some (i, _, .resolveAck id e) =>
      releaseCommitted (modRegion (s.dropPkt i) dk (id % 1024) fun r =>
        if r.state == .committed then { r with waiting := r.waiting.erase e } else r) dk id
    | _ => s)

/-- An owner has discarded a region's entries, or needs to no more (R192): with the last one the record is free and the abort is on
its way to the thread. -/
def discardDone (s : State) (dk id : Nat) (e : EP) : State :=
  match regionAt s dk id with
  | some r =>
    if r.state != .aborting || !r.waiting.contains e then s
    else if r.waiting.erase e != [] then modRegion s dk (id % 1024) fun r => { r with waiting := r.waiting.erase e }
    else
      let s := s.modDie dk fun d => { d with regions := tdelete (id % 1024) d.regions }
      if r.silent then s else s.sendRegion (unitEp dk) r.owner.ep r.owner r.carry (.deliver id r.cause r.target r.reg)
  | none => s

/-- DISCARD_AT_OWNER (R192): the k-th packet of the unit, a discard, removes the region's entries at an owner, which acknowledges it. -/
def execDiscardAtOwner (dk k : Nat) (s : State) : Host.Outcome State Fault Refusal :=
  .next (match regionPkt s dk k with
    | some (i, p, .discard id) => (dropVersions (s.dropPkt i) p.dst id).sendRegion p.dst (unitEp dk) p.req p.carry (.discardAck id p.dst)
    | _ => s)

/-- A thread waits on a region access, on RCOMMIT or on an abort of its own (R192). -/
def Thread.waitsRegion (t : Thread) : Bool := match t.park with
  | some p => (match p.why with
    | .region => true
    | .again .commit => true
    | .answer => (t.sbAt 16).kind == 9 || p.ser == 0
    | _ => false)
  | none => false

/-- Where a thread is, by its number: in a slot, a cache, or a save area of the package; the cores in their order. -/
def findThread (s : State) (pkg uid : Nat) : Option (EP × Whereabouts) :=
  match s.cores.findSome? fun (e, c) => if epPkg e == pkg then (c.slots.find? fun (_, t) => t.uid == uid).map fun (n, _) => (e, n) else none with
  | some (e, n) => some (e, .slot n)
  | none => match s.clusters.findSome? fun (key, c) => if key / 256 == pkg then
        (c.tcc.find? fun (_, i) => i.thr.uid == uid && !i.dead).map fun (n, i) => (i.ep, n) else none with
    | some (e, n) => some (e, .tcc n)
    | none => match findPos (fun (r : SpillRef) => r.thr.uid == uid && !r.dead) (s.pkg pkg).spilled with
      | some k => some (mkEp pkg 0 0 0 0, .spilled k)
      | none => none

/-- The visitor slot of a thread's migrant (R197). -/
def visitorOf (s : State) (uid : Nat) : Option (EP × Nat) :=
  s.cores.findSome? fun (e, c) => (c.slots.find? fun (_, t) => t.origin.any fun o => o.uid == uid).map fun (n, _) => (e, n)

/-- An abort reaches a thread in a slot (R192, R284): one that waits on its region is woken and takes it; another keeps it for its next turn. A
handler goes on behind what it waited for and takes the abort at its RTT; a redundant pair takes it in both slots at its leader's next turn
(R197). -/
def abortReaches (s : State) (e : EP) (n id cause : Nat) (target : CodeAddr) (reg : Reg) : State :=
  match s.thr? e n with
  | some t =>
    if !(t.region.any fun r => r.id == id) then s
    else
      let mark := fun (s : State) => s.modThr e n fun t => { t with region := some ⟨id, some (cause, target, reg)⟩ }
      if !t.waitsRegion then mark s
      else if t.handler then (mark s).modThr e n fun t => t.goTo ((t.park.map (·.next)).getD t.pc)
      else if t.pair.isSome then (mark s).modThr e n fun t => t.unpark.modPair fun q => { q with before := none, offered := none }
      else deliverAbort s e n cause target reg
  | none => s

/-- ABORT_DELIVERY (R192, R284, R486): the k-th packet of the unit: an owner's or the thread's request for an abort; the acknowledgement of a
discard, with the last of which the abort leaves for the thread; or an abort, which reaches its thread in its slot, in the visitor slot of its migrant, or in its image, where it waits for the
restore. -/
def execAbortDelivery (dk k : Nat) (s : State) : Host.Outcome State Fault Refusal :=
  .next (match regionPkt s dk k with
    | some (i, _, .abort id seq cause) =>
      if (regionAt s dk id).any (·.seq == seq) then abortRegion (s.dropPkt i) dk id cause false else s.dropPkt i
    | some (i, _, .discardAck id e) => discardDone (s.dropPkt i) dk id e
    | some (i, p, .deliver id cause target reg) =>
      let s := s.dropPkt i
      (match findThread s (dk / 8) p.req.uid with
      | some (e, .slot n) => (match visitorOf s p.req.uid with
        | some (e', n') => abortReaches s e' n' id cause target reg
        | none => abortReaches s e n id cause target reg)
      | some (e, w) => s.modWhere e w fun t =>
          if t.region.any fun r => r.id == id then { t with region := some ⟨id, some (cause, target, reg)⟩ } else t
      | none => s)
    | _ => s)

/-- REGION_INSTANT_TEST (R196, R216): an open or sealing record of the die, the k-th, whose instant or handle has lapsed aborts with cause 4. -/
def execRegionInstantTest (dk k : Nat) (s : State) : Host.Outcome State Fault Refusal :=
  .next (match (s.die dk).regions[k]? with
    | some (i, r) => if checkFails s dk r.carry.inst r.carry.hnd.toNat then abortRegion s dk (dk % 8 * 1024 + i) 4 false else s
    | none => s)

/-- An access that the unit keeps parked (R186 step 3). -/
def RAccess.parked (a : RAccess) : Bool := match a.phase with
  | .parked _ => true
  | _ => false

/-- REGION_WAIT_TIMEOUT (R187): the k-th record has waited its RBEGIN timeout, for its predecessors or with an access parked on its
depth: it aborts with cause 6. -/
def execRegionWaitTimeout (dk k : Nat) (s : State) : Host.Outcome State Fault Refusal :=
  .next (match (s.die dk).regions[k]? with
    | some (i, r) =>
      let id := dk % 8 * 1024 + i
      let late := fun (since : Nat) (e : EP) => since != 0 && r.timeout != allOnes && since + r.timeout.toNat ≤ (s.core e).cycle + 1
      let waits := (r.state == .sealing && late r.since r.clock)
        || (s.die dk).raccs.any fun a => a.region == id && a.parked && late a.since a.req.ep
      if waits then abortRegion s dk id 6 false else s
    | none => s)

end Sys2Proof.Machine
end

