-- ==== Sys2Proof/Machine/Contain.lean ====
section
/-! DEFINITION. Containment (R102 to R106): descriptors, the closing of a boundary with the loss of everything inside, the reset of the
cores, and their release. Each event takes the key of a die and the number of a descriptor. -/

namespace Sys2Proof.Machine

/-- A descriptor's rectangle keeps the alignment rules (R102). -/
def rectAligned (w : Nat) : Bool :=
  bitsAt w 26 22 % 2 == 0 && bitsAt w 21 18 % 2 == 0 && bitsAt w 17 13 % 2 == 1 && bitsAt w 12 9 % 2 == 1
    && bitsAt w 26 22 < bitsAt w 17 13 && bitsAt w 21 18 < bitsAt w 12 9

/-- Two rectangles share a core. -/
def rectsMeet (a b : Nat) : Bool :=
  bitsAt a 26 22 ≤ bitsAt b 17 13 && bitsAt b 26 22 ≤ bitsAt a 17 13 && bitsAt a 21 18 ≤ bitsAt b 12 9 && bitsAt b 21 18 ≤ bitsAt a 12 9

/-- A closed rectangle reopens (R104): its cores are empty and free for allotment. -/
def reopenRect (s : State) (dk r : Nat) : State :=
  if arecState s dk r == 2 then
    let s := (setArecState s dk r 0).modDie dk fun d => { d with closed := d.closed.setIfInBounds r false }
    (rectCores s (dk / 8) (dk % 8) r).foldl (fun s e => s.modCore e fun c => { c with halted := false }) s
  else s

/-- A write of a containment descriptor (R102, R103): the management plane writes a descriptor; one that breaks an alignment rule, meets
another valid rectangle of the die or moves a rectangle that is not open is ignored and logged, with V = 0 as well (log 38). REL reopens. -/
def arecWrite (s : State) (dk r : Nat) (w : BitVec 32) : State :=
  let old := ((s.die dk).arec.toList.getD r 0).toNat
  let v := w.toNat
  let bad := !rectAligned v || (List.range 16).any fun i =>
    let x := ((s.die dk).arec.toList.getD i 0).toNat
    i != r && bitAt x 31 && rectsMeet v x
  let moves := bitsAt v 26 9 != bitsAt old 26 9 && arecState s dk r != 0
  if 16 ≤ r then s
  else if bad || moves then s.event (dk / 8) 0x0021 r (bridgeEp (dk / 8)) 255 (word v)
  else
    let new := bitsAt v 31 31 * 2 ^ 31 + bitsAt old 30 29 * 2 ^ 29 + bitsAt v 26 9 * 2 ^ 9
    let s := s.modDie dk fun d => { d with arec := d.arec.setIfInBounds r (BitVec.ofNat 32 new) }
    if bitAt v 0 then reopenRect s dk r else s

/-- AREC_WRITE (R102, R103). -/
def execArecWrite (dk r : Nat) (w : BitVec 32) (s : State) : Host.Outcome State Fault Refusal := .next (arecWrite s dk r w)

/-- A handle's item is lost to containment (R106, R222): its record says FAULT and its reference ends. -/
def loseHandle (s : State) (pkg h : Nat) : State := refDec (markFault s pkg h) pkg h

/-- A thread inside is lost (R106): its region aborts with cause 10, its handle's record says FAULT, its references end. Its unused
reservation goes back (log 39). -/
def loseInside (s : State) (e : EP) (slot : Nat) : State :=
  match s.thr? e slot with
  | none => s
  | some t =>
    let pkg := epPkg e
    if t.trails then s.vacate e slot
    else
      let s := s.endRegion pkg t 10
      let s := returnRes s e slot t
      let s := match t.provisional with
        | some h => refDec s pkg h.toNat
        | none => s
      loseHandle (s.vacate e slot) pkg t.sr.hnd.toNat

/-- A core inside loses what it holds (R106): its threads, the arms of its deque, its frames, and its groups with their saved images. R222 speaks of a
thread alone: that an arm or a frame lost so makes the record FAULT too is the model's choice (DESIGN CHOICE, log 83). -/
def loseCore (s : State) (e : EP) : State :=
  let pkg := epPkg e
  let c := s.core e
  let s := c.slots.foldl (fun s (n, _) => loseInside s e n) s
  let s := (c.deque.foldl (fun s a => loseHandle s pkg (bitsAt (a.pkt.getD 2 0).toNat 15 0)) s).modCore e fun c => { c with deque := [] }
  let frames := (s.cluster (clusterKey e)).frames.filter fun f => f.ep == e
  let s := (frames.foldl (fun s f => loseHandle s pkg f.carry.hnd.toNat) s).modCluster (clusterKey e) fun k =>
    { k with frames := k.frames.filter fun f => f.ep != e }
  c.groups.foldl (fun s g =>
    let s := killImages s pkg (fun t => t.ctx == g.ctx && t.vcore == g.vcore) true
    match groupOf s e g.ctx g.vcore with
    | some g => endGroup s e g
    | none => s) s

/-- The routers that a packet still has to pass on its way, with the key of their die (R108): within one package, to the egress gateway of its own,
or from the ingress gateway of the package it has reached. -/
def wayOf (s : State) (p : Pkt) : List (Nat × Router) :=
  if epPkg p.src == epPkg p.dst then wayWithin p.src p.dst
  else match p.stage with
    | .egress => wayWithin p.src (egressOf s (epPkg p.src) (epPkg p.dst))
    | .arrived => wayWithin (ingressGw s (epPkg p.dst) (epPkg p.src)) p.dst
    | .link | .lost => []

/-- A packet stands inside a closing rectangle (R105): surely where both its ends do. One that is bound for a core inside is answered there as
the first line of R105 says. Of any other whose way leads through a router of the rectangle, no rule gives the router that it has reached:
a free value says whether it is inside still (log 40). -/
def standsInside (s : State) (inside : List EP) (n : Nat) (p : Pkt) : Bool :=
  if inside.contains p.dst then inside.contains p.src
  else Config.freeBit n && (wayOf s p).any fun x => inside.any fun e => x == (dieKey e, routerOf e)

/-- A packet that the closing of a boundary discards (R105): what an engine or a thread outside waits for fares as a refusal (log 40). -/
def discardInside (s : State) (inside : List EP) (p : Pkt) : State :=
  let s := if p.probed then countIn s p.src p.req.ctx else s
  let out := fun (e : EP) (f : State → State) => if inside.contains e then s else f s
  match p.body with
  | .pieceRead id _ len dsts _ engine => out engine fun s => tellEngine s p.src engine p id len dsts.length .refused
  | .pieceWrite id _ data len _ engine => if data.isNone then s else out engine fun s => tellEngine s p.src engine p id len 1 .refused
  | .pieceEnd id len _ => out p.dst fun s => reportPiece s (epPkg p.dst) id len .refused
  | .patternRead id _ _ engine => out engine fun s => s.send p.src engine 0 p.req p.carry (.pattern id none false)
  | .pattern id _ _ => out p.dst fun s => s.send p.dst p.dst 0 p.req p.carry (.pattern id none false)
  | .qresReq q _ => out p.req.ep fun s => s.send p.src p.req.ep 0 p.req p.carry (.qresGrant q 0 true)
  | .access .. | .dram .. | .window .. | .answer _ | .message .. | .enq .. | .program _ | .sticky _ =>
    out p.req.ep fun s => s.settle p.req .refused
  | .stickySet _ req _ => out req.ep fun s => s.settle req .refused
  | _ => s

/-- The packets that a closing boundary catches inside are discarded (R105). Between outside and inside those of the region unit end with the
regions that the closing aborts (R106) and migrants with their origins; they and mirrored writes are taken to have left (log 40). -/
def dropInside (s : State) (inside : List EP) : State :=
  let stays := fun (p : Pkt) => match p.body with
    | .region _ | .migrant _ | .comeBack .. | .mirrorWrite .. => !(inside.contains p.src && inside.contains p.dst)
    | _ => false
  let (n, s) := s.draw s.net.length
  let gone := s.net.zipIdx.filterMap fun (p, i) => if !stays p && standsInside s inside (n + i) p then some p else none
  let left := s.net.zipIdx.filterMap fun (p, i) => if !stays p && standsInside s inside (n + i) p then none else some p
  gone.foldl (fun s p => discardInside s inside p) { s with net := left }

/-- Region accesses of threads outside that wait at an owner inside are refused (R105, R15). -/
def refuseAccesses (s : State) (dk : Nat) (inside : List EP) : State :=
  ((s.die dk).raccs.filter fun a => inside.contains a.home && !inside.contains a.req.ep).foldl
    (fun s a => answerRegion (endAccess s dk a) a .refused) s

/-- Waiters outside whose requesters lie inside go from the deferred-take lists and the watches (R105, R347); the places that they free
go to the overflow order (R56). -/
def dropWaiters (s : State) (inside : List EP) : State :=
  let keep := fun (x : DtlEntry) => !inside.contains x.req.ep
  let cs := s.cores.map fun (x : Nat × Core) => (x.1, { x.2 with
    dtl := x.2.dtl.filter keep, overflow := x.2.overflow.filter keep, watches := x.2.watches.filter fun w => !inside.contains w.2.1.ep })
  let freed := s.cores.filterMap fun (x : Nat × Core) => if x.2.dtl.all keep then none else some x.1
  freed.foldl (fun s e => s.admitAll e) { s with cores := cs }

/-- Migrants whose origin lies inside end where they are (R105): in a visitor slot, in an ingress queue, or on their way. -/
def endMigrants (s : State) (inside : List EP) : State :=
  let visitors := s.cores.flatMap fun (e, c) => c.slots.filterMap fun (n, t) => match t.origin with
    | some o => if inside.contains o.ep then some (e, n, o) else none
    | none => none
  let s := visitors.foldl (fun s (e, n, o) => match s.thr? e n with
    | some t =>
      let s := s.endRegion (epPkg e) t 10
      leaveVisitor s e n t o
    | none => s) s
  let queued := s.cores.flatMap fun (e, c) => (c.mem.migrants.filter fun m => inside.contains m.origin.ep).map fun m => (e, m)
  let cs := s.cores.map fun (x : Nat × Core) => (x.1, { x.2 with mem := { x.2.mem with
    migrants := x.2.mem.migrants.filter fun m => !inside.contains m.origin.ep } })
  let s := queued.foldl (fun s (e, m) => if epPkg m.origin.ep == epPkg e then s else refDec s (epPkg e) m.carry.hnd.toNat) { s with cores := cs }
  let mine := fun (p : Pkt) => match p.body with
    | .migrant m => inside.contains m.origin.ep
    | _ => false
  let flying := s.net.filter mine
  flying.foldl (fun s p => if p.stage == .arrived then reapProxy s (epPkg p.dst) p.carry.hnd.toNat else s)
    { s with net := s.net.filter fun p => !mine p }

/-- The copy engines inside send nothing more (R105); a landing there fails (R74). -/
def dropEngines (s : State) (inside : List EP) : State :=
  let landings := s.cmds.filter fun c => c.landing && inside.contains c.ep
  let s := { s with cmds := s.cmds.filter fun c => !inside.contains c.ep }
  landings.foldl (fun s c => completeCmd s { c with fault := true }) s

/-- Every open region that holds a version at a core inside aborts with cause 10 (R106). -/
def abortInside (s : State) (dk : Nat) (inside : List EP) : State :=
  ((s.die dk).regions.filter fun (_, r) => r.owners.any inside.contains).foldl
    (fun s (i, _) => abortRegion s dk (dk % 8 * 1024 + i) 10 false) s

/-- An acknowledgement that a core inside owes the region unit comes no more: its entries are gone with it (R104, R106). -/
def ackInside (s : State) (dk : Nat) (inside : List EP) : State :=
  ((s.die dk).regions.flatMap fun (i, r) => (r.waiting.filter inside.contains).map fun e => (dk % 8 * 1024 + i, e)).foldl
    (fun s (id, e) => discardDone (releaseCommitted (modRegion s dk (id % 1024) fun r =>
      if r.state == .committed then { r with waiting := r.waiting.erase e } else r) dk id) dk id e) s

/-- BOUNDARY_CLOSE (R104 to R106): the routers of a rectangle that is resetting close, and everything inside is lost. -/
def execBoundaryClose (dk r : Nat) (s : State) : Host.Outcome State Fault Refusal :=
  .next (
    if arecState s dk r != 1 || (s.die dk).closed.toList.getD r true then s
    else
      let inside := rectCores s (dk / 8) (dk % 8) r
      let s := s.modDie dk fun d => { d with closed := d.closed.setIfInBounds r true }
      let s := endMigrants (dropInside s inside) inside
      let s := dropEngines (dropWaiters s inside) inside
      ackInside (refuseAccesses (abortInside (inside.foldl loseCore s) dk inside) dk inside) dk inside)

/-- RECTANGLE_RESET_COMPLETE (R104, R49): the cores of a closed rectangle are reset, and the event goes to the host. -/
def execRectangleResetComplete (dk r : Nat) (s : State) : Host.Outcome State Fault Refusal :=
  .next (
    if arecState s dk r != 1 || !(s.die dk).closed.toList.getD r false then s
    else
      let (addr, e) := (s.die dk).consumed.toList.getD r (0, 0)
      let s := (rectCores s (dk / 8) (dk % 8) r).foldl (fun s e => s.modCore e Core.contained) s
      (setArecState s dk r 2).event (dk / 8) 0x0020 r e 255 addr)

/-- CONTAINMENT_RELEASE (R104): REL is written to a closed rectangle. -/
def execContainmentRelease (dk r : Nat) (s : State) : Host.Outcome State Fault Refusal := .next (reopenRect s dk r)

end Sys2Proof.Machine
end

