-- ==== Sys2Proof/Machine/Collect.lean ====
section
/-! DEFINITION. The collective engine at work (R132 to R135, R426, R427): chunks, reduction blocks, failures and completion. -/

namespace Sys2Proof.Machine

/-- The k-th command of the collective engine. -/
def collAt (s : State) (pkg k : Nat) : Option Coll := (s.pkg pkg).colls[k]?

/-- What must agree between the ranks (R427): OPN, TYPE, ROP, COUNT, ROOT. -/
def Coll.hdr (c : Coll) : List Nat :=
  [colOpn c.words, bitsAt (cwn c.words 4) 15 12, bitsAt (cwn c.words 4) 17 16, colCount c.words, colRoot c.words]

/-- The bytes of chunk i of a block of n bytes (R133). -/
def chunkLen (n i : Nat) : Nat := min 65536 (n - 65536 * i)

/-- Where the chunk for a rank lies in the source (R427). -/
def Coll.srcOff (c : Coll) (rank i : Nat) : Nat :=
  (if colOpn c.words == 1 || colOpn c.words == 4 then rank * colBytes c.words else 0) + 65536 * i

/-- Where the chunk of a rank goes in the destination (R427). -/
def Coll.dstOff (c : Coll) (rank i : Nat) : Nat :=
  (if colOpn c.words == 0 || colOpn c.words == 4 then rank * colBytes c.words else 0) + 65536 * i

/-- The ranges of a virtual range by 64 KiB page: address, length. -/
def pageParts (va n : Nat) : List (Nat × Nat) :=
  (blocks va n 65536).map fun b => let a := max va (65536 * b); (a, min (va + n) (65536 * b + 65536) - a)

/-- What the engine reads of its source: the bytes, a fault, or a word that it must wait for (R137, R189). -/
inductive CollRead where
  | bytes (l : List (BitVec 8))
  | fault
  | wait
  deriving DecidableEq, Repr

/-- A part of a page of device memory as the engine reads it (R37, R96): behind what waits at its home (R82) and sealed words (R189). -/
def readPart (s : State) (pkg : Nat) (ctx : Ctx) (va n : Nat) : CollRead :=
  match walkNow s pkg ctx va with
  | none => .fault
  | some x =>
    let (_, pa, _, _) := dramTarget s pkg x va
    if !x.rd then .fault
    else if unitBusy s pa n then .wait
    else if (linesOf pa n).any (fun l => (lineValue s l).isNone) then .fault
    else .bytes ((List.range n).map fun i => BitVec.ofNat 8 (physWord s (pa + i) 1))

/-- A source meets its errors as it is read, in a scratchpad (R48) or in device memory (R93, R95). -/
def collMeet (s : State) (pkg : Nat) (c : Coll) (off n : Nat) : State :=
  let a := (cw c.words 1).toNat
  if a / 2 ^ 62 == 0 then meetErrors s c.req.ep (c.lbase * 1024 + a % 2 ^ 21 + off) n
  else (pageParts (a % 2 ^ 56 + off) n).foldl (fun s (va, m) =>
    let s := unitWalk s pkg c.req.ctx va
    match walkNow s pkg c.req.ctx va with
    | some x => let pa := (dramTarget s pkg x va).2.1; if x.rd && !unitBusy s pa m then unitRead s pa m else s
    | none => s) s

/-- n bytes of the source from an offset on. -/
def collRead (s : State) (pkg : Nat) (c : Coll) (off n : Nat) : CollRead :=
  let a := (cw c.words 1).toNat
  if a / 2 ^ 62 == 0 then
    let phys := c.lbase * 1024 + a % 2 ^ 21 + off
    let e := c.req.ep
    if anySealed s e phys n || queued s e phys n then .wait
    else if anyOchre s e phys n then .fault
    else .bytes (mbytes (s.core e).spad phys n)
  else
    (pageParts (a % 2 ^ 56 + off) n).foldl (fun acc (va, m) => match acc, readPart s pkg c.req.ctx va m with
      | .bytes l, .bytes x => .bytes (l ++ x)
      | .bytes _, r => r
      | r, _ => r) (.bytes [])

/-- The pieces of a destination write: offset in the data, length; none crosses a 256-byte boundary of the destination. -/
def collPieces (a n : Nat) : List (Nat × Nat) :=
  (blocks a n 256).map fun b => let x := max a (256 * b); (x - a, min (a + n) (256 * b + 256) - x)

/-- A place of n bytes of the destination at a virtual address (R37), no part of an ochre line (R96). -/
def collPlace (s : State) (pkg : Nat) (c : Coll) (va n : Nat) : Option PieceLoc := match walkNow s pkg c.req.ctx va with
  | some x =>
    let (ep, pa, mpkg, mir) := dramTarget s pkg x va
    let part := (linesOf pa n).any fun l => !(pa ≤ l && l + 64 ≤ pa + n) && (lineValue s l).isNone
    if x.wr && !part then some ⟨ep, pa, none, true, false, (ebitOf s pkg c.peermap (paPkg pa)).getD 0, mpkg, mir⟩ else none
  | none => none

/-- Bytes leave for the destination of the command (R134, R136): to the requester's scratchpad, or to device memory. A chunk is written whole
or not at all: a fault of any of its pages, or a part of an ochre line (R96), fails the rank before a byte is written, and its pieces, which
the command's test at the chunk boundary has let pass, meet no check of their own (R216; log 22). -/
def collWrite (s : State) (pkg : Nat) (c : Coll) (off : Nat) (data : List (BitVec 8)) : State :=
  let a := (cw c.words 2).toNat
  let ce := ceEp pkg
  let send := fun (s : State) (l : PieceLoc) (bs : List (BitVec 8)) =>
    modColl (s.send ce l.ep (ctxVc s pkg c.req.ctx) { c.req with ebit := l.ebit } c.carry
        (.pieceWrite c.id l (some bs) bs.length [] ce))
      pkg c.id fun c => { c with flying := c.flying + 1 }
  if a / 2 ^ 62 == 0 then
    let phys := c.lbase * 1024 + a % 2 ^ 21 + off
    (collPieces phys data.length).foldl (fun s (o, n) =>
      send s ⟨c.req.ep, phys + o, none, false, true, 0, none, false⟩ ((data.drop o).take n)) s
  else
    let va := a % 2 ^ 56 + off
    let places := (collPieces va data.length).map fun (o, n) => (collPlace s pkg c (va + o) n).map fun l => (l, (data.drop o).take n)
    if places.all (·.isSome) then (places.filterMap id).foldl (fun s x => send s x.1 x.2) s
    else failColl s pkg c (commRank s pkg c.comm) false

/-- The own contribution to a reduction becomes the running partial of its blocks (R134). -/
def ownPart (s : State) (pkg : Nat) (c : Coll) (i : Nat) (data : List (BitVec 8)) : State :=
  modColl s pkg c.id fun c => { c with parts := c.parts.map fun x =>
    if x.1 / 16 == i then (x.1, some ((data.drop (x.1 % 16 * 4096)).take 4096), x.2.2) else x }

/-- A chunk has come from a rank, or the own one is there (R134): a reduction's blocks go to the gateway cores of die 0, block i to core
i mod 8; anything else is written. -/
def takeChunk (s : State) (pkg : Nat) (c : Coll) (rank i : Nat) (data : List (BitVec 8)) : State :=
  if colReduces c.words then
    if rank == commRank s pkg c.comm then ownPart s pkg c i data
    else (List.range ((data.length + 4095) / 4096)).foldl (fun s j =>
      let b := 16 * i + j
      let d := (data.drop (4096 * j)).take 4096
      s.modCore (gatewayEp pkg 0 (b % 8 / 2) (b % 2)) fun g => { g with reds := g.reds ++
        [⟨c.req.ctx, c.carry, c.id, colRpc c.words, b, d, d.length / 2 ^ cEsz c.words, none⟩] }) s
  else collWrite s pkg c (c.dstOff rank i) data

/-- The command that the notice of a collective leaves as (R127). -/
def Coll.asCmd (c : Coll) (pkg : Nat) : Cmd :=
  { id := c.id, engine := 3, ep := ceEp pkg, req := c.req, carry := c.carry, words := c.words, dims := [], lbase := c.lbase,
    peermap := c.peermap, done := 0, total := 0, mark := 0, flying := 0, failed := 0, bytes := c.bytes, fault := false, refused := false,
    annulled := false, asked := false, pattern := none, landing := false }

/-- A collective has ended (R127, R420, R427): its counter drops, its record is queued, and with status ok the notice is sent. -/
def completeColl (s : State) (pkg : Nat) (c : Coll) : State :=
  let status := c.isOver.getD 0
  let s := (dropEarly s pkg c).modPkg pkg fun p => { p with colls := p.colls.filter fun x => x.id != c.id }
  let s := s.modIssuer c.req.ep c.req.uid fun t =>
    let t := { t with cnt := { t.cnt with coll := t.cnt.coll - 1 } }
    if cNotify c.words then { t with recs := t.recs ++ [recordOf c.words status 0 c.bytes] } else t
  if cNote c.words && status == 0 then sendNotice s (c.asCmd pkg) else s

/-- Nothing of a command is left to do. -/
def Coll.ended (c : Coll) : Bool := c.toSend.isEmpty && c.toCome.isEmpty && c.parts.isEmpty && c.flying == 0

/-- The first chunk of a reduction all of whose blocks have been combined: its bytes (R134). -/
def Coll.ready (c : Coll) : Option (Nat × List (BitVec 8)) :=
  (c.parts.map fun x => x.1 / 16).findSome? fun i =>
    let l := c.parts.filter fun x => x.1 / 16 == i
    if l.all fun x => x.2.2 == 0 && x.2.1.isSome then some (i, (l.filterMap (·.2.1)).flatten) else none

/-- A buffer for a chunk can be reserved at a package (R133): each is taken from the chunk's leaving until it is written or discarded. How many
there are no rule says: for every command of a communicator one, so that no chunk waits on one of another, and a free number of others (log 22). -/
def bufferFree (s : State) (pkg comm num : Nat) : Bool :=
  let flying := s.net.countP fun p => p.dst == ceEp pkg && match p.body with
    | .chunk c n _ _ _ data => c == comm && n == num && !data.isEmpty
    | _ => false
  let kept := (s.pkg pkg).early.countP fun x => match x with
    | .chunk c n _ _ _ data => c == comm && n == num && !data.isEmpty
    | .partFail .. => false
  flying + kept == 0 || flying + kept < 1 + Config.chunkBuffers pkg

/-- A command's next chunk can leave (R133): no word of its source holds it back (R137, R189), and its buffer can be reserved where it is for
another package that can be reached. -/
def chunkReady (s : State) (pkg : Nat) (c : Coll) : Bool := match c.toSend with
  | (rank, i) :: _ =>
    collRead s pkg c (c.srcOff rank i) (chunkLen (colBytes c.words) i) != .wait
    && (rank == commRank s pkg c.comm || match commPkg s pkg c.comm rank c.peermap with
      | some far => !reachable s pkg far || colBytes c.words ≤ 65536 * i || bufferFree s far c.comm c.num
      | none => true)
  | [] => false

/-- The command that the engine serves next (R133): of the communicators with a chunk ready that of the highest priority, equal ones
round-robin, and of a communicator its oldest command. -/
def nextColl (s : State) (pkg : Nat) : Option Nat :=
  let open_ := (s.pkg pkg).colls.zipIdx.filter fun (c, _) => c.isOver.isNone && !c.toSend.isEmpty
  let l := open_.filter fun (c, i) => chunkReady s pkg c && !open_.any fun (d, j) => d.comm == c.comm && j < i
  let pri := fun (x : Coll × Nat) => commPri s pkg x.1.comm
  let top := (l.map pri).foldl max 0
  let l := l.filter fun x => pri x == top
  let last := (s.pkg pkg).collLast
  let turn := fun (x : Coll × Nat) => (x.1.comm + 255 - last) % 256
  (l.foldl (fun (best : Option (Coll × Nat)) x => match best with
    | none => some x
    | some b => if turn x < turn b then some x else some b) none).map (·.2)

/-- A chunk leaves (R133): the own rank's stays; another's goes on VC3 to the engine of its package, whose buffer it has reserved. The
participant of a package that cannot be reached fails (R109, R135). -/
def sendChunk (s : State) (pkg : Nat) (c : Coll) (rank i : Nat) (data : List (BitVec 8)) : State :=
  let me := commRank s pkg c.comm
  let s := (modColl s pkg c.id fun c => { c with toSend := c.toSend.drop 1 }).modPkg pkg fun p => { p with collLast := c.comm }
  if rank == me then takeChunk s pkg c me i data
  else match commPkg s pkg c.comm rank c.peermap with
    | some far =>
      if reachable s pkg far then s.send (ceEp pkg) (ceEp far) 3 c.req c.carry (.chunk c.comm c.num me i c.hdr data)
      else failColl s pkg c rank false
    | none => failColl s pkg c rank false

/-- A chunk of a command that the own rank has issued is whole in its buffer (R134, R427): one that disagrees with the command makes the own
rank fail, one of a command that has ended is discarded, and any other is taken. -/
def chunkIn (s : State) (pkg : Nat) (c : Coll) (frm i : Nat) (hdr : List Nat) (data : List (BitVec 8)) : State :=
  if c.isOver.isSome then s
  else if hdr != c.hdr then failColl s pkg c (commRank s pkg c.comm) false
  else if !c.toCome.contains (frm, i) then s
  else
    let now := (s.pkgNow pkg).toNat
    takeChunk (modColl s pkg c.id fun c => { c with toCome := c.toCome.erase (frm, i), lastFrom := tput frm now c.lastFrom }) pkg c frm i data

/-- The oldest of what has come early for a command that is issued now is taken. -/
def takeEarly (s : State) (pkg : Nat) (c : Coll) : Option State :=
  match findPos (fun x : Early => x.isFor c.comm c.num) (s.pkg pkg).early with
  | none => none
  | some k =>
    let s' := s.modPkg pkg fun p => { p with early := dropAt k p.early }
    match (s.pkg pkg).early[k]? with
    | some (.chunk _ _ frm i hdr data) => some (chunkIn s' pkg c frm i hdr data)
    | some (.partFail _ _ rank lapse) => some (stopColl s' pkg c rank lapse)
    | none => none

/-- COLL_CHUNK_SEND (R133, R135, R216, R427): a step of the collective engine for its k-th command: it completes, a lapse stops it, what came
before it was issued is taken, a combined block is written, or its next chunk leaves where the engine serves it. -/
def execCollChunkSend (pkg k : Nat) (s : State) : Host.Outcome State Fault Refusal :=
  .next (match collAt s pkg k with
    | none => s
    | some c =>
      let close := fun (s : State) => if noticesOut s c.req.uid then s else completeColl s pkg c
      if c.isOver.isSome then (if c.flying == 0 then close s else s)
      else match takeEarly s pkg c with
      | some s => s
      | none =>
      if c.ended then close s
      else if expired s (ceEp pkg) c.carry then failColl s pkg c (commRank s pkg c.comm) true
      else match c.ready with
      | some (i, d) => collWrite (modColl s pkg c.id fun c => { c with parts := c.parts.filter fun x => x.1 / 16 != i }) pkg c (65536 * i) d
      | none =>
        if nextColl s pkg != some k then s
        else match c.toSend with
        | (rank, i) :: _ =>
          let s := collMeet s pkg c (c.srcOff rank i) (chunkLen (colBytes c.words) i)
          (match collRead s pkg c (c.srcOff rank i) (chunkLen (colBytes c.words) i) with
          | .bytes d => sendChunk s pkg c rank i d
          | .fault => failColl s pkg c (commRank s pkg c.comm) false
          | .wait => s)
        | [] => s)

/-- The command of a communicator by its number (R427). -/
def findColl (s : State) (pkg comm num : Nat) : Option Coll := (s.pkg pkg).colls.find? fun c => c.comm == comm && c.num == num

/-- COLL_CHUNK_ARRIVAL (R134, R216, R427): the k-th packet, a chunk, is whole in its reserved buffer. It stays there until the own rank has issued
the command. -/
def execCollChunkArrival (k : Nat) (s : State) : Host.Outcome State Fault Refusal :=
  .next (onPacket s k fun p => match p.body with
    | .chunk comm num frm i hdr data =>
      let pkg := epPkg p.dst
      if expired s p.dst p.carry then dropLapsed s k p.dst p p.carry
      else
        let s := s.dropPkt k
        (match findColl s pkg comm num with
        | some c => chunkIn s pkg c frm i hdr data
        | none =>
          if num < (tget (s.pkg pkg).collNums comm).getD 0 then s
          else s.modPkg pkg fun p => { p with early := p.early ++ [.chunk comm num frm i hdr data] })
    | _ => s)

/-- Where a gateway thread's allotment takes the arriving block and the running partial (log 41): two places of 4 KiB, by their physical
offset; none in an allotment of less than 8 KiB. -/
def redPlaces (t : Thread) : Option (Nat × Nat) :=
  let n := t.sr.lsize.toNat / 4
  if n < 2 then none
  else
    let a := Config.redPlace t.uid % n
    let b := (a + 1 + Config.redPlace (t.uid + 1) % (n - 1)) % n
    some (t.sr.lbase.toNat * 1024 + 4096 * a, t.sr.lbase.toNat * 1024 + 4096 * b)

/-- The next block that a gateway core can hand out, with its place: its running partial is there, and no thread works on it. -/
def nextRed (s : State) (e : EP) : Option (Nat × RedBlock × List (BitVec 8)) :=
  (s.core e).reds.zipIdx.findSome? fun (b, i) =>
    let busy := (s.core e).reds.any fun x => x.cmd == b.cmd && x.block == b.block && x.taken.isSome
    let part := ((s.pkg (epPkg e)).colls.find? fun c => c.id == b.cmd).bind fun c => (c.parts.find? fun x => x.1 == b.block).bind (·.2.1)
    if busy then none else part.map fun p => (i, b, p)

/-- A block whose thread has ended, and whose running partial can be read now. -/
def combinedRed (s : State) (e : EP) : Option RedBlock := (s.core e).reds.find? fun b => (b.taken.map (·.1)) == some 0 && !redHeld s e b

/-- REDUCTION_BLOCK_DELIVERY (R134, R427): a block combined before is read back, or else the next block of a gateway core goes to a thread of the context that waits for work there. Its
bytes are plain writes: a sealed entry holds them back, and unsealed ones abort their regions (R189). -/
def execReductionBlockDelivery (e : Nat) (s : State) : Host.Outcome State Fault Refusal :=
  .next (match combinedRed s e with
    | some b => redRead s e b
    | none => match nextRed s e with
    | none => s
    | some (i, b, part) =>
      match (s.core e).slots.findSome? fun (n, t) =>
          if t.ctx == b.ctx && t.waitsWork && !t.trails && t.origin.isNone && !t.stopped && quiet s e then
            (redPlaces t).map fun p => (n, t, p)
          else none with
      | none => s
      | some (n, t, x, y) =>
        if anySealed s e x b.data.length || anySealed s e y part.length then s
        else
          let loc := fun (a : Nat) => word (a - t.sr.lbase.toNat * 1024)
          let s := abortPlain (abortPlain s e x b.data.length) e y part.length
          let s := (s.spadPut e x b.data).spadPut e y part
          let s := s.modCore e fun c => { c with reds := modAt (fun r => { r with taken := some (t.uid, y) }) i c.reds }
          deliver (refInc s (epPkg e) b.carry.hnd.toNat) e n
            [word b.rpc.toNat, 0, handleWord b.carry.inst b.carry.hnd, word b.elems, 0, 0, loc x, loc y])

/-- COLL_PARTICIPANT_FAILURE (R135): the k-th packet, a failure or a lapse at a participant, reaches this one; it waits for a command that this
rank has yet to issue. -/
def execCollParticipantFailure (k : Nat) (s : State) : Host.Outcome State Fault Refusal :=
  .next (onPacket s k fun p => match p.body with
    | .partFail comm num rank lapse =>
      let pkg := epPkg p.dst
      let s := s.dropPkt k
      (match findColl s pkg comm num with
      | some c => stopColl s pkg c rank lapse
      | none =>
        if num < (tget (s.pkg pkg).collNums comm).getD 0 then s
        else s.modPkg pkg fun p => { p with early := p.early ++ [.partFail comm num rank lapse] })
    | _ => s)

/-- COLL_TIMEOUT (R135): a chunk due to the k-th command has not arrived within the communicator timeout: its participant fails. From when that
runs R135 does not say: the model counts, for each participant, from the command's start or the participant's latest chunk (DESIGN
CHOICE, log 81). -/
def execCollTimeout (pkg k : Nat) (s : State) : Host.Outcome State Fault Refusal :=
  .next (match collAt s pkg k with
    | none => s
    | some c =>
      let late := fun (x : Nat × Nat) =>
        (tget c.lastFrom x.1).getD c.since + (s.pkg pkg).bridge.commto.toNat * 1000 ≤ (s.pkgNow pkg).toNat
      match c.toCome.find? late with
      | some (rank, _) => if c.isOver.isNone then failColl s pkg c rank false else s
      | none => s)

/-- A package has become unreachable: it fails as a participant of every collective (R135). -/
def participantGone (s : State) (pkg far : Nat) : State :=
  (s.pkg pkg).colls.foldl (fun s c =>
    match (List.range (commSize s pkg c.comm)).find? fun r => commPkg s pkg c.comm r c.peermap == some far with
    | some r => if r == commRank s pkg c.comm then s else failColl s pkg c r false
    | none => s) s

end Sys2Proof.Machine
end

