-- ==== Sys2Proof/Machine/Links.lean ====
section
/-! DEFINITION. The package's ways to the outside (R109, R199, R200, R463): link ports that fail, the KBL, and the time base. -/

namespace Sys2Proof.Machine

/-- Every copy of NOW goes on by dt nanoseconds (R199) and by what the slew of its package has gathered (R200). -/
def State.advance (s : State) (dt : Nat) : State :=
  if dt == 0 then s
  else
    let gather := fun (p : Pkg) => p.phase + (dt : Int) * p.slew
    let f := fun (k : Nat) => BitVec.ofInt 64 ((dt : Int) + (gather (s.pkg (k / 8))).tdiv 1000000)
    { s with
      dies := s.dies.map fun (x : Nat × Die) => (x.1, { x.2 with now := x.2.now + f x.1 }),
      pkgs := s.pkgs.map fun (x : Nat × Pkg) => (x.1, { x.2 with phase := (gather x.2).tmod 1000000 }) }

/-- The slew towards the master's time base: at most 100 ppm (R200). -/
def slewTo (own master : Nat) : Int := if own < master then 100 else if master < own then -100 else 0

/-- The estimated error is above 250 ns (R200): an event, and the unsynchronised flag. -/
def noteError (s : State) (pkg err : Nat) : State :=
  if 250 < err && !(s.pkg pkg).bridge.unsync then
    (s.modBridge pkg fun b => { b with unsync := true }).event pkg 0x0050 0 (bridgeEp pkg) 255 (word err)
  else s

/-- TIME_SYNC_FLIT (R200): the master's time base reaches a package that follows it. -/
def execTimeSyncFlit (pkg : Nat) (master : BitVec 64) (s : State) : Host.Outcome State Fault Refusal :=
  .next (
    if !(s.pkg pkg).powered || (s.pkg pkg).bridge.bootState != 5 || (s.pkg pkg).bridge.master then s
    else
      let own := (s.pkgNow pkg).toNat
      noteError (s.modPkg pkg fun p => { p with slew := slewTo own master.toNat }) pkg (max own master.toNat - min own master.toNat))

/-- TIME_SYNC_LOST (R200): the error as the package estimates it. -/
def execTimeSyncLost (pkg err : Nat) (s : State) : Host.Outcome State Fault Refusal :=
  .next (if (s.pkg pkg).powered && (s.pkg pkg).bridge.bootState == 5 && !(s.pkg pkg).bridge.master then
      noteError (s.modPkg pkg fun p => { p with slew := 0 }) pkg err
    else s)

/-- A packet of a mirrored page that the mirror timeout looks after (R100). -/
def Pkt.mirrored (s : State) (p : Pkt) : Bool := match p.body with
  | .mirrorWrite .. => true
  | .dram _ _ _ _ mpkg _ => mpkg.isSome
  | .pieceRead _ src .. | .patternRead _ src .. => src.mpkg.isSome && src.dram && !src.mir
  | .pieceWrite _ dst .. => dst.mpkg.isSome && dst.dram
  | .migrant m => (walkNow s (epPkg p.src) m.thr.ctx m.va).any fun x => x.m && paPkg (x.addr m.va) == epPkg p.dst
  | _ => false

/-- A packet that was in flight on a failed port is lost, and its requester fares as under a timeout (R109; log 43); probes count it as dropped (R278). -/
def losePkt (s : State) (p : Pkt) : State :=
  let s := countChunk (if p.probed then countIn s p.src p.req.ctx else s) (egressOf s (epPkg p.src) (epPkg p.dst)) p (-1) true
  match p.body with
  | .access .. | .dram .. | .window .. | .answer _ | .message .. | .enq .. | .program _ | .sticky _ => s.settle p.req .timedOut
  | .stickySet _ req _ => s.settle req .timedOut
  | .qresReq q _ => s.send p.src p.req.ep 0 p.req p.carry (.qresGrant q 0 true)
  | .qresGrant q _ _ => s.send p.dst p.dst 0 p.req p.carry (.qresGrant q 0 true)
  | .pieceRead id _ len dsts _ engine => tellEngine s p.src engine p id len dsts.length .refused
  | .pieceWrite id _ data len _ engine => if data.isSome then tellEngine s p.src engine p id len 1 .refused else s
  | .pieceEnd id len _ => reportPiece s (epPkg p.dst) id len .refused
  | .patternRead id _ _ engine => s.send p.src engine 0 p.req p.carry (.pattern id none false)
  | .pattern id _ _ => s.send p.dst p.dst 0 p.req p.carry (.pattern id none false)
  | .migrant m => loseMigrant s m.origin
  | .comeBack m _ _ => loseMigrant s m.origin
  | .qresReturn .. | .mirrorWrite .. | .chunk .. | .partFail .. | .region _ => s

/-- The packets on their way over a port are lost; those of mirrored pages, and the replies to such, are left to the mirror timeout. -/
def loseOnPort (s : State) (pkg die port : Nat) : State :=
  let on := fun (p : Pkt) => p.stage == .link && epPkg p.src == pkg && tget (s.pkg pkg).links (epPkg p.dst) == some (die, port)
  let kept := fun (p : Pkt) => p.mirrored s || p.asked.isSome
  let gone := s.net.filter fun p => on p && !kept p
  let net := (s.net.filter fun p => !(on p && !kept p)).map fun p => if on p then { p with stage := .lost } else p
  gone.foldl losePkt { s with net := net }

/-- The references that an unreachable package holds by export lists end (R209). -/
def dropExports (s : State) (pkg far : Nat) : State :=
  ((s.pkg pkg).lapse.filterMap fun (h, e) => if e.exports.contains far then some h else none).foldl
    (fun s h => refDec (s.modLapse pkg h fun e => { e with exports := e.exports.filter (· != far) }) pkg h) s

/-- A package is declared unreachable (R109, R100, R135, R209). -/
def declareUnreachable (s : State) (pkg far : Nat) : State :=
  let s := (s.modPkg pkg fun p => { p with links := tdelete far p.links, unreachable := addOnce far p.unreachable }).event pkg 0x0043 far
    (bridgeEp pkg) 255 0
  participantGone (dropExports (declareLost s pkg far) pkg far) pkg far

/-- A port goes down (R109): its packets are lost and its destinations move to another port that leads there and works, by the domain's cabling; a
destination without one is unreachable. To which of the ports left a destination moves R109 does not say: the model takes the lowest (DESIGN
CHOICE, log 83). -/
def portDown (s : State) (pkg n : Nat) : State :=
  let s := loseOnPort s pkg (n / 4) (n % 4)
  let s := (s.modPkg pkg fun p => { p with portsDown := addOnce n p.portsDown }).event pkg 0x0042 n (gatewayEp pkg (n / 4) (n % 4) 0) 255 0
  ((s.pkg pkg).links.filter fun x => x.2 == (n / 4, n % 4)).foldl (fun s (far, _) =>
    match (List.range 32).find? fun k => !(s.pkg pkg).portsDown.contains k && Config.portReaches pkg k far with
    | some k => s.modPkg pkg fun p => { p with links := tput far (k / 4, k % 4) p.links }
    | none => declareUnreachable s pkg far) s

/-- LINK_FLIT_CRC_FAIL (R109): a replay of port 4 × die + port fails; at the eighth in a row the port is down. -/
def execLinkFlitCrcFail (pkg port : Nat) (s : State) : Host.Outcome State Fault Refusal :=
  .next (
    let n := (tget (s.pkg pkg).replays port).getD 0 + 1
    if !(s.pkg pkg).powered || 32 ≤ port || (s.pkg pkg).portsDown.contains port then s
    else
      let s := s.modPkg pkg fun p => { p with replays := tput port n p.replays }
      if n < 8 then s else portDown s pkg port)

/-- KBL_FLIT_CRC_FAIL (R463): a replay of the KBL fails; at the eighth in a row it is down. -/
def execKblFlitCrcFail (pkg : Nat) (s : State) : Host.Outcome State Fault Refusal :=
  .next (
    let p := s.pkg pkg
    if !p.powered || !p.kblUp then s
    else
      let s := s.modPkg pkg fun p => { p with kblFails := p.kblFails + 1 }
      if p.kblFails + 1 < 8 then s
      else (s.modPkg pkg fun p => { p with kblUp := false }).event pkg 0x0063 0 (bridgeEp pkg) 255
        (word (p.hostRecs.length + p.bridge.events.length)))

end Sys2Proof.Machine
end

