-- ==== Sys2Proof/Machine/Boot.lean ====
section
/-! DEFINITION. Power, boot, attestation and islands (R473 to R483): the order of R474, the checks of the boot ROM, the measurement, the
reports, and what droop and temperature do. -/

namespace Sys2Proof.Machine

/-- The endpoints of a package's cores in rising order (R29, R461). -/
def packageCores (pkg : Nat) : List EP :=
  (List.range 8).flatMap fun d =>
    (List.range 512).map (fun i => mkEp pkg d 0 0 0 + i)
    ++ (List.range 32).map (fun x => mkEp pkg d 1 x 0)
    ++ (List.range 4).flatMap fun p => [mkEp pkg d 2 p 0, mkEp pkg d 2 p 1]

/-- The entries of a table below and above a range of keys. -/
def outside {α : Type} (t : Table α) (lo n : Nat) : Table α × Table α := (t.filter fun x => x.1 < lo, t.filter fun x => lo + n ≤ x.1)

/-- A table without a range of keys. -/
def tdrop {α : Type} (t : Table α) (lo n : Nat) : Table α := let (a, b) := outside t lo n; a ++ b

/-- The cores of a package are released in the state of R49 (R474 step 8), with the registers that their endpoints hold (R471). -/
def releaseCores (s : State) (pkg : Nat) : State :=
  let (a, b) := outside s.cores (pkg * 2 ^ 14) (2 ^ 14)
  { s with cores := a ++ (packageCores pkg).map (fun e => (e, { Core.start (kindOf e) with mgmt := s.mgmt e })) ++ b }

/-- A package powers down (R474): nothing persists but the attestation index. Packets on their way to it are lost (R109). -/
def powerDown (s : State) (pkg : Nat) : State :=
  let own := fun (e : EP) => epPkg e == pkg
  let lost := s.net.filter fun p => own p.dst && !own p.src
  let s := { s with
    pkgs := tput pkg (Pkg.off (s.pkg pkg).flash) s.pkgs,
    dies := tdrop s.dies (pkg * 8) 8, clusters := tdrop s.clusters (pkg * 256) 256, cores := tdrop s.cores (pkg * 2 ^ 14) (2 ^ 14),
    dram := tdrop s.dram (pkg * 2 ^ 46) (2 ^ 46), check := tdrop s.check (checkAddr (pkg * 2 ^ 46)) (checkAddr (2 ^ 46)),
    net := s.net.filter fun p => !own p.dst && !own p.src,
    ctl := s.ctl.filter fun m => match m with
      | .drop p .. => p != pkg
      | .dropAt f p .. => f != pkg && p != pkg
      | .exportNotice f p .. => f != pkg && p != pkg
      | .noticeAck p _ => p != pkg
      | .proxyReport f p .. => f != pkg && p != pkg
      | .cancel p .. => p != pkg
      | .cancelOrigin p _ => p != pkg
      | .unionChange p .. => p != pkg,
    cmds := s.cmds.filter fun c => !own c.ep,
    turn := s.turn.filter fun u => !own u.ep }
  lost.foldl losePkt s

/-- POWER_LOSS (R474, R479). -/
def execPowerLoss (pkg : Nat) (s : State) : Host.Outcome State Fault Refusal :=
  .next (if (s.pkg pkg).powered then powerDown s pkg else s)

/-- POWER_GOOD (R474 steps 1 and 2): the bridge and the control plane leave reset; BOOTSTAT.STATE stays 0. -/
def execPowerGood (pkg : Nat) (s : State) : Host.Outcome State Fault Refusal :=
  .next (if (s.pkg pkg).powered then s
    else
      let s := { s with pkgs := tput pkg { Pkg.off (s.pkg pkg).flash with powered := true, kblUp := false } s.pkgs }
      (List.range 8).foldl (fun s d => s.modDie (pkg * 8 + d) fun _ => Die.start) s)

/-- KBL_TRAINED (R474 step 3): STATE 1, waiting for an image. One that went down and trains again carries traffic again (log 44). -/
def execKblTrained (pkg : Nat) (s : State) : Host.Outcome State Fault Refusal :=
  .next (if !(s.pkg pkg).powered then s
    else s.modPkg pkg fun p => { p with kblUp := true, kblFails := 0, bridge :=
      if p.bridge.bootState == 0 then { p.bridge with bootState := 1 } else p.bridge })

/-- BOOTCTL.GO in state 1 or 4 starts verification (R474 step 4); in any other state it is discarded. -/
def bootGo (s : State) (pkg : Nat) : State :=
  let b := (s.pkg pkg).bridge
  if (s.pkg pkg).powered && (b.bootState == 1 || b.bootState == 4) then s.modBridge pkg fun b => { b with bootState := 2, bootFail := 0 } else s

/-- BOOT_GO (R474): the host writes GO. -/
def execBootGo (pkg : Nat) (s : State) : Host.Outcome State Fault Refusal :=
  .next (if hostReaches s pkg then bootGo (kblGood s pkg) pkg else s)

/-- LENGTH of the staged image (R476). -/
def imageLen (m : Memory) : Nat := mread m 8 4

/-- The bytes that a signature and the measurement cover (R477, R480): header bytes 0x000 to 0x05F, then the payload. -/
def signedBytes (m : Memory) : List (BitVec 8) := mbytes m 0 0x60 ++ mbytes m 0x1000 (imageLen m)

/-- The reserved bytes of the header are 0 (R476). -/
def reservedClear (m : Memory) : Bool :=
  [(0x006, 2), (0x014, 12), (0x058, 8), (0xA2C, 1492)].all fun (a, n) => (mbytes m a n).all (· == 0)

/-- The boot ROM's checks in order (R477): the FAIL code of the first that fails, or 0. -/
def bootChecks (pkg : Nat) (m : Memory) : Nat :=
  let key := mbytes m 0x20 56
  if mread m 0 4 != 0x4B314E41 || mread m 4 2 != 1 then 1
  else if imageLen m < 1 || 0x3FF000 < imageLen m then 2
  else if !reservedClear m then 6
  else if sha256 key != Config.fuseKeyHash pkg || key.take 4 != beBytes 4 lmsType
      || (key.drop 4).take 4 != beBytes 4 lmotsType then 3
  else if !lmsVerify key (signedBytes m) (mbytes m 0x60 2508) then 4
  else if mread m 0xC 4 < (Config.fuseMinSvn pkg).toNat then 5
  else 0

/-- A digest or register of 256 bits as its bytes. -/
def bytes256 (x : BitVec 256) : List (BitVec 8) := leBytes 32 x.toNat

/-- The measurement of an image (R480). -/
def measureOf (m : Memory) : BitVec 256 := sha256 (List.replicate 32 0 ++ bytes256 (sha256 (signedBytes m)))

/-- BOOT_VERIFY (R474 steps 5 and 6, R477, R480): the image is checked; one that passes is measured. -/
def execBootVerify (pkg : Nat) (s : State) : Host.Outcome State Fault Refusal :=
  .next (
    let p := s.pkg pkg
    if !p.powered || p.bridge.bootState != 2 then s
    else
      let f := bootChecks pkg p.staging
      if f == 0 then s.modPkg pkg fun p => { p with
        measure := measureOf p.staging, svn := BitVec.ofNat 32 (mread p.staging 0xC 4), bridge := { p.bridge with bootState := 3, bootFail := 0 } }
      else s.modBridge pkg fun b => { b with bootState := 4, bootFail := BitVec.ofNat 8 f })

/-- ATTCTL is written (R473, R479): a request while one is served is discarded and logged; else the next index is taken and committed to
flash, or none is left. -/
def attRequest (s : State) (pkg : Nat) (w : Word) : State :=
  let p := s.pkg pkg
  if !bitAt w.toNat 0 then s
  else if p.bridge.attState == 1 then s.event pkg 0x0072 0 (bridgeEp pkg) 255 0x2020
  else if 2 ^ 20 ≤ p.flash then s.modBridge pkg fun b => { b with attState := 3 }
  else s.modPkg pkg fun p => { p with flash := p.flash + 1, bridge := { p.bridge with attState := 1, attIndex := BitVec.ofNat 20 p.flash } }

/-- ATTESTATION_REQUEST (R473, R479). -/
def execAttestationRequest (pkg : Nat) (w : BitVec 64) (s : State) : Host.Outcome State Fault Refusal :=
  .next (if hostReaches s pkg then attRequest (kblGood s pkg) pkg w else s)

/-- The bytes of a report (R480). -/
def reportBytes (pkg : Nat) (p : Pkg) : List (BitVec 8) :=
  bytes256 p.bridge.attnonce ++ leBytes 16 (Config.fuseDeviceId pkg).toNat ++ bytes256 p.measure ++ leBytes 4 (Config.fuseMinSvn pkg).toNat
    ++ leBytes 4 p.svn.toNat ++ leBytes 4 p.bridge.attIndex.toNat

/-- An LMS signature in the layout of R477 and RFC 8554: leaf, LM-OTS signature, LMS type and path: 2508 bytes. What the key puts into it, the LM-OTS
randomiser with its chains and the path, the package alone knows (log 10). -/
def lmsBytes (q : Nat) (ots : BitVec 17408) (path : BitVec 2560) : List (BitVec 8) :=
  beBytes 4 q ++ beBytes 4 lmotsType ++ leBytes 2176 ots.toNat ++ beBytes 4 lmsType ++ leBytes 320 path.toNat

/-- An LMS public key in the layout of RFC 8554: types, identifier and root: 56 bytes. -/
def lmsKey (id : BitVec 128) (root : BitVec 256) : List (BitVec 8) :=
  beBytes 4 lmsType ++ beBytes 4 lmotsType ++ leBytes 16 id.toNat ++ leBytes 32 root.toNat

/-- The public key of a lower tree of a package's HSS key (R478). -/
def lowerKey (pkg tree : Nat) : List (BitVec 8) := lmsKey (Config.lmsId pkg (tree + 1)) (Config.lmsRoot pkg (tree + 1))

/-- ATTKEY (R473): the level count 2 and the top-level public key: 60 bytes. -/
def hssPublicKey (pkg : Nat) : List (BitVec 8) := beBytes 4 2 ++ lmsKey (Config.lmsId pkg 0) (Config.lmsRoot pkg 0)

/-- The HSS signature of a message with an index (R478): one signed public key, the top-level signature of the lower tree's key, that key, and
the lower tree's signature: 5076 bytes. Each of the 1024 lower trees signs 1024 messages. -/
def hssSign (pkg index : Nat) (m : List (BitVec 8)) : List (BitVec 8) :=
  let tree := index / 1024 % 1024
  let lower := lowerKey pkg tree
  beBytes 4 1 ++ lmsBytes tree (Config.lmsOts pkg 0 tree lower) (Config.lmsPath pkg 0 tree) ++ lower
    ++ lmsBytes (index % 1024) (Config.lmsOts pkg (tree + 1) (index % 1024) m) (Config.lmsPath pkg (tree + 1) (index % 1024))

/-- ATTESTATION_DONE (R473, R478, R479): the report that is being served is signed. -/
def execAttestationDone (pkg : Nat) (s : State) : Host.Outcome State Fault Refusal :=
  .next (if (s.pkg pkg).powered && (s.pkg pkg).bridge.attState == 1 then s.modPkg pkg fun p =>
      let r := reportBytes pkg p
      { p with bridge := { p.bridge with attState := 2, attReport := r, attSig := hssSign pkg p.bridge.attIndex.toNat r } }
    else s)

/-- ISLCTL as a word (R481). -/
def islctlWord (x : Island) : Nat := b2n x.en * 2 ^ 31 + x.fstep.toNat * 2 ^ 20 + x.dth.toNat * 2 ^ 16 + x.nstr.toNat

/-- The cores of an island (R471). -/
def islandCores (pkg i : Nat) : List EP :=
  (List.range 4).map fun k => mkEp pkg (i / 128) 0 (i % 16 * 2 + k % 2) (i % 128 / 16 * 2 + k / 2)

/-- A write of ISLCTL (R481): EN = 0 is ignored and logged while a core of the island holds an allotment. -/
def islctlWrite (s : State) (pkg isl : Nat) (w : BitVec 32) : State :=
  let held := (islandCores pkg isl).any fun e => !(s.core e).groups.isEmpty
  let off := !bitAt w.toNat 31
  let s := s.modIsland pkg isl fun x => { x with
    en := if off && held then x.en else !off, fstep := BitVec.ofNat 4 (w.toNat / 2 ^ 20), dth := BitVec.ofNat 4 (w.toNat / 2 ^ 16) }
  if off && held then s.event pkg 0x0070 isl (bridgeEp pkg) 255 0 else s

/-- ISLCTL_WRITE (R481). -/
def execIslctlWrite (pkg isl : Nat) (w : BitVec 32) (s : State) : Host.Outcome State Fault Refusal :=
  .next (if (s.pkg pkg).powered && isl < 1024 then islctlWrite s pkg isl w else s)

/-- The droop threshold in mV (R481). -/
def droopAt (x : Island) : Nat := 10 + 5 * x.dth.toNat

/-- DROOP_STRETCH_START (R482): a sag above the threshold stretches the island's clock, and the stretch is counted. -/
def execDroopStretchStart (pkg isl sag : Nat) (s : State) : Host.Outcome State Fault Refusal :=
  .next (
    let x := s.island pkg isl
    if (s.pkg pkg).powered && isl < 1024 && !x.stretched && droopAt x < sag then
      s.modIsland pkg isl fun x => { x with stretched := true, nstr := BitVec.ofNat 16 (min (x.nstr.toNat + 1) 0xFFFF) }
    else s)

/-- DROOP_STRETCH_END (R482): the sag is at least 5 mV smaller than the threshold. -/
def execDroopStretchEnd (pkg isl sag : Nat) (s : State) : Host.Outcome State Fault Refusal :=
  .next (
    let x := s.island pkg isl
    if (s.pkg pkg).powered && isl < 1024 && x.stretched && sag + 5 ≤ droopAt x then
      s.modIsland pkg isl fun x => { x with stretched := false }
    else s)

/-- The clock step that an island acts with: 13 to 15 act as 12 (R481). -/
def actingStep (x : Island) : Nat := min 12 x.fstep.toNat

/-- TELEMETRY_SAMPLE (R483): an island's supply in mV and temperature in 0.1 °C, and the 1 ms package power in W. At 125 °C the package
powers down; at 105 °C the island's clock is halved until 100 °C; above PLIM the firmware lowers FSTEP of the island, which stands for
one of the busiest (log 12). -/
def execTelemetrySample (pkg isl mv temp watts : Nat) (s : State) : Host.Outcome State Fault Refusal :=
  .next (
    if !(s.pkg pkg).powered || 1024 ≤ isl then s
    else
      let s := s.modIsland pkg isl fun x => { x with
        mv := BitVec.ofNat 16 mv, temp := BitVec.ofNat 16 temp,
        halved := if 1050 ≤ temp then true else if temp ≤ 1000 then false else x.halved,
        fstep := if (s.pkg pkg).bridge.plim.toNat < watts then BitVec.ofNat 4 (actingStep x - 1) else x.fstep }
      if 1250 ≤ temp then powerDown (s.event pkg 0x0071 isl (bridgeEp pkg) 255 (word temp)) pkg else s)

end Sys2Proof.Machine
end

