-- ==== Sys2Proof/Machine/Bridge.lean ====
section
/-! DEFINITION. The management bridge (R462 to R472) and the host's accesses (R464, R466): the window's registers, the indirect registers,
the event log, data-window reads and writes, supervisor accesses to the window from inside (R470), and the firmware's step (R475). -/

namespace Sys2Proof.Machine

/-- The four words of a lapse-table entry (R204), as a number. -/
def lapseBits (pkg h : Nat) : Option Lapse → Nat
  | none => 0
  | some e =>
    let kind := match e.kind with | .request => 1 | .union => 2 | .proxy => 3
    let far := e.kind == .proxy
    e.inst.toNat + (if far then e.opkg else pkg) * 2 ^ 48 + b2n e.c * 2 ^ 60 + b2n e.l * 2 ^ 61 + kind * 2 ^ 62
      + min e.ref (2 ^ 24 - 1) * 2 ^ 64 + e.ctx.toNat * 2 ^ 88 + (if e.overflow then 15 else e.exports.length) * 2 ^ 108
      + (if far then e.ohnd.toNat else h) * 2 ^ 112 + e.tasks.toNat * 2 ^ 128 + e.msgs.toNat * 2 ^ 160 + e.stores.toNat * 2 ^ 192

/-- An EVLOG entry as a number of 32 bytes (R472). -/
def Event.bits (e : Event) : Nat :=
  e.seq.toNat + e.kind % 2 ^ 16 * 2 ^ 32 + e.aux % 2 ^ 16 * 2 ^ 48 + e.ep % 2 ^ 24 * 2 ^ 64 + e.slot % 2 ^ 8 * 2 ^ 88
    + e.now.toNat * 2 ^ 128 + e.data.toNat * 2 ^ 192

/-- What MGADDR selects (R471). -/
inductive MgSel where
  | core (e : EP) (r : Nat)
  | die (dk r : Nat)
  | island (i r : Nat)
  | nothing
  deriving DecidableEq, Repr

/-- The register that MGADDR selects; nothing where the kind of its endpoint lacks it. -/
def mgSel (s : State) (pkg : Nat) : MgSel :=
  let a := (s.pkg pkg).bridge.mgaddr.toNat
  let sel := bitsAt a 55 32
  let r := a % 256
  match a / 2 ^ 62 with
  | 0 =>
    if !isCore sel || epPkg sel != pkg then .nothing
    else if r < 8 || r == 0x10 || r == 0x11 || r == 0x20 || r == 0x21 then .core sel r
    else if epKind sel == 1 && 0x30 ≤ r && r ≤ 0x44 then .core sel r
    else .nothing
  | 1 => if sel < 8 && r ≤ 0x10 then .die (pkg * 8 + sel) r else .nothing
  | 2 => if sel < 1024 && r < 2 then .island sel r else .nothing
  | _ => .nothing

/-- A management access that selects nothing is logged with MGADDR (R471). -/
def mgNothing (s : State) (pkg : Nat) : State := mgDiscard s pkg (s.pkg pkg).bridge.mgaddr

/-- A register of a core, and the core after a read that clears it (R471). -/
def coreReg (m : CoreMgmt) (r : Nat) : Nat × CoreMgmt :=
  if r < 8 then ((m.aw.toList.getD r 0).toNat, m)
  else if 0x30 ≤ r && r ≤ 0x42 then ((m.pgcnt.getD (r - 0x30) 0).toNat, { m with pgcnt := setAt (r - 0x30) 0 m.pgcnt })
  else match r with
    | 0x10 => (m.codesrc.toNat, m)
    | 0x11 => (b2n m.codeBusy * 2 ^ 63 + b2n m.codeFail * 2 ^ 62 + m.codeSeg, m)
    | 0x20 => (m.secnt.toNat, { m with secnt := 0 })
    | 0x21 => (m.decnt.toNat, { m with decnt := 0 })
    | 0x43 => (m.lbcnt.toNat, { m with lbcnt := 0 })
    | 0x44 => (b2n m.failed, m)
    | _ => (0, m)

/-- A read of MGDATA (R471): all ones where nothing is selected. -/
def mgRead (s : State) (pkg : Nat) : Nat × State :=
  match mgSel s pkg with
  | .core e r =>
    let (v, m) := coreReg (s.mgmt e) r
    (v, s.modMgmt e fun _ => m)
  | .die dk r => (if r < 16 then ((s.die dk).arec.toList.getD r 0).toNat else (s.die dk).dieclk.toNat * 2 ^ 20, s)
  | .island i r =>
    let x := s.island pkg i
    if r == 0 then (islctlWord x, s.modIsland pkg i fun x => { x with nstr := 0 }) else (x.mv.toNat + x.temp.toNat * 2 ^ 16, s)
  | .nothing => (2 ^ 64 - 1, mgNothing s pkg)

/-- CHSTAT is written (R471): a 0 restores a repaired channel. -/
def chstatWrite (s : State) (e : EP) (w : Word) : State :=
  if bitAt w.toNat 0 then s else s.modMgmt e fun m => { m with failed := false }

/-- An admit window without its reserved bits 47:43 and 31:11, which read as 0 (R3, R113). -/
def windowWord (w : Word) : Word := w &&& 0xFFFF07FF000007FF

/-- MGADDR without its reserved bits 61:56 and 31:8, which read as 0 (R3, R471). -/
def mgaddrWord (w : Word) : Word := w &&& 0xC0FFFFFF000000FF

/-- A write of MGDATA (R471). -/
def mgWrite (s : State) (pkg : Nat) (w : Word) : State :=
  match mgSel s pkg with
  | .core e r =>
    if r < 8 then s.modMgmt e fun m => { m with aw := m.aw.setIfInBounds r (windowWord w) }
    else if r == 0x10 then s.modMgmt e fun m => { m with codesrc := word (bitsAt w.toNat 55 12 * 2 ^ 12) }
    else if r == 0x11 then codesegWrite s e w
    else if r == 0x44 then chstatWrite s e w
    else s
  | .die dk r =>
    if r < 16 then arecWrite s dk r (BitVec.ofNat 32 w.toNat)
    else s.modDie dk fun d => { d with dieclk := BitVec.ofNat 4 (w.toNat / 2 ^ 20) }
  | .island i r => if r == 0 then islctlWrite s pkg i (BitVec.ofNat 32 w.toNat) else s
  | .nothing => mgNothing s pkg

/-- A base register keeps bits 55:12 (R469). -/
def baseOf (w : Word) : Word := word (bitsAt w.toNat 55 12 * 2 ^ 12)

/-- A setting takes the nearest value of its range (R469; log 45). -/
def nearest (lo hi : Nat) (w : Word) : Nat := max lo (min hi w.toNat)

/-- COMMIT is written (R470): while BUSY, or with an index beyond its table, it is discarded and logged. -/
def commitWrite (s : State) (pkg : Nat) (w : Word) : State :=
  let i := w.toNat % 2 ^ 14
  let bound : Nat := match w.toNat / 2 ^ 62 with | 0 => 4096 | 1 => 16384 | 2 => 256 | _ => 4096
  if (s.pkg pkg).bridge.commit.isSome || bitsAt w.toNat 61 14 != 0 || decide (bound ≤ i) then mgDiscard s pkg w
  else s.modBridge pkg fun b => { b with commit := some w }

/-- LOSTCLR is written (R469, R100). -/
def lostClear (s : State) (pkg : Nat) (w : Word) : State :=
  s.modPkg pkg fun p => { p with lost := p.lost.filter (· != w.toNat % 1024) }

/-- The instant unit reads the four words of the entry that LTIDX names together (R469): when LTIDX is written, and when LTDATA0 is read. Which access
makes it read them R469 does not say (DESIGN CHOICE, log 83). -/
def latchLt (s : State) (pkg : Nat) : State :=
  let h := (s.pkg pkg).bridge.ltidx.toNat
  s.modBridge pkg fun b => { b with ltdata := BitVec.ofNat 256 (lapseBits pkg h (s.lapse? pkg h)) }

/-- A write of a bridge register (R469). -/
def bridgeWrite (s : State) (pkg off : Nat) (w : Word) : State :=
  let set := fun (f : Bridge → Bridge) => s.modBridge pkg f
  if 0x2000 ≤ off && off < 0x2020 then
    let sh := 8 * (off - 0x2000)
    set fun b => { b with attnonce :=
      (b.attnonce &&& ~~~(BitVec.ofNat 256 (ones 64 * 2 ^ sh))) ||| BitVec.ofNat 256 (w.toNat * 2 ^ sh) }
  else match off with
    | 0x0000 => if bitAt w.toNat 0 then bootGo s pkg else s
    | 0x0010 => dropTable (set fun b => { b with ctxbase := baseOf w }) pkg 0
    | 0x0018 => dropTable (set fun b => { b with grpbase := baseOf w }) pkg 3
    | 0x0020 => dropTable (set fun b => { b with qdbase := baseOf w }) pkg 1
    | 0x0028 => dropTable (set fun b => { b with commbase := baseOf w }) pkg 2
    | 0x0030 => commitWrite s pkg w
    | 0x0040 => set fun b => { b with settle := BitVec.ofNat 7 (nearest 1 64 w) }
    | 0x0048 => set fun b => { b with mirrto := BitVec.ofNat 10 (nearest 1 1000 w) }
    | 0x0050 => set fun b => { b with commto := BitVec.ofNat 14 (nearest 10 10000 w) }
    | 0x0058 => set fun b => { b with scrub := BitVec.ofNat 8 (nearest 1 168 w) }
    | 0x0060 => set fun b => { b with plim := BitVec.ofNat 13 (nearest 500 4500 w) }
    | 0x0068 => set fun b => { b with master := bitAt w.toNat 0 }
    | 0x0088 => lostClear s pkg w
    | 0x0100 => set fun b => { b with mgaddr := mgaddrWord w }
    | 0x0108 => mgWrite s pkg w
    | 0x0110 => latchLt (set fun b => { b with ltidx := BitVec.ofNat 16 w.toNat }) pkg
    | 0x0208 => set fun b => { b with evread := BitVec.ofNat 32 w.toNat }
    | 0x2020 => attRequest s pkg w
    | _ => s

/-- 8 bytes of a list, from an offset on; bytes past its end read 0. -/
def listWord (l : List (BitVec 8)) (off : Nat) : Nat := leNat ((l.drop off).take 8)

/-- A read of a bridge register (R469): its value, and the state after the read. -/
def bridgeRead (s : State) (pkg off : Nat) : Nat × State :=
  let s := if off == 0x0118 then latchLt s pkg else s
  let p := s.pkg pkg
  let b := p.bridge
  let v : Nat :=
    if 0x1000 ≤ off && off < 0x2000 then
      ((tget b.evlog ((off - 0x1000) / 32)).map fun e => e.bits / 2 ^ (8 * (off % 32)) % 2 ^ 64).getD 0
    else if 0x2000 ≤ off && off < 0x2020 then b.attnonce.toNat / 2 ^ (8 * (off - 0x2000)) % 2 ^ 64
    else if 0x2100 ≤ off && off < 0x215C then listWord b.attReport (off - 0x2100)
    else if 0x2200 ≤ off && off < 0x35D4 then listWord b.attSig (off - 0x2200)
    else if 0x3800 ≤ off && off < 0x383C then listWord (hssPublicKey pkg) (off - 0x3800)
    else if 0x0118 ≤ off && off ≤ 0x0130 then b.ltdata.toNat / 2 ^ (8 * (off - 0x0118)) % 2 ^ 64
    else match off with
      | 0x0008 => b.bootState.toNat + b.bootFail.toNat * 2 ^ 8
      | 0x0010 => b.ctxbase.toNat
      | 0x0018 => b.grpbase.toNat
      | 0x0020 => b.qdbase.toNat
      | 0x0028 => b.commbase.toNat
      | 0x0038 => b2n b.commit.isSome
      | 0x0040 => b.settle.toNat
      | 0x0048 => b.mirrto.toNat
      | 0x0050 => b.commto.toNat
      | 0x0058 => b.scrub.toNat
      | 0x0060 => b.plim.toNat
      | 0x0068 => b2n b.master + 2 * b2n b.unsync
      | 0x0070 => b.ptasks.toNat
      | 0x0078 => b.pmsgs.toNat
      | 0x0080 => b.pstores.toNat
      | 0x0100 => b.mgaddr.toNat
      | 0x0110 => b.ltidx.toNat
      | 0x0200 => b.evnext.toNat
      | 0x0208 => b.evread.toNat
      | 0x2028 => b.attState.toNat + (if b.attState == 2 then b.attIndex.toNat * 2 ^ 32 else 0)
      | _ => 0
  if off == 0x0108 then mgRead s pkg else (v, s)

/-- MANAGEMENT_REGISTER_WRITE (R469, R463): the host writes 8 bytes to the bridge window; where they are not aligned the write is discarded and logged. -/
def execManagementRegisterWrite (pkg off : Nat) (w : BitVec 64) (s : State) : Host.Outcome State Fault Refusal :=
  .next (
    if !hostReaches s pkg || 0x10000 ≤ off then s
    else if off % 8 == 0 then bridgeWrite (kblGood s pkg) pkg off w
    else mgDiscard (kblGood s pkg) pkg (word off))

/-- COMMIT_WRITE (R470, R463): the host writes COMMIT. -/
def execCommitWrite (pkg : Nat) (w : BitVec 64) (s : State) : Host.Outcome State Fault Refusal :=
  .next (if hostReaches s pkg then commitWrite (kblGood s pkg) pkg w else s)

/-- COMMIT_COMPLETE (R470, R263): every unit has dropped its copy of the entry and reread it; while it cannot be read BUSY stays. A queue's entries
count from 0 again. -/
def execCommitComplete (pkg : Nat) (s : State) : Host.Outcome State Fault Refusal :=
  .next (match (s.pkg pkg).bridge.commit with
    | none => s
    | some w =>
      let kind := w.toNat / 2 ^ 62
      let i := w.toNat % 2 ^ 14
      let fresh := dropCopies s pkg (· == entryKey kind i)
      if entryWaits fresh pkg kind i then s
      else
      let s := noteEntry (fresh.modBridge pkg fun b => { b with commit := none }) pkg kind i
      if w.toNat / 2 ^ 62 == 1 then
        s.modQueue pkg (w.toNat % 2 ^ 14) fun x => { x with next := 0, waiting := [], cancels := [], header := none }
      else s)

/-- LOSTCLR_WRITE (R469, R100, R463): the host writes LOSTCLR. -/
def execLostclrWrite (pkg : Nat) (w : BitVec 64) (s : State) : Host.Outcome State Fault Refusal :=
  .next (if hostReaches s pkg then lostClear (kblGood s pkg) pkg w else s)

/-- CHSTAT_WRITE (R471, R97). -/
def execChstatWrite (ep : Nat) (w : BitVec 64) (s : State) : Host.Outcome State Fault Refusal :=
  .next (if isCore ep && epKind ep == 1 then chstatWrite s ep w else s)

/-- COUNTER_READ_CLEAR (R471): the host reads MGDATA. -/
def execCounterReadClear (pkg : Nat) (s : State) : Host.Outcome State Fault Refusal :=
  .next (if hostReaches s pkg then let (v, s) := mgRead (kblGood s pkg) pkg; s.modPkg pkg fun p => { p with hostValue := v } else s)

/-- EVREAD_WRITE (R472, R463): the host writes EVREAD. -/
def execEvreadWrite (pkg : Nat) (w : BitVec 64) (s : State) : Host.Outcome State Fault Refusal :=
  .next (if hostReaches s pkg then (kblGood s pkg).modBridge pkg fun b => { b with evread := BitVec.ofNat 32 w.toNat } else s)

/-- The log has room for the next entry (R472). -/
def logRoom (b : Bridge) : Bool := (b.evnext - b.evread).toNat < 128

/-- An entry takes its place in the log (R472). -/
def placeEvent (b : Bridge) (e : Event) : Bridge :=
  { b with evlog := tput (e.seq.toNat % 128) e b.evlog, evnext := b.evnext + 1, gap := none }

/-- EVENT_LOG_PLACE (R462, R472): the k-th event of the store is placed where it is the next in sequence and there is room. -/
def execEventLogPlace (pkg k : Nat) (s : State) : Host.Outcome State Fault Refusal :=
  .next (
    let b := (s.pkg pkg).bridge
    match b.events[k]? with
    | some e =>
      if e.seq == b.evnext && logRoom b then
        noteDropped (s.modBridge pkg fun b => placeEvent { b with events := dropAt k b.events } e) pkg
      else s
    | none => s)

/-- EVENT_GAP_TIMEOUT (R462): the number that the log awaits is missing; after 1 ms a LOST entry with count 0 fills the gap. -/
def execEventGapTimeout (pkg : Nat) (s : State) : Host.Outcome State Fault Refusal :=
  .next (
    let b := (s.pkg pkg).bridge
    let now := (s.pkgNow pkg).toNat
    if b.events.isEmpty || b.events.any (fun e => e.seq == b.evnext) then s
    else match b.gap with
      | none => s.modBridge pkg fun b => { b with gap := some now }
      | some t =>
        if t + 1000000 ≤ now && logRoom b then
          s.modBridge pkg fun b => placeEvent b ⟨1, 0, bridgeEp pkg, 255, s.pkgNow pkg, 0, b.evnext⟩
        else s)

/-- The aperture regions of R464, and what an offset in them names. -/
inductive Aperture where
  | bridge (off : Nat)
  | staging (off : Nat)
  | entries (off : Nat)
  | cancels (off : Nat)
  | spad (e : EP) (off : Nat)
  | dram (pa : Nat)
  | none
  deriving DecidableEq, Repr

/-- The region of a host access of n bytes (R464): none where it is unmapped. -/
def apertureOf (s : State) (pkg off n : Nat) : Aperture :=
  if off + n ≤ 0x10000 then .bridge off
  else if 0x400000 ≤ off && off + n ≤ 0x800000 then .staging (off - 0x400000)
  else if 0x100000000 ≤ off && off + n ≤ 0x100100000 then .entries (off - 0x100000000)
  else if 0x100100000 ≤ off && off + n ≤ 0x100120000 then .cancels (off - 0x100100000)
  else if 0x400000000000 ≤ off && off + n ≤ 0x400800000000 then
    let x := off - 0x400000000000
    let e := pkg * 2 ^ 14 + x / 2 ^ 21
    let o := x % 2 ^ 21
    if isCore e && (s.core? e).isSome && o + n ≤ spadSize e && xbBytes (s.core e) ≤ o then .spad e o else .none
  else if 0x800000000000 ≤ off && off + n ≤ 0xC00000000000 then
    let pa := pkg * 2 ^ 46 + (off - 0x800000000000)
    if populated pa n && (s.pkg pkg).bridge.bootState == 5 then .dram pa else .none
  else .none

/-- A data-window write leaves as pieces (R136, R466): VC1, without a context, in the order of arrival. -/
def hostPieces (s : State) (pkg : Nat) (e : EP) (a : Nat) (dram : Bool) (bs : List (BitVec 8)) : State :=
  let gw := hostGwEp pkg
  let n := (s.pkg pkg).hostWrites
  let s := (collPieces a bs.length).foldl (fun s (o, m) =>
    s.send gw (if dram then homeOf (a + o) else e) 1 ⟨gw, 0, 0, 0, 0, 0, n, 0⟩ ⟨never, 0, pkg⟩
      (.pieceWrite 0 ⟨if dram then homeOf (a + o) else e, a + o, none, dram, true, 0, none, false⟩ (some ((bs.drop o).take m)) m [] gw)) s
  s.modPkg pkg fun p => { p with hostWrites := p.hostWrites + 1 }

/-- HOST_DATA_WRITE (R464, R466, R469, R474): the host writes n bytes at an aperture offset. -/
def execHostDataWrite (pkg off n data : Nat) (s : State) : Host.Outcome State Fault Refusal :=
  if !hostReaches s pkg then .next s
  else
    let s := kblGood s pkg
    let bs := leBytes n data
    match apertureOf s pkg off n with
    | .bridge o => .next (if n == 8 && o % 8 == 0 then bridgeWrite s pkg o (word data) else mgDiscard s pkg (word o))
    | .staging o => .next (
        let st := (s.pkg pkg).bridge.bootState
        if st == 1 || st == 4 then s.modPkg pkg fun p => { p with staging := mputs o bs p.staging } else s)
    | .entries o => execHostQueueEntryWrite pkg o n (BitVec.ofNat 512 data) s
    | .cancels o => execHostCancelWrite pkg o n (word data) s
    | .spad e o => .next (hostPieces s pkg e o false bs)
    | .dram pa => .next (hostPieces s pkg 0 pa true bs)
    | .none => .next (hostDiscard s pkg off)

/-- n bytes that the spec leaves open (log 46). -/
def freeBytes (s : State) (n : Nat) : Nat × State :=
  let (f, s) := s.draw (n / 8 + 1)
  (((List.range (n / 8 + 1)).map fun i => (Config.freeWord (f + i)).toNat * 2 ^ (64 * i)).sum % 2 ^ (8 * n), s)

/-- A host read of a home is answered after every earlier write to it (R466). -/
def hostWriteTo (s : State) (pkg : Nat) (e : EP) : Bool := s.net.any fun p => p.src == hostGwEp pkg && p.dst == e && match p.body with
  | .pieceWrite .. => true
  | _ => false

/-- HOST_DATA_READ (R464, R466, R189): the host reads n bytes at an aperture offset; an unmapped read gives all ones. A read that a write,
a sealed entry or accesses to its line hold back waits. Data that cannot be read are open (log 46). -/
def execHostDataRead (pkg off n : Nat) (s : State) : Host.Outcome State Fault Refusal :=
  .next (
    let give := fun (s : State) (v : Nat) => (kblGood s pkg).modPkg pkg fun p => { p with hostValue := v }
    let open_ := fun (s : State) => let (v, s) := freeBytes s n; give s v
    if !hostReaches s pkg then s
    else match apertureOf s pkg off n with
    | .bridge o => if n == 8 && o % 8 == 0 then let (v, s) := bridgeRead s pkg o; give s v else give (mgDiscard s pkg (word o)) (ones (8 * n))
    | .staging _ => if (s.pkg pkg).bridge.bootState == 5 then give s 0 else give (hostDiscard s pkg off) (ones (8 * n))
    | .spad e o =>
      if hostWriteTo s pkg e || anySealed s e o n || queued s e o n then s
      else if closedAt s e then give (hostDiscard s pkg off) (ones (8 * n))
      else
        let s := meetErrors s e o n
        if anyOchre s e o n then open_ s else give s (spadRead s e o n)
    | .dram pa =>
      let ls := linesOf pa n
      if (ls.any fun l => hostWriteTo s pkg (homeOf l)) || unitBusy s pa n then s
      else
        let s := unitRead s pa n
        if ls.any fun l => (lineValue s l).isNone then open_ s else give s (physRead s pa n)
    | _ => give (hostDiscard s pkg off) (ones (8 * n)))

/-- FIRMWARE_INIT_COMPLETE (R474 steps 7 and 8, R475, R108): the firmware sets the time base, at least 2^32 and on a package that follows
a master within the bound of R199, writes the link tables and the tables of the bridge, and the cores are released. -/
def execFirmwareInitComplete (pkg : Nat) (now : BitVec 64) (links : List (Nat × Nat × Nat)) (regs : List (Nat × Nat))
    (tables : List (Nat × Nat × Nat)) (s : State) : Host.Outcome State Fault Refusal :=
  .next (
    let b := (s.pkg pkg).bridge
    let near := s.pkgs.all fun (k, p) => k == pkg || !p.powered || !p.bridge.master
      || max (s.pkgNow k).toNat now.toNat - min (s.pkgNow k).toNat now.toNat ≤ 250
    if !(s.pkg pkg).powered || b.bootState != 3 || now.toNat < 2 ^ 32 || !(b.master || near) then s
    else
      let s := (List.range 8).foldl (fun s d => s.modDie (pkg * 8 + d) fun x => { x with now := now }) s
      let s := s.modPkg pkg fun p => { p with links := links.foldl (fun l (k, d, port) => tput k (d % 8, port % 4) l) p.links }
      let s := regs.foldl (fun s (o, v) => bridgeWrite s pkg o (word v)) s
      let s := tables.foldl (fun s (pa, n, v) => if paPkg pa == pkg && populated pa n then physWrite s pa (leBytes n v) else s) s
      (releaseCores s pkg).modBridge pkg fun b => { b with bootState := 5 })

/-- An access to the bridge window from inside (R470): refused to a context with PRIV = 0, and in another form than 8 bytes. -/
def windowAccess (s : State) (k : Nat) (p : Pkt) (off : Nat) (acc : Access) (priv : Bool) : State :=
  let pkg := epPkg p.dst
  if !priv || acc.size != 8 || 0x10000 ≤ off then refusePkt s k p.dst p
  else
    let s := takePkt s k p.dst p
    match acc with
    | .store _ v => (bridgeWrite s pkg off (word v)).answer p.dst p.req p.carry (.ack 0)
    | _ => let (v, s) := bridgeRead s pkg off; s.answer p.dst p.req p.carry (.value v 0)

/-- FABRIC_INGRESS (R14 step 4, R15, R51, R53, R105, R113, R137, R172, R189, R216, R470): the k-th packet, an access to a scratchpad or to
the bridge window, at its endpoint. An update or notice that never left its core passes no check (R125). -/
def execFabricIngress (k : Nat) (s : State) : Host.Outcome State Fault Refusal :=
  .next (onPacket s k fun p => match p.body with
    | .access none _ phys acc _ _ here =>
      let e := p.dst
      if !(here && p.src == e) && expired s e p.carry then dropLapsed s k e p p.carry
      else if !here && (closedAt s e || wrongChannel s e p) then refusePkt s k e p
      else match phys with
        | none => refusePkt s k e p
        | some a =>
          if !here && !admits s e p.req.ctx a acc.size acc.needs then refusePkt s k e p
          else if anySealed s e a acc.size || queued s e a acc.size then s
          else ownerAccess (takePkt s k e p) e a acc p.req p.carry here
    | .window off acc priv =>
      if expired s p.dst p.carry then dropLapsed s k p.dst p p.carry
      else if wrongChannel s p.dst p then refusePkt s k p.dst p
      else windowAccess s k p off acc priv
    | _ => s)

end Sys2Proof.Machine
end

