-- ==== Sys2Proof/Machine/Turns.lean ====
section
/-! DEFINITION. Turns and the ends of waits (R256 to R260, R217, R145, R347): which slot issues, ISSUE_TURN, WAIT_TIMEOUT,
XFENCE_COMPLETE, JOIN_BUSY_RETRY. -/

namespace Sys2Proof.Machine

/-- Why a thread is parked; none where it is not. -/
def Thread.why (t : Thread) : Option Wait := t.park.map fun p => p.why

/-- Scoreboard entry 16 once a pending XFENCE has ended (R286): that of the instruction the thread is parked on, if any. -/
def afterXfence (t : Thread) : SbEntry := if t.park.isSome then ⟨.reissue, 7, 0, 0, t.pc, false⟩ else SbEntry.none

/-- The condition of a pair's wait (R294): the trailer's result is there, or both have presented what they compare. -/
def partnerReady (s : State) (e : EP) (t : Thread) : Bool := match t.pair with
  | none => true
  | some q => match s.thr? e q.other with
    | none => true
    | some o => match o.pair with
      | none => true
      | some oq =>
        if q.lead then (if q.offered.isSome then oq.offered.isSome else decide (q.lvq.length < 32 && q.cmp.length < 16))
        else !oq.lvq.isEmpty || !oq.cmp.isEmpty
          || (o.pc == t.pc && match o.why with
              | some (.trap ..) => true
              | _ => false)
          || (match oq.offered with
              | some w => w.trap.isSome || (q.offered.isSome && q.offered != some w)
              | none => false)

/-- The leader of a pair has completed an instruction that its queue does not hold yet. -/
def unflushed (s : State) (e : EP) (slot : Nat) : Bool := match s.thr? e slot with
  | some t => (match t.pair with
    | some q => (match s.thr? e (if q.lead then slot else q.other) with
      | some l => (match l.pair.bind (·.before) with
        | some (pc, _, _) => pc != l.pc
        | none => false)
      | none => false)
    | none => false)
  | none => false

/-- A condition that a parked instruction waits for holds now (R259, R260). -/
def holds (s : State) (e : EP) (t : Thread) : Until → Bool
  | .drained mask host => drainedMask s e t mask host
  | .commit => drainedMask s e t 0x09 0
  | .counters a b c d => countersOk t a b c d
  | .ldcRoom => t.cnt.ldc < 8
  | .stcRoom => t.cnt.stc < 8
  | .tlcRoom => t.cnt.tlc < 15
  | .inbox => !t.inbox.isEmpty
  | .queueItem q ticket =>
    let l := takersOf s (epPkg e) q
    decide ((findPos (· == ticket) l).getD l.length < (s.queue (epPkg e) q).items)
  | .queueRoom q => !ringFull s (epPkg e) q
  | .xfence => t.xf.isNone
  | .engine k => engineTakes s e t k
  | .places => t.cnt.places < 16
  | .record => !t.recs.isEmpty
  | .dtl => true
  | .tlb va =>
    walkFailed t || (walkGave t va).isSome || ((s.core e).tlb.any (·.hits t.ctx va)) || (epKind e == 0 && (s.cluster (clusterKey e)).tlb.any (·.hits t.ctx va))
      || !t.awaitsWalk (s.die (dieKey e))
  | .unsealed a n => !anySealed s e a n
  | .slotFree n => !slotReading s e n
  | .bankFree => !bankHeld s e (1 - (s.core e).lg6.active)
  | .probeFree dom => !probing s dom
  | .swappable k => swappable s e k || unflushed s e k
  | .imageSettled uid => imageSettled s (epPkg e) uid
  | .partner => partnerReady s e t
  | .released => (t.pair.map (·.cmp.isEmpty)).getD true

/-- A swap of the slot has begun (R287 step 1), or one waits for its trailer to come up (R294), so that the leader does not go on. -/
def heldForSwap (s : State) (e : EP) (slot : Nat) (t : Thread) : Bool :=
  let mine := pairSlots t slot
  ((s.core e).swaps.any fun x => mine.contains x.1)
  || (t.pair.isSome && !t.trails && (s.core e).slots.any fun (_, x) => match x.why with
      | some (.again (.swappable k)) => mine.contains k
      | _ => false)

/-- A slot is runnable (R256, R259). What parks while an XFENCE is pending issues again only once that has set p7 (R485). -/
def runnable (s : State) (e : EP) (slot : Nat) : Bool := match s.thr? e slot with
  | none => false
  | some t =>
    !t.stopped && !heldForSwap s e slot t && match t.park with
      | none => true
      | some p => (match p.why with
        | .again c => (t.xf.isNone || c == .xfence || c == .partner || c == .released) && holds s e t c
        | _ => false)

/-- The slot's comparator finds its instant or handle lapsed (R217); a pair has those of its leading thread. -/
def slotLapsed (s : State) (e : EP) (slot : Nat) : Bool := match s.thr? e slot with
  | some t => expired s e (carryOf e (if t.trails then ((t.pair.bind fun q => s.thr? e q.other).getD t) else t))
  | none => false

/-- A slot's comparator tests it (R217): a handler under way keeps the failed test, every other thread is freed, a pair by its leader. A
slot whose swap has begun is swapped out whole, and its image is then tested (R445). -/
def compareSlot (s : State) (e : EP) (slot : Nat) : State :=
  if !slotLapsed s e slot then s
  else match s.thr? e slot with
    | some t =>
      if (s.core e).swaps.any fun x => (pairSlots t slot).contains x.1 then s
      else if t.handler && t.sup && !t.stopped then s.modThr e slot fun t => { t with lapsed := true }
      else freeLapsed s e (match t.pair with
        | some q => if q.lead then slot else q.other
        | none => slot)
    | none => s

/-- The number of the cycle after a slot's last turn; 0 where it had none. -/
def lastTurn (s : State) (e : EP) (slot : Nat) : Nat := (tget (s.core e).turns slot).getD 0

/-- A slot may receive the spare turn of cycle c (R257, R258): it is runnable, it received no turn in the seven cycles before, and its
positions lie 8 or more cycles before c and 8 or more after it: on a compute core slot p XOR 8 alone, on a memory core those 8 to 24 before. -/
def spareFor (s : State) (e : EP) (c slot : Nat) : Bool :=
  let n := slotCount e
  let l := lastTurn s e slot
  let behind := (c % n + n - slot) % n
  runnable s e slot && (l == 0 || l + 7 ≤ c) && 8 ≤ behind && behind + 8 ≤ n

/-- Who receives the turn of cycle c (R256 to R258): its owner, else of the candidates the one whose last turn is oldest. -/
def turnOf (s : State) (e : EP) (c : Nat) : Option Nat :=
  let own := c % slotCount e
  if runnable s e own then some own
  else ((List.range (slotCount e)).filter (spareFor s e c)).foldl (fun best k => match best with
    | none => some k
    | some b => if lastTurn s e k < lastTurn s e b then some k else some b) none

/-- The core issues: it is released, not contained, and its island runs (R104, R481). -/
def coreIssues (s : State) (e : EP) : Bool := coreOpen s e

/-- ISSUE_TURN (R256, R257, R217): a cycle of a core begins; the owner of its position is tested, and the slot that receives the turn is
to issue, or an abort that has reached it is delivered instead (R192), or an error of its registers consumed (R104). -/
def execIssueTurn (e : Nat) (lost : Bool) (s : State) : Host.Outcome State Fault Refusal :=
  .next (
    if s.turn.isSome || !coreIssues s e then s
    else
      let c := (s.core e).cycle
      let s := s.modCore e fun k => { k with cycle := c + 1 }
      let s := compareSlot s e (c % slotCount e)
      match turnOf s e c with
      | none => s
      | some k =>
        let s := if k == c % slotCount e then s else compareSlot s e k
        match s.thr? e k with
        | none => s
        | some t =>
          let s := s.modCore e fun x => { x with turns := tput k (c + 1) x.turns }
          match (if t.handler then none else deliverHeld s e k t) with
          | some s => s
          | none =>
            let u : Turn := ⟨e, k, t.pc, 0, lost⟩
            let s := { s with turn := some u }
            if (s.core e).broken.contains (.regs k) then s.reportRegs u else s)

/-- The instruction on which a thread is parked raises a trap without a turn: in a redundant pair once the trailer has come to it (R294). -/
def trapParked (s : State) (e : EP) (slot : Nat) (p : Park) (cause : Nat) (addr : Word) (info : Nat) : State :=
  match s.thr? e slot with
  | none => s
  | some t =>
    if t.pair.isSome then s.modThr e slot fun t => { t with park := some { p with why := .trap cause addr info } }
    else { s.trapNow e slot cause addr info t.pc with turn := s.turn }

/-- A wait ends by its timeout (R260): without effect, p7 ← 0, but for a bounded ENQ, which traps (R277), and a QPROBE, whose sum none can
equal (R358). -/
def expire (s : State) (e : EP) (slot : Nat) (p : Park) : State :=
  let no := fun (s : State) => s.modThr e slot fun t => (t.p7 false).goTo p.next
  match p.why with
  | .again (.queueRoom q) =>
    let x := s.queue (epPkg e) q
    let n := qEntries (qDesc s (epPkg e) q)
    trapParked s e slot p 0x18 (word q) (x.head % n + x.tail % n * 2 ^ 16)
  | .again (.probeFree _) => s.modThr e slot fun t => ((t.putG p.dst (word (2 ^ 63))).p7 false).goTo p.next
  | .probe =>
    let gone := fun (x : Probe) => if (x.req.map (·.entry)) == some (16 + 32 * p.ser) then { x with req := none } else x
    (s.modPkg (epPkg e) fun k => { k with probes := k.probes.map gone }).modThr e slot
      fun t => ((t.putG p.dst (word (2 ^ 63))).p7 false).goTo p.next
  | _ => leaveResume (no s) e p

/-- A trap that has waited for an XFENCE is taken (R485). -/
def releaseTrap (s : State) (e : EP) (slot : Nat) : State := match s.thr? e slot with
  | some t => (match t.park with
    | some ⟨.trap c a i, _, _, next, _, _, _⟩ =>
      if t.xf.isSome || t.pair.isSome then s
      else { s.trapNow e slot c a i (if c == 0x21 then next else t.pc) with turn := s.turn }
    | _ => s)
  | none => s

/-- The trailing thread of a pair learns what its leader's XFENCE has set (R294), where it has come past it; a trap that has waited it raises anew. -/
def Thread.trailFence (t : Thread) (ok : Bool) : Thread :=
  if t.xf.isNone then t
  else { t.p7 ok with xf := none, park := t.park.filter fun p => match p.why with
    | .trap .. => false
    | _ => true }

/-- A pending XFENCE ends and sets p7 (R145), in a redundant pair for both threads (R294); a trap that has waited for that is taken (R485). -/
def endXfence (s : State) (e : EP) (slot : Nat) (ok : Bool) : State :=
  let s := s.modThr e slot fun t =>
    { (t.p7 ok).setSb 16 (afterXfence t) with xf := none, pair := t.pair.map fun q => { q with lvq := q.lvq.map (·.fenced ok) } }
  releaseTrap (match (s.thr? e slot).bind (·.pair) with
    | some q => s.modThr e q.other (·.trailFence ok)
    | none => s) e slot

/-- WAIT_TIMEOUT (R260, R145): the timeout of a slot's pending XFENCE or of its wait has passed, and what it waits for does not hold. -/
def execWaitTimeout (e slot : Nat) (s : State) : Host.Outcome State Fault Refusal :=
  .next (match s.thr? e slot with
    | none => s
    | some t =>
      match t.xf.filter fun _ => !t.trails with
      | some x => if limitOver s e x.limit then endXfence s e slot false else s
      | none => match t.park with
        | none => s
        | some p =>
          if !limitOver s e p.limit then s
          else match p.why with
            | .again c => if holds s e t c then s else expire s e slot p
            | _ => expire s e slot p)

/-- XFENCE_COMPLETE (R145, R485): a pending XFENCE whose paths are drained and whose queue entries are written sets p7 = 1; past its
timeout it ends with p7 = 0. -/
def execXfenceComplete (e slot : Nat) (s : State) : Host.Outcome State Fault Refusal :=
  .next (match s.thr? e slot with
    | none => s
    | some t => match t.xf with
      | none => releaseTrap s e slot
      | some x =>
        if t.trails then s else
        if limitOver s e x.limit then endXfence s e slot false
        else
          let x := xfAdvance s e t x
          if x.step2 && xfWritten s e x then endXfence s e slot true
          else s.modThr e slot fun t => { t with xf := some x })

/-- JOIN_BUSY_RETRY (R347): 256 cycles after a busy answer a fresh read leaves for the home. -/
def execJoinBusyRetry (e slot : Nat) (s : State) : Host.Outcome State Fault Refusal :=
  .next (match s.thr? e slot with
    | none => s
    | some t => match t.park with
      | some p => (match p.why with
        | .joinBusy at_ =>
          if (s.core e).cycle < at_ then s
          else match joinRoute s e t p.operand true with
            | .error tr => trapParked s e slot p tr.cause tr.addr tr.info
            | .ok (_, r) =>
              let ser := s.nextUid
              let s := { s with nextUid := ser + 1 }.send e r.dst (vcOfThread s e t) (reqOf e slot t (16 + 32 * ser) r.ebit) (carryOf e t)
                (.access r.vcore r.off r.phys .joinRead none false false)
              s.modThr e slot fun t => { t with park := some { p with why := .joinWatch, ser := ser } }
        | _ => s)
      | none => s)

end Sys2Proof.Machine
end

