-- ==== Sys2Proof/Machine/Fetch.lean ====
section
/-! DEFINITION. Fetching and decoding the instruction of a turn (R72, R73, R312 to R319, R322, R324). -/

namespace Sys2Proof.Machine

/-- The line of a thread's PC (R72): the one already fetched, else it is fetched with the checks of R73, R72, R51, R316 and R314. -/
def fetchLine (s : State) (e : EP) (t : Thread) : Checked Line × State :=
  let pc := t.pc.toNat
  let base := pc / 64 * 64
  let a : Word := t.pc.setWidth 64
  match (if t.fresh then none else t.line.filter (·.1 == base)) with
  | some (_, l) => (.ok l, s)
  | none =>
    if xbBytes (s.core e) ≤ pc then (.error ⟨0x05, a, 0⟩, s)
    else if !landed s e pc then (.error ⟨0x06, a, pc / 4096⟩, s)
    else
      let s := meetErrors s e base 64
      if anyOchre s e base 64 then (.error ⟨0x14, a, 0⟩, s)
      else
        let l := lineAt s e pc
        if t.fresh && !isHead l pc then (.error ⟨0x03, a, 0⟩, s)
        else if !lineOk l then (.error ⟨0x02, 0, hw l 0⟩, s)
        else (.ok l, s)

/-- What a turn comes to before its instruction executes. -/
inductive Fetched where
  | trapped (s : State)
  | run (i : Instr) (s : State)
  deriving DecidableEq, Repr

/-- PUSH of engine 0 with a command of KIND 4 is the FILL (R419, R424). -/
def refine (t : Thread) : Instr → Instr
  | .pushCopy gd a false => if cKind (cmdWords t a) == 4 then .pushFill gd a else .pushCopy gd a false
  | i => i

/-- The instruction at a head of a fetched line (R281 checks 1 and 2): what the slot lacks, an unknown opcode, a wrong encoding. -/
def decodeTurn (e : EP) (slot : Nat) (t : Thread) (l : Line) : Checked Instr :=
  let h := t.pc.toNat / 2 % 32
  let op := fld (hw l h) 0 9
  if lacks (kindOf e) (isVisitor e slot) t.pair.isSome op (tailOf l h) then .error ⟨0x01, 0, op⟩
  else match decodeAt l h with
    | .ok i => .ok (refine t i)
    | .error (.opcode op) => .error ⟨0x01, 0, op⟩
    | .error (.encoding w) => .error ⟨0x02, 0, w⟩
    | .error (.line w) => .error ⟨0x02, 0, w⟩

/-- The turn of a slot: its instruction, with the next head and the head halfword noted, or the trap that a failed check raises. -/
def fetchTurn (s : State) (u : Turn) : Fetched :=
  match s.thr? u.ep u.slot with
  | none => .trapped s.noTurn
  | some t =>
    match fetchLine s u.ep t with
    | (.error tr, s) => .trapped (s.raise u tr.cause tr.addr tr.info)
    | (.ok l, s) =>
      let s := s.modThr u.ep u.slot fun t => { t with fresh := false, line := some (t.pc.toNat / 64 * 64, l) }
      let h := t.pc.toNat / 2 % 32
      let u := { u with next := nextHead l t.pc, head := BitVec.ofNat 16 (hw l h) }
      match decodeTurn u.ep u.slot t l with
      | .error tr => .trapped (s.raise u tr.cause tr.addr tr.info)
      | .ok i => .run i { s with turn := some u }

end Sys2Proof.Machine
end

