-- ==== Sys2Proof/Machine/FloatOps.lean ====
section
/-! DEFINITION. The scalar floating-point instructions (15: R389 to R392). -/

namespace Sys2Proof.Machine

/-- A value of a type as a g register receives it (R228). -/
def extTy (ty : Ty) (x : Nat) : Word := if ty.isSigned then sextTo ty.width x else word (x % 2 ^ ty.width)

/-- The low bits of a g register that an operand of a type reads (R228). -/
def lowTy (t : Thread) (r : Reg) (ty : Ty) : Nat := (gr t r).toNat % 2 ^ ty.width

/-- The issue of a scalar floating-point instruction: a result and its flags (R387, R389). -/
def scalarF (op : Nat) (gd : Guard) (d : Reg) (ty : Ty) (s : State) (f : Thread → Nat × Nat) : Host.Outcome State Fault Refusal :=
  issue { op := op } gd s fun u t s =>
    let r := f t
    s.retire u fun t => (t.putG d (extTy ty r.1)).orFlags r.2

/-- FADD (R389). -/
def execFadd (gd : Guard) (d a b : Reg) (ty : Ty) (rm : Rnd) (s : State) :=
  scalarF 0x100 gd d ty s fun t => fAdd (fmtOf ty) rm (lowTy t a ty) (lowTy t b ty)
/-- FSUB (R389). -/
def execFsub (gd : Guard) (d a b : Reg) (ty : Ty) (rm : Rnd) (s : State) :=
  scalarF 0x101 gd d ty s fun t => fSub (fmtOf ty) rm (lowTy t a ty) (lowTy t b ty)
/-- FMUL (R389). -/
def execFmul (gd : Guard) (d a b : Reg) (ty : Ty) (rm : Rnd) (s : State) :=
  scalarF 0x102 gd d ty s fun t => fMul (fmtOf ty) rm (lowTy t a ty) (lowTy t b ty)
/-- FMA (R389): one rounding. -/
def execFma (gd : Guard) (d a b c : Reg) (ty : Ty) (rm : Rnd) (s : State) :=
  scalarF 0x103 gd d ty s fun t => fFma (fmtOf ty) rm (lowTy t a ty) (lowTy t b ty) (lowTy t c ty)
/-- FDIV (R389). -/
def execFdiv (gd : Guard) (d a b : Reg) (ty : Ty) (rm : Rnd) (s : State) :=
  scalarF 0x104 gd d ty s fun t => fDiv (fmtOf ty) rm (lowTy t a ty) (lowTy t b ty)
/-- FSQRT (R389). -/
def execFsqrt (gd : Guard) (d a : Reg) (ty : Ty) (rm : Rnd) (s : State) :=
  scalarF 0x105 gd d ty s fun t => fSqrt (fmtOf ty) rm (lowTy t a ty)
/-- FRSQ (R389, R243). -/
def execFrsq (gd : Guard) (d a : Reg) (ty : Ty) (rm : Rnd) (s : State) :=
  scalarF 0x106 gd d ty s fun t => fRsq (fmtOf ty) rm (lowTy t a ty)
/-- FMIN (R389, R244). -/
def execFmin (gd : Guard) (d a b : Reg) (ty : Ty) (s : State) :=
  scalarF 0x107 gd d ty s fun t => fMinMax (fmtOf ty) false (lowTy t a ty) (lowTy t b ty)
/-- FMAX (R389, R244). -/
def execFmax (gd : Guard) (d a b : Reg) (ty : Ty) (s : State) :=
  scalarF 0x108 gd d ty s fun t => fMinMax (fmtOf ty) true (lowTy t a ty) (lowTy t b ty)
/-- FEXP2 (R389, R243). -/
def execFexp2 (gd : Guard) (d a : Reg) (ty : Ty) (rm : Rnd) (s : State) :=
  scalarF 0x10C gd d ty s fun t => fExp2 (fmtOf ty) rm (lowTy t a ty)
/-- FLOG2 (R389, R243). -/
def execFlog2 (gd : Guard) (d a : Reg) (ty : Ty) (rm : Rnd) (s : State) :=
  scalarF 0x10D gd d ty s fun t => fLog2 (fmtOf ty) rm (lowTy t a ty)

/-- A floating compare (R390): whether the condition holds, and the flag NV. -/
def fCompare (fc : FCond) (f : Fmt) (a b : Nat) : Bool × Nat :=
  let va := unpack f a
  let vb := unpack f b
  let un := va.isNan || vb.isNan
  let lt := ltVal false va vb
  let gt := ltVal false vb va
  let quiet := nvOf va ||| nvOf vb
  let loud := if un then fNV else 0
  match fc with
  | .eq => (!un && !lt && !gt, quiet)
  | .ne => (un || lt || gt, quiet)
  | .lt => (!un && lt, loud)
  | .le => (!un && !gt, loud)
  | .gt => (!un && gt, loud)
  | .ge => (!un && !lt, loud)
  | .un => (un, quiet)
  | .ord => (!un, quiet)

/-- FCMP (R390). -/
def execFcmp (gd : Guard) (d : Pred) (a b : Reg) (ty : Ty) (fc : FCond) (s : State) :=
  issue { op := 0x109, holds := d == 7 } gd s fun u t s =>
    let r := fCompare fc (fmtOf ty) (lowTy t a ty) (lowTy t b ty)
    s.retire u fun t => (t.putP d r.1).orFlags r.2

/-- The active bank of the core's LG6 table (R69, R70). -/
def lgTable (s : State) (e : EP) : List Nat := (s.core e).lg6.banks.getD (s.core e).lg6.active []

/-- FCVT (R391). -/
def execFcvt (gd : Guard) (d a : Reg) (tgt frm : Ty) (rm : Rnd) (sat : Bool) (s : State) :=
  issue { op := 0x10A, tail := frm.code * 2 ^ 24 } gd s fun u t s =>
    let r := convert (lgTable s u.ep) tgt frm rm sat (lowTy t a frm)
    s.retire u fun t => (t.putG d (extTy tgt r.1)).orFlags r.2

/-- The class of a value (R392): the number of its bit. -/
def classOf (ty : Ty) (x : Nat) : Nat :=
  if ty == .lg then
    if x % 32 == 0 then 4 else if bitAt x 5 then 1 else 6
  else
    let f := fmtOf ty
    match unpack f x with
    | .nan sg => if sg then 8 else 9
    | .inf sg => if sg then 0 else 7
    | .num sg m _ =>
      if m == 0 then (if sg then 3 else 4)
      else if x / 2 ^ f.mb % 2 ^ f.eb == 0 then (if sg then 2 else 5)
      else (if sg then 1 else 6)

/-- FCLASS (R392). -/
def execFclass (gd : Guard) (d a : Reg) (ty : Ty) (s : State) :=
  issue { op := 0x10B } gd s fun u t s => s.retire u (·.putG d (word (2 ^ classOf ty (lowTy t a ty))))

end Sys2Proof.Machine
end

