-- ==== Sys2Proof/Machine/Vector.lean ====
section
/-! DEFINITION. The vector instructions (15: R384 to R405): loads and stores, lane moves, arithmetic, compares and masks, conversion,
reduction and scan, block-scaled accumulation. -/

namespace Sys2Proof.Machine

/-- Lane j of a vector value of width w (R384). -/
def lane (w : Nat) (x : BitVec 512) (j : Nat) : Nat := x.toNat / 2 ^ (w * j) % 2 ^ w

/-- A vector value with n lanes of width w given by a function of the lane (R384). -/
def ofLanes (w n : Nat) (f : Nat → Nat) : BitVec 512 := BitVec.ofNat 512 (((List.range n).map fun j => f j % 2 ^ w * 2 ^ (w * j)).sum)

/-- Lane j takes part (R386). -/
def active (t : Thread) (mk : Mask) (j : Nat) : Bool := !mk.m || (mr t mk.msk).getLsbD j

/-- The b operand of lane j (R386). -/
def laneB (t : Thread) (b : BOp) (ty : Ty) (j : Nat) : Nat := match b with
  | .v r => lane ty.width (vr t r) j
  | .g r => lowTy t r ty

/-- The result of a lane-wise instruction (R399): active lanes by the function, others 0 or kept; and the flags of the active lanes. -/
def laneWise (t : Thread) (d : VReg) (ty : Ty) (mk : Mask) (z : Bool) (f : Nat → Nat × Nat) : BitVec 512 × Nat :=
  let n := ty.lanes
  (ofLanes ty.width n fun j => if active t mk j then (f j).1 else if z then 0 else lane ty.width (vr t d) j,
   (List.range n).foldl (fun fl j => if active t mk j then fl ||| (f j).2 else fl) 0)

/-- The issue of a lane-wise instruction (R399). -/
def vecOp (op : Nat) (gd : Guard) (d : VReg) (ty : Ty) (mk : Mask) (z : Bool) (s : State) (f : Thread → Nat → Nat × Nat) :
    Host.Outcome State Fault Refusal :=
  issue { op := op } gd s fun u t s =>
    let r := laneWise t d ty mk z (f t)
    s.retire u fun t => (t.putV d r.1).orFlags r.2

/-- VADD (R398). -/
def addTy (ty : Ty) (rm : Rnd) (a b : Nat) : Nat × Nat := if ty.isF then fAdd (fmtOf ty) rm a b else ((a + b) % 2 ^ ty.width, 0)
/-- VMIN and VMAX of one lane (R398). -/
def minMaxTy (ty : Ty) (mx : Bool) (a b : Nat) : Nat × Nat :=
  if ty.isF then fMinMax (fmtOf ty) mx a b
  else (if decide (intOf ty a < intOf ty b) then (if mx then b else a) else (if mx then a else b), 0)

/-- VADD (R398, R399). -/
def execVadd (gd : Guard) (d a : VReg) (b : BOp) (ty : Ty) (rm : Rnd) (mk : Mask) (z : Bool) (s : State) :=
  vecOp 0x147 gd d ty mk z s fun t j => addTy ty rm (lane ty.width (vr t a) j) (laneB t b ty j)
/-- VSUB (R398, R399). -/
def execVsub (gd : Guard) (d a : VReg) (b : BOp) (ty : Ty) (rm : Rnd) (mk : Mask) (z : Bool) (s : State) :=
  vecOp 0x148 gd d ty mk z s fun t j =>
    let x := lane ty.width (vr t a) j
    let y := laneB t b ty j
    if ty.isF then fSub (fmtOf ty) rm x y else ((x + 2 ^ ty.width - y) % 2 ^ ty.width, 0)
/-- VMUL (R398, R399). -/
def execVmul (gd : Guard) (d a : VReg) (b : BOp) (ty : Ty) (rm : Rnd) (mk : Mask) (z : Bool) (s : State) :=
  vecOp 0x149 gd d ty mk z s fun t j =>
    let x := lane ty.width (vr t a) j
    let y := laneB t b ty j
    if ty.isF then fMul (fmtOf ty) rm x y else (x * y % 2 ^ ty.width, 0)
/-- VFMA (R398, R399). -/
def execVfma (gd : Guard) (d a : VReg) (b : BOp) (c : VReg) (ty : Ty) (rm : Rnd) (mk : Mask) (z : Bool) (s : State) :=
  vecOp 0x14A gd d ty mk z s fun t j =>
    fFma (fmtOf ty) rm (lane ty.width (vr t a) j) (laneB t b ty j) (lane ty.width (vr t c) j)
/-- VMIN (R398, R244). -/
def execVmin (gd : Guard) (d a : VReg) (b : BOp) (ty : Ty) (mk : Mask) (z : Bool) (s : State) :=
  vecOp 0x14B gd d ty mk z s fun t j => minMaxTy ty false (lane ty.width (vr t a) j) (laneB t b ty j)
/-- VMAX (R398, R244). -/
def execVmax (gd : Guard) (d a : VReg) (b : BOp) (ty : Ty) (mk : Mask) (z : Bool) (s : State) :=
  vecOp 0x14C gd d ty mk z s fun t j => minMaxTy ty true (lane ty.width (vr t a) j) (laneB t b ty j)

/-- VABS of one lane (R398). -/
def absTy (ty : Ty) (x : Nat) : Nat × Nat :=
  if ty.isF then
    (match unpack (fmtOf ty) x with
      | .nan sg => (canonNan (fmtOf ty), if sg then fNV else 0)
      | _ => (x % 2 ^ (ty.width - 1), 0))
  else ((intOf ty x).natAbs % 2 ^ ty.width, 0)

/-- VABS (R398). -/
def execVabs (gd : Guard) (d a : VReg) (ty : Ty) (mk : Mask) (z : Bool) (s : State) :=
  vecOp 0x14D gd d ty mk z s fun t j => absTy ty (lane ty.width (vr t a) j)
/-- VDIV (R398). -/
def execVdiv (gd : Guard) (d a : VReg) (b : BOp) (ty : Ty) (rm : Rnd) (mk : Mask) (z : Bool) (s : State) :=
  vecOp 0x14E gd d ty mk z s fun t j => fDiv (fmtOf ty) rm (lane ty.width (vr t a) j) (laneB t b ty j)
/-- VSQRT (R398). -/
def execVsqrt (gd : Guard) (d a : VReg) (ty : Ty) (rm : Rnd) (mk : Mask) (z : Bool) (s : State) :=
  vecOp 0x14F gd d ty mk z s fun t j => fSqrt (fmtOf ty) rm (lane ty.width (vr t a) j)
/-- VRSQ (R398, R243). -/
def execVrsq (gd : Guard) (d a : VReg) (ty : Ty) (rm : Rnd) (mk : Mask) (z : Bool) (s : State) :=
  vecOp 0x150 gd d ty mk z s fun t j => fRsq (fmtOf ty) rm (lane ty.width (vr t a) j)
/-- VEXP2 (R398, R243). -/
def execVexp2 (gd : Guard) (d a : VReg) (ty : Ty) (rm : Rnd) (mk : Mask) (z : Bool) (s : State) :=
  vecOp 0x151 gd d ty mk z s fun t j => fExp2 (fmtOf ty) rm (lane ty.width (vr t a) j)
/-- VLOG2 (R398, R243). -/
def execVlog2 (gd : Guard) (d a : VReg) (ty : Ty) (rm : Rnd) (mk : Mask) (z : Bool) (s : State) :=
  vecOp 0x152 gd d ty mk z s fun t j => fLog2 (fmtOf ty) rm (lane ty.width (vr t a) j)
/-- VAND (R398). -/
def execVand (gd : Guard) (d a : VReg) (b : BOp) (ty : Ty) (mk : Mask) (z : Bool) (s : State) :=
  vecOp 0x153 gd d ty mk z s fun t j => (lane ty.width (vr t a) j &&& laneB t b ty j, 0)
/-- VOR (R398). -/
def execVor (gd : Guard) (d a : VReg) (b : BOp) (ty : Ty) (mk : Mask) (z : Bool) (s : State) :=
  vecOp 0x154 gd d ty mk z s fun t j => (lane ty.width (vr t a) j ||| laneB t b ty j, 0)
/-- VXOR (R398). -/
def execVxor (gd : Guard) (d a : VReg) (b : BOp) (ty : Ty) (mk : Mask) (z : Bool) (s : State) :=
  vecOp 0x155 gd d ty mk z s fun t j => (lane ty.width (vr t a) j ^^^ laneB t b ty j, 0)
/-- VSHL (R398). -/
def execVshl (gd : Guard) (d a : VReg) (b : BOp) (ty : Ty) (mk : Mask) (z : Bool) (s : State) :=
  vecOp 0x156 gd d ty mk z s fun t j => (lane ty.width (vr t a) j * 2 ^ (laneB t b ty j % ty.width) % 2 ^ ty.width, 0)
/-- VSHR (R398). -/
def execVshr (gd : Guard) (d a : VReg) (b : BOp) (ty : Ty) (mk : Mask) (z : Bool) (s : State) :=
  vecOp 0x157 gd d ty mk z s fun t j => (wrap ty.width (intOf ty (lane ty.width (vr t a) j) / (2 ^ (laneB t b ty j % ty.width) : Nat)), 0)

/-- An integer compare of VCMP (R400). -/
def iCompare (fc : FCond) (a b : Int) : Bool := match fc with
  | .eq => a == b
  | .ne => a != b
  | .lt => decide (a < b)
  | .le => decide (a ≤ b)
  | .gt => decide (b < a)
  | .ge => decide (b ≤ a)
  | .un => false
  | .ord => true

/-- VCMP (R400). -/
def execVcmp (gd : Guard) (d : VMsk) (a : VReg) (b : BOp) (ty : Ty) (fc : FCond) (mk : Mask) (s : State) :=
  issue { op := 0x158 } gd s fun u t s =>
    let f := fun j =>
      let x := lane ty.width (vr t a) j
      let y := laneB t b ty j
      if ty.isF then fCompare fc (fmtOf ty) x y else (iCompare fc (intOf ty x) (intOf ty y), 0)
    let l := (List.range ty.lanes).filter (active t mk)
    s.retire u fun t => (t.putM d (word ((l.map fun j => if (f j).1 then 2 ^ j else 0).sum))).orFlags
      (l.foldl (fun fl j => fl ||| (f j).2) 0)

/-- VSEL (R397). -/
def execVsel (gd : Guard) (d a : VReg) (b : BOp) (c : VMsk) (ty : Ty) (s : State) :=
  issue { op := 0x159 } gd s fun u t s =>
    s.retire u (·.putV d (ofLanes ty.width ty.lanes fun j => if (mr t c).getLsbD j then lane ty.width (vr t a) j else laneB t b ty j))

/-- VPERM (R397). -/
def execVperm (gd : Guard) (d a b : VReg) (ty : Ty) (mk : Mask) (z : Bool) (s : State) :=
  vecOp 0x15D gd d ty mk z s fun t j => (lane ty.width (vr t a) (lane ty.width (vr t b) j % ty.lanes), 0)

/-- VBCAST (R396). -/
def execVbcast (gd : Guard) (d : VReg) (a : Reg) (ty : Ty) (mk : Mask) (z : Bool) (s : State) :=
  vecOp 0x144 gd d ty mk z s fun t _ => (lowTy t a ty, 0)

/-- An LG6 element without its bits 7:6 (R229, R396). -/
def cutLg (ty : Ty) (x : Nat) : Nat := if ty == .lg then x % 64 else x

/-- VEXT (R396). -/
def execVext (gd : Guard) (d : Reg) (a : VReg) (ty : Ty) (ln : BitVec 6) (s : State) :=
  issue { op := 0x145 } gd s fun u t s => s.retire u (·.putG d (extTy ty (cutLg ty (lane ty.width (vr t a) ln.toNat))))

/-- VINS (R396). -/
def execVins (gd : Guard) (d : VReg) (a : Reg) (ty : Ty) (ln : BitVec 6) (s : State) :=
  issue { op := 0x146 } gd s fun u t s =>
    s.retire u (·.putV d (ofLanes ty.width ty.lanes fun j => if j == ln.toNat then cutLg ty (lowTy t a ty) else lane ty.width (vr t d) j))

/-- VCVT (R402). -/
def execVcvt (gd : Guard) (d a : VReg) (tgt frm : Ty) (rm : Rnd) (sat : Bool) (part : BitVec 5) (s : State) :=
  issue { op := 0x15A, tail := frm.code * 2 ^ 27 } gd s fun u t s =>
    let tab := lgTable s u.ep
    let n := min frm.lanes tgt.lanes
    let src := if frm.width < tgt.width then part.toNat * n else 0
    let dst := if tgt.width < frm.width then part.toNat * n else 0
    let f := fun j => convert tab tgt frm rm sat (lane frm.width (vr t a) (src + j))
    s.retire u fun t =>
      (t.putV d (ofLanes tgt.width tgt.lanes fun j => if dst ≤ j && j < dst + n then (f (j - dst)).1 else lane tgt.width (vr t d) j)).orFlags
        ((List.range n).foldl (fun fl j => fl ||| (f j).2) 0)

/-- One step of VRED and VSCAN (R403): the operation on two values. -/
def redOp (op : BitVec 2) (ty : Ty) (rm : Rnd) (a b : Nat) : Nat × Nat := match op.toNat with
  | 0 => addTy ty rm a b
  | 1 => minMaxTy ty false a b
  | 2 => minMaxTy ty true a b
  | _ => (a ||| b, 0)

/-- A step with the identity of R404: none is the identity. -/
def redStep (op : BitVec 2) (ty : Ty) (rm : Rnd) (a b : Option Nat) : Option Nat × Nat := match a, b with
  | none, b => (b, 0)
  | a, none => (a, 0)
  | some x, some y => let r := redOp op ty rm x y; (some r.1, r.2)

/-- What a result that is still the identity is written as (R404). -/
def redIdentity (op : BitVec 2) (ty : Ty) : Nat := match op.toNat with
  | 1 => if ty.isF then infOf (fmtOf ty) false else wrap ty.width (intRange ty).2
  | 2 => if ty.isF then infOf (fmtOf ty) true else wrap ty.width (intRange ty).1
  | _ => 0

/-- One level of the tree of R241. -/
def redPairs (op : BitVec 2) (ty : Ty) (rm : Rnd) : List (Option Nat) → List (Option Nat) × Nat
  | a :: b :: rest =>
    let (x, f) := redStep op ty rm a b
    let (l, g) := redPairs op ty rm rest
    (x :: l, f ||| g)
  | l => (l, 0)

/-- The tree of R241, at most n levels. -/
def redTree (op : BitVec 2) (ty : Ty) (rm : Rnd) : Nat → List (Option Nat) → Option Nat × Nat
  | 0, l => (l.headD none, 0)
  | n + 1, l =>
    let (l, f) := redPairs op ty rm l
    let (x, g) := redTree op ty rm n l
    (x, f ||| g)

/-- The lanes of a reduction, inactive ones the identity (R404). -/
def redLanes (t : Thread) (a : VReg) (ty : Ty) (mk : Mask) : List (Option Nat) :=
  (List.range ty.lanes).map fun j => if active t mk j then some (lane ty.width (vr t a) j) else none

/-- VRED (R403, R241). -/
def execVred (gd : Guard) (d : Reg) (a : VReg) (op : BitVec 2) (ty : Ty) (rm : Rnd) (mk : Mask) (s : State) :=
  issue { op := 0x15B } gd s fun u t s =>
    let r := redTree op ty rm 6 (redLanes t a ty mk)
    s.retire u fun t => (t.putG d (extTy ty (r.1.getD (redIdentity op ty)))).orFlags r.2

/-- The running results of R242, with the flags raised. -/
def scanFrom (op : BitVec 2) (ty : Ty) (rm : Rnd) (acc : Option Nat) : List (Option Nat) → List (Option Nat) × Nat
  | [] => ([], 0)
  | x :: rest =>
    let (y, f) := redStep op ty rm acc x
    let (l, g) := scanFrom op ty rm y rest
    (y :: l, f ||| g)

/-- VSCAN (R403, R242). -/
def execVscan (gd : Guard) (d a : VReg) (op : BitVec 2) (ty : Ty) (rm : Rnd) (mk : Mask) (s : State) :=
  issue { op := 0x15C } gd s fun u t s =>
    let r := scanFrom op ty rm none (redLanes t a ty mk)
    s.retire u fun t => (t.putV d (ofLanes ty.width ty.lanes fun j => (r.1.getD j none).getD (redIdentity op ty))).orFlags r.2

/-- VMLOG (R401). -/
def execVmlog (gd : Guard) (d : VMsk) (a : BitVec 5) (b : VMsk) (table : BitVec 4) (isG : Bool) (s : State) :=
  issue { op := 0x15E } gd s fun u t s =>
    let x := if isG then gr t a else mr t (a.setWidth 2)
    let y := mr t b
    s.retire u (·.putM d (word (((List.range 64).map fun i =>
      if table.getLsbD (2 * b2n (x.getLsbD i) + b2n (y.getLsbD i)) then 2 ^ i else 0).sum)))

/-- VMPOP (R401). -/
def execVmpop (gd : Guard) (d : Reg) (a : VMsk) (raw : Bool) (s : State) :=
  issue { op := 0x15F } gd s fun u t s => s.retire u (·.putG d (if raw then mr t a else word (popCount (mr t a).toNat 64)))

/-- The code table in a register for BARQ (R405). -/
def barqTable (w : Word) : List Nat := (List.range 4).map fun i => bitsAt w.toNat (16 * i + 12) (16 * i)

/-- One lane of BARQ (R405): the part's element scaled and added to it, with one rounding; or 0, or as it is, where the mask leaves it out. -/
def barqLane (t : Thread) (sc : FVal) (tab : List Nat) (part : Nat) (ty : Ty) (mk : Mask) (z : Bool) (a v : BitVec 512) (j : Nat) : Nat × Nat :=
  if active t mk j then packWith fmt32 .rne (fmaVal .rne (tyVal tab ty (lane 8 a (16 * part + j))) sc (unpack fmt32 (lane 32 v j)))
  else (if z then 0 else lane 32 v j, 0)

/-- BARQ's loop (R405): lane after lane of v[d] is written, before the next element of v[a] is read. -/
def barqLoop (t : Thread) (d a : VReg) (sc : FVal) (tab : List Nat) (part : Nat) (ty : Ty) (mk : Mask) (z : Bool) : BitVec 512 × Nat :=
  (List.range 16).foldl (fun (v, fl) j =>
    let (x, f) := barqLane t sc tab part ty mk z (if d == a then v else vr t a) v j
    (ofLanes 32 16 (fun i => if i == j then x else lane 32 v i), fl ||| f)) (vr t d, 0)

/-- BARQ (R405): the bits of its table that must be 0 trap with cause 0x02. -/
def execBarq (gd : Guard) (d a : VReg) (b : Reg) (part : BitVec 2) (ty : Ty) (mk : Mask) (z : Bool) (s : State) :=
  issue { op := 0x160 } gd s fun u t s =>
    let w := gr t (b + 1)
    if ty == .lg && (List.range 4).any (fun i => bitsAt w.toNat (16 * i + 15) (16 * i + 13) != 0) then s.raise u 0x02 0 u.head.toNat
    else
      let sc := unpack fmt32 ((gr t b).toNat % 2 ^ 32)
      let r := barqLoop t d a sc (barqTable w) part.toNat ty mk z
      s.retire u fun t => (t.putV d r.1).orFlags r.2

/-- An element of a vector access: lane, local address and physical offset. -/
abbrev Elem := Nat × Word × Nat

/-- The words that elements touch, in the order of the lowest lane that touches each (R47). -/
def elemWords (l : List Elem) : List Nat := l.foldl (fun acc (_, _, p) => addOnce (p / 8) acc) []

/-- The pass that takes a word (R47): how many words of its bank stand before it in the list. -/
def passOf (ws : List Nat) (w : Nat) : Nat := ((ws.takeWhile (· != w)).filter fun x => x % 32 == w % 32).length

/-- The number of passes of an access (R47). -/
def passCount (ws : List Nat) : Nat := (ws.map fun w => passOf ws w + 1).foldl max 0

/-- A list of elements by rising word, stable within a word (R181). -/
def sortWords (l : List Elem) : List Elem :=
  l.foldl (fun acc x => acc.filter (fun y => y.2.2 / 8 ≤ x.2.2 / 8) ++ [x] ++ acc.filter (fun y => x.2.2 / 8 < y.2.2 / 8)) []

/-- A vector load in a region (R181, R395). -/
def vecRegionLoad (s : State) (u : Turn) (t : Thread) (d : VReg) (bytes : Nat) (base : BitVec 512) (l : List Elem) (ea : Word) : State :=
  if l.isEmpty then s.retire u (·.putV d base)
  else
    let ws := (sortWords l).map fun (_, _, p) => p / 8 * 8
    regionAccess s u t u.ep false ((ws.foldl (fun acc w => addOnce w acc) []).map fun w => (w, .load 8 false)) false 0 0 0 ea
      (some ⟨d, base, l.map fun (j, _, p) => (8 * bytes * j, 8 * bytes, p)⟩) true

/-- A vector store in a region (R181, R395). -/
def vecRegionStore (s : State) (u : Turn) (t : Thread) (d : VReg) (bytes : Nat) (l : List Elem) (ea : Word) : State :=
  if l.isEmpty then s.retire u id
  else regionAccess s u t u.ep false ((sortWords l).map fun (j, _, p) => (p, .store bytes (lane (8 * bytes) (vr t d) j))) false 0 0 0 ea none true

/-- What a vector store presents to a pair's comparator (R294): its active lanes and what it stores of them. -/
def storedLanes (t : Thread) (d : VReg) (bytes n : Nat) (mk : Mask) : List Nat :=
  let l := (List.range n).filter (active t mk)
  l ++ l.map fun j => lane (8 * bytes) (vr t d) j

/-- Elements stored, in ascending lane order (R394). -/
def storeElems (s : State) (e : EP) (x : BitVec 512) (bytes : Nat) (l : List Elem) : State :=
  l.foldl (fun s (j, _, p) => answerRange ((abortPlain s e p bytes).spadWrite e p bytes (lane (8 * bytes) x j)) e p bytes) s

/-- The lanes of a register with elements read into it. -/
def loadElems (s : State) (e : EP) (x : BitVec 512) (bytes n : Nat) (l : List Elem) : BitVec 512 :=
  ofLanes (8 * bytes) n fun j => match l.find? (·.1 == j) with
    | some (_, _, p) => spadRead s e p bytes
    | none => lane (8 * bytes) x j

/-- The words that elements are read from meet their errors (R48). -/
def meetElems (s : State) (e : EP) (bytes : Nat) (l : List Elem) : State := l.foldl (fun s (_, _, p) => meetErrors s e p bytes) s

/-- The elements of VLD and VST: every active lane of 64 consecutive bytes. -/
def rowElems (t : Thread) (ea : Word) (phys bytes : Nat) (mk : Mask) : List Elem :=
  ((List.range (64 / bytes)).filter (active t mk)).map fun j => (j, ea + word (bytes * j), phys + bytes * j)

/-- The register before a masked load: inactive lanes kept or cleared (R386). -/
def vecBase (t : Thread) (d : VReg) (mk : Mask) (z : Bool) : BitVec 512 := if mk.m && z then 0 else vr t d

/-- VLD (R393). -/
def execVld (gd : Guard) (d : VReg) (a : Reg) (esz : BitVec 2) (mk : Mask) (z : Bool) (imm : BitVec 32) (s : State) :=
  issue { op := 0x140, path := 1, ext := true, dst := [32 + d.toNat] } gd s fun u t s =>
    let ea := dispAddr t a imm
    let n := sizeOf esz
    s.checked u (checkLocal s u.ep t ea 64) fun phys =>
    s.checked u (checkAlignedOf ea 8 64) fun _ =>
      let l := rowElems t ea phys n mk
      if inRegion t then vecRegionLoad s u t d n (vecBase t d mk z) l ea
      else if l.any fun (_, _, p) => anySealed s u.ep p n then s.waitEver u (.unsealed phys 64)
      else withBanks s u t fun s =>
        let s := meetElems s u.ep n l
        match l.find? fun (_, _, p) => anyOchre s u.ep p n with
        | some (_, la, _) => s.raise u 0x14 (word (la.toNat / 8 * 8)) 0
        | none => s.retire u fun t => t.putV d (loadElems s u.ep (vecBase t d mk z) n (64 / n) l)

/-- VST (R393). -/
def execVst (gd : Guard) (d : VReg) (a : Reg) (esz : BitVec 2) (mk : Mask) (imm : BitVec 32) (s : State) :=
  issue { op := 0x141, path := 1, ext := true, out := some 0, cmp := [a], more := fun t => storedLanes t d (sizeOf esz) (64 / sizeOf esz) mk } gd s fun u t s =>
    let ea := dispAddr t a imm
    let n := sizeOf esz
    s.checked u (checkLocal s u.ep t ea 64) fun phys =>
    s.checked u (checkAlignedOf ea 8 64) fun _ =>
      let l := rowElems t ea phys n mk
      if inRegion t then vecRegionStore s u t d n l ea
      else if l.any fun (_, _, p) => anySealed s u.ep p n then s.waitEver u (.unsealed phys 64)
      else withBanks s u t fun s => (storeElems s u.ep (vr t d) n l).retire u id

/-- The active lanes of a strided access, checked in ascending order (R394). -/
def strideElems (s : State) (e : EP) (t : Thread) (a b : Reg) (bytes : Nat) (mk : Mask) : Checked (List Elem) :=
  ((List.range (64 / bytes)).filter (active t mk)).foldl (fun acc j => match acc with
    | .error tr => .error tr
    | .ok l =>
      let la := gr t a + word j * gr t b
      match checkLocal s e t la bytes, checkAligned la bytes with
      | .error tr, _ => .error tr
      | _, .error tr => .error tr
      | .ok p, .ok _ => .ok (l ++ [(j, la, p)])) (.ok [])

/-- The elements of passes a to b − 1 of a strided access (R47). -/
def passElems (l : List Elem) (a b : Nat) : List Elem :=
  let ws := elemWords l
  l.filter fun (_, _, p) => a ≤ passOf ws (p / 8) && passOf ws (p / 8) < b

/-- A turn of a strided access (R47, R394): of up to four passes from those already performed on, the elements of those that win their
banks are acted on; what the turn leaves is attempted at the next one. -/
def stridePasses (s : State) (u : Turn) (t : Thread) (bytes : Nat) (l : List Elem) (act : State → List Elem → Except State State)
    (keep : State → List Elem → BitVec 512) (done : State → List Elem → State) : State :=
  let all := passCount (elemWords l)
  let tried := min 4 (all - t.passes)
  let (won, s) := passesWon s u t tried
  let now := passElems l t.passes (t.passes + won)
  match now.find? fun (_, _, p) => anySealed s u.ep p bytes with
  | some (_, _, p) => s.waitEver u (.unsealed p bytes)
  | none =>
    if localOut s u.ep t then s.forfeit u
    else match act s now with
      | .error s => s
      | .ok s =>
        if t.passes + won == all then done s now
        else
          let forfeits := if won < tried then (if won == 0 then t.forfeits + 1 else 1) else 0
          let x := keep s now
          (s.modThr u.ep u.slot fun t => { t with passes := t.passes + won, forfeits := forfeits, gather := x, park := none }).noTurn

/-- VLDS (R394). -/
def execVlds (gd : Guard) (d : VReg) (a b : Reg) (ty : Ty) (mk : Mask) (z : Bool) (s : State) :=
  issue { op := 0x142, path := 1, ext := true, dst := [32 + d.toNat] } gd s fun u t s =>
    let n := ty.width / 8
    s.checked u (strideElems s u.ep t a b n mk) fun l =>
      if inRegion t then vecRegionLoad s u t d n (vecBase t d mk z) l (gr t a)
      else
        let read := fun (s : State) (now : List Elem) =>
          loadElems s u.ep (if t.passes == 0 then vecBase t d mk z else t.gather) n ty.lanes now
        stridePasses s u t n l
          (fun s now =>
            let s := meetElems s u.ep n now
            match now.find? fun (_, _, p) => anyOchre s u.ep p n with
            | some (_, la, _) => .error (s.raise u 0x14 la 0)
            | none => .ok s)
          read fun s now => s.retire u (·.putV d (read s now))

/-- VSTS (R394). -/
def execVsts (gd : Guard) (d : VReg) (a b : Reg) (ty : Ty) (mk : Mask) (s : State) :=
  issue { op := 0x143, path := 1, ext := true, out := some 0, cmp := [a, b], more := fun t => storedLanes t d (ty.width / 8) ty.lanes mk } gd s fun u t s =>
    let n := ty.width / 8
    s.checked u (strideElems s u.ep t a b n mk) fun l =>
      if inRegion t then vecRegionStore s u t d n l (gr t a)
      else stridePasses s u t n l (fun s now => .ok (storeElems s u.ep (vr t d) n now)) (fun _ _ => 0) fun s _ => s.retire u id

end Sys2Proof.Machine
end

