-- ==== Sys2Proof/Machine/Agenda.lean ====
section
/-! DEFINITION. What happens next where no turn is under way (log 2): the passing of time, a round of the machine's own steps in one
legal order, and where a program is placed for the next turn (log 1). -/

namespace Sys2Proof.Machine

/-- Something at once. -/
def atOnce (i : Ev) : Occ := ⟨0, i⟩

/-- The items of a list with their places, the last first: taking one away leaves the places of those before it. -/
def backwards {α : Type} (l : List α) : List (α × Nat) := l.zipIdx.reverse

/-- What comes of a packet that has arrived, by what it carries. -/
def arrivalOf (k : Nat) : Body → Ev
  | .access .. | .window .. => .fabricIngress k
  | .dram .. => .lineBufferAccess k
  | .answer _ | .sticky _ | .stickySet .. | .region _ => .replyArrival k
  | .message .. => .messageDelivery k
  | .enq .. => .remoteEnqArrival k
  | .qresReq .. => .qresRequestArrival k
  | .qresGrant .. => .qresGrantArrival k
  | .qresReturn .. => .reservationReturn k
  | .pieceRead .. => .pieceAtOwner k
  | .pieceWrite .. => .pieceAtRecipient k
  | .pieceEnd .. => .pieceReport k
  | .patternRead .. | .pattern .. => .fillPatternRead k
  | .program _ => .programCommandArrival k
  | .migrant _ => .migrantArrival k
  | .comeBack .. => .migrantReturn k
  | .mirrorWrite .. => .mirrorWriteApply k
  | .chunk .. => .collChunkArrival k
  | .partFail .. => .collParticipantFailure k

/-- What comes of a packet, by where it is (R107, R108). -/
def packetEvents (p : Pkt) (k : Nat) : List Ev := match p.stage with
  | .egress => [.mirrorTimeout k, .gatewayEgress k]
  | .link => [.mirrorTimeout k, .gatewayIngress k]
  | .arrived => [.mirrorTimeout k, arrivalOf k p.body]
  | .lost => [.mirrorTimeout k]

/-- What comes of a message of the control plane (R209, R218). -/
def ctlEvent (m : Ctl) (k : Nat) : Ev := match m with
  | .drop .. | .dropAt .. => .dropReport k
  | .exportNotice .. => .exportNotice k
  | .noticeAck .. => .exportNoticeAck k
  | .proxyReport .. => .proxyReport k
  | .cancel .. | .cancelOrigin .. => .cancelPropagation k
  | .unionChange .. => .unionChangePropagation k

/-- What comes of a packet of a die's region unit (R486), the k-th; the answers to threads are replies. -/
def regionEvent (dk k : Nat) : Body → List Ev
  | .region m => (match m with
    | .begin_ .. => [.regionBeginRequest dk k]
    | .access _ | .edges .. | .granted .. => [.regionAccessEdges dk k]
    | .commit _ | .stat _ => [.regionCommitRequest dk k]
    | .seal_ _ => [.sealAtOwner dk k]
    | .sealAck .. => [.sealAck dk k]
    | .resolve _ => [.resolveAtOwner dk k]
    | .resolveAck .. => [.resolveAck dk k]
    | .discard _ => [.discardAtOwner dk k]
    | .abort .. | .discardAck .. | .deliver .. => [.abortDelivery dk k]
    | .opened .. | .release _ => [])
  | _ => []

/-- What a die does (R34, R177, R203, R104). -/
def dieEvents (s : State) (dk : Nat) (d : Die) : List Ev :=
  (backwards d.replica.coming).map (fun (_, k) => Ev.lapseBroadcastApply (dk / 8) (dk % 8) k)
  ++ (backwards d.walks).map (fun (_, k) => Ev.pageWalkStep dk k)
  ++ (backwards d.regions).flatMap (fun (_, k) => [Ev.regionInstantTest dk k, Ev.regionWaitTimeout dk k])
  ++ ((regionPkts s dk).zipIdx.flatMap fun (x, k) => regionEvent dk k x.1.body).reverse
  ++ (backwards d.raccs).map (fun (_, k) => Ev.regionAccessEdges dk ((regionPkts s dk).length + k))
  ++ d.arec.toList.zipIdx.flatMap fun (w, r) =>
      if bitsAt w.toNat 30 29 == 1 then [.boundaryClose dk r, .rectangleResetComplete dk r] else []

/-- What a package's units do (R203 to R222, R263 to R270, R205, R42, R132, R279, R462, R470, R474). -/
def pkgEvents (i : Nat) (p : Pkg) : List Ev :=
  p.lapse.flatMap (fun (h, _) => [Ev.instantLapse i h, Ev.settleExpiry i h])
  ++ p.queues.map (fun (q, _) => Ev.entryAdmission i q)
  ++ [Ev.dispatchEntry i]
  ++ (backwards p.headerReads).map (fun (_, k) => Ev.launchHeaderRead i k)
  ++ p.queues.map (fun (q, _) => Ev.heldRecordRetry i q)
  ++ p.iureqs.map (fun _ => Ev.instantUnitRequest i)
  ++ (match p.invs with | [] => [] | _ => (List.range 8).map fun d => Ev.invtlbApply i d)
  ++ (backwards p.colls).flatMap (fun (_, k) => [Ev.collTimeout i k, Ev.collChunkSend i k])
  ++ (backwards p.probes).map (fun (_, k) => Ev.qprobeReturn k)
  ++ (backwards p.bridge.events).map (fun (_, k) => Ev.eventLogPlace i k)
  ++ [Ev.eventGapTimeout i, Ev.commitComplete i, Ev.bootVerify i, Ev.attestationDone i]

/-- What a cluster's dispenser does (R266, R275). -/
def clusterEvents (key : Nat) (c : Cluster) : List Ev :=
  (backwards c.frames).map (fun (_, k) => Ev.frameReentry (key / 256) (key % 256) k)
  ++ (List.range (c.packets.length + 1)).reverse.map fun k => .dispenserExamine (key / 256) (key % 256) k

/-- The block of 256 bytes that belongs to a channel in the 64 KiB of an address (R32). -/
def channelBlock (e : EP) (a : Nat) : Option Nat := ((List.range 256).map fun i => a / 2 ^ 16 * 2 ^ 16 + 256 * i).find? fun b => homeOf b == e

/-- The next line that a channel's scrubber reads (R94), from the line it stands at on; behind the last line of the channel, its first. -/
def scrubLine (e : EP) (line : Nat) : Nat :=
  let first := (channelBlock e (epPkg e * 2 ^ 46)).getD 0
  let next := match channelBlock e line with
    | some b => if line < b + 256 then max b line else (channelBlock e (line + 2 ^ 16)).getD first
    | none => first
  if paPkg next == epPkg e && populated next 64 then next else first

/-- A line of the scrubber is due in this nanosecond (R94): the lines of the channel are spread evenly over the interval. -/
def scrubDue (now hours : Nat) : Bool :=
  let lines := Config.dramBytes / 256 / 64
  let interval := hours * 3600000000000
  now * lines / interval != (now - 1) * lines / interval

/-- What a memory core does (R81, R84, R87, R94). -/
def memoryEvents (s : State) (e : EP) (c : Core) : List Ev :=
  (backwards c.mem.buf).flatMap (fun (b, k) =>
    (if b.filling then [Ev.lineFillComplete e k] else []) ++ if b.writing then [Ev.victimWriteback e k true true] else [])
  ++ c.mem.progs.map (fun _ => Ev.programCommandDelivery e)
  ++ c.mem.migrants.map (fun _ => Ev.migrantQueueAdmit e)
  ++ if c.kind == .memory && scrubDue (s.now e).toNat (s.pkg (epPkg e)).bridge.scrub.toNat then
       [.patrolScrubRead e (scrubLine e c.mem.scrub)] else []

/-- What a core's units do besides issuing (R55, R120, R137, R145, R260, R287, R347, R407, R427). -/
def coreEvents (s : State) (e : EP) (c : Core) : List Ev :=
  c.destQ.map (fun _ => Ev.destWriteQueueWrite e)
  ++ c.tileQ.map (fun _ => Ev.tileWriteQueueWrite e)
  ++ (backwards c.jobs).flatMap (fun (j, k) => match j.op with
      | .old .. => [Ev.oldComplete e]
      | .ard .. => [Ev.ardComplete e]
      | .awr .. => [Ev.awrComplete e]
      | .aclr .. => [Ev.aclrApply e k]
      | .copyIn .. => []
      | .mma .. => if j.run then [Ev.mmaKStep e] else [Ev.mmaStart e])
  ++ (backwards (c.dtl ++ c.overflow)).map (fun (_, k) => Ev.dtlEntryTimeout e k)
  ++ (backwards c.held).map (fun (_, k) => Ev.heldMessageRelease e k)
  ++ c.reds.map (fun _ => Ev.reductionBlockDelivery e)
  ++ memoryEvents s e c
  ++ c.swaps.map (fun x => Ev.swapImageWritten e x.1)
  ++ c.slots.flatMap (fun (n, t) =>
      (if t.xf.isSome then [Ev.xfenceComplete e n, Ev.waitTimeout e n] else [])
      ++ match t.park with
        | some p => (match p.why with
          | .joinBusy _ => [.joinBusyRetry e n, .waitTimeout e n]
          | _ => [.waitTimeout e n])
        | none => [])

/-- One legal order of everything that the machine does of its own in a round (log 2): packets and messages, the units of dies, packages
and clusters, the units of cores, and then a turn of every core, none of which loses a bank. What has not come about yet leaves the
state as it is. What comes from outside the domain (host accesses, failures, power, firmware, telemetry) is in no round. -/
def roundOf (s : State) : List Occ :=
  let packets : List Ev := (backwards s.net).flatMap fun (p, k) => packetEvents p k
  let control : List Ev := (backwards s.ctl).map fun (m, k) => ctlEvent m k
  let commands : List Ev := (backwards s.cmds).flatMap fun (_, k) => [Ev.codeSegmentLanded k, Ev.copyPieceDispatch k]
  let dies : List Ev := s.dies.flatMap fun (dk, d) => dieEvents s dk d
  let pkgs : List Ev := s.pkgs.flatMap fun (i, p) => pkgEvents i p
  let clusters : List Ev := s.clusters.flatMap fun (key, c) => clusterEvents key c
  let messages : List Ev := (backwards (outboxes s)).map fun (_, k) => Ev.messageInjection k
  let cores : List Ev := s.cores.flatMap fun (e, c) => coreEvents s e c
  let turns : List Ev := s.cores.map fun (e, _) => Ev.issueTurn e false
  (packets ++ control ++ commands ++ dies ++ pkgs ++ clusters ++ messages ++ cores ++ turns).map atOnce

/-- What happens, as exec says of the constructor of Instr of the same name. -/
def runEv (ev : Ev) (s : State) : Host.Outcome State Fault Refusal :=
  match ev with
  | .issueTurn ep lost => execIssueTurn ep lost s
  | .waitTimeout ep slot => execWaitTimeout ep slot s
  | .hostQueueEntryWrite pkg off n entry => execHostQueueEntryWrite pkg off n entry s
  | .entryAdmission pkg q => execEntryAdmission pkg q s
  | .hostCancelWrite pkg off n w => execHostCancelWrite pkg off n w s
  | .hostDataWrite pkg off n data => execHostDataWrite pkg off n data s
  | .hostDataRead pkg off n => execHostDataRead pkg off n s
  | .dispatchEntry pkg => execDispatchEntry pkg s
  | .launchHeaderRead pkg k => execLaunchHeaderRead pkg k s
  | .dispenserExamine pkg cl k => execDispenserExamine pkg cl k s
  | .frameReentry pkg cl k => execFrameReentry pkg cl k s
  | .instantLapse pkg h => execInstantLapse pkg h s
  | .lapseBroadcastApply pkg die k => execLapseBroadcastApply pkg die k s
  | .settleExpiry pkg h => execSettleExpiry pkg h s
  | .heldRecordRetry pkg q => execHeldRecordRetry pkg q s
  | .dropReport k => execDropReport k s
  | .gatewayEgress k => execGatewayEgress k s
  | .gatewayIngress k => execGatewayIngress k s
  | .exportNotice k => execExportNotice k s
  | .proxyReport k => execProxyReport k s
  | .cancelPropagation k => execCancelPropagation k s
  | .unionChangePropagation k => execUnionChangePropagation k s
  | .fabricIngress k => execFabricIngress k s
  | .replyArrival k => execReplyArrival k s
  | .messageInjection k => execMessageInjection k s
  | .messageDelivery k => execMessageDelivery k s
  | .heldMessageRelease ep k => execHeldMessageRelease ep k s
  | .remoteEnqArrival k => execRemoteEnqArrival k s
  | .qresRequestArrival k => execQresRequestArrival k s
  | .qresGrantArrival k => execQresGrantArrival k s
  | .dtlEntryTimeout ep k => execDtlEntryTimeout ep k s
  | .destWriteQueueWrite ep => execDestWriteQueueWrite ep s
  | .tileWriteQueueWrite ep => execTileWriteQueueWrite ep s
  | .copyPieceDispatch k => execCopyPieceDispatch k s
  | .fillPatternRead k => execFillPatternRead k s
  | .pieceAtOwner k => execPieceAtOwner k s
  | .pieceAtRecipient k => execPieceAtRecipient k s
  | .pieceReport k => execPieceReport k s
  | .codeSegmentLanded k => execCodeSegmentLanded k s
  | .codesegWrite ep w => execCodesegWrite ep w s
  | .programCommandArrival k => execProgramCommandArrival k s
  | .programCommandDelivery ep => execProgramCommandDelivery ep s
  | .collChunkSend pkg k => execCollChunkSend pkg k s
  | .collChunkArrival k => execCollChunkArrival k s
  | .reductionBlockDelivery ep => execReductionBlockDelivery ep s
  | .collParticipantFailure k => execCollParticipantFailure k s
  | .collTimeout pkg k => execCollTimeout pkg k s
  | .qprobeReturn k => execQprobeReturn k s
  | .lineBufferAccess k => execLineBufferAccess k s
  | .lineFillComplete ep k => execLineFillComplete ep k s
  | .victimWriteback ep k ok markOk => execVictimWriteback ep k ok markOk s
  | .patrolScrubRead ep line => execPatrolScrubRead ep line s
  | .mirrorWriteApply k => execMirrorWriteApply k s
  | .mirrorTimeout k => execMirrorTimeout k s
  | .joinBusyRetry ep slot => execJoinBusyRetry ep slot s
  | .migrantArrival k => execMigrantArrival k s
  | .migrantQueueAdmit ep => execMigrantQueueAdmit ep s
  | .migrantReturn k => execMigrantReturn k s
  | .pageWalkStep die k => execPageWalkStep die k s
  | .invtlbApply pkg die => execInvtlbApply pkg die s
  | .regionBeginRequest die k => execRegionBeginRequest die k s
  | .regionAccessEdges die k => execRegionAccessEdges die k s
  | .regionCommitRequest die k => execRegionCommitRequest die k s
  | .sealAtOwner die k => execSealAtOwner die k s
  | .sealAck die k => execSealAck die k s
  | .resolveAtOwner die k => execResolveAtOwner die k s
  | .resolveAck die k => execResolveAck die k s
  | .discardAtOwner die k => execDiscardAtOwner die k s
  | .abortDelivery die k => execAbortDelivery die k s
  | .regionInstantTest die k => execRegionInstantTest die k s
  | .regionWaitTimeout die k => execRegionWaitTimeout die k s
  | .boundaryClose die r => execBoundaryClose die r s
  | .rectangleResetComplete die r => execRectangleResetComplete die r s
  | .containmentRelease die r => execContainmentRelease die r s
  | .arecWrite die r w => execArecWrite die r w s
  | .oldComplete ep => execOldComplete ep s
  | .ardComplete ep => execArdComplete ep s
  | .awrComplete ep => execAwrComplete ep s
  | .mmaStart ep => execMmaStart ep s
  | .mmaKStep ep => execMmaKStep ep s
  | .aclrApply ep k => execAclrApply ep k s
  | .xfenceComplete ep slot => execXfenceComplete ep slot s
  | .linkFlitCrcFail pkg port => execLinkFlitCrcFail pkg port s
  | .kblFlitCrcFail pkg => execKblFlitCrcFail pkg s
  | .timeSyncFlit pkg master => execTimeSyncFlit pkg master s
  | .powerGood pkg => execPowerGood pkg s
  | .kblTrained pkg => execKblTrained pkg s
  | .bootGo pkg => execBootGo pkg s
  | .bootVerify pkg => execBootVerify pkg s
  | .firmwareInitComplete pkg now links regs tables => execFirmwareInitComplete pkg now links regs tables s
  | .attestationRequest pkg w => execAttestationRequest pkg w s
  | .attestationDone pkg => execAttestationDone pkg s
  | .commitWrite pkg w => execCommitWrite pkg w s
  | .commitComplete pkg => execCommitComplete pkg s
  | .lostclrWrite pkg w => execLostclrWrite pkg w s
  | .chstatWrite ep w => execChstatWrite ep w s
  | .islctlWrite pkg isl w => execIslctlWrite pkg isl w s
  | .counterReadClear pkg => execCounterReadClear pkg s
  | .evreadWrite pkg w => execEvreadWrite pkg w s
  | .managementRegisterWrite pkg off w => execManagementRegisterWrite pkg off w s
  | .eventLogPlace pkg k => execEventLogPlace pkg k s
  | .eventGapTimeout pkg => execEventGapTimeout pkg s
  | .telemetrySample pkg isl mv temp watts => execTelemetrySample pkg isl mv temp watts s
  | .droopStretchStart pkg isl sag => execDroopStretchStart pkg isl sag s
  | .droopStretchEnd pkg isl sag => execDroopStretchEnd pkg isl sag s
  | .instantUnitRequest pkg => execInstantUnitRequest pkg s
  | .exportNoticeAck k => execExportNoticeAck k s
  | .reservationReturn k => execReservationReturn k s
  | .swapImageWritten ep slot => execSwapImageWritten ep slot s
  | .timeSyncLost pkg err => execTimeSyncLost pkg err s
  | .powerLoss pkg => execPowerLoss pkg s

/-- A hardware step of the opcode table as an entry of the agenda; none for an instruction of the Larbel set. -/
def evOf (i : Instr) : Option Ev :=
  match i with
  | .issueTurn ep lost => some (.issueTurn ep lost)
  | .waitTimeout ep slot => some (.waitTimeout ep slot)
  | .hostQueueEntryWrite pkg off n entry => some (.hostQueueEntryWrite pkg off n entry)
  | .entryAdmission pkg q => some (.entryAdmission pkg q)
  | .hostCancelWrite pkg off n w => some (.hostCancelWrite pkg off n w)
  | .hostDataWrite pkg off n data => some (.hostDataWrite pkg off n data)
  | .hostDataRead pkg off n => some (.hostDataRead pkg off n)
  | .dispatchEntry pkg => some (.dispatchEntry pkg)
  | .launchHeaderRead pkg k => some (.launchHeaderRead pkg k)
  | .dispenserExamine pkg cl k => some (.dispenserExamine pkg cl k)
  | .frameReentry pkg cl k => some (.frameReentry pkg cl k)
  | .instantLapse pkg h => some (.instantLapse pkg h)
  | .lapseBroadcastApply pkg die k => some (.lapseBroadcastApply pkg die k)
  | .settleExpiry pkg h => some (.settleExpiry pkg h)
  | .heldRecordRetry pkg q => some (.heldRecordRetry pkg q)
  | .dropReport k => some (.dropReport k)
  | .gatewayEgress k => some (.gatewayEgress k)
  | .gatewayIngress k => some (.gatewayIngress k)
  | .exportNotice k => some (.exportNotice k)
  | .proxyReport k => some (.proxyReport k)
  | .cancelPropagation k => some (.cancelPropagation k)
  | .unionChangePropagation k => some (.unionChangePropagation k)
  | .fabricIngress k => some (.fabricIngress k)
  | .replyArrival k => some (.replyArrival k)
  | .messageInjection k => some (.messageInjection k)
  | .messageDelivery k => some (.messageDelivery k)
  | .heldMessageRelease ep k => some (.heldMessageRelease ep k)
  | .remoteEnqArrival k => some (.remoteEnqArrival k)
  | .qresRequestArrival k => some (.qresRequestArrival k)
  | .qresGrantArrival k => some (.qresGrantArrival k)
  | .dtlEntryTimeout ep k => some (.dtlEntryTimeout ep k)
  | .destWriteQueueWrite ep => some (.destWriteQueueWrite ep)
  | .tileWriteQueueWrite ep => some (.tileWriteQueueWrite ep)
  | .copyPieceDispatch k => some (.copyPieceDispatch k)
  | .fillPatternRead k => some (.fillPatternRead k)
  | .pieceAtOwner k => some (.pieceAtOwner k)
  | .pieceAtRecipient k => some (.pieceAtRecipient k)
  | .pieceReport k => some (.pieceReport k)
  | .codeSegmentLanded k => some (.codeSegmentLanded k)
  | .codesegWrite ep w => some (.codesegWrite ep w)
  | .programCommandArrival k => some (.programCommandArrival k)
  | .programCommandDelivery ep => some (.programCommandDelivery ep)
  | .collChunkSend pkg k => some (.collChunkSend pkg k)
  | .collChunkArrival k => some (.collChunkArrival k)
  | .reductionBlockDelivery ep => some (.reductionBlockDelivery ep)
  | .collParticipantFailure k => some (.collParticipantFailure k)
  | .collTimeout pkg k => some (.collTimeout pkg k)
  | .qprobeReturn k => some (.qprobeReturn k)
  | .lineBufferAccess k => some (.lineBufferAccess k)
  | .lineFillComplete ep k => some (.lineFillComplete ep k)
  | .victimWriteback ep k ok markOk => some (.victimWriteback ep k ok markOk)
  | .patrolScrubRead ep line => some (.patrolScrubRead ep line)
  | .mirrorWriteApply k => some (.mirrorWriteApply k)
  | .mirrorTimeout k => some (.mirrorTimeout k)
  | .joinBusyRetry ep slot => some (.joinBusyRetry ep slot)
  | .migrantArrival k => some (.migrantArrival k)
  | .migrantQueueAdmit ep => some (.migrantQueueAdmit ep)
  | .migrantReturn k => some (.migrantReturn k)
  | .pageWalkStep die k => some (.pageWalkStep die k)
  | .invtlbApply pkg die => some (.invtlbApply pkg die)
  | .regionBeginRequest die k => some (.regionBeginRequest die k)
  | .regionAccessEdges die k => some (.regionAccessEdges die k)
  | .regionCommitRequest die k => some (.regionCommitRequest die k)
  | .sealAtOwner die k => some (.sealAtOwner die k)
  | .sealAck die k => some (.sealAck die k)
  | .resolveAtOwner die k => some (.resolveAtOwner die k)
  | .resolveAck die k => some (.resolveAck die k)
  | .discardAtOwner die k => some (.discardAtOwner die k)
  | .abortDelivery die k => some (.abortDelivery die k)
  | .regionInstantTest die k => some (.regionInstantTest die k)
  | .regionWaitTimeout die k => some (.regionWaitTimeout die k)
  | .boundaryClose die r => some (.boundaryClose die r)
  | .rectangleResetComplete die r => some (.rectangleResetComplete die r)
  | .containmentRelease die r => some (.containmentRelease die r)
  | .arecWrite die r w => some (.arecWrite die r w)
  | .oldComplete ep => some (.oldComplete ep)
  | .ardComplete ep => some (.ardComplete ep)
  | .awrComplete ep => some (.awrComplete ep)
  | .mmaStart ep => some (.mmaStart ep)
  | .mmaKStep ep => some (.mmaKStep ep)
  | .aclrApply ep k => some (.aclrApply ep k)
  | .xfenceComplete ep slot => some (.xfenceComplete ep slot)
  | .linkFlitCrcFail pkg port => some (.linkFlitCrcFail pkg port)
  | .kblFlitCrcFail pkg => some (.kblFlitCrcFail pkg)
  | .timeSyncFlit pkg master => some (.timeSyncFlit pkg master)
  | .powerGood pkg => some (.powerGood pkg)
  | .kblTrained pkg => some (.kblTrained pkg)
  | .bootGo pkg => some (.bootGo pkg)
  | .bootVerify pkg => some (.bootVerify pkg)
  | .firmwareInitComplete pkg now links regs tables => some (.firmwareInitComplete pkg now links regs tables)
  | .attestationRequest pkg w => some (.attestationRequest pkg w)
  | .attestationDone pkg => some (.attestationDone pkg)
  | .commitWrite pkg w => some (.commitWrite pkg w)
  | .commitComplete pkg => some (.commitComplete pkg)
  | .lostclrWrite pkg w => some (.lostclrWrite pkg w)
  | .chstatWrite ep w => some (.chstatWrite ep w)
  | .islctlWrite pkg isl w => some (.islctlWrite pkg isl w)
  | .counterReadClear pkg => some (.counterReadClear pkg)
  | .evreadWrite pkg w => some (.evreadWrite pkg w)
  | .managementRegisterWrite pkg off w => some (.managementRegisterWrite pkg off w)
  | .eventLogPlace pkg k => some (.eventLogPlace pkg k)
  | .eventGapTimeout pkg => some (.eventGapTimeout pkg)
  | .telemetrySample pkg isl mv temp watts => some (.telemetrySample pkg isl mv temp watts)
  | .droopStretchStart pkg isl sag => some (.droopStretchStart pkg isl sag)
  | .droopStretchEnd pkg isl sag => some (.droopStretchEnd pkg isl sag)
  | .instantUnitRequest pkg => some (.instantUnitRequest pkg)
  | .exportNoticeAck k => some (.exportNoticeAck k)
  | .reservationReturn k => some (.reservationReturn k)
  | .swapImageWritten ep slot => some (.swapImageWritten ep slot)
  | .timeSyncLost pkg err => some (.timeSyncLost pkg err)
  | .powerLoss pkg => some (.powerLoss pkg)
  | _ => none

/-- The next thing that happens where no turn is under way: the first of the agenda; none where a new round begins. -/
def nextOcc (s : State) : Option (Ev × State) :=
  match s.agenda with
  | o :: rest => some (o.ev, { s with agenda := rest }.advance o.dt)
  | [] => none

/-- A round begins. -/
def startRound (s : State) : State := let s := s.advance 1; { s with agenda := roundOf s }

/-- The slot that runs an instruction placed at reset: the first of a compute core, for BACK a visitor slot, for BARQ a gateway core's. -/
def placeFor (op : Nat) : EP × Nat :=
  if op == 0x0C1 then (mkEp 0 0 1 0 0, 16) else if op == 0x160 then (mkEp 0 0 2 0 0, 0) else (mkEp 0 0 0 0 0, 0)

/-- A thread that runs at head 1 of segment 1. -/
def placedThread (e : EP) (slot : Nat) : Thread :=
  { Thread.start 1 0 0 0 0 with
    pc := 0x1002, fresh := false, park := none,
    origin := if isVisitor e slot then some ⟨mkEp 0 0 0 0 0, 0, 0, 0⟩ else none }

/-- The instruction of an opcode-table word placed as the next one fetched (log 1): its line in segment 1, landed, of the core whose
turn it is; where no turn is under way, a thread is placed there and receives one. -/
def placeFetchWord (s : State) (nbits w : Nat) : State :=
  let head := fld w (nbits - 16) 16
  let l := oneHeadLine head (fld w 0 (nbits - 16))
  let bytes := l.flatMap fun h => leBytes 2 h.toNat
  let line := fun (c : Core) => { c with
    spad := mputs 0x1000 bytes c.spad, upsets := clearErrors c.upsets 0x1000 64, landed := c.landed ||| 2#384, xb := 0x020,
    gran := c.gran.filter fun x => x.1 < 0x100 || 0x104 ≤ x.1 }
  let go := fun (t : Thread) => { t with pc := 0x1002, fresh := false, line := none }
  match s.turn.bind fun u => (s.thr? u.ep u.slot).map fun _ => u with
  | some u => (s.modCore u.ep line).modThr u.ep u.slot go
  | none =>
    let (e, slot) := placeFor (fld head 0 9)
    let c := line (s.core e)
    let c := { c with slots := tput slot (placedThread e slot) c.slots }
    { s with cores := tput e c s.cores, turn := some ⟨e, slot, 0x1002, 0, false⟩, nextUid := s.nextUid + 1 }

end Sys2Proof.Machine
end

