-- ==== Sys2Proof/Machine/Dispatch.lean ====
section
/-! DEFINITION. The dispatch of every instruction and event to its meaning, one arm each. -/

namespace Sys2Proof.Machine

open Sys2Proof

/-- The meaning of an instruction or event. -/
def exec (i : Instr) (s : State) : Host.Outcome State Fault Refusal :=
  match i with
  | .nop gd => Sys2Proof.Machine.execNop gd s
  | .add gd d a b => Sys2Proof.Machine.execAdd gd d a b s
  | .sub gd d a b => Sys2Proof.Machine.execSub gd d a b s
  | .mul gd d a b => Sys2Proof.Machine.execMul gd d a b s
  | .mulh gd d a b => Sys2Proof.Machine.execMulh gd d a b s
  | .mulhn gd d a b => Sys2Proof.Machine.execMulhn gd d a b s
  | .div gd d a b => Sys2Proof.Machine.execDiv gd d a b s
  | .divn gd d a b => Sys2Proof.Machine.execDivn gd d a b s
  | .rem gd d a b => Sys2Proof.Machine.execRem gd d a b s
  | .remn gd d a b => Sys2Proof.Machine.execRemn gd d a b s
  | .and gd d a b => Sys2Proof.Machine.execAnd gd d a b s
  | .or gd d a b => Sys2Proof.Machine.execOr gd d a b s
  | .xor gd d a b => Sys2Proof.Machine.execXor gd d a b s
  | .andn gd d a b => Sys2Proof.Machine.execAndn gd d a b s
  | .shl gd d a b => Sys2Proof.Machine.execShl gd d a b s
  | .shr gd d a b => Sys2Proof.Machine.execShr gd d a b s
  | .sra gd d a b => Sys2Proof.Machine.execSra gd d a b s
  | .shli gd d a n => Sys2Proof.Machine.execShli gd d a n s
  | .shri gd d a n => Sys2Proof.Machine.execShri gd d a n s
  | .srai gd d a n => Sys2Proof.Machine.execSrai gd d a n s
  | .clz gd d a => Sys2Proof.Machine.execClz gd d a s
  | .ctz gd d a => Sys2Proof.Machine.execCtz gd d a s
  | .popc gd d a => Sys2Proof.Machine.execPopc gd d a s
  | .min gd d a b => Sys2Proof.Machine.execMin gd d a b s
  | .max gd d a b => Sys2Proof.Machine.execMax gd d a b s
  | .minn gd d a b => Sys2Proof.Machine.execMinn gd d a b s
  | .maxn gd d a b => Sys2Proof.Machine.execMaxn gd d a b s
  | .addi gd d a imm => Sys2Proof.Machine.execAddi gd d a imm s
  | .andi gd d a imm => Sys2Proof.Machine.execAndi gd d a imm s
  | .ori gd d a imm => Sys2Proof.Machine.execOri gd d a imm s
  | .xori gd d a imm => Sys2Proof.Machine.execXori gd d a imm s
  | .li gd d imm => Sys2Proof.Machine.execLi gd d imm s
  | .lih gd d a imm => Sys2Proof.Machine.execLih gd d a imm s
  | .bfx gd d a pos len1 => Sys2Proof.Machine.execBfx gd d a pos len1 s
  | .bfxs gd d a pos len1 => Sys2Proof.Machine.execBfxs gd d a pos len1 s
  | .bfi gd d a b pos len1 => Sys2Proof.Machine.execBfi gd d a b pos len1 s
  | .lea gd d a b sh disp => Sys2Proof.Machine.execLea gd d a b sh disp s
  | .cmp gd d a b cc => Sys2Proof.Machine.execCmp gd d a b cc s
  | .cmpi gd d a cc imm => Sys2Proof.Machine.execCmpi gd d a cc imm s
  | .plog gd d a b table => Sys2Proof.Machine.execPlog gd d a b table s
  | .sel gd d a b c => Sys2Proof.Machine.execSel gd d a b c s
  | .pset gd a => Sys2Proof.Machine.execPset gd a s
  | .pget gd d => Sys2Proof.Machine.execPget gd d s
  | .sext gd d a n => Sys2Proof.Machine.execSext gd d a n s
  | .zext gd d a n => Sys2Proof.Machine.execZext gd d a n s
  | .br gd imm => Sys2Proof.Machine.execBr gd imm s
  | .brr gd a => Sys2Proof.Machine.execBrr gd a s
  | .call gd d imm => Sys2Proof.Machine.execCall gd d imm s
  | .callr gd d a => Sys2Proof.Machine.execCallr gd d a s
  | .jseg gd imm => Sys2Proof.Machine.execJseg gd imm s
  | .btag gd d a b count => Sys2Proof.Machine.execBtag gd d a b count s
  | .fork gd a b imm => Sys2Proof.Machine.execFork gd a b imm s
  | .join gd a b => Sys2Proof.Machine.execJoin gd a b s
  | .spawn gd a b sh imm => Sys2Proof.Machine.execSpawn gd a b sh imm s
  | .yield gd a b => Sys2Proof.Machine.execYield gd a b s
  | .exit gd a => Sys2Proof.Machine.execExit gd a s
  | .wfw gd d a => Sys2Proof.Machine.execWfw gd d a s
  | .send gd a b n tag => Sys2Proof.Machine.execSend gd a b n tag s
  | .recv gd d a n => Sys2Proof.Machine.execRecv gd d a n s
  | .enq gd a b c ack => Sys2Proof.Machine.execEnq gd a b c ack s
  | .deq gd d a c => Sys2Proof.Machine.execDeq gd d a c s
  | .qres gd d a b => Sys2Proof.Machine.execQres gd d a b s
  | .qprobe gd d a b => Sys2Proof.Machine.execQprobe gd d a b s
  | .ld gd d a sz sgn imm => Sys2Proof.Machine.execLd gd d a sz sgn imm s
  | .st gd d a sz imm => Sys2Proof.Machine.execSt gd d a sz imm s
  | .ldx gd d a b sz sgn sh => Sys2Proof.Machine.execLdx gd d a b sz sgn sh s
  | .stx gd d a b sz sh => Sys2Proof.Machine.execStx gd d a b sz sh s
  | .ldf gd d a sz sgn rlx imm => Sys2Proof.Machine.execLdf gd d a sz sgn rlx imm s
  | .stf gd d a sz rlx imm => Sys2Proof.Machine.execStf gd d a sz rlx imm s
  | .take gd d a b sz sgn => Sys2Proof.Machine.execTake gd d a b sz sgn s
  | .put gd d a b sz => Sys2Proof.Machine.execPut gd d a b sz s
  | .peek gd d a b sz sgn => Sys2Proof.Machine.execPeek gd d a b sz sgn s
  | .feset gd a b st => Sys2Proof.Machine.execFeset gd a b st s
  | .feget gd d a o => Sys2Proof.Machine.execFeget gd d a o s
  | .amo gd d a b op dbl rlx => Sys2Proof.Machine.execAmo gd d a b op dbl rlx s
  | .cas gd d a b c op dbl rlx => Sys2Proof.Machine.execCas gd d a b c op dbl rlx s
  | .red gd a b op dbl => Sys2Proof.Machine.execRed gd a b op dbl s
  | .waitc gd a imm => Sys2Proof.Machine.execWaitc gd a imm s
  | .fence gd d a mask => Sys2Proof.Machine.execFence gd d a mask s
  | .xfence gd a frm tgt => Sys2Proof.Machine.execXfence gd a frm tgt s
  | .go gd a => Sys2Proof.Machine.execGo gd a s
  | .back gd => Sys2Proof.Machine.execBack gd s
  | .mld gd d a sz sgn imm => Sys2Proof.Machine.execMld gd d a sz sgn imm s
  | .mst gd d a sz imm => Sys2Proof.Machine.execMst gd d a sz imm s
  | .mamo gd d a b c op dbl rlx => Sys2Proof.Machine.execMamo gd d a b c op dbl rlx s
  | .remup gd a b op dbl => Sys2Proof.Machine.execRemup gd a b op dbl s
  | .tlook gd d a => Sys2Proof.Machine.execTlook gd d a s
  | .tins gd a b fill dirty => Sys2Proof.Machine.execTins gd a b fill dirty s
  | .tdel gd a wide => Sys2Proof.Machine.execTdel gd a wide s
  | .hnd gd d a left => Sys2Proof.Machine.execHnd gd d a left s
  | .narrow gd a => Sys2Proof.Machine.execNarrow gd a s
  | .union gd d a n => Sys2Proof.Machine.execUnion gd d a n s
  | .livemask gd d a => Sys2Proof.Machine.execLivemask gd d a s
  | .cancel gd a => Sys2Proof.Machine.execCancel gd a s
  | .adopt gd a => Sys2Proof.Machine.execAdopt gd a s
  | .rbegin gd d a imm => Sys2Proof.Machine.execRbegin gd d a imm s
  | .rcommit gd => Sys2Proof.Machine.execRcommit gd s
  | .rabort gd => Sys2Proof.Machine.execRabort gd s
  | .rstat gd d => Sys2Proof.Machine.execRstat gd d s
  | .fadd gd d a b ty rm => Sys2Proof.Machine.execFadd gd d a b ty rm s
  | .fsub gd d a b ty rm => Sys2Proof.Machine.execFsub gd d a b ty rm s
  | .fmul gd d a b ty rm => Sys2Proof.Machine.execFmul gd d a b ty rm s
  | .fma gd d a b c ty rm => Sys2Proof.Machine.execFma gd d a b c ty rm s
  | .fdiv gd d a b ty rm => Sys2Proof.Machine.execFdiv gd d a b ty rm s
  | .fsqrt gd d a ty rm => Sys2Proof.Machine.execFsqrt gd d a ty rm s
  | .frsq gd d a ty rm => Sys2Proof.Machine.execFrsq gd d a ty rm s
  | .fmin gd d a b ty => Sys2Proof.Machine.execFmin gd d a b ty s
  | .fmax gd d a b ty => Sys2Proof.Machine.execFmax gd d a b ty s
  | .fcmp gd d a b ty fc => Sys2Proof.Machine.execFcmp gd d a b ty fc s
  | .fcvt gd d a tgt frm rm sat => Sys2Proof.Machine.execFcvt gd d a tgt frm rm sat s
  | .fclass gd d a ty => Sys2Proof.Machine.execFclass gd d a ty s
  | .fexp2 gd d a ty rm => Sys2Proof.Machine.execFexp2 gd d a ty rm s
  | .flog2 gd d a ty rm => Sys2Proof.Machine.execFlog2 gd d a ty rm s
  | .vld gd d a esz mk z imm => Sys2Proof.Machine.execVld gd d a esz mk z imm s
  | .vst gd d a esz mk imm => Sys2Proof.Machine.execVst gd d a esz mk imm s
  | .vlds gd d a b ty mk z => Sys2Proof.Machine.execVlds gd d a b ty mk z s
  | .vsts gd d a b ty mk => Sys2Proof.Machine.execVsts gd d a b ty mk s
  | .vbcast gd d a ty mk z => Sys2Proof.Machine.execVbcast gd d a ty mk z s
  | .vext gd d a ty lane => Sys2Proof.Machine.execVext gd d a ty lane s
  | .vins gd d a ty lane => Sys2Proof.Machine.execVins gd d a ty lane s
  | .vadd gd d a b ty rm mk z => Sys2Proof.Machine.execVadd gd d a b ty rm mk z s
  | .vsub gd d a b ty rm mk z => Sys2Proof.Machine.execVsub gd d a b ty rm mk z s
  | .vmul gd d a b ty rm mk z => Sys2Proof.Machine.execVmul gd d a b ty rm mk z s
  | .vfma gd d a b c ty rm mk z => Sys2Proof.Machine.execVfma gd d a b c ty rm mk z s
  | .vmin gd d a b ty mk z => Sys2Proof.Machine.execVmin gd d a b ty mk z s
  | .vmax gd d a b ty mk z => Sys2Proof.Machine.execVmax gd d a b ty mk z s
  | .vabs gd d a ty mk z => Sys2Proof.Machine.execVabs gd d a ty mk z s
  | .vdiv gd d a b ty rm mk z => Sys2Proof.Machine.execVdiv gd d a b ty rm mk z s
  | .vsqrt gd d a ty rm mk z => Sys2Proof.Machine.execVsqrt gd d a ty rm mk z s
  | .vrsq gd d a ty rm mk z => Sys2Proof.Machine.execVrsq gd d a ty rm mk z s
  | .vexp2 gd d a ty rm mk z => Sys2Proof.Machine.execVexp2 gd d a ty rm mk z s
  | .vlog2 gd d a ty rm mk z => Sys2Proof.Machine.execVlog2 gd d a ty rm mk z s
  | .vand gd d a b ty mk z => Sys2Proof.Machine.execVand gd d a b ty mk z s
  | .vor gd d a b ty mk z => Sys2Proof.Machine.execVor gd d a b ty mk z s
  | .vxor gd d a b ty mk z => Sys2Proof.Machine.execVxor gd d a b ty mk z s
  | .vshl gd d a b ty mk z => Sys2Proof.Machine.execVshl gd d a b ty mk z s
  | .vshr gd d a b ty mk z => Sys2Proof.Machine.execVshr gd d a b ty mk z s
  | .vcmp gd d a b ty fc mk => Sys2Proof.Machine.execVcmp gd d a b ty fc mk s
  | .vsel gd d a b c ty => Sys2Proof.Machine.execVsel gd d a b c ty s
  | .vcvt gd d a tgt frm rm sat part => Sys2Proof.Machine.execVcvt gd d a tgt frm rm sat part s
  | .vred gd d a op ty rm mk => Sys2Proof.Machine.execVred gd d a op ty rm mk s
  | .vscan gd d a op ty rm mk => Sys2Proof.Machine.execVscan gd d a op ty rm mk s
  | .vperm gd d a b ty mk z => Sys2Proof.Machine.execVperm gd d a b ty mk z s
  | .vmlog gd d a b table isG => Sys2Proof.Machine.execVmlog gd d a b table isG s
  | .vmpop gd d a raw => Sys2Proof.Machine.execVmpop gd d a raw s
  | .barq gd d a b part ty mk z => Sys2Proof.Machine.execBarq gd d a b part ty mk z s
  | .oclaim gd d => Sys2Proof.Machine.execOclaim gd d s
  | .orel gd a => Sys2Proof.Machine.execOrel gd a s
  | .old gd a b c ty layB => Sys2Proof.Machine.execOld gd a b c ty layB s
  | .mma gd a b c zf sc k => Sys2Proof.Machine.execMma gd a b c zf sc k s
  | .ard gd a b c ty => Sys2Proof.Machine.execArd gd a b c ty s
  | .awr gd a b c ty => Sys2Proof.Machine.execAwr gd a b c ty s
  | .aclr gd a kind => Sys2Proof.Machine.execAclr gd a kind s
  | .mstat gd d a => Sys2Proof.Machine.execMstat gd d a s
  | .tbld gd a => Sys2Proof.Machine.execTbld gd a s
  | .pushCopy gd a dist => Sys2Proof.Machine.execPushCopy gd a dist s
  | .pushFill gd a => Sys2Proof.Machine.execPushFill gd a s
  | .pushCode gd a => Sys2Proof.Machine.execPushCode gd a s
  | .pushColl gd a => Sys2Proof.Machine.execPushColl gd a s
  | .pushProgram gd a b => Sys2Proof.Machine.execPushProgram gd a b s
  | .popcRec gd d a => Sys2Proof.Machine.execPopcRec gd d a s
  | .trap gd imm => Sys2Proof.Machine.execTrap gd imm s
  | .rtt gd => Sys2Proof.Machine.execRtt gd s
  | .mfs gd d a n => Sys2Proof.Machine.execMfs gd d a n s
  | .mts gd a n => Sys2Proof.Machine.execMts gd a n s
  | .resume gd d a b key => Sys2Proof.Machine.execResume gd d a b key s
  | .cswap gd a b => Sys2Proof.Machine.execCswap gd a b s
  | .invtlb gd a b scope => Sys2Proof.Machine.execInvtlb gd a b scope s
  | .issueTurn ep lost => Sys2Proof.Machine.execIssueTurn ep lost s
  | .waitTimeout ep slot => Sys2Proof.Machine.execWaitTimeout ep slot s
  | .hostQueueEntryWrite pkg off n entry => Sys2Proof.Machine.execHostQueueEntryWrite pkg off n entry s
  | .entryAdmission pkg q => Sys2Proof.Machine.execEntryAdmission pkg q s
  | .hostCancelWrite pkg off n w => Sys2Proof.Machine.execHostCancelWrite pkg off n w s
  | .hostDataWrite pkg off n data => Sys2Proof.Machine.execHostDataWrite pkg off n data s
  | .hostDataRead pkg off n => Sys2Proof.Machine.execHostDataRead pkg off n s
  | .dispatchEntry pkg => Sys2Proof.Machine.execDispatchEntry pkg s
  | .launchHeaderRead pkg k => Sys2Proof.Machine.execLaunchHeaderRead pkg k s
  | .dispenserExamine pkg cl k => Sys2Proof.Machine.execDispenserExamine pkg cl k s
  | .frameReentry pkg cl k => Sys2Proof.Machine.execFrameReentry pkg cl k s
  | .instantLapse pkg h => Sys2Proof.Machine.execInstantLapse pkg h s
  | .lapseBroadcastApply pkg die k => Sys2Proof.Machine.execLapseBroadcastApply pkg die k s
  | .settleExpiry pkg h => Sys2Proof.Machine.execSettleExpiry pkg h s
  | .heldRecordRetry pkg q => Sys2Proof.Machine.execHeldRecordRetry pkg q s
  | .dropReport k => Sys2Proof.Machine.execDropReport k s
  | .gatewayEgress k => Sys2Proof.Machine.execGatewayEgress k s
  | .gatewayIngress k => Sys2Proof.Machine.execGatewayIngress k s
  | .exportNotice k => Sys2Proof.Machine.execExportNotice k s
  | .proxyReport k => Sys2Proof.Machine.execProxyReport k s
  | .cancelPropagation k => Sys2Proof.Machine.execCancelPropagation k s
  | .unionChangePropagation k => Sys2Proof.Machine.execUnionChangePropagation k s
  | .fabricIngress k => Sys2Proof.Machine.execFabricIngress k s
  | .replyArrival k => Sys2Proof.Machine.execReplyArrival k s
  | .messageInjection k => Sys2Proof.Machine.execMessageInjection k s
  | .messageDelivery k => Sys2Proof.Machine.execMessageDelivery k s
  | .heldMessageRelease ep k => Sys2Proof.Machine.execHeldMessageRelease ep k s
  | .remoteEnqArrival k => Sys2Proof.Machine.execRemoteEnqArrival k s
  | .qresRequestArrival k => Sys2Proof.Machine.execQresRequestArrival k s
  | .qresGrantArrival k => Sys2Proof.Machine.execQresGrantArrival k s
  | .dtlEntryTimeout ep k => Sys2Proof.Machine.execDtlEntryTimeout ep k s
  | .destWriteQueueWrite ep => Sys2Proof.Machine.execDestWriteQueueWrite ep s
  | .tileWriteQueueWrite ep => Sys2Proof.Machine.execTileWriteQueueWrite ep s
  | .copyPieceDispatch k => Sys2Proof.Machine.execCopyPieceDispatch k s
  | .fillPatternRead k => Sys2Proof.Machine.execFillPatternRead k s
  | .pieceAtOwner k => Sys2Proof.Machine.execPieceAtOwner k s
  | .pieceAtRecipient k => Sys2Proof.Machine.execPieceAtRecipient k s
  | .pieceReport k => Sys2Proof.Machine.execPieceReport k s
  | .codeSegmentLanded k => Sys2Proof.Machine.execCodeSegmentLanded k s
  | .codesegWrite ep w => Sys2Proof.Machine.execCodesegWrite ep w s
  | .programCommandArrival k => Sys2Proof.Machine.execProgramCommandArrival k s
  | .programCommandDelivery ep => Sys2Proof.Machine.execProgramCommandDelivery ep s
  | .collChunkSend pkg k => Sys2Proof.Machine.execCollChunkSend pkg k s
  | .collChunkArrival k => Sys2Proof.Machine.execCollChunkArrival k s
  | .reductionBlockDelivery ep => Sys2Proof.Machine.execReductionBlockDelivery ep s
  | .collParticipantFailure k => Sys2Proof.Machine.execCollParticipantFailure k s
  | .collTimeout pkg k => Sys2Proof.Machine.execCollTimeout pkg k s
  | .qprobeReturn k => Sys2Proof.Machine.execQprobeReturn k s
  | .lineBufferAccess k => Sys2Proof.Machine.execLineBufferAccess k s
  | .lineFillComplete ep k => Sys2Proof.Machine.execLineFillComplete ep k s
  | .victimWriteback ep k ok markOk => Sys2Proof.Machine.execVictimWriteback ep k ok markOk s
  | .patrolScrubRead ep line => Sys2Proof.Machine.execPatrolScrubRead ep line s
  | .mirrorWriteApply k => Sys2Proof.Machine.execMirrorWriteApply k s
  | .mirrorTimeout k => Sys2Proof.Machine.execMirrorTimeout k s
  | .joinBusyRetry ep slot => Sys2Proof.Machine.execJoinBusyRetry ep slot s
  | .migrantArrival k => Sys2Proof.Machine.execMigrantArrival k s
  | .migrantQueueAdmit ep => Sys2Proof.Machine.execMigrantQueueAdmit ep s
  | .migrantReturn k => Sys2Proof.Machine.execMigrantReturn k s
  | .pageWalkStep die k => Sys2Proof.Machine.execPageWalkStep die k s
  | .invtlbApply pkg die => Sys2Proof.Machine.execInvtlbApply pkg die s
  | .regionBeginRequest die k => Sys2Proof.Machine.execRegionBeginRequest die k s
  | .regionAccessEdges die k => Sys2Proof.Machine.execRegionAccessEdges die k s
  | .regionCommitRequest die k => Sys2Proof.Machine.execRegionCommitRequest die k s
  | .sealAtOwner die k => Sys2Proof.Machine.execSealAtOwner die k s
  | .sealAck die k => Sys2Proof.Machine.execSealAck die k s
  | .resolveAtOwner die k => Sys2Proof.Machine.execResolveAtOwner die k s
  | .resolveAck die k => Sys2Proof.Machine.execResolveAck die k s
  | .discardAtOwner die k => Sys2Proof.Machine.execDiscardAtOwner die k s
  | .abortDelivery die k => Sys2Proof.Machine.execAbortDelivery die k s
  | .regionInstantTest die k => Sys2Proof.Machine.execRegionInstantTest die k s
  | .regionWaitTimeout die k => Sys2Proof.Machine.execRegionWaitTimeout die k s
  | .boundaryClose die r => Sys2Proof.Machine.execBoundaryClose die r s
  | .rectangleResetComplete die r => Sys2Proof.Machine.execRectangleResetComplete die r s
  | .containmentRelease die r => Sys2Proof.Machine.execContainmentRelease die r s
  | .arecWrite die r w => Sys2Proof.Machine.execArecWrite die r w s
  | .oldComplete ep => Sys2Proof.Machine.execOldComplete ep s
  | .ardComplete ep => Sys2Proof.Machine.execArdComplete ep s
  | .awrComplete ep => Sys2Proof.Machine.execAwrComplete ep s
  | .mmaStart ep => Sys2Proof.Machine.execMmaStart ep s
  | .mmaKStep ep => Sys2Proof.Machine.execMmaKStep ep s
  | .aclrApply ep k => Sys2Proof.Machine.execAclrApply ep k s
  | .xfenceComplete ep slot => Sys2Proof.Machine.execXfenceComplete ep slot s
  | .linkFlitCrcFail pkg port => Sys2Proof.Machine.execLinkFlitCrcFail pkg port s
  | .kblFlitCrcFail pkg => Sys2Proof.Machine.execKblFlitCrcFail pkg s
  | .timeSyncFlit pkg master => Sys2Proof.Machine.execTimeSyncFlit pkg master s
  | .powerGood pkg => Sys2Proof.Machine.execPowerGood pkg s
  | .kblTrained pkg => Sys2Proof.Machine.execKblTrained pkg s
  | .bootGo pkg => Sys2Proof.Machine.execBootGo pkg s
  | .bootVerify pkg => Sys2Proof.Machine.execBootVerify pkg s
  | .firmwareInitComplete pkg now links regs tables => Sys2Proof.Machine.execFirmwareInitComplete pkg now links regs tables s
  | .attestationRequest pkg w => Sys2Proof.Machine.execAttestationRequest pkg w s
  | .attestationDone pkg => Sys2Proof.Machine.execAttestationDone pkg s
  | .commitWrite pkg w => Sys2Proof.Machine.execCommitWrite pkg w s
  | .commitComplete pkg => Sys2Proof.Machine.execCommitComplete pkg s
  | .lostclrWrite pkg w => Sys2Proof.Machine.execLostclrWrite pkg w s
  | .chstatWrite ep w => Sys2Proof.Machine.execChstatWrite ep w s
  | .islctlWrite pkg isl w => Sys2Proof.Machine.execIslctlWrite pkg isl w s
  | .counterReadClear pkg => Sys2Proof.Machine.execCounterReadClear pkg s
  | .evreadWrite pkg w => Sys2Proof.Machine.execEvreadWrite pkg w s
  | .managementRegisterWrite pkg off w => Sys2Proof.Machine.execManagementRegisterWrite pkg off w s
  | .eventLogPlace pkg k => Sys2Proof.Machine.execEventLogPlace pkg k s
  | .eventGapTimeout pkg => Sys2Proof.Machine.execEventGapTimeout pkg s
  | .telemetrySample pkg isl mv temp watts => Sys2Proof.Machine.execTelemetrySample pkg isl mv temp watts s
  | .droopStretchStart pkg isl sag => Sys2Proof.Machine.execDroopStretchStart pkg isl sag s
  | .droopStretchEnd pkg isl sag => Sys2Proof.Machine.execDroopStretchEnd pkg isl sag s
  | .instantUnitRequest pkg => Sys2Proof.Machine.execInstantUnitRequest pkg s
  | .exportNoticeAck k => Sys2Proof.Machine.execExportNoticeAck k s
  | .reservationReturn k => Sys2Proof.Machine.execReservationReturn k s
  | .swapImageWritten ep slot => Sys2Proof.Machine.execSwapImageWritten ep slot s
  | .timeSyncLost pkg err => Sys2Proof.Machine.execTimeSyncLost pkg err s
  | .powerLoss pkg => Sys2Proof.Machine.execPowerLoss pkg s

end Sys2Proof.Machine
end

