-- ==== Sys2Proof/Machine/Tables.lean ====
section
/-! DEFINITION. What a step reads of the tables in DRAM before it happens (R80, R83, R93, R95, R470): the entries of the context, queue,
communicator and group tables of which the units of the package keep copies, and the entries of peer maps and virtual-core maps. -/

namespace Sys2Proof.Machine

/-- What a step uses: entries of tables, by package, table and index, and words of maps, by address and bytes. -/
structure Uses where
  entries : List (Nat × Nat × Nat)
  words : List (Nat × Nat)
  deriving DecidableEq, Repr

/-- Nothing is used. -/
def Uses.none : Uses := ⟨[], []⟩

/-- Two steps' uses. -/
def Uses.and (a b : Uses) : Uses := ⟨a.entries ++ b.entries, a.words ++ b.words⟩

/-- The record of a context. -/
def useCtx (pkg : Nat) (c : Ctx) : Uses := ⟨[(pkg, 0, c.toNat)], []⟩

/-- A queue's descriptor, and the record of its context. -/
def useQueue (s : State) (pkg q : Nat) : Uses := ⟨[(pkg, 1, q), (pkg, 0, (qCtx (qDesc s pkg q)).toNat)], []⟩

/-- A communicator's descriptor. -/
def useComm (pkg k : Nat) : Uses := ⟨[(pkg, 2, k)], []⟩

/-- An entry of a virtual-core map (R22). -/
def useVcore (s : State) (pkg : Nat) (c : Ctx) (v : Nat) : Uses :=
  if v < ctxVclen s pkg c then ⟨[], [(vcAddr s pkg c v, 8)]⟩ else .none

/-- An entry of a peer map (R17): entry 0 stands for the own package and is readable like the others. -/
def usePeer (own : Nat) (peermap : BitVec 44) (p : Nat) : Uses :=
  let base := peermap.toNat * 2 ^ 12
  if paPkg base == own && populated base 4096 then ⟨[], [(base + 4 * p, 4)]⟩ else .none

/-- A fabric operand of a thread (R14): its peer, and on the own package its virtual core. -/
def useFabric (s : State) (own : Nat) (ctx : Ctx) (peermap : BitVec 44) (a : Word) : Uses :=
  if a.toNat / 2 ^ 62 != 1 then .none
  else
    (usePeer own peermap (peerIndex a)).and
      (match peerOf s own peermap (peerIndex a) with
      | some (pkg, _) => if pkg == own then useVcore s own ctx (bitsAt a.toNat 39 24) else .none
      | none => .none)

/-- A queue selector of a thread (R351): its peer, and on the own package its queue. -/
def useSel (s : State) (own : Nat) (peermap : BitVec 44) (w : Word) : Uses :=
  (usePeer own peermap (selPeer w)).and
    (match peerOf s own peermap (selPeer w) with
    | some (pkg, _) => if pkg == own then useQueue s own (selQueue w) else .none
    | none => .none)

/-- What an instruction of a thread uses besides its context's record. -/
def useOperands (s : State) (own : Nat) (t : Thread) (i : Instr) : Uses :=
  let at_ := fun (a : Word) => useFabric s own t.ctx t.sr.peermap a
  match i with
  | .ldf _ _ a _ _ _ imm => at_ (dispAddr t a imm)
  | .stf _ _ a _ _ imm => at_ (dispAddr t a imm)
  | .take _ _ a _ _ _ | .put _ _ a _ _ | .peek _ _ a _ _ _ | .feget _ _ a _ | .feset _ a _ _ | .amo _ _ a _ _ _ _
  | .cas _ _ a _ _ _ _ _ | .red _ a _ _ _ | .join _ a _ | .send _ a _ _ _ => at_ (gr t a)
  | .fork _ _ b _ => at_ (gr t b)
  | .enq _ a _ _ _ | .deq _ _ a _ | .qres _ _ a _ => useSel s own t.sr.peermap (gr t a)
  | .spawn _ _ b _ _ => useSel s own t.sr.peermap (gr t b)
  | .pushColl _ a => useComm own (colComm (cmdWords t a))
  | _ => .none

/-- What an instruction of the slot that holds the turn uses. -/
def usesOfInstr (s : State) (u : Turn) (i : Instr) : Uses := match s.thr? u.ep u.slot with
  | some t => (useCtx (epPkg u.ep) t.ctx).and (useOperands s (epPkg u.ep) t i)
  | none => .none

/-- What an arriving packet uses at a package. -/
def usesOfBody (s : State) (pkg : Nat) (ctx : Ctx) : Body → Uses
  | .access (some v) .. | .message v .. => useVcore s pkg ctx v
  | .pieceRead _ src .. | .patternRead _ src .. => match src.vcore with
    | some v => useVcore s pkg ctx v
    | none => .none
  | .pieceWrite _ dst .. => match dst.vcore with
    | some v => useVcore s pkg ctx v
    | none => .none
  | .enq q .. | .qresReq q _ | .qresReturn q _ => useQueue s pkg q
  | .chunk k .. | .partFail k .. => useComm pkg k
  | _ => .none

/-- The packet that something concerns. -/
def evPacket : Ev → Option Nat
  | .gatewayIngress k | .fabricIngress k | .messageDelivery k | .remoteEnqArrival k | .qresRequestArrival k | .qresGrantArrival k
  | .reservationReturn k | .pieceAtOwner k | .pieceAtRecipient k | .fillPatternRead k | .collChunkArrival k | .collParticipantFailure k
  | .lineBufferAccess k | .mirrorWriteApply k | .migrantArrival k | .migrantReturn k | .programCommandArrival k | .replyArrival k
  | .mirrorTimeout k => some k
  | _ => none

/-- What a command of a copy engine uses (R25, R27). -/
def usesOfCmd (s : State) (c : Cmd) : Uses :=
  let own := epPkg c.ep
  let side := fun (n : Nat) => useFabric s own c.req.ctx c.peermap (c.side n)
  let group : Uses := if (c.side 1).toNat / 2 ^ 62 == 3 then ⟨[(own, 3, bitsAt (c.side 1).toNat 49 38)], []⟩ else .none
  if c.landing then .none else (useCtx own c.req.ctx).and ((side 0).and ((side 1).and group))

/-- What something that happens uses. -/
def usesOfEv (s : State) (ev : Ev) : Uses := match ev with
  | .hostQueueEntryWrite pkg off .. => useQueue s pkg (off / 64)
  | .hostCancelWrite pkg off .. => useQueue s pkg (off / 8)
  | .entryAdmission pkg q | .heldRecordRetry pkg q => useQueue s pkg q
  | .dispatchEntry pkg | .invtlbApply pkg _ => ((s.pkg pkg).queues.map (·.1)).foldl (fun u q => u.and (useQueue s pkg q)) .none
  | .launchHeaderRead pkg k => match (s.pkg pkg).headerReads[k]? with
    | some (q, _) => useQueue s pkg q
    | none => .none
  | .dispenserExamine pkg cl k => match (s.cluster (pkg * 256 + cl)).packets[k]? with
    | some p => (useCtx pkg p.ctx).and (useVcore s pkg p.ctx p.grp)
    | none => .none
  | .frameReentry pkg cl k => match (s.cluster (pkg * 256 + cl)).frames[k]? with
    | some f => (useCtx pkg f.ctx).and (useVcore s pkg f.ctx f.vcore)
    | none => .none
  | .copyPieceDispatch k => match s.cmds[k]? with
    | some c => usesOfCmd s c
    | none => .none
  | .collChunkSend pkg k | .collTimeout pkg k => match (s.pkg pkg).colls[k]? with
    | some c => (useCtx pkg c.req.ctx).and (useComm pkg c.comm)
    | none => .none
  | ev => match (evPacket ev).bind fun k => s.net[k]? with
    | some p => (useCtx (epPkg p.dst) p.req.ctx).and (usesOfBody s (epPkg p.dst) p.req.ctx p.body)
    | none => .none

/-- What a step uses is read at its home (R80), the tables' entries once for as long as their copies are kept; none where a read must wait behind
what uses its line (R82), and with it the step. -/
def readTables (s : State) (x : Uses) : Option State :=
  if x.entries.any (fun (pkg, kind, i) => entryWaits s pkg kind i) || x.words.any (fun (a, n) => unitBusy s a n) then none
  else some (x.words.foldl (fun s (a, n) => unitRead s a n) (x.entries.foldl (fun s (pkg, kind, i) => noteEntry s pkg kind i) s))

/-- The instruction of a turn runs once what it uses has been read; else the turn passes. -/
def runInstr (s : State) (u : Turn) (i : Instr) : Host.Outcome State Fault Refusal := match readTables s (usesOfInstr s u i) with
  | some s => exec i s
  | none => .next s.noTurn

/-- Something happens once what it uses has been read; else it comes again in a later round. -/
def happen (s : State) (ev : Ev) : Host.Outcome State Fault Refusal := match readTables s (usesOfEv s ev) with
  | some s => runEv ev s
  | none => .next s

end Sys2Proof.Machine
end

