-- ==== Sys2Proof/Machine/Step.lean ====
section
/-! DEFINITION. One step of the domain: the turn that is under way fetches and runs its instruction; else the next thing that is to
happen happens (log 2); each once what it uses of the tables in DRAM has been read (R470). -/

namespace Sys2Proof.Machine

open Sys2Proof

/-- One step. -/
def step (s : State) : Host.Outcome State Fault Refusal :=
  match s.turn with
  | some u =>
    match fetchTurn s u with
    | .trapped s => .next s
    | .run i s => runInstr s u i
  | none =>
    match nextOcc s with
    | some (ev, s) => happen s ev
    | none => .next (startRound s)

/-- The state with an instruction placed where the next step fetches (log 1). -/
def State.withFetchWord (s : State) (nbits w : Nat) : State := placeFetchWord s nbits w

end Sys2Proof.Machine
end

