-- ==== Sys2Proof/Laws/PerInstr.lean ====
section
/-! SUPPORT. For each instruction: what the encoder writes, the decoder reads back (R312 to R323). A PUSH of engine 0 reads as COPY,
since which of COPY and FILL it is stands in its command (R326). -/

namespace Sys2Proof.Laws.RoundTrip

/-- The instruction that the decoder reads from the words of an instruction: itself, but for FILL, whose words are those of COPY. -/
def read : Instr → Instr
  | .pushFill gd a => .pushCopy gd a false
  | i => i

/-- A well-formed instruction's head fits 16 bits, its tail fits the halfwords that TL counts, and the decoder reads it back. -/
def Statement (i : Instr) : Prop :=
  i.wf = true → decodeHead (encode i).1 (encode i).2 = .ok (read i) ∧ (encode i).1 < 2 ^ 16
    ∧ (encode i).2 < 2 ^ (16 * fld (encode i).1 13 3)

theorem hd_op (tl op : Nat) (gd : Guard) (h : op < 512) : fld (hd tl gd op) 0 9 = op := by
  have := gd.pg.isLt
  have := gd.pn.toNat_le
  simp only [fld, hd]
  omega

theorem hd_tl (tl op : Nat) (gd : Guard) (h : op < 512) (ht : tl < 8) : fld (hd tl gd op) 13 3 = tl := by
  have := gd.pg.isLt
  have := gd.pn.toNat_le
  simp only [fld, hd]
  omega

theorem hd_lt (tl op : Nat) (gd : Guard) (h : op < 512) (ht : tl < 8) : hd tl gd op < 2 ^ 16 := by
  have := gd.pg.isLt
  have := gd.pn.toNat_le
  simp only [hd]
  omega

/-- A field of the width of a bit vector is that bit vector. -/
theorem bv_mk {T lo w : Nat} (x : BitVec w) (h : T / 2 ^ lo % 2 ^ w = x.toNat) : bv T lo w = x := by
  apply BitVec.eq_of_toNat_eq
  rw [bv, BitVec.toNat_ofNat, h]

/-- A one bit field is that bit. -/
theorem bt_mk {T lo : Nat} (b : Bool) (h : T / 2 ^ lo % 2 = b.toNat) : bt T lo = b := by
  rw [bt, h]
  cases b <;> rfl

theorem zr_mk {T lo w : Nat} (h : T / 2 ^ lo % 2 ^ w = 0) : zr T lo w = true := by
  simp only [zr, fld, h, beq_self_eq_true]

theorem hd_guard (tl op : Nat) (gd : Guard) (h : op < 512) (ht : tl < 8) : guardOf (hd tl gd op) = gd := by
  obtain ⟨pg, pn⟩ := gd
  have h1 := pg.isLt
  have h2 := pn.toNat_le
  have e1 : bv (hd tl ⟨pg, pn⟩ op) 10 3 = pg := bv_mk _ (by simp only [hd]; omega)
  have e2 : bt (hd tl ⟨pg, pn⟩ op) 9 = pn := bt_mk _ (by simp only [hd]; omega)
  rw [guardOf, e1, e2]

theorem ty_mk {T lo : Nat} (x : Ty) (h : T / 2 ^ lo % 2 ^ 4 = x.code) : ty? (fld T lo 4) = some x := by
  rw [fld, h]
  cases x <;> rfl

theorem rnd_mk {T lo : Nat} (x : Rnd) (h : T / 2 ^ lo % 2 ^ 3 = x.code) : rnd? (fld T lo 3) = some x := by
  rw [fld, h]
  cases x <;> rfl

theorem cond_mk {T lo : Nat} (x : Cond) (h : T / 2 ^ lo % 2 ^ 4 = x.code) : cond? (fld T lo 4) = some x := by
  rw [fld, h]
  cases x <;> rfl

theorem fcond_mk {T lo w : Nat} (x : FCond) (h : T / 2 ^ lo % 2 ^ w = x.code) : fcond? (fld T lo w) = some x := by
  rw [fld, h]
  cases x <;> rfl

/-- The SB and b fields of an operand read back. -/
theorem bop_mk {T : Nat} (b : BOp) (h1 : T / 2 ^ 27 % 2 = encB b / 2 ^ 27) (h2 : T / 2 ^ 10 % 2 ^ 5 = encB b / 2 ^ 10 % 2 ^ 5) :
    bop? T = some b := by
  cases b with
  | v r =>
    have := r.isLt
    have e1 : bt T 27 = false := bt_mk false (by simp only [encB] at *; simp only [Bool.toNat_false]; omega)
    have e2 : zr T 13 2 = true := zr_mk (by simp only [encB] at *; omega)
    have e3 : bv T 10 3 = r := bv_mk _ (by simp only [encB] at *; omega)
    rw [bop?, e1, e2, e3]
    rfl
  | g r =>
    have := r.isLt
    have e1 : bt T 27 = true := bt_mk true (by simp only [encB] at *; simp only [Bool.toNat_true]; omega)
    have e3 : bv T 10 5 = r := bv_mk _ (by simp only [encB] at *; omega)
    rw [bop?, e1, e3]
    rfl

theorem encB_le (b : BOp) : ∃ s r, encB b = s * 2 ^ 27 + r * 2 ^ 10 ∧ s ≤ 1 ∧ r < 32 := by
  cases b with
  | v r => exact ⟨0, r.toNat, by simp [encB], by omega, by have := r.isLt; omega⟩
  | g r => exact ⟨1, r.toNat, by simp [encB], by omega, by have := r.isLt; omega⟩

theorem ty_le (x : Ty) : x.code < 16 := by cases x <;> decide
theorem rnd_le (x : Rnd) : x.code < 8 := by cases x <;> decide
theorem cond_le (x : Cond) : x.code < 16 := by cases x <;> decide
theorem fcond_le (x : FCond) : x.code < 8 := by cases x <;> decide

/-- An event has no words. -/
theorem event {i : Instr} (he : encode i = (0, 0)) (hn : i ≠ .nop ⟨0, false⟩) : Statement i := by
  have h : i.isEvent = true := by
    simp only [Instr.isEvent, he, Bool.and_eq_true, Bool.not_eq_true', beq_eq_false_iff_ne]
    exact ⟨by decide, hn⟩
  intro h'
  simp only [Instr.wf, h] at h'
  exact absurd h' (by simp)

/-- What is left to show of an instruction once its opcode, tail length and guard are known. -/
theorem of_fields {i : Instr} {tl op T : Nat} {gd : Guard} (he : encode i = (hd tl gd op, T)) (ho : op < 512) (hl : tailLen op = some tl)
    (ht : tl < 8) (hf : decodeFields op T gd = some (read i)) (hw : wfFields (read i) = wfFields i)
    (hT : T < 2 ^ (16 * tl)) : Statement i := by
  intro h
  simp only [Instr.wf, Instr.guard, he, hd_guard tl op gd ho ht, Bool.and_eq_true] at h
  refine ⟨?_, ?_, ?_⟩
  · simp only [decodeHead, he, hd_op tl op gd ho, hd_tl tl op gd ho ht, hd_guard tl op gd ho ht, hl, hf, hw, h.1.2, h.2, beq_self_eq_true,
      Bool.and_self, ite_true]
  · rw [he]; exact hd_lt tl op gd ho ht
  · rw [he, hd_tl tl op gd ho ht]; exact hT

theorem nop (gd : Guard) : Statement (.nop gd) := by
  exact of_fields (tl := 0) (op := 0x000) rfl (by decide) rfl (by decide) rfl rfl (by decide)

theorem add (gd : Guard) (d : Reg) (a : Reg) (b : Reg) : Statement (.add gd d a b) := by
  have := d.isLt
  have := a.isLt
  have := b.isLt
  refine of_fields (tl := 1) (op := 0x001) rfl (by decide) rfl (by decide) ?_ rfl (by (try simp only [Sys2Proof.shl]); omega)
  suffices hh : ∀ T, T = d.toNat + Sys2Proof.shl (a.toNat) 5 + Sys2Proof.shl (b.toNat) 10 → decodeFields 0x001 T gd = some (.add gd d a b) from hh _ rfl
  intro T hT
  have e0 : decodeFields 0x001 T gd = (if zr T 15 1 then some (Instr.add gd (bv T 0 5) (bv T 5 5) (bv T 10 5)) else none) := rfl
  rw [e0,
    zr_mk (lo := 15) (w := 1) (T := T) (by (try simp only [hT, Sys2Proof.shl]); omega)]
  show some (Instr.add gd (bv T 0 5) (bv T 5 5) (bv T 10 5)) = _
  rw [bv_mk (lo := 0) (T := T) d (by (try simp only [hT, Sys2Proof.shl]); omega),
    bv_mk (lo := 5) (T := T) a (by (try simp only [hT, Sys2Proof.shl]); omega),
    bv_mk (lo := 10) (T := T) b (by (try simp only [hT, Sys2Proof.shl]); omega)]
  all_goals rfl

theorem sub (gd : Guard) (d : Reg) (a : Reg) (b : Reg) : Statement (.sub gd d a b) := by
  have := d.isLt
  have := a.isLt
  have := b.isLt
  refine of_fields (tl := 1) (op := 0x002) rfl (by decide) rfl (by decide) ?_ rfl (by (try simp only [Sys2Proof.shl]); omega)
  suffices hh : ∀ T, T = d.toNat + Sys2Proof.shl (a.toNat) 5 + Sys2Proof.shl (b.toNat) 10 → decodeFields 0x002 T gd = some (.sub gd d a b) from hh _ rfl
  intro T hT
  have e0 : decodeFields 0x002 T gd = (if zr T 15 1 then some (Instr.sub gd (bv T 0 5) (bv T 5 5) (bv T 10 5)) else none) := rfl
  rw [e0,
    zr_mk (lo := 15) (w := 1) (T := T) (by (try simp only [hT, Sys2Proof.shl]); omega)]
  show some (Instr.sub gd (bv T 0 5) (bv T 5 5) (bv T 10 5)) = _
  rw [bv_mk (lo := 0) (T := T) d (by (try simp only [hT, Sys2Proof.shl]); omega),
    bv_mk (lo := 5) (T := T) a (by (try simp only [hT, Sys2Proof.shl]); omega),
    bv_mk (lo := 10) (T := T) b (by (try simp only [hT, Sys2Proof.shl]); omega)]
  all_goals rfl

theorem mul (gd : Guard) (d : Reg) (a : Reg) (b : Reg) : Statement (.mul gd d a b) := by
  have := d.isLt
  have := a.isLt
  have := b.isLt
  refine of_fields (tl := 1) (op := 0x004) rfl (by decide) rfl (by decide) ?_ rfl (by (try simp only [Sys2Proof.shl]); omega)
  suffices hh : ∀ T, T = d.toNat + Sys2Proof.shl (a.toNat) 5 + Sys2Proof.shl (b.toNat) 10 → decodeFields 0x004 T gd = some (.mul gd d a b) from hh _ rfl
  intro T hT
  have e0 : decodeFields 0x004 T gd = (if zr T 15 1 then some (Instr.mul gd (bv T 0 5) (bv T 5 5) (bv T 10 5)) else none) := rfl
  rw [e0,
    zr_mk (lo := 15) (w := 1) (T := T) (by (try simp only [hT, Sys2Proof.shl]); omega)]
  show some (Instr.mul gd (bv T 0 5) (bv T 5 5) (bv T 10 5)) = _
  rw [bv_mk (lo := 0) (T := T) d (by (try simp only [hT, Sys2Proof.shl]); omega),
    bv_mk (lo := 5) (T := T) a (by (try simp only [hT, Sys2Proof.shl]); omega),
    bv_mk (lo := 10) (T := T) b (by (try simp only [hT, Sys2Proof.shl]); omega)]
  all_goals rfl

theorem mulh (gd : Guard) (d : Reg) (a : Reg) (b : Reg) : Statement (.mulh gd d a b) := by
  have := d.isLt
  have := a.isLt
  have := b.isLt
  refine of_fields (tl := 1) (op := 0x005) rfl (by decide) rfl (by decide) ?_ rfl (by (try simp only [Sys2Proof.shl]); omega)
  suffices hh : ∀ T, T = d.toNat + Sys2Proof.shl (a.toNat) 5 + Sys2Proof.shl (b.toNat) 10 → decodeFields 0x005 T gd = some (.mulh gd d a b) from hh _ rfl
  intro T hT
  have e0 : decodeFields 0x005 T gd = (if zr T 15 1 then some (Instr.mulh gd (bv T 0 5) (bv T 5 5) (bv T 10 5)) else none) := rfl
  rw [e0,
    zr_mk (lo := 15) (w := 1) (T := T) (by (try simp only [hT, Sys2Proof.shl]); omega)]
  show some (Instr.mulh gd (bv T 0 5) (bv T 5 5) (bv T 10 5)) = _
  rw [bv_mk (lo := 0) (T := T) d (by (try simp only [hT, Sys2Proof.shl]); omega),
    bv_mk (lo := 5) (T := T) a (by (try simp only [hT, Sys2Proof.shl]); omega),
    bv_mk (lo := 10) (T := T) b (by (try simp only [hT, Sys2Proof.shl]); omega)]
  all_goals rfl

theorem mulhn (gd : Guard) (d : Reg) (a : Reg) (b : Reg) : Statement (.mulhn gd d a b) := by
  have := d.isLt
  have := a.isLt
  have := b.isLt
  refine of_fields (tl := 1) (op := 0x006) rfl (by decide) rfl (by decide) ?_ rfl (by (try simp only [Sys2Proof.shl]); omega)
  suffices hh : ∀ T, T = d.toNat + Sys2Proof.shl (a.toNat) 5 + Sys2Proof.shl (b.toNat) 10 → decodeFields 0x006 T gd = some (.mulhn gd d a b) from hh _ rfl
  intro T hT
  have e0 : decodeFields 0x006 T gd = (if zr T 15 1 then some (Instr.mulhn gd (bv T 0 5) (bv T 5 5) (bv T 10 5)) else none) := rfl
  rw [e0,
    zr_mk (lo := 15) (w := 1) (T := T) (by (try simp only [hT, Sys2Proof.shl]); omega)]
  show some (Instr.mulhn gd (bv T 0 5) (bv T 5 5) (bv T 10 5)) = _
  rw [bv_mk (lo := 0) (T := T) d (by (try simp only [hT, Sys2Proof.shl]); omega),
    bv_mk (lo := 5) (T := T) a (by (try simp only [hT, Sys2Proof.shl]); omega),
    bv_mk (lo := 10) (T := T) b (by (try simp only [hT, Sys2Proof.shl]); omega)]
  all_goals rfl

theorem div (gd : Guard) (d : Reg) (a : Reg) (b : Reg) : Statement (.div gd d a b) := by
  have := d.isLt
  have := a.isLt
  have := b.isLt
  refine of_fields (tl := 1) (op := 0x007) rfl (by decide) rfl (by decide) ?_ rfl (by (try simp only [Sys2Proof.shl]); omega)
  suffices hh : ∀ T, T = d.toNat + Sys2Proof.shl (a.toNat) 5 + Sys2Proof.shl (b.toNat) 10 → decodeFields 0x007 T gd = some (.div gd d a b) from hh _ rfl
  intro T hT
  have e0 : decodeFields 0x007 T gd = (if zr T 15 1 then some (Instr.div gd (bv T 0 5) (bv T 5 5) (bv T 10 5)) else none) := rfl
  rw [e0,
    zr_mk (lo := 15) (w := 1) (T := T) (by (try simp only [hT, Sys2Proof.shl]); omega)]
  show some (Instr.div gd (bv T 0 5) (bv T 5 5) (bv T 10 5)) = _
  rw [bv_mk (lo := 0) (T := T) d (by (try simp only [hT, Sys2Proof.shl]); omega),
    bv_mk (lo := 5) (T := T) a (by (try simp only [hT, Sys2Proof.shl]); omega),
    bv_mk (lo := 10) (T := T) b (by (try simp only [hT, Sys2Proof.shl]); omega)]
  all_goals rfl

theorem divn (gd : Guard) (d : Reg) (a : Reg) (b : Reg) : Statement (.divn gd d a b) := by
  have := d.isLt
  have := a.isLt
  have := b.isLt
  refine of_fields (tl := 1) (op := 0x008) rfl (by decide) rfl (by decide) ?_ rfl (by (try simp only [Sys2Proof.shl]); omega)
  suffices hh : ∀ T, T = d.toNat + Sys2Proof.shl (a.toNat) 5 + Sys2Proof.shl (b.toNat) 10 → decodeFields 0x008 T gd = some (.divn gd d a b) from hh _ rfl
  intro T hT
  have e0 : decodeFields 0x008 T gd = (if zr T 15 1 then some (Instr.divn gd (bv T 0 5) (bv T 5 5) (bv T 10 5)) else none) := rfl
  rw [e0,
    zr_mk (lo := 15) (w := 1) (T := T) (by (try simp only [hT, Sys2Proof.shl]); omega)]
  show some (Instr.divn gd (bv T 0 5) (bv T 5 5) (bv T 10 5)) = _
  rw [bv_mk (lo := 0) (T := T) d (by (try simp only [hT, Sys2Proof.shl]); omega),
    bv_mk (lo := 5) (T := T) a (by (try simp only [hT, Sys2Proof.shl]); omega),
    bv_mk (lo := 10) (T := T) b (by (try simp only [hT, Sys2Proof.shl]); omega)]
  all_goals rfl

theorem rem (gd : Guard) (d : Reg) (a : Reg) (b : Reg) : Statement (.rem gd d a b) := by
  have := d.isLt
  have := a.isLt
  have := b.isLt
  refine of_fields (tl := 1) (op := 0x009) rfl (by decide) rfl (by decide) ?_ rfl (by (try simp only [Sys2Proof.shl]); omega)
  suffices hh : ∀ T, T = d.toNat + Sys2Proof.shl (a.toNat) 5 + Sys2Proof.shl (b.toNat) 10 → decodeFields 0x009 T gd = some (.rem gd d a b) from hh _ rfl
  intro T hT
  have e0 : decodeFields 0x009 T gd = (if zr T 15 1 then some (Instr.rem gd (bv T 0 5) (bv T 5 5) (bv T 10 5)) else none) := rfl
  rw [e0,
    zr_mk (lo := 15) (w := 1) (T := T) (by (try simp only [hT, Sys2Proof.shl]); omega)]
  show some (Instr.rem gd (bv T 0 5) (bv T 5 5) (bv T 10 5)) = _
  rw [bv_mk (lo := 0) (T := T) d (by (try simp only [hT, Sys2Proof.shl]); omega),
    bv_mk (lo := 5) (T := T) a (by (try simp only [hT, Sys2Proof.shl]); omega),
    bv_mk (lo := 10) (T := T) b (by (try simp only [hT, Sys2Proof.shl]); omega)]
  all_goals rfl

theorem remn (gd : Guard) (d : Reg) (a : Reg) (b : Reg) : Statement (.remn gd d a b) := by
  have := d.isLt
  have := a.isLt
  have := b.isLt
  refine of_fields (tl := 1) (op := 0x00A) rfl (by decide) rfl (by decide) ?_ rfl (by (try simp only [Sys2Proof.shl]); omega)
  suffices hh : ∀ T, T = d.toNat + Sys2Proof.shl (a.toNat) 5 + Sys2Proof.shl (b.toNat) 10 → decodeFields 0x00A T gd = some (.remn gd d a b) from hh _ rfl
  intro T hT
  have e0 : decodeFields 0x00A T gd = (if zr T 15 1 then some (Instr.remn gd (bv T 0 5) (bv T 5 5) (bv T 10 5)) else none) := rfl
  rw [e0,
    zr_mk (lo := 15) (w := 1) (T := T) (by (try simp only [hT, Sys2Proof.shl]); omega)]
  show some (Instr.remn gd (bv T 0 5) (bv T 5 5) (bv T 10 5)) = _
  rw [bv_mk (lo := 0) (T := T) d (by (try simp only [hT, Sys2Proof.shl]); omega),
    bv_mk (lo := 5) (T := T) a (by (try simp only [hT, Sys2Proof.shl]); omega),
    bv_mk (lo := 10) (T := T) b (by (try simp only [hT, Sys2Proof.shl]); omega)]
  all_goals rfl

theorem and (gd : Guard) (d : Reg) (a : Reg) (b : Reg) : Statement (.and gd d a b) := by
  have := d.isLt
  have := a.isLt
  have := b.isLt
  refine of_fields (tl := 1) (op := 0x00B) rfl (by decide) rfl (by decide) ?_ rfl (by (try simp only [Sys2Proof.shl]); omega)
  suffices hh : ∀ T, T = d.toNat + Sys2Proof.shl (a.toNat) 5 + Sys2Proof.shl (b.toNat) 10 → decodeFields 0x00B T gd = some (.and gd d a b) from hh _ rfl
  intro T hT
  have e0 : decodeFields 0x00B T gd = (if zr T 15 1 then some (Instr.and gd (bv T 0 5) (bv T 5 5) (bv T 10 5)) else none) := rfl
  rw [e0,
    zr_mk (lo := 15) (w := 1) (T := T) (by (try simp only [hT, Sys2Proof.shl]); omega)]
  show some (Instr.and gd (bv T 0 5) (bv T 5 5) (bv T 10 5)) = _
  rw [bv_mk (lo := 0) (T := T) d (by (try simp only [hT, Sys2Proof.shl]); omega),
    bv_mk (lo := 5) (T := T) a (by (try simp only [hT, Sys2Proof.shl]); omega),
    bv_mk (lo := 10) (T := T) b (by (try simp only [hT, Sys2Proof.shl]); omega)]
  all_goals rfl

theorem or (gd : Guard) (d : Reg) (a : Reg) (b : Reg) : Statement (.or gd d a b) := by
  have := d.isLt
  have := a.isLt
  have := b.isLt
  refine of_fields (tl := 1) (op := 0x00C) rfl (by decide) rfl (by decide) ?_ rfl (by (try simp only [Sys2Proof.shl]); omega)
  suffices hh : ∀ T, T = d.toNat + Sys2Proof.shl (a.toNat) 5 + Sys2Proof.shl (b.toNat) 10 → decodeFields 0x00C T gd = some (.or gd d a b) from hh _ rfl
  intro T hT
  have e0 : decodeFields 0x00C T gd = (if zr T 15 1 then some (Instr.or gd (bv T 0 5) (bv T 5 5) (bv T 10 5)) else none) := rfl
  rw [e0,
    zr_mk (lo := 15) (w := 1) (T := T) (by (try simp only [hT, Sys2Proof.shl]); omega)]
  show some (Instr.or gd (bv T 0 5) (bv T 5 5) (bv T 10 5)) = _
  rw [bv_mk (lo := 0) (T := T) d (by (try simp only [hT, Sys2Proof.shl]); omega),
    bv_mk (lo := 5) (T := T) a (by (try simp only [hT, Sys2Proof.shl]); omega),
    bv_mk (lo := 10) (T := T) b (by (try simp only [hT, Sys2Proof.shl]); omega)]
  all_goals rfl

theorem xor (gd : Guard) (d : Reg) (a : Reg) (b : Reg) : Statement (.xor gd d a b) := by
  have := d.isLt
  have := a.isLt
  have := b.isLt
  refine of_fields (tl := 1) (op := 0x00D) rfl (by decide) rfl (by decide) ?_ rfl (by (try simp only [Sys2Proof.shl]); omega)
  suffices hh : ∀ T, T = d.toNat + Sys2Proof.shl (a.toNat) 5 + Sys2Proof.shl (b.toNat) 10 → decodeFields 0x00D T gd = some (.xor gd d a b) from hh _ rfl
  intro T hT
  have e0 : decodeFields 0x00D T gd = (if zr T 15 1 then some (Instr.xor gd (bv T 0 5) (bv T 5 5) (bv T 10 5)) else none) := rfl
  rw [e0,
    zr_mk (lo := 15) (w := 1) (T := T) (by (try simp only [hT, Sys2Proof.shl]); omega)]
  show some (Instr.xor gd (bv T 0 5) (bv T 5 5) (bv T 10 5)) = _
  rw [bv_mk (lo := 0) (T := T) d (by (try simp only [hT, Sys2Proof.shl]); omega),
    bv_mk (lo := 5) (T := T) a (by (try simp only [hT, Sys2Proof.shl]); omega),
    bv_mk (lo := 10) (T := T) b (by (try simp only [hT, Sys2Proof.shl]); omega)]
  all_goals rfl

theorem andn (gd : Guard) (d : Reg) (a : Reg) (b : Reg) : Statement (.andn gd d a b) := by
  have := d.isLt
  have := a.isLt
  have := b.isLt
  refine of_fields (tl := 1) (op := 0x00E) rfl (by decide) rfl (by decide) ?_ rfl (by (try simp only [Sys2Proof.shl]); omega)
  suffices hh : ∀ T, T = d.toNat + Sys2Proof.shl (a.toNat) 5 + Sys2Proof.shl (b.toNat) 10 → decodeFields 0x00E T gd = some (.andn gd d a b) from hh _ rfl
  intro T hT
  have e0 : decodeFields 0x00E T gd = (if zr T 15 1 then some (Instr.andn gd (bv T 0 5) (bv T 5 5) (bv T 10 5)) else none) := rfl
  rw [e0,
    zr_mk (lo := 15) (w := 1) (T := T) (by (try simp only [hT, Sys2Proof.shl]); omega)]
  show some (Instr.andn gd (bv T 0 5) (bv T 5 5) (bv T 10 5)) = _
  rw [bv_mk (lo := 0) (T := T) d (by (try simp only [hT, Sys2Proof.shl]); omega),
    bv_mk (lo := 5) (T := T) a (by (try simp only [hT, Sys2Proof.shl]); omega),
    bv_mk (lo := 10) (T := T) b (by (try simp only [hT, Sys2Proof.shl]); omega)]
  all_goals rfl

theorem shl (gd : Guard) (d : Reg) (a : Reg) (b : Reg) : Statement (.shl gd d a b) := by
  have := d.isLt
  have := a.isLt
  have := b.isLt
  refine of_fields (tl := 1) (op := 0x012) rfl (by decide) rfl (by decide) ?_ rfl (by (try simp only [Sys2Proof.shl]); omega)
  suffices hh : ∀ T, T = d.toNat + Sys2Proof.shl (a.toNat) 5 + Sys2Proof.shl (b.toNat) 10 → decodeFields 0x012 T gd = some (.shl gd d a b) from hh _ rfl
  intro T hT
  have e0 : decodeFields 0x012 T gd = (if zr T 15 1 then some (Instr.shl gd (bv T 0 5) (bv T 5 5) (bv T 10 5)) else none) := rfl
  rw [e0,
    zr_mk (lo := 15) (w := 1) (T := T) (by (try simp only [hT, Sys2Proof.shl]); omega)]
  show some (Instr.shl gd (bv T 0 5) (bv T 5 5) (bv T 10 5)) = _
  rw [bv_mk (lo := 0) (T := T) d (by (try simp only [hT, Sys2Proof.shl]); omega),
    bv_mk (lo := 5) (T := T) a (by (try simp only [hT, Sys2Proof.shl]); omega),
    bv_mk (lo := 10) (T := T) b (by (try simp only [hT, Sys2Proof.shl]); omega)]
  all_goals rfl

theorem shr (gd : Guard) (d : Reg) (a : Reg) (b : Reg) : Statement (.shr gd d a b) := by
  have := d.isLt
  have := a.isLt
  have := b.isLt
  refine of_fields (tl := 1) (op := 0x013) rfl (by decide) rfl (by decide) ?_ rfl (by (try simp only [Sys2Proof.shl]); omega)
  suffices hh : ∀ T, T = d.toNat + Sys2Proof.shl (a.toNat) 5 + Sys2Proof.shl (b.toNat) 10 → decodeFields 0x013 T gd = some (.shr gd d a b) from hh _ rfl
  intro T hT
  have e0 : decodeFields 0x013 T gd = (if zr T 15 1 then some (Instr.shr gd (bv T 0 5) (bv T 5 5) (bv T 10 5)) else none) := rfl
  rw [e0,
    zr_mk (lo := 15) (w := 1) (T := T) (by (try simp only [hT, Sys2Proof.shl]); omega)]
  show some (Instr.shr gd (bv T 0 5) (bv T 5 5) (bv T 10 5)) = _
  rw [bv_mk (lo := 0) (T := T) d (by (try simp only [hT, Sys2Proof.shl]); omega),
    bv_mk (lo := 5) (T := T) a (by (try simp only [hT, Sys2Proof.shl]); omega),
    bv_mk (lo := 10) (T := T) b (by (try simp only [hT, Sys2Proof.shl]); omega)]
  all_goals rfl

theorem sra (gd : Guard) (d : Reg) (a : Reg) (b : Reg) : Statement (.sra gd d a b) := by
  have := d.isLt
  have := a.isLt
  have := b.isLt
  refine of_fields (tl := 1) (op := 0x014) rfl (by decide) rfl (by decide) ?_ rfl (by (try simp only [Sys2Proof.shl]); omega)
  suffices hh : ∀ T, T = d.toNat + Sys2Proof.shl (a.toNat) 5 + Sys2Proof.shl (b.toNat) 10 → decodeFields 0x014 T gd = some (.sra gd d a b) from hh _ rfl
  intro T hT
  have e0 : decodeFields 0x014 T gd = (if zr T 15 1 then some (Instr.sra gd (bv T 0 5) (bv T 5 5) (bv T 10 5)) else none) := rfl
  rw [e0,
    zr_mk (lo := 15) (w := 1) (T := T) (by (try simp only [hT, Sys2Proof.shl]); omega)]
  show some (Instr.sra gd (bv T 0 5) (bv T 5 5) (bv T 10 5)) = _
  rw [bv_mk (lo := 0) (T := T) d (by (try simp only [hT, Sys2Proof.shl]); omega),
    bv_mk (lo := 5) (T := T) a (by (try simp only [hT, Sys2Proof.shl]); omega),
    bv_mk (lo := 10) (T := T) b (by (try simp only [hT, Sys2Proof.shl]); omega)]
  all_goals rfl

theorem shli (gd : Guard) (d : Reg) (a : Reg) (n : BitVec 6) : Statement (.shli gd d a n) := by
  have := d.isLt
  have := a.isLt
  have := n.isLt
  refine of_fields (tl := 1) (op := 0x015) rfl (by decide) rfl (by decide) ?_ rfl (by (try simp only [Sys2Proof.shl]); omega)
  suffices hh : ∀ T, T = d.toNat + Sys2Proof.shl (a.toNat) 5 + Sys2Proof.shl (n.toNat) 10 → decodeFields 0x015 T gd = some (.shli gd d a n) from hh _ rfl
  intro T hT
  have e0 : decodeFields 0x015 T gd = (some (Instr.shli gd (bv T 0 5) (bv T 5 5) (bv T 10 6))) := rfl
  rw [e0]
  show some (Instr.shli gd (bv T 0 5) (bv T 5 5) (bv T 10 6)) = _
  rw [bv_mk (lo := 0) (T := T) d (by (try simp only [hT, Sys2Proof.shl]); omega),
    bv_mk (lo := 5) (T := T) a (by (try simp only [hT, Sys2Proof.shl]); omega),
    bv_mk (lo := 10) (T := T) n (by (try simp only [hT, Sys2Proof.shl]); omega)]
  all_goals rfl

theorem shri (gd : Guard) (d : Reg) (a : Reg) (n : BitVec 6) : Statement (.shri gd d a n) := by
  have := d.isLt
  have := a.isLt
  have := n.isLt
  refine of_fields (tl := 1) (op := 0x016) rfl (by decide) rfl (by decide) ?_ rfl (by (try simp only [Sys2Proof.shl]); omega)
  suffices hh : ∀ T, T = d.toNat + Sys2Proof.shl (a.toNat) 5 + Sys2Proof.shl (n.toNat) 10 → decodeFields 0x016 T gd = some (.shri gd d a n) from hh _ rfl
  intro T hT
  have e0 : decodeFields 0x016 T gd = (some (Instr.shri gd (bv T 0 5) (bv T 5 5) (bv T 10 6))) := rfl
  rw [e0]
  show some (Instr.shri gd (bv T 0 5) (bv T 5 5) (bv T 10 6)) = _
  rw [bv_mk (lo := 0) (T := T) d (by (try simp only [hT, Sys2Proof.shl]); omega),
    bv_mk (lo := 5) (T := T) a (by (try simp only [hT, Sys2Proof.shl]); omega),
    bv_mk (lo := 10) (T := T) n (by (try simp only [hT, Sys2Proof.shl]); omega)]
  all_goals rfl

theorem srai (gd : Guard) (d : Reg) (a : Reg) (n : BitVec 6) : Statement (.srai gd d a n) := by
  have := d.isLt
  have := a.isLt
  have := n.isLt
  refine of_fields (tl := 1) (op := 0x017) rfl (by decide) rfl (by decide) ?_ rfl (by (try simp only [Sys2Proof.shl]); omega)
  suffices hh : ∀ T, T = d.toNat + Sys2Proof.shl (a.toNat) 5 + Sys2Proof.shl (n.toNat) 10 → decodeFields 0x017 T gd = some (.srai gd d a n) from hh _ rfl
  intro T hT
  have e0 : decodeFields 0x017 T gd = (some (Instr.srai gd (bv T 0 5) (bv T 5 5) (bv T 10 6))) := rfl
  rw [e0]
  show some (Instr.srai gd (bv T 0 5) (bv T 5 5) (bv T 10 6)) = _
  rw [bv_mk (lo := 0) (T := T) d (by (try simp only [hT, Sys2Proof.shl]); omega),
    bv_mk (lo := 5) (T := T) a (by (try simp only [hT, Sys2Proof.shl]); omega),
    bv_mk (lo := 10) (T := T) n (by (try simp only [hT, Sys2Proof.shl]); omega)]
  all_goals rfl

theorem clz (gd : Guard) (d : Reg) (a : Reg) : Statement (.clz gd d a) := by
  have := d.isLt
  have := a.isLt
  refine of_fields (tl := 1) (op := 0x018) rfl (by decide) rfl (by decide) ?_ rfl (by (try simp only [Sys2Proof.shl]); omega)
  suffices hh : ∀ T, T = d.toNat + Sys2Proof.shl (a.toNat) 5 → decodeFields 0x018 T gd = some (.clz gd d a) from hh _ rfl
  intro T hT
  have e0 : decodeFields 0x018 T gd = (if zr T 10 6 then some (Instr.clz gd (bv T 0 5) (bv T 5 5)) else none) := rfl
  rw [e0,
    zr_mk (lo := 10) (w := 6) (T := T) (by (try simp only [hT, Sys2Proof.shl]); omega)]
  show some (Instr.clz gd (bv T 0 5) (bv T 5 5)) = _
  rw [bv_mk (lo := 0) (T := T) d (by (try simp only [hT, Sys2Proof.shl]); omega),
    bv_mk (lo := 5) (T := T) a (by (try simp only [hT, Sys2Proof.shl]); omega)]
  all_goals rfl

theorem ctz (gd : Guard) (d : Reg) (a : Reg) : Statement (.ctz gd d a) := by
  have := d.isLt
  have := a.isLt
  refine of_fields (tl := 1) (op := 0x019) rfl (by decide) rfl (by decide) ?_ rfl (by (try simp only [Sys2Proof.shl]); omega)
  suffices hh : ∀ T, T = d.toNat + Sys2Proof.shl (a.toNat) 5 → decodeFields 0x019 T gd = some (.ctz gd d a) from hh _ rfl
  intro T hT
  have e0 : decodeFields 0x019 T gd = (if zr T 10 6 then some (Instr.ctz gd (bv T 0 5) (bv T 5 5)) else none) := rfl
  rw [e0,
    zr_mk (lo := 10) (w := 6) (T := T) (by (try simp only [hT, Sys2Proof.shl]); omega)]
  show some (Instr.ctz gd (bv T 0 5) (bv T 5 5)) = _
  rw [bv_mk (lo := 0) (T := T) d (by (try simp only [hT, Sys2Proof.shl]); omega),
    bv_mk (lo := 5) (T := T) a (by (try simp only [hT, Sys2Proof.shl]); omega)]
  all_goals rfl

theorem popc (gd : Guard) (d : Reg) (a : Reg) : Statement (.popc gd d a) := by
  have := d.isLt
  have := a.isLt
  refine of_fields (tl := 1) (op := 0x01A) rfl (by decide) rfl (by decide) ?_ rfl (by (try simp only [Sys2Proof.shl]); omega)
  suffices hh : ∀ T, T = d.toNat + Sys2Proof.shl (a.toNat) 5 → decodeFields 0x01A T gd = some (.popc gd d a) from hh _ rfl
  intro T hT
  have e0 : decodeFields 0x01A T gd = (if zr T 10 6 then some (Instr.popc gd (bv T 0 5) (bv T 5 5)) else none) := rfl
  rw [e0,
    zr_mk (lo := 10) (w := 6) (T := T) (by (try simp only [hT, Sys2Proof.shl]); omega)]
  show some (Instr.popc gd (bv T 0 5) (bv T 5 5)) = _
  rw [bv_mk (lo := 0) (T := T) d (by (try simp only [hT, Sys2Proof.shl]); omega),
    bv_mk (lo := 5) (T := T) a (by (try simp only [hT, Sys2Proof.shl]); omega)]
  all_goals rfl

theorem min (gd : Guard) (d : Reg) (a : Reg) (b : Reg) : Statement (.min gd d a b) := by
  have := d.isLt
  have := a.isLt
  have := b.isLt
  refine of_fields (tl := 1) (op := 0x01B) rfl (by decide) rfl (by decide) ?_ rfl (by (try simp only [Sys2Proof.shl]); omega)
  suffices hh : ∀ T, T = d.toNat + Sys2Proof.shl (a.toNat) 5 + Sys2Proof.shl (b.toNat) 10 → decodeFields 0x01B T gd = some (.min gd d a b) from hh _ rfl
  intro T hT
  have e0 : decodeFields 0x01B T gd = (if zr T 15 1 then some (Instr.min gd (bv T 0 5) (bv T 5 5) (bv T 10 5)) else none) := rfl
  rw [e0,
    zr_mk (lo := 15) (w := 1) (T := T) (by (try simp only [hT, Sys2Proof.shl]); omega)]
  show some (Instr.min gd (bv T 0 5) (bv T 5 5) (bv T 10 5)) = _
  rw [bv_mk (lo := 0) (T := T) d (by (try simp only [hT, Sys2Proof.shl]); omega),
    bv_mk (lo := 5) (T := T) a (by (try simp only [hT, Sys2Proof.shl]); omega),
    bv_mk (lo := 10) (T := T) b (by (try simp only [hT, Sys2Proof.shl]); omega)]
  all_goals rfl

theorem max (gd : Guard) (d : Reg) (a : Reg) (b : Reg) : Statement (.max gd d a b) := by
  have := d.isLt
  have := a.isLt
  have := b.isLt
  refine of_fields (tl := 1) (op := 0x01C) rfl (by decide) rfl (by decide) ?_ rfl (by (try simp only [Sys2Proof.shl]); omega)
  suffices hh : ∀ T, T = d.toNat + Sys2Proof.shl (a.toNat) 5 + Sys2Proof.shl (b.toNat) 10 → decodeFields 0x01C T gd = some (.max gd d a b) from hh _ rfl
  intro T hT
  have e0 : decodeFields 0x01C T gd = (if zr T 15 1 then some (Instr.max gd (bv T 0 5) (bv T 5 5) (bv T 10 5)) else none) := rfl
  rw [e0,
    zr_mk (lo := 15) (w := 1) (T := T) (by (try simp only [hT, Sys2Proof.shl]); omega)]
  show some (Instr.max gd (bv T 0 5) (bv T 5 5) (bv T 10 5)) = _
  rw [bv_mk (lo := 0) (T := T) d (by (try simp only [hT, Sys2Proof.shl]); omega),
    bv_mk (lo := 5) (T := T) a (by (try simp only [hT, Sys2Proof.shl]); omega),
    bv_mk (lo := 10) (T := T) b (by (try simp only [hT, Sys2Proof.shl]); omega)]
  all_goals rfl

theorem minn (gd : Guard) (d : Reg) (a : Reg) (b : Reg) : Statement (.minn gd d a b) := by
  have := d.isLt
  have := a.isLt
  have := b.isLt
  refine of_fields (tl := 1) (op := 0x01D) rfl (by decide) rfl (by decide) ?_ rfl (by (try simp only [Sys2Proof.shl]); omega)
  suffices hh : ∀ T, T = d.toNat + Sys2Proof.shl (a.toNat) 5 + Sys2Proof.shl (b.toNat) 10 → decodeFields 0x01D T gd = some (.minn gd d a b) from hh _ rfl
  intro T hT
  have e0 : decodeFields 0x01D T gd = (if zr T 15 1 then some (Instr.minn gd (bv T 0 5) (bv T 5 5) (bv T 10 5)) else none) := rfl
  rw [e0,
    zr_mk (lo := 15) (w := 1) (T := T) (by (try simp only [hT, Sys2Proof.shl]); omega)]
  show some (Instr.minn gd (bv T 0 5) (bv T 5 5) (bv T 10 5)) = _
  rw [bv_mk (lo := 0) (T := T) d (by (try simp only [hT, Sys2Proof.shl]); omega),
    bv_mk (lo := 5) (T := T) a (by (try simp only [hT, Sys2Proof.shl]); omega),
    bv_mk (lo := 10) (T := T) b (by (try simp only [hT, Sys2Proof.shl]); omega)]
  all_goals rfl

theorem maxn (gd : Guard) (d : Reg) (a : Reg) (b : Reg) : Statement (.maxn gd d a b) := by
  have := d.isLt
  have := a.isLt
  have := b.isLt
  refine of_fields (tl := 1) (op := 0x01E) rfl (by decide) rfl (by decide) ?_ rfl (by (try simp only [Sys2Proof.shl]); omega)
  suffices hh : ∀ T, T = d.toNat + Sys2Proof.shl (a.toNat) 5 + Sys2Proof.shl (b.toNat) 10 → decodeFields 0x01E T gd = some (.maxn gd d a b) from hh _ rfl
  intro T hT
  have e0 : decodeFields 0x01E T gd = (if zr T 15 1 then some (Instr.maxn gd (bv T 0 5) (bv T 5 5) (bv T 10 5)) else none) := rfl
  rw [e0,
    zr_mk (lo := 15) (w := 1) (T := T) (by (try simp only [hT, Sys2Proof.shl]); omega)]
  show some (Instr.maxn gd (bv T 0 5) (bv T 5 5) (bv T 10 5)) = _
  rw [bv_mk (lo := 0) (T := T) d (by (try simp only [hT, Sys2Proof.shl]); omega),
    bv_mk (lo := 5) (T := T) a (by (try simp only [hT, Sys2Proof.shl]); omega),
    bv_mk (lo := 10) (T := T) b (by (try simp only [hT, Sys2Proof.shl]); omega)]
  all_goals rfl

theorem addi (gd : Guard) (d : Reg) (a : Reg) (imm : BitVec 22) : Statement (.addi gd d a imm) := by
  have := d.isLt
  have := a.isLt
  have := imm.isLt
  refine of_fields (tl := 2) (op := 0x003) rfl (by decide) rfl (by decide) ?_ rfl (by (try simp only [Sys2Proof.shl]); omega)
  suffices hh : ∀ T, T = d.toNat + Sys2Proof.shl (a.toNat) 5 + Sys2Proof.shl (imm.toNat) 10 → decodeFields 0x003 T gd = some (.addi gd d a imm) from hh _ rfl
  intro T hT
  have e0 : decodeFields 0x003 T gd = (some (Instr.addi gd (bv T 0 5) (bv T 5 5) (bv T 10 22))) := rfl
  rw [e0]
  show some (Instr.addi gd (bv T 0 5) (bv T 5 5) (bv T 10 22)) = _
  rw [bv_mk (lo := 0) (T := T) d (by (try simp only [hT, Sys2Proof.shl]); omega),
    bv_mk (lo := 5) (T := T) a (by (try simp only [hT, Sys2Proof.shl]); omega),
    bv_mk (lo := 10) (T := T) imm (by (try simp only [hT, Sys2Proof.shl]); omega)]
  all_goals rfl

theorem andi (gd : Guard) (d : Reg) (a : Reg) (imm : BitVec 22) : Statement (.andi gd d a imm) := by
  have := d.isLt
  have := a.isLt
  have := imm.isLt
  refine of_fields (tl := 2) (op := 0x00F) rfl (by decide) rfl (by decide) ?_ rfl (by (try simp only [Sys2Proof.shl]); omega)
  suffices hh : ∀ T, T = d.toNat + Sys2Proof.shl (a.toNat) 5 + Sys2Proof.shl (imm.toNat) 10 → decodeFields 0x00F T gd = some (.andi gd d a imm) from hh _ rfl
  intro T hT
  have e0 : decodeFields 0x00F T gd = (some (Instr.andi gd (bv T 0 5) (bv T 5 5) (bv T 10 22))) := rfl
  rw [e0]
  show some (Instr.andi gd (bv T 0 5) (bv T 5 5) (bv T 10 22)) = _
  rw [bv_mk (lo := 0) (T := T) d (by (try simp only [hT, Sys2Proof.shl]); omega),
    bv_mk (lo := 5) (T := T) a (by (try simp only [hT, Sys2Proof.shl]); omega),
    bv_mk (lo := 10) (T := T) imm (by (try simp only [hT, Sys2Proof.shl]); omega)]
  all_goals rfl

theorem ori (gd : Guard) (d : Reg) (a : Reg) (imm : BitVec 22) : Statement (.ori gd d a imm) := by
  have := d.isLt
  have := a.isLt
  have := imm.isLt
  refine of_fields (tl := 2) (op := 0x010) rfl (by decide) rfl (by decide) ?_ rfl (by (try simp only [Sys2Proof.shl]); omega)
  suffices hh : ∀ T, T = d.toNat + Sys2Proof.shl (a.toNat) 5 + Sys2Proof.shl (imm.toNat) 10 → decodeFields 0x010 T gd = some (.ori gd d a imm) from hh _ rfl
  intro T hT
  have e0 : decodeFields 0x010 T gd = (some (Instr.ori gd (bv T 0 5) (bv T 5 5) (bv T 10 22))) := rfl
  rw [e0]
  show some (Instr.ori gd (bv T 0 5) (bv T 5 5) (bv T 10 22)) = _
  rw [bv_mk (lo := 0) (T := T) d (by (try simp only [hT, Sys2Proof.shl]); omega),
    bv_mk (lo := 5) (T := T) a (by (try simp only [hT, Sys2Proof.shl]); omega),
    bv_mk (lo := 10) (T := T) imm (by (try simp only [hT, Sys2Proof.shl]); omega)]
  all_goals rfl

theorem xori (gd : Guard) (d : Reg) (a : Reg) (imm : BitVec 22) : Statement (.xori gd d a imm) := by
  have := d.isLt
  have := a.isLt
  have := imm.isLt
  refine of_fields (tl := 2) (op := 0x011) rfl (by decide) rfl (by decide) ?_ rfl (by (try simp only [Sys2Proof.shl]); omega)
  suffices hh : ∀ T, T = d.toNat + Sys2Proof.shl (a.toNat) 5 + Sys2Proof.shl (imm.toNat) 10 → decodeFields 0x011 T gd = some (.xori gd d a imm) from hh _ rfl
  intro T hT
  have e0 : decodeFields 0x011 T gd = (some (Instr.xori gd (bv T 0 5) (bv T 5 5) (bv T 10 22))) := rfl
  rw [e0]
  show some (Instr.xori gd (bv T 0 5) (bv T 5 5) (bv T 10 22)) = _
  rw [bv_mk (lo := 0) (T := T) d (by (try simp only [hT, Sys2Proof.shl]); omega),
    bv_mk (lo := 5) (T := T) a (by (try simp only [hT, Sys2Proof.shl]); omega),
    bv_mk (lo := 10) (T := T) imm (by (try simp only [hT, Sys2Proof.shl]); omega)]
  all_goals rfl

theorem li (gd : Guard) (d : Reg) (imm : BitVec 48) : Statement (.li gd d imm) := by
  have := d.isLt
  have := imm.isLt
  refine of_fields (tl := 4) (op := 0x022) rfl (by decide) rfl (by decide) ?_ rfl (by (try simp only [Sys2Proof.shl]); omega)
  suffices hh : ∀ T, T = d.toNat + Sys2Proof.shl (imm.toNat) 16 → decodeFields 0x022 T gd = some (.li gd d imm) from hh _ rfl
  intro T hT
  have e0 : decodeFields 0x022 T gd = (if zr T 5 11 then some (Instr.li gd (bv T 0 5) (bv T 16 48)) else none) := rfl
  rw [e0,
    zr_mk (lo := 5) (w := 11) (T := T) (by (try simp only [hT, Sys2Proof.shl]); omega)]
  show some (Instr.li gd (bv T 0 5) (bv T 16 48)) = _
  rw [bv_mk (lo := 0) (T := T) d (by (try simp only [hT, Sys2Proof.shl]); omega),
    bv_mk (lo := 16) (T := T) imm (by (try simp only [hT, Sys2Proof.shl]); omega)]
  all_goals rfl

theorem lih (gd : Guard) (d : Reg) (a : Reg) (imm : BitVec 16) : Statement (.lih gd d a imm) := by
  have := d.isLt
  have := a.isLt
  have := imm.isLt
  refine of_fields (tl := 2) (op := 0x023) rfl (by decide) rfl (by decide) ?_ rfl (by (try simp only [Sys2Proof.shl]); omega)
  suffices hh : ∀ T, T = d.toNat + Sys2Proof.shl (a.toNat) 5 + Sys2Proof.shl (imm.toNat) 10 → decodeFields 0x023 T gd = some (.lih gd d a imm) from hh _ rfl
  intro T hT
  have e0 : decodeFields 0x023 T gd = (if zr T 26 6 then some (Instr.lih gd (bv T 0 5) (bv T 5 5) (bv T 10 16)) else none) := rfl
  rw [e0,
    zr_mk (lo := 26) (w := 6) (T := T) (by (try simp only [hT, Sys2Proof.shl]); omega)]
  show some (Instr.lih gd (bv T 0 5) (bv T 5 5) (bv T 10 16)) = _
  rw [bv_mk (lo := 0) (T := T) d (by (try simp only [hT, Sys2Proof.shl]); omega),
    bv_mk (lo := 5) (T := T) a (by (try simp only [hT, Sys2Proof.shl]); omega),
    bv_mk (lo := 10) (T := T) imm (by (try simp only [hT, Sys2Proof.shl]); omega)]
  all_goals rfl

theorem bfx (gd : Guard) (d : Reg) (a : Reg) (pos : BitVec 6) (len1 : BitVec 6) : Statement (.bfx gd d a pos len1) := by
  have := d.isLt
  have := a.isLt
  have := pos.isLt
  have := len1.isLt
  refine of_fields (tl := 2) (op := 0x01F) rfl (by decide) rfl (by decide) ?_ rfl (by (try simp only [Sys2Proof.shl]); omega)
  suffices hh : ∀ T, T = d.toNat + Sys2Proof.shl (a.toNat) 5 + Sys2Proof.shl (pos.toNat) 20 + Sys2Proof.shl (len1.toNat) 26 → decodeFields 0x01F T gd = some (.bfx gd d a pos len1) from hh _ rfl
  intro T hT
  have e0 : decodeFields 0x01F T gd = (if zr T 10 10 then some (Instr.bfx gd (bv T 0 5) (bv T 5 5) (bv T 20 6) (bv T 26 6)) else none) := rfl
  rw [e0,
    zr_mk (lo := 10) (w := 10) (T := T) (by (try simp only [hT, Sys2Proof.shl]); omega)]
  show some (Instr.bfx gd (bv T 0 5) (bv T 5 5) (bv T 20 6) (bv T 26 6)) = _
  rw [bv_mk (lo := 0) (T := T) d (by (try simp only [hT, Sys2Proof.shl]); omega),
    bv_mk (lo := 5) (T := T) a (by (try simp only [hT, Sys2Proof.shl]); omega),
    bv_mk (lo := 20) (T := T) pos (by (try simp only [hT, Sys2Proof.shl]); omega),
    bv_mk (lo := 26) (T := T) len1 (by (try simp only [hT, Sys2Proof.shl]); omega)]
  all_goals rfl

theorem bfxs (gd : Guard) (d : Reg) (a : Reg) (pos : BitVec 6) (len1 : BitVec 6) : Statement (.bfxs gd d a pos len1) := by
  have := d.isLt
  have := a.isLt
  have := pos.isLt
  have := len1.isLt
  refine of_fields (tl := 2) (op := 0x020) rfl (by decide) rfl (by decide) ?_ rfl (by (try simp only [Sys2Proof.shl]); omega)
  suffices hh : ∀ T, T = d.toNat + Sys2Proof.shl (a.toNat) 5 + Sys2Proof.shl (pos.toNat) 20 + Sys2Proof.shl (len1.toNat) 26 → decodeFields 0x020 T gd = some (.bfxs gd d a pos len1) from hh _ rfl
  intro T hT
  have e0 : decodeFields 0x020 T gd = (if zr T 10 10 then some (Instr.bfxs gd (bv T 0 5) (bv T 5 5) (bv T 20 6) (bv T 26 6)) else none) := rfl
  rw [e0,
    zr_mk (lo := 10) (w := 10) (T := T) (by (try simp only [hT, Sys2Proof.shl]); omega)]
  show some (Instr.bfxs gd (bv T 0 5) (bv T 5 5) (bv T 20 6) (bv T 26 6)) = _
  rw [bv_mk (lo := 0) (T := T) d (by (try simp only [hT, Sys2Proof.shl]); omega),
    bv_mk (lo := 5) (T := T) a (by (try simp only [hT, Sys2Proof.shl]); omega),
    bv_mk (lo := 20) (T := T) pos (by (try simp only [hT, Sys2Proof.shl]); omega),
    bv_mk (lo := 26) (T := T) len1 (by (try simp only [hT, Sys2Proof.shl]); omega)]
  all_goals rfl

theorem bfi (gd : Guard) (d : Reg) (a : Reg) (b : Reg) (pos : BitVec 6) (len1 : BitVec 6) : Statement (.bfi gd d a b pos len1) := by
  have := d.isLt
  have := a.isLt
  have := b.isLt
  have := pos.isLt
  have := len1.isLt
  refine of_fields (tl := 2) (op := 0x021) rfl (by decide) rfl (by decide) ?_ rfl (by (try simp only [Sys2Proof.shl]); omega)
  suffices hh : ∀ T, T = d.toNat + Sys2Proof.shl (a.toNat) 5 + Sys2Proof.shl (b.toNat) 10 + Sys2Proof.shl (pos.toNat) 20 + Sys2Proof.shl (len1.toNat) 26 → decodeFields 0x021 T gd = some (.bfi gd d a b pos len1) from hh _ rfl
  intro T hT
  have e0 : decodeFields 0x021 T gd = (if zr T 15 5 then some (Instr.bfi gd (bv T 0 5) (bv T 5 5) (bv T 10 5) (bv T 20 6) (bv T 26 6)) else none) := rfl
  rw [e0,
    zr_mk (lo := 15) (w := 5) (T := T) (by (try simp only [hT, Sys2Proof.shl]); omega)]
  show some (Instr.bfi gd (bv T 0 5) (bv T 5 5) (bv T 10 5) (bv T 20 6) (bv T 26 6)) = _
  rw [bv_mk (lo := 0) (T := T) d (by (try simp only [hT, Sys2Proof.shl]); omega),
    bv_mk (lo := 5) (T := T) a (by (try simp only [hT, Sys2Proof.shl]); omega),
    bv_mk (lo := 10) (T := T) b (by (try simp only [hT, Sys2Proof.shl]); omega),
    bv_mk (lo := 20) (T := T) pos (by (try simp only [hT, Sys2Proof.shl]); omega),
    bv_mk (lo := 26) (T := T) len1 (by (try simp only [hT, Sys2Proof.shl]); omega)]
  all_goals rfl

theorem lea (gd : Guard) (d : Reg) (a : Reg) (b : Reg) (sh : BitVec 2) (disp : BitVec 10) : Statement (.lea gd d a b sh disp) := by
  have := d.isLt
  have := a.isLt
  have := b.isLt
  have := sh.isLt
  have := disp.isLt
  refine of_fields (tl := 2) (op := 0x024) rfl (by decide) rfl (by decide) ?_ rfl (by (try simp only [Sys2Proof.shl]); omega)
  suffices hh : ∀ T, T = d.toNat + Sys2Proof.shl (a.toNat) 5 + Sys2Proof.shl (b.toNat) 10 + Sys2Proof.shl (sh.toNat) 20 + Sys2Proof.shl (disp.toNat) 22 → decodeFields 0x024 T gd = some (.lea gd d a b sh disp) from hh _ rfl
  intro T hT
  have e0 : decodeFields 0x024 T gd = (if zr T 15 5 then some (Instr.lea gd (bv T 0 5) (bv T 5 5) (bv T 10 5) (bv T 20 2) (bv T 22 10)) else none) := rfl
  rw [e0,
    zr_mk (lo := 15) (w := 5) (T := T) (by (try simp only [hT, Sys2Proof.shl]); omega)]
  show some (Instr.lea gd (bv T 0 5) (bv T 5 5) (bv T 10 5) (bv T 20 2) (bv T 22 10)) = _
  rw [bv_mk (lo := 0) (T := T) d (by (try simp only [hT, Sys2Proof.shl]); omega),
    bv_mk (lo := 5) (T := T) a (by (try simp only [hT, Sys2Proof.shl]); omega),
    bv_mk (lo := 10) (T := T) b (by (try simp only [hT, Sys2Proof.shl]); omega),
    bv_mk (lo := 20) (T := T) sh (by (try simp only [hT, Sys2Proof.shl]); omega),
    bv_mk (lo := 22) (T := T) disp (by (try simp only [hT, Sys2Proof.shl]); omega)]
  all_goals rfl

theorem cmp (gd : Guard) (d : Pred) (a : Reg) (b : Reg) (cc : Cond) : Statement (.cmp gd d a b cc) := by
  have := d.isLt
  have := a.isLt
  have := b.isLt
  have := cond_le cc
  refine of_fields (tl := 2) (op := 0x025) rfl (by decide) rfl (by decide) ?_ rfl (by (try simp only [Sys2Proof.shl]); omega)
  suffices hh : ∀ T, T = d.toNat + Sys2Proof.shl (a.toNat) 5 + Sys2Proof.shl (b.toNat) 10 + Sys2Proof.shl (cc.code) 20 → decodeFields 0x025 T gd = some (.cmp gd d a b cc) from hh _ rfl
  intro T hT
  have e0 : decodeFields 0x025 T gd = (if zr T 3 2 && zr T 15 5 && zr T 24 8 then (cond? (fld T 20 4)).bind fun cc => some (Instr.cmp gd (bv T 0 3) (bv T 5 5) (bv T 10 5) cc) else none) := rfl
  rw [e0,
    zr_mk (lo := 3) (w := 2) (T := T) (by (try simp only [hT, Sys2Proof.shl]); omega),
    zr_mk (lo := 15) (w := 5) (T := T) (by (try simp only [hT, Sys2Proof.shl]); omega),
    zr_mk (lo := 24) (w := 8) (T := T) (by (try simp only [hT, Sys2Proof.shl]); omega),
    cond_mk (lo := 20) (T := T) cc (by (try simp only [hT, Sys2Proof.shl]); omega),
    Option.bind_some]
  rw [bv_mk (lo := 0) (T := T) d (by (try simp only [hT, Sys2Proof.shl]); omega),
    bv_mk (lo := 5) (T := T) a (by (try simp only [hT, Sys2Proof.shl]); omega),
    bv_mk (lo := 10) (T := T) b (by (try simp only [hT, Sys2Proof.shl]); omega)]
  all_goals rfl

theorem cmpi (gd : Guard) (d : Pred) (a : Reg) (cc : Cond) (imm : BitVec 32) : Statement (.cmpi gd d a cc imm) := by
  have := d.isLt
  have := a.isLt
  have := cond_le cc
  have := imm.isLt
  refine of_fields (tl := 3) (op := 0x026) rfl (by decide) rfl (by decide) ?_ rfl (by (try simp only [Sys2Proof.shl]); omega)
  suffices hh : ∀ T, T = d.toNat + Sys2Proof.shl (a.toNat) 5 + Sys2Proof.shl (cc.code) 10 + Sys2Proof.shl (imm.toNat) 16 → decodeFields 0x026 T gd = some (.cmpi gd d a cc imm) from hh _ rfl
  intro T hT
  have e0 : decodeFields 0x026 T gd = (if zr T 3 2 && zr T 14 2 then (cond? (fld T 10 4)).bind fun cc => some (Instr.cmpi gd (bv T 0 3) (bv T 5 5) cc (bv T 16 32)) else none) := rfl
  rw [e0,
    zr_mk (lo := 3) (w := 2) (T := T) (by (try simp only [hT, Sys2Proof.shl]); omega),
    zr_mk (lo := 14) (w := 2) (T := T) (by (try simp only [hT, Sys2Proof.shl]); omega),
    cond_mk (lo := 10) (T := T) cc (by (try simp only [hT, Sys2Proof.shl]); omega),
    Option.bind_some]
  rw [bv_mk (lo := 0) (T := T) d (by (try simp only [hT, Sys2Proof.shl]); omega),
    bv_mk (lo := 5) (T := T) a (by (try simp only [hT, Sys2Proof.shl]); omega),
    bv_mk (lo := 16) (T := T) imm (by (try simp only [hT, Sys2Proof.shl]); omega)]
  all_goals rfl

theorem plog (gd : Guard) (d : Pred) (a : Pred) (b : Pred) (table : BitVec 4) : Statement (.plog gd d a b table) := by
  have := d.isLt
  have := a.isLt
  have := b.isLt
  have := table.isLt
  refine of_fields (tl := 2) (op := 0x027) rfl (by decide) rfl (by decide) ?_ rfl (by (try simp only [Sys2Proof.shl]); omega)
  suffices hh : ∀ T, T = d.toNat + Sys2Proof.shl (a.toNat) 5 + Sys2Proof.shl (b.toNat) 10 + Sys2Proof.shl (table.toNat) 20 → decodeFields 0x027 T gd = some (.plog gd d a b table) from hh _ rfl
  intro T hT
  have e0 : decodeFields 0x027 T gd = (if zr T 3 2 && zr T 8 2 && zr T 13 7 && zr T 24 8 then some (Instr.plog gd (bv T 0 3) (bv T 5 3) (bv T 10 3) (bv T 20 4)) else none) := rfl
  rw [e0,
    zr_mk (lo := 3) (w := 2) (T := T) (by (try simp only [hT, Sys2Proof.shl]); omega),
    zr_mk (lo := 8) (w := 2) (T := T) (by (try simp only [hT, Sys2Proof.shl]); omega),
    zr_mk (lo := 13) (w := 7) (T := T) (by (try simp only [hT, Sys2Proof.shl]); omega),
    zr_mk (lo := 24) (w := 8) (T := T) (by (try simp only [hT, Sys2Proof.shl]); omega)]
  show some (Instr.plog gd (bv T 0 3) (bv T 5 3) (bv T 10 3) (bv T 20 4)) = _
  rw [bv_mk (lo := 0) (T := T) d (by (try simp only [hT, Sys2Proof.shl]); omega),
    bv_mk (lo := 5) (T := T) a (by (try simp only [hT, Sys2Proof.shl]); omega),
    bv_mk (lo := 10) (T := T) b (by (try simp only [hT, Sys2Proof.shl]); omega),
    bv_mk (lo := 20) (T := T) table (by (try simp only [hT, Sys2Proof.shl]); omega)]
  all_goals rfl

theorem sel (gd : Guard) (d : Reg) (a : Reg) (b : Reg) (c : Pred) : Statement (.sel gd d a b c) := by
  have := d.isLt
  have := a.isLt
  have := b.isLt
  have := c.isLt
  refine of_fields (tl := 2) (op := 0x028) rfl (by decide) rfl (by decide) ?_ rfl (by (try simp only [Sys2Proof.shl]); omega)
  suffices hh : ∀ T, T = d.toNat + Sys2Proof.shl (a.toNat) 5 + Sys2Proof.shl (b.toNat) 10 + Sys2Proof.shl (c.toNat) 15 → decodeFields 0x028 T gd = some (.sel gd d a b c) from hh _ rfl
  intro T hT
  have e0 : decodeFields 0x028 T gd = (if zr T 18 14 then some (Instr.sel gd (bv T 0 5) (bv T 5 5) (bv T 10 5) (bv T 15 3)) else none) := rfl
  rw [e0,
    zr_mk (lo := 18) (w := 14) (T := T) (by (try simp only [hT, Sys2Proof.shl]); omega)]
  show some (Instr.sel gd (bv T 0 5) (bv T 5 5) (bv T 10 5) (bv T 15 3)) = _
  rw [bv_mk (lo := 0) (T := T) d (by (try simp only [hT, Sys2Proof.shl]); omega),
    bv_mk (lo := 5) (T := T) a (by (try simp only [hT, Sys2Proof.shl]); omega),
    bv_mk (lo := 10) (T := T) b (by (try simp only [hT, Sys2Proof.shl]); omega),
    bv_mk (lo := 15) (T := T) c (by (try simp only [hT, Sys2Proof.shl]); omega)]
  all_goals rfl

theorem pset (gd : Guard) (a : Reg) : Statement (.pset gd a) := by
  have := a.isLt
  refine of_fields (tl := 1) (op := 0x029) rfl (by decide) rfl (by decide) ?_ rfl (by (try simp only [Sys2Proof.shl]); omega)
  suffices hh : ∀ T, T = Sys2Proof.shl (a.toNat) 5 → decodeFields 0x029 T gd = some (.pset gd a) from hh _ rfl
  intro T hT
  have e0 : decodeFields 0x029 T gd = (if zr T 0 5 && zr T 10 6 then some (Instr.pset gd (bv T 5 5)) else none) := rfl
  rw [e0,
    zr_mk (lo := 0) (w := 5) (T := T) (by (try simp only [hT, Sys2Proof.shl]); omega),
    zr_mk (lo := 10) (w := 6) (T := T) (by (try simp only [hT, Sys2Proof.shl]); omega)]
  show some (Instr.pset gd (bv T 5 5)) = _
  rw [bv_mk (lo := 5) (T := T) a (by (try simp only [hT, Sys2Proof.shl]); omega)]
  all_goals rfl

theorem pget (gd : Guard) (d : Reg) : Statement (.pget gd d) := by
  have := d.isLt
  refine of_fields (tl := 1) (op := 0x02A) rfl (by decide) rfl (by decide) ?_ rfl (by (try simp only [Sys2Proof.shl]); omega)
  suffices hh : ∀ T, T = d.toNat → decodeFields 0x02A T gd = some (.pget gd d) from hh _ rfl
  intro T hT
  have e0 : decodeFields 0x02A T gd = (if zr T 5 11 then some (Instr.pget gd (bv T 0 5)) else none) := rfl
  rw [e0,
    zr_mk (lo := 5) (w := 11) (T := T) (by (try simp only [hT, Sys2Proof.shl]); omega)]
  show some (Instr.pget gd (bv T 0 5)) = _
  rw [bv_mk (lo := 0) (T := T) d (by (try simp only [hT, Sys2Proof.shl]); omega)]
  all_goals rfl

theorem sext (gd : Guard) (d : Reg) (a : Reg) (n : BitVec 6) : Statement (.sext gd d a n) := by
  have := d.isLt
  have := a.isLt
  have := n.isLt
  refine of_fields (tl := 1) (op := 0x02B) rfl (by decide) rfl (by decide) ?_ rfl (by (try simp only [Sys2Proof.shl]); omega)
  suffices hh : ∀ T, T = d.toNat + Sys2Proof.shl (a.toNat) 5 + Sys2Proof.shl (n.toNat) 10 → decodeFields 0x02B T gd = some (.sext gd d a n) from hh _ rfl
  intro T hT
  have e0 : decodeFields 0x02B T gd = (some (Instr.sext gd (bv T 0 5) (bv T 5 5) (bv T 10 6))) := rfl
  rw [e0]
  show some (Instr.sext gd (bv T 0 5) (bv T 5 5) (bv T 10 6)) = _
  rw [bv_mk (lo := 0) (T := T) d (by (try simp only [hT, Sys2Proof.shl]); omega),
    bv_mk (lo := 5) (T := T) a (by (try simp only [hT, Sys2Proof.shl]); omega),
    bv_mk (lo := 10) (T := T) n (by (try simp only [hT, Sys2Proof.shl]); omega)]
  all_goals rfl

theorem zext (gd : Guard) (d : Reg) (a : Reg) (n : BitVec 6) : Statement (.zext gd d a n) := by
  have := d.isLt
  have := a.isLt
  have := n.isLt
  refine of_fields (tl := 1) (op := 0x02C) rfl (by decide) rfl (by decide) ?_ rfl (by (try simp only [Sys2Proof.shl]); omega)
  suffices hh : ∀ T, T = d.toNat + Sys2Proof.shl (a.toNat) 5 + Sys2Proof.shl (n.toNat) 10 → decodeFields 0x02C T gd = some (.zext gd d a n) from hh _ rfl
  intro T hT
  have e0 : decodeFields 0x02C T gd = (some (Instr.zext gd (bv T 0 5) (bv T 5 5) (bv T 10 6))) := rfl
  rw [e0]
  show some (Instr.zext gd (bv T 0 5) (bv T 5 5) (bv T 10 6)) = _
  rw [bv_mk (lo := 0) (T := T) d (by (try simp only [hT, Sys2Proof.shl]); omega),
    bv_mk (lo := 5) (T := T) a (by (try simp only [hT, Sys2Proof.shl]); omega),
    bv_mk (lo := 10) (T := T) n (by (try simp only [hT, Sys2Proof.shl]); omega)]
  all_goals rfl

theorem br (gd : Guard) (imm : BitVec 22) : Statement (.br gd imm) := by
  have := imm.isLt
  refine of_fields (tl := 2) (op := 0x040) rfl (by decide) rfl (by decide) ?_ rfl (by (try simp only [Sys2Proof.shl]); omega)
  suffices hh : ∀ T, T = Sys2Proof.shl (imm.toNat) 10 → decodeFields 0x040 T gd = some (.br gd imm) from hh _ rfl
  intro T hT
  have e0 : decodeFields 0x040 T gd = (if zr T 0 10 then some (Instr.br gd (bv T 10 22)) else none) := rfl
  rw [e0,
    zr_mk (lo := 0) (w := 10) (T := T) (by (try simp only [hT, Sys2Proof.shl]); omega)]
  show some (Instr.br gd (bv T 10 22)) = _
  rw [bv_mk (lo := 10) (T := T) imm (by (try simp only [hT, Sys2Proof.shl]); omega)]
  all_goals rfl

theorem brr (gd : Guard) (a : Reg) : Statement (.brr gd a) := by
  have := a.isLt
  refine of_fields (tl := 1) (op := 0x041) rfl (by decide) rfl (by decide) ?_ rfl (by (try simp only [Sys2Proof.shl]); omega)
  suffices hh : ∀ T, T = Sys2Proof.shl (a.toNat) 5 → decodeFields 0x041 T gd = some (.brr gd a) from hh _ rfl
  intro T hT
  have e0 : decodeFields 0x041 T gd = (if zr T 0 5 && zr T 10 6 then some (Instr.brr gd (bv T 5 5)) else none) := rfl
  rw [e0,
    zr_mk (lo := 0) (w := 5) (T := T) (by (try simp only [hT, Sys2Proof.shl]); omega),
    zr_mk (lo := 10) (w := 6) (T := T) (by (try simp only [hT, Sys2Proof.shl]); omega)]
  show some (Instr.brr gd (bv T 5 5)) = _
  rw [bv_mk (lo := 5) (T := T) a (by (try simp only [hT, Sys2Proof.shl]); omega)]
  all_goals rfl

theorem call (gd : Guard) (d : Reg) (imm : BitVec 22) : Statement (.call gd d imm) := by
  have := d.isLt
  have := imm.isLt
  refine of_fields (tl := 2) (op := 0x042) rfl (by decide) rfl (by decide) ?_ rfl (by (try simp only [Sys2Proof.shl]); omega)
  suffices hh : ∀ T, T = d.toNat + Sys2Proof.shl (imm.toNat) 10 → decodeFields 0x042 T gd = some (.call gd d imm) from hh _ rfl
  intro T hT
  have e0 : decodeFields 0x042 T gd = (if zr T 5 5 then some (Instr.call gd (bv T 0 5) (bv T 10 22)) else none) := rfl
  rw [e0,
    zr_mk (lo := 5) (w := 5) (T := T) (by (try simp only [hT, Sys2Proof.shl]); omega)]
  show some (Instr.call gd (bv T 0 5) (bv T 10 22)) = _
  rw [bv_mk (lo := 0) (T := T) d (by (try simp only [hT, Sys2Proof.shl]); omega),
    bv_mk (lo := 10) (T := T) imm (by (try simp only [hT, Sys2Proof.shl]); omega)]
  all_goals rfl

theorem callr (gd : Guard) (d : Reg) (a : Reg) : Statement (.callr gd d a) := by
  have := d.isLt
  have := a.isLt
  refine of_fields (tl := 1) (op := 0x043) rfl (by decide) rfl (by decide) ?_ rfl (by (try simp only [Sys2Proof.shl]); omega)
  suffices hh : ∀ T, T = d.toNat + Sys2Proof.shl (a.toNat) 5 → decodeFields 0x043 T gd = some (.callr gd d a) from hh _ rfl
  intro T hT
  have e0 : decodeFields 0x043 T gd = (if zr T 10 6 then some (Instr.callr gd (bv T 0 5) (bv T 5 5)) else none) := rfl
  rw [e0,
    zr_mk (lo := 10) (w := 6) (T := T) (by (try simp only [hT, Sys2Proof.shl]); omega)]
  show some (Instr.callr gd (bv T 0 5) (bv T 5 5)) = _
  rw [bv_mk (lo := 0) (T := T) d (by (try simp only [hT, Sys2Proof.shl]); omega),
    bv_mk (lo := 5) (T := T) a (by (try simp only [hT, Sys2Proof.shl]); omega)]
  all_goals rfl

theorem jseg (gd : Guard) (imm : BitVec 22) : Statement (.jseg gd imm) := by
  have := imm.isLt
  refine of_fields (tl := 2) (op := 0x044) rfl (by decide) rfl (by decide) ?_ rfl (by (try simp only [Sys2Proof.shl]); omega)
  suffices hh : ∀ T, T = Sys2Proof.shl (imm.toNat) 10 → decodeFields 0x044 T gd = some (.jseg gd imm) from hh _ rfl
  intro T hT
  have e0 : decodeFields 0x044 T gd = (if zr T 0 10 then some (Instr.jseg gd (bv T 10 22)) else none) := rfl
  rw [e0,
    zr_mk (lo := 0) (w := 10) (T := T) (by (try simp only [hT, Sys2Proof.shl]); omega)]
  show some (Instr.jseg gd (bv T 10 22)) = _
  rw [bv_mk (lo := 10) (T := T) imm (by (try simp only [hT, Sys2Proof.shl]); omega)]
  all_goals rfl

theorem btag (gd : Guard) (d : Reg) (a : Reg) (b : Reg) (count : BitVec 12) : Statement (.btag gd d a b count) := by
  have := d.isLt
  have := a.isLt
  have := b.isLt
  have := count.isLt
  refine of_fields (tl := 2) (op := 0x045) rfl (by decide) rfl (by decide) ?_ rfl (by (try simp only [Sys2Proof.shl]); omega)
  suffices hh : ∀ T, T = d.toNat + Sys2Proof.shl (a.toNat) 5 + Sys2Proof.shl (b.toNat) 10 + Sys2Proof.shl (count.toNat) 20 → decodeFields 0x045 T gd = some (.btag gd d a b count) from hh _ rfl
  intro T hT
  have e0 : decodeFields 0x045 T gd = (if zr T 15 5 then some (Instr.btag gd (bv T 0 5) (bv T 5 5) (bv T 10 5) (bv T 20 12)) else none) := rfl
  rw [e0,
    zr_mk (lo := 15) (w := 5) (T := T) (by (try simp only [hT, Sys2Proof.shl]); omega)]
  show some (Instr.btag gd (bv T 0 5) (bv T 5 5) (bv T 10 5) (bv T 20 12)) = _
  rw [bv_mk (lo := 0) (T := T) d (by (try simp only [hT, Sys2Proof.shl]); omega),
    bv_mk (lo := 5) (T := T) a (by (try simp only [hT, Sys2Proof.shl]); omega),
    bv_mk (lo := 10) (T := T) b (by (try simp only [hT, Sys2Proof.shl]); omega),
    bv_mk (lo := 20) (T := T) count (by (try simp only [hT, Sys2Proof.shl]); omega)]
  all_goals rfl

theorem fork (gd : Guard) (a : Reg) (b : Reg) (imm : BitVec 32) : Statement (.fork gd a b imm) := by
  have := a.isLt
  have := b.isLt
  have := imm.isLt
  refine of_fields (tl := 3) (op := 0x046) rfl (by decide) rfl (by decide) ?_ rfl (by (try simp only [Sys2Proof.shl]); omega)
  suffices hh : ∀ T, T = Sys2Proof.shl (a.toNat) 5 + Sys2Proof.shl (b.toNat) 10 + Sys2Proof.shl (imm.toNat) 16 → decodeFields 0x046 T gd = some (.fork gd a b imm) from hh _ rfl
  intro T hT
  have e0 : decodeFields 0x046 T gd = (if zr T 0 5 && zr T 15 1 then some (Instr.fork gd (bv T 5 5) (bv T 10 5) (bv T 16 32)) else none) := rfl
  rw [e0,
    zr_mk (lo := 0) (w := 5) (T := T) (by (try simp only [hT, Sys2Proof.shl]); omega),
    zr_mk (lo := 15) (w := 1) (T := T) (by (try simp only [hT, Sys2Proof.shl]); omega)]
  show some (Instr.fork gd (bv T 5 5) (bv T 10 5) (bv T 16 32)) = _
  rw [bv_mk (lo := 5) (T := T) a (by (try simp only [hT, Sys2Proof.shl]); omega),
    bv_mk (lo := 10) (T := T) b (by (try simp only [hT, Sys2Proof.shl]); omega),
    bv_mk (lo := 16) (T := T) imm (by (try simp only [hT, Sys2Proof.shl]); omega)]
  all_goals rfl

theorem join (gd : Guard) (a : Reg) (b : Reg) : Statement (.join gd a b) := by
  have := a.isLt
  have := b.isLt
  refine of_fields (tl := 1) (op := 0x047) rfl (by decide) rfl (by decide) ?_ rfl (by (try simp only [Sys2Proof.shl]); omega)
  suffices hh : ∀ T, T = Sys2Proof.shl (a.toNat) 5 + Sys2Proof.shl (b.toNat) 10 → decodeFields 0x047 T gd = some (.join gd a b) from hh _ rfl
  intro T hT
  have e0 : decodeFields 0x047 T gd = (if zr T 0 5 && zr T 15 1 then some (Instr.join gd (bv T 5 5) (bv T 10 5)) else none) := rfl
  rw [e0,
    zr_mk (lo := 0) (w := 5) (T := T) (by (try simp only [hT, Sys2Proof.shl]); omega),
    zr_mk (lo := 15) (w := 1) (T := T) (by (try simp only [hT, Sys2Proof.shl]); omega)]
  show some (Instr.join gd (bv T 5 5) (bv T 10 5)) = _
  rw [bv_mk (lo := 5) (T := T) a (by (try simp only [hT, Sys2Proof.shl]); omega),
    bv_mk (lo := 10) (T := T) b (by (try simp only [hT, Sys2Proof.shl]); omega)]
  all_goals rfl

theorem spawn (gd : Guard) (a : Reg) (b : Reg) (sh : Bool) (imm : BitVec 32) : Statement (.spawn gd a b sh imm) := by
  have := a.isLt
  have := b.isLt
  have := sh.toNat_le
  have := imm.isLt
  refine of_fields (tl := 3) (op := 0x048) rfl (by decide) rfl (by decide) ?_ rfl (by (try simp only [Sys2Proof.shl]); omega)
  suffices hh : ∀ T, T = Sys2Proof.shl (a.toNat) 5 + Sys2Proof.shl (b.toNat) 10 + Sys2Proof.shl (sh.toNat) 15 + Sys2Proof.shl (imm.toNat) 16 → decodeFields 0x048 T gd = some (.spawn gd a b sh imm) from hh _ rfl
  intro T hT
  have e0 : decodeFields 0x048 T gd = (if zr T 0 5 then some (Instr.spawn gd (bv T 5 5) (bv T 10 5) (bt T 15) (bv T 16 32)) else none) := rfl
  rw [e0,
    zr_mk (lo := 0) (w := 5) (T := T) (by (try simp only [hT, Sys2Proof.shl]); omega)]
  show some (Instr.spawn gd (bv T 5 5) (bv T 10 5) (bt T 15) (bv T 16 32)) = _
  rw [bv_mk (lo := 5) (T := T) a (by (try simp only [hT, Sys2Proof.shl]); omega),
    bv_mk (lo := 10) (T := T) b (by (try simp only [hT, Sys2Proof.shl]); omega),
    bt_mk (lo := 15) (T := T) sh (by (try simp only [hT, Sys2Proof.shl]); omega),
    bv_mk (lo := 16) (T := T) imm (by (try simp only [hT, Sys2Proof.shl]); omega)]
  all_goals rfl

theorem yield (gd : Guard) (a : Reg) (b : Reg) : Statement (.yield gd a b) := by
  have := a.isLt
  have := b.isLt
  refine of_fields (tl := 1) (op := 0x049) rfl (by decide) rfl (by decide) ?_ rfl (by (try simp only [Sys2Proof.shl]); omega)
  suffices hh : ∀ T, T = Sys2Proof.shl (a.toNat) 5 + Sys2Proof.shl (b.toNat) 10 → decodeFields 0x049 T gd = some (.yield gd a b) from hh _ rfl
  intro T hT
  have e0 : decodeFields 0x049 T gd = (if zr T 0 5 && zr T 15 1 then some (Instr.yield gd (bv T 5 5) (bv T 10 5)) else none) := rfl
  rw [e0,
    zr_mk (lo := 0) (w := 5) (T := T) (by (try simp only [hT, Sys2Proof.shl]); omega),
    zr_mk (lo := 15) (w := 1) (T := T) (by (try simp only [hT, Sys2Proof.shl]); omega)]
  show some (Instr.yield gd (bv T 5 5) (bv T 10 5)) = _
  rw [bv_mk (lo := 5) (T := T) a (by (try simp only [hT, Sys2Proof.shl]); omega),
    bv_mk (lo := 10) (T := T) b (by (try simp only [hT, Sys2Proof.shl]); omega)]
  all_goals rfl

theorem exit (gd : Guard) (a : Reg) : Statement (.exit gd a) := by
  have := a.isLt
  refine of_fields (tl := 1) (op := 0x04A) rfl (by decide) rfl (by decide) ?_ rfl (by (try simp only [Sys2Proof.shl]); omega)
  suffices hh : ∀ T, T = Sys2Proof.shl (a.toNat) 5 → decodeFields 0x04A T gd = some (.exit gd a) from hh _ rfl
  intro T hT
  have e0 : decodeFields 0x04A T gd = (if zr T 0 5 && zr T 10 6 then some (Instr.exit gd (bv T 5 5)) else none) := rfl
  rw [e0,
    zr_mk (lo := 0) (w := 5) (T := T) (by (try simp only [hT, Sys2Proof.shl]); omega),
    zr_mk (lo := 10) (w := 6) (T := T) (by (try simp only [hT, Sys2Proof.shl]); omega)]
  show some (Instr.exit gd (bv T 5 5)) = _
  rw [bv_mk (lo := 5) (T := T) a (by (try simp only [hT, Sys2Proof.shl]); omega)]
  all_goals rfl

theorem wfw (gd : Guard) (d : Reg) (a : Reg) : Statement (.wfw gd d a) := by
  have := d.isLt
  have := a.isLt
  refine of_fields (tl := 1) (op := 0x04B) rfl (by decide) rfl (by decide) ?_ rfl (by (try simp only [Sys2Proof.shl]); omega)
  suffices hh : ∀ T, T = d.toNat + Sys2Proof.shl (a.toNat) 5 → decodeFields 0x04B T gd = some (.wfw gd d a) from hh _ rfl
  intro T hT
  have e0 : decodeFields 0x04B T gd = (if zr T 10 6 then some (Instr.wfw gd (bv T 0 5) (bv T 5 5)) else none) := rfl
  rw [e0,
    zr_mk (lo := 10) (w := 6) (T := T) (by (try simp only [hT, Sys2Proof.shl]); omega)]
  show some (Instr.wfw gd (bv T 0 5) (bv T 5 5)) = _
  rw [bv_mk (lo := 0) (T := T) d (by (try simp only [hT, Sys2Proof.shl]); omega),
    bv_mk (lo := 5) (T := T) a (by (try simp only [hT, Sys2Proof.shl]); omega)]
  all_goals rfl

theorem send (gd : Guard) (a : Reg) (b : Reg) (n : BitVec 5) (tag : BitVec 12) : Statement (.send gd a b n tag) := by
  have := a.isLt
  have := b.isLt
  have := n.isLt
  have := tag.isLt
  refine of_fields (tl := 2) (op := 0x060) rfl (by decide) rfl (by decide) ?_ rfl (by (try simp only [Sys2Proof.shl]); omega)
  suffices hh : ∀ T, T = Sys2Proof.shl (a.toNat) 5 + Sys2Proof.shl (b.toNat) 10 + Sys2Proof.shl (n.toNat) 15 + Sys2Proof.shl (tag.toNat) 20 → decodeFields 0x060 T gd = some (.send gd a b n tag) from hh _ rfl
  intro T hT
  have e0 : decodeFields 0x060 T gd = (if zr T 0 5 then some (Instr.send gd (bv T 5 5) (bv T 10 5) (bv T 15 5) (bv T 20 12)) else none) := rfl
  rw [e0,
    zr_mk (lo := 0) (w := 5) (T := T) (by (try simp only [hT, Sys2Proof.shl]); omega)]
  show some (Instr.send gd (bv T 5 5) (bv T 10 5) (bv T 15 5) (bv T 20 12)) = _
  rw [bv_mk (lo := 5) (T := T) a (by (try simp only [hT, Sys2Proof.shl]); omega),
    bv_mk (lo := 10) (T := T) b (by (try simp only [hT, Sys2Proof.shl]); omega),
    bv_mk (lo := 15) (T := T) n (by (try simp only [hT, Sys2Proof.shl]); omega),
    bv_mk (lo := 20) (T := T) tag (by (try simp only [hT, Sys2Proof.shl]); omega)]
  all_goals rfl

theorem recv (gd : Guard) (d : Reg) (a : Reg) (n : BitVec 5) : Statement (.recv gd d a n) := by
  have := d.isLt
  have := a.isLt
  have := n.isLt
  refine of_fields (tl := 2) (op := 0x061) rfl (by decide) rfl (by decide) ?_ rfl (by (try simp only [Sys2Proof.shl]); omega)
  suffices hh : ∀ T, T = d.toNat + Sys2Proof.shl (a.toNat) 5 + Sys2Proof.shl (n.toNat) 15 → decodeFields 0x061 T gd = some (.recv gd d a n) from hh _ rfl
  intro T hT
  have e0 : decodeFields 0x061 T gd = (if zr T 10 5 && zr T 20 12 then some (Instr.recv gd (bv T 0 5) (bv T 5 5) (bv T 15 5)) else none) := rfl
  rw [e0,
    zr_mk (lo := 10) (w := 5) (T := T) (by (try simp only [hT, Sys2Proof.shl]); omega),
    zr_mk (lo := 20) (w := 12) (T := T) (by (try simp only [hT, Sys2Proof.shl]); omega)]
  show some (Instr.recv gd (bv T 0 5) (bv T 5 5) (bv T 15 5)) = _
  rw [bv_mk (lo := 0) (T := T) d (by (try simp only [hT, Sys2Proof.shl]); omega),
    bv_mk (lo := 5) (T := T) a (by (try simp only [hT, Sys2Proof.shl]); omega),
    bv_mk (lo := 15) (T := T) n (by (try simp only [hT, Sys2Proof.shl]); omega)]
  all_goals rfl

theorem enq (gd : Guard) (a : Reg) (b : Reg) (c : Reg) (ack : Bool) : Statement (.enq gd a b c ack) := by
  have := a.isLt
  have := b.isLt
  have := c.isLt
  have := ack.toNat_le
  refine of_fields (tl := 2) (op := 0x062) rfl (by decide) rfl (by decide) ?_ rfl (by (try simp only [Sys2Proof.shl]); omega)
  suffices hh : ∀ T, T = Sys2Proof.shl (a.toNat) 5 + Sys2Proof.shl (b.toNat) 10 + Sys2Proof.shl (c.toNat) 15 + Sys2Proof.shl (ack.toNat) 20 → decodeFields 0x062 T gd = some (.enq gd a b c ack) from hh _ rfl
  intro T hT
  have e0 : decodeFields 0x062 T gd = (if zr T 0 5 && zr T 21 11 then some (Instr.enq gd (bv T 5 5) (bv T 10 5) (bv T 15 5) (bt T 20)) else none) := rfl
  rw [e0,
    zr_mk (lo := 0) (w := 5) (T := T) (by (try simp only [hT, Sys2Proof.shl]); omega),
    zr_mk (lo := 21) (w := 11) (T := T) (by (try simp only [hT, Sys2Proof.shl]); omega)]
  show some (Instr.enq gd (bv T 5 5) (bv T 10 5) (bv T 15 5) (bt T 20)) = _
  rw [bv_mk (lo := 5) (T := T) a (by (try simp only [hT, Sys2Proof.shl]); omega),
    bv_mk (lo := 10) (T := T) b (by (try simp only [hT, Sys2Proof.shl]); omega),
    bv_mk (lo := 15) (T := T) c (by (try simp only [hT, Sys2Proof.shl]); omega),
    bt_mk (lo := 20) (T := T) ack (by (try simp only [hT, Sys2Proof.shl]); omega)]
  all_goals rfl

theorem deq (gd : Guard) (d : Reg) (a : Reg) (c : Reg) : Statement (.deq gd d a c) := by
  have := d.isLt
  have := a.isLt
  have := c.isLt
  refine of_fields (tl := 2) (op := 0x063) rfl (by decide) rfl (by decide) ?_ rfl (by (try simp only [Sys2Proof.shl]); omega)
  suffices hh : ∀ T, T = d.toNat + Sys2Proof.shl (a.toNat) 5 + Sys2Proof.shl (c.toNat) 15 → decodeFields 0x063 T gd = some (.deq gd d a c) from hh _ rfl
  intro T hT
  have e0 : decodeFields 0x063 T gd = (if zr T 10 5 && zr T 20 12 then some (Instr.deq gd (bv T 0 5) (bv T 5 5) (bv T 15 5)) else none) := rfl
  rw [e0,
    zr_mk (lo := 10) (w := 5) (T := T) (by (try simp only [hT, Sys2Proof.shl]); omega),
    zr_mk (lo := 20) (w := 12) (T := T) (by (try simp only [hT, Sys2Proof.shl]); omega)]
  show some (Instr.deq gd (bv T 0 5) (bv T 5 5) (bv T 15 5)) = _
  rw [bv_mk (lo := 0) (T := T) d (by (try simp only [hT, Sys2Proof.shl]); omega),
    bv_mk (lo := 5) (T := T) a (by (try simp only [hT, Sys2Proof.shl]); omega),
    bv_mk (lo := 15) (T := T) c (by (try simp only [hT, Sys2Proof.shl]); omega)]
  all_goals rfl

theorem qres (gd : Guard) (d : Reg) (a : Reg) (b : Reg) : Statement (.qres gd d a b) := by
  have := d.isLt
  have := a.isLt
  have := b.isLt
  refine of_fields (tl := 1) (op := 0x064) rfl (by decide) rfl (by decide) ?_ rfl (by (try simp only [Sys2Proof.shl]); omega)
  suffices hh : ∀ T, T = d.toNat + Sys2Proof.shl (a.toNat) 5 + Sys2Proof.shl (b.toNat) 10 → decodeFields 0x064 T gd = some (.qres gd d a b) from hh _ rfl
  intro T hT
  have e0 : decodeFields 0x064 T gd = (if zr T 15 1 then some (Instr.qres gd (bv T 0 5) (bv T 5 5) (bv T 10 5)) else none) := rfl
  rw [e0,
    zr_mk (lo := 15) (w := 1) (T := T) (by (try simp only [hT, Sys2Proof.shl]); omega)]
  show some (Instr.qres gd (bv T 0 5) (bv T 5 5) (bv T 10 5)) = _
  rw [bv_mk (lo := 0) (T := T) d (by (try simp only [hT, Sys2Proof.shl]); omega),
    bv_mk (lo := 5) (T := T) a (by (try simp only [hT, Sys2Proof.shl]); omega),
    bv_mk (lo := 10) (T := T) b (by (try simp only [hT, Sys2Proof.shl]); omega)]
  all_goals rfl

theorem qprobe (gd : Guard) (d : Reg) (a : Reg) (b : Reg) : Statement (.qprobe gd d a b) := by
  have := d.isLt
  have := a.isLt
  have := b.isLt
  refine of_fields (tl := 1) (op := 0x065) rfl (by decide) rfl (by decide) ?_ rfl (by (try simp only [Sys2Proof.shl]); omega)
  suffices hh : ∀ T, T = d.toNat + Sys2Proof.shl (a.toNat) 5 + Sys2Proof.shl (b.toNat) 10 → decodeFields 0x065 T gd = some (.qprobe gd d a b) from hh _ rfl
  intro T hT
  have e0 : decodeFields 0x065 T gd = (if zr T 15 1 then some (Instr.qprobe gd (bv T 0 5) (bv T 5 5) (bv T 10 5)) else none) := rfl
  rw [e0,
    zr_mk (lo := 15) (w := 1) (T := T) (by (try simp only [hT, Sys2Proof.shl]); omega)]
  show some (Instr.qprobe gd (bv T 0 5) (bv T 5 5) (bv T 10 5)) = _
  rw [bv_mk (lo := 0) (T := T) d (by (try simp only [hT, Sys2Proof.shl]); omega),
    bv_mk (lo := 5) (T := T) a (by (try simp only [hT, Sys2Proof.shl]); omega),
    bv_mk (lo := 10) (T := T) b (by (try simp only [hT, Sys2Proof.shl]); omega)]
  all_goals rfl

theorem ld (gd : Guard) (d : Reg) (a : Reg) (sz : BitVec 2) (sgn : Bool) (imm : BitVec 32) : Statement (.ld gd d a sz sgn imm) := by
  have := d.isLt
  have := a.isLt
  have := sz.isLt
  have := sgn.toNat_le
  have := imm.isLt
  refine of_fields (tl := 3) (op := 0x080) rfl (by decide) rfl (by decide) ?_ rfl (by (try simp only [Sys2Proof.shl]); omega)
  suffices hh : ∀ T, T = d.toNat + Sys2Proof.shl (a.toNat) 5 + Sys2Proof.shl (sz.toNat) 10 + Sys2Proof.shl (sgn.toNat) 12 + Sys2Proof.shl (imm.toNat) 16 → decodeFields 0x080 T gd = some (.ld gd d a sz sgn imm) from hh _ rfl
  intro T hT
  have e0 : decodeFields 0x080 T gd = (if zr T 13 3 then some (Instr.ld gd (bv T 0 5) (bv T 5 5) (bv T 10 2) (bt T 12) (bv T 16 32)) else none) := rfl
  rw [e0,
    zr_mk (lo := 13) (w := 3) (T := T) (by (try simp only [hT, Sys2Proof.shl]); omega)]
  show some (Instr.ld gd (bv T 0 5) (bv T 5 5) (bv T 10 2) (bt T 12) (bv T 16 32)) = _
  rw [bv_mk (lo := 0) (T := T) d (by (try simp only [hT, Sys2Proof.shl]); omega),
    bv_mk (lo := 5) (T := T) a (by (try simp only [hT, Sys2Proof.shl]); omega),
    bv_mk (lo := 10) (T := T) sz (by (try simp only [hT, Sys2Proof.shl]); omega),
    bt_mk (lo := 12) (T := T) sgn (by (try simp only [hT, Sys2Proof.shl]); omega),
    bv_mk (lo := 16) (T := T) imm (by (try simp only [hT, Sys2Proof.shl]); omega)]
  all_goals rfl

theorem st (gd : Guard) (d : Reg) (a : Reg) (sz : BitVec 2) (imm : BitVec 32) : Statement (.st gd d a sz imm) := by
  have := d.isLt
  have := a.isLt
  have := sz.isLt
  have := imm.isLt
  refine of_fields (tl := 3) (op := 0x081) rfl (by decide) rfl (by decide) ?_ rfl (by (try simp only [Sys2Proof.shl]); omega)
  suffices hh : ∀ T, T = d.toNat + Sys2Proof.shl (a.toNat) 5 + Sys2Proof.shl (sz.toNat) 10 + Sys2Proof.shl (imm.toNat) 16 → decodeFields 0x081 T gd = some (.st gd d a sz imm) from hh _ rfl
  intro T hT
  have e0 : decodeFields 0x081 T gd = (if zr T 12 4 then some (Instr.st gd (bv T 0 5) (bv T 5 5) (bv T 10 2) (bv T 16 32)) else none) := rfl
  rw [e0,
    zr_mk (lo := 12) (w := 4) (T := T) (by (try simp only [hT, Sys2Proof.shl]); omega)]
  show some (Instr.st gd (bv T 0 5) (bv T 5 5) (bv T 10 2) (bv T 16 32)) = _
  rw [bv_mk (lo := 0) (T := T) d (by (try simp only [hT, Sys2Proof.shl]); omega),
    bv_mk (lo := 5) (T := T) a (by (try simp only [hT, Sys2Proof.shl]); omega),
    bv_mk (lo := 10) (T := T) sz (by (try simp only [hT, Sys2Proof.shl]); omega),
    bv_mk (lo := 16) (T := T) imm (by (try simp only [hT, Sys2Proof.shl]); omega)]
  all_goals rfl

theorem ldx (gd : Guard) (d : Reg) (a : Reg) (b : Reg) (sz : BitVec 2) (sgn : Bool) (sh : BitVec 2) : Statement (.ldx gd d a b sz sgn sh) := by
  have := d.isLt
  have := a.isLt
  have := b.isLt
  have := sz.isLt
  have := sgn.toNat_le
  have := sh.isLt
  refine of_fields (tl := 2) (op := 0x082) rfl (by decide) rfl (by decide) ?_ rfl (by (try simp only [Sys2Proof.shl]); omega)
  suffices hh : ∀ T, T = d.toNat + Sys2Proof.shl (a.toNat) 5 + Sys2Proof.shl (b.toNat) 10 + Sys2Proof.shl (sz.toNat) 20 + Sys2Proof.shl (sgn.toNat) 22 + Sys2Proof.shl (sh.toNat) 23 → decodeFields 0x082 T gd = some (.ldx gd d a b sz sgn sh) from hh _ rfl
  intro T hT
  have e0 : decodeFields 0x082 T gd = (if zr T 15 5 && zr T 25 7 then some (Instr.ldx gd (bv T 0 5) (bv T 5 5) (bv T 10 5) (bv T 20 2) (bt T 22) (bv T 23 2)) else none) := rfl
  rw [e0,
    zr_mk (lo := 15) (w := 5) (T := T) (by (try simp only [hT, Sys2Proof.shl]); omega),
    zr_mk (lo := 25) (w := 7) (T := T) (by (try simp only [hT, Sys2Proof.shl]); omega)]
  show some (Instr.ldx gd (bv T 0 5) (bv T 5 5) (bv T 10 5) (bv T 20 2) (bt T 22) (bv T 23 2)) = _
  rw [bv_mk (lo := 0) (T := T) d (by (try simp only [hT, Sys2Proof.shl]); omega),
    bv_mk (lo := 5) (T := T) a (by (try simp only [hT, Sys2Proof.shl]); omega),
    bv_mk (lo := 10) (T := T) b (by (try simp only [hT, Sys2Proof.shl]); omega),
    bv_mk (lo := 20) (T := T) sz (by (try simp only [hT, Sys2Proof.shl]); omega),
    bt_mk (lo := 22) (T := T) sgn (by (try simp only [hT, Sys2Proof.shl]); omega),
    bv_mk (lo := 23) (T := T) sh (by (try simp only [hT, Sys2Proof.shl]); omega)]
  all_goals rfl

theorem stx (gd : Guard) (d : Reg) (a : Reg) (b : Reg) (sz : BitVec 2) (sh : BitVec 2) : Statement (.stx gd d a b sz sh) := by
  have := d.isLt
  have := a.isLt
  have := b.isLt
  have := sz.isLt
  have := sh.isLt
  refine of_fields (tl := 2) (op := 0x083) rfl (by decide) rfl (by decide) ?_ rfl (by (try simp only [Sys2Proof.shl]); omega)
  suffices hh : ∀ T, T = d.toNat + Sys2Proof.shl (a.toNat) 5 + Sys2Proof.shl (b.toNat) 10 + Sys2Proof.shl (sz.toNat) 20 + Sys2Proof.shl (sh.toNat) 23 → decodeFields 0x083 T gd = some (.stx gd d a b sz sh) from hh _ rfl
  intro T hT
  have e0 : decodeFields 0x083 T gd = (if zr T 15 5 && zr T 22 1 && zr T 25 7 then some (Instr.stx gd (bv T 0 5) (bv T 5 5) (bv T 10 5) (bv T 20 2) (bv T 23 2)) else none) := rfl
  rw [e0,
    zr_mk (lo := 15) (w := 5) (T := T) (by (try simp only [hT, Sys2Proof.shl]); omega),
    zr_mk (lo := 22) (w := 1) (T := T) (by (try simp only [hT, Sys2Proof.shl]); omega),
    zr_mk (lo := 25) (w := 7) (T := T) (by (try simp only [hT, Sys2Proof.shl]); omega)]
  show some (Instr.stx gd (bv T 0 5) (bv T 5 5) (bv T 10 5) (bv T 20 2) (bv T 23 2)) = _
  rw [bv_mk (lo := 0) (T := T) d (by (try simp only [hT, Sys2Proof.shl]); omega),
    bv_mk (lo := 5) (T := T) a (by (try simp only [hT, Sys2Proof.shl]); omega),
    bv_mk (lo := 10) (T := T) b (by (try simp only [hT, Sys2Proof.shl]); omega),
    bv_mk (lo := 20) (T := T) sz (by (try simp only [hT, Sys2Proof.shl]); omega),
    bv_mk (lo := 23) (T := T) sh (by (try simp only [hT, Sys2Proof.shl]); omega)]
  all_goals rfl

theorem ldf (gd : Guard) (d : Reg) (a : Reg) (sz : BitVec 2) (sgn : Bool) (rlx : Bool) (imm : BitVec 32) : Statement (.ldf gd d a sz sgn rlx imm) := by
  have := d.isLt
  have := a.isLt
  have := sz.isLt
  have := sgn.toNat_le
  have := rlx.toNat_le
  have := imm.isLt
  refine of_fields (tl := 3) (op := 0x084) rfl (by decide) rfl (by decide) ?_ rfl (by (try simp only [Sys2Proof.shl]); omega)
  suffices hh : ∀ T, T = d.toNat + Sys2Proof.shl (a.toNat) 5 + Sys2Proof.shl (sz.toNat) 10 + Sys2Proof.shl (sgn.toNat) 12 + Sys2Proof.shl (rlx.toNat) 15 + Sys2Proof.shl (imm.toNat) 16 → decodeFields 0x084 T gd = some (.ldf gd d a sz sgn rlx imm) from hh _ rfl
  intro T hT
  have e0 : decodeFields 0x084 T gd = (if zr T 13 2 then some (Instr.ldf gd (bv T 0 5) (bv T 5 5) (bv T 10 2) (bt T 12) (bt T 15) (bv T 16 32)) else none) := rfl
  rw [e0,
    zr_mk (lo := 13) (w := 2) (T := T) (by (try simp only [hT, Sys2Proof.shl]); omega)]
  show some (Instr.ldf gd (bv T 0 5) (bv T 5 5) (bv T 10 2) (bt T 12) (bt T 15) (bv T 16 32)) = _
  rw [bv_mk (lo := 0) (T := T) d (by (try simp only [hT, Sys2Proof.shl]); omega),
    bv_mk (lo := 5) (T := T) a (by (try simp only [hT, Sys2Proof.shl]); omega),
    bv_mk (lo := 10) (T := T) sz (by (try simp only [hT, Sys2Proof.shl]); omega),
    bt_mk (lo := 12) (T := T) sgn (by (try simp only [hT, Sys2Proof.shl]); omega),
    bt_mk (lo := 15) (T := T) rlx (by (try simp only [hT, Sys2Proof.shl]); omega),
    bv_mk (lo := 16) (T := T) imm (by (try simp only [hT, Sys2Proof.shl]); omega)]
  all_goals rfl

theorem stf (gd : Guard) (d : Reg) (a : Reg) (sz : BitVec 2) (rlx : Bool) (imm : BitVec 32) : Statement (.stf gd d a sz rlx imm) := by
  have := d.isLt
  have := a.isLt
  have := sz.isLt
  have := rlx.toNat_le
  have := imm.isLt
  refine of_fields (tl := 3) (op := 0x085) rfl (by decide) rfl (by decide) ?_ rfl (by (try simp only [Sys2Proof.shl]); omega)
  suffices hh : ∀ T, T = d.toNat + Sys2Proof.shl (a.toNat) 5 + Sys2Proof.shl (sz.toNat) 10 + Sys2Proof.shl (rlx.toNat) 15 + Sys2Proof.shl (imm.toNat) 16 → decodeFields 0x085 T gd = some (.stf gd d a sz rlx imm) from hh _ rfl
  intro T hT
  have e0 : decodeFields 0x085 T gd = (if zr T 12 3 then some (Instr.stf gd (bv T 0 5) (bv T 5 5) (bv T 10 2) (bt T 15) (bv T 16 32)) else none) := rfl
  rw [e0,
    zr_mk (lo := 12) (w := 3) (T := T) (by (try simp only [hT, Sys2Proof.shl]); omega)]
  show some (Instr.stf gd (bv T 0 5) (bv T 5 5) (bv T 10 2) (bt T 15) (bv T 16 32)) = _
  rw [bv_mk (lo := 0) (T := T) d (by (try simp only [hT, Sys2Proof.shl]); omega),
    bv_mk (lo := 5) (T := T) a (by (try simp only [hT, Sys2Proof.shl]); omega),
    bv_mk (lo := 10) (T := T) sz (by (try simp only [hT, Sys2Proof.shl]); omega),
    bt_mk (lo := 15) (T := T) rlx (by (try simp only [hT, Sys2Proof.shl]); omega),
    bv_mk (lo := 16) (T := T) imm (by (try simp only [hT, Sys2Proof.shl]); omega)]
  all_goals rfl

theorem take (gd : Guard) (d : Reg) (a : Reg) (b : Reg) (sz : BitVec 3) (sgn : Bool) : Statement (.take gd d a b sz sgn) := by
  have := d.isLt
  have := a.isLt
  have := b.isLt
  have := sz.isLt
  have := sgn.toNat_le
  refine of_fields (tl := 2) (op := 0x086) rfl (by decide) rfl (by decide) ?_ rfl (by (try simp only [Sys2Proof.shl]); omega)
  suffices hh : ∀ T, T = d.toNat + Sys2Proof.shl (a.toNat) 5 + Sys2Proof.shl (b.toNat) 10 + Sys2Proof.shl (sz.toNat) 20 + Sys2Proof.shl (sgn.toNat) 23 → decodeFields 0x086 T gd = some (.take gd d a b sz sgn) from hh _ rfl
  intro T hT
  have e0 : decodeFields 0x086 T gd = (if zr T 15 5 && zr T 24 8 then some (Instr.take gd (bv T 0 5) (bv T 5 5) (bv T 10 5) (bv T 20 3) (bt T 23)) else none) := rfl
  rw [e0,
    zr_mk (lo := 15) (w := 5) (T := T) (by (try simp only [hT, Sys2Proof.shl]); omega),
    zr_mk (lo := 24) (w := 8) (T := T) (by (try simp only [hT, Sys2Proof.shl]); omega)]
  show some (Instr.take gd (bv T 0 5) (bv T 5 5) (bv T 10 5) (bv T 20 3) (bt T 23)) = _
  rw [bv_mk (lo := 0) (T := T) d (by (try simp only [hT, Sys2Proof.shl]); omega),
    bv_mk (lo := 5) (T := T) a (by (try simp only [hT, Sys2Proof.shl]); omega),
    bv_mk (lo := 10) (T := T) b (by (try simp only [hT, Sys2Proof.shl]); omega),
    bv_mk (lo := 20) (T := T) sz (by (try simp only [hT, Sys2Proof.shl]); omega),
    bt_mk (lo := 23) (T := T) sgn (by (try simp only [hT, Sys2Proof.shl]); omega)]
  all_goals rfl

theorem put (gd : Guard) (d : Reg) (a : Reg) (b : Reg) (sz : BitVec 3) : Statement (.put gd d a b sz) := by
  have := d.isLt
  have := a.isLt
  have := b.isLt
  have := sz.isLt
  refine of_fields (tl := 2) (op := 0x087) rfl (by decide) rfl (by decide) ?_ rfl (by (try simp only [Sys2Proof.shl]); omega)
  suffices hh : ∀ T, T = d.toNat + Sys2Proof.shl (a.toNat) 5 + Sys2Proof.shl (b.toNat) 10 + Sys2Proof.shl (sz.toNat) 20 → decodeFields 0x087 T gd = some (.put gd d a b sz) from hh _ rfl
  intro T hT
  have e0 : decodeFields 0x087 T gd = (if zr T 15 5 && zr T 23 9 then some (Instr.put gd (bv T 0 5) (bv T 5 5) (bv T 10 5) (bv T 20 3)) else none) := rfl
  rw [e0,
    zr_mk (lo := 15) (w := 5) (T := T) (by (try simp only [hT, Sys2Proof.shl]); omega),
    zr_mk (lo := 23) (w := 9) (T := T) (by (try simp only [hT, Sys2Proof.shl]); omega)]
  show some (Instr.put gd (bv T 0 5) (bv T 5 5) (bv T 10 5) (bv T 20 3)) = _
  rw [bv_mk (lo := 0) (T := T) d (by (try simp only [hT, Sys2Proof.shl]); omega),
    bv_mk (lo := 5) (T := T) a (by (try simp only [hT, Sys2Proof.shl]); omega),
    bv_mk (lo := 10) (T := T) b (by (try simp only [hT, Sys2Proof.shl]); omega),
    bv_mk (lo := 20) (T := T) sz (by (try simp only [hT, Sys2Proof.shl]); omega)]
  all_goals rfl

theorem peek (gd : Guard) (d : Reg) (a : Reg) (b : Reg) (sz : BitVec 3) (sgn : Bool) : Statement (.peek gd d a b sz sgn) := by
  have := d.isLt
  have := a.isLt
  have := b.isLt
  have := sz.isLt
  have := sgn.toNat_le
  refine of_fields (tl := 2) (op := 0x088) rfl (by decide) rfl (by decide) ?_ rfl (by (try simp only [Sys2Proof.shl]); omega)
  suffices hh : ∀ T, T = d.toNat + Sys2Proof.shl (a.toNat) 5 + Sys2Proof.shl (b.toNat) 10 + Sys2Proof.shl (sz.toNat) 20 + Sys2Proof.shl (sgn.toNat) 23 → decodeFields 0x088 T gd = some (.peek gd d a b sz sgn) from hh _ rfl
  intro T hT
  have e0 : decodeFields 0x088 T gd = (if zr T 15 5 && zr T 24 8 then some (Instr.peek gd (bv T 0 5) (bv T 5 5) (bv T 10 5) (bv T 20 3) (bt T 23)) else none) := rfl
  rw [e0,
    zr_mk (lo := 15) (w := 5) (T := T) (by (try simp only [hT, Sys2Proof.shl]); omega),
    zr_mk (lo := 24) (w := 8) (T := T) (by (try simp only [hT, Sys2Proof.shl]); omega)]
  show some (Instr.peek gd (bv T 0 5) (bv T 5 5) (bv T 10 5) (bv T 20 3) (bt T 23)) = _
  rw [bv_mk (lo := 0) (T := T) d (by (try simp only [hT, Sys2Proof.shl]); omega),
    bv_mk (lo := 5) (T := T) a (by (try simp only [hT, Sys2Proof.shl]); omega),
    bv_mk (lo := 10) (T := T) b (by (try simp only [hT, Sys2Proof.shl]); omega),
    bv_mk (lo := 20) (T := T) sz (by (try simp only [hT, Sys2Proof.shl]); omega),
    bt_mk (lo := 23) (T := T) sgn (by (try simp only [hT, Sys2Proof.shl]); omega)]
  all_goals rfl

theorem feset (gd : Guard) (a : Reg) (b : Reg) (st : BitVec 2) : Statement (.feset gd a b st) := by
  have := a.isLt
  have := b.isLt
  have := st.isLt
  refine of_fields (tl := 2) (op := 0x089) rfl (by decide) rfl (by decide) ?_ rfl (by (try simp only [Sys2Proof.shl]); omega)
  suffices hh : ∀ T, T = Sys2Proof.shl (a.toNat) 5 + Sys2Proof.shl (b.toNat) 10 + Sys2Proof.shl (st.toNat) 20 → decodeFields 0x089 T gd = some (.feset gd a b st) from hh _ rfl
  intro T hT
  have e0 : decodeFields 0x089 T gd = (if zr T 0 5 && zr T 15 5 && zr T 22 10 then some (Instr.feset gd (bv T 5 5) (bv T 10 5) (bv T 20 2)) else none) := rfl
  rw [e0,
    zr_mk (lo := 0) (w := 5) (T := T) (by (try simp only [hT, Sys2Proof.shl]); omega),
    zr_mk (lo := 15) (w := 5) (T := T) (by (try simp only [hT, Sys2Proof.shl]); omega),
    zr_mk (lo := 22) (w := 10) (T := T) (by (try simp only [hT, Sys2Proof.shl]); omega)]
  show some (Instr.feset gd (bv T 5 5) (bv T 10 5) (bv T 20 2)) = _
  rw [bv_mk (lo := 5) (T := T) a (by (try simp only [hT, Sys2Proof.shl]); omega),
    bv_mk (lo := 10) (T := T) b (by (try simp only [hT, Sys2Proof.shl]); omega),
    bv_mk (lo := 20) (T := T) st (by (try simp only [hT, Sys2Proof.shl]); omega)]
  all_goals rfl

theorem feget (gd : Guard) (d : Reg) (a : Reg) (o : Bool) : Statement (.feget gd d a o) := by
  have := d.isLt
  have := a.isLt
  have := o.toNat_le
  refine of_fields (tl := 1) (op := 0x08A) rfl (by decide) rfl (by decide) ?_ rfl (by (try simp only [Sys2Proof.shl]); omega)
  suffices hh : ∀ T, T = d.toNat + Sys2Proof.shl (a.toNat) 5 + Sys2Proof.shl (o.toNat) 15 → decodeFields 0x08A T gd = some (.feget gd d a o) from hh _ rfl
  intro T hT
  have e0 : decodeFields 0x08A T gd = (if zr T 10 5 then some (Instr.feget gd (bv T 0 5) (bv T 5 5) (bt T 15)) else none) := rfl
  rw [e0,
    zr_mk (lo := 10) (w := 5) (T := T) (by (try simp only [hT, Sys2Proof.shl]); omega)]
  show some (Instr.feget gd (bv T 0 5) (bv T 5 5) (bt T 15)) = _
  rw [bv_mk (lo := 0) (T := T) d (by (try simp only [hT, Sys2Proof.shl]); omega),
    bv_mk (lo := 5) (T := T) a (by (try simp only [hT, Sys2Proof.shl]); omega),
    bt_mk (lo := 15) (T := T) o (by (try simp only [hT, Sys2Proof.shl]); omega)]
  all_goals rfl

theorem amo (gd : Guard) (d : Reg) (a : Reg) (b : Reg) (op : BitVec 4) (dbl : Bool) (rlx : Bool) : Statement (.amo gd d a b op dbl rlx) := by
  have := d.isLt
  have := a.isLt
  have := b.isLt
  have := op.isLt
  have := dbl.toNat_le
  have := rlx.toNat_le
  refine of_fields (tl := 2) (op := 0x08B) rfl (by decide) rfl (by decide) ?_ rfl (by (try simp only [Sys2Proof.shl]); omega)
  suffices hh : ∀ T, T = d.toNat + Sys2Proof.shl (a.toNat) 5 + Sys2Proof.shl (b.toNat) 10 + Sys2Proof.shl (op.toNat) 20 + Sys2Proof.shl (dbl.toNat) 24 + Sys2Proof.shl (rlx.toNat) 25 → decodeFields 0x08B T gd = some (.amo gd d a b op dbl rlx) from hh _ rfl
  intro T hT
  have e0 : decodeFields 0x08B T gd = (if zr T 15 5 && zr T 26 6 then some (Instr.amo gd (bv T 0 5) (bv T 5 5) (bv T 10 5) (bv T 20 4) (bt T 24) (bt T 25)) else none) := rfl
  rw [e0,
    zr_mk (lo := 15) (w := 5) (T := T) (by (try simp only [hT, Sys2Proof.shl]); omega),
    zr_mk (lo := 26) (w := 6) (T := T) (by (try simp only [hT, Sys2Proof.shl]); omega)]
  show some (Instr.amo gd (bv T 0 5) (bv T 5 5) (bv T 10 5) (bv T 20 4) (bt T 24) (bt T 25)) = _
  rw [bv_mk (lo := 0) (T := T) d (by (try simp only [hT, Sys2Proof.shl]); omega),
    bv_mk (lo := 5) (T := T) a (by (try simp only [hT, Sys2Proof.shl]); omega),
    bv_mk (lo := 10) (T := T) b (by (try simp only [hT, Sys2Proof.shl]); omega),
    bv_mk (lo := 20) (T := T) op (by (try simp only [hT, Sys2Proof.shl]); omega),
    bt_mk (lo := 24) (T := T) dbl (by (try simp only [hT, Sys2Proof.shl]); omega),
    bt_mk (lo := 25) (T := T) rlx (by (try simp only [hT, Sys2Proof.shl]); omega)]
  all_goals rfl

theorem cas (gd : Guard) (d : Reg) (a : Reg) (b : Reg) (c : Reg) (op : BitVec 4) (dbl : Bool) (rlx : Bool) : Statement (.cas gd d a b c op dbl rlx) := by
  have := d.isLt
  have := a.isLt
  have := b.isLt
  have := c.isLt
  have := op.isLt
  have := dbl.toNat_le
  have := rlx.toNat_le
  refine of_fields (tl := 2) (op := 0x08C) rfl (by decide) rfl (by decide) ?_ rfl (by (try simp only [Sys2Proof.shl]); omega)
  suffices hh : ∀ T, T = d.toNat + Sys2Proof.shl (a.toNat) 5 + Sys2Proof.shl (b.toNat) 10 + Sys2Proof.shl (c.toNat) 15 + Sys2Proof.shl (op.toNat) 20 + Sys2Proof.shl (dbl.toNat) 24 + Sys2Proof.shl (rlx.toNat) 25 → decodeFields 0x08C T gd = some (.cas gd d a b c op dbl rlx) from hh _ rfl
  intro T hT
  have e0 : decodeFields 0x08C T gd = (if zr T 26 6 then some (Instr.cas gd (bv T 0 5) (bv T 5 5) (bv T 10 5) (bv T 15 5) (bv T 20 4) (bt T 24) (bt T 25)) else none) := rfl
  rw [e0,
    zr_mk (lo := 26) (w := 6) (T := T) (by (try simp only [hT, Sys2Proof.shl]); omega)]
  show some (Instr.cas gd (bv T 0 5) (bv T 5 5) (bv T 10 5) (bv T 15 5) (bv T 20 4) (bt T 24) (bt T 25)) = _
  rw [bv_mk (lo := 0) (T := T) d (by (try simp only [hT, Sys2Proof.shl]); omega),
    bv_mk (lo := 5) (T := T) a (by (try simp only [hT, Sys2Proof.shl]); omega),
    bv_mk (lo := 10) (T := T) b (by (try simp only [hT, Sys2Proof.shl]); omega),
    bv_mk (lo := 15) (T := T) c (by (try simp only [hT, Sys2Proof.shl]); omega),
    bv_mk (lo := 20) (T := T) op (by (try simp only [hT, Sys2Proof.shl]); omega),
    bt_mk (lo := 24) (T := T) dbl (by (try simp only [hT, Sys2Proof.shl]); omega),
    bt_mk (lo := 25) (T := T) rlx (by (try simp only [hT, Sys2Proof.shl]); omega)]
  all_goals rfl

theorem red (gd : Guard) (a : Reg) (b : Reg) (op : BitVec 4) (dbl : Bool) : Statement (.red gd a b op dbl) := by
  have := a.isLt
  have := b.isLt
  have := op.isLt
  have := dbl.toNat_le
  refine of_fields (tl := 2) (op := 0x08D) rfl (by decide) rfl (by decide) ?_ rfl (by (try simp only [Sys2Proof.shl]); omega)
  suffices hh : ∀ T, T = Sys2Proof.shl (a.toNat) 5 + Sys2Proof.shl (b.toNat) 10 + Sys2Proof.shl (op.toNat) 20 + Sys2Proof.shl (dbl.toNat) 24 → decodeFields 0x08D T gd = some (.red gd a b op dbl) from hh _ rfl
  intro T hT
  have e0 : decodeFields 0x08D T gd = (if zr T 0 5 && zr T 15 5 && zr T 25 7 then some (Instr.red gd (bv T 5 5) (bv T 10 5) (bv T 20 4) (bt T 24)) else none) := rfl
  rw [e0,
    zr_mk (lo := 0) (w := 5) (T := T) (by (try simp only [hT, Sys2Proof.shl]); omega),
    zr_mk (lo := 15) (w := 5) (T := T) (by (try simp only [hT, Sys2Proof.shl]); omega),
    zr_mk (lo := 25) (w := 7) (T := T) (by (try simp only [hT, Sys2Proof.shl]); omega)]
  show some (Instr.red gd (bv T 5 5) (bv T 10 5) (bv T 20 4) (bt T 24)) = _
  rw [bv_mk (lo := 5) (T := T) a (by (try simp only [hT, Sys2Proof.shl]); omega),
    bv_mk (lo := 10) (T := T) b (by (try simp only [hT, Sys2Proof.shl]); omega),
    bv_mk (lo := 20) (T := T) op (by (try simp only [hT, Sys2Proof.shl]); omega),
    bt_mk (lo := 24) (T := T) dbl (by (try simp only [hT, Sys2Proof.shl]); omega)]
  all_goals rfl

theorem waitc (gd : Guard) (a : Reg) (imm : BitVec 32) : Statement (.waitc gd a imm) := by
  have := a.isLt
  have := imm.isLt
  refine of_fields (tl := 3) (op := 0x08E) rfl (by decide) rfl (by decide) ?_ rfl (by (try simp only [Sys2Proof.shl]); omega)
  suffices hh : ∀ T, T = Sys2Proof.shl (a.toNat) 5 + Sys2Proof.shl (imm.toNat) 16 → decodeFields 0x08E T gd = some (.waitc gd a imm) from hh _ rfl
  intro T hT
  have e0 : decodeFields 0x08E T gd = (if zr T 0 5 && zr T 10 6 then some (Instr.waitc gd (bv T 5 5) (bv T 16 32)) else none) := rfl
  rw [e0,
    zr_mk (lo := 0) (w := 5) (T := T) (by (try simp only [hT, Sys2Proof.shl]); omega),
    zr_mk (lo := 10) (w := 6) (T := T) (by (try simp only [hT, Sys2Proof.shl]); omega)]
  show some (Instr.waitc gd (bv T 5 5) (bv T 16 32)) = _
  rw [bv_mk (lo := 5) (T := T) a (by (try simp only [hT, Sys2Proof.shl]); omega),
    bv_mk (lo := 16) (T := T) imm (by (try simp only [hT, Sys2Proof.shl]); omega)]
  all_goals rfl

theorem fence (gd : Guard) (d : Reg) (a : Reg) (mask : BitVec 8) : Statement (.fence gd d a mask) := by
  have := d.isLt
  have := a.isLt
  have := mask.isLt
  refine of_fields (tl := 2) (op := 0x08F) rfl (by decide) rfl (by decide) ?_ rfl (by (try simp only [Sys2Proof.shl]); omega)
  suffices hh : ∀ T, T = d.toNat + Sys2Proof.shl (a.toNat) 5 + Sys2Proof.shl (mask.toNat) 20 → decodeFields 0x08F T gd = some (.fence gd d a mask) from hh _ rfl
  intro T hT
  have e0 : decodeFields 0x08F T gd = (if zr T 10 10 && zr T 28 4 then some (Instr.fence gd (bv T 0 5) (bv T 5 5) (bv T 20 8)) else none) := rfl
  rw [e0,
    zr_mk (lo := 10) (w := 10) (T := T) (by (try simp only [hT, Sys2Proof.shl]); omega),
    zr_mk (lo := 28) (w := 4) (T := T) (by (try simp only [hT, Sys2Proof.shl]); omega)]
  show some (Instr.fence gd (bv T 0 5) (bv T 5 5) (bv T 20 8)) = _
  rw [bv_mk (lo := 0) (T := T) d (by (try simp only [hT, Sys2Proof.shl]); omega),
    bv_mk (lo := 5) (T := T) a (by (try simp only [hT, Sys2Proof.shl]); omega),
    bv_mk (lo := 20) (T := T) mask (by (try simp only [hT, Sys2Proof.shl]); omega)]
  all_goals rfl

theorem xfence (gd : Guard) (a : Reg) (frm : BitVec 8) (tgt : BitVec 8) : Statement (.xfence gd a frm tgt) := by
  have := a.isLt
  have := frm.isLt
  have := tgt.isLt
  refine of_fields (tl := 3) (op := 0x090) rfl (by decide) rfl (by decide) ?_ rfl (by (try simp only [Sys2Proof.shl]); omega)
  suffices hh : ∀ T, T = Sys2Proof.shl (a.toNat) 5 + Sys2Proof.shl (frm.toNat) 16 + Sys2Proof.shl (tgt.toNat) 24 → decodeFields 0x090 T gd = some (.xfence gd a frm tgt) from hh _ rfl
  intro T hT
  have e0 : decodeFields 0x090 T gd = (if zr T 0 5 && zr T 10 6 && zr T 32 16 then some (Instr.xfence gd (bv T 5 5) (bv T 16 8) (bv T 24 8)) else none) := rfl
  rw [e0,
    zr_mk (lo := 0) (w := 5) (T := T) (by (try simp only [hT, Sys2Proof.shl]); omega),
    zr_mk (lo := 10) (w := 6) (T := T) (by (try simp only [hT, Sys2Proof.shl]); omega),
    zr_mk (lo := 32) (w := 16) (T := T) (by (try simp only [hT, Sys2Proof.shl]); omega)]
  show some (Instr.xfence gd (bv T 5 5) (bv T 16 8) (bv T 24 8)) = _
  rw [bv_mk (lo := 5) (T := T) a (by (try simp only [hT, Sys2Proof.shl]); omega),
    bv_mk (lo := 16) (T := T) frm (by (try simp only [hT, Sys2Proof.shl]); omega),
    bv_mk (lo := 24) (T := T) tgt (by (try simp only [hT, Sys2Proof.shl]); omega)]
  all_goals rfl

theorem go (gd : Guard) (a : Reg) : Statement (.go gd a) := by
  have := a.isLt
  refine of_fields (tl := 1) (op := 0x0C0) rfl (by decide) rfl (by decide) ?_ rfl (by (try simp only [Sys2Proof.shl]); omega)
  suffices hh : ∀ T, T = Sys2Proof.shl (a.toNat) 5 → decodeFields 0x0C0 T gd = some (.go gd a) from hh _ rfl
  intro T hT
  have e0 : decodeFields 0x0C0 T gd = (if zr T 0 5 && zr T 10 6 then some (Instr.go gd (bv T 5 5)) else none) := rfl
  rw [e0,
    zr_mk (lo := 0) (w := 5) (T := T) (by (try simp only [hT, Sys2Proof.shl]); omega),
    zr_mk (lo := 10) (w := 6) (T := T) (by (try simp only [hT, Sys2Proof.shl]); omega)]
  show some (Instr.go gd (bv T 5 5)) = _
  rw [bv_mk (lo := 5) (T := T) a (by (try simp only [hT, Sys2Proof.shl]); omega)]
  all_goals rfl

theorem back (gd : Guard) : Statement (.back gd) := by
  exact of_fields (tl := 0) (op := 0x0C1) rfl (by decide) rfl (by decide) rfl rfl (by decide)

theorem mld (gd : Guard) (d : Reg) (a : Reg) (sz : BitVec 2) (sgn : Bool) (imm : BitVec 32) : Statement (.mld gd d a sz sgn imm) := by
  have := d.isLt
  have := a.isLt
  have := sz.isLt
  have := sgn.toNat_le
  have := imm.isLt
  refine of_fields (tl := 3) (op := 0x0C2) rfl (by decide) rfl (by decide) ?_ rfl (by (try simp only [Sys2Proof.shl]); omega)
  suffices hh : ∀ T, T = d.toNat + Sys2Proof.shl (a.toNat) 5 + Sys2Proof.shl (sz.toNat) 10 + Sys2Proof.shl (sgn.toNat) 12 + Sys2Proof.shl (imm.toNat) 16 → decodeFields 0x0C2 T gd = some (.mld gd d a sz sgn imm) from hh _ rfl
  intro T hT
  have e0 : decodeFields 0x0C2 T gd = (if zr T 13 3 then some (Instr.mld gd (bv T 0 5) (bv T 5 5) (bv T 10 2) (bt T 12) (bv T 16 32)) else none) := rfl
  rw [e0,
    zr_mk (lo := 13) (w := 3) (T := T) (by (try simp only [hT, Sys2Proof.shl]); omega)]
  show some (Instr.mld gd (bv T 0 5) (bv T 5 5) (bv T 10 2) (bt T 12) (bv T 16 32)) = _
  rw [bv_mk (lo := 0) (T := T) d (by (try simp only [hT, Sys2Proof.shl]); omega),
    bv_mk (lo := 5) (T := T) a (by (try simp only [hT, Sys2Proof.shl]); omega),
    bv_mk (lo := 10) (T := T) sz (by (try simp only [hT, Sys2Proof.shl]); omega),
    bt_mk (lo := 12) (T := T) sgn (by (try simp only [hT, Sys2Proof.shl]); omega),
    bv_mk (lo := 16) (T := T) imm (by (try simp only [hT, Sys2Proof.shl]); omega)]
  all_goals rfl

theorem mst (gd : Guard) (d : Reg) (a : Reg) (sz : BitVec 2) (imm : BitVec 32) : Statement (.mst gd d a sz imm) := by
  have := d.isLt
  have := a.isLt
  have := sz.isLt
  have := imm.isLt
  refine of_fields (tl := 3) (op := 0x0C3) rfl (by decide) rfl (by decide) ?_ rfl (by (try simp only [Sys2Proof.shl]); omega)
  suffices hh : ∀ T, T = d.toNat + Sys2Proof.shl (a.toNat) 5 + Sys2Proof.shl (sz.toNat) 10 + Sys2Proof.shl (imm.toNat) 16 → decodeFields 0x0C3 T gd = some (.mst gd d a sz imm) from hh _ rfl
  intro T hT
  have e0 : decodeFields 0x0C3 T gd = (if zr T 12 4 then some (Instr.mst gd (bv T 0 5) (bv T 5 5) (bv T 10 2) (bv T 16 32)) else none) := rfl
  rw [e0,
    zr_mk (lo := 12) (w := 4) (T := T) (by (try simp only [hT, Sys2Proof.shl]); omega)]
  show some (Instr.mst gd (bv T 0 5) (bv T 5 5) (bv T 10 2) (bv T 16 32)) = _
  rw [bv_mk (lo := 0) (T := T) d (by (try simp only [hT, Sys2Proof.shl]); omega),
    bv_mk (lo := 5) (T := T) a (by (try simp only [hT, Sys2Proof.shl]); omega),
    bv_mk (lo := 10) (T := T) sz (by (try simp only [hT, Sys2Proof.shl]); omega),
    bv_mk (lo := 16) (T := T) imm (by (try simp only [hT, Sys2Proof.shl]); omega)]
  all_goals rfl

theorem mamo (gd : Guard) (d : Reg) (a : Reg) (b : Reg) (c : Reg) (op : BitVec 4) (dbl : Bool) (rlx : Bool) : Statement (.mamo gd d a b c op dbl rlx) := by
  have := d.isLt
  have := a.isLt
  have := b.isLt
  have := c.isLt
  have := op.isLt
  have := dbl.toNat_le
  have := rlx.toNat_le
  refine of_fields (tl := 2) (op := 0x0C4) rfl (by decide) rfl (by decide) ?_ rfl (by (try simp only [Sys2Proof.shl]); omega)
  suffices hh : ∀ T, T = d.toNat + Sys2Proof.shl (a.toNat) 5 + Sys2Proof.shl (b.toNat) 10 + Sys2Proof.shl (c.toNat) 15 + Sys2Proof.shl (op.toNat) 20 + Sys2Proof.shl (dbl.toNat) 24 + Sys2Proof.shl (rlx.toNat) 25 → decodeFields 0x0C4 T gd = some (.mamo gd d a b c op dbl rlx) from hh _ rfl
  intro T hT
  have e0 : decodeFields 0x0C4 T gd = (if zr T 26 6 then some (Instr.mamo gd (bv T 0 5) (bv T 5 5) (bv T 10 5) (bv T 15 5) (bv T 20 4) (bt T 24) (bt T 25)) else none) := rfl
  rw [e0,
    zr_mk (lo := 26) (w := 6) (T := T) (by (try simp only [hT, Sys2Proof.shl]); omega)]
  show some (Instr.mamo gd (bv T 0 5) (bv T 5 5) (bv T 10 5) (bv T 15 5) (bv T 20 4) (bt T 24) (bt T 25)) = _
  rw [bv_mk (lo := 0) (T := T) d (by (try simp only [hT, Sys2Proof.shl]); omega),
    bv_mk (lo := 5) (T := T) a (by (try simp only [hT, Sys2Proof.shl]); omega),
    bv_mk (lo := 10) (T := T) b (by (try simp only [hT, Sys2Proof.shl]); omega),
    bv_mk (lo := 15) (T := T) c (by (try simp only [hT, Sys2Proof.shl]); omega),
    bv_mk (lo := 20) (T := T) op (by (try simp only [hT, Sys2Proof.shl]); omega),
    bt_mk (lo := 24) (T := T) dbl (by (try simp only [hT, Sys2Proof.shl]); omega),
    bt_mk (lo := 25) (T := T) rlx (by (try simp only [hT, Sys2Proof.shl]); omega)]
  all_goals rfl

theorem remup (gd : Guard) (a : Reg) (b : Reg) (op : BitVec 4) (dbl : Bool) : Statement (.remup gd a b op dbl) := by
  have := a.isLt
  have := b.isLt
  have := op.isLt
  have := dbl.toNat_le
  refine of_fields (tl := 2) (op := 0x0C5) rfl (by decide) rfl (by decide) ?_ rfl (by (try simp only [Sys2Proof.shl]); omega)
  suffices hh : ∀ T, T = Sys2Proof.shl (a.toNat) 5 + Sys2Proof.shl (b.toNat) 10 + Sys2Proof.shl (op.toNat) 20 + Sys2Proof.shl (dbl.toNat) 24 → decodeFields 0x0C5 T gd = some (.remup gd a b op dbl) from hh _ rfl
  intro T hT
  have e0 : decodeFields 0x0C5 T gd = (if zr T 0 5 && zr T 15 5 && zr T 25 7 then some (Instr.remup gd (bv T 5 5) (bv T 10 5) (bv T 20 4) (bt T 24)) else none) := rfl
  rw [e0,
    zr_mk (lo := 0) (w := 5) (T := T) (by (try simp only [hT, Sys2Proof.shl]); omega),
    zr_mk (lo := 15) (w := 5) (T := T) (by (try simp only [hT, Sys2Proof.shl]); omega),
    zr_mk (lo := 25) (w := 7) (T := T) (by (try simp only [hT, Sys2Proof.shl]); omega)]
  show some (Instr.remup gd (bv T 5 5) (bv T 10 5) (bv T 20 4) (bt T 24)) = _
  rw [bv_mk (lo := 5) (T := T) a (by (try simp only [hT, Sys2Proof.shl]); omega),
    bv_mk (lo := 10) (T := T) b (by (try simp only [hT, Sys2Proof.shl]); omega),
    bv_mk (lo := 20) (T := T) op (by (try simp only [hT, Sys2Proof.shl]); omega),
    bt_mk (lo := 24) (T := T) dbl (by (try simp only [hT, Sys2Proof.shl]); omega)]
  all_goals rfl

theorem tlook (gd : Guard) (d : Reg) (a : Reg) : Statement (.tlook gd d a) := by
  have := d.isLt
  have := a.isLt
  refine of_fields (tl := 1) (op := 0x0C8) rfl (by decide) rfl (by decide) ?_ rfl (by (try simp only [Sys2Proof.shl]); omega)
  suffices hh : ∀ T, T = d.toNat + Sys2Proof.shl (a.toNat) 5 → decodeFields 0x0C8 T gd = some (.tlook gd d a) from hh _ rfl
  intro T hT
  have e0 : decodeFields 0x0C8 T gd = (if zr T 10 6 then some (Instr.tlook gd (bv T 0 5) (bv T 5 5)) else none) := rfl
  rw [e0,
    zr_mk (lo := 10) (w := 6) (T := T) (by (try simp only [hT, Sys2Proof.shl]); omega)]
  show some (Instr.tlook gd (bv T 0 5) (bv T 5 5)) = _
  rw [bv_mk (lo := 0) (T := T) d (by (try simp only [hT, Sys2Proof.shl]); omega),
    bv_mk (lo := 5) (T := T) a (by (try simp only [hT, Sys2Proof.shl]); omega)]
  all_goals rfl

theorem tins (gd : Guard) (a : Reg) (b : Reg) (fill : Bool) (dirty : Bool) : Statement (.tins gd a b fill dirty) := by
  have := a.isLt
  have := b.isLt
  have := fill.toNat_le
  have := dirty.toNat_le
  refine of_fields (tl := 2) (op := 0x0C9) rfl (by decide) rfl (by decide) ?_ rfl (by (try simp only [Sys2Proof.shl]); omega)
  suffices hh : ∀ T, T = Sys2Proof.shl (a.toNat) 5 + Sys2Proof.shl (b.toNat) 10 + Sys2Proof.shl (fill.toNat) 20 + Sys2Proof.shl (dirty.toNat) 21 → decodeFields 0x0C9 T gd = some (.tins gd a b fill dirty) from hh _ rfl
  intro T hT
  have e0 : decodeFields 0x0C9 T gd = (if zr T 0 5 && zr T 15 5 && zr T 22 10 then some (Instr.tins gd (bv T 5 5) (bv T 10 5) (bt T 20) (bt T 21)) else none) := rfl
  rw [e0,
    zr_mk (lo := 0) (w := 5) (T := T) (by (try simp only [hT, Sys2Proof.shl]); omega),
    zr_mk (lo := 15) (w := 5) (T := T) (by (try simp only [hT, Sys2Proof.shl]); omega),
    zr_mk (lo := 22) (w := 10) (T := T) (by (try simp only [hT, Sys2Proof.shl]); omega)]
  show some (Instr.tins gd (bv T 5 5) (bv T 10 5) (bt T 20) (bt T 21)) = _
  rw [bv_mk (lo := 5) (T := T) a (by (try simp only [hT, Sys2Proof.shl]); omega),
    bv_mk (lo := 10) (T := T) b (by (try simp only [hT, Sys2Proof.shl]); omega),
    bt_mk (lo := 20) (T := T) fill (by (try simp only [hT, Sys2Proof.shl]); omega),
    bt_mk (lo := 21) (T := T) dirty (by (try simp only [hT, Sys2Proof.shl]); omega)]
  all_goals rfl

theorem tdel (gd : Guard) (a : Reg) (wide : Bool) : Statement (.tdel gd a wide) := by
  have := a.isLt
  have := wide.toNat_le
  refine of_fields (tl := 1) (op := 0x0CA) rfl (by decide) rfl (by decide) ?_ rfl (by (try simp only [Sys2Proof.shl]); omega)
  suffices hh : ∀ T, T = Sys2Proof.shl (a.toNat) 5 + Sys2Proof.shl (wide.toNat) 15 → decodeFields 0x0CA T gd = some (.tdel gd a wide) from hh _ rfl
  intro T hT
  have e0 : decodeFields 0x0CA T gd = (if zr T 0 5 && zr T 10 5 then some (Instr.tdel gd (bv T 5 5) (bt T 15)) else none) := rfl
  rw [e0,
    zr_mk (lo := 0) (w := 5) (T := T) (by (try simp only [hT, Sys2Proof.shl]); omega),
    zr_mk (lo := 10) (w := 5) (T := T) (by (try simp only [hT, Sys2Proof.shl]); omega)]
  show some (Instr.tdel gd (bv T 5 5) (bt T 15)) = _
  rw [bv_mk (lo := 5) (T := T) a (by (try simp only [hT, Sys2Proof.shl]); omega),
    bt_mk (lo := 15) (T := T) wide (by (try simp only [hT, Sys2Proof.shl]); omega)]
  all_goals rfl

theorem hnd (gd : Guard) (d : Reg) (a : Reg) (left : Bool) : Statement (.hnd gd d a left) := by
  have := d.isLt
  have := a.isLt
  have := left.toNat_le
  refine of_fields (tl := 1) (op := 0x0E0) rfl (by decide) rfl (by decide) ?_ rfl (by (try simp only [Sys2Proof.shl]); omega)
  suffices hh : ∀ T, T = d.toNat + Sys2Proof.shl (a.toNat) 5 + Sys2Proof.shl (left.toNat) 15 → decodeFields 0x0E0 T gd = some (.hnd gd d a left) from hh _ rfl
  intro T hT
  have e0 : decodeFields 0x0E0 T gd = (if zr T 10 5 then some (Instr.hnd gd (bv T 0 5) (bv T 5 5) (bt T 15)) else none) := rfl
  rw [e0,
    zr_mk (lo := 10) (w := 5) (T := T) (by (try simp only [hT, Sys2Proof.shl]); omega)]
  show some (Instr.hnd gd (bv T 0 5) (bv T 5 5) (bt T 15)) = _
  rw [bv_mk (lo := 0) (T := T) d (by (try simp only [hT, Sys2Proof.shl]); omega),
    bv_mk (lo := 5) (T := T) a (by (try simp only [hT, Sys2Proof.shl]); omega),
    bt_mk (lo := 15) (T := T) left (by (try simp only [hT, Sys2Proof.shl]); omega)]
  all_goals rfl

theorem narrow (gd : Guard) (a : Reg) : Statement (.narrow gd a) := by
  have := a.isLt
  refine of_fields (tl := 1) (op := 0x0E1) rfl (by decide) rfl (by decide) ?_ rfl (by (try simp only [Sys2Proof.shl]); omega)
  suffices hh : ∀ T, T = Sys2Proof.shl (a.toNat) 5 → decodeFields 0x0E1 T gd = some (.narrow gd a) from hh _ rfl
  intro T hT
  have e0 : decodeFields 0x0E1 T gd = (if zr T 0 5 && zr T 10 6 then some (Instr.narrow gd (bv T 5 5)) else none) := rfl
  rw [e0,
    zr_mk (lo := 0) (w := 5) (T := T) (by (try simp only [hT, Sys2Proof.shl]); omega),
    zr_mk (lo := 10) (w := 6) (T := T) (by (try simp only [hT, Sys2Proof.shl]); omega)]
  show some (Instr.narrow gd (bv T 5 5)) = _
  rw [bv_mk (lo := 5) (T := T) a (by (try simp only [hT, Sys2Proof.shl]); omega)]
  all_goals rfl

theorem union (gd : Guard) (d : Reg) (a : Reg) (n : BitVec 7) : Statement (.union gd d a n) := by
  have := d.isLt
  have := a.isLt
  have := n.isLt
  refine of_fields (tl := 2) (op := 0x0E2) rfl (by decide) rfl (by decide) ?_ rfl (by (try simp only [Sys2Proof.shl]); omega)
  suffices hh : ∀ T, T = d.toNat + Sys2Proof.shl (a.toNat) 5 + Sys2Proof.shl (n.toNat) 20 → decodeFields 0x0E2 T gd = some (.union gd d a n) from hh _ rfl
  intro T hT
  have e0 : decodeFields 0x0E2 T gd = (if zr T 10 10 && zr T 27 5 then some (Instr.union gd (bv T 0 5) (bv T 5 5) (bv T 20 7)) else none) := rfl
  rw [e0,
    zr_mk (lo := 10) (w := 10) (T := T) (by (try simp only [hT, Sys2Proof.shl]); omega),
    zr_mk (lo := 27) (w := 5) (T := T) (by (try simp only [hT, Sys2Proof.shl]); omega)]
  show some (Instr.union gd (bv T 0 5) (bv T 5 5) (bv T 20 7)) = _
  rw [bv_mk (lo := 0) (T := T) d (by (try simp only [hT, Sys2Proof.shl]); omega),
    bv_mk (lo := 5) (T := T) a (by (try simp only [hT, Sys2Proof.shl]); omega),
    bv_mk (lo := 20) (T := T) n (by (try simp only [hT, Sys2Proof.shl]); omega)]
  all_goals rfl

theorem livemask (gd : Guard) (d : Reg) (a : Reg) : Statement (.livemask gd d a) := by
  have := d.isLt
  have := a.isLt
  refine of_fields (tl := 1) (op := 0x0E3) rfl (by decide) rfl (by decide) ?_ rfl (by (try simp only [Sys2Proof.shl]); omega)
  suffices hh : ∀ T, T = d.toNat + Sys2Proof.shl (a.toNat) 5 → decodeFields 0x0E3 T gd = some (.livemask gd d a) from hh _ rfl
  intro T hT
  have e0 : decodeFields 0x0E3 T gd = (if zr T 10 6 then some (Instr.livemask gd (bv T 0 5) (bv T 5 5)) else none) := rfl
  rw [e0,
    zr_mk (lo := 10) (w := 6) (T := T) (by (try simp only [hT, Sys2Proof.shl]); omega)]
  show some (Instr.livemask gd (bv T 0 5) (bv T 5 5)) = _
  rw [bv_mk (lo := 0) (T := T) d (by (try simp only [hT, Sys2Proof.shl]); omega),
    bv_mk (lo := 5) (T := T) a (by (try simp only [hT, Sys2Proof.shl]); omega)]
  all_goals rfl

theorem cancel (gd : Guard) (a : Reg) : Statement (.cancel gd a) := by
  have := a.isLt
  refine of_fields (tl := 1) (op := 0x0E4) rfl (by decide) rfl (by decide) ?_ rfl (by (try simp only [Sys2Proof.shl]); omega)
  suffices hh : ∀ T, T = Sys2Proof.shl (a.toNat) 5 → decodeFields 0x0E4 T gd = some (.cancel gd a) from hh _ rfl
  intro T hT
  have e0 : decodeFields 0x0E4 T gd = (if zr T 0 5 && zr T 10 6 then some (Instr.cancel gd (bv T 5 5)) else none) := rfl
  rw [e0,
    zr_mk (lo := 0) (w := 5) (T := T) (by (try simp only [hT, Sys2Proof.shl]); omega),
    zr_mk (lo := 10) (w := 6) (T := T) (by (try simp only [hT, Sys2Proof.shl]); omega)]
  show some (Instr.cancel gd (bv T 5 5)) = _
  rw [bv_mk (lo := 5) (T := T) a (by (try simp only [hT, Sys2Proof.shl]); omega)]
  all_goals rfl

theorem adopt (gd : Guard) (a : Reg) : Statement (.adopt gd a) := by
  have := a.isLt
  refine of_fields (tl := 1) (op := 0x0E5) rfl (by decide) rfl (by decide) ?_ rfl (by (try simp only [Sys2Proof.shl]); omega)
  suffices hh : ∀ T, T = Sys2Proof.shl (a.toNat) 5 → decodeFields 0x0E5 T gd = some (.adopt gd a) from hh _ rfl
  intro T hT
  have e0 : decodeFields 0x0E5 T gd = (if zr T 0 5 && zr T 10 6 then some (Instr.adopt gd (bv T 5 5)) else none) := rfl
  rw [e0,
    zr_mk (lo := 0) (w := 5) (T := T) (by (try simp only [hT, Sys2Proof.shl]); omega),
    zr_mk (lo := 10) (w := 6) (T := T) (by (try simp only [hT, Sys2Proof.shl]); omega)]
  show some (Instr.adopt gd (bv T 5 5)) = _
  rw [bv_mk (lo := 5) (T := T) a (by (try simp only [hT, Sys2Proof.shl]); omega)]
  all_goals rfl

theorem rbegin (gd : Guard) (d : Reg) (a : Reg) (imm : BitVec 22) : Statement (.rbegin gd d a imm) := by
  have := d.isLt
  have := a.isLt
  have := imm.isLt
  refine of_fields (tl := 2) (op := 0x0E8) rfl (by decide) rfl (by decide) ?_ rfl (by (try simp only [Sys2Proof.shl]); omega)
  suffices hh : ∀ T, T = d.toNat + Sys2Proof.shl (a.toNat) 5 + Sys2Proof.shl (imm.toNat) 10 → decodeFields 0x0E8 T gd = some (.rbegin gd d a imm) from hh _ rfl
  intro T hT
  have e0 : decodeFields 0x0E8 T gd = (some (Instr.rbegin gd (bv T 0 5) (bv T 5 5) (bv T 10 22))) := rfl
  rw [e0]
  show some (Instr.rbegin gd (bv T 0 5) (bv T 5 5) (bv T 10 22)) = _
  rw [bv_mk (lo := 0) (T := T) d (by (try simp only [hT, Sys2Proof.shl]); omega),
    bv_mk (lo := 5) (T := T) a (by (try simp only [hT, Sys2Proof.shl]); omega),
    bv_mk (lo := 10) (T := T) imm (by (try simp only [hT, Sys2Proof.shl]); omega)]
  all_goals rfl

theorem rcommit (gd : Guard) : Statement (.rcommit gd) := by
  exact of_fields (tl := 1) (op := 0x0E9) rfl (by decide) rfl (by decide) rfl rfl (by decide)

theorem rabort (gd : Guard) : Statement (.rabort gd) := by
  exact of_fields (tl := 0) (op := 0x0EA) rfl (by decide) rfl (by decide) rfl rfl (by decide)

theorem rstat (gd : Guard) (d : Reg) : Statement (.rstat gd d) := by
  have := d.isLt
  refine of_fields (tl := 1) (op := 0x0EB) rfl (by decide) rfl (by decide) ?_ rfl (by (try simp only [Sys2Proof.shl]); omega)
  suffices hh : ∀ T, T = d.toNat → decodeFields 0x0EB T gd = some (.rstat gd d) from hh _ rfl
  intro T hT
  have e0 : decodeFields 0x0EB T gd = (if zr T 5 11 then some (Instr.rstat gd (bv T 0 5)) else none) := rfl
  rw [e0,
    zr_mk (lo := 5) (w := 11) (T := T) (by (try simp only [hT, Sys2Proof.shl]); omega)]
  show some (Instr.rstat gd (bv T 0 5)) = _
  rw [bv_mk (lo := 0) (T := T) d (by (try simp only [hT, Sys2Proof.shl]); omega)]
  all_goals rfl

theorem fadd (gd : Guard) (d : Reg) (a : Reg) (b : Reg) (ty : Ty) (rm : Rnd) : Statement (.fadd gd d a b ty rm) := by
  have := d.isLt
  have := a.isLt
  have := b.isLt
  have := ty_le ty
  have := rnd_le rm
  refine of_fields (tl := 2) (op := 0x100) rfl (by decide) rfl (by decide) ?_ rfl (by (try simp only [Sys2Proof.shl]); omega)
  suffices hh : ∀ T, T = d.toNat + Sys2Proof.shl (a.toNat) 5 + Sys2Proof.shl (b.toNat) 10 + Sys2Proof.shl (ty.code) 20 + Sys2Proof.shl (rm.code) 24 → decodeFields 0x100 T gd = some (.fadd gd d a b ty rm) from hh _ rfl
  intro T hT
  have e0 : decodeFields 0x100 T gd = (if zr T 15 5 && zr T 27 5 then (ty? (fld T 20 4)).bind fun ty => (rnd? (fld T 24 3)).bind fun rm => some (Instr.fadd gd (bv T 0 5) (bv T 5 5) (bv T 10 5) ty rm) else none) := rfl
  rw [e0,
    zr_mk (lo := 15) (w := 5) (T := T) (by (try simp only [hT, Sys2Proof.shl]); omega),
    zr_mk (lo := 27) (w := 5) (T := T) (by (try simp only [hT, Sys2Proof.shl]); omega),
    ty_mk (lo := 20) (T := T) ty (by (try simp only [hT, Sys2Proof.shl]); omega),
    rnd_mk (lo := 24) (T := T) rm (by (try simp only [hT, Sys2Proof.shl]); omega),
    Option.bind_some,
    Option.bind_some]
  rw [bv_mk (lo := 0) (T := T) d (by (try simp only [hT, Sys2Proof.shl]); omega),
    bv_mk (lo := 5) (T := T) a (by (try simp only [hT, Sys2Proof.shl]); omega),
    bv_mk (lo := 10) (T := T) b (by (try simp only [hT, Sys2Proof.shl]); omega)]
  all_goals rfl

theorem fsub (gd : Guard) (d : Reg) (a : Reg) (b : Reg) (ty : Ty) (rm : Rnd) : Statement (.fsub gd d a b ty rm) := by
  have := d.isLt
  have := a.isLt
  have := b.isLt
  have := ty_le ty
  have := rnd_le rm
  refine of_fields (tl := 2) (op := 0x101) rfl (by decide) rfl (by decide) ?_ rfl (by (try simp only [Sys2Proof.shl]); omega)
  suffices hh : ∀ T, T = d.toNat + Sys2Proof.shl (a.toNat) 5 + Sys2Proof.shl (b.toNat) 10 + Sys2Proof.shl (ty.code) 20 + Sys2Proof.shl (rm.code) 24 → decodeFields 0x101 T gd = some (.fsub gd d a b ty rm) from hh _ rfl
  intro T hT
  have e0 : decodeFields 0x101 T gd = (if zr T 15 5 && zr T 27 5 then (ty? (fld T 20 4)).bind fun ty => (rnd? (fld T 24 3)).bind fun rm => some (Instr.fsub gd (bv T 0 5) (bv T 5 5) (bv T 10 5) ty rm) else none) := rfl
  rw [e0,
    zr_mk (lo := 15) (w := 5) (T := T) (by (try simp only [hT, Sys2Proof.shl]); omega),
    zr_mk (lo := 27) (w := 5) (T := T) (by (try simp only [hT, Sys2Proof.shl]); omega),
    ty_mk (lo := 20) (T := T) ty (by (try simp only [hT, Sys2Proof.shl]); omega),
    rnd_mk (lo := 24) (T := T) rm (by (try simp only [hT, Sys2Proof.shl]); omega),
    Option.bind_some,
    Option.bind_some]
  rw [bv_mk (lo := 0) (T := T) d (by (try simp only [hT, Sys2Proof.shl]); omega),
    bv_mk (lo := 5) (T := T) a (by (try simp only [hT, Sys2Proof.shl]); omega),
    bv_mk (lo := 10) (T := T) b (by (try simp only [hT, Sys2Proof.shl]); omega)]
  all_goals rfl

theorem fmul (gd : Guard) (d : Reg) (a : Reg) (b : Reg) (ty : Ty) (rm : Rnd) : Statement (.fmul gd d a b ty rm) := by
  have := d.isLt
  have := a.isLt
  have := b.isLt
  have := ty_le ty
  have := rnd_le rm
  refine of_fields (tl := 2) (op := 0x102) rfl (by decide) rfl (by decide) ?_ rfl (by (try simp only [Sys2Proof.shl]); omega)
  suffices hh : ∀ T, T = d.toNat + Sys2Proof.shl (a.toNat) 5 + Sys2Proof.shl (b.toNat) 10 + Sys2Proof.shl (ty.code) 20 + Sys2Proof.shl (rm.code) 24 → decodeFields 0x102 T gd = some (.fmul gd d a b ty rm) from hh _ rfl
  intro T hT
  have e0 : decodeFields 0x102 T gd = (if zr T 15 5 && zr T 27 5 then (ty? (fld T 20 4)).bind fun ty => (rnd? (fld T 24 3)).bind fun rm => some (Instr.fmul gd (bv T 0 5) (bv T 5 5) (bv T 10 5) ty rm) else none) := rfl
  rw [e0,
    zr_mk (lo := 15) (w := 5) (T := T) (by (try simp only [hT, Sys2Proof.shl]); omega),
    zr_mk (lo := 27) (w := 5) (T := T) (by (try simp only [hT, Sys2Proof.shl]); omega),
    ty_mk (lo := 20) (T := T) ty (by (try simp only [hT, Sys2Proof.shl]); omega),
    rnd_mk (lo := 24) (T := T) rm (by (try simp only [hT, Sys2Proof.shl]); omega),
    Option.bind_some,
    Option.bind_some]
  rw [bv_mk (lo := 0) (T := T) d (by (try simp only [hT, Sys2Proof.shl]); omega),
    bv_mk (lo := 5) (T := T) a (by (try simp only [hT, Sys2Proof.shl]); omega),
    bv_mk (lo := 10) (T := T) b (by (try simp only [hT, Sys2Proof.shl]); omega)]
  all_goals rfl

theorem fma (gd : Guard) (d : Reg) (a : Reg) (b : Reg) (c : Reg) (ty : Ty) (rm : Rnd) : Statement (.fma gd d a b c ty rm) := by
  have := d.isLt
  have := a.isLt
  have := b.isLt
  have := c.isLt
  have := ty_le ty
  have := rnd_le rm
  refine of_fields (tl := 2) (op := 0x103) rfl (by decide) rfl (by decide) ?_ rfl (by (try simp only [Sys2Proof.shl]); omega)
  suffices hh : ∀ T, T = d.toNat + Sys2Proof.shl (a.toNat) 5 + Sys2Proof.shl (b.toNat) 10 + Sys2Proof.shl (c.toNat) 15 + Sys2Proof.shl (ty.code) 20 + Sys2Proof.shl (rm.code) 24 → decodeFields 0x103 T gd = some (.fma gd d a b c ty rm) from hh _ rfl
  intro T hT
  have e0 : decodeFields 0x103 T gd = (if zr T 27 5 then (ty? (fld T 20 4)).bind fun ty => (rnd? (fld T 24 3)).bind fun rm => some (Instr.fma gd (bv T 0 5) (bv T 5 5) (bv T 10 5) (bv T 15 5) ty rm) else none) := rfl
  rw [e0,
    zr_mk (lo := 27) (w := 5) (T := T) (by (try simp only [hT, Sys2Proof.shl]); omega),
    ty_mk (lo := 20) (T := T) ty (by (try simp only [hT, Sys2Proof.shl]); omega),
    rnd_mk (lo := 24) (T := T) rm (by (try simp only [hT, Sys2Proof.shl]); omega),
    Option.bind_some,
    Option.bind_some]
  rw [bv_mk (lo := 0) (T := T) d (by (try simp only [hT, Sys2Proof.shl]); omega),
    bv_mk (lo := 5) (T := T) a (by (try simp only [hT, Sys2Proof.shl]); omega),
    bv_mk (lo := 10) (T := T) b (by (try simp only [hT, Sys2Proof.shl]); omega),
    bv_mk (lo := 15) (T := T) c (by (try simp only [hT, Sys2Proof.shl]); omega)]
  all_goals rfl

theorem fdiv (gd : Guard) (d : Reg) (a : Reg) (b : Reg) (ty : Ty) (rm : Rnd) : Statement (.fdiv gd d a b ty rm) := by
  have := d.isLt
  have := a.isLt
  have := b.isLt
  have := ty_le ty
  have := rnd_le rm
  refine of_fields (tl := 2) (op := 0x104) rfl (by decide) rfl (by decide) ?_ rfl (by (try simp only [Sys2Proof.shl]); omega)
  suffices hh : ∀ T, T = d.toNat + Sys2Proof.shl (a.toNat) 5 + Sys2Proof.shl (b.toNat) 10 + Sys2Proof.shl (ty.code) 20 + Sys2Proof.shl (rm.code) 24 → decodeFields 0x104 T gd = some (.fdiv gd d a b ty rm) from hh _ rfl
  intro T hT
  have e0 : decodeFields 0x104 T gd = (if zr T 15 5 && zr T 27 5 then (ty? (fld T 20 4)).bind fun ty => (rnd? (fld T 24 3)).bind fun rm => some (Instr.fdiv gd (bv T 0 5) (bv T 5 5) (bv T 10 5) ty rm) else none) := rfl
  rw [e0,
    zr_mk (lo := 15) (w := 5) (T := T) (by (try simp only [hT, Sys2Proof.shl]); omega),
    zr_mk (lo := 27) (w := 5) (T := T) (by (try simp only [hT, Sys2Proof.shl]); omega),
    ty_mk (lo := 20) (T := T) ty (by (try simp only [hT, Sys2Proof.shl]); omega),
    rnd_mk (lo := 24) (T := T) rm (by (try simp only [hT, Sys2Proof.shl]); omega),
    Option.bind_some,
    Option.bind_some]
  rw [bv_mk (lo := 0) (T := T) d (by (try simp only [hT, Sys2Proof.shl]); omega),
    bv_mk (lo := 5) (T := T) a (by (try simp only [hT, Sys2Proof.shl]); omega),
    bv_mk (lo := 10) (T := T) b (by (try simp only [hT, Sys2Proof.shl]); omega)]
  all_goals rfl

theorem fsqrt (gd : Guard) (d : Reg) (a : Reg) (ty : Ty) (rm : Rnd) : Statement (.fsqrt gd d a ty rm) := by
  have := d.isLt
  have := a.isLt
  have := ty_le ty
  have := rnd_le rm
  refine of_fields (tl := 2) (op := 0x105) rfl (by decide) rfl (by decide) ?_ rfl (by (try simp only [Sys2Proof.shl]); omega)
  suffices hh : ∀ T, T = d.toNat + Sys2Proof.shl (a.toNat) 5 + Sys2Proof.shl (ty.code) 20 + Sys2Proof.shl (rm.code) 24 → decodeFields 0x105 T gd = some (.fsqrt gd d a ty rm) from hh _ rfl
  intro T hT
  have e0 : decodeFields 0x105 T gd = (if zr T 10 10 && zr T 27 5 then (ty? (fld T 20 4)).bind fun ty => (rnd? (fld T 24 3)).bind fun rm => some (Instr.fsqrt gd (bv T 0 5) (bv T 5 5) ty rm) else none) := rfl
  rw [e0,
    zr_mk (lo := 10) (w := 10) (T := T) (by (try simp only [hT, Sys2Proof.shl]); omega),
    zr_mk (lo := 27) (w := 5) (T := T) (by (try simp only [hT, Sys2Proof.shl]); omega),
    ty_mk (lo := 20) (T := T) ty (by (try simp only [hT, Sys2Proof.shl]); omega),
    rnd_mk (lo := 24) (T := T) rm (by (try simp only [hT, Sys2Proof.shl]); omega),
    Option.bind_some,
    Option.bind_some]
  rw [bv_mk (lo := 0) (T := T) d (by (try simp only [hT, Sys2Proof.shl]); omega),
    bv_mk (lo := 5) (T := T) a (by (try simp only [hT, Sys2Proof.shl]); omega)]
  all_goals rfl

theorem frsq (gd : Guard) (d : Reg) (a : Reg) (ty : Ty) (rm : Rnd) : Statement (.frsq gd d a ty rm) := by
  have := d.isLt
  have := a.isLt
  have := ty_le ty
  have := rnd_le rm
  refine of_fields (tl := 2) (op := 0x106) rfl (by decide) rfl (by decide) ?_ rfl (by (try simp only [Sys2Proof.shl]); omega)
  suffices hh : ∀ T, T = d.toNat + Sys2Proof.shl (a.toNat) 5 + Sys2Proof.shl (ty.code) 20 + Sys2Proof.shl (rm.code) 24 → decodeFields 0x106 T gd = some (.frsq gd d a ty rm) from hh _ rfl
  intro T hT
  have e0 : decodeFields 0x106 T gd = (if zr T 10 10 && zr T 27 5 then (ty? (fld T 20 4)).bind fun ty => (rnd? (fld T 24 3)).bind fun rm => some (Instr.frsq gd (bv T 0 5) (bv T 5 5) ty rm) else none) := rfl
  rw [e0,
    zr_mk (lo := 10) (w := 10) (T := T) (by (try simp only [hT, Sys2Proof.shl]); omega),
    zr_mk (lo := 27) (w := 5) (T := T) (by (try simp only [hT, Sys2Proof.shl]); omega),
    ty_mk (lo := 20) (T := T) ty (by (try simp only [hT, Sys2Proof.shl]); omega),
    rnd_mk (lo := 24) (T := T) rm (by (try simp only [hT, Sys2Proof.shl]); omega),
    Option.bind_some,
    Option.bind_some]
  rw [bv_mk (lo := 0) (T := T) d (by (try simp only [hT, Sys2Proof.shl]); omega),
    bv_mk (lo := 5) (T := T) a (by (try simp only [hT, Sys2Proof.shl]); omega)]
  all_goals rfl

theorem fmin (gd : Guard) (d : Reg) (a : Reg) (b : Reg) (ty : Ty) : Statement (.fmin gd d a b ty) := by
  have := d.isLt
  have := a.isLt
  have := b.isLt
  have := ty_le ty
  refine of_fields (tl := 2) (op := 0x107) rfl (by decide) rfl (by decide) ?_ rfl (by (try simp only [Sys2Proof.shl]); omega)
  suffices hh : ∀ T, T = d.toNat + Sys2Proof.shl (a.toNat) 5 + Sys2Proof.shl (b.toNat) 10 + Sys2Proof.shl (ty.code) 20 → decodeFields 0x107 T gd = some (.fmin gd d a b ty) from hh _ rfl
  intro T hT
  have e0 : decodeFields 0x107 T gd = (if zr T 15 5 && zr T 24 8 then (ty? (fld T 20 4)).bind fun ty => some (Instr.fmin gd (bv T 0 5) (bv T 5 5) (bv T 10 5) ty) else none) := rfl
  rw [e0,
    zr_mk (lo := 15) (w := 5) (T := T) (by (try simp only [hT, Sys2Proof.shl]); omega),
    zr_mk (lo := 24) (w := 8) (T := T) (by (try simp only [hT, Sys2Proof.shl]); omega),
    ty_mk (lo := 20) (T := T) ty (by (try simp only [hT, Sys2Proof.shl]); omega),
    Option.bind_some]
  rw [bv_mk (lo := 0) (T := T) d (by (try simp only [hT, Sys2Proof.shl]); omega),
    bv_mk (lo := 5) (T := T) a (by (try simp only [hT, Sys2Proof.shl]); omega),
    bv_mk (lo := 10) (T := T) b (by (try simp only [hT, Sys2Proof.shl]); omega)]
  all_goals rfl

theorem fmax (gd : Guard) (d : Reg) (a : Reg) (b : Reg) (ty : Ty) : Statement (.fmax gd d a b ty) := by
  have := d.isLt
  have := a.isLt
  have := b.isLt
  have := ty_le ty
  refine of_fields (tl := 2) (op := 0x108) rfl (by decide) rfl (by decide) ?_ rfl (by (try simp only [Sys2Proof.shl]); omega)
  suffices hh : ∀ T, T = d.toNat + Sys2Proof.shl (a.toNat) 5 + Sys2Proof.shl (b.toNat) 10 + Sys2Proof.shl (ty.code) 20 → decodeFields 0x108 T gd = some (.fmax gd d a b ty) from hh _ rfl
  intro T hT
  have e0 : decodeFields 0x108 T gd = (if zr T 15 5 && zr T 24 8 then (ty? (fld T 20 4)).bind fun ty => some (Instr.fmax gd (bv T 0 5) (bv T 5 5) (bv T 10 5) ty) else none) := rfl
  rw [e0,
    zr_mk (lo := 15) (w := 5) (T := T) (by (try simp only [hT, Sys2Proof.shl]); omega),
    zr_mk (lo := 24) (w := 8) (T := T) (by (try simp only [hT, Sys2Proof.shl]); omega),
    ty_mk (lo := 20) (T := T) ty (by (try simp only [hT, Sys2Proof.shl]); omega),
    Option.bind_some]
  rw [bv_mk (lo := 0) (T := T) d (by (try simp only [hT, Sys2Proof.shl]); omega),
    bv_mk (lo := 5) (T := T) a (by (try simp only [hT, Sys2Proof.shl]); omega),
    bv_mk (lo := 10) (T := T) b (by (try simp only [hT, Sys2Proof.shl]); omega)]
  all_goals rfl

theorem fcmp (gd : Guard) (d : Pred) (a : Reg) (b : Reg) (ty : Ty) (fc : FCond) : Statement (.fcmp gd d a b ty fc) := by
  have := d.isLt
  have := a.isLt
  have := b.isLt
  have := ty_le ty
  have := fcond_le fc
  refine of_fields (tl := 2) (op := 0x109) rfl (by decide) rfl (by decide) ?_ rfl (by (try simp only [Sys2Proof.shl]); omega)
  suffices hh : ∀ T, T = d.toNat + Sys2Proof.shl (a.toNat) 5 + Sys2Proof.shl (b.toNat) 10 + Sys2Proof.shl (ty.code) 20 + Sys2Proof.shl (fc.code) 27 → decodeFields 0x109 T gd = some (.fcmp gd d a b ty fc) from hh _ rfl
  intro T hT
  have e0 : decodeFields 0x109 T gd = (if zr T 3 2 && zr T 15 5 && zr T 24 3 && zr T 31 1 then (ty? (fld T 20 4)).bind fun ty => (fcond? (fld T 27 4)).bind fun fc => some (Instr.fcmp gd (bv T 0 3) (bv T 5 5) (bv T 10 5) ty fc) else none) := rfl
  rw [e0,
    zr_mk (lo := 3) (w := 2) (T := T) (by (try simp only [hT, Sys2Proof.shl]); omega),
    zr_mk (lo := 15) (w := 5) (T := T) (by (try simp only [hT, Sys2Proof.shl]); omega),
    zr_mk (lo := 24) (w := 3) (T := T) (by (try simp only [hT, Sys2Proof.shl]); omega),
    zr_mk (lo := 31) (w := 1) (T := T) (by (try simp only [hT, Sys2Proof.shl]); omega),
    ty_mk (lo := 20) (T := T) ty (by (try simp only [hT, Sys2Proof.shl]); omega),
    fcond_mk (lo := 27) (w := 4) (T := T) fc (by (try simp only [hT, Sys2Proof.shl]); omega),
    Option.bind_some,
    Option.bind_some]
  rw [bv_mk (lo := 0) (T := T) d (by (try simp only [hT, Sys2Proof.shl]); omega),
    bv_mk (lo := 5) (T := T) a (by (try simp only [hT, Sys2Proof.shl]); omega),
    bv_mk (lo := 10) (T := T) b (by (try simp only [hT, Sys2Proof.shl]); omega)]
  all_goals rfl

theorem fcvt (gd : Guard) (d : Reg) (a : Reg) (tgt : Ty) (frm : Ty) (rm : Rnd) (sat : Bool) : Statement (.fcvt gd d a tgt frm rm sat) := by
  have := d.isLt
  have := a.isLt
  have := ty_le tgt
  have := ty_le frm
  have := rnd_le rm
  have := sat.toNat_le
  refine of_fields (tl := 2) (op := 0x10A) rfl (by decide) rfl (by decide) ?_ rfl (by (try simp only [Sys2Proof.shl]); omega)
  suffices hh : ∀ T, T = d.toNat + Sys2Proof.shl (a.toNat) 5 + Sys2Proof.shl (tgt.code) 20 + Sys2Proof.shl (frm.code) 24 + Sys2Proof.shl (rm.code) 28 + Sys2Proof.shl (sat.toNat) 31 → decodeFields 0x10A T gd = some (.fcvt gd d a tgt frm rm sat) from hh _ rfl
  intro T hT
  have e0 : decodeFields 0x10A T gd = (if zr T 10 10 then (ty? (fld T 20 4)).bind fun tgt => (ty? (fld T 24 4)).bind fun frm => (rnd? (fld T 28 3)).bind fun rm => some (Instr.fcvt gd (bv T 0 5) (bv T 5 5) tgt frm rm (bt T 31)) else none) := rfl
  rw [e0,
    zr_mk (lo := 10) (w := 10) (T := T) (by (try simp only [hT, Sys2Proof.shl]); omega),
    ty_mk (lo := 20) (T := T) tgt (by (try simp only [hT, Sys2Proof.shl]); omega),
    ty_mk (lo := 24) (T := T) frm (by (try simp only [hT, Sys2Proof.shl]); omega),
    rnd_mk (lo := 28) (T := T) rm (by (try simp only [hT, Sys2Proof.shl]); omega),
    Option.bind_some,
    Option.bind_some,
    Option.bind_some]
  rw [bv_mk (lo := 0) (T := T) d (by (try simp only [hT, Sys2Proof.shl]); omega),
    bv_mk (lo := 5) (T := T) a (by (try simp only [hT, Sys2Proof.shl]); omega),
    bt_mk (lo := 31) (T := T) sat (by (try simp only [hT, Sys2Proof.shl]); omega)]
  all_goals rfl

theorem fclass (gd : Guard) (d : Reg) (a : Reg) (ty : Ty) : Statement (.fclass gd d a ty) := by
  have := d.isLt
  have := a.isLt
  have := ty_le ty
  refine of_fields (tl := 2) (op := 0x10B) rfl (by decide) rfl (by decide) ?_ rfl (by (try simp only [Sys2Proof.shl]); omega)
  suffices hh : ∀ T, T = d.toNat + Sys2Proof.shl (a.toNat) 5 + Sys2Proof.shl (ty.code) 20 → decodeFields 0x10B T gd = some (.fclass gd d a ty) from hh _ rfl
  intro T hT
  have e0 : decodeFields 0x10B T gd = (if zr T 10 10 && zr T 24 8 then (ty? (fld T 20 4)).bind fun ty => some (Instr.fclass gd (bv T 0 5) (bv T 5 5) ty) else none) := rfl
  rw [e0,
    zr_mk (lo := 10) (w := 10) (T := T) (by (try simp only [hT, Sys2Proof.shl]); omega),
    zr_mk (lo := 24) (w := 8) (T := T) (by (try simp only [hT, Sys2Proof.shl]); omega),
    ty_mk (lo := 20) (T := T) ty (by (try simp only [hT, Sys2Proof.shl]); omega),
    Option.bind_some]
  rw [bv_mk (lo := 0) (T := T) d (by (try simp only [hT, Sys2Proof.shl]); omega),
    bv_mk (lo := 5) (T := T) a (by (try simp only [hT, Sys2Proof.shl]); omega)]
  all_goals rfl

theorem fexp2 (gd : Guard) (d : Reg) (a : Reg) (ty : Ty) (rm : Rnd) : Statement (.fexp2 gd d a ty rm) := by
  have := d.isLt
  have := a.isLt
  have := ty_le ty
  have := rnd_le rm
  refine of_fields (tl := 2) (op := 0x10C) rfl (by decide) rfl (by decide) ?_ rfl (by (try simp only [Sys2Proof.shl]); omega)
  suffices hh : ∀ T, T = d.toNat + Sys2Proof.shl (a.toNat) 5 + Sys2Proof.shl (ty.code) 20 + Sys2Proof.shl (rm.code) 24 → decodeFields 0x10C T gd = some (.fexp2 gd d a ty rm) from hh _ rfl
  intro T hT
  have e0 : decodeFields 0x10C T gd = (if zr T 10 10 && zr T 27 5 then (ty? (fld T 20 4)).bind fun ty => (rnd? (fld T 24 3)).bind fun rm => some (Instr.fexp2 gd (bv T 0 5) (bv T 5 5) ty rm) else none) := rfl
  rw [e0,
    zr_mk (lo := 10) (w := 10) (T := T) (by (try simp only [hT, Sys2Proof.shl]); omega),
    zr_mk (lo := 27) (w := 5) (T := T) (by (try simp only [hT, Sys2Proof.shl]); omega),
    ty_mk (lo := 20) (T := T) ty (by (try simp only [hT, Sys2Proof.shl]); omega),
    rnd_mk (lo := 24) (T := T) rm (by (try simp only [hT, Sys2Proof.shl]); omega),
    Option.bind_some,
    Option.bind_some]
  rw [bv_mk (lo := 0) (T := T) d (by (try simp only [hT, Sys2Proof.shl]); omega),
    bv_mk (lo := 5) (T := T) a (by (try simp only [hT, Sys2Proof.shl]); omega)]
  all_goals rfl

theorem flog2 (gd : Guard) (d : Reg) (a : Reg) (ty : Ty) (rm : Rnd) : Statement (.flog2 gd d a ty rm) := by
  have := d.isLt
  have := a.isLt
  have := ty_le ty
  have := rnd_le rm
  refine of_fields (tl := 2) (op := 0x10D) rfl (by decide) rfl (by decide) ?_ rfl (by (try simp only [Sys2Proof.shl]); omega)
  suffices hh : ∀ T, T = d.toNat + Sys2Proof.shl (a.toNat) 5 + Sys2Proof.shl (ty.code) 20 + Sys2Proof.shl (rm.code) 24 → decodeFields 0x10D T gd = some (.flog2 gd d a ty rm) from hh _ rfl
  intro T hT
  have e0 : decodeFields 0x10D T gd = (if zr T 10 10 && zr T 27 5 then (ty? (fld T 20 4)).bind fun ty => (rnd? (fld T 24 3)).bind fun rm => some (Instr.flog2 gd (bv T 0 5) (bv T 5 5) ty rm) else none) := rfl
  rw [e0,
    zr_mk (lo := 10) (w := 10) (T := T) (by (try simp only [hT, Sys2Proof.shl]); omega),
    zr_mk (lo := 27) (w := 5) (T := T) (by (try simp only [hT, Sys2Proof.shl]); omega),
    ty_mk (lo := 20) (T := T) ty (by (try simp only [hT, Sys2Proof.shl]); omega),
    rnd_mk (lo := 24) (T := T) rm (by (try simp only [hT, Sys2Proof.shl]); omega),
    Option.bind_some,
    Option.bind_some]
  rw [bv_mk (lo := 0) (T := T) d (by (try simp only [hT, Sys2Proof.shl]); omega),
    bv_mk (lo := 5) (T := T) a (by (try simp only [hT, Sys2Proof.shl]); omega)]
  all_goals rfl

theorem vld (gd : Guard) (d : VReg) (a : Reg) (esz : BitVec 2) (mk : Mask) (z : Bool) (imm : BitVec 32) : Statement (.vld gd d a esz mk z imm) := by
  have := d.isLt
  have := a.isLt
  have := esz.isLt
  have := mk.m.toNat_le
  have := mk.msk.isLt
  have := z.toNat_le
  have := imm.isLt
  refine of_fields (tl := 3) (op := 0x140) rfl (by decide) rfl (by decide) ?_ rfl (by (try simp only [Sys2Proof.shl]); omega)
  suffices hh : ∀ T, T = d.toNat + Sys2Proof.shl (a.toNat) 5 + Sys2Proof.shl (esz.toNat) 13 + Sys2Proof.shl (mk.m.toNat) 12 + Sys2Proof.shl (mk.msk.toNat) 10 + Sys2Proof.shl (z.toNat) 15 + Sys2Proof.shl (imm.toNat) 16 → decodeFields 0x140 T gd = some (.vld gd d a esz mk z imm) from hh _ rfl
  intro T hT
  have e0 : decodeFields 0x140 T gd = (if zr T 3 2 then some (Instr.vld gd (bv T 0 3) (bv T 5 5) (bv T 13 2) ⟨bt T 12, bv T 10 2⟩ (bt T 15) (bv T 16 32)) else none) := rfl
  rw [e0,
    zr_mk (lo := 3) (w := 2) (T := T) (by (try simp only [hT, Sys2Proof.shl]); omega)]
  show some (Instr.vld gd (bv T 0 3) (bv T 5 5) (bv T 13 2) ⟨bt T 12, bv T 10 2⟩ (bt T 15) (bv T 16 32)) = _
  rw [bv_mk (lo := 0) (T := T) d (by (try simp only [hT, Sys2Proof.shl]); omega),
    bv_mk (lo := 5) (T := T) a (by (try simp only [hT, Sys2Proof.shl]); omega),
    bv_mk (lo := 13) (T := T) esz (by (try simp only [hT, Sys2Proof.shl]); omega),
    bt_mk (lo := 12) (T := T) mk.m (by (try simp only [hT, Sys2Proof.shl]); omega),
    bv_mk (lo := 10) (T := T) mk.msk (by (try simp only [hT, Sys2Proof.shl]); omega),
    bt_mk (lo := 15) (T := T) z (by (try simp only [hT, Sys2Proof.shl]); omega),
    bv_mk (lo := 16) (T := T) imm (by (try simp only [hT, Sys2Proof.shl]); omega)]
  all_goals rfl

theorem vst (gd : Guard) (d : VReg) (a : Reg) (esz : BitVec 2) (mk : Mask) (imm : BitVec 32) : Statement (.vst gd d a esz mk imm) := by
  have := d.isLt
  have := a.isLt
  have := esz.isLt
  have := mk.m.toNat_le
  have := mk.msk.isLt
  have := imm.isLt
  refine of_fields (tl := 3) (op := 0x141) rfl (by decide) rfl (by decide) ?_ rfl (by (try simp only [Sys2Proof.shl]); omega)
  suffices hh : ∀ T, T = d.toNat + Sys2Proof.shl (a.toNat) 5 + Sys2Proof.shl (esz.toNat) 13 + Sys2Proof.shl (mk.m.toNat) 12 + Sys2Proof.shl (mk.msk.toNat) 10 + Sys2Proof.shl (imm.toNat) 16 → decodeFields 0x141 T gd = some (.vst gd d a esz mk imm) from hh _ rfl
  intro T hT
  have e0 : decodeFields 0x141 T gd = (if zr T 3 2 && zr T 15 1 then some (Instr.vst gd (bv T 0 3) (bv T 5 5) (bv T 13 2) ⟨bt T 12, bv T 10 2⟩ (bv T 16 32)) else none) := rfl
  rw [e0,
    zr_mk (lo := 3) (w := 2) (T := T) (by (try simp only [hT, Sys2Proof.shl]); omega),
    zr_mk (lo := 15) (w := 1) (T := T) (by (try simp only [hT, Sys2Proof.shl]); omega)]
  show some (Instr.vst gd (bv T 0 3) (bv T 5 5) (bv T 13 2) ⟨bt T 12, bv T 10 2⟩ (bv T 16 32)) = _
  rw [bv_mk (lo := 0) (T := T) d (by (try simp only [hT, Sys2Proof.shl]); omega),
    bv_mk (lo := 5) (T := T) a (by (try simp only [hT, Sys2Proof.shl]); omega),
    bv_mk (lo := 13) (T := T) esz (by (try simp only [hT, Sys2Proof.shl]); omega),
    bt_mk (lo := 12) (T := T) mk.m (by (try simp only [hT, Sys2Proof.shl]); omega),
    bv_mk (lo := 10) (T := T) mk.msk (by (try simp only [hT, Sys2Proof.shl]); omega),
    bv_mk (lo := 16) (T := T) imm (by (try simp only [hT, Sys2Proof.shl]); omega)]
  all_goals rfl

theorem vlds (gd : Guard) (d : VReg) (a : Reg) (b : Reg) (ty : Ty) (mk : Mask) (z : Bool) : Statement (.vlds gd d a b ty mk z) := by
  have := d.isLt
  have := a.isLt
  have := b.isLt
  have := ty_le ty
  have := mk.m.toNat_le
  have := mk.msk.isLt
  have := z.toNat_le
  refine of_fields (tl := 2) (op := 0x142) rfl (by decide) rfl (by decide) ?_ rfl (by (try simp only [Sys2Proof.shl]); omega)
  suffices hh : ∀ T, T = d.toNat + Sys2Proof.shl (a.toNat) 5 + Sys2Proof.shl (b.toNat) 10 + Sys2Proof.shl (ty.code) 20 + Sys2Proof.shl (mk.m.toNat) 31 + Sys2Proof.shl (mk.msk.toNat) 29 + Sys2Proof.shl (z.toNat) 28 → decodeFields 0x142 T gd = some (.vlds gd d a b ty mk z) from hh _ rfl
  intro T hT
  have e0 : decodeFields 0x142 T gd = (if zr T 3 2 && zr T 15 5 && zr T 24 4 then (ty? (fld T 20 4)).bind fun ty => some (Instr.vlds gd (bv T 0 3) (bv T 5 5) (bv T 10 5) ty ⟨bt T 31, bv T 29 2⟩ (bt T 28)) else none) := rfl
  rw [e0,
    zr_mk (lo := 3) (w := 2) (T := T) (by (try simp only [hT, Sys2Proof.shl]); omega),
    zr_mk (lo := 15) (w := 5) (T := T) (by (try simp only [hT, Sys2Proof.shl]); omega),
    zr_mk (lo := 24) (w := 4) (T := T) (by (try simp only [hT, Sys2Proof.shl]); omega),
    ty_mk (lo := 20) (T := T) ty (by (try simp only [hT, Sys2Proof.shl]); omega),
    Option.bind_some]
  rw [bv_mk (lo := 0) (T := T) d (by (try simp only [hT, Sys2Proof.shl]); omega),
    bv_mk (lo := 5) (T := T) a (by (try simp only [hT, Sys2Proof.shl]); omega),
    bv_mk (lo := 10) (T := T) b (by (try simp only [hT, Sys2Proof.shl]); omega),
    bt_mk (lo := 31) (T := T) mk.m (by (try simp only [hT, Sys2Proof.shl]); omega),
    bv_mk (lo := 29) (T := T) mk.msk (by (try simp only [hT, Sys2Proof.shl]); omega),
    bt_mk (lo := 28) (T := T) z (by (try simp only [hT, Sys2Proof.shl]); omega)]
  all_goals rfl

theorem vsts (gd : Guard) (d : VReg) (a : Reg) (b : Reg) (ty : Ty) (mk : Mask) : Statement (.vsts gd d a b ty mk) := by
  have := d.isLt
  have := a.isLt
  have := b.isLt
  have := ty_le ty
  have := mk.m.toNat_le
  have := mk.msk.isLt
  refine of_fields (tl := 2) (op := 0x143) rfl (by decide) rfl (by decide) ?_ rfl (by (try simp only [Sys2Proof.shl]); omega)
  suffices hh : ∀ T, T = d.toNat + Sys2Proof.shl (a.toNat) 5 + Sys2Proof.shl (b.toNat) 10 + Sys2Proof.shl (ty.code) 20 + Sys2Proof.shl (mk.m.toNat) 31 + Sys2Proof.shl (mk.msk.toNat) 29 → decodeFields 0x143 T gd = some (.vsts gd d a b ty mk) from hh _ rfl
  intro T hT
  have e0 : decodeFields 0x143 T gd = (if zr T 3 2 && zr T 15 5 && zr T 24 5 then (ty? (fld T 20 4)).bind fun ty => some (Instr.vsts gd (bv T 0 3) (bv T 5 5) (bv T 10 5) ty ⟨bt T 31, bv T 29 2⟩) else none) := rfl
  rw [e0,
    zr_mk (lo := 3) (w := 2) (T := T) (by (try simp only [hT, Sys2Proof.shl]); omega),
    zr_mk (lo := 15) (w := 5) (T := T) (by (try simp only [hT, Sys2Proof.shl]); omega),
    zr_mk (lo := 24) (w := 5) (T := T) (by (try simp only [hT, Sys2Proof.shl]); omega),
    ty_mk (lo := 20) (T := T) ty (by (try simp only [hT, Sys2Proof.shl]); omega),
    Option.bind_some]
  rw [bv_mk (lo := 0) (T := T) d (by (try simp only [hT, Sys2Proof.shl]); omega),
    bv_mk (lo := 5) (T := T) a (by (try simp only [hT, Sys2Proof.shl]); omega),
    bv_mk (lo := 10) (T := T) b (by (try simp only [hT, Sys2Proof.shl]); omega),
    bt_mk (lo := 31) (T := T) mk.m (by (try simp only [hT, Sys2Proof.shl]); omega),
    bv_mk (lo := 29) (T := T) mk.msk (by (try simp only [hT, Sys2Proof.shl]); omega)]
  all_goals rfl

theorem vbcast (gd : Guard) (d : VReg) (a : Reg) (ty : Ty) (mk : Mask) (z : Bool) : Statement (.vbcast gd d a ty mk z) := by
  have := d.isLt
  have := a.isLt
  have := ty_le ty
  have := mk.m.toNat_le
  have := mk.msk.isLt
  have := z.toNat_le
  refine of_fields (tl := 2) (op := 0x144) rfl (by decide) rfl (by decide) ?_ rfl (by (try simp only [Sys2Proof.shl]); omega)
  suffices hh : ∀ T, T = d.toNat + Sys2Proof.shl (a.toNat) 5 + Sys2Proof.shl (ty.code) 20 + Sys2Proof.shl (mk.m.toNat) 31 + Sys2Proof.shl (mk.msk.toNat) 29 + Sys2Proof.shl (z.toNat) 28 → decodeFields 0x144 T gd = some (.vbcast gd d a ty mk z) from hh _ rfl
  intro T hT
  have e0 : decodeFields 0x144 T gd = (if zr T 3 2 && zr T 10 10 && zr T 24 4 then (ty? (fld T 20 4)).bind fun ty => some (Instr.vbcast gd (bv T 0 3) (bv T 5 5) ty ⟨bt T 31, bv T 29 2⟩ (bt T 28)) else none) := rfl
  rw [e0,
    zr_mk (lo := 3) (w := 2) (T := T) (by (try simp only [hT, Sys2Proof.shl]); omega),
    zr_mk (lo := 10) (w := 10) (T := T) (by (try simp only [hT, Sys2Proof.shl]); omega),
    zr_mk (lo := 24) (w := 4) (T := T) (by (try simp only [hT, Sys2Proof.shl]); omega),
    ty_mk (lo := 20) (T := T) ty (by (try simp only [hT, Sys2Proof.shl]); omega),
    Option.bind_some]
  rw [bv_mk (lo := 0) (T := T) d (by (try simp only [hT, Sys2Proof.shl]); omega),
    bv_mk (lo := 5) (T := T) a (by (try simp only [hT, Sys2Proof.shl]); omega),
    bt_mk (lo := 31) (T := T) mk.m (by (try simp only [hT, Sys2Proof.shl]); omega),
    bv_mk (lo := 29) (T := T) mk.msk (by (try simp only [hT, Sys2Proof.shl]); omega),
    bt_mk (lo := 28) (T := T) z (by (try simp only [hT, Sys2Proof.shl]); omega)]
  all_goals rfl

theorem vext (gd : Guard) (d : Reg) (a : VReg) (ty : Ty) (lane : BitVec 6) : Statement (.vext gd d a ty lane) := by
  have := d.isLt
  have := a.isLt
  have := ty_le ty
  have := lane.isLt
  refine of_fields (tl := 2) (op := 0x145) rfl (by decide) rfl (by decide) ?_ rfl (by (try simp only [Sys2Proof.shl]); omega)
  suffices hh : ∀ T, T = d.toNat + Sys2Proof.shl (a.toNat) 5 + Sys2Proof.shl (ty.code) 20 + Sys2Proof.shl (lane.toNat) 24 → decodeFields 0x145 T gd = some (.vext gd d a ty lane) from hh _ rfl
  intro T hT
  have e0 : decodeFields 0x145 T gd = (if zr T 8 12 && zr T 30 2 then (ty? (fld T 20 4)).bind fun ty => some (Instr.vext gd (bv T 0 5) (bv T 5 3) ty (bv T 24 6)) else none) := rfl
  rw [e0,
    zr_mk (lo := 8) (w := 12) (T := T) (by (try simp only [hT, Sys2Proof.shl]); omega),
    zr_mk (lo := 30) (w := 2) (T := T) (by (try simp only [hT, Sys2Proof.shl]); omega),
    ty_mk (lo := 20) (T := T) ty (by (try simp only [hT, Sys2Proof.shl]); omega),
    Option.bind_some]
  rw [bv_mk (lo := 0) (T := T) d (by (try simp only [hT, Sys2Proof.shl]); omega),
    bv_mk (lo := 5) (T := T) a (by (try simp only [hT, Sys2Proof.shl]); omega),
    bv_mk (lo := 24) (T := T) lane (by (try simp only [hT, Sys2Proof.shl]); omega)]
  all_goals rfl

theorem vins (gd : Guard) (d : VReg) (a : Reg) (ty : Ty) (lane : BitVec 6) : Statement (.vins gd d a ty lane) := by
  have := d.isLt
  have := a.isLt
  have := ty_le ty
  have := lane.isLt
  refine of_fields (tl := 2) (op := 0x146) rfl (by decide) rfl (by decide) ?_ rfl (by (try simp only [Sys2Proof.shl]); omega)
  suffices hh : ∀ T, T = d.toNat + Sys2Proof.shl (a.toNat) 5 + Sys2Proof.shl (ty.code) 20 + Sys2Proof.shl (lane.toNat) 24 → decodeFields 0x146 T gd = some (.vins gd d a ty lane) from hh _ rfl
  intro T hT
  have e0 : decodeFields 0x146 T gd = (if zr T 3 2 && zr T 10 10 && zr T 30 2 then (ty? (fld T 20 4)).bind fun ty => some (Instr.vins gd (bv T 0 3) (bv T 5 5) ty (bv T 24 6)) else none) := rfl
  rw [e0,
    zr_mk (lo := 3) (w := 2) (T := T) (by (try simp only [hT, Sys2Proof.shl]); omega),
    zr_mk (lo := 10) (w := 10) (T := T) (by (try simp only [hT, Sys2Proof.shl]); omega),
    zr_mk (lo := 30) (w := 2) (T := T) (by (try simp only [hT, Sys2Proof.shl]); omega),
    ty_mk (lo := 20) (T := T) ty (by (try simp only [hT, Sys2Proof.shl]); omega),
    Option.bind_some]
  rw [bv_mk (lo := 0) (T := T) d (by (try simp only [hT, Sys2Proof.shl]); omega),
    bv_mk (lo := 5) (T := T) a (by (try simp only [hT, Sys2Proof.shl]); omega),
    bv_mk (lo := 24) (T := T) lane (by (try simp only [hT, Sys2Proof.shl]); omega)]
  all_goals rfl

theorem vadd (gd : Guard) (d : VReg) (a : VReg) (b : BOp) (ty : Ty) (rm : Rnd) (mk : Mask) (z : Bool) : Statement (.vadd gd d a b ty rm mk z) := by
  have := d.isLt
  have := a.isLt
  obtain ⟨sb, rb, hb, _, _⟩ := encB_le b
  have := ty_le ty
  have := rnd_le rm
  have := mk.m.toNat_le
  have := mk.msk.isLt
  have := z.toNat_le
  refine of_fields (tl := 2) (op := 0x147) rfl (by decide) rfl (by decide) ?_ rfl (by (try simp only [Sys2Proof.shl, hb]); omega)
  suffices hh : ∀ T, T = d.toNat + Sys2Proof.shl (a.toNat) 5 + encB b + Sys2Proof.shl (ty.code) 20 + Sys2Proof.shl (rm.code) 24 + Sys2Proof.shl (mk.m.toNat) 31 + Sys2Proof.shl (mk.msk.toNat) 29 + Sys2Proof.shl (z.toNat) 28 → decodeFields 0x147 T gd = some (.vadd gd d a b ty rm mk z) from hh _ rfl
  intro T hT
  have e0 : decodeFields 0x147 T gd = (if zr T 3 2 && zr T 8 2 && zr T 15 5 then (bop? T).bind fun b => (ty? (fld T 20 4)).bind fun ty => (rnd? (fld T 24 3)).bind fun rm => some (Instr.vadd gd (bv T 0 3) (bv T 5 3) b ty rm ⟨bt T 31, bv T 29 2⟩ (bt T 28)) else none) := rfl
  rw [e0,
    zr_mk (lo := 3) (w := 2) (T := T) (by (try simp only [hT, Sys2Proof.shl, hb]); omega),
    zr_mk (lo := 8) (w := 2) (T := T) (by (try simp only [hT, Sys2Proof.shl, hb]); omega),
    zr_mk (lo := 15) (w := 5) (T := T) (by (try simp only [hT, Sys2Proof.shl, hb]); omega),
    bop_mk (T := T) b (by (try simp only [hT, Sys2Proof.shl, hb]); omega) (by (try simp only [hT, Sys2Proof.shl, hb]); omega),
    ty_mk (lo := 20) (T := T) ty (by (try simp only [hT, Sys2Proof.shl, hb]); omega),
    rnd_mk (lo := 24) (T := T) rm (by (try simp only [hT, Sys2Proof.shl, hb]); omega),
    Option.bind_some,
    Option.bind_some,
    Option.bind_some]
  rw [bv_mk (lo := 0) (T := T) d (by (try simp only [hT, Sys2Proof.shl, hb]); omega),
    bv_mk (lo := 5) (T := T) a (by (try simp only [hT, Sys2Proof.shl, hb]); omega),
    bt_mk (lo := 31) (T := T) mk.m (by (try simp only [hT, Sys2Proof.shl, hb]); omega),
    bv_mk (lo := 29) (T := T) mk.msk (by (try simp only [hT, Sys2Proof.shl, hb]); omega),
    bt_mk (lo := 28) (T := T) z (by (try simp only [hT, Sys2Proof.shl, hb]); omega)]
  all_goals rfl

theorem vsub (gd : Guard) (d : VReg) (a : VReg) (b : BOp) (ty : Ty) (rm : Rnd) (mk : Mask) (z : Bool) : Statement (.vsub gd d a b ty rm mk z) := by
  have := d.isLt
  have := a.isLt
  obtain ⟨sb, rb, hb, _, _⟩ := encB_le b
  have := ty_le ty
  have := rnd_le rm
  have := mk.m.toNat_le
  have := mk.msk.isLt
  have := z.toNat_le
  refine of_fields (tl := 2) (op := 0x148) rfl (by decide) rfl (by decide) ?_ rfl (by (try simp only [Sys2Proof.shl, hb]); omega)
  suffices hh : ∀ T, T = d.toNat + Sys2Proof.shl (a.toNat) 5 + encB b + Sys2Proof.shl (ty.code) 20 + Sys2Proof.shl (rm.code) 24 + Sys2Proof.shl (mk.m.toNat) 31 + Sys2Proof.shl (mk.msk.toNat) 29 + Sys2Proof.shl (z.toNat) 28 → decodeFields 0x148 T gd = some (.vsub gd d a b ty rm mk z) from hh _ rfl
  intro T hT
  have e0 : decodeFields 0x148 T gd = (if zr T 3 2 && zr T 8 2 && zr T 15 5 then (bop? T).bind fun b => (ty? (fld T 20 4)).bind fun ty => (rnd? (fld T 24 3)).bind fun rm => some (Instr.vsub gd (bv T 0 3) (bv T 5 3) b ty rm ⟨bt T 31, bv T 29 2⟩ (bt T 28)) else none) := rfl
  rw [e0,
    zr_mk (lo := 3) (w := 2) (T := T) (by (try simp only [hT, Sys2Proof.shl, hb]); omega),
    zr_mk (lo := 8) (w := 2) (T := T) (by (try simp only [hT, Sys2Proof.shl, hb]); omega),
    zr_mk (lo := 15) (w := 5) (T := T) (by (try simp only [hT, Sys2Proof.shl, hb]); omega),
    bop_mk (T := T) b (by (try simp only [hT, Sys2Proof.shl, hb]); omega) (by (try simp only [hT, Sys2Proof.shl, hb]); omega),
    ty_mk (lo := 20) (T := T) ty (by (try simp only [hT, Sys2Proof.shl, hb]); omega),
    rnd_mk (lo := 24) (T := T) rm (by (try simp only [hT, Sys2Proof.shl, hb]); omega),
    Option.bind_some,
    Option.bind_some,
    Option.bind_some]
  rw [bv_mk (lo := 0) (T := T) d (by (try simp only [hT, Sys2Proof.shl, hb]); omega),
    bv_mk (lo := 5) (T := T) a (by (try simp only [hT, Sys2Proof.shl, hb]); omega),
    bt_mk (lo := 31) (T := T) mk.m (by (try simp only [hT, Sys2Proof.shl, hb]); omega),
    bv_mk (lo := 29) (T := T) mk.msk (by (try simp only [hT, Sys2Proof.shl, hb]); omega),
    bt_mk (lo := 28) (T := T) z (by (try simp only [hT, Sys2Proof.shl, hb]); omega)]
  all_goals rfl

theorem vmul (gd : Guard) (d : VReg) (a : VReg) (b : BOp) (ty : Ty) (rm : Rnd) (mk : Mask) (z : Bool) : Statement (.vmul gd d a b ty rm mk z) := by
  have := d.isLt
  have := a.isLt
  obtain ⟨sb, rb, hb, _, _⟩ := encB_le b
  have := ty_le ty
  have := rnd_le rm
  have := mk.m.toNat_le
  have := mk.msk.isLt
  have := z.toNat_le
  refine of_fields (tl := 2) (op := 0x149) rfl (by decide) rfl (by decide) ?_ rfl (by (try simp only [Sys2Proof.shl, hb]); omega)
  suffices hh : ∀ T, T = d.toNat + Sys2Proof.shl (a.toNat) 5 + encB b + Sys2Proof.shl (ty.code) 20 + Sys2Proof.shl (rm.code) 24 + Sys2Proof.shl (mk.m.toNat) 31 + Sys2Proof.shl (mk.msk.toNat) 29 + Sys2Proof.shl (z.toNat) 28 → decodeFields 0x149 T gd = some (.vmul gd d a b ty rm mk z) from hh _ rfl
  intro T hT
  have e0 : decodeFields 0x149 T gd = (if zr T 3 2 && zr T 8 2 && zr T 15 5 then (bop? T).bind fun b => (ty? (fld T 20 4)).bind fun ty => (rnd? (fld T 24 3)).bind fun rm => some (Instr.vmul gd (bv T 0 3) (bv T 5 3) b ty rm ⟨bt T 31, bv T 29 2⟩ (bt T 28)) else none) := rfl
  rw [e0,
    zr_mk (lo := 3) (w := 2) (T := T) (by (try simp only [hT, Sys2Proof.shl, hb]); omega),
    zr_mk (lo := 8) (w := 2) (T := T) (by (try simp only [hT, Sys2Proof.shl, hb]); omega),
    zr_mk (lo := 15) (w := 5) (T := T) (by (try simp only [hT, Sys2Proof.shl, hb]); omega),
    bop_mk (T := T) b (by (try simp only [hT, Sys2Proof.shl, hb]); omega) (by (try simp only [hT, Sys2Proof.shl, hb]); omega),
    ty_mk (lo := 20) (T := T) ty (by (try simp only [hT, Sys2Proof.shl, hb]); omega),
    rnd_mk (lo := 24) (T := T) rm (by (try simp only [hT, Sys2Proof.shl, hb]); omega),
    Option.bind_some,
    Option.bind_some,
    Option.bind_some]
  rw [bv_mk (lo := 0) (T := T) d (by (try simp only [hT, Sys2Proof.shl, hb]); omega),
    bv_mk (lo := 5) (T := T) a (by (try simp only [hT, Sys2Proof.shl, hb]); omega),
    bt_mk (lo := 31) (T := T) mk.m (by (try simp only [hT, Sys2Proof.shl, hb]); omega),
    bv_mk (lo := 29) (T := T) mk.msk (by (try simp only [hT, Sys2Proof.shl, hb]); omega),
    bt_mk (lo := 28) (T := T) z (by (try simp only [hT, Sys2Proof.shl, hb]); omega)]
  all_goals rfl

theorem vfma (gd : Guard) (d : VReg) (a : VReg) (b : BOp) (c : VReg) (ty : Ty) (rm : Rnd) (mk : Mask) (z : Bool) : Statement (.vfma gd d a b c ty rm mk z) := by
  have := d.isLt
  have := a.isLt
  obtain ⟨sb, rb, hb, _, _⟩ := encB_le b
  have := c.isLt
  have := ty_le ty
  have := rnd_le rm
  have := mk.m.toNat_le
  have := mk.msk.isLt
  have := z.toNat_le
  refine of_fields (tl := 2) (op := 0x14A) rfl (by decide) rfl (by decide) ?_ rfl (by (try simp only [Sys2Proof.shl, hb]); omega)
  suffices hh : ∀ T, T = d.toNat + Sys2Proof.shl (a.toNat) 5 + encB b + Sys2Proof.shl (c.toNat) 15 + Sys2Proof.shl (ty.code) 20 + Sys2Proof.shl (rm.code) 24 + Sys2Proof.shl (mk.m.toNat) 31 + Sys2Proof.shl (mk.msk.toNat) 29 + Sys2Proof.shl (z.toNat) 28 → decodeFields 0x14A T gd = some (.vfma gd d a b c ty rm mk z) from hh _ rfl
  intro T hT
  have e0 : decodeFields 0x14A T gd = (if zr T 3 2 && zr T 8 2 && zr T 18 2 then (bop? T).bind fun b => (ty? (fld T 20 4)).bind fun ty => (rnd? (fld T 24 3)).bind fun rm => some (Instr.vfma gd (bv T 0 3) (bv T 5 3) b (bv T 15 3) ty rm ⟨bt T 31, bv T 29 2⟩ (bt T 28)) else none) := rfl
  rw [e0,
    zr_mk (lo := 3) (w := 2) (T := T) (by (try simp only [hT, Sys2Proof.shl, hb]); omega),
    zr_mk (lo := 8) (w := 2) (T := T) (by (try simp only [hT, Sys2Proof.shl, hb]); omega),
    zr_mk (lo := 18) (w := 2) (T := T) (by (try simp only [hT, Sys2Proof.shl, hb]); omega),
    bop_mk (T := T) b (by (try simp only [hT, Sys2Proof.shl, hb]); omega) (by (try simp only [hT, Sys2Proof.shl, hb]); omega),
    ty_mk (lo := 20) (T := T) ty (by (try simp only [hT, Sys2Proof.shl, hb]); omega),
    rnd_mk (lo := 24) (T := T) rm (by (try simp only [hT, Sys2Proof.shl, hb]); omega),
    Option.bind_some,
    Option.bind_some,
    Option.bind_some]
  rw [bv_mk (lo := 0) (T := T) d (by (try simp only [hT, Sys2Proof.shl, hb]); omega),
    bv_mk (lo := 5) (T := T) a (by (try simp only [hT, Sys2Proof.shl, hb]); omega),
    bv_mk (lo := 15) (T := T) c (by (try simp only [hT, Sys2Proof.shl, hb]); omega),
    bt_mk (lo := 31) (T := T) mk.m (by (try simp only [hT, Sys2Proof.shl, hb]); omega),
    bv_mk (lo := 29) (T := T) mk.msk (by (try simp only [hT, Sys2Proof.shl, hb]); omega),
    bt_mk (lo := 28) (T := T) z (by (try simp only [hT, Sys2Proof.shl, hb]); omega)]
  all_goals rfl

theorem vmin (gd : Guard) (d : VReg) (a : VReg) (b : BOp) (ty : Ty) (mk : Mask) (z : Bool) : Statement (.vmin gd d a b ty mk z) := by
  have := d.isLt
  have := a.isLt
  obtain ⟨sb, rb, hb, _, _⟩ := encB_le b
  have := ty_le ty
  have := mk.m.toNat_le
  have := mk.msk.isLt
  have := z.toNat_le
  refine of_fields (tl := 2) (op := 0x14B) rfl (by decide) rfl (by decide) ?_ rfl (by (try simp only [Sys2Proof.shl, hb]); omega)
  suffices hh : ∀ T, T = d.toNat + Sys2Proof.shl (a.toNat) 5 + encB b + Sys2Proof.shl (ty.code) 20 + Sys2Proof.shl (mk.m.toNat) 31 + Sys2Proof.shl (mk.msk.toNat) 29 + Sys2Proof.shl (z.toNat) 28 → decodeFields 0x14B T gd = some (.vmin gd d a b ty mk z) from hh _ rfl
  intro T hT
  have e0 : decodeFields 0x14B T gd = (if zr T 3 2 && zr T 8 2 && zr T 15 5 && zr T 24 3 then (bop? T).bind fun b => (ty? (fld T 20 4)).bind fun ty => some (Instr.vmin gd (bv T 0 3) (bv T 5 3) b ty ⟨bt T 31, bv T 29 2⟩ (bt T 28)) else none) := rfl
  rw [e0,
    zr_mk (lo := 3) (w := 2) (T := T) (by (try simp only [hT, Sys2Proof.shl, hb]); omega),
    zr_mk (lo := 8) (w := 2) (T := T) (by (try simp only [hT, Sys2Proof.shl, hb]); omega),
    zr_mk (lo := 15) (w := 5) (T := T) (by (try simp only [hT, Sys2Proof.shl, hb]); omega),
    zr_mk (lo := 24) (w := 3) (T := T) (by (try simp only [hT, Sys2Proof.shl, hb]); omega),
    bop_mk (T := T) b (by (try simp only [hT, Sys2Proof.shl, hb]); omega) (by (try simp only [hT, Sys2Proof.shl, hb]); omega),
    ty_mk (lo := 20) (T := T) ty (by (try simp only [hT, Sys2Proof.shl, hb]); omega),
    Option.bind_some,
    Option.bind_some]
  rw [bv_mk (lo := 0) (T := T) d (by (try simp only [hT, Sys2Proof.shl, hb]); omega),
    bv_mk (lo := 5) (T := T) a (by (try simp only [hT, Sys2Proof.shl, hb]); omega),
    bt_mk (lo := 31) (T := T) mk.m (by (try simp only [hT, Sys2Proof.shl, hb]); omega),
    bv_mk (lo := 29) (T := T) mk.msk (by (try simp only [hT, Sys2Proof.shl, hb]); omega),
    bt_mk (lo := 28) (T := T) z (by (try simp only [hT, Sys2Proof.shl, hb]); omega)]
  all_goals rfl

theorem vmax (gd : Guard) (d : VReg) (a : VReg) (b : BOp) (ty : Ty) (mk : Mask) (z : Bool) : Statement (.vmax gd d a b ty mk z) := by
  have := d.isLt
  have := a.isLt
  obtain ⟨sb, rb, hb, _, _⟩ := encB_le b
  have := ty_le ty
  have := mk.m.toNat_le
  have := mk.msk.isLt
  have := z.toNat_le
  refine of_fields (tl := 2) (op := 0x14C) rfl (by decide) rfl (by decide) ?_ rfl (by (try simp only [Sys2Proof.shl, hb]); omega)
  suffices hh : ∀ T, T = d.toNat + Sys2Proof.shl (a.toNat) 5 + encB b + Sys2Proof.shl (ty.code) 20 + Sys2Proof.shl (mk.m.toNat) 31 + Sys2Proof.shl (mk.msk.toNat) 29 + Sys2Proof.shl (z.toNat) 28 → decodeFields 0x14C T gd = some (.vmax gd d a b ty mk z) from hh _ rfl
  intro T hT
  have e0 : decodeFields 0x14C T gd = (if zr T 3 2 && zr T 8 2 && zr T 15 5 && zr T 24 3 then (bop? T).bind fun b => (ty? (fld T 20 4)).bind fun ty => some (Instr.vmax gd (bv T 0 3) (bv T 5 3) b ty ⟨bt T 31, bv T 29 2⟩ (bt T 28)) else none) := rfl
  rw [e0,
    zr_mk (lo := 3) (w := 2) (T := T) (by (try simp only [hT, Sys2Proof.shl, hb]); omega),
    zr_mk (lo := 8) (w := 2) (T := T) (by (try simp only [hT, Sys2Proof.shl, hb]); omega),
    zr_mk (lo := 15) (w := 5) (T := T) (by (try simp only [hT, Sys2Proof.shl, hb]); omega),
    zr_mk (lo := 24) (w := 3) (T := T) (by (try simp only [hT, Sys2Proof.shl, hb]); omega),
    bop_mk (T := T) b (by (try simp only [hT, Sys2Proof.shl, hb]); omega) (by (try simp only [hT, Sys2Proof.shl, hb]); omega),
    ty_mk (lo := 20) (T := T) ty (by (try simp only [hT, Sys2Proof.shl, hb]); omega),
    Option.bind_some,
    Option.bind_some]
  rw [bv_mk (lo := 0) (T := T) d (by (try simp only [hT, Sys2Proof.shl, hb]); omega),
    bv_mk (lo := 5) (T := T) a (by (try simp only [hT, Sys2Proof.shl, hb]); omega),
    bt_mk (lo := 31) (T := T) mk.m (by (try simp only [hT, Sys2Proof.shl, hb]); omega),
    bv_mk (lo := 29) (T := T) mk.msk (by (try simp only [hT, Sys2Proof.shl, hb]); omega),
    bt_mk (lo := 28) (T := T) z (by (try simp only [hT, Sys2Proof.shl, hb]); omega)]
  all_goals rfl

theorem vabs (gd : Guard) (d : VReg) (a : VReg) (ty : Ty) (mk : Mask) (z : Bool) : Statement (.vabs gd d a ty mk z) := by
  have := d.isLt
  have := a.isLt
  have := ty_le ty
  have := mk.m.toNat_le
  have := mk.msk.isLt
  have := z.toNat_le
  refine of_fields (tl := 2) (op := 0x14D) rfl (by decide) rfl (by decide) ?_ rfl (by (try simp only [Sys2Proof.shl]); omega)
  suffices hh : ∀ T, T = d.toNat + Sys2Proof.shl (a.toNat) 5 + Sys2Proof.shl (ty.code) 20 + Sys2Proof.shl (mk.m.toNat) 31 + Sys2Proof.shl (mk.msk.toNat) 29 + Sys2Proof.shl (z.toNat) 28 → decodeFields 0x14D T gd = some (.vabs gd d a ty mk z) from hh _ rfl
  intro T hT
  have e0 : decodeFields 0x14D T gd = (if zr T 3 2 && zr T 8 12 && zr T 24 4 then (ty? (fld T 20 4)).bind fun ty => some (Instr.vabs gd (bv T 0 3) (bv T 5 3) ty ⟨bt T 31, bv T 29 2⟩ (bt T 28)) else none) := rfl
  rw [e0,
    zr_mk (lo := 3) (w := 2) (T := T) (by (try simp only [hT, Sys2Proof.shl]); omega),
    zr_mk (lo := 8) (w := 12) (T := T) (by (try simp only [hT, Sys2Proof.shl]); omega),
    zr_mk (lo := 24) (w := 4) (T := T) (by (try simp only [hT, Sys2Proof.shl]); omega),
    ty_mk (lo := 20) (T := T) ty (by (try simp only [hT, Sys2Proof.shl]); omega),
    Option.bind_some]
  rw [bv_mk (lo := 0) (T := T) d (by (try simp only [hT, Sys2Proof.shl]); omega),
    bv_mk (lo := 5) (T := T) a (by (try simp only [hT, Sys2Proof.shl]); omega),
    bt_mk (lo := 31) (T := T) mk.m (by (try simp only [hT, Sys2Proof.shl]); omega),
    bv_mk (lo := 29) (T := T) mk.msk (by (try simp only [hT, Sys2Proof.shl]); omega),
    bt_mk (lo := 28) (T := T) z (by (try simp only [hT, Sys2Proof.shl]); omega)]
  all_goals rfl

theorem vdiv (gd : Guard) (d : VReg) (a : VReg) (b : BOp) (ty : Ty) (rm : Rnd) (mk : Mask) (z : Bool) : Statement (.vdiv gd d a b ty rm mk z) := by
  have := d.isLt
  have := a.isLt
  obtain ⟨sb, rb, hb, _, _⟩ := encB_le b
  have := ty_le ty
  have := rnd_le rm
  have := mk.m.toNat_le
  have := mk.msk.isLt
  have := z.toNat_le
  refine of_fields (tl := 2) (op := 0x14E) rfl (by decide) rfl (by decide) ?_ rfl (by (try simp only [Sys2Proof.shl, hb]); omega)
  suffices hh : ∀ T, T = d.toNat + Sys2Proof.shl (a.toNat) 5 + encB b + Sys2Proof.shl (ty.code) 20 + Sys2Proof.shl (rm.code) 24 + Sys2Proof.shl (mk.m.toNat) 31 + Sys2Proof.shl (mk.msk.toNat) 29 + Sys2Proof.shl (z.toNat) 28 → decodeFields 0x14E T gd = some (.vdiv gd d a b ty rm mk z) from hh _ rfl
  intro T hT
  have e0 : decodeFields 0x14E T gd = (if zr T 3 2 && zr T 8 2 && zr T 15 5 then (bop? T).bind fun b => (ty? (fld T 20 4)).bind fun ty => (rnd? (fld T 24 3)).bind fun rm => some (Instr.vdiv gd (bv T 0 3) (bv T 5 3) b ty rm ⟨bt T 31, bv T 29 2⟩ (bt T 28)) else none) := rfl
  rw [e0,
    zr_mk (lo := 3) (w := 2) (T := T) (by (try simp only [hT, Sys2Proof.shl, hb]); omega),
    zr_mk (lo := 8) (w := 2) (T := T) (by (try simp only [hT, Sys2Proof.shl, hb]); omega),
    zr_mk (lo := 15) (w := 5) (T := T) (by (try simp only [hT, Sys2Proof.shl, hb]); omega),
    bop_mk (T := T) b (by (try simp only [hT, Sys2Proof.shl, hb]); omega) (by (try simp only [hT, Sys2Proof.shl, hb]); omega),
    ty_mk (lo := 20) (T := T) ty (by (try simp only [hT, Sys2Proof.shl, hb]); omega),
    rnd_mk (lo := 24) (T := T) rm (by (try simp only [hT, Sys2Proof.shl, hb]); omega),
    Option.bind_some,
    Option.bind_some,
    Option.bind_some]
  rw [bv_mk (lo := 0) (T := T) d (by (try simp only [hT, Sys2Proof.shl, hb]); omega),
    bv_mk (lo := 5) (T := T) a (by (try simp only [hT, Sys2Proof.shl, hb]); omega),
    bt_mk (lo := 31) (T := T) mk.m (by (try simp only [hT, Sys2Proof.shl, hb]); omega),
    bv_mk (lo := 29) (T := T) mk.msk (by (try simp only [hT, Sys2Proof.shl, hb]); omega),
    bt_mk (lo := 28) (T := T) z (by (try simp only [hT, Sys2Proof.shl, hb]); omega)]
  all_goals rfl

theorem vsqrt (gd : Guard) (d : VReg) (a : VReg) (ty : Ty) (rm : Rnd) (mk : Mask) (z : Bool) : Statement (.vsqrt gd d a ty rm mk z) := by
  have := d.isLt
  have := a.isLt
  have := ty_le ty
  have := rnd_le rm
  have := mk.m.toNat_le
  have := mk.msk.isLt
  have := z.toNat_le
  refine of_fields (tl := 2) (op := 0x14F) rfl (by decide) rfl (by decide) ?_ rfl (by (try simp only [Sys2Proof.shl]); omega)
  suffices hh : ∀ T, T = d.toNat + Sys2Proof.shl (a.toNat) 5 + Sys2Proof.shl (ty.code) 20 + Sys2Proof.shl (rm.code) 24 + Sys2Proof.shl (mk.m.toNat) 31 + Sys2Proof.shl (mk.msk.toNat) 29 + Sys2Proof.shl (z.toNat) 28 → decodeFields 0x14F T gd = some (.vsqrt gd d a ty rm mk z) from hh _ rfl
  intro T hT
  have e0 : decodeFields 0x14F T gd = (if zr T 3 2 && zr T 8 12 && zr T 27 1 then (ty? (fld T 20 4)).bind fun ty => (rnd? (fld T 24 3)).bind fun rm => some (Instr.vsqrt gd (bv T 0 3) (bv T 5 3) ty rm ⟨bt T 31, bv T 29 2⟩ (bt T 28)) else none) := rfl
  rw [e0,
    zr_mk (lo := 3) (w := 2) (T := T) (by (try simp only [hT, Sys2Proof.shl]); omega),
    zr_mk (lo := 8) (w := 12) (T := T) (by (try simp only [hT, Sys2Proof.shl]); omega),
    zr_mk (lo := 27) (w := 1) (T := T) (by (try simp only [hT, Sys2Proof.shl]); omega),
    ty_mk (lo := 20) (T := T) ty (by (try simp only [hT, Sys2Proof.shl]); omega),
    rnd_mk (lo := 24) (T := T) rm (by (try simp only [hT, Sys2Proof.shl]); omega),
    Option.bind_some,
    Option.bind_some]
  rw [bv_mk (lo := 0) (T := T) d (by (try simp only [hT, Sys2Proof.shl]); omega),
    bv_mk (lo := 5) (T := T) a (by (try simp only [hT, Sys2Proof.shl]); omega),
    bt_mk (lo := 31) (T := T) mk.m (by (try simp only [hT, Sys2Proof.shl]); omega),
    bv_mk (lo := 29) (T := T) mk.msk (by (try simp only [hT, Sys2Proof.shl]); omega),
    bt_mk (lo := 28) (T := T) z (by (try simp only [hT, Sys2Proof.shl]); omega)]
  all_goals rfl

theorem vrsq (gd : Guard) (d : VReg) (a : VReg) (ty : Ty) (rm : Rnd) (mk : Mask) (z : Bool) : Statement (.vrsq gd d a ty rm mk z) := by
  have := d.isLt
  have := a.isLt
  have := ty_le ty
  have := rnd_le rm
  have := mk.m.toNat_le
  have := mk.msk.isLt
  have := z.toNat_le
  refine of_fields (tl := 2) (op := 0x150) rfl (by decide) rfl (by decide) ?_ rfl (by (try simp only [Sys2Proof.shl]); omega)
  suffices hh : ∀ T, T = d.toNat + Sys2Proof.shl (a.toNat) 5 + Sys2Proof.shl (ty.code) 20 + Sys2Proof.shl (rm.code) 24 + Sys2Proof.shl (mk.m.toNat) 31 + Sys2Proof.shl (mk.msk.toNat) 29 + Sys2Proof.shl (z.toNat) 28 → decodeFields 0x150 T gd = some (.vrsq gd d a ty rm mk z) from hh _ rfl
  intro T hT
  have e0 : decodeFields 0x150 T gd = (if zr T 3 2 && zr T 8 12 && zr T 27 1 then (ty? (fld T 20 4)).bind fun ty => (rnd? (fld T 24 3)).bind fun rm => some (Instr.vrsq gd (bv T 0 3) (bv T 5 3) ty rm ⟨bt T 31, bv T 29 2⟩ (bt T 28)) else none) := rfl
  rw [e0,
    zr_mk (lo := 3) (w := 2) (T := T) (by (try simp only [hT, Sys2Proof.shl]); omega),
    zr_mk (lo := 8) (w := 12) (T := T) (by (try simp only [hT, Sys2Proof.shl]); omega),
    zr_mk (lo := 27) (w := 1) (T := T) (by (try simp only [hT, Sys2Proof.shl]); omega),
    ty_mk (lo := 20) (T := T) ty (by (try simp only [hT, Sys2Proof.shl]); omega),
    rnd_mk (lo := 24) (T := T) rm (by (try simp only [hT, Sys2Proof.shl]); omega),
    Option.bind_some,
    Option.bind_some]
  rw [bv_mk (lo := 0) (T := T) d (by (try simp only [hT, Sys2Proof.shl]); omega),
    bv_mk (lo := 5) (T := T) a (by (try simp only [hT, Sys2Proof.shl]); omega),
    bt_mk (lo := 31) (T := T) mk.m (by (try simp only [hT, Sys2Proof.shl]); omega),
    bv_mk (lo := 29) (T := T) mk.msk (by (try simp only [hT, Sys2Proof.shl]); omega),
    bt_mk (lo := 28) (T := T) z (by (try simp only [hT, Sys2Proof.shl]); omega)]
  all_goals rfl

theorem vexp2 (gd : Guard) (d : VReg) (a : VReg) (ty : Ty) (rm : Rnd) (mk : Mask) (z : Bool) : Statement (.vexp2 gd d a ty rm mk z) := by
  have := d.isLt
  have := a.isLt
  have := ty_le ty
  have := rnd_le rm
  have := mk.m.toNat_le
  have := mk.msk.isLt
  have := z.toNat_le
  refine of_fields (tl := 2) (op := 0x151) rfl (by decide) rfl (by decide) ?_ rfl (by (try simp only [Sys2Proof.shl]); omega)
  suffices hh : ∀ T, T = d.toNat + Sys2Proof.shl (a.toNat) 5 + Sys2Proof.shl (ty.code) 20 + Sys2Proof.shl (rm.code) 24 + Sys2Proof.shl (mk.m.toNat) 31 + Sys2Proof.shl (mk.msk.toNat) 29 + Sys2Proof.shl (z.toNat) 28 → decodeFields 0x151 T gd = some (.vexp2 gd d a ty rm mk z) from hh _ rfl
  intro T hT
  have e0 : decodeFields 0x151 T gd = (if zr T 3 2 && zr T 8 12 && zr T 27 1 then (ty? (fld T 20 4)).bind fun ty => (rnd? (fld T 24 3)).bind fun rm => some (Instr.vexp2 gd (bv T 0 3) (bv T 5 3) ty rm ⟨bt T 31, bv T 29 2⟩ (bt T 28)) else none) := rfl
  rw [e0,
    zr_mk (lo := 3) (w := 2) (T := T) (by (try simp only [hT, Sys2Proof.shl]); omega),
    zr_mk (lo := 8) (w := 12) (T := T) (by (try simp only [hT, Sys2Proof.shl]); omega),
    zr_mk (lo := 27) (w := 1) (T := T) (by (try simp only [hT, Sys2Proof.shl]); omega),
    ty_mk (lo := 20) (T := T) ty (by (try simp only [hT, Sys2Proof.shl]); omega),
    rnd_mk (lo := 24) (T := T) rm (by (try simp only [hT, Sys2Proof.shl]); omega),
    Option.bind_some,
    Option.bind_some]
  rw [bv_mk (lo := 0) (T := T) d (by (try simp only [hT, Sys2Proof.shl]); omega),
    bv_mk (lo := 5) (T := T) a (by (try simp only [hT, Sys2Proof.shl]); omega),
    bt_mk (lo := 31) (T := T) mk.m (by (try simp only [hT, Sys2Proof.shl]); omega),
    bv_mk (lo := 29) (T := T) mk.msk (by (try simp only [hT, Sys2Proof.shl]); omega),
    bt_mk (lo := 28) (T := T) z (by (try simp only [hT, Sys2Proof.shl]); omega)]
  all_goals rfl

theorem vlog2 (gd : Guard) (d : VReg) (a : VReg) (ty : Ty) (rm : Rnd) (mk : Mask) (z : Bool) : Statement (.vlog2 gd d a ty rm mk z) := by
  have := d.isLt
  have := a.isLt
  have := ty_le ty
  have := rnd_le rm
  have := mk.m.toNat_le
  have := mk.msk.isLt
  have := z.toNat_le
  refine of_fields (tl := 2) (op := 0x152) rfl (by decide) rfl (by decide) ?_ rfl (by (try simp only [Sys2Proof.shl]); omega)
  suffices hh : ∀ T, T = d.toNat + Sys2Proof.shl (a.toNat) 5 + Sys2Proof.shl (ty.code) 20 + Sys2Proof.shl (rm.code) 24 + Sys2Proof.shl (mk.m.toNat) 31 + Sys2Proof.shl (mk.msk.toNat) 29 + Sys2Proof.shl (z.toNat) 28 → decodeFields 0x152 T gd = some (.vlog2 gd d a ty rm mk z) from hh _ rfl
  intro T hT
  have e0 : decodeFields 0x152 T gd = (if zr T 3 2 && zr T 8 12 && zr T 27 1 then (ty? (fld T 20 4)).bind fun ty => (rnd? (fld T 24 3)).bind fun rm => some (Instr.vlog2 gd (bv T 0 3) (bv T 5 3) ty rm ⟨bt T 31, bv T 29 2⟩ (bt T 28)) else none) := rfl
  rw [e0,
    zr_mk (lo := 3) (w := 2) (T := T) (by (try simp only [hT, Sys2Proof.shl]); omega),
    zr_mk (lo := 8) (w := 12) (T := T) (by (try simp only [hT, Sys2Proof.shl]); omega),
    zr_mk (lo := 27) (w := 1) (T := T) (by (try simp only [hT, Sys2Proof.shl]); omega),
    ty_mk (lo := 20) (T := T) ty (by (try simp only [hT, Sys2Proof.shl]); omega),
    rnd_mk (lo := 24) (T := T) rm (by (try simp only [hT, Sys2Proof.shl]); omega),
    Option.bind_some,
    Option.bind_some]
  rw [bv_mk (lo := 0) (T := T) d (by (try simp only [hT, Sys2Proof.shl]); omega),
    bv_mk (lo := 5) (T := T) a (by (try simp only [hT, Sys2Proof.shl]); omega),
    bt_mk (lo := 31) (T := T) mk.m (by (try simp only [hT, Sys2Proof.shl]); omega),
    bv_mk (lo := 29) (T := T) mk.msk (by (try simp only [hT, Sys2Proof.shl]); omega),
    bt_mk (lo := 28) (T := T) z (by (try simp only [hT, Sys2Proof.shl]); omega)]
  all_goals rfl

theorem vand (gd : Guard) (d : VReg) (a : VReg) (b : BOp) (ty : Ty) (mk : Mask) (z : Bool) : Statement (.vand gd d a b ty mk z) := by
  have := d.isLt
  have := a.isLt
  obtain ⟨sb, rb, hb, _, _⟩ := encB_le b
  have := ty_le ty
  have := mk.m.toNat_le
  have := mk.msk.isLt
  have := z.toNat_le
  refine of_fields (tl := 2) (op := 0x153) rfl (by decide) rfl (by decide) ?_ rfl (by (try simp only [Sys2Proof.shl, hb]); omega)
  suffices hh : ∀ T, T = d.toNat + Sys2Proof.shl (a.toNat) 5 + encB b + Sys2Proof.shl (ty.code) 20 + Sys2Proof.shl (mk.m.toNat) 31 + Sys2Proof.shl (mk.msk.toNat) 29 + Sys2Proof.shl (z.toNat) 28 → decodeFields 0x153 T gd = some (.vand gd d a b ty mk z) from hh _ rfl
  intro T hT
  have e0 : decodeFields 0x153 T gd = (if zr T 3 2 && zr T 8 2 && zr T 15 5 && zr T 24 3 then (bop? T).bind fun b => (ty? (fld T 20 4)).bind fun ty => some (Instr.vand gd (bv T 0 3) (bv T 5 3) b ty ⟨bt T 31, bv T 29 2⟩ (bt T 28)) else none) := rfl
  rw [e0,
    zr_mk (lo := 3) (w := 2) (T := T) (by (try simp only [hT, Sys2Proof.shl, hb]); omega),
    zr_mk (lo := 8) (w := 2) (T := T) (by (try simp only [hT, Sys2Proof.shl, hb]); omega),
    zr_mk (lo := 15) (w := 5) (T := T) (by (try simp only [hT, Sys2Proof.shl, hb]); omega),
    zr_mk (lo := 24) (w := 3) (T := T) (by (try simp only [hT, Sys2Proof.shl, hb]); omega),
    bop_mk (T := T) b (by (try simp only [hT, Sys2Proof.shl, hb]); omega) (by (try simp only [hT, Sys2Proof.shl, hb]); omega),
    ty_mk (lo := 20) (T := T) ty (by (try simp only [hT, Sys2Proof.shl, hb]); omega),
    Option.bind_some,
    Option.bind_some]
  rw [bv_mk (lo := 0) (T := T) d (by (try simp only [hT, Sys2Proof.shl, hb]); omega),
    bv_mk (lo := 5) (T := T) a (by (try simp only [hT, Sys2Proof.shl, hb]); omega),
    bt_mk (lo := 31) (T := T) mk.m (by (try simp only [hT, Sys2Proof.shl, hb]); omega),
    bv_mk (lo := 29) (T := T) mk.msk (by (try simp only [hT, Sys2Proof.shl, hb]); omega),
    bt_mk (lo := 28) (T := T) z (by (try simp only [hT, Sys2Proof.shl, hb]); omega)]
  all_goals rfl

theorem vor (gd : Guard) (d : VReg) (a : VReg) (b : BOp) (ty : Ty) (mk : Mask) (z : Bool) : Statement (.vor gd d a b ty mk z) := by
  have := d.isLt
  have := a.isLt
  obtain ⟨sb, rb, hb, _, _⟩ := encB_le b
  have := ty_le ty
  have := mk.m.toNat_le
  have := mk.msk.isLt
  have := z.toNat_le
  refine of_fields (tl := 2) (op := 0x154) rfl (by decide) rfl (by decide) ?_ rfl (by (try simp only [Sys2Proof.shl, hb]); omega)
  suffices hh : ∀ T, T = d.toNat + Sys2Proof.shl (a.toNat) 5 + encB b + Sys2Proof.shl (ty.code) 20 + Sys2Proof.shl (mk.m.toNat) 31 + Sys2Proof.shl (mk.msk.toNat) 29 + Sys2Proof.shl (z.toNat) 28 → decodeFields 0x154 T gd = some (.vor gd d a b ty mk z) from hh _ rfl
  intro T hT
  have e0 : decodeFields 0x154 T gd = (if zr T 3 2 && zr T 8 2 && zr T 15 5 && zr T 24 3 then (bop? T).bind fun b => (ty? (fld T 20 4)).bind fun ty => some (Instr.vor gd (bv T 0 3) (bv T 5 3) b ty ⟨bt T 31, bv T 29 2⟩ (bt T 28)) else none) := rfl
  rw [e0,
    zr_mk (lo := 3) (w := 2) (T := T) (by (try simp only [hT, Sys2Proof.shl, hb]); omega),
    zr_mk (lo := 8) (w := 2) (T := T) (by (try simp only [hT, Sys2Proof.shl, hb]); omega),
    zr_mk (lo := 15) (w := 5) (T := T) (by (try simp only [hT, Sys2Proof.shl, hb]); omega),
    zr_mk (lo := 24) (w := 3) (T := T) (by (try simp only [hT, Sys2Proof.shl, hb]); omega),
    bop_mk (T := T) b (by (try simp only [hT, Sys2Proof.shl, hb]); omega) (by (try simp only [hT, Sys2Proof.shl, hb]); omega),
    ty_mk (lo := 20) (T := T) ty (by (try simp only [hT, Sys2Proof.shl, hb]); omega),
    Option.bind_some,
    Option.bind_some]
  rw [bv_mk (lo := 0) (T := T) d (by (try simp only [hT, Sys2Proof.shl, hb]); omega),
    bv_mk (lo := 5) (T := T) a (by (try simp only [hT, Sys2Proof.shl, hb]); omega),
    bt_mk (lo := 31) (T := T) mk.m (by (try simp only [hT, Sys2Proof.shl, hb]); omega),
    bv_mk (lo := 29) (T := T) mk.msk (by (try simp only [hT, Sys2Proof.shl, hb]); omega),
    bt_mk (lo := 28) (T := T) z (by (try simp only [hT, Sys2Proof.shl, hb]); omega)]
  all_goals rfl

theorem vxor (gd : Guard) (d : VReg) (a : VReg) (b : BOp) (ty : Ty) (mk : Mask) (z : Bool) : Statement (.vxor gd d a b ty mk z) := by
  have := d.isLt
  have := a.isLt
  obtain ⟨sb, rb, hb, _, _⟩ := encB_le b
  have := ty_le ty
  have := mk.m.toNat_le
  have := mk.msk.isLt
  have := z.toNat_le
  refine of_fields (tl := 2) (op := 0x155) rfl (by decide) rfl (by decide) ?_ rfl (by (try simp only [Sys2Proof.shl, hb]); omega)
  suffices hh : ∀ T, T = d.toNat + Sys2Proof.shl (a.toNat) 5 + encB b + Sys2Proof.shl (ty.code) 20 + Sys2Proof.shl (mk.m.toNat) 31 + Sys2Proof.shl (mk.msk.toNat) 29 + Sys2Proof.shl (z.toNat) 28 → decodeFields 0x155 T gd = some (.vxor gd d a b ty mk z) from hh _ rfl
  intro T hT
  have e0 : decodeFields 0x155 T gd = (if zr T 3 2 && zr T 8 2 && zr T 15 5 && zr T 24 3 then (bop? T).bind fun b => (ty? (fld T 20 4)).bind fun ty => some (Instr.vxor gd (bv T 0 3) (bv T 5 3) b ty ⟨bt T 31, bv T 29 2⟩ (bt T 28)) else none) := rfl
  rw [e0,
    zr_mk (lo := 3) (w := 2) (T := T) (by (try simp only [hT, Sys2Proof.shl, hb]); omega),
    zr_mk (lo := 8) (w := 2) (T := T) (by (try simp only [hT, Sys2Proof.shl, hb]); omega),
    zr_mk (lo := 15) (w := 5) (T := T) (by (try simp only [hT, Sys2Proof.shl, hb]); omega),
    zr_mk (lo := 24) (w := 3) (T := T) (by (try simp only [hT, Sys2Proof.shl, hb]); omega),
    bop_mk (T := T) b (by (try simp only [hT, Sys2Proof.shl, hb]); omega) (by (try simp only [hT, Sys2Proof.shl, hb]); omega),
    ty_mk (lo := 20) (T := T) ty (by (try simp only [hT, Sys2Proof.shl, hb]); omega),
    Option.bind_some,
    Option.bind_some]
  rw [bv_mk (lo := 0) (T := T) d (by (try simp only [hT, Sys2Proof.shl, hb]); omega),
    bv_mk (lo := 5) (T := T) a (by (try simp only [hT, Sys2Proof.shl, hb]); omega),
    bt_mk (lo := 31) (T := T) mk.m (by (try simp only [hT, Sys2Proof.shl, hb]); omega),
    bv_mk (lo := 29) (T := T) mk.msk (by (try simp only [hT, Sys2Proof.shl, hb]); omega),
    bt_mk (lo := 28) (T := T) z (by (try simp only [hT, Sys2Proof.shl, hb]); omega)]
  all_goals rfl

theorem vshl (gd : Guard) (d : VReg) (a : VReg) (b : BOp) (ty : Ty) (mk : Mask) (z : Bool) : Statement (.vshl gd d a b ty mk z) := by
  have := d.isLt
  have := a.isLt
  obtain ⟨sb, rb, hb, _, _⟩ := encB_le b
  have := ty_le ty
  have := mk.m.toNat_le
  have := mk.msk.isLt
  have := z.toNat_le
  refine of_fields (tl := 2) (op := 0x156) rfl (by decide) rfl (by decide) ?_ rfl (by (try simp only [Sys2Proof.shl, hb]); omega)
  suffices hh : ∀ T, T = d.toNat + Sys2Proof.shl (a.toNat) 5 + encB b + Sys2Proof.shl (ty.code) 20 + Sys2Proof.shl (mk.m.toNat) 31 + Sys2Proof.shl (mk.msk.toNat) 29 + Sys2Proof.shl (z.toNat) 28 → decodeFields 0x156 T gd = some (.vshl gd d a b ty mk z) from hh _ rfl
  intro T hT
  have e0 : decodeFields 0x156 T gd = (if zr T 3 2 && zr T 8 2 && zr T 15 5 && zr T 24 3 then (bop? T).bind fun b => (ty? (fld T 20 4)).bind fun ty => some (Instr.vshl gd (bv T 0 3) (bv T 5 3) b ty ⟨bt T 31, bv T 29 2⟩ (bt T 28)) else none) := rfl
  rw [e0,
    zr_mk (lo := 3) (w := 2) (T := T) (by (try simp only [hT, Sys2Proof.shl, hb]); omega),
    zr_mk (lo := 8) (w := 2) (T := T) (by (try simp only [hT, Sys2Proof.shl, hb]); omega),
    zr_mk (lo := 15) (w := 5) (T := T) (by (try simp only [hT, Sys2Proof.shl, hb]); omega),
    zr_mk (lo := 24) (w := 3) (T := T) (by (try simp only [hT, Sys2Proof.shl, hb]); omega),
    bop_mk (T := T) b (by (try simp only [hT, Sys2Proof.shl, hb]); omega) (by (try simp only [hT, Sys2Proof.shl, hb]); omega),
    ty_mk (lo := 20) (T := T) ty (by (try simp only [hT, Sys2Proof.shl, hb]); omega),
    Option.bind_some,
    Option.bind_some]
  rw [bv_mk (lo := 0) (T := T) d (by (try simp only [hT, Sys2Proof.shl, hb]); omega),
    bv_mk (lo := 5) (T := T) a (by (try simp only [hT, Sys2Proof.shl, hb]); omega),
    bt_mk (lo := 31) (T := T) mk.m (by (try simp only [hT, Sys2Proof.shl, hb]); omega),
    bv_mk (lo := 29) (T := T) mk.msk (by (try simp only [hT, Sys2Proof.shl, hb]); omega),
    bt_mk (lo := 28) (T := T) z (by (try simp only [hT, Sys2Proof.shl, hb]); omega)]
  all_goals rfl

theorem vshr (gd : Guard) (d : VReg) (a : VReg) (b : BOp) (ty : Ty) (mk : Mask) (z : Bool) : Statement (.vshr gd d a b ty mk z) := by
  have := d.isLt
  have := a.isLt
  obtain ⟨sb, rb, hb, _, _⟩ := encB_le b
  have := ty_le ty
  have := mk.m.toNat_le
  have := mk.msk.isLt
  have := z.toNat_le
  refine of_fields (tl := 2) (op := 0x157) rfl (by decide) rfl (by decide) ?_ rfl (by (try simp only [Sys2Proof.shl, hb]); omega)
  suffices hh : ∀ T, T = d.toNat + Sys2Proof.shl (a.toNat) 5 + encB b + Sys2Proof.shl (ty.code) 20 + Sys2Proof.shl (mk.m.toNat) 31 + Sys2Proof.shl (mk.msk.toNat) 29 + Sys2Proof.shl (z.toNat) 28 → decodeFields 0x157 T gd = some (.vshr gd d a b ty mk z) from hh _ rfl
  intro T hT
  have e0 : decodeFields 0x157 T gd = (if zr T 3 2 && zr T 8 2 && zr T 15 5 && zr T 24 3 then (bop? T).bind fun b => (ty? (fld T 20 4)).bind fun ty => some (Instr.vshr gd (bv T 0 3) (bv T 5 3) b ty ⟨bt T 31, bv T 29 2⟩ (bt T 28)) else none) := rfl
  rw [e0,
    zr_mk (lo := 3) (w := 2) (T := T) (by (try simp only [hT, Sys2Proof.shl, hb]); omega),
    zr_mk (lo := 8) (w := 2) (T := T) (by (try simp only [hT, Sys2Proof.shl, hb]); omega),
    zr_mk (lo := 15) (w := 5) (T := T) (by (try simp only [hT, Sys2Proof.shl, hb]); omega),
    zr_mk (lo := 24) (w := 3) (T := T) (by (try simp only [hT, Sys2Proof.shl, hb]); omega),
    bop_mk (T := T) b (by (try simp only [hT, Sys2Proof.shl, hb]); omega) (by (try simp only [hT, Sys2Proof.shl, hb]); omega),
    ty_mk (lo := 20) (T := T) ty (by (try simp only [hT, Sys2Proof.shl, hb]); omega),
    Option.bind_some,
    Option.bind_some]
  rw [bv_mk (lo := 0) (T := T) d (by (try simp only [hT, Sys2Proof.shl, hb]); omega),
    bv_mk (lo := 5) (T := T) a (by (try simp only [hT, Sys2Proof.shl, hb]); omega),
    bt_mk (lo := 31) (T := T) mk.m (by (try simp only [hT, Sys2Proof.shl, hb]); omega),
    bv_mk (lo := 29) (T := T) mk.msk (by (try simp only [hT, Sys2Proof.shl, hb]); omega),
    bt_mk (lo := 28) (T := T) z (by (try simp only [hT, Sys2Proof.shl, hb]); omega)]
  all_goals rfl

theorem vcmp (gd : Guard) (d : VMsk) (a : VReg) (b : BOp) (ty : Ty) (fc : FCond) (mk : Mask) : Statement (.vcmp gd d a b ty fc mk) := by
  have := d.isLt
  have := a.isLt
  obtain ⟨sb, rb, hb, _, _⟩ := encB_le b
  have := ty_le ty
  have := fcond_le fc
  have := mk.m.toNat_le
  have := mk.msk.isLt
  refine of_fields (tl := 2) (op := 0x158) rfl (by decide) rfl (by decide) ?_ rfl (by (try simp only [Sys2Proof.shl, hb]); omega)
  suffices hh : ∀ T, T = d.toNat + Sys2Proof.shl (a.toNat) 5 + encB b + Sys2Proof.shl (ty.code) 20 + Sys2Proof.shl (fc.code) 24 + Sys2Proof.shl (mk.m.toNat) 31 + Sys2Proof.shl (mk.msk.toNat) 29 → decodeFields 0x158 T gd = some (.vcmp gd d a b ty fc mk) from hh _ rfl
  intro T hT
  have e0 : decodeFields 0x158 T gd = (if zr T 2 3 && zr T 8 2 && zr T 15 5 && zr T 28 1 then (bop? T).bind fun b => (ty? (fld T 20 4)).bind fun ty => (fcond? (fld T 24 3)).bind fun fc => some (Instr.vcmp gd (bv T 0 2) (bv T 5 3) b ty fc ⟨bt T 31, bv T 29 2⟩) else none) := rfl
  rw [e0,
    zr_mk (lo := 2) (w := 3) (T := T) (by (try simp only [hT, Sys2Proof.shl, hb]); omega),
    zr_mk (lo := 8) (w := 2) (T := T) (by (try simp only [hT, Sys2Proof.shl, hb]); omega),
    zr_mk (lo := 15) (w := 5) (T := T) (by (try simp only [hT, Sys2Proof.shl, hb]); omega),
    zr_mk (lo := 28) (w := 1) (T := T) (by (try simp only [hT, Sys2Proof.shl, hb]); omega),
    bop_mk (T := T) b (by (try simp only [hT, Sys2Proof.shl, hb]); omega) (by (try simp only [hT, Sys2Proof.shl, hb]); omega),
    ty_mk (lo := 20) (T := T) ty (by (try simp only [hT, Sys2Proof.shl, hb]); omega),
    fcond_mk (lo := 24) (w := 3) (T := T) fc (by (try simp only [hT, Sys2Proof.shl, hb]); omega),
    Option.bind_some,
    Option.bind_some,
    Option.bind_some]
  rw [bv_mk (lo := 0) (T := T) d (by (try simp only [hT, Sys2Proof.shl, hb]); omega),
    bv_mk (lo := 5) (T := T) a (by (try simp only [hT, Sys2Proof.shl, hb]); omega),
    bt_mk (lo := 31) (T := T) mk.m (by (try simp only [hT, Sys2Proof.shl, hb]); omega),
    bv_mk (lo := 29) (T := T) mk.msk (by (try simp only [hT, Sys2Proof.shl, hb]); omega)]
  all_goals rfl

theorem vsel (gd : Guard) (d : VReg) (a : VReg) (b : BOp) (c : VMsk) (ty : Ty) : Statement (.vsel gd d a b c ty) := by
  have := d.isLt
  have := a.isLt
  obtain ⟨sb, rb, hb, _, _⟩ := encB_le b
  have := c.isLt
  have := ty_le ty
  refine of_fields (tl := 2) (op := 0x159) rfl (by decide) rfl (by decide) ?_ rfl (by (try simp only [Sys2Proof.shl, hb]); omega)
  suffices hh : ∀ T, T = d.toNat + Sys2Proof.shl (a.toNat) 5 + encB b + Sys2Proof.shl (c.toNat) 15 + Sys2Proof.shl (ty.code) 20 → decodeFields 0x159 T gd = some (.vsel gd d a b c ty) from hh _ rfl
  intro T hT
  have e0 : decodeFields 0x159 T gd = (if zr T 3 2 && zr T 8 2 && zr T 17 3 && zr T 24 3 && zr T 28 4 then (bop? T).bind fun b => (ty? (fld T 20 4)).bind fun ty => some (Instr.vsel gd (bv T 0 3) (bv T 5 3) b (bv T 15 2) ty) else none) := rfl
  rw [e0,
    zr_mk (lo := 3) (w := 2) (T := T) (by (try simp only [hT, Sys2Proof.shl, hb]); omega),
    zr_mk (lo := 8) (w := 2) (T := T) (by (try simp only [hT, Sys2Proof.shl, hb]); omega),
    zr_mk (lo := 17) (w := 3) (T := T) (by (try simp only [hT, Sys2Proof.shl, hb]); omega),
    zr_mk (lo := 24) (w := 3) (T := T) (by (try simp only [hT, Sys2Proof.shl, hb]); omega),
    zr_mk (lo := 28) (w := 4) (T := T) (by (try simp only [hT, Sys2Proof.shl, hb]); omega),
    bop_mk (T := T) b (by (try simp only [hT, Sys2Proof.shl, hb]); omega) (by (try simp only [hT, Sys2Proof.shl, hb]); omega),
    ty_mk (lo := 20) (T := T) ty (by (try simp only [hT, Sys2Proof.shl, hb]); omega),
    Option.bind_some,
    Option.bind_some]
  rw [bv_mk (lo := 0) (T := T) d (by (try simp only [hT, Sys2Proof.shl, hb]); omega),
    bv_mk (lo := 5) (T := T) a (by (try simp only [hT, Sys2Proof.shl, hb]); omega),
    bv_mk (lo := 15) (T := T) c (by (try simp only [hT, Sys2Proof.shl, hb]); omega)]
  all_goals rfl

theorem vcvt (gd : Guard) (d : VReg) (a : VReg) (tgt : Ty) (frm : Ty) (rm : Rnd) (sat : Bool) (part : BitVec 5) : Statement (.vcvt gd d a tgt frm rm sat part) := by
  have := d.isLt
  have := a.isLt
  have := ty_le tgt
  have := ty_le frm
  have := rnd_le rm
  have := sat.toNat_le
  have := part.isLt
  refine of_fields (tl := 2) (op := 0x15A) rfl (by decide) rfl (by decide) ?_ rfl (by (try simp only [Sys2Proof.shl]); omega)
  suffices hh : ∀ T, T = d.toNat + Sys2Proof.shl (a.toNat) 5 + Sys2Proof.shl (tgt.code) 20 + Sys2Proof.shl (frm.code) 27 + Sys2Proof.shl (rm.code) 24 + Sys2Proof.shl (sat.toNat) 31 + Sys2Proof.shl (part.toNat) 15 → decodeFields 0x15A T gd = some (.vcvt gd d a tgt frm rm sat part) from hh _ rfl
  intro T hT
  have e0 : decodeFields 0x15A T gd = (if zr T 3 2 && zr T 8 7 then (ty? (fld T 20 4)).bind fun tgt => (ty? (fld T 27 4)).bind fun frm => (rnd? (fld T 24 3)).bind fun rm => some (Instr.vcvt gd (bv T 0 3) (bv T 5 3) tgt frm rm (bt T 31) (bv T 15 5)) else none) := rfl
  rw [e0,
    zr_mk (lo := 3) (w := 2) (T := T) (by (try simp only [hT, Sys2Proof.shl]); omega),
    zr_mk (lo := 8) (w := 7) (T := T) (by (try simp only [hT, Sys2Proof.shl]); omega),
    ty_mk (lo := 20) (T := T) tgt (by (try simp only [hT, Sys2Proof.shl]); omega),
    ty_mk (lo := 27) (T := T) frm (by (try simp only [hT, Sys2Proof.shl]); omega),
    rnd_mk (lo := 24) (T := T) rm (by (try simp only [hT, Sys2Proof.shl]); omega),
    Option.bind_some,
    Option.bind_some,
    Option.bind_some]
  rw [bv_mk (lo := 0) (T := T) d (by (try simp only [hT, Sys2Proof.shl]); omega),
    bv_mk (lo := 5) (T := T) a (by (try simp only [hT, Sys2Proof.shl]); omega),
    bt_mk (lo := 31) (T := T) sat (by (try simp only [hT, Sys2Proof.shl]); omega),
    bv_mk (lo := 15) (T := T) part (by (try simp only [hT, Sys2Proof.shl]); omega)]
  all_goals rfl

theorem vred (gd : Guard) (d : Reg) (a : VReg) (op : BitVec 2) (ty : Ty) (rm : Rnd) (mk : Mask) : Statement (.vred gd d a op ty rm mk) := by
  have := d.isLt
  have := a.isLt
  have := op.isLt
  have := ty_le ty
  have := rnd_le rm
  have := mk.m.toNat_le
  have := mk.msk.isLt
  refine of_fields (tl := 2) (op := 0x15B) rfl (by decide) rfl (by decide) ?_ rfl (by (try simp only [Sys2Proof.shl]); omega)
  suffices hh : ∀ T, T = d.toNat + Sys2Proof.shl (a.toNat) 5 + Sys2Proof.shl (op.toNat) 27 + Sys2Proof.shl (ty.code) 20 + Sys2Proof.shl (rm.code) 24 + Sys2Proof.shl (mk.m.toNat) 31 + Sys2Proof.shl (mk.msk.toNat) 29 → decodeFields 0x15B T gd = some (.vred gd d a op ty rm mk) from hh _ rfl
  intro T hT
  have e0 : decodeFields 0x15B T gd = (if zr T 8 12 then (ty? (fld T 20 4)).bind fun ty => (rnd? (fld T 24 3)).bind fun rm => some (Instr.vred gd (bv T 0 5) (bv T 5 3) (bv T 27 2) ty rm ⟨bt T 31, bv T 29 2⟩) else none) := rfl
  rw [e0,
    zr_mk (lo := 8) (w := 12) (T := T) (by (try simp only [hT, Sys2Proof.shl]); omega),
    ty_mk (lo := 20) (T := T) ty (by (try simp only [hT, Sys2Proof.shl]); omega),
    rnd_mk (lo := 24) (T := T) rm (by (try simp only [hT, Sys2Proof.shl]); omega),
    Option.bind_some,
    Option.bind_some]
  rw [bv_mk (lo := 0) (T := T) d (by (try simp only [hT, Sys2Proof.shl]); omega),
    bv_mk (lo := 5) (T := T) a (by (try simp only [hT, Sys2Proof.shl]); omega),
    bv_mk (lo := 27) (T := T) op (by (try simp only [hT, Sys2Proof.shl]); omega),
    bt_mk (lo := 31) (T := T) mk.m (by (try simp only [hT, Sys2Proof.shl]); omega),
    bv_mk (lo := 29) (T := T) mk.msk (by (try simp only [hT, Sys2Proof.shl]); omega)]
  all_goals rfl

theorem vscan (gd : Guard) (d : VReg) (a : VReg) (op : BitVec 2) (ty : Ty) (rm : Rnd) (mk : Mask) : Statement (.vscan gd d a op ty rm mk) := by
  have := d.isLt
  have := a.isLt
  have := op.isLt
  have := ty_le ty
  have := rnd_le rm
  have := mk.m.toNat_le
  have := mk.msk.isLt
  refine of_fields (tl := 2) (op := 0x15C) rfl (by decide) rfl (by decide) ?_ rfl (by (try simp only [Sys2Proof.shl]); omega)
  suffices hh : ∀ T, T = d.toNat + Sys2Proof.shl (a.toNat) 5 + Sys2Proof.shl (op.toNat) 27 + Sys2Proof.shl (ty.code) 20 + Sys2Proof.shl (rm.code) 24 + Sys2Proof.shl (mk.m.toNat) 31 + Sys2Proof.shl (mk.msk.toNat) 29 → decodeFields 0x15C T gd = some (.vscan gd d a op ty rm mk) from hh _ rfl
  intro T hT
  have e0 : decodeFields 0x15C T gd = (if zr T 3 2 && zr T 8 12 then (ty? (fld T 20 4)).bind fun ty => (rnd? (fld T 24 3)).bind fun rm => some (Instr.vscan gd (bv T 0 3) (bv T 5 3) (bv T 27 2) ty rm ⟨bt T 31, bv T 29 2⟩) else none) := rfl
  rw [e0,
    zr_mk (lo := 3) (w := 2) (T := T) (by (try simp only [hT, Sys2Proof.shl]); omega),
    zr_mk (lo := 8) (w := 12) (T := T) (by (try simp only [hT, Sys2Proof.shl]); omega),
    ty_mk (lo := 20) (T := T) ty (by (try simp only [hT, Sys2Proof.shl]); omega),
    rnd_mk (lo := 24) (T := T) rm (by (try simp only [hT, Sys2Proof.shl]); omega),
    Option.bind_some,
    Option.bind_some]
  rw [bv_mk (lo := 0) (T := T) d (by (try simp only [hT, Sys2Proof.shl]); omega),
    bv_mk (lo := 5) (T := T) a (by (try simp only [hT, Sys2Proof.shl]); omega),
    bv_mk (lo := 27) (T := T) op (by (try simp only [hT, Sys2Proof.shl]); omega),
    bt_mk (lo := 31) (T := T) mk.m (by (try simp only [hT, Sys2Proof.shl]); omega),
    bv_mk (lo := 29) (T := T) mk.msk (by (try simp only [hT, Sys2Proof.shl]); omega)]
  all_goals rfl

theorem vperm (gd : Guard) (d : VReg) (a : VReg) (b : VReg) (ty : Ty) (mk : Mask) (z : Bool) : Statement (.vperm gd d a b ty mk z) := by
  have := d.isLt
  have := a.isLt
  have := b.isLt
  have := ty_le ty
  have := mk.m.toNat_le
  have := mk.msk.isLt
  have := z.toNat_le
  refine of_fields (tl := 2) (op := 0x15D) rfl (by decide) rfl (by decide) ?_ rfl (by (try simp only [Sys2Proof.shl]); omega)
  suffices hh : ∀ T, T = d.toNat + Sys2Proof.shl (a.toNat) 5 + Sys2Proof.shl (b.toNat) 10 + Sys2Proof.shl (ty.code) 20 + Sys2Proof.shl (mk.m.toNat) 31 + Sys2Proof.shl (mk.msk.toNat) 29 + Sys2Proof.shl (z.toNat) 28 → decodeFields 0x15D T gd = some (.vperm gd d a b ty mk z) from hh _ rfl
  intro T hT
  have e0 : decodeFields 0x15D T gd = (if zr T 3 2 && zr T 8 2 && zr T 13 7 && zr T 24 4 then (ty? (fld T 20 4)).bind fun ty => some (Instr.vperm gd (bv T 0 3) (bv T 5 3) (bv T 10 3) ty ⟨bt T 31, bv T 29 2⟩ (bt T 28)) else none) := rfl
  rw [e0,
    zr_mk (lo := 3) (w := 2) (T := T) (by (try simp only [hT, Sys2Proof.shl]); omega),
    zr_mk (lo := 8) (w := 2) (T := T) (by (try simp only [hT, Sys2Proof.shl]); omega),
    zr_mk (lo := 13) (w := 7) (T := T) (by (try simp only [hT, Sys2Proof.shl]); omega),
    zr_mk (lo := 24) (w := 4) (T := T) (by (try simp only [hT, Sys2Proof.shl]); omega),
    ty_mk (lo := 20) (T := T) ty (by (try simp only [hT, Sys2Proof.shl]); omega),
    Option.bind_some]
  rw [bv_mk (lo := 0) (T := T) d (by (try simp only [hT, Sys2Proof.shl]); omega),
    bv_mk (lo := 5) (T := T) a (by (try simp only [hT, Sys2Proof.shl]); omega),
    bv_mk (lo := 10) (T := T) b (by (try simp only [hT, Sys2Proof.shl]); omega),
    bt_mk (lo := 31) (T := T) mk.m (by (try simp only [hT, Sys2Proof.shl]); omega),
    bv_mk (lo := 29) (T := T) mk.msk (by (try simp only [hT, Sys2Proof.shl]); omega),
    bt_mk (lo := 28) (T := T) z (by (try simp only [hT, Sys2Proof.shl]); omega)]
  all_goals rfl

theorem vmlog (gd : Guard) (d : VMsk) (a : BitVec 5) (b : VMsk) (table : BitVec 4) (isG : Bool) : Statement (.vmlog gd d a b table isG) := by
  have := d.isLt
  have := a.isLt
  have := b.isLt
  have := table.isLt
  have := isG.toNat_le
  refine of_fields (tl := 2) (op := 0x15E) rfl (by decide) rfl (by decide) ?_ rfl (by (try simp only [Sys2Proof.shl]); omega)
  suffices hh : ∀ T, T = d.toNat + Sys2Proof.shl (a.toNat) 5 + Sys2Proof.shl (b.toNat) 10 + Sys2Proof.shl (table.toNat) 20 + Sys2Proof.shl (isG.toNat) 24 → decodeFields 0x15E T gd = some (.vmlog gd d a b table isG) from hh _ rfl
  intro T hT
  have e0 : decodeFields 0x15E T gd = (if zr T 2 3 && zr T 12 8 && zr T 25 7 then some (Instr.vmlog gd (bv T 0 2) (bv T 5 5) (bv T 10 2) (bv T 20 4) (bt T 24)) else none) := rfl
  rw [e0,
    zr_mk (lo := 2) (w := 3) (T := T) (by (try simp only [hT, Sys2Proof.shl]); omega),
    zr_mk (lo := 12) (w := 8) (T := T) (by (try simp only [hT, Sys2Proof.shl]); omega),
    zr_mk (lo := 25) (w := 7) (T := T) (by (try simp only [hT, Sys2Proof.shl]); omega)]
  show some (Instr.vmlog gd (bv T 0 2) (bv T 5 5) (bv T 10 2) (bv T 20 4) (bt T 24)) = _
  rw [bv_mk (lo := 0) (T := T) d (by (try simp only [hT, Sys2Proof.shl]); omega),
    bv_mk (lo := 5) (T := T) a (by (try simp only [hT, Sys2Proof.shl]); omega),
    bv_mk (lo := 10) (T := T) b (by (try simp only [hT, Sys2Proof.shl]); omega),
    bv_mk (lo := 20) (T := T) table (by (try simp only [hT, Sys2Proof.shl]); omega),
    bt_mk (lo := 24) (T := T) isG (by (try simp only [hT, Sys2Proof.shl]); omega)]
  all_goals rfl

theorem vmpop (gd : Guard) (d : Reg) (a : VMsk) (raw : Bool) : Statement (.vmpop gd d a raw) := by
  have := d.isLt
  have := a.isLt
  have := raw.toNat_le
  refine of_fields (tl := 2) (op := 0x15F) rfl (by decide) rfl (by decide) ?_ rfl (by (try simp only [Sys2Proof.shl]); omega)
  suffices hh : ∀ T, T = d.toNat + Sys2Proof.shl (a.toNat) 5 + Sys2Proof.shl (raw.toNat) 20 → decodeFields 0x15F T gd = some (.vmpop gd d a raw) from hh _ rfl
  intro T hT
  have e0 : decodeFields 0x15F T gd = (if zr T 7 13 && zr T 21 11 then some (Instr.vmpop gd (bv T 0 5) (bv T 5 2) (bt T 20)) else none) := rfl
  rw [e0,
    zr_mk (lo := 7) (w := 13) (T := T) (by (try simp only [hT, Sys2Proof.shl]); omega),
    zr_mk (lo := 21) (w := 11) (T := T) (by (try simp only [hT, Sys2Proof.shl]); omega)]
  show some (Instr.vmpop gd (bv T 0 5) (bv T 5 2) (bt T 20)) = _
  rw [bv_mk (lo := 0) (T := T) d (by (try simp only [hT, Sys2Proof.shl]); omega),
    bv_mk (lo := 5) (T := T) a (by (try simp only [hT, Sys2Proof.shl]); omega),
    bt_mk (lo := 20) (T := T) raw (by (try simp only [hT, Sys2Proof.shl]); omega)]
  all_goals rfl

theorem barq (gd : Guard) (d : VReg) (a : VReg) (b : Reg) (part : BitVec 2) (ty : Ty) (mk : Mask) (z : Bool) : Statement (.barq gd d a b part ty mk z) := by
  have := d.isLt
  have := a.isLt
  have := b.isLt
  have := part.isLt
  have := ty_le ty
  have := mk.m.toNat_le
  have := mk.msk.isLt
  have := z.toNat_le
  refine of_fields (tl := 2) (op := 0x160) rfl (by decide) rfl (by decide) ?_ rfl (by (try simp only [Sys2Proof.shl]); omega)
  suffices hh : ∀ T, T = d.toNat + Sys2Proof.shl (a.toNat) 5 + Sys2Proof.shl (b.toNat) 10 + Sys2Proof.shl (part.toNat) 15 + Sys2Proof.shl (ty.code) 20 + Sys2Proof.shl (mk.m.toNat) 31 + Sys2Proof.shl (mk.msk.toNat) 29 + Sys2Proof.shl (z.toNat) 28 → decodeFields 0x160 T gd = some (.barq gd d a b part ty mk z) from hh _ rfl
  intro T hT
  have e0 : decodeFields 0x160 T gd = (if zr T 3 2 && zr T 8 2 && zr T 17 3 && zr T 24 4 then (ty? (fld T 20 4)).bind fun ty => some (Instr.barq gd (bv T 0 3) (bv T 5 3) (bv T 10 5) (bv T 15 2) ty ⟨bt T 31, bv T 29 2⟩ (bt T 28)) else none) := rfl
  rw [e0,
    zr_mk (lo := 3) (w := 2) (T := T) (by (try simp only [hT, Sys2Proof.shl]); omega),
    zr_mk (lo := 8) (w := 2) (T := T) (by (try simp only [hT, Sys2Proof.shl]); omega),
    zr_mk (lo := 17) (w := 3) (T := T) (by (try simp only [hT, Sys2Proof.shl]); omega),
    zr_mk (lo := 24) (w := 4) (T := T) (by (try simp only [hT, Sys2Proof.shl]); omega),
    ty_mk (lo := 20) (T := T) ty (by (try simp only [hT, Sys2Proof.shl]); omega),
    Option.bind_some]
  rw [bv_mk (lo := 0) (T := T) d (by (try simp only [hT, Sys2Proof.shl]); omega),
    bv_mk (lo := 5) (T := T) a (by (try simp only [hT, Sys2Proof.shl]); omega),
    bv_mk (lo := 10) (T := T) b (by (try simp only [hT, Sys2Proof.shl]); omega),
    bv_mk (lo := 15) (T := T) part (by (try simp only [hT, Sys2Proof.shl]); omega),
    bt_mk (lo := 31) (T := T) mk.m (by (try simp only [hT, Sys2Proof.shl]); omega),
    bv_mk (lo := 29) (T := T) mk.msk (by (try simp only [hT, Sys2Proof.shl]); omega),
    bt_mk (lo := 28) (T := T) z (by (try simp only [hT, Sys2Proof.shl]); omega)]
  all_goals rfl

theorem oclaim (gd : Guard) (d : Reg) : Statement (.oclaim gd d) := by
  have := d.isLt
  refine of_fields (tl := 1) (op := 0x180) rfl (by decide) rfl (by decide) ?_ rfl (by (try simp only [Sys2Proof.shl]); omega)
  suffices hh : ∀ T, T = d.toNat → decodeFields 0x180 T gd = some (.oclaim gd d) from hh _ rfl
  intro T hT
  have e0 : decodeFields 0x180 T gd = (if zr T 5 11 then some (Instr.oclaim gd (bv T 0 5)) else none) := rfl
  rw [e0,
    zr_mk (lo := 5) (w := 11) (T := T) (by (try simp only [hT, Sys2Proof.shl]); omega)]
  show some (Instr.oclaim gd (bv T 0 5)) = _
  rw [bv_mk (lo := 0) (T := T) d (by (try simp only [hT, Sys2Proof.shl]); omega)]
  all_goals rfl

theorem orel (gd : Guard) (a : Reg) : Statement (.orel gd a) := by
  have := a.isLt
  refine of_fields (tl := 1) (op := 0x181) rfl (by decide) rfl (by decide) ?_ rfl (by (try simp only [Sys2Proof.shl]); omega)
  suffices hh : ∀ T, T = Sys2Proof.shl (a.toNat) 5 → decodeFields 0x181 T gd = some (.orel gd a) from hh _ rfl
  intro T hT
  have e0 : decodeFields 0x181 T gd = (if zr T 0 5 && zr T 10 6 then some (Instr.orel gd (bv T 5 5)) else none) := rfl
  rw [e0,
    zr_mk (lo := 0) (w := 5) (T := T) (by (try simp only [hT, Sys2Proof.shl]); omega),
    zr_mk (lo := 10) (w := 6) (T := T) (by (try simp only [hT, Sys2Proof.shl]); omega)]
  show some (Instr.orel gd (bv T 5 5)) = _
  rw [bv_mk (lo := 5) (T := T) a (by (try simp only [hT, Sys2Proof.shl]); omega)]
  all_goals rfl

theorem old (gd : Guard) (a : Reg) (b : Reg) (c : Reg) (ty : Ty) (layB : Bool) : Statement (.old gd a b c ty layB) := by
  have := a.isLt
  have := b.isLt
  have := c.isLt
  have := ty_le ty
  have := layB.toNat_le
  refine of_fields (tl := 2) (op := 0x182) rfl (by decide) rfl (by decide) ?_ rfl (by (try simp only [Sys2Proof.shl]); omega)
  suffices hh : ∀ T, T = Sys2Proof.shl (a.toNat) 5 + Sys2Proof.shl (b.toNat) 10 + Sys2Proof.shl (c.toNat) 15 + Sys2Proof.shl (ty.code) 20 + Sys2Proof.shl (layB.toNat) 24 → decodeFields 0x182 T gd = some (.old gd a b c ty layB) from hh _ rfl
  intro T hT
  have e0 : decodeFields 0x182 T gd = (if zr T 0 5 && zr T 25 7 then (ty? (fld T 20 4)).bind fun ty => some (Instr.old gd (bv T 5 5) (bv T 10 5) (bv T 15 5) ty (bt T 24)) else none) := rfl
  rw [e0,
    zr_mk (lo := 0) (w := 5) (T := T) (by (try simp only [hT, Sys2Proof.shl]); omega),
    zr_mk (lo := 25) (w := 7) (T := T) (by (try simp only [hT, Sys2Proof.shl]); omega),
    ty_mk (lo := 20) (T := T) ty (by (try simp only [hT, Sys2Proof.shl]); omega),
    Option.bind_some]
  rw [bv_mk (lo := 5) (T := T) a (by (try simp only [hT, Sys2Proof.shl]); omega),
    bv_mk (lo := 10) (T := T) b (by (try simp only [hT, Sys2Proof.shl]); omega),
    bv_mk (lo := 15) (T := T) c (by (try simp only [hT, Sys2Proof.shl]); omega),
    bt_mk (lo := 24) (T := T) layB (by (try simp only [hT, Sys2Proof.shl]); omega)]
  all_goals rfl

theorem mma (gd : Guard) (a : Reg) (b : Reg) (c : Reg) (zf : Bool) (sc : Bool) (k : BitVec 9) : Statement (.mma gd a b c zf sc k) := by
  have := a.isLt
  have := b.isLt
  have := c.isLt
  have := zf.toNat_le
  have := sc.toNat_le
  have := k.isLt
  refine of_fields (tl := 2) (op := 0x183) rfl (by decide) rfl (by decide) ?_ rfl (by (try simp only [Sys2Proof.shl]); omega)
  suffices hh : ∀ T, T = Sys2Proof.shl (a.toNat) 5 + Sys2Proof.shl (b.toNat) 10 + Sys2Proof.shl (c.toNat) 15 + Sys2Proof.shl (zf.toNat) 20 + Sys2Proof.shl (sc.toNat) 21 + Sys2Proof.shl (k.toNat) 22 → decodeFields 0x183 T gd = some (.mma gd a b c zf sc k) from hh _ rfl
  intro T hT
  have e0 : decodeFields 0x183 T gd = (if zr T 0 5 && zr T 31 1 then some (Instr.mma gd (bv T 5 5) (bv T 10 5) (bv T 15 5) (bt T 20) (bt T 21) (bv T 22 9)) else none) := rfl
  rw [e0,
    zr_mk (lo := 0) (w := 5) (T := T) (by (try simp only [hT, Sys2Proof.shl]); omega),
    zr_mk (lo := 31) (w := 1) (T := T) (by (try simp only [hT, Sys2Proof.shl]); omega)]
  show some (Instr.mma gd (bv T 5 5) (bv T 10 5) (bv T 15 5) (bt T 20) (bt T 21) (bv T 22 9)) = _
  rw [bv_mk (lo := 5) (T := T) a (by (try simp only [hT, Sys2Proof.shl]); omega),
    bv_mk (lo := 10) (T := T) b (by (try simp only [hT, Sys2Proof.shl]); omega),
    bv_mk (lo := 15) (T := T) c (by (try simp only [hT, Sys2Proof.shl]); omega),
    bt_mk (lo := 20) (T := T) zf (by (try simp only [hT, Sys2Proof.shl]); omega),
    bt_mk (lo := 21) (T := T) sc (by (try simp only [hT, Sys2Proof.shl]); omega),
    bv_mk (lo := 22) (T := T) k (by (try simp only [hT, Sys2Proof.shl]); omega)]
  all_goals rfl

theorem ard (gd : Guard) (a : Reg) (b : Reg) (c : Reg) (ty : Ty) : Statement (.ard gd a b c ty) := by
  have := a.isLt
  have := b.isLt
  have := c.isLt
  have := ty_le ty
  refine of_fields (tl := 2) (op := 0x184) rfl (by decide) rfl (by decide) ?_ rfl (by (try simp only [Sys2Proof.shl]); omega)
  suffices hh : ∀ T, T = Sys2Proof.shl (a.toNat) 5 + Sys2Proof.shl (b.toNat) 10 + Sys2Proof.shl (c.toNat) 15 + Sys2Proof.shl (ty.code) 20 → decodeFields 0x184 T gd = some (.ard gd a b c ty) from hh _ rfl
  intro T hT
  have e0 : decodeFields 0x184 T gd = (if zr T 0 5 && zr T 24 8 then (ty? (fld T 20 4)).bind fun ty => some (Instr.ard gd (bv T 5 5) (bv T 10 5) (bv T 15 5) ty) else none) := rfl
  rw [e0,
    zr_mk (lo := 0) (w := 5) (T := T) (by (try simp only [hT, Sys2Proof.shl]); omega),
    zr_mk (lo := 24) (w := 8) (T := T) (by (try simp only [hT, Sys2Proof.shl]); omega),
    ty_mk (lo := 20) (T := T) ty (by (try simp only [hT, Sys2Proof.shl]); omega),
    Option.bind_some]
  rw [bv_mk (lo := 5) (T := T) a (by (try simp only [hT, Sys2Proof.shl]); omega),
    bv_mk (lo := 10) (T := T) b (by (try simp only [hT, Sys2Proof.shl]); omega),
    bv_mk (lo := 15) (T := T) c (by (try simp only [hT, Sys2Proof.shl]); omega)]
  all_goals rfl

theorem awr (gd : Guard) (a : Reg) (b : Reg) (c : Reg) (ty : Ty) : Statement (.awr gd a b c ty) := by
  have := a.isLt
  have := b.isLt
  have := c.isLt
  have := ty_le ty
  refine of_fields (tl := 2) (op := 0x185) rfl (by decide) rfl (by decide) ?_ rfl (by (try simp only [Sys2Proof.shl]); omega)
  suffices hh : ∀ T, T = Sys2Proof.shl (a.toNat) 5 + Sys2Proof.shl (b.toNat) 10 + Sys2Proof.shl (c.toNat) 15 + Sys2Proof.shl (ty.code) 20 → decodeFields 0x185 T gd = some (.awr gd a b c ty) from hh _ rfl
  intro T hT
  have e0 : decodeFields 0x185 T gd = (if zr T 0 5 && zr T 24 8 then (ty? (fld T 20 4)).bind fun ty => some (Instr.awr gd (bv T 5 5) (bv T 10 5) (bv T 15 5) ty) else none) := rfl
  rw [e0,
    zr_mk (lo := 0) (w := 5) (T := T) (by (try simp only [hT, Sys2Proof.shl]); omega),
    zr_mk (lo := 24) (w := 8) (T := T) (by (try simp only [hT, Sys2Proof.shl]); omega),
    ty_mk (lo := 20) (T := T) ty (by (try simp only [hT, Sys2Proof.shl]); omega),
    Option.bind_some]
  rw [bv_mk (lo := 5) (T := T) a (by (try simp only [hT, Sys2Proof.shl]); omega),
    bv_mk (lo := 10) (T := T) b (by (try simp only [hT, Sys2Proof.shl]); omega),
    bv_mk (lo := 15) (T := T) c (by (try simp only [hT, Sys2Proof.shl]); omega)]
  all_goals rfl

theorem aclr (gd : Guard) (a : Reg) (kind : BitVec 2) : Statement (.aclr gd a kind) := by
  have := a.isLt
  have := kind.isLt
  refine of_fields (tl := 1) (op := 0x186) rfl (by decide) rfl (by decide) ?_ rfl (by (try simp only [Sys2Proof.shl]); omega)
  suffices hh : ∀ T, T = Sys2Proof.shl (a.toNat) 5 + Sys2Proof.shl (kind.toNat) 10 → decodeFields 0x186 T gd = some (.aclr gd a kind) from hh _ rfl
  intro T hT
  have e0 : decodeFields 0x186 T gd = (if zr T 0 5 && zr T 12 4 then some (Instr.aclr gd (bv T 5 5) (bv T 10 2)) else none) := rfl
  rw [e0,
    zr_mk (lo := 0) (w := 5) (T := T) (by (try simp only [hT, Sys2Proof.shl]); omega),
    zr_mk (lo := 12) (w := 4) (T := T) (by (try simp only [hT, Sys2Proof.shl]); omega)]
  show some (Instr.aclr gd (bv T 5 5) (bv T 10 2)) = _
  rw [bv_mk (lo := 5) (T := T) a (by (try simp only [hT, Sys2Proof.shl]); omega),
    bv_mk (lo := 10) (T := T) kind (by (try simp only [hT, Sys2Proof.shl]); omega)]
  all_goals rfl

theorem mstat (gd : Guard) (d : Reg) (a : Reg) : Statement (.mstat gd d a) := by
  have := d.isLt
  have := a.isLt
  refine of_fields (tl := 1) (op := 0x187) rfl (by decide) rfl (by decide) ?_ rfl (by (try simp only [Sys2Proof.shl]); omega)
  suffices hh : ∀ T, T = d.toNat + Sys2Proof.shl (a.toNat) 5 → decodeFields 0x187 T gd = some (.mstat gd d a) from hh _ rfl
  intro T hT
  have e0 : decodeFields 0x187 T gd = (if zr T 10 6 then some (Instr.mstat gd (bv T 0 5) (bv T 5 5)) else none) := rfl
  rw [e0,
    zr_mk (lo := 10) (w := 6) (T := T) (by (try simp only [hT, Sys2Proof.shl]); omega)]
  show some (Instr.mstat gd (bv T 0 5) (bv T 5 5)) = _
  rw [bv_mk (lo := 0) (T := T) d (by (try simp only [hT, Sys2Proof.shl]); omega),
    bv_mk (lo := 5) (T := T) a (by (try simp only [hT, Sys2Proof.shl]); omega)]
  all_goals rfl

theorem tbld (gd : Guard) (a : Reg) : Statement (.tbld gd a) := by
  have := a.isLt
  refine of_fields (tl := 1) (op := 0x188) rfl (by decide) rfl (by decide) ?_ rfl (by (try simp only [Sys2Proof.shl]); omega)
  suffices hh : ∀ T, T = Sys2Proof.shl (a.toNat) 5 → decodeFields 0x188 T gd = some (.tbld gd a) from hh _ rfl
  intro T hT
  have e0 : decodeFields 0x188 T gd = (if zr T 0 5 && zr T 10 6 then some (Instr.tbld gd (bv T 5 5)) else none) := rfl
  rw [e0,
    zr_mk (lo := 0) (w := 5) (T := T) (by (try simp only [hT, Sys2Proof.shl]); omega),
    zr_mk (lo := 10) (w := 6) (T := T) (by (try simp only [hT, Sys2Proof.shl]); omega)]
  show some (Instr.tbld gd (bv T 5 5)) = _
  rw [bv_mk (lo := 5) (T := T) a (by (try simp only [hT, Sys2Proof.shl]); omega)]
  all_goals rfl

theorem pushCopy (gd : Guard) (a : Reg) (dist : Bool) : Statement (.pushCopy gd a dist) := by
  have := a.isLt
  cases dist
  · refine of_fields (tl := 2) (op := 0x1A0) rfl (by decide) rfl (by decide) ?_ rfl (by simp only [Sys2Proof.shl, Bool.toNat_false]; omega)
    suffices hh : ∀ T, T = Sys2Proof.shl (a.toNat) 5 + Sys2Proof.shl (false.toNat) 20 → decodeFields 0x1A0 T gd = some (.pushCopy gd a false) from hh _ rfl
    intro T hT
    simp only [Bool.toNat_false] at hT
    show (if zr T 0 5 && zr T 15 5 && zr T 24 8 then _ else none) = _
    rw [zr_mk (lo := 0) (w := 5) (T := T) (by (try simp only [hT, Sys2Proof.shl]); omega), zr_mk (lo := 15) (w := 5) (T := T) (by (try simp only [hT, Sys2Proof.shl]); omega),
      zr_mk (lo := 24) (w := 8) (T := T) (by (try simp only [hT, Sys2Proof.shl]); omega)]
    have e : fld T 20 4 = 0 := by simp only [fld, hT, Sys2Proof.shl]; omega
    rw [e]
    show (if zr T 10 5 then some (Instr.pushCopy gd (bv T 5 5) false) else none) = _
    rw [zr_mk (lo := 10) (w := 5) (T := T) (by (try simp only [hT, Sys2Proof.shl]); omega), bv_mk (lo := 5) (T := T) a (by (try simp only [hT, Sys2Proof.shl]); omega)]
    rfl
  · refine of_fields (tl := 2) (op := 0x1A0) rfl (by decide) rfl (by decide) ?_ rfl (by simp only [Sys2Proof.shl, Bool.toNat_true]; omega)
    suffices hh : ∀ T, T = Sys2Proof.shl (a.toNat) 5 + Sys2Proof.shl (true.toNat) 20 → decodeFields 0x1A0 T gd = some (.pushCopy gd a true) from hh _ rfl
    intro T hT
    simp only [Bool.toNat_true] at hT
    show (if zr T 0 5 && zr T 15 5 && zr T 24 8 then _ else none) = _
    rw [zr_mk (lo := 0) (w := 5) (T := T) (by (try simp only [hT, Sys2Proof.shl]); omega), zr_mk (lo := 15) (w := 5) (T := T) (by (try simp only [hT, Sys2Proof.shl]); omega),
      zr_mk (lo := 24) (w := 8) (T := T) (by (try simp only [hT, Sys2Proof.shl]); omega)]
    have e : fld T 20 4 = 1 := by simp only [fld, hT, Sys2Proof.shl]; omega
    rw [e]
    show (if zr T 10 5 then some (Instr.pushCopy gd (bv T 5 5) true) else none) = _
    rw [zr_mk (lo := 10) (w := 5) (T := T) (by (try simp only [hT, Sys2Proof.shl]); omega), bv_mk (lo := 5) (T := T) a (by (try simp only [hT, Sys2Proof.shl]); omega)]
    rfl

theorem pushFill (gd : Guard) (a : Reg) : Statement (.pushFill gd a) := by
  have := a.isLt
  refine of_fields (tl := 2) (op := 0x1A0) rfl (by decide) rfl (by decide) ?_ rfl (by (try simp only [Sys2Proof.shl]); omega)
  suffices hh : ∀ T, T = Sys2Proof.shl (a.toNat) 5 → decodeFields 0x1A0 T gd = some (.pushCopy gd a false) from hh _ rfl
  intro T hT
  show (if zr T 0 5 && zr T 15 5 && zr T 24 8 then _ else none) = _
  rw [zr_mk (lo := 0) (w := 5) (T := T) (by (try simp only [hT, Sys2Proof.shl]); omega), zr_mk (lo := 15) (w := 5) (T := T) (by (try simp only [hT, Sys2Proof.shl]); omega), zr_mk (lo := 24) (w := 8) (T := T) (by (try simp only [hT, Sys2Proof.shl]); omega)]
  have e : fld T 20 4 = 0 := by simp only [fld, hT, Sys2Proof.shl]; omega
  rw [e]
  show (if zr T 10 5 then some (Instr.pushCopy gd (bv T 5 5) false) else none) = _
  rw [zr_mk (lo := 10) (w := 5) (T := T) (by (try simp only [hT, Sys2Proof.shl]); omega)]
  show some (Instr.pushCopy gd (bv T 5 5) false) = _
  rw [bv_mk (lo := 5) (T := T) a (by (try simp only [hT, Sys2Proof.shl]); omega)]
  all_goals rfl

theorem pushCode (gd : Guard) (a : Reg) : Statement (.pushCode gd a) := by
  have := a.isLt
  refine of_fields (tl := 2) (op := 0x1A0) rfl (by decide) rfl (by decide) ?_ rfl (by (try simp only [Sys2Proof.shl]); omega)
  suffices hh : ∀ T, T = Sys2Proof.shl (a.toNat) 5 + Sys2Proof.shl (2) 20 → decodeFields 0x1A0 T gd = some (.pushCode gd a) from hh _ rfl
  intro T hT
  show (if zr T 0 5 && zr T 15 5 && zr T 24 8 then _ else none) = _
  rw [zr_mk (lo := 0) (w := 5) (T := T) (by (try simp only [hT, Sys2Proof.shl]); omega), zr_mk (lo := 15) (w := 5) (T := T) (by (try simp only [hT, Sys2Proof.shl]); omega), zr_mk (lo := 24) (w := 8) (T := T) (by (try simp only [hT, Sys2Proof.shl]); omega)]
  have e : fld T 20 4 = 2 := by simp only [fld, hT, Sys2Proof.shl]; omega
  rw [e]
  show (if zr T 10 5 then some (Instr.pushCode gd (bv T 5 5)) else none) = _
  rw [zr_mk (lo := 10) (w := 5) (T := T) (by (try simp only [hT, Sys2Proof.shl]); omega)]
  show some (Instr.pushCode gd (bv T 5 5)) = _
  rw [bv_mk (lo := 5) (T := T) a (by (try simp only [hT, Sys2Proof.shl]); omega)]
  all_goals rfl

theorem pushColl (gd : Guard) (a : Reg) : Statement (.pushColl gd a) := by
  have := a.isLt
  refine of_fields (tl := 2) (op := 0x1A0) rfl (by decide) rfl (by decide) ?_ rfl (by (try simp only [Sys2Proof.shl]); omega)
  suffices hh : ∀ T, T = Sys2Proof.shl (a.toNat) 5 + Sys2Proof.shl (3) 20 → decodeFields 0x1A0 T gd = some (.pushColl gd a) from hh _ rfl
  intro T hT
  show (if zr T 0 5 && zr T 15 5 && zr T 24 8 then _ else none) = _
  rw [zr_mk (lo := 0) (w := 5) (T := T) (by (try simp only [hT, Sys2Proof.shl]); omega), zr_mk (lo := 15) (w := 5) (T := T) (by (try simp only [hT, Sys2Proof.shl]); omega), zr_mk (lo := 24) (w := 8) (T := T) (by (try simp only [hT, Sys2Proof.shl]); omega)]
  have e : fld T 20 4 = 3 := by simp only [fld, hT, Sys2Proof.shl]; omega
  rw [e]
  show (if zr T 10 5 then some (Instr.pushColl gd (bv T 5 5)) else none) = _
  rw [zr_mk (lo := 10) (w := 5) (T := T) (by (try simp only [hT, Sys2Proof.shl]); omega)]
  show some (Instr.pushColl gd (bv T 5 5)) = _
  rw [bv_mk (lo := 5) (T := T) a (by (try simp only [hT, Sys2Proof.shl]); omega)]
  all_goals rfl

theorem pushProgram (gd : Guard) (a : Reg) (b : Reg) : Statement (.pushProgram gd a b) := by
  have := a.isLt
  have := b.isLt
  refine of_fields (tl := 2) (op := 0x1A0) rfl (by decide) rfl (by decide) ?_ rfl (by (try simp only [Sys2Proof.shl]); omega)
  suffices hh : ∀ T, T = Sys2Proof.shl (a.toNat) 5 + Sys2Proof.shl (b.toNat) 10 + Sys2Proof.shl (4) 20 → decodeFields 0x1A0 T gd = some (.pushProgram gd a b) from hh _ rfl
  intro T hT
  show (if zr T 0 5 && zr T 15 5 && zr T 24 8 then _ else none) = _
  rw [zr_mk (lo := 0) (w := 5) (T := T) (by (try simp only [hT, Sys2Proof.shl]); omega), zr_mk (lo := 15) (w := 5) (T := T) (by (try simp only [hT, Sys2Proof.shl]); omega), zr_mk (lo := 24) (w := 8) (T := T) (by (try simp only [hT, Sys2Proof.shl]); omega)]
  have e : fld T 20 4 = 4 := by simp only [fld, hT, Sys2Proof.shl]; omega
  rw [e]
  show (some (Instr.pushProgram gd (bv T 5 5) (bv T 10 5))) = _
  rw [bv_mk (lo := 5) (T := T) a (by (try simp only [hT, Sys2Proof.shl]); omega),
    bv_mk (lo := 10) (T := T) b (by (try simp only [hT, Sys2Proof.shl]); omega)]
  all_goals rfl

theorem popcRec (gd : Guard) (d : Reg) (a : Reg) : Statement (.popcRec gd d a) := by
  have := d.isLt
  have := a.isLt
  refine of_fields (tl := 1) (op := 0x1A1) rfl (by decide) rfl (by decide) ?_ rfl (by (try simp only [Sys2Proof.shl]); omega)
  suffices hh : ∀ T, T = d.toNat + Sys2Proof.shl (a.toNat) 5 → decodeFields 0x1A1 T gd = some (.popcRec gd d a) from hh _ rfl
  intro T hT
  have e0 : decodeFields 0x1A1 T gd = (if zr T 10 6 then some (Instr.popcRec gd (bv T 0 5) (bv T 5 5)) else none) := rfl
  rw [e0,
    zr_mk (lo := 10) (w := 6) (T := T) (by (try simp only [hT, Sys2Proof.shl]); omega)]
  show some (Instr.popcRec gd (bv T 0 5) (bv T 5 5)) = _
  rw [bv_mk (lo := 0) (T := T) d (by (try simp only [hT, Sys2Proof.shl]); omega),
    bv_mk (lo := 5) (T := T) a (by (try simp only [hT, Sys2Proof.shl]); omega)]
  all_goals rfl

theorem trap (gd : Guard) (imm : BitVec 22) : Statement (.trap gd imm) := by
  have := imm.isLt
  refine of_fields (tl := 2) (op := 0x1C0) rfl (by decide) rfl (by decide) ?_ rfl (by (try simp only [Sys2Proof.shl]); omega)
  suffices hh : ∀ T, T = Sys2Proof.shl (imm.toNat) 10 → decodeFields 0x1C0 T gd = some (.trap gd imm) from hh _ rfl
  intro T hT
  have e0 : decodeFields 0x1C0 T gd = (if zr T 0 10 then some (Instr.trap gd (bv T 10 22)) else none) := rfl
  rw [e0,
    zr_mk (lo := 0) (w := 10) (T := T) (by (try simp only [hT, Sys2Proof.shl]); omega)]
  show some (Instr.trap gd (bv T 10 22)) = _
  rw [bv_mk (lo := 10) (T := T) imm (by (try simp only [hT, Sys2Proof.shl]); omega)]
  all_goals rfl

theorem rtt (gd : Guard) : Statement (.rtt gd) := by
  exact of_fields (tl := 0) (op := 0x1C1) rfl (by decide) rfl (by decide) rfl rfl (by decide)

theorem mfs (gd : Guard) (d : Reg) (a : Reg) (n : BitVec 8) : Statement (.mfs gd d a n) := by
  have := d.isLt
  have := a.isLt
  have := n.isLt
  refine of_fields (tl := 2) (op := 0x1C2) rfl (by decide) rfl (by decide) ?_ rfl (by (try simp only [Sys2Proof.shl]); omega)
  suffices hh : ∀ T, T = d.toNat + Sys2Proof.shl (a.toNat) 5 + Sys2Proof.shl (n.toNat) 10 → decodeFields 0x1C2 T gd = some (.mfs gd d a n) from hh _ rfl
  intro T hT
  have e0 : decodeFields 0x1C2 T gd = (if zr T 18 14 then some (Instr.mfs gd (bv T 0 5) (bv T 5 5) (bv T 10 8)) else none) := rfl
  rw [e0,
    zr_mk (lo := 18) (w := 14) (T := T) (by (try simp only [hT, Sys2Proof.shl]); omega)]
  show some (Instr.mfs gd (bv T 0 5) (bv T 5 5) (bv T 10 8)) = _
  rw [bv_mk (lo := 0) (T := T) d (by (try simp only [hT, Sys2Proof.shl]); omega),
    bv_mk (lo := 5) (T := T) a (by (try simp only [hT, Sys2Proof.shl]); omega),
    bv_mk (lo := 10) (T := T) n (by (try simp only [hT, Sys2Proof.shl]); omega)]
  all_goals rfl

theorem mts (gd : Guard) (a : Reg) (n : BitVec 8) : Statement (.mts gd a n) := by
  have := a.isLt
  have := n.isLt
  refine of_fields (tl := 2) (op := 0x1C3) rfl (by decide) rfl (by decide) ?_ rfl (by (try simp only [Sys2Proof.shl]); omega)
  suffices hh : ∀ T, T = Sys2Proof.shl (a.toNat) 5 + Sys2Proof.shl (n.toNat) 10 → decodeFields 0x1C3 T gd = some (.mts gd a n) from hh _ rfl
  intro T hT
  have e0 : decodeFields 0x1C3 T gd = (if zr T 0 5 && zr T 18 14 then some (Instr.mts gd (bv T 5 5) (bv T 10 8)) else none) := rfl
  rw [e0,
    zr_mk (lo := 0) (w := 5) (T := T) (by (try simp only [hT, Sys2Proof.shl]); omega),
    zr_mk (lo := 18) (w := 14) (T := T) (by (try simp only [hT, Sys2Proof.shl]); omega)]
  show some (Instr.mts gd (bv T 5 5) (bv T 10 8)) = _
  rw [bv_mk (lo := 5) (T := T) a (by (try simp only [hT, Sys2Proof.shl]); omega),
    bv_mk (lo := 10) (T := T) n (by (try simp only [hT, Sys2Proof.shl]); omega)]
  all_goals rfl

theorem resume (gd : Guard) (d : Reg) (a : Reg) (b : Reg) (key : Bool) : Statement (.resume gd d a b key) := by
  have := d.isLt
  have := a.isLt
  have := b.isLt
  have := key.toNat_le
  refine of_fields (tl := 1) (op := 0x1C4) rfl (by decide) rfl (by decide) ?_ rfl (by (try simp only [Sys2Proof.shl]); omega)
  suffices hh : ∀ T, T = d.toNat + Sys2Proof.shl (a.toNat) 5 + Sys2Proof.shl (b.toNat) 10 + Sys2Proof.shl (key.toNat) 15 → decodeFields 0x1C4 T gd = some (.resume gd d a b key) from hh _ rfl
  intro T hT
  have e0 : decodeFields 0x1C4 T gd = (some (Instr.resume gd (bv T 0 5) (bv T 5 5) (bv T 10 5) (bt T 15))) := rfl
  rw [e0]
  show some (Instr.resume gd (bv T 0 5) (bv T 5 5) (bv T 10 5) (bt T 15)) = _
  rw [bv_mk (lo := 0) (T := T) d (by (try simp only [hT, Sys2Proof.shl]); omega),
    bv_mk (lo := 5) (T := T) a (by (try simp only [hT, Sys2Proof.shl]); omega),
    bv_mk (lo := 10) (T := T) b (by (try simp only [hT, Sys2Proof.shl]); omega),
    bt_mk (lo := 15) (T := T) key (by (try simp only [hT, Sys2Proof.shl]); omega)]
  all_goals rfl

theorem cswap (gd : Guard) (a : Reg) (b : Reg) : Statement (.cswap gd a b) := by
  have := a.isLt
  have := b.isLt
  refine of_fields (tl := 1) (op := 0x1C5) rfl (by decide) rfl (by decide) ?_ rfl (by (try simp only [Sys2Proof.shl]); omega)
  suffices hh : ∀ T, T = Sys2Proof.shl (a.toNat) 5 + Sys2Proof.shl (b.toNat) 10 → decodeFields 0x1C5 T gd = some (.cswap gd a b) from hh _ rfl
  intro T hT
  have e0 : decodeFields 0x1C5 T gd = (if zr T 0 5 && zr T 15 1 then some (Instr.cswap gd (bv T 5 5) (bv T 10 5)) else none) := rfl
  rw [e0,
    zr_mk (lo := 0) (w := 5) (T := T) (by (try simp only [hT, Sys2Proof.shl]); omega),
    zr_mk (lo := 15) (w := 1) (T := T) (by (try simp only [hT, Sys2Proof.shl]); omega)]
  show some (Instr.cswap gd (bv T 5 5) (bv T 10 5)) = _
  rw [bv_mk (lo := 5) (T := T) a (by (try simp only [hT, Sys2Proof.shl]); omega),
    bv_mk (lo := 10) (T := T) b (by (try simp only [hT, Sys2Proof.shl]); omega)]
  all_goals rfl

theorem invtlb (gd : Guard) (a : Reg) (b : Reg) (scope : BitVec 2) : Statement (.invtlb gd a b scope) := by
  have := a.isLt
  have := b.isLt
  have := scope.isLt
  refine of_fields (tl := 2) (op := 0x1C6) rfl (by decide) rfl (by decide) ?_ rfl (by (try simp only [Sys2Proof.shl]); omega)
  suffices hh : ∀ T, T = Sys2Proof.shl (a.toNat) 5 + Sys2Proof.shl (b.toNat) 10 + Sys2Proof.shl (scope.toNat) 20 → decodeFields 0x1C6 T gd = some (.invtlb gd a b scope) from hh _ rfl
  intro T hT
  have e0 : decodeFields 0x1C6 T gd = (if zr T 0 5 && zr T 15 5 && zr T 22 10 then some (Instr.invtlb gd (bv T 5 5) (bv T 10 5) (bv T 20 2)) else none) := rfl
  rw [e0,
    zr_mk (lo := 0) (w := 5) (T := T) (by (try simp only [hT, Sys2Proof.shl]); omega),
    zr_mk (lo := 15) (w := 5) (T := T) (by (try simp only [hT, Sys2Proof.shl]); omega),
    zr_mk (lo := 22) (w := 10) (T := T) (by (try simp only [hT, Sys2Proof.shl]); omega)]
  show some (Instr.invtlb gd (bv T 5 5) (bv T 10 5) (bv T 20 2)) = _
  rw [bv_mk (lo := 5) (T := T) a (by (try simp only [hT, Sys2Proof.shl]); omega),
    bv_mk (lo := 10) (T := T) b (by (try simp only [hT, Sys2Proof.shl]); omega),
    bv_mk (lo := 20) (T := T) scope (by (try simp only [hT, Sys2Proof.shl]); omega)]
  all_goals rfl

theorem issueTurn (ep : Nat) (lost : Bool) : Statement (.issueTurn ep lost) := event rfl (by nofun)

theorem waitTimeout (ep : Nat) (slot : Nat) : Statement (.waitTimeout ep slot) := event rfl (by nofun)

theorem hostQueueEntryWrite (pkg : Nat) (off : Nat) (n : Nat) (entry : BitVec 512) : Statement (.hostQueueEntryWrite pkg off n entry) := event rfl (by nofun)

theorem entryAdmission (pkg : Nat) (q : Nat) : Statement (.entryAdmission pkg q) := event rfl (by nofun)

theorem hostCancelWrite (pkg : Nat) (off : Nat) (n : Nat) (w : BitVec 64) : Statement (.hostCancelWrite pkg off n w) := event rfl (by nofun)

theorem hostDataWrite (pkg : Nat) (off : Nat) (n : Nat) (data : Nat) : Statement (.hostDataWrite pkg off n data) := event rfl (by nofun)

theorem hostDataRead (pkg : Nat) (off : Nat) (n : Nat) : Statement (.hostDataRead pkg off n) := event rfl (by nofun)

theorem dispatchEntry (pkg : Nat) : Statement (.dispatchEntry pkg) := event rfl (by nofun)

theorem launchHeaderRead (pkg : Nat) (k : Nat) : Statement (.launchHeaderRead pkg k) := event rfl (by nofun)

theorem dispenserExamine (pkg : Nat) (cl : Nat) (k : Nat) : Statement (.dispenserExamine pkg cl k) := event rfl (by nofun)

theorem frameReentry (pkg : Nat) (cl : Nat) (k : Nat) : Statement (.frameReentry pkg cl k) := event rfl (by nofun)

theorem instantLapse (pkg : Nat) (h : Nat) : Statement (.instantLapse pkg h) := event rfl (by nofun)

theorem lapseBroadcastApply (pkg : Nat) (die : Nat) (k : Nat) : Statement (.lapseBroadcastApply pkg die k) := event rfl (by nofun)

theorem settleExpiry (pkg : Nat) (h : Nat) : Statement (.settleExpiry pkg h) := event rfl (by nofun)

theorem heldRecordRetry (pkg : Nat) (q : Nat) : Statement (.heldRecordRetry pkg q) := event rfl (by nofun)

theorem dropReport (k : Nat) : Statement (.dropReport k) := event rfl (by nofun)

theorem gatewayEgress (k : Nat) : Statement (.gatewayEgress k) := event rfl (by nofun)

theorem gatewayIngress (k : Nat) : Statement (.gatewayIngress k) := event rfl (by nofun)

theorem exportNotice (k : Nat) : Statement (.exportNotice k) := event rfl (by nofun)

theorem proxyReport (k : Nat) : Statement (.proxyReport k) := event rfl (by nofun)

theorem cancelPropagation (k : Nat) : Statement (.cancelPropagation k) := event rfl (by nofun)

theorem unionChangePropagation (k : Nat) : Statement (.unionChangePropagation k) := event rfl (by nofun)

theorem fabricIngress (k : Nat) : Statement (.fabricIngress k) := event rfl (by nofun)

theorem replyArrival (k : Nat) : Statement (.replyArrival k) := event rfl (by nofun)

theorem messageInjection (k : Nat) : Statement (.messageInjection k) := event rfl (by nofun)

theorem messageDelivery (k : Nat) : Statement (.messageDelivery k) := event rfl (by nofun)

theorem heldMessageRelease (ep : Nat) (k : Nat) : Statement (.heldMessageRelease ep k) := event rfl (by nofun)

theorem remoteEnqArrival (k : Nat) : Statement (.remoteEnqArrival k) := event rfl (by nofun)

theorem qresRequestArrival (k : Nat) : Statement (.qresRequestArrival k) := event rfl (by nofun)

theorem qresGrantArrival (k : Nat) : Statement (.qresGrantArrival k) := event rfl (by nofun)

theorem dtlEntryTimeout (ep : Nat) (k : Nat) : Statement (.dtlEntryTimeout ep k) := event rfl (by nofun)

theorem destWriteQueueWrite (ep : Nat) : Statement (.destWriteQueueWrite ep) := event rfl (by nofun)

theorem tileWriteQueueWrite (ep : Nat) : Statement (.tileWriteQueueWrite ep) := event rfl (by nofun)

theorem copyPieceDispatch (k : Nat) : Statement (.copyPieceDispatch k) := event rfl (by nofun)

theorem fillPatternRead (k : Nat) : Statement (.fillPatternRead k) := event rfl (by nofun)

theorem pieceAtOwner (k : Nat) : Statement (.pieceAtOwner k) := event rfl (by nofun)

theorem pieceAtRecipient (k : Nat) : Statement (.pieceAtRecipient k) := event rfl (by nofun)

theorem pieceReport (k : Nat) : Statement (.pieceReport k) := event rfl (by nofun)

theorem codeSegmentLanded (k : Nat) : Statement (.codeSegmentLanded k) := event rfl (by nofun)

theorem codesegWrite (ep : Nat) (w : BitVec 64) : Statement (.codesegWrite ep w) := event rfl (by nofun)

theorem programCommandArrival (k : Nat) : Statement (.programCommandArrival k) := event rfl (by nofun)

theorem programCommandDelivery (ep : Nat) : Statement (.programCommandDelivery ep) := event rfl (by nofun)

theorem collChunkSend (pkg : Nat) (k : Nat) : Statement (.collChunkSend pkg k) := event rfl (by nofun)

theorem collChunkArrival (k : Nat) : Statement (.collChunkArrival k) := event rfl (by nofun)

theorem reductionBlockDelivery (ep : Nat) : Statement (.reductionBlockDelivery ep) := event rfl (by nofun)

theorem collParticipantFailure (k : Nat) : Statement (.collParticipantFailure k) := event rfl (by nofun)

theorem collTimeout (pkg : Nat) (k : Nat) : Statement (.collTimeout pkg k) := event rfl (by nofun)

theorem qprobeReturn (k : Nat) : Statement (.qprobeReturn k) := event rfl (by nofun)

theorem lineBufferAccess (k : Nat) : Statement (.lineBufferAccess k) := event rfl (by nofun)

theorem lineFillComplete (ep : Nat) (k : Nat) : Statement (.lineFillComplete ep k) := event rfl (by nofun)

theorem victimWriteback (ep : Nat) (k : Nat) (ok : Bool) (markOk : Bool) : Statement (.victimWriteback ep k ok markOk) := event rfl (by nofun)

theorem patrolScrubRead (ep : Nat) (line : Nat) : Statement (.patrolScrubRead ep line) := event rfl (by nofun)

theorem mirrorWriteApply (k : Nat) : Statement (.mirrorWriteApply k) := event rfl (by nofun)

theorem mirrorTimeout (k : Nat) : Statement (.mirrorTimeout k) := event rfl (by nofun)

theorem joinBusyRetry (ep : Nat) (slot : Nat) : Statement (.joinBusyRetry ep slot) := event rfl (by nofun)

theorem migrantArrival (k : Nat) : Statement (.migrantArrival k) := event rfl (by nofun)

theorem migrantQueueAdmit (ep : Nat) : Statement (.migrantQueueAdmit ep) := event rfl (by nofun)

theorem migrantReturn (k : Nat) : Statement (.migrantReturn k) := event rfl (by nofun)

theorem pageWalkStep (die : Nat) (k : Nat) : Statement (.pageWalkStep die k) := event rfl (by nofun)

theorem invtlbApply (pkg : Nat) (die : Nat) : Statement (.invtlbApply pkg die) := event rfl (by nofun)

theorem regionBeginRequest (die : Nat) (k : Nat) : Statement (.regionBeginRequest die k) := event rfl (by nofun)

theorem regionAccessEdges (die : Nat) (k : Nat) : Statement (.regionAccessEdges die k) := event rfl (by nofun)

theorem regionCommitRequest (die : Nat) (k : Nat) : Statement (.regionCommitRequest die k) := event rfl (by nofun)

theorem sealAtOwner (die : Nat) (k : Nat) : Statement (.sealAtOwner die k) := event rfl (by nofun)

theorem sealAck (die : Nat) (k : Nat) : Statement (.sealAck die k) := event rfl (by nofun)

theorem resolveAtOwner (die : Nat) (k : Nat) : Statement (.resolveAtOwner die k) := event rfl (by nofun)

theorem resolveAck (die : Nat) (k : Nat) : Statement (.resolveAck die k) := event rfl (by nofun)

theorem discardAtOwner (die : Nat) (k : Nat) : Statement (.discardAtOwner die k) := event rfl (by nofun)

theorem abortDelivery (die : Nat) (k : Nat) : Statement (.abortDelivery die k) := event rfl (by nofun)

theorem regionInstantTest (die : Nat) (k : Nat) : Statement (.regionInstantTest die k) := event rfl (by nofun)

theorem regionWaitTimeout (die : Nat) (k : Nat) : Statement (.regionWaitTimeout die k) := event rfl (by nofun)

theorem boundaryClose (die : Nat) (r : Nat) : Statement (.boundaryClose die r) := event rfl (by nofun)

theorem rectangleResetComplete (die : Nat) (r : Nat) : Statement (.rectangleResetComplete die r) := event rfl (by nofun)

theorem containmentRelease (die : Nat) (r : Nat) : Statement (.containmentRelease die r) := event rfl (by nofun)

theorem arecWrite (die : Nat) (r : Nat) (w : BitVec 32) : Statement (.arecWrite die r w) := event rfl (by nofun)

theorem oldComplete (ep : Nat) : Statement (.oldComplete ep) := event rfl (by nofun)

theorem ardComplete (ep : Nat) : Statement (.ardComplete ep) := event rfl (by nofun)

theorem awrComplete (ep : Nat) : Statement (.awrComplete ep) := event rfl (by nofun)

theorem mmaStart (ep : Nat) : Statement (.mmaStart ep) := event rfl (by nofun)

theorem mmaKStep (ep : Nat) : Statement (.mmaKStep ep) := event rfl (by nofun)

theorem aclrApply (ep : Nat) (k : Nat) : Statement (.aclrApply ep k) := event rfl (by nofun)

theorem xfenceComplete (ep : Nat) (slot : Nat) : Statement (.xfenceComplete ep slot) := event rfl (by nofun)

theorem linkFlitCrcFail (pkg : Nat) (port : Nat) : Statement (.linkFlitCrcFail pkg port) := event rfl (by nofun)

theorem kblFlitCrcFail (pkg : Nat) : Statement (.kblFlitCrcFail pkg) := event rfl (by nofun)

theorem timeSyncFlit (pkg : Nat) (master : BitVec 64) : Statement (.timeSyncFlit pkg master) := event rfl (by nofun)

theorem powerGood (pkg : Nat) : Statement (.powerGood pkg) := event rfl (by nofun)

theorem kblTrained (pkg : Nat) : Statement (.kblTrained pkg) := event rfl (by nofun)

theorem bootGo (pkg : Nat) : Statement (.bootGo pkg) := event rfl (by nofun)

theorem bootVerify (pkg : Nat) : Statement (.bootVerify pkg) := event rfl (by nofun)

theorem firmwareInitComplete (pkg : Nat) (now : BitVec 64) (links : List (Nat × Nat × Nat)) (regs : List (Nat × Nat)) (tables : List (Nat × Nat × Nat)) : Statement (.firmwareInitComplete pkg now links regs tables) := event rfl (by nofun)

theorem attestationRequest (pkg : Nat) (w : BitVec 64) : Statement (.attestationRequest pkg w) := event rfl (by nofun)

theorem attestationDone (pkg : Nat) : Statement (.attestationDone pkg) := event rfl (by nofun)

theorem commitWrite (pkg : Nat) (w : BitVec 64) : Statement (.commitWrite pkg w) := event rfl (by nofun)

theorem commitComplete (pkg : Nat) : Statement (.commitComplete pkg) := event rfl (by nofun)

theorem lostclrWrite (pkg : Nat) (w : BitVec 64) : Statement (.lostclrWrite pkg w) := event rfl (by nofun)

theorem chstatWrite (ep : Nat) (w : BitVec 64) : Statement (.chstatWrite ep w) := event rfl (by nofun)

theorem islctlWrite (pkg : Nat) (isl : Nat) (w : BitVec 32) : Statement (.islctlWrite pkg isl w) := event rfl (by nofun)

theorem counterReadClear (pkg : Nat) : Statement (.counterReadClear pkg) := event rfl (by nofun)

theorem evreadWrite (pkg : Nat) (w : BitVec 64) : Statement (.evreadWrite pkg w) := event rfl (by nofun)

theorem managementRegisterWrite (pkg : Nat) (off : Nat) (w : BitVec 64) : Statement (.managementRegisterWrite pkg off w) := event rfl (by nofun)

theorem eventLogPlace (pkg : Nat) (k : Nat) : Statement (.eventLogPlace pkg k) := event rfl (by nofun)

theorem eventGapTimeout (pkg : Nat) : Statement (.eventGapTimeout pkg) := event rfl (by nofun)

theorem telemetrySample (pkg : Nat) (isl : Nat) (mv : Nat) (temp : Nat) (watts : Nat) : Statement (.telemetrySample pkg isl mv temp watts) := event rfl (by nofun)

theorem droopStretchStart (pkg : Nat) (isl : Nat) (sag : Nat) : Statement (.droopStretchStart pkg isl sag) := event rfl (by nofun)

theorem droopStretchEnd (pkg : Nat) (isl : Nat) (sag : Nat) : Statement (.droopStretchEnd pkg isl sag) := event rfl (by nofun)

theorem instantUnitRequest (pkg : Nat) : Statement (.instantUnitRequest pkg) := event rfl (by nofun)

theorem exportNoticeAck (k : Nat) : Statement (.exportNoticeAck k) := event rfl (by nofun)

theorem reservationReturn (k : Nat) : Statement (.reservationReturn k) := event rfl (by nofun)

theorem swapImageWritten (ep : Nat) (slot : Nat) : Statement (.swapImageWritten ep slot) := event rfl (by nofun)

theorem timeSyncLost (pkg : Nat) (err : Nat) : Statement (.timeSyncLost pkg err) := event rfl (by nofun)

theorem powerLoss (pkg : Nat) : Statement (.powerLoss pkg) := event rfl (by nofun)

end Sys2Proof.Laws.RoundTrip
end

