-- ==== Sys2Proof/Safety.lean ====
section
/-! DEFINITION. What a safe step and a safe run are: every step answers a next state, and the tables and memories of the state keep
their canonical form. -/

namespace Sys2Proof

open Sys2Proof.Machine

/-- The keys of a table rise strictly. -/
def Machine.tableOk {α : Type} : Table α → Bool
  | [] => true
  | (_, _) :: [] => true
  | (i, _) :: (j, y) :: r => decide (i < j) && tableOk ((j, y) :: r)

/-- A core's memories are in canonical form. -/
def Machine.coreMemOk (c : Core) : Bool := Memory.wf c.spad && Memory.wf c.opmem && Memory.wf c.acc

/-- Every memory of the state is in canonical form. -/
def Machine.memOk (s : State) : Bool :=
  Memory.wf s.dram && Memory.wf s.check && Memory.wf s.host && s.cores.all (fun x => coreMemOk x.2)
  && s.pkgs.all fun x => Memory.wf x.2.staging

/-- A turn under way belongs to a slot that holds a thread (R256). -/
def Machine.turnOk (s : State) : Bool := match s.turn with
  | none => true
  | some u => (s.thr? u.ep u.slot).isSome

/-- A step is safe: it answers a next state. -/
def Machine.stepSafe (s : State) : Bool := match step s with
  | .next _ => true
  | _ => false

/-- A run of n steps is safe. -/
def Machine.runSafe : Nat → State → Bool
  | 0, _ => true
  | n + 1, s => match step s with
    | .next t => runSafe n t
    | _ => false

/-- The opcode of an instruction (R317, R322). -/
def opOf (i : Instr) : Nat := fld (encode i).1 0 9

/-- The instruction of a turn issues by itself: a turn is under way in a slot with a thread, the slot has the instruction (R324), its
guard is one (R318) and passes, no XFENCE is pending (R485) and the slot is no part of a redundant pair (R294). -/
structure Issues (s : State) (u : Turn) (t : Thread) (i : Instr) : Prop where
  turn : s.turn = some u
  thread : s.thr? u.ep u.slot = some t
  has : lacks (kindOf u.ep) (isVisitor u.ep u.slot) t.pair.isSome (opOf i) (encode i).2 = false
  guardOk : i.guard.wf = true
  passes : passes t i.guard = true
  calm : t.xf = none
  single : t.pair = none

/-- The instruction completes in its turn: the thread, changed by `f`, goes on at the next head (R332). -/
def Retires (i : Instr) (s : State) (u : Turn) (f : Thread → Thread) : Prop := exec i s = .next (s.retire u f)

/-- The instruction completes and writes one g register. -/
def Writes (i : Instr) (s : State) (u : Turn) (d : Reg) (v : Word) : Prop := Retires i s u (·.putG d v)

end Sys2Proof
end

