-- ==== Sys2Proof/Certificates/Slice0/Obligations.lean ====
section
/-! DEFINITION. The statements for the provers. -/

open Sys2Proof Sys2Proof.Machine

/-- R333: the register arithmetic. Each instruction that issues completes in its turn and writes g[d]: the value is taken
modulo 2^64; MULH and MULHN take bits 127:64 of the 128-bit product; a shift takes bits 5:0 of its amount. -/
def Sys2Proof.RegisterArithmetic : Prop :=
  ∀ (s : State) (u : Turn) (t : Thread) (gd : Guard) (d a b : Reg),
    let x := gr t a
    let y := gr t b
    (Issues s u t (.add gd d a b) → Writes (.add gd d a b) s u d (x + y)) ∧
    (Issues s u t (.sub gd d a b) → Writes (.sub gd d a b) s u d (x - y)) ∧
    (Issues s u t (.mul gd d a b) → Writes (.mul gd d a b) s u d (x * y)) ∧
    (Issues s u t (.mulh gd d a b) →
      Writes (.mulh gd d a b) s u d ((x.signExtend 128 * y.signExtend 128).extractLsb' 64 64)) ∧
    (Issues s u t (.mulhn gd d a b) →
      Writes (.mulhn gd d a b) s u d ((x.setWidth 128 * y.setWidth 128).extractLsb' 64 64)) ∧
    (Issues s u t (.and gd d a b) → Writes (.and gd d a b) s u d (x &&& y)) ∧
    (Issues s u t (.or gd d a b) → Writes (.or gd d a b) s u d (x ||| y)) ∧
    (Issues s u t (.xor gd d a b) → Writes (.xor gd d a b) s u d (x ^^^ y)) ∧
    (Issues s u t (.andn gd d a b) → Writes (.andn gd d a b) s u d (x &&& ~~~y)) ∧
    (Issues s u t (.shl gd d a b) → Writes (.shl gd d a b) s u d (x <<< (y.toNat % 64))) ∧
    (Issues s u t (.shr gd d a b) → Writes (.shr gd d a b) s u d (x >>> (y.toNat % 64))) ∧
    (Issues s u t (.sra gd d a b) → Writes (.sra gd d a b) s u d (x.sshiftRight (y.toNat % 64))) ∧
    (Issues s u t (.min gd d a b) → Writes (.min gd d a b) s u d (if x.toInt < y.toInt then x else y)) ∧
    (Issues s u t (.max gd d a b) → Writes (.max gd d a b) s u d (if x.toInt < y.toInt then y else x)) ∧
    (Issues s u t (.minn gd d a b) → Writes (.minn gd d a b) s u d (if x.toNat < y.toNat then x else y)) ∧
    (Issues s u t (.maxn gd d a b) → Writes (.maxn gd d a b) s u d (if x.toNat < y.toNat then y else x))

/-- R333, R245: the divisions. A divisor of 0 gives all ones for a quotient and the dividend for a remainder; INT64_MIN / −1 gives
INT64_MIN and remainder 0; every other signed quotient is truncated toward zero and the remainder has the sign of the dividend. -/
def Sys2Proof.Divisions : Prop :=
  ∀ (s : State) (u : Turn) (t : Thread) (gd : Guard) (d a b : Reg),
    let x := gr t a
    let y := gr t b
    (Issues s u t (.div gd d a b) → ∃ q, Writes (.div gd d a b) s u d q ∧
      (y = 0 → q = -1) ∧ (x = BitVec.intMin 64 → y = -1 → q = BitVec.intMin 64) ∧
      (y ≠ 0 → ¬ (x = BitVec.intMin 64 ∧ y = -1) → q.toInt = x.toInt.tdiv y.toInt)) ∧
    (Issues s u t (.divn gd d a b) → ∃ q, Writes (.divn gd d a b) s u d q ∧
      (y = 0 → q = -1) ∧ (y ≠ 0 → q.toNat = x.toNat / y.toNat)) ∧
    (Issues s u t (.rem gd d a b) → ∃ r, Writes (.rem gd d a b) s u d r ∧
      (y = 0 → r = x) ∧ (y ≠ 0 → r.toInt = x.toInt.tmod y.toInt)) ∧
    (Issues s u t (.remn gd d a b) → ∃ r, Writes (.remn gd d a b) s u d r ∧
      (y = 0 → r = x) ∧ (y ≠ 0 → r.toNat = x.toNat % y.toNat))

/-- R333, R245: the arithmetic of the g registers. -/
def Obligations.IntegerArithmetic : Prop := RegisterArithmetic ∧ Divisions

/-- R334: shifts by a constant and bit counts: CLZ and CTZ give the number of zero bits above and below the outermost one bit,
64 for the value 0; POPC the number of one bits. -/
def Sys2Proof.ShiftsAndCounts : Prop :=
  ∀ (s : State) (u : Turn) (t : Thread) (gd : Guard) (d a : Reg) (n : BitVec 6),
    let x := gr t a
    (Issues s u t (.shli gd d a n) → Writes (.shli gd d a n) s u d (x <<< n.toNat)) ∧
    (Issues s u t (.shri gd d a n) → Writes (.shri gd d a n) s u d (x >>> n.toNat)) ∧
    (Issues s u t (.srai gd d a n) → Writes (.srai gd d a n) s u d (x.sshiftRight n.toNat)) ∧
    (Issues s u t (.clz gd d a) → ∃ k ≤ 64, Writes (.clz gd d a) s u d (BitVec.ofNat 64 k) ∧
      (∀ i, 64 ≤ i + k → x.getLsbD i = false) ∧ (k < 64 → x.getLsbD (63 - k) = true)) ∧
    (Issues s u t (.ctz gd d a) → ∃ k ≤ 64, Writes (.ctz gd d a) s u d (BitVec.ofNat 64 k) ∧
      (∀ i < k, x.getLsbD i = false) ∧ (k < 64 → x.getLsbD k = true)) ∧
    (Issues s u t (.popc gd d a) →
      Writes (.popc gd d a) s u d (BitVec.ofNat 64 ((List.range 64).countP fun i => x.getLsbD i)))

/-- R335, R337: the bits that SEXT, ZEXT, BFX, BFXS and BFI write. -/
def Sys2Proof.BitFields : Prop :=
  ∀ (s : State) (u : Turn) (t : Thread) (gd : Guard) (d a b : Reg) (n pos len1 : BitVec 6),
    let x := gr t a
    let y := gr t b
    (Issues s u t (.sext gd d a n) → ∃ r, Writes (.sext gd d a n) s u d r ∧
      ∀ i < 64, r.getLsbD i = x.getLsbD (min i n.toNat)) ∧
    (Issues s u t (.zext gd d a n) → ∃ r, Writes (.zext gd d a n) s u d r ∧
      ∀ i < 64, r.getLsbD i = (decide (i ≤ n.toNat) && x.getLsbD i)) ∧
    (Issues s u t (.bfx gd d a pos len1) → ∃ r, Writes (.bfx gd d a pos len1) s u d r ∧
      ∀ i < 64, r.getLsbD i = (decide (i ≤ len1.toNat) && x.getLsbD (pos.toNat + i))) ∧
    (Issues s u t (.bfxs gd d a pos len1) → ∃ r, Writes (.bfxs gd d a pos len1) s u d r ∧
      ∀ i < 64, r.getLsbD i = x.getLsbD (pos.toNat + min i len1.toNat)) ∧
    (Issues s u t (.bfi gd d a b pos len1) → ∃ r, Writes (.bfi gd d a b pos len1) s u d r ∧
      ∀ i < 64, r.getLsbD i = if pos.toNat ≤ i ∧ i ≤ pos.toNat + len1.toNat then x.getLsbD (i - pos.toNat) else y.getLsbD i)

/-- R322, R336, R338: NOP changes no register; immediates are sign-extended; LIH replaces bits 63:48; LEA adds a shifted register and a
displacement. -/
def Sys2Proof.Immediates : Prop :=
  ∀ (s : State) (u : Turn) (t : Thread) (gd : Guard) (d a b : Reg) (imm : BitVec 22) (im48 : BitVec 48) (im16 : BitVec 16)
      (sh : BitVec 2) (disp : BitVec 10),
    let x := gr t a
    let e := imm.signExtend 64
    (Issues s u t (.nop gd) → Retires (.nop gd) s u id) ∧
    (Issues s u t (.addi gd d a imm) → Writes (.addi gd d a imm) s u d (x + e)) ∧
    (Issues s u t (.andi gd d a imm) → Writes (.andi gd d a imm) s u d (x &&& e)) ∧
    (Issues s u t (.ori gd d a imm) → Writes (.ori gd d a imm) s u d (x ||| e)) ∧
    (Issues s u t (.xori gd d a imm) → Writes (.xori gd d a imm) s u d (x ^^^ e)) ∧
    (Issues s u t (.li gd d im48) → Writes (.li gd d im48) s u d (im48.signExtend 64)) ∧
    (Issues s u t (.lih gd d a im16) → Writes (.lih gd d a im16) s u d (im16 ++ x.setWidth 48)) ∧
    (Issues s u t (.lea gd d a b sh disp) →
      Writes (.lea gd d a b sh disp) s u d (x + (gr t b <<< sh.toNat) + disp.signExtend 64))

/-- R322, R334 to R338: shifts by a constant, bit counts, bit fields and immediates. -/
def Obligations.BitOperations : Prop := ShiftsAndCounts ∧ BitFields ∧ Immediates

/-- R339, R340, R341: compares, PLOG, SEL, PSET and PGET. -/
def Obligations.Predicates : Prop :=
  ∀ (s : State) (u : Turn) (t : Thread) (gd : Guard) (d a b : Reg) (pd pa pb c : Pred) (cc : Cond) (imm : BitVec 32)
      (table : BitVec 4),
    let holds := fun (x y : Word) => match cc with
      | .eq => x = y
      | .ne => x ≠ y
      | .lt => x.toInt < y.toInt
      | .le => x.toInt ≤ y.toInt
      | .gt => x.toInt > y.toInt
      | .ge => x.toInt ≥ y.toInt
      | .ltn => x.toNat < y.toNat
      | .len => x.toNat ≤ y.toNat
      | .gtn => x.toNat > y.toNat
      | .gen => x.toNat ≥ y.toNat
    (Issues s u t (.cmp gd pd a b cc) → ∃ r, Retires (.cmp gd pd a b cc) s u (·.putP pd r) ∧
      (r = true ↔ holds (gr t a) (gr t b))) ∧
    (Issues s u t (.cmpi gd pd a cc imm) → ∃ r, Retires (.cmpi gd pd a cc imm) s u (·.putP pd r) ∧
      (r = true ↔ holds (gr t a) (imm.signExtend 64))) ∧
    (Issues s u t (.plog gd pd pa pb table) → Retires (.plog gd pd pa pb table) s u (·.putP pd
      (match pr t pa, pr t pb with
        | false, false => table.getLsbD 0
        | false, true => table.getLsbD 1
        | true, false => table.getLsbD 2
        | true, true => table.getLsbD 3))) ∧
    (Issues s u t (.sel gd d a b c) → Writes (.sel gd d a b c) s u d (if pr t c = true then gr t a else gr t b)) ∧
    (Issues s u t (.pset gd a) → ∃ w, Retires (.pset gd a) s u (fun t => { t with regs := { t.regs with p := w } }) ∧
      ∀ i, 1 ≤ i → i ≤ 7 → w.getLsbD i = (gr t a).getLsbD i) ∧
    (Issues s u t (.pget gd d) → ∃ w, Writes (.pget gd d) s u d w ∧
      (∀ p : Pred, w.getLsbD p.toNat = pr t p) ∧ ∀ i ≥ 8, w.getLsbD i = false)

/-- The fetch of a code address takes no trap of R72, R73 or R51: it lies below XB, its segment has landed, its line is not ochre. -/
def Sys2Proof.Lands (s : State) (e : EP) (a : CodeAddr) : Prop :=
  a.toNat < xbBytes (s.core e) ∧ landed s e a.toNat = true ∧ anyOchre s e (a.toNat / 64 * 64) 64 = false

/-- The four conditions of R316: a code address is a head. -/
def Sys2Proof.HeadAt (s : State) (e : EP) (a : CodeAddr) : Prop :=
  a.toNat % 2 = 0 ∧ 1 ≤ a.toNat / 2 % 32 ∧ a.toNat / 2 % 32 ≤ lineN (lineAt s e a.toNat) ∧ lineOk (lineAt s e a.toNat) = true

/-- R343, R316: a branch whose target may be fetched and is a head goes there: by displacement from its own head, or to g[a][31:0]
where g[a] has no higher bit. CALL and CALLR write the next head to g[d]; CALLR reads g[a] before. -/
def Sys2Proof.BranchesGoToHeads : Prop :=
  ∀ (s : State) (u : Turn) (t : Thread) (gd : Guard) (d a : Reg) (imm : BitVec 22),
    let rel := BitVec.ofInt 32 (t.pc.toNat + 2 * imm.toInt)
    let reg := (gr t a).setWidth 32
    let link := fun (t : Thread) => t.putG d (u.next.setWidth 64)
    (Issues s u t (.br gd imm) → Lands s u.ep rel → HeadAt s u.ep rel → exec (.br gd imm) s = .next (s.jump u rel id)) ∧
    (Issues s u t (.call gd d imm) → Lands s u.ep rel → HeadAt s u.ep rel →
      exec (.call gd d imm) s = .next (s.jump u rel link)) ∧
    (Issues s u t (.jseg gd imm) → Lands s u.ep rel → HeadAt s u.ep rel →
      exec (.jseg gd imm) s = .next (s.jump u rel id)) ∧
    (Issues s u t (.brr gd a) → (gr t a).toNat < 2 ^ 32 → Lands s u.ep reg → HeadAt s u.ep reg →
      exec (.brr gd a) s = .next (s.jump u reg id)) ∧
    (Issues s u t (.callr gd d a) → (gr t a).toNat < 2 ^ 32 → Lands s u.ep reg → HeadAt s u.ep reg →
      exec (.callr gd d a) s = .next (s.jump u reg link))

/-- R343, R316, R72: where the target may be fetched and is no head, or g[a] has a bit above 31, the trap has cause 0x03 with the target
as its address, and a call's link stands; a JSEG to a segment that has not landed traps with cause 0x06, wherever XB stands. -/
def Sys2Proof.BranchTraps : Prop :=
  ∀ (s : State) (u : Turn) (t : Thread) (gd : Guard) (d a : Reg) (imm : BitVec 22),
    let rel := BitVec.ofInt 32 (t.pc.toNat + 2 * imm.toInt)
    let reg := (gr t a).setWidth 32
    let linked := s.modThr u.ep u.slot fun t => t.putG d (u.next.setWidth 64)
    (Issues s u t (.br gd imm) → Lands s u.ep rel → ¬ HeadAt s u.ep rel →
      exec (.br gd imm) s = .next (s.raise u 0x03 (rel.setWidth 64) 0)) ∧
    (Issues s u t (.call gd d imm) → Lands s u.ep rel → ¬ HeadAt s u.ep rel →
      exec (.call gd d imm) s = .next (linked.raise u 0x03 (rel.setWidth 64) 0)) ∧
    (Issues s u t (.brr gd a) → 2 ^ 32 ≤ (gr t a).toNat →
      exec (.brr gd a) s = .next (s.raise u 0x03 (gr t a) 0)) ∧
    (Issues s u t (.brr gd a) → (gr t a).toNat < 2 ^ 32 → Lands s u.ep reg → ¬ HeadAt s u.ep reg →
      exec (.brr gd a) s = .next (s.raise u 0x03 (reg.setWidth 64) 0)) ∧
    (Issues s u t (.callr gd d a) → 2 ^ 32 ≤ (gr t a).toNat →
      exec (.callr gd d a) s = .next (linked.raise u 0x03 (gr t a) 0)) ∧
    (Issues s u t (.callr gd d a) → (gr t a).toNat < 2 ^ 32 → Lands s u.ep reg → ¬ HeadAt s u.ep reg →
      exec (.callr gd d a) s = .next (linked.raise u 0x03 (reg.setWidth 64) 0)) ∧
    (Issues s u t (.jseg gd imm) → Lands s u.ep rel → ¬ HeadAt s u.ep rel →
      exec (.jseg gd imm) s = .next (s.raise u 0x03 (rel.setWidth 64) 0)) ∧
    (Issues s u t (.jseg gd imm) → rel.toNat / 4096 < 384 → landed s u.ep rel.toNat = false →
      exec (.jseg gd imm) s = .next (s.raise u 0x06 (rel.setWidth 64) (rel.toNat / 4096)))

/-- R72, R316, R343: control transfers go to heads, and trap with cause 0x03 elsewhere. -/
def Obligations.Branches : Prop := BranchesGoToHeads ∧ BranchTraps

/-- The slot has taken a trap (R280, R282): the trap registers hold cause, address, status and return address (NPEND counts the accesses of
entries 0 to 15 under way, since the instruction itself waits in entry 16 no more: the model's choice, log 53), the mode is supervisor and the handler bit set, the PC is head 1 of the handler's line, and nothing else of the thread's registers and of the domain has changed. -/
def Sys2Proof.TrapTaken (s : State) (u : Turn) (t : Thread) (cause : Nat) (addr : Word) (info : Nat) (back : CodeAddr)
    (s' : State) : Prop :=
  ∃ t' : Thread, s' = (s.modThr u.ep u.slot fun _ => t').noTurn ∧
    t'.sr.tcause.toNat = cause ∧ t'.sr.taddr = addr ∧ t'.sr.trappc = back ∧
    t'.sr.tstat.getLsbD 63 = t.sup ∧ t'.sr.tstat.getLsbD 62 = t.region.isSome ∧ t'.sr.tstat.getLsbD 61 = t.pair.isSome ∧
    t'.sr.tstat.toNat / 2 ^ 51 % 2 ^ 5 = ((t.sb.toList.take 16).filter fun e => e.state != .empty).length ∧
    t'.sr.tstat.toNat % 2 ^ 32 = info ∧ t'.sr.tstat.toNat / 2 ^ 56 % 2 ^ 5 = 0 ∧ t'.sr.tstat.toNat / 2 ^ 32 % 2 ^ 19 = 0 ∧
    t'.sup = true ∧ t'.handler = true ∧ t'.pc.toNat = (t.sr.trapbase.toNat * 64 + 64 * cause + 2) % 2 ^ 32 ∧
    t'.regs = t.regs ∧ t'.cnt = t.cnt ∧ t'.inbox = t.inbox ∧ t'.outbox = t.outbox ∧ t'.recs = t.recs ∧ t'.qres = t.qres ∧
    t'.region = t.region ∧ t'.ctx = t.ctx ∧
    { t'.sr with tcause := t.sr.tcause, taddr := t.sr.taddr, trappc := t.sr.trappc, tstat := t.sr.tstat } = t.sr

/-- A trap of this slot is delivered here and now (R284, R285, R294, R485): no handler runs, no XFENCE is pending, the thread is no migrant
and no part of a pair. -/
def Sys2Proof.TakesTraps (t : Thread) : Prop := t.handler = false ∧ t.xf = none ∧ t.origin = none ∧ t.pair = none

/-- R280, R282: a raised trap is taken in the same cycle. TRAPPC is the trapping head, or the next one for cause 0x21. (A cause 0x14 inside
a containment rectangle is not delivered, R104.) That NPEND counts entries 0 to 15 alone is the model's choice (log 53). -/
def Sys2Proof.TrapIsTaken : Prop :=
  ∀ (s : State) (u : Turn) (t : Thread) (cause : Nat) (addr : Word) (info : Nat),
    s.thr? u.ep u.slot = some t → TakesTraps t → cause < 256 → info < 2 ^ 32 → (cause = 0x14 → rectOf s u.ep = none) →
      TrapTaken s u t cause addr info (if cause = 0x21 then u.next else t.pc) (s.raise u cause addr info)

/-- R285: a trap of a migrant, in a handler too, is taken at its origin: the thread leaves its visitor slot with its registers, for the
slot it came from, with the cause, address and INFO, and the PC that TRAPPC is to hold. -/
def Sys2Proof.MigrantTraps : Prop :=
  ∀ (s : State) (u : Turn) (t : Thread) (cause : Nat) (addr : Word) (info : Nat) (o : Origin),
    s.thr? u.ep u.slot = some t → t.origin = some o → t.xf = none → t.pair = none → (cause = 0x14 → rectOf s u.ep = none) →
      ∃ (p : Pkt) (m : Migrant), p ∈ (s.raise u cause addr info).net ∧ p.src = u.ep ∧ p.dst = o.ep ∧
        p.body = .comeBack m (some (cause, addr, BitVec.ofNat 64 info)) false ∧ m.origin = o ∧ m.thr.regs = t.regs ∧ m.thr.sr = t.sr ∧
        m.thr.pc = (if cause = 0x21 then u.next else t.pc) ∧ (s.raise u cause addr info).thr? u.ep u.slot = none

/-- R284: a second trap raised while the handler runs is not delivered: the slot stops with its registers intact, and a double-trap event
with the slot and both causes goes to the management plane (dropped where its store is full, R463). A migrant's goes home (R285). -/
def Sys2Proof.DoubleTrapStops : Prop :=
  ∀ (s : State) (u : Turn) (t : Thread) (cause : Nat) (addr : Word) (info : Nat),
    s.thr? u.ep u.slot = some t → t.handler = true → t.xf = none → t.pair = none → t.origin = none → cause < 256 → cause ≠ 0x14 →
      (s.raise u cause addr info).thr? u.ep u.slot = some { t with stopped := true, park := none, sb := t.sb.setIfInBounds 16 SbEntry.none } ∧
      ((s.pkg (epPkg u.ep)).bridge.events.length + (s.pkg (epPkg u.ep)).hostRecs.length < 4096 →
        ∃ ev : Event, ((s.raise u cause addr info).pkg (epPkg u.ep)).bridge.events = (s.pkg (epPkg u.ep)).bridge.events ++ [ev] ∧
          ev.kind = 0x0030 ∧ ev.ep = u.ep ∧ ev.slot = u.slot ∧ ev.aux = t.sr.tcause.toNat + cause * 256)

/-- R280, R282, R284, R285: a trap that is raised is taken, at home where the thread is a migrant, and one raised while the handler runs stops the slot. -/
def Obligations.TrapEntry : Prop := TrapIsTaken ∧ DoubleTrapStops ∧ MigrantTraps

/-- R442: TRAP takes trap cause 0x21: TRAPPC is the next head, TADDR the sign-extended immediate, INFO 0. -/
def Sys2Proof.TrapInstruction : Prop :=
  ∀ (s : State) (u : Turn) (t : Thread) (gd : Guard) (imm : BitVec 22),
    Issues s u t (.trap gd imm) → TakesTraps t →
      ∃ s', exec (.trap gd imm) s = .next s' ∧ TrapTaken s u t 0x21 (imm.signExtend 64) 0 u.next s'

/-- R443, R284: RTT needs supervisor mode. With no lapse and no region abort held it restores the mode from TSTAT.PM, clears the handler
bit and goes on at TRAPPC, where that may be fetched and is a head; it traps with cause 0x03 where it is none and no handler runs; a
lapse held by the handler frees the slot instead. -/
def Sys2Proof.ReturnFromTrap : Prop :=
  ∀ (s : State) (u : Turn) (t : Thread) (gd : Guard),
    let target := t.sr.trappc
    Issues s u t (.rtt gd) →
      (t.sup = false → TakesTraps t → ∃ s', exec (.rtt gd) s = .next s' ∧ TrapTaken s u t 0x04 0 0x1C1 t.pc s') ∧
      (t.sup = true → t.lapsed = false → t.region = none → Lands s u.ep target → HeadAt s u.ep target →
        exec (.rtt gd) s = .next (s.jump u target fun t => { t with sup := t.sr.tstat.getLsbD 63, handler := false })) ∧
      (t.sup = true → TakesTraps t → t.region = none → Lands s u.ep target → ¬ HeadAt s u.ep target →
        ∃ s', exec (.rtt gd) s = .next s' ∧ TrapTaken s u t 0x03 (target.setWidth 64) 0 t.pc s') ∧
      (t.sup = true → t.handler = true → t.lapsed = true → exec (.rtt gd) s = .next (freeLapsed s u.ep u.slot).noTurn)

/-- R442, R443: TRAP and RTT. -/
def Obligations.TrapAndReturn : Prop := TrapInstruction ∧ ReturnFromTrap

/-- R325, R444: what MFS reads of each special register, in supervisor mode, or in user mode where the register is no supervisor
register; DISPQ of a migrant names its origin's cluster (R444). -/
def Sys2Proof.SpecialReads : Prop :=
  ∀ (s : State) (u : Turn) (t : Thread) (gd : Guard) (d a : Reg) (n : BitVec 8),
    Issues s u t (.mfs gd d a n) →
    let c := s.core u.ep
    let supervisor := n ∈ [0x0C, 0x0D, 0x0E, 0x13, 0x14, 0x15, 0x16, 0x17, 0x18]
    (t.sup = false → supervisor → TakesTraps t → ∃ s', exec (.mfs gd d a n) s = .next s' ∧ TrapTaken s u t 0x04 0 0x1C2 t.pc s') ∧
    (t.sup = true ∨ ¬ supervisor → ∃ w, Writes (.mfs gd d a n) s u d w ∧
      (n = 0x00 → w.toNat = (u.ep * 2 ^ 8 + u.slot) % 2 ^ 64) ∧ (n = 0x01 → w = t.sr.wid) ∧
      (n = 0x02 → w = t.sr.inst ++ t.sr.hnd) ∧ (n = 0x03 → w = (s.die (dieKey u.ep)).now) ∧
      (n = 0x04 → w.toNat = (c.cycle - 1) % 2 ^ 64) ∧
      (n = 0x08 → w = t.sr.sfa.setWidth 64) ∧ (n = 0x09 → w = t.sr.sfb.setWidth 64) ∧
      (n = 0x0A → w = t.sr.ssa.setWidth 64) ∧ (n = 0x0B → w = t.sr.ssb.setWidth 64) ∧
      (n = 0x0C → w.toNat = t.sr.lbase.toNat * 2 ^ 10) ∧ (n = 0x0D → w.toNat = t.sr.lsize.toNat * 2 ^ 10) ∧
      (n = 0x0E → w.toNat = c.xb.toNat * 2 ^ 12) ∧
      (n = 0x10 → w.toNat = t.cnt.ldc % 16 + t.cnt.stc % 16 * 2 ^ 4 + t.cnt.cpc % 16 * 2 ^ 8 + t.cnt.tlc % 16 * 2 ^ 12) ∧
      (n = 0x11 → w = t.sr.fflags.setWidth 64) ∧ (n = 0x12 → w = t.sr.rcause.setWidth 64) ∧
      (n = 0x13 → w.toNat = t.sr.peermap.toNat * 2 ^ 12) ∧ (n = 0x14 → w.toNat = t.sr.trapbase.toNat * 2 ^ 6) ∧
      (n = 0x15 → w = t.sr.tcause.setWidth 64) ∧ (n = 0x16 → w = t.sr.taddr) ∧ (n = 0x17 → w = t.sr.trappc.setWidth 64) ∧
      (n = 0x18 → w = t.sr.tstat) ∧ (n = 0x19 → w = t.ctx.setWidth 64) ∧
      (n = 0x1B → w.toNat = (t.sr.pri.toNat * 2 ^ 8 +
        clusterOf (match t.origin with | some o => o.ep | none => u.ep)) % 2 ^ 64) ∧
      (n = 0x20 → kindOf u.ep = .compute → w.toNat = c.lg6.gen.toNat * 2 + c.lg6.active % 2))

/-- R75, R76: MFS of SEGLAND reads the 64 landed bits of window g[a][2:0]; windows beyond the segments of the core read 0. -/
def Sys2Proof.SegmentWindows : Prop :=
  ∀ (s : State) (u : Turn) (t : Thread) (gd : Guard) (d a : Reg),
    Issues s u t (.mfs gd d a 0x0F) → ∃ w, Writes (.mfs gd d a 0x0F) s u d w ∧
      ∀ i < 64, w.getLsbD i =
        (decide ((gr t a).toNat % 8 < if (s.core u.ep).kind = .memory then 2 else 6) &&
          (s.core u.ep).landed.getLsbD (64 * ((gr t a).toNat % 8) + i))

/-- R325, R444: MFS. -/
def Obligations.SpecialRegisterReads : Prop := SpecialReads ∧ SegmentWindows

/-- R325: MTS writes each writable special register, which then reads as the value written (TSTAT keeps its read-only fields, R282; XB
is the core's); no other special register changes. User mode traps on a supervisor register with cause 0x04, whatever the value, and the
supervisor of a context that is no system context on XB (R247); a value with a reserved bit set traps with cause 0x02. In a visitor slot
LBASE, LSIZE, XB, PEERMAP and TRAPBASE trap with cause 0x01 (R444). -/
def Obligations.SpecialRegisterWrites : Prop :=
  ∀ (s : State) (u : Turn) (t : Thread) (gd : Guard) (a : Reg) (n : BitVec 8),
    Issues s u t (.mts gd a n) →
    let w := gr t a
    let fixed := isVisitor u.ep u.slot = true ∧ n ∈ [0x0C, 0x0D, 0x0E, 0x13, 0x14]
    let supervisor := n ∈ [0x0C, 0x0D, 0x0E, 0x13, 0x14, 0x15, 0x16, 0x17, 0x18]
    let reserved := (n ∈ [0x08, 0x09, 0x11] ∧ 2 ^ 5 ≤ w.toNat) ∨ (n ∈ [0x0A, 0x0B] ∧ 2 ^ 21 ≤ w.toNat) ∨
      (n ∈ [0x0C, 0x0D] ∧ (2 ^ 21 ≤ w.toNat ∨ w.toNat % 2 ^ 10 ≠ 0)) ∨ (n = 0x13 ∧ (2 ^ 56 ≤ w.toNat ∨ w.toNat % 2 ^ 12 ≠ 0)) ∨
      (n = 0x14 ∧ (2 ^ 32 ≤ w.toNat ∨ w.toNat % 2 ^ 6 ≠ 0)) ∨ (n = 0x15 ∧ 2 ^ 8 ≤ w.toNat) ∨ (n = 0x17 ∧ 2 ^ 32 ≤ w.toNat) ∨
      (n = 0x18 ∧ (w.toNat / 2 ^ 56 % 2 ^ 5 ≠ 0 ∨ w.toNat / 2 ^ 32 % 2 ^ 19 ≠ 0))
    let may := ¬ supervisor ∨ t.sup = true ∧ (n = 0x0E → ctxPriv s (epPkg u.ep) t.ctx = true)
    (fixed → exec (.mts gd a n) s = .next (s.raise u 0x01 0 0x1C3)) ∧
    (¬ fixed → ¬ may → TakesTraps t → ∃ s', exec (.mts gd a n) s = .next s' ∧ TrapTaken s u t 0x04 0 0x1C3 t.pc s') ∧
    (¬ fixed → may → reserved → TakesTraps t →
      ∃ s', exec (.mts gd a n) s = .next s' ∧ TrapTaken s u t 0x02 0 u.head.toNat t.pc s') ∧
    (¬ fixed → may → ¬ reserved →
      (n = 0x0E → exec (.mts gd a n) s =
        .next ((s.modCore u.ep fun c => { c with xb := BitVec.ofNat 9 (w.toNat / 2 ^ 12) }).retire u id)) ∧
      (n ∈ [0x08, 0x09, 0x0A, 0x0B, 0x0C, 0x0D, 0x11, 0x13, 0x14, 0x15, 0x16, 0x17, 0x18] → ∃ sr : Specials,
        Retires (.mts gd a n) s u (fun t => { t with sr := sr }) ∧
        { sr with sfa := if n = 0x08 then t.sr.sfa else sr.sfa, sfb := if n = 0x09 then t.sr.sfb else sr.sfb,
                  ssa := if n = 0x0A then t.sr.ssa else sr.ssa, ssb := if n = 0x0B then t.sr.ssb else sr.ssb,
                  lbase := if n = 0x0C then t.sr.lbase else sr.lbase, lsize := if n = 0x0D then t.sr.lsize else sr.lsize,
                  fflags := if n = 0x11 then t.sr.fflags else sr.fflags, peermap := if n = 0x13 then t.sr.peermap else sr.peermap,
                  trapbase := if n = 0x14 then t.sr.trapbase else sr.trapbase, tcause := if n = 0x15 then t.sr.tcause else sr.tcause,
                  taddr := if n = 0x16 then t.sr.taddr else sr.taddr, trappc := if n = 0x17 then t.sr.trappc else sr.trappc,
                  tstat := if n = 0x18 then t.sr.tstat else sr.tstat } = t.sr ∧
        (n = 0x08 → sr.sfa.toNat = w.toNat) ∧ (n = 0x09 → sr.sfb.toNat = w.toNat) ∧ (n = 0x0A → sr.ssa.toNat = w.toNat) ∧
        (n = 0x0B → sr.ssb.toNat = w.toNat) ∧ (n = 0x0C → sr.lbase.toNat * 2 ^ 10 = w.toNat) ∧
        (n = 0x0D → sr.lsize.toNat * 2 ^ 10 = w.toNat) ∧ (n = 0x11 → sr.fflags.toNat = w.toNat) ∧
        (n = 0x13 → sr.peermap.toNat * 2 ^ 12 = w.toNat) ∧ (n = 0x14 → sr.trapbase.toNat * 2 ^ 6 = w.toNat) ∧
        (n = 0x15 → sr.tcause.toNat = w.toNat) ∧ (n = 0x16 → sr.taddr = w) ∧ (n = 0x17 → sr.trappc.toNat = w.toNat) ∧
        (n = 0x18 → sr.tstat.getLsbD 63 = w.getLsbD 63 ∧ sr.tstat.toNat % 2 ^ 32 = w.toNat % 2 ^ 32 ∧
          sr.tstat.toNat / 2 ^ 32 % 2 ^ 31 = t.sr.tstat.toNat / 2 ^ 32 % 2 ^ 31)))

/-- What a floating result does to the thread (R228, R387): the value in g[d], the flags ORed into FFLAGS. -/
def Sys2Proof.FResult (d : Reg) (ty : Ty) (r : Nat × Nat) (t : Thread) : Thread := (t.putG d (extTy ty r.1)).orFlags r.2

/-- A finite value, exactly, as an integer number of units of 2^−n; the formats of R226 need n ≥ 1074. -/
def Sys2Proof.scaled (n : Nat) : FVal → Int
  | .num s m e => sgnOf s m * 2 ^ (e + n).toNat
  | _ => 0

/-- What a lane-wise instruction does (R399): active lanes receive the low w bits of their operation's result, inactive ones are kept or
written 0, all in one write of v[d]; the flags of the active lanes are ORed into FFLAGS. -/
def Sys2Proof.LaneWise (i : Instr) (s : State) (u : Turn) (t : Thread) (d : VReg) (ty : Ty) (mk : Mask) (z : Bool)
    (op : Nat → Nat × Nat) : Prop :=
  ∃ (r : BitVec 512) (fl : Nat), Retires i s u (fun t => (t.putV d r).orFlags fl) ∧
    (∀ j < ty.lanes, lane ty.width r j =
      if active t mk j = true then (op j).1 % 2 ^ ty.width else if z = true then 0 else lane ty.width (vr t d) j) ∧
    ∀ k, fl.testBit k = true ↔ ∃ j < ty.lanes, active t mk j = true ∧ (op j).2.testBit k = true

/-- A value is finite. -/
def Sys2Proof.Finite (v : FVal) : Prop := v.isNan = false ∧ ∀ s, v ≠ .inf s

/-- R389: each scalar floating instruction reads the low w bits of its operands and writes the result of its operation, rounded in its
mode, zero-extended to g[d], and ORs its flags. (What the operations give: FloatSpecialValues, RoundingIsCorrect, ExactSums.) -/
def Sys2Proof.FloatArithmetic : Prop :=
  ∀ (s : State) (u : Turn) (t : Thread) (gd : Guard) (d a b c : Reg) (ty : Ty) (rm : Rnd),
    let f := fmtOf ty
    let x := lowTy t a ty
    let y := lowTy t b ty
    let z := lowTy t c ty
    let gives := fun (i : Instr) (r : Nat × Nat) => Issues s u t i → Retires i s u (FResult d ty r)
    gives (.fadd gd d a b ty rm) (fAdd f rm x y) ∧ gives (.fsub gd d a b ty rm) (fSub f rm x y) ∧
    gives (.fmul gd d a b ty rm) (fMul f rm x y) ∧ gives (.fma gd d a b c ty rm) (fFma f rm x y z) ∧
    gives (.fdiv gd d a b ty rm) (fDiv f rm x y) ∧ gives (.fsqrt gd d a ty rm) (fSqrt f rm x) ∧
    gives (.frsq gd d a ty rm) (fRsq f rm x) ∧ gives (.fexp2 gd d a ty rm) (fExp2 f rm x) ∧
    gives (.flog2 gd d a ty rm) (fLog2 f rm x)

/-- R227, R243, R389: the operands whose result is no rounding: NaNs, infinities, zeros and values below 0, with their flags. -/
def Sys2Proof.FloatSpecialValues : Prop :=
  ∀ (ty : Ty) (rm : Rnd) (x y z : Nat), ty ∈ [Ty.bf, .hf, .sf, .df] →
    let f := fmtOf ty
    let v := unpack f x
    let w := unpack f y
    let sig := fun (l : List FVal) => if FVal.nan true ∈ l then fNV else 0
    let zero := fun (v : FVal) => ∃ s e, v = .num s 0 e
    (v.isNan = true ∨ w.isNan = true → fAdd f rm x y = (canonNan f, sig [v, w]) ∧ fSub f rm x y = (canonNan f, sig [v, w]) ∧
      fMul f rm x y = (canonNan f, sig [v, w]) ∧ fDiv f rm x y = (canonNan f, sig [v, w])) ∧
    (v.isNan = true ∨ w.isNan = true ∨ (unpack f z).isNan = true → (fFma f rm x y z).1 = canonNan f) ∧
    (v.isNan = true → fSqrt f rm x = (canonNan f, sig [v]) ∧ fRsq f rm x = (canonNan f, sig [v]) ∧
      fExp2 f rm x = (canonNan f, sig [v]) ∧ fLog2 f rm x = (canonNan f, sig [v])) ∧
    (∀ p q, v = .inf p → w = .inf q → fAdd f rm x y = (if p = q then (infOf f p, 0) else (canonNan f, fNV)) ∧
      fSub f rm x y = (if p = q then (canonNan f, fNV) else (infOf f p, 0)) ∧ fDiv f rm x y = (canonNan f, fNV)) ∧
    (∀ p, v = .inf p → zero w → fMul f rm x y = (canonNan f, fNV) ∧ fFma f rm x y z = (canonNan f, fNV)) ∧
    (zero v → zero w → fDiv f rm x y = (canonNan f, fNV)) ∧
    (∀ p m e q g, v = .num p m e → m ≠ 0 → w = .num q 0 g → fDiv f rm x y = (infOf f (p != q), fDZ)) ∧
    (∀ p m e, v = .num p m e → m ≠ 0 → p = true → fSqrt f rm x = (canonNan f, fNV) ∧ fRsq f rm x = (canonNan f, fNV) ∧
      fLog2 f rm x = (canonNan f, fNV)) ∧
    (v = .inf true → fSqrt f rm x = (canonNan f, fNV) ∧ fRsq f rm x = (canonNan f, fNV) ∧ fLog2 f rm x = (canonNan f, fNV) ∧
      fExp2 f rm x = (0, 0)) ∧
    (v = .inf false → fRsq f rm x = (0, 0) ∧ fLog2 f rm x = (infOf f false, 0) ∧ fExp2 f rm x = (infOf f false, 0)) ∧
    (∀ p e, v = .num p 0 e → fSqrt f rm x = (zeroOf f p, 0) ∧ fRsq f rm x = (infOf f p, fDZ) ∧ fLog2 f rm x = (infOf f true, fDZ))

/-- A result in a format is an exact real value rounded once in a mode (R231, R233): where nothing overflows it is the representable value
that the mode names, with its sign, and NX is raised just where it is not exact; beyond every finite value it is the one of the mode, with
OF and NX. No invalid operation and no division by zero is flagged. -/
def Sys2Proof.RoundsReal (f : Fmt) (rm : Rnd) (x : ℝ) (r : Nat × Nat) : Prop :=
  let val : Nat → ℝ := fun k => (scaled 1074 (unpack f k) : ℝ) / 2 ^ 1074
  r.2 < 8 ∧
  (r.2.testBit 2 = false → r.1 < 2 ^ f.w ∧ Finite (unpack f r.1) ∧ (r.2.testBit 0 = true ↔ val r.1 ≠ x) ∧
    (x < 0 → r.1.testBit (f.w - 1) = true) ∧ (0 < x → r.1.testBit (f.w - 1) = false) ∧
    ∀ k < 2 ^ f.w, Finite (unpack f k) → match rm with
      | .rne => |val r.1 - x| ≤ |val k - x| ∧ (val k ≠ val r.1 → |val k - x| = |val r.1 - x| → r.1 % 2 = 0)
      | .rna => |val r.1 - x| ≤ |val k - x| ∧ (|val k - x| = |val r.1 - x| → |val k| ≤ |val r.1|)
      | .rz => |val r.1| ≤ |x| ∧ (|val k| ≤ |x| → |val k| ≤ |val r.1|)
      | .rd => val r.1 ≤ x ∧ (val k ≤ x → val k ≤ val r.1)
      | .ru => x ≤ val r.1 ∧ (x ≤ val k → val r.1 ≤ val k)) ∧
  (r.2.testBit 2 = true → r.2 = fOF ||| fNX ∧ (∀ k < 2 ^ f.w, Finite (unpack f k) → |val k| < |x|) ∧ ∃ neg : Bool, (neg = true ↔ x < 0) ∧
    r.1 = match rm, neg with
      | .rz, n => maxOf f n
      | .rd, false => maxOf f false
      | .ru, true => maxOf f true
      | _, n => infOf f n)

/-- R243, R389: FDIV, FSQRT and FRSQ give the exact quotient, root and reciprocal root, rounded once; a quotient of a zero is a zero of
the signs' product. -/
def Sys2Proof.QuotientsAndRoots : Prop :=
  ∀ (ty : Ty) (rm : Rnd) (a b : Nat), ty ∈ [Ty.bf, .hf, .sf, .df] →
    let f := fmtOf ty
    let x : ℝ := scaled 1074 (unpack f a)
    let y : ℝ := scaled 1074 (unpack f b)
    (Finite (unpack f a) → Finite (unpack f b) → y ≠ 0 → RoundsReal f rm (x / y) (fDiv f rm a b)) ∧
    (∀ p e q g n, unpack f a = .num p 0 e → unpack f b = .num q n g → n ≠ 0 → fDiv f rm a b = (zeroOf f (p != q), 0)) ∧
    (∀ p q n g, unpack f a = .num p n g → unpack f b = .inf q → fDiv f rm a b = (zeroOf f (p != q), 0)) ∧
    (∀ p q n g, unpack f a = .inf p → unpack f b = .num q n g → fDiv f rm a b = (infOf f (p != q), 0)) ∧
    (Finite (unpack f a) → 0 < x → RoundsReal f rm (√(x / 2 ^ 1074)) (fSqrt f rm a) ∧
      RoundsReal f rm (1 / √(x / 2 ^ 1074)) (fRsq f rm a)) ∧
    (unpack f a = .inf false → fSqrt f rm a = (infOf f false, 0))

/-- No boundary between two roundings, but the value itself, lies nearer to a value than its 2^−(p + 70)th part, for the p fraction bits of a
format: that is, no number of p + 2 bits does. -/
def Sys2Proof.Apart (f : Fmt) (x : ℝ) : Prop :=
  ∀ n g : ℤ, |n| < 2 ^ (f.mb + 2) → (n : ℝ) * 2 ^ g ≠ x → |x| ≤ |x - n * 2 ^ g| * 2 ^ (f.mb + 70)

/-- R243: FEXP2 and FLOG2 give the exact power and logarithm, rounded once. The model works both out to far more bits than any format
keeps, and rounds correctly wherever the exact value stands off the boundaries of the roundings by more than what is left out (log 11). -/
def Sys2Proof.PowersAndLogarithms : Prop :=
  ∀ (ty : Ty) (rm : Rnd) (a : Nat), ty ∈ [Ty.bf, .hf, .sf, .df] →
    let f := fmtOf ty
    let x : ℝ := (scaled 1074 (unpack f a) : ℝ) / 2 ^ 1074
    Finite (unpack f a) →
      (Apart f ((2 : ℝ) ^ x) → RoundsReal f rm ((2 : ℝ) ^ x) (fExp2 f rm a)) ∧
      (0 < x → Apart f (Real.logb 2 x) → RoundsReal f rm (Real.logb 2 x) (fLog2 f rm a))

/-- R389, R239: sums and products are exact before they are rounded once: with finite operands the result of FMA, and so of FADD, FSUB
and FMUL, is the rounding of the exact value, and an exact zero of unlike signs is +0, and −0 under .rd. -/
def Sys2Proof.ExactSums : Prop :=
  ∀ (ty : Ty) (rm : Rnd) (x y z : Nat), ty ∈ [Ty.bf, .hf, .sf, .df] →
    let f := fmtOf ty
    let v := unpack f x
    let w := unpack f y
    let c := unpack f z
    Finite v → Finite w → Finite c →
      (∃ s m e, -2148 ≤ e ∧ scaled 2148 (.num s m e) = scaled 2148 v + scaled 2148 w ∧ fAdd f rm x y = roundTo f rm false s m e false) ∧
      (∃ s m e, -2148 ≤ e ∧ scaled 2148 (.num s m e) = scaled 2148 v - scaled 2148 w ∧ fSub f rm x y = roundTo f rm false s m e false) ∧
      (∃ s m e, -2148 ≤ e ∧ scaled 2148 (.num s m e) = scaled 1074 v * scaled 1074 w ∧ fMul f rm x y = roundTo f rm false s m e false) ∧
      (∃ s m e, -2148 ≤ e ∧ scaled 2148 (.num s m e) = scaled 1074 v * scaled 1074 w + scaled 2148 c ∧
        fFma f rm x y z = roundTo f rm false s m e false) ∧
      (∀ p m e, v = .num p m e → w = .num (!p) m e → fAdd f rm x y = (zeroOf f (decide (rm = .rd)), 0))

/-- R227, R239, R243, R389: the scalar arithmetic of floating point. -/
def Obligations.FloatResults : Prop := FloatArithmetic ∧ FloatSpecialValues ∧ ExactSums ∧ QuotientsAndRoots ∧ PowersAndLogarithms

/-- R231, R233, R389: the rounding of an exact value in every format and mode. Where it does not overflow the result is the representable
value that the mode names, ties as the mode says, and NX is raised just where it is not exact. -/
def Obligations.RoundingIsCorrect : Prop :=
  ∀ (f : Fmt) (rm : Rnd) (sat s : Bool) (m n : Nat) (e : Int), f ∈ [fmt64, fmt32, fmt16, fmtBf, fmtE4, fmtE5] →
    1074 ≤ n → -(n : Int) ≤ e →
    let r := roundTo f rm sat s m e false
    let v := scaled n (.num s m e)
    let x := scaled n (unpack f r.1)
    r.2.testBit 2 = false →
      r.1 < 2 ^ f.w ∧ Finite (unpack f r.1) ∧ (r.2.testBit 0 = true ↔ x ≠ v) ∧
      ∀ k < 2 ^ f.w, Finite (unpack f k) →
        let y := scaled n (unpack f k)
        match rm with
        | .rne => (x - v).natAbs ≤ (y - v).natAbs ∧ (y ≠ x → (y - v).natAbs = (x - v).natAbs → r.1 % 2 = 0)
        | .rna => (x - v).natAbs ≤ (y - v).natAbs ∧ ((y - v).natAbs = (x - v).natAbs → y.natAbs ≤ x.natAbs)
        | .rz => x.natAbs ≤ v.natAbs ∧ (y.natAbs ≤ v.natAbs → y.natAbs ≤ x.natAbs)
        | .rd => x ≤ v ∧ (y ≤ v → y ≤ x)
        | .ru => v ≤ x ∧ (v ≤ y → x ≤ y)

/-- R244: FMIN, FMAX, VMIN and VMAX of the floating types: the order of values with −0 below +0, NaNs, and NV. -/
def Obligations.MinAndMax : Prop :=
  ∀ (s : State) (u : Turn) (t : Thread) (gd : Guard) (ty : Ty), ty ∈ [Ty.bf, .hf, .sf, .df] →
    let f := fmtOf ty
    let isMin := fun (x y : Nat) (r : Nat × Nat) (mx : Bool) =>
      let v := unpack f x
      let w := unpack f y
      (r.2 = if v = .nan true ∨ w = .nan true then fNV else 0) ∧
      (v.isNan = true → w.isNan = true → r.1 = canonNan f) ∧ (v.isNan = true → w.isNan = false → r.1 = y) ∧
      (v.isNan = false → w.isNan = true → r.1 = x) ∧ (v.isNan = false → w.isNan = false → r.1 = x ∨ r.1 = y) ∧
      (∀ p, v = .inf p → Finite w → r.1 = if p = mx then y else x) ∧
      (∀ p q, v = .inf p → w = .inf q → p ≠ q → r.1 = if p = mx then y else x) ∧
      (∀ p, Finite v → w = .inf p → r.1 = if p = mx then x else y) ∧
      (Finite v → Finite w → scaled 1074 v < scaled 1074 w → r.1 = if mx = true then y else x) ∧
      (Finite v → Finite w → scaled 1074 w < scaled 1074 v → r.1 = if mx = true then x else y) ∧
      (∀ e g, v = .num true 0 e → w = .num false 0 g → r.1 = if mx = true then y else x) ∧
      (∀ e g, v = .num false 0 e → w = .num true 0 g → r.1 = if mx = true then x else y)
    (∀ d a b : Reg, ∃ r r', isMin (lowTy t a ty) (lowTy t b ty) r false ∧ isMin (lowTy t a ty) (lowTy t b ty) r' true ∧
      (Issues s u t (.fmin gd d a b ty) → Retires (.fmin gd d a b ty) s u (FResult d ty r)) ∧
      (Issues s u t (.fmax gd d a b ty) → Retires (.fmax gd d a b ty) s u (FResult d ty r'))) ∧
    (∀ (d a : VReg) (b : BOp) (mk : Mask) (z : Bool), ∃ r r' : Nat → Nat × Nat,
      (∀ j, isMin (lane ty.width (vr t a) j) (laneB t b ty j) (r j) false ∧
        isMin (lane ty.width (vr t a) j) (laneB t b ty j) (r' j) true) ∧
      (Issues s u t (.vmin gd d a b ty mk z) → LaneWise (.vmin gd d a b ty mk z) s u t d ty mk z r) ∧
      (Issues s u t (.vmax gd d a b ty mk z) → LaneWise (.vmax gd d a b ty mk z) s u t d ty mk z r'))

/-- R390: FCMP writes whether its condition holds; NaNs are unordered, −0 equals +0; NV for a signalling NaN, and for any NaN under
.lt, .le, .gt and .ge. -/
def Sys2Proof.FloatCompare : Prop :=
  ∀ (s : State) (u : Turn) (t : Thread) (gd : Guard) (d : Pred) (a b : Reg) (ty : Ty) (fc : FCond), ty ∈ [Ty.bf, .hf, .sf, .df] →
    Issues s u t (.fcmp gd d a b ty fc) → ∃ r fl, Retires (.fcmp gd d a b ty fc) s u (fun t => (t.putP d r).orFlags fl) ∧
      let v := unpack (fmtOf ty) (lowTy t a ty)
      let w := unpack (fmtOf ty) (lowTy t b ty)
      let nan := v.isNan = true ∨ w.isNan = true
      let big : FVal → Int := fun v => match v with
        | .inf true => -2 ^ 4000
        | .inf false => 2 ^ 4000
        | v => scaled 1074 v
      (r = true ↔ match fc with
        | .eq => ¬ nan ∧ big v = big w
        | .ne => nan ∨ big v ≠ big w
        | .lt => ¬ nan ∧ big v < big w
        | .le => ¬ nan ∧ big v ≤ big w
        | .gt => ¬ nan ∧ big w < big v
        | .ge => ¬ nan ∧ big w ≤ big v
        | .un => nan
        | .ord => ¬ nan) ∧
      (fl = if v = .nan true ∨ w = .nan true ∨ (nan ∧ fc ∈ [FCond.lt, .le, .gt, .ge]) then fNV else 0)

/-- R392: FCLASS sets exactly the bit of the operand's class and raises no flag; E4M3 has no signalling NaN; LG6 has zeros and normals. -/
def Sys2Proof.FloatClass : Prop :=
  ∀ (s : State) (u : Turn) (t : Thread) (gd : Guard) (d a : Reg) (ty : Ty), ty ∈ [Ty.bf, .hf, .sf, .df, .e4, .e5, .lg] →
    Issues s u t (.fclass gd d a ty) → ∃ k ≤ 9, Writes (.fclass gd d a ty) s u d (BitVec.ofNat 64 (2 ^ k)) ∧
      let x := lowTy t a ty
      let f := fmtOf ty
      let v := unpack f x
      let normal := fun (s : Bool) => ∃ m e, v = .num s m e ∧ 2 ^ f.mb ≤ m
      let small := fun (s : Bool) => ∃ m e, v = .num s m e ∧ m ≠ 0 ∧ m < 2 ^ f.mb
      (ty ≠ .lg → (k = 0 ↔ v = .inf true) ∧ (k = 1 ↔ normal true) ∧ (k = 2 ↔ small true) ∧ (k = 3 ↔ ∃ e, v = .num true 0 e) ∧
        (k = 4 ↔ ∃ e, v = .num false 0 e) ∧ (k = 5 ↔ small false) ∧ (k = 6 ↔ normal false) ∧ (k = 7 ↔ v = .inf false) ∧
        (k = 8 ↔ v = .nan true) ∧ (k = 9 ↔ v = .nan false)) ∧
      (ty = .lg → (x % 2 ^ 5 = 0 → k = 4) ∧ (x % 2 ^ 5 ≠ 0 → k = if x.testBit 5 = true then 1 else 6)) ∧
      (ty = .e4 → k ≠ 8 ∧ (k = 9 ↔ x = 0x7F ∨ x = 0xFF)) ∧ (ty = .e5 → (k = 8 ↔ x = 0x7D ∨ x = 0xFD))

/-- R390, R392: FCMP and FCLASS. -/
def Obligations.FloatComparisons : Prop := FloatCompare ∧ FloatClass

/-- A rounding of a finite value to an integer in a mode (R230): 2^2148 units make 1. -/
def Sys2Proof.RoundsToInt (rm : Rnd) (v : FVal) (n : Int) : Prop :=
  let x := scaled 2148 v
  let y := n * 2 ^ 2148
  match rm with
  | .rne => 2 * (x - y).natAbs ≤ 2 ^ 2148 ∧ (2 * (x - y).natAbs = 2 ^ 2148 → n % 2 = 0)
  | .rna => 2 * (x - y).natAbs ≤ 2 ^ 2148 ∧ (2 * (x - y).natAbs = 2 ^ 2148 → x.natAbs ≤ y.natAbs)
  | .rz => y.natAbs ≤ x.natAbs ∧ (x - y).natAbs < 2 ^ 2148
  | .rd => y ≤ x ∧ x < y + 2 ^ 2148
  | .ru => x ≤ y ∧ y < x + 2 ^ 2148

/-- R391, R233, R235: FCVT writes the conversion of the low bits of g[a], LG6 sources by the active bank of the core's table. NaNs and
infinities become what R233 says; floating values round to integers in the mode and are clamped to the type's range; integers convert to
the low bits, with .sat clamped. -/
def Obligations.Conversions : Prop :=
  ∀ (s : State) (u : Turn) (t : Thread) (gd : Guard) (d a : Reg) (tgt frm : Ty) (rm : Rnd) (sat : Bool),
    Issues s u t (.fcvt gd d a tgt frm rm sat) → ∃ r : Nat × Nat,
      Retires (.fcvt gd d a tgt frm rm sat) s u (FResult d tgt r) ∧
      let tab := lgTable s u.ep
      let x := lowTy t a frm
      let v := tyVal tab frm x
      r = convert tab tgt frm rm sat x ∧
      (frm.isI = false → tgt.isI = false → tgt ≠ .lg →
        (∀ q, v = .nan q → r = (canonNan (fmtOf tgt), if q = true then fNV else 0)) ∧
        (∀ p, v = .inf p → r = if tgt = .e4 then (if sat = true then (maxOf fmtE4 p, 0) else (infOf fmtE4 p, fNV))
          else (infOf (fmtOf tgt) p, 0)) ∧
        (∀ p m e, v = .num p m e → r = roundTo (fmtOf tgt) rm sat p m e false)) ∧
      (frm.isI = false → tgt.isI = true →
        (∀ q, v = .nan q → r = (0, fNV)) ∧
        (∀ p, v = .inf p → r = (wrap tgt.width (if p = true then (intRange tgt).1 else (intRange tgt).2), fNV)) ∧
        (Finite v → ∃ n : Int, RoundsToInt rm v n ∧
          (n < (intRange tgt).1 → r = (wrap tgt.width (intRange tgt).1, fNV)) ∧
          ((intRange tgt).2 < n → r = (wrap tgt.width (intRange tgt).2, fNV)) ∧
          ((intRange tgt).1 ≤ n → n ≤ (intRange tgt).2 → r.1 = wrap tgt.width n ∧
            r.2 = if scaled 2148 v = n * 2 ^ 2148 then 0 else fNX))) ∧
      (frm.isI = true → tgt.isI = true → r.2 = 0 ∧
        (sat = false → r.1 = wrap tgt.width (intOf frm x)) ∧
        (sat = true → ∃ n : Int, r.1 = wrap tgt.width n ∧ n = max (intRange tgt).1 (min (intRange tgt).2 (intOf frm x)))) ∧
      (frm.isI = true → tgt.isI = false → tgt ≠ .lg → intOf frm x = 0 → r = (0, 0)) ∧
      (frm.isI = true → tgt.isI = false → tgt ≠ .lg → intOf frm x ≠ 0 →
        r = roundTo (fmtOf tgt) rm sat (decide (intOf frm x < 0)) (intOf frm x).natAbs 0 false)

/-- R234: a conversion to LG6 ignores the rounding mode and .sat. A finite value becomes the code nearest to 4·log2|x| + 16, ties to the
larger: the m for which 2^(2m) ≤ |x|^8 · 2^33 < 2^(2m + 2). -/
def Obligations.ConversionToLg : Prop :=
  ∀ (tab : List Nat) (frm : Ty) (rm : Rnd) (sat : Bool) (x : Nat),
    let v := if frm.isI = true then FVal.num (decide (intOf frm x < 0)) (intOf frm x).natAbs 0 else tyVal tab frm x
    let r := convert tab .lg frm rm sat x
    (v.isNan = true → r = (0, fNV)) ∧
    (∀ p, v = .inf p → r = ((if p = true then 2 ^ 5 else 0) + 31, fOF)) ∧
    (∀ p e, v = .num p 0 e → r = (0, 0)) ∧
    (∀ p n e, v = .num p n e → n ≠ 0 → ∃ m : Int, ∃ exact : Prop,
      (∀ k : Nat, 0 ≤ 2 * m + k → 0 ≤ 8 * e + 33 + k →
        2 ^ (2 * m + k).toNat ≤ n ^ 8 * 2 ^ (8 * e + 33 + k).toNat ∧
        n ^ 8 * 2 ^ (8 * e + 33 + k).toNat < 2 ^ (2 * m + 2 + k).toNat ∧
        (exact ↔ n ^ 8 * 2 ^ (8 * e + 33 + k).toNat = 2 ^ (2 * m + 1 + k).toNat)) ∧
      let sign := if p = true then 2 ^ 5 else 0
      (m < 1 → r = (0, fUF ||| fNX)) ∧ (31 < m → r = (sign + 31, fOF ||| fNX)) ∧
      (1 ≤ m → m ≤ 31 → r.1 = sign + m.toNat ∧ (exact → r.2 = 0) ∧ (¬ exact → r.2 = fNX)))

/-- The class of the values of a lane: those of the class F types (R385). -/
def Sys2Proof.ClassF (ty : Ty) : Prop := ty ∈ [Ty.bf, .hf, .sf, .df]

/-- R398, R399: the lane-wise instructions. Class F lanes are as the scalar instructions give them; integer lanes are taken modulo 2^w, a
shift amount modulo w, a right shift copies the sign bit of signed types; bitwise lanes raise no flag. -/
def Obligations.VectorArithmetic : Prop :=
  ∀ (s : State) (u : Turn) (t : Thread) (gd : Guard) (d a c : VReg) (b : BOp) (ty : Ty) (rm : Rnd) (mk : Mask) (z : Bool),
    let w := ty.width
    let f := fmtOf ty
    let x := lane w (vr t a)
    let y := laneB t b ty
    let does := fun (i : Instr) (op : Nat → Nat × Nat) => Issues s u t i → LaneWise i s u t d ty mk z op
    (ClassF ty →
      does (.vadd gd d a b ty rm mk z) (fun j => fAdd f rm (x j) (y j)) ∧ does (.vsub gd d a b ty rm mk z) (fun j => fSub f rm (x j) (y j)) ∧
      does (.vmul gd d a b ty rm mk z) (fun j => fMul f rm (x j) (y j)) ∧
      does (.vfma gd d a b c ty rm mk z) (fun j => fFma f rm (x j) (y j) (lane w (vr t c) j)) ∧
      does (.vdiv gd d a b ty rm mk z) (fun j => fDiv f rm (x j) (y j)) ∧ does (.vsqrt gd d a ty rm mk z) (fun j => fSqrt f rm (x j)) ∧
      does (.vrsq gd d a ty rm mk z) (fun j => fRsq f rm (x j)) ∧ does (.vexp2 gd d a ty rm mk z) (fun j => fExp2 f rm (x j)) ∧
      does (.vlog2 gd d a ty rm mk z) (fun j => fLog2 f rm (x j)) ∧
      does (.vabs gd d a ty mk z) (fun j => if (unpack f (x j)).isNan = true
        then (canonNan f, if unpack f (x j) = .nan true then fNV else 0) else (x j % 2 ^ (w - 1), 0))) ∧
    (ty.isI = true →
      does (.vadd gd d a b ty rm mk z) (fun j => (x j + y j, 0)) ∧ does (.vsub gd d a b ty rm mk z) (fun j => (x j + (2 ^ w - y j), 0)) ∧
      does (.vmul gd d a b ty rm mk z) (fun j => (x j * y j, 0)) ∧
      does (.vmin gd d a b ty mk z) (fun j => (if intOf ty (x j) < intOf ty (y j) then x j else y j, 0)) ∧
      does (.vmax gd d a b ty mk z) (fun j => (if intOf ty (x j) < intOf ty (y j) then y j else x j, 0)) ∧
      does (.vabs gd d a ty mk z) (fun j => ((intOf ty (x j)).natAbs, 0)) ∧
      does (.vshl gd d a b ty mk z) (fun j => (x j * 2 ^ (y j % w), 0)) ∧
      does (.vshr gd d a b ty mk z) (fun j => ((intOf ty (x j) / 2 ^ (y j % w) % 2 ^ w).toNat, 0))) ∧
    does (.vand gd d a b ty mk z) (fun j => (x j &&& y j, 0)) ∧ does (.vor gd d a b ty mk z) (fun j => (x j ||| y j, 0)) ∧
    does (.vxor gd d a b ty mk z) (fun j => (x j ^^^ y j, 0))

/-- R396, R397: the lane moves: broadcast, permutation by lane numbers modulo n, selection by a mask, and one lane to or from a g
register. No move raises a flag. -/
def Sys2Proof.VectorMoves : Prop :=
  ∀ (s : State) (u : Turn) (t : Thread) (gd : Guard) (d a b : VReg) (gb ra rd : Reg) (bo : BOp) (c : VMsk) (ty : Ty) (mk : Mask)
      (z : Bool) (ln : BitVec 6),
    let w := ty.width
    let low := fun (x : Nat) => if ty = .lg then x % 2 ^ 6 else x
    (Issues s u t (.vbcast gd d gb ty mk z) →
      LaneWise (.vbcast gd d gb ty mk z) s u t d ty mk z fun _ => ((gr t gb).toNat % 2 ^ w, 0)) ∧
    (Issues s u t (.vperm gd d a b ty mk z) →
      LaneWise (.vperm gd d a b ty mk z) s u t d ty mk z fun j => (lane w (vr t a) (lane w (vr t b) j % ty.lanes), 0)) ∧
    (Issues s u t (.vsel gd d a bo c ty) → ∃ r, Retires (.vsel gd d a bo c ty) s u (·.putV d r) ∧
      ∀ j < ty.lanes, lane w r j = if (mr t c).getLsbD j = true then lane w (vr t a) j else laneB t bo ty j) ∧
    (Issues s u t (.vext gd rd a ty ln) → ∃ v : Word, Writes (.vext gd rd a ty ln) s u rd v ∧
      (ty.isSigned = false → v.toNat = low (lane w (vr t a) ln.toNat)) ∧
      (ty.isSigned = true → v.toInt = intOf ty (lane w (vr t a) ln.toNat))) ∧
    (Issues s u t (.vins gd d ra ty ln) → ln.toNat < ty.lanes → ∃ r, Retires (.vins gd d ra ty ln) s u (·.putV d r) ∧
      ∀ j < ty.lanes, lane w r j = if j = ln.toNat then low ((gr t ra).toNat % 2 ^ w) else lane w (vr t d) j)

/-- R400, R401: VCMP writes the bits of the active lanes for which its condition holds, and 0 to every other bit; VMLOG applies its truth
table bit by bit; VMPOP writes a mask or its population count. -/
def Sys2Proof.VectorMasks : Prop :=
  ∀ (s : State) (u : Turn) (t : Thread) (gd : Guard) (d vb : VMsk) (a : VReg) (b : BOp) (ra : BitVec 5) (rd : Reg) (ty : Ty)
      (fc : FCond) (mk : Mask) (table : BitVec 4) (isG raw : Bool),
    let x := lane ty.width (vr t a)
    let y := laneB t b ty
    (Issues s u t (.vcmp gd d a b ty fc mk) → ∃ m fl, Retires (.vcmp gd d a b ty fc mk) s u (fun t => (t.putM d m).orFlags fl) ∧
      (∀ j < 64, m.getLsbD j = true ↔ j < ty.lanes ∧ active t mk j = true ∧
        if ty.isF = true then (fCompare fc (fmtOf ty) (x j) (y j)).1 = true
        else match fc with
          | .eq => x j = y j
          | .ne => x j ≠ y j
          | .lt => intOf ty (x j) < intOf ty (y j)
          | .le => intOf ty (x j) ≤ intOf ty (y j)
          | .gt => intOf ty (y j) < intOf ty (x j)
          | .ge => intOf ty (y j) ≤ intOf ty (x j)
          | .un => False
          | .ord => True) ∧
      ∀ k, fl.testBit k = true ↔ ty.isF = true ∧ ∃ j < ty.lanes, active t mk j = true ∧
        (fCompare fc (fmtOf ty) (x j) (y j)).2.testBit k = true) ∧
    (Issues s u t (.vmlog gd d ra vb table isG) → ∃ m, Retires (.vmlog gd d ra vb table isG) s u (·.putM d m) ∧
      ∀ i < 64, m.getLsbD i = table.getLsbD
        ((if (if isG = true then gr t ra else mr t (ra.setWidth 2)).getLsbD i = true then 2 else 0) +
          if (mr t vb).getLsbD i = true then 1 else 0)) ∧
    (Issues s u t (.vmpop gd rd vb raw) → Writes (.vmpop gd rd vb raw) s u rd
      (if raw = true then mr t vb else BitVec.ofNat 64 ((List.range 64).countP fun i => (mr t vb).getLsbD i)))

/-- R396, R397, R400, R401: moves, selections and masks. -/
def Obligations.VectorMovesAndMasks : Prop := VectorMoves ∧ VectorMasks

/-- R402: VCVT converts each element as FCVT does; a narrowing writes n_s lanes of the part and keeps the others, a widening reads n_t
lanes of the part. -/
def Sys2Proof.VectorConversion : Prop :=
  ∀ (s : State) (u : Turn) (t : Thread) (gd : Guard) (d a : VReg) (tgt frm : Ty) (rm : Rnd) (sat : Bool) (part : BitVec 5),
    Issues s u t (.vcvt gd d a tgt frm rm sat part) →
    let ns := frm.lanes
    let nt := tgt.lanes
    let p := part.toNat
    let cvt := fun (j : Nat) => convert (lgTable s u.ep) tgt frm rm sat (lane frm.width (vr t a) j)
    p < max (tgt.width / frm.width) (frm.width / tgt.width) →
    ∃ (r : BitVec 512) (fl : Nat), Retires (.vcvt gd d a tgt frm rm sat part) s u (fun t => (t.putV d r).orFlags fl) ∧
      (tgt.width = frm.width → ∀ j < nt, lane tgt.width r j = (cvt j).1 % 2 ^ tgt.width) ∧
      (tgt.width < frm.width → ∀ j < nt, lane tgt.width r j =
        if p * ns ≤ j ∧ j < p * ns + ns then (cvt (j - p * ns)).1 % 2 ^ tgt.width else lane tgt.width (vr t d) j) ∧
      (frm.width < tgt.width → ∀ j < nt, lane tgt.width r j = (cvt (p * nt + j)).1 % 2 ^ tgt.width) ∧
      ∀ k, fl.testBit k = true ↔ ∃ j, (if frm.width < tgt.width then p * nt ≤ j ∧ j < p * nt + nt else j < ns) ∧
        (cvt j).2.testBit k = true

/-- R241, R242, R403, R404: VSCAN writes the running results in lane order, inactive lanes being the identity; VRED the tree's. A sum of
integer lanes is the sum of the active lanes modulo 2^w, and an .or has the bits of any active lane. -/
def Sys2Proof.VectorReductions : Prop :=
  ∀ (s : State) (u : Turn) (t : Thread) (gd : Guard) (d a : VReg) (rd : Reg) (op : BitVec 2) (ty : Ty) (rm : Rnd) (mk : Mask),
    let w := ty.width
    let x := fun (j : Nat) => if active t mk j = true then some (lane w (vr t a) j) else none
    (Issues s u t (.vscan gd d a op ty rm mk) → ∃ (y : Nat → Option Nat) (r : BitVec 512) (fl : Nat),
      Retires (.vscan gd d a op ty rm mk) s u (fun t => (t.putV d r).orFlags fl) ∧
      y 0 = x 0 ∧ (∀ j, j + 1 < ty.lanes → y (j + 1) = (redStep op ty rm (y j) (x (j + 1))).1) ∧
      (∀ j < ty.lanes, lane w r j = ((y j).getD (redIdentity op ty)) % 2 ^ w) ∧
      ∀ k, fl.testBit k = true ↔ ∃ j, j + 1 < ty.lanes ∧ (redStep op ty rm (y j) (x (j + 1))).2.testBit k = true) ∧
    (Issues s u t (.vred gd rd a op ty rm mk) → ∃ (v : Nat) (fl : Nat),
      Retires (.vred gd rd a op ty rm mk) s u (FResult rd ty (v, fl)) ∧
      (v, fl) = (fun r : Option Nat × Nat => (r.1.getD (redIdentity op ty), r.2)) (redTree op ty rm 6 ((List.range ty.lanes).map x)) ∧
      (ty.isI = true → fl = 0) ∧
      (ty.isI = true → op = 0 → v % 2 ^ w = (((List.range ty.lanes).map fun j => (x j).getD 0).sum) % 2 ^ w) ∧
      (ty.isI = true → op = 3 → ∀ k, v.testBit k = true ↔ ∃ j < ty.lanes, active t mk j = true ∧ (lane w (vr t a) j).testBit k = true))

/-- R405: BARQ adds, with one rounding each, the sixteen scaled elements of its part to the FP32 lanes of v[d], lane after lane; with
v[d] = v[a] each element is read from the register as the lanes before have left it. A set bit in 15:13 of an entry of its LG6 table
traps with cause 0x02. -/
def Sys2Proof.BlockAccumulate : Prop :=
  ∀ (s : State) (u : Turn) (t : Thread) (gd : Guard) (d a : VReg) (b : Reg) (part : BitVec 2) (ty : Ty) (mk : Mask) (z : Bool),
    Issues s u t (.barq gd d a b part ty mk z) →
    let tw := gr t (b + 1)
    let bad := ty = .lg ∧ ∃ i < 4, tw.toNat / 2 ^ (16 * i + 13) % 2 ^ 3 ≠ 0
    let entries := (List.range 4).map fun i => tw.toNat / 2 ^ (16 * i) % 2 ^ 13
    (bad → TakesTraps t → ∃ s', exec (.barq gd d a b part ty mk z) s = .next s' ∧ TrapTaken s u t 0x02 0 u.head.toNat t.pc s') ∧
    let sum := fun (v : BitVec 512) (j : Nat) =>
      packWith fmt32 .rne (fmaVal .rne (tyVal entries ty (lane 8 v (16 * part.toNat + j)))
        (unpack fmt32 ((gr t b).toNat % 2 ^ 32)) (unpack fmt32 (lane 32 (vr t d) j)))
    (¬ bad → d = a → ∃ v : Nat → BitVec 512, v 0 = vr t d ∧
      (∀ j < 16, ∀ i < 16, lane 32 (v (j + 1)) i = if i ≠ j then lane 32 (v j) i
        else if active t mk j = true then (sum (v j) j).1 % 2 ^ 32 else if z = true then 0 else lane 32 (vr t d) j) ∧
      LaneWise (.barq gd d a b part ty mk z) s u t d .sf mk z fun j => sum (v j) j) ∧
    (¬ bad → d ≠ a → LaneWise (.barq gd d a b part ty mk z) s u t d .sf mk z (sum (vr t a)))

/-- R402 to R405: VCVT, VSCAN, VRED and BARQ. -/
def Obligations.VectorFolds : Prop := VectorConversion ∧ VectorReductions ∧ BlockAccumulate

/-- A local access meets nothing that delays it: no region is open in its thread (R181), no earlier atomic of it is under way
(R140), its banks are granted (R46), no region entry (R189) and no uncorrected error (R48) lies on its words, and no JOIN watches a word of the core (R347). -/
structure Sys2Proof.Plain (s : State) (u : Turn) (t : Thread) (words : List Nat) : Prop where
  region : t.region = none
  ordered : localOut s u.ep t = false
  granted : u.lost = false
  errors : (s.core u.ep).upsets = []
  entries : ∀ w ∈ words, stackOf s u.ep w = []
  watches : (s.core u.ep).watches = []

/-- The scratchpad of the turn's core becomes `m`; nothing else changes, and the thread, changed by `f`, goes on. -/
def Sys2Proof.Stores (i : Instr) (s : State) (u : Turn) (m : Memory) : Prop :=
  exec i s = .next ((s.modCore u.ep fun c => { c with spad := m }).retire u id)

/-- R7, R10, R361, R364: the checks of a local address in their order, and the physical offset that it names. -/
def Sys2Proof.LocalAddressing : Prop :=
  ∀ (s : State) (e : EP) (t : Thread) (a : Word) (n : Nat), n ∈ [1, 2, 4, 8, 16, 64, 1024] →
    let off := a.toNat % 2 ^ 21
    let phys := t.sr.lbase.toNat * 2 ^ 10 + off
    let info := if n < 16 then n else 0
    let outside := 2 ^ 21 ≤ a.toNat ∨ t.sr.lsize.toNat * 2 ^ 10 < off + n ∨ spadSize e < phys + n
    (outside → checkLocal s e t a n = .error ⟨0x07, a, info⟩) ∧
    (¬ outside → phys < xbBytes (s.core e) → checkLocal s e t a n = .error ⟨0x05, a, 1⟩) ∧
    (¬ outside → xbBytes (s.core e) ≤ phys → checkLocal s e t a n = .ok phys) ∧
    (checkAligned a n = .ok () ↔ n ∣ a.toNat) ∧ (¬ n ∣ a.toNat → checkAligned a n = .error ⟨0x08, a, info⟩)

/-- R364, R51, R2: LD and LDX read 1, 2, 4 or 8 bytes little-endian, zero- or sign-extended, from a granule that is empty or full. -/
def Sys2Proof.LocalLoads : Prop :=
  ∀ (s : State) (u : Turn) (t : Thread) (gd : Guard) (d a b : Reg) (sz sh : BitVec 2) (sgn : Bool) (imm : BitVec 32) (phys : Nat),
    let n := 2 ^ sz.toNat
    let reads := fun (i : Instr) (ea : Word) =>
      Issues s u t i → Plain s u t (wordsOf phys n) → checkLocal s u.ep t ea n = .ok phys → n ∣ ea.toNat →
      anyOchre s u.ep phys n = false →
        ∃ v : Word, Writes i s u d v ∧ ∀ k < 64, v.getLsbD k =
          if k < 8 * n then (mget (s.core u.ep).spad (phys + k / 8)).getLsbD (k % 8)
          else (sgn && (mget (s.core u.ep).spad (phys + n - 1)).getLsbD 7)
    reads (.ld gd d a sz sgn imm) (gr t a + imm.signExtend 64) ∧ reads (.ldx gd d a b sz sgn sh) (gr t a + (gr t b <<< sh.toNat))

/-- R364, R2: ST and STX write the low 1, 2, 4 or 8 bytes of g[d] little-endian, and no other byte. -/
def Sys2Proof.LocalStores : Prop :=
  ∀ (s : State) (u : Turn) (t : Thread) (gd : Guard) (d a b : Reg) (sz sh : BitVec 2) (imm : BitVec 32) (phys : Nat),
    let n := 2 ^ sz.toNat
    let writes := fun (i : Instr) (ea : Word) =>
      Issues s u t i → Plain s u t (wordsOf phys n) → checkLocal s u.ep t ea n = .ok phys → n ∣ ea.toNat →
        ∃ m, Stores i s u m ∧ (Memory.wf (s.core u.ep).spad = true → Memory.wf m = true ∧
          ∀ k, mget m k = if phys ≤ k ∧ k < phys + n then (gr t d).extractLsb' (8 * (k - phys)) 8 else mget (s.core u.ep).spad k)
    writes (.st gd d a sz imm) (gr t a + imm.signExtend 64) ∧ writes (.stx gd d a b sz sh) (gr t a + (gr t b <<< sh.toNat))

/-- R364: LD, LDX, ST and STX. -/
def Obligations.LocalAccesses : Prop := LocalLoads ∧ LocalStores

/-- R361, R364, R48, R51: where a local load or store traps: its address fails a check, it is misaligned, or a load meets an ochre granule. -/
def Sys2Proof.LocalAccessTraps : Prop :=
  ∀ (s : State) (u : Turn) (t : Thread) (gd : Guard) (d a b : Reg) (sz sh : BitVec 2) (sgn : Bool) (imm : BitVec 32) (phys : Nat) (x : Trap),
    let n := 2 ^ sz.toNat
    let traps := fun (i : Instr) (ea : Word) (load : Bool) =>
      Issues s u t i → TakesTraps t →
        (checkLocal s u.ep t ea n = .error x → ∃ s', exec i s = .next s' ∧ TrapTaken s u t x.cause x.addr x.info t.pc s') ∧
        (checkLocal s u.ep t ea n = .ok phys → ¬ n ∣ ea.toNat →
          ∃ s', exec i s = .next s' ∧ TrapTaken s u t 0x08 ea n t.pc s') ∧
        (load = true → checkLocal s u.ep t ea n = .ok phys → n ∣ ea.toNat → Plain s u t (wordsOf phys n) →
          anyOchre s u.ep phys n = true → rectOf s u.ep = none → ∃ s', exec i s = .next s' ∧ TrapTaken s u t 0x14 ea 0 t.pc s')
    traps (.ld gd d a sz sgn imm) (gr t a + imm.signExtend 64) true ∧ traps (.st gd d a sz imm) (gr t a + imm.signExtend 64) false ∧
    traps (.ldx gd d a b sz sgn sh) (gr t a + (gr t b <<< sh.toNat)) true ∧
    traps (.stx gd d a b sz sh) (gr t a + (gr t b <<< sh.toNat)) false

/-- R7, R10, R361, R364: the checks of a local access and its traps. -/
def Obligations.LocalAccessChecks : Prop := LocalAddressing ∧ LocalAccessTraps

/-- R393, R386: VLD reads the active lanes of 64 consecutive bytes, the other lanes kept or written 0; VST writes the active lanes, and no
other byte. The address is a multiple of 8. -/
def Sys2Proof.VectorRows : Prop :=
  ∀ (s : State) (u : Turn) (t : Thread) (gd : Guard) (d : VReg) (a : Reg) (esz : BitVec 2) (mk : Mask) (z : Bool) (imm : BitVec 32)
      (phys : Nat),
    let n := 2 ^ esz.toNat
    let ea := gr t a + imm.signExtend 64
    checkLocal s u.ep t ea 64 = .ok phys → 8 ∣ ea.toNat → Plain s u t (wordsOf phys 64) →
    (Issues s u t (.vld gd d a esz mk z imm) → anyOchre s u.ep phys 64 = false →
      ∃ r, Retires (.vld gd d a esz mk z imm) s u (·.putV d r) ∧ ∀ j < 64 / n, lane (8 * n) r j =
        if active t mk j = true then mread (s.core u.ep).spad (phys + n * j) n else if z = true then 0 else lane (8 * n) (vr t d) j) ∧
    (Issues s u t (.vst gd d a esz mk imm) →
      ∃ m, Stores (.vst gd d a esz mk imm) s u m ∧ (Memory.wf (s.core u.ep).spad = true → Memory.wf m = true ∧ ∀ k, mget m k =
        if phys ≤ k ∧ k < phys + 64 ∧ active t mk ((k - phys) / n) = true then (vr t d).extractLsb' (8 * (k - phys)) 8
        else mget (s.core u.ep).spad k))

/-- R394, R47: an access with a stride whose elements pass the checks and need at most four passes completes in its turn: VLDS reads each
active element, VSTS writes them in ascending lane order, and no other byte. -/
def Sys2Proof.VectorStrides : Prop :=
  ∀ (s : State) (u : Turn) (t : Thread) (gd : Guard) (d : VReg) (a b : Reg) (ty : Ty) (mk : Mask) (z : Bool) (l : List Elem),
    let n := ty.width / 8
    strideElems s u.ep t a b n mk = .ok l → passCount (elemWords l) ≤ 4 → t.passes = 0 →
    Plain s u t (l.flatMap fun x => wordsOf x.2.2 n) →
    (Issues s u t (.vlds gd d a b ty mk z) → (∀ x ∈ l, anyOchre s u.ep x.2.2 n = false) →
      ∃ r, Retires (.vlds gd d a b ty mk z) s u (·.putV d r) ∧ ∀ j < ty.lanes, lane ty.width r j =
        if active t mk j = true
        then mread (s.core u.ep).spad (t.sr.lbase.toNat * 2 ^ 10 + (gr t a + BitVec.ofNat 64 j * gr t b).toNat) n
        else if z = true then 0 else lane ty.width (vr t d) j) ∧
    (Issues s u t (.vsts gd d a b ty mk) →
      ∃ m, Stores (.vsts gd d a b ty mk) s u m ∧ (Memory.wf (s.core u.ep).spad = true → Memory.wf m = true ∧
        (∀ k, (∀ x ∈ l, ¬ (x.2.2 ≤ k ∧ k < x.2.2 + n)) → mget m k = mget (s.core u.ep).spad k) ∧
        ∀ x ∈ l, (∀ y ∈ l, x.1 < y.1 → y.2.2 + n ≤ x.2.2 ∨ x.2.2 + n ≤ y.2.2) → mread m x.2.2 n = lane ty.width (vr t d) x.1))

/-- R393, R394: VLD, VST, VLDS and VSTS. -/
def Obligations.VectorAccesses : Prop := VectorRows ∧ VectorStrides

/-- A plain access has left and its thread is parked (R107, R286, R363): one packet more in flight, to `dst`, with the requester, the carried
instant and handle and `body`; the thread keeps its registers and its PC, waits for the reason `why` and continues at the next head; no
memory has changed. -/
def Sys2Proof.Asks (i : Instr) (s : State) (u : Turn) (t : Thread) (dst ebit : Nat) (body : Body) (why : Wait) (d : Reg) : Prop :=
  ∃ (s' : State) (p : Pkt) (t' : Thread) (k : Park), exec i s = .next s' ∧ s'.net = s.net ++ [p] ∧ p.src = u.ep ∧ p.dst = dst ∧
    p.body = body ∧ p.stage = (if epPkg u.ep = epPkg dst then .arrived else .egress) ∧ p.carry = ⟨t.sr.inst, t.sr.hnd, epPkg u.ep⟩ ∧
    p.req.ep = u.ep ∧ p.req.slot = u.slot ∧ p.req.uid = t.uid ∧ p.req.ctx = t.ctx ∧ p.req.ebit = ebit ∧ p.req.entry = 16 + 32 * k.ser ∧
    s'.thr? u.ep u.slot = some t' ∧ t'.park = some k ∧ k.why = why ∧ k.dst = d ∧ k.next = u.next ∧ t'.regs = t.regs ∧ t'.pc = t.pc ∧
    t'.sr = t.sr ∧ t'.cnt = t.cnt ∧ s'.turn = none ∧ s'.dram = s.dram ∧ ∀ e, (s'.core e).spad = (s.core e).spad

/-- A relaxed access has left and its thread goes on (R115, R117): LDC or STC has risen, a scoreboard entry of its kind is in state sent and
holds the destination register, no register has changed and no memory. -/
def Sys2Proof.SendsRelaxed (i : Instr) (s : State) (u : Turn) (t : Thread) (dst ebit : Nat) (body : Body) (load : Bool) (kind path : Nat)
    (d : Reg) : Prop :=
  ∃ (s' : State) (p : Pkt) (t' : Thread) (n : Nat), exec i s = .next s' ∧ s'.net = s.net ++ [p] ∧ p.src = u.ep ∧ p.dst = dst ∧
    p.body = body ∧ p.carry = ⟨t.sr.inst, t.sr.hnd, epPkg u.ep⟩ ∧ p.req.ep = u.ep ∧ p.req.slot = u.slot ∧ p.req.uid = t.uid ∧
    p.req.ctx = t.ctx ∧ p.req.ebit = ebit ∧ p.req.entry = n ∧ (if load = true then n < 8 else 8 ≤ n ∧ n < 16) ∧
    s'.thr? u.ep u.slot = some t' ∧ t'.pc = u.next ∧ t'.park = none ∧ t'.regs = t.regs ∧ t'.sr = t.sr ∧
    t'.cnt = (if load = true then { t.cnt with ldc := t.cnt.ldc + 1 } else { t.cnt with stc := t.cnt.stc + 1 }) ∧
    t'.sbAt n = ⟨.sent, kind, path, d, t.pc, false⟩ ∧ s'.turn = none ∧ s'.dram = s.dram ∧ ∀ e, (s'.core e).spad = (s.core e).spad

/-- R365, R115, R14: LDF and STF outside a region send an access to the owner that the fabric address names. A relaxed one at its counter's
limit issues later. -/
def Sys2Proof.FabricLoadsAndStores : Prop :=
  ∀ (s : State) (u : Turn) (t : Thread) (gd : Guard) (d a : Reg) (sz : BitVec 2) (sgn : Bool) (imm : BitVec 32) (r : Route),
    let n := 2 ^ sz.toNat
    let ea := gr t a + imm.signExtend 64
    t.region = none → bridgeRoute s u.ep t ea = none → checkFabric s u.ep t ea n 0x13 = .ok r → n ∣ ea.toNat →
    let loads : Body := .access r.vcore r.off r.phys (.load n sgn) none false false
    let stores : Body := .access r.vcore r.off r.phys (.store n (gr t d).toNat) none false false
    (Issues s u t (.ldf gd d a sz sgn false imm) → Asks (.ldf gd d a sz sgn false imm) s u t r.dst r.ebit loads .answer d) ∧
    (Issues s u t (.stf gd d a sz false imm) → Asks (.stf gd d a sz false imm) s u t r.dst r.ebit stores .answer 0) ∧
    (Issues s u t (.ldf gd d a sz sgn true imm) → t.cnt.ldc < 8 → SendsRelaxed (.ldf gd d a sz sgn true imm) s u t r.dst r.ebit
      (.access r.vcore r.off r.phys (.load n sgn) none true false) true 0 0 d) ∧
    (Issues s u t (.stf gd d a sz true imm) → t.cnt.stc < 8 → SendsRelaxed (.stf gd d a sz true imm) s u t r.dst r.ebit
      (.access r.vcore r.off r.phys (.store n (gr t d).toNat) none true false) false 2 0 0) ∧
    (Issues s u t (.ldf gd d a sz sgn true imm) → 8 ≤ t.cnt.ldc → exec (.ldf gd d a sz sgn true imm) s = .next (s.waitEver u .ldcRoom)) ∧
    (Issues s u t (.stf gd d a sz true imm) → 8 ≤ t.cnt.stc → exec (.stf gd d a sz true imm) s = .next (s.waitEver u .stcRoom))

/-- R470, R365: an LDF or STF whose fabric address names the own package's management window asks the bridge, with the issuer's standing as a
supervisor of the whole package. -/
def Sys2Proof.WindowAccesses : Prop :=
  ∀ (s : State) (u : Turn) (t : Thread) (gd : Guard) (d a : Reg) (sz : BitVec 2) (sgn : Bool) (imm : BitVec 32) (off eb : Nat),
    let n := 2 ^ sz.toNat
    let ea := gr t a + imm.signExtend 64
    t.region = none → bridgeRoute s u.ep t ea = some (off, eb) → n ∣ ea.toNat →
    let tgt := bridgeEp (epPkg u.ep)
    (Issues s u t (.ldf gd d a sz sgn false imm) →
      Asks (.ldf gd d a sz sgn false imm) s u t tgt eb (.window off (.load n sgn) (isSystem s u.ep t)) .answer d) ∧
    (Issues s u t (.stf gd d a sz false imm) →
      Asks (.stf gd d a sz false imm) s u t tgt eb (.window off (.store n (gr t d).toNat) (isSystem s u.ep t)) .answer 0)

/-- R14, R115, R365, R470: LDF and STF. -/
def Obligations.FabricAccesses : Prop := FabricLoadsAndStores ∧ WindowAccesses

/-- R370, R172, R174: AMO, CAS and RED ask the atomic unit of the word's home, the own core's for a local operand: AMO plainly or relaxed for
the old value, RED always relaxed and for none. CAS ignores the operation field. -/
def Sys2Proof.ScratchpadAtomics : Prop :=
  ∀ (s : State) (u : Turn) (t : Thread) (gd : Guard) (d a b c : Reg) (op : BitVec 4) (dbl : Bool) (dst ebit : Nat)
      (body : Access → Bool → Body),
    let n := if dbl = true then 8 else 4
    let ea := gr t a
    t.region = none → n ∣ ea.toNat →
    ((∃ r, checkPlace s u.ep t ea n 0x13 = .ok (.fabric r) ∧ dst = r.dst ∧ ebit = r.ebit ∧
        body = fun acc rlx => .access r.vcore r.off r.phys acc none rlx false) ∨
      (∃ phys, checkPlace s u.ep t ea n 0x13 = .ok (.local_ phys) ∧ dst = u.ep ∧
        ebit = ((peerOf s (epPkg u.ep) t.sr.peermap 0).map (·.2)).getD 0 ∧
        body = fun acc rlx => .access none 0 (some phys) acc none rlx true)) →
    let amo : Access := .atom op.toNat dbl (gr t b) 0 true
    let cas : Access := .atom 15 dbl (gr t c) (gr t b) true
    let red : Access := .atom op.toNat dbl (gr t b) 0 false
    (Issues s u t (.amo gd d a b op dbl false) → Asks (.amo gd d a b op dbl false) s u t dst ebit (body amo false) .answer d) ∧
    (Issues s u t (.cas gd d a b c op dbl false) → Asks (.cas gd d a b c op dbl false) s u t dst ebit (body cas false) .answer d) ∧
    (Issues s u t (.amo gd d a b op dbl true) → t.cnt.ldc < 8 →
      SendsRelaxed (.amo gd d a b op dbl true) s u t dst ebit (body amo true) true 1 0 d) ∧
    (Issues s u t (.cas gd d a b c op dbl true) → t.cnt.ldc < 8 →
      SendsRelaxed (.cas gd d a b c op dbl true) s u t dst ebit (body cas true) true 1 0 d) ∧
    (Issues s u t (.red gd a b op dbl) → t.cnt.stc < 8 → SendsRelaxed (.red gd a b op dbl) s u t dst ebit (body red true) false 3 4 0)

/-- R174, R175, R176: what an atomic stores for each operation code: integers modulo 2^w, .w reading the low 32 bits of its operand. -/
def Sys2Proof.AtomicOperations : Prop :=
  ∀ (dbl : Bool) (old v cmp : Nat),
    let w := if dbl = true then 64 else 32
    let x := v % 2 ^ w
    let new := fun (op : Nat) => atomNew op dbl old v cmp
    old < 2 ^ w →
    new 0 = ((old + x) % 2 ^ w, 0) ∧ new 1 = (old &&& x, 0) ∧ new 2 = (old ||| x, 0) ∧ new 3 = (old ^^^ x, 0) ∧
    (∃ r, new 4 = (r, 0) ∧ (r = old ∨ r = x) ∧ signed w r = min (signed w old) (signed w x)) ∧
    (∃ r, new 5 = (r, 0) ∧ (r = old ∨ r = x) ∧ signed w r = max (signed w old) (signed w x)) ∧
    new 6 = (min old x, 0) ∧ new 7 = (max old x, 0) ∧ new 8 = (x, 0) ∧
    new 9 = fAdd (if dbl = true then fmt64 else fmt32) .rne old x ∧ new 15 = (if old = cmp % 2 ^ w then x else old, 0)

/-- R172, R174 to R176, R370: AMO, CAS and RED. -/
def Obligations.Atomics : Prop := ScratchpadAtomics ∧ AtomicOperations

/-- R51, R53, R54, R366: a local TAKE or PEEK of a full granule, or a PUT on an empty or ochre one, ends in its turn with p7 = 1 where nobody
waits there, whatever the write queues hold (R137): TAKE empties the granule, PEEK leaves it, PUT writes its bytes (an ochre granule's others become 0) and fills it. -/
def Sys2Proof.LocalFullEmpty : Prop :=
  ∀ (s : State) (u : Turn) (t : Thread) (gd : Guard) (d a b : Reg) (sz : BitVec 3) (sgn : Bool) (phys : Nat),
    let n := 2 ^ sz.toNat
    let c := s.core u.ep
    sz.toNat ≤ 4 → checkPlace s u.ep t (gr t a) n 0x13 = .ok (.local_ phys) → n ∣ (gr t a).toNat → Plain s u t (wordsOf phys n) →
    c.dtl = [] → c.overflow = [] → (s.cluster (clusterKey u.ep)).frames = [] →
    locate s u.ep t.uid = .slot u.slot → t.origin = none → t.park = none →
    let ends := fun (i : Instr) (f : Thread → Thread) (m : Memory) (st : GState) =>
      ∃ s' t', exec i s = .next s' ∧ s'.thr? u.ep u.slot = some t' ∧ t'.regs = (f t).regs ∧ t'.sr = t.sr ∧ t'.pc = u.next ∧ t'.park = none ∧
        (s'.core u.ep).spad = m ∧ granAt s' u.ep phys = st ∧ (∀ x, x / 16 ≠ phys / 16 → granAt s' u.ep x = granAt s u.ep x) ∧
        s'.net = s.net ∧ s'.dram = s.dram ∧ ∀ e ≠ u.ep, s'.core e = s.core e
    let loaded := fun (t : Thread) => (t.putWide d n (extend n sgn (mread c.spad phys n))).p7 true
    (Issues s u t (.take gd d a b sz sgn) → granAt s u.ep phys = .full → ends (.take gd d a b sz sgn) loaded c.spad .empty) ∧
    (Issues s u t (.peek gd d a b sz sgn) → granAt s u.ep phys = .full → ends (.peek gd d a b sz sgn) loaded c.spad .full) ∧
    (Issues s u t (.put gd d a b sz) → drainedMask s u.ep t 0x19 0 = true → granAt s u.ep phys = .empty →
      ends (.put gd d a b sz) (·.p7 true) (mwrite c.spad phys n (wideReg t d n)) .full) ∧
    (Issues s u t (.put gd d a b sz) → drainedMask s u.ep t 0x19 0 = true → granAt s u.ep phys = .ochre →
      ends (.put gd d a b sz) (·.p7 true) (mwrite (mwrite c.spad (phys / 16 * 16) 16 0) phys n (wideReg t d n)) .full)

/-- R366, R147, R367: a TAKE, PEEK or PUT on another core goes to the owner and its thread parks; a PUT only once CORE, UPD and MIGR are
drained. -/
def Sys2Proof.FabricFullEmpty : Prop :=
  ∀ (s : State) (u : Turn) (t : Thread) (gd : Guard) (d a b : Reg) (sz : BitVec 3) (sgn : Bool) (r : Route),
    let n := 2 ^ sz.toNat
    checkPlace s u.ep t (gr t a) n 0x13 = .ok (.fabric r) → n ∣ (gr t a).toNat → t.region = none → t.park = none →
    let body := fun (acc : Access) => Body.access r.vcore r.off r.phys acc none false false
    (Issues s u t (.take gd d a b sz sgn) →
      Asks (.take gd d a b sz sgn) s u t r.dst r.ebit (body (.take n sgn (gr t b))) .fullEmpty d) ∧
    (Issues s u t (.peek gd d a b sz sgn) →
      Asks (.peek gd d a b sz sgn) s u t r.dst r.ebit (body (.peek n sgn (gr t b))) .fullEmpty d) ∧
    (Issues s u t (.put gd d a b sz) → drainedMask s u.ep t 0x19 0 = true →
      Asks (.put gd d a b sz) s u t r.dst r.ebit (body (.put n (wideReg t d n) (gr t b))) .fullEmpty 0) ∧
    (Issues s u t (.put gd d a b sz) → drainedMask s u.ep t 0x19 0 = false → gr t b = 0 →
      exec (.put gd d a b sz) s = .next (s.retire u (·.p7 false)))

/-- R51, R53, R54, R147, R366, R367: TAKE, PEEK and PUT. -/
def Obligations.FullEmptyAccesses : Prop := LocalFullEmpty ∧ FabricFullEmpty

/-- R52, R368, R369: FESET sets the states of the granules that its mask names in the 1 KiB block that holds the address, FEGET reads the
full or the ochre ones as a bitmap; no byte changes. A block on another core is asked of its owner. -/
def Obligations.BlockStates : Prop :=
  ∀ (s : State) (u : Turn) (t : Thread) (gd : Guard) (d a b : Reg) (st : BitVec 2) (o : Bool) (phys : Nat) (r : Route),
    let base : Word := BitVec.ofNat 64 ((gr t a).toNat / 2 ^ 10 * 2 ^ 10)
    let blk := phys / 2 ^ 10 * 2 ^ 10
    t.region = none →
    (checkPlace s u.ep t base 1024 0x13 = .ok (.local_ phys) → Plain s u t (wordsOf phys 1024) → (s.core u.ep).dtl = [] →
      (s.core u.ep).overflow = [] →
      (Issues s u t (.feset gd a b st) → ∃ s', exec (.feset gd a b st) s = .next s' ∧ (s'.core u.ep).spad = (s.core u.ep).spad ∧
        s'.thr? u.ep u.slot = some (t.goTo u.next) ∧ s'.net = s.net ∧
        (∀ i < 64, granAt s' u.ep (blk + 16 * i) = if (gr t b).getLsbD i = true
          then (match st.toNat with | 0 => GState.empty | 1 => GState.full | _ => GState.ochre) else granAt s u.ep (blk + 16 * i)) ∧
        ∀ x, x / 2 ^ 10 ≠ phys / 2 ^ 10 → granAt s' u.ep x = granAt s u.ep x) ∧
      (Issues s u t (.feget gd d a o) → ∃ v, Writes (.feget gd d a o) s u d v ∧
        ∀ i < 64, v.getLsbD i = decide (granAt s u.ep (blk + 16 * i) = if o = true then .ochre else .full))) ∧
    (checkPlace s u.ep t base 1024 0x13 = .ok (.fabric r) →
      (Issues s u t (.feset gd a b st) → Asks (.feset gd a b st) s u t r.dst r.ebit
        (.access r.vcore r.off r.phys (.feset (gr t b) st.toNat) none false false) .answer 0) ∧
      (Issues s u t (.feget gd d a o) → Asks (.feget gd d a o) s u t r.dst r.ebit
        (.access r.vcore r.off r.phys (.feget o) none false false) .answer d))

/-- A wait has a time left: the timeout is all ones (no end), or not 0 (R260). -/
def Sys2Proof.Waits (i : Instr) (s : State) (u : Turn) (t : Thread) (c : Until) : Prop :=
  ∃ (s' : State) (t' : Thread) (k : Park), exec i s = .next s' ∧ s'.thr? u.ep u.slot = some t' ∧ t'.park = some k ∧ k.why = .again c ∧
    t'.regs = t.regs ∧ t'.sr = t.sr ∧ t'.pc = t.pc ∧ s'.net = s.net ∧ s'.turn = none

/-- R144: FENCE waits until the paths of its mask are drained; then it writes the sticky bits to g[d], clears them and sets p7 = 1. With its
timeout expired first (it is 0, or the wait that the thread began has reached its end) it sets p7 = 0 and leaves g[d] and the bits. A
migrant's bits are those of its origin slot (R377). -/
def Obligations.FenceInstruction : Prop :=
  ∀ (s : State) (u : Turn) (t : Thread) (gd : Guard) (d a : Reg) (mask : BitVec 8), Issues s u t (.fence gd d a mask) →
    let begun := match t.park.bind fun k => match k.why with
        | .again (.drained _ m) => some m
        | _ => none with
      | some m => m
      | none => (s.pkg (epPkg u.ep)).hostWrites
    let drained := drainedMask s u.ep t mask begun
    let isOver := match t.park.filter (·.why.own) with
      | some k => ∃ n, k.limit = some n ∧ n < (s.core u.ep).cycle
      | none => gr t a = 0
    (drained = true → t.origin = none → Retires (.fence gd d a mask) s u fun t =>
      ({ t with sr := { t.sr with sticky := 0 } }.putG d t.sr.sticky).p7 true) ∧
    (drained = true → t.park = none → ∀ o, t.origin = some o → Asks (.fence gd d a mask) s u t o.ep 0 (.sticky d) .fullEmpty d) ∧
    (drained = false → isOver → Retires (.fence gd d a mask) s u (·.p7 false)) ∧
    (drained = false → ¬ isOver → Waits (.fence gd d a mask) s u t (.drained mask begun))

/-- R142, R371: WAITC sets p7 = 1 when every counter stands at or below its limit; with timeout 0 it sets p7 = 0, else it waits. -/
def Sys2Proof.WaitForCounters : Prop :=
  ∀ (s : State) (u : Turn) (t : Thread) (gd : Guard) (a : Reg) (imm : BitVec 32), t.park = none → Issues s u t (.waitc gd a imm) →
    let lim := fun k => imm.toNat / 2 ^ (8 * k) % 2 ^ 8
    let holds := t.cnt.ldc ≤ lim 0 ∧ t.cnt.stc ≤ lim 1 ∧ t.cnt.cpc ≤ lim 2 ∧ t.cnt.tlc ≤ lim 3
    (holds → Retires (.waitc gd a imm) s u (·.p7 true)) ∧
    (¬ holds → gr t a = 0 → Retires (.waitc gd a imm) s u (·.p7 false)) ∧
    (¬ holds → gr t a ≠ 0 → Waits (.waitc gd a imm) s u t (.counters (lim 0) (lim 1) (lim 2) (lim 3)))

/-- R145, R373, R485: an XFENCE with nothing to wait for sets p7 = 1 at once; with timeout 0 and something to wait for p7 = 0; else it is
pending and the thread goes on. -/
def Sys2Proof.CrossFence : Prop :=
  ∀ (s : State) (u : Turn) (t : Thread) (gd : Guard) (a : Reg) (frm tgt : BitVec 8), Issues s u t (.xfence gd a frm tgt) →
    let host := (s.pkg (epPkg u.ep)).hostWrites
    let done := drainedMask s u.ep t frm host = true ∧
      (frm &&& 0xC2 ≠ 0 → ∀ q ∈ (s.core u.ep).destQ, (s.core u.ep).destNum ≤ q.num) ∧
      (frm &&& 0x04 ≠ 0 → ∀ q ∈ (s.core u.ep).tileQ, (s.core u.ep).tileNum ≤ q.num)
    (frm = 0 ∨ done → Retires (.xfence gd a frm tgt) s u (·.p7 true)) ∧
    (frm ≠ 0 → ¬ done → gr t a = 0 → Retires (.xfence gd a frm tgt) s u (·.p7 false)) ∧
    (frm ≠ 0 → ¬ done → gr t a ≠ 0 → ∃ s' t' x, exec (.xfence gd a frm tgt) s = .next s' ∧ s'.thr? u.ep u.slot = some t' ∧
      t'.xf = some x ∧ x.frm = frm ∧ x.tgt = tgt ∧ x.pc = t.pc ∧ t'.regs = t.regs ∧ t'.pc = u.next ∧ t'.park = none)

/-- R142, R145, R371, R373, R485: WAITC and XFENCE. -/
def Obligations.CounterWaitsAndCrossFence : Prop := WaitForCounters ∧ CrossFence

/-- R57, R58, R59, R381: the tag table. TLOOK gives the entry's local slot, F and D, or all ones; TINS overwrites the context's entry of the
key, or takes a free place, or sets p7 = 0; TDEL removes the context's entry of a key, or with .c all of a context. -/
def Obligations.TagTable : Prop :=
  ∀ (s : State) (u : Turn) (t : Thread) (gd : Guard) (d a b : Reg) (fill dirty : Bool),
    let tags := (s.core u.ep).tags
    let key : BitVec 46 := (gr t a).extractLsb' 10 46
    let mine := fun (x : TagEntry) => x.ctx = t.ctx ∧ x.key = key
    let base := t.sr.lbase.toNat
    let sets := fun (i : Instr) (l : List TagEntry) (p : Bool) =>
      exec i s = .next ((s.modCore u.ep fun c => { c with tags := l }).retire u (·.p7 p))
    (Issues s u t (.tlook gd d a) → ∃ w, Writes (.tlook gd d a) s u d w ∧
      (∀ x, tags.find? (fun x => decide (mine x)) = some x → base ≤ x.slot → x.slot < base + t.sr.lsize.toNat →
        w.toNat = (x.slot - base + x.f.toNat * 2 ^ 12 + x.d.toNat * 2 ^ 13) % 2 ^ 64) ∧
      (∀ x, tags.find? (fun x => decide (mine x)) = some x → ¬ (base ≤ x.slot ∧ x.slot < base + t.sr.lsize.toNat) → w = -1) ∧
      ((∀ x ∈ tags, ¬ mine x) → w = -1)) ∧
    (Issues s u t (.tins gd a b fill dirty) → t.sr.lsize.toNat ≤ (gr t b).toNat → TakesTraps t →
      ∃ s', exec (.tins gd a b fill dirty) s = .next s' ∧ TrapTaken s u t 0x07 (gr t b) 0 t.pc s') ∧
    (Issues s u t (.tins gd a b fill dirty) → (gr t b).toNat < t.sr.lsize.toNat →
      let new : TagEntry := ⟨t.ctx, key, (gr t b).toNat + base, fill, dirty⟩
      ((∃ x ∈ tags, mine x) → sets (.tins gd a b fill dirty) (tags.map fun x => if mine x then new else x) true) ∧
      ((∀ x ∈ tags, ¬ mine x) → tags.length < 512 → sets (.tins gd a b fill dirty) (tags ++ [new]) true) ∧
      ((∀ x ∈ tags, ¬ mine x) → 512 ≤ tags.length → Retires (.tins gd a b fill dirty) s u (·.p7 false))) ∧
    (Issues s u t (.tdel gd a false) →
      sets (.tdel gd a false) (tags.filter fun x => !decide (mine x)) (tags.any fun x => decide (mine x))) ∧
    (Issues s u t (.tdel gd a true) → t.sup = true → (gr t a).setWidth 12 = t.ctx →
      sets (.tdel gd a true) (tags.filter fun x => !decide (x.ctx = t.ctx)) (tags.any fun x => decide (x.ctx = t.ctx))) ∧
    (Issues s u t (.tdel gd a true) → t.sup = false → TakesTraps t →
      ∃ s', exec (.tdel gd a true) s = .next s' ∧ TrapTaken s u t 0x04 0 0x0CA t.pc s')

/-- A device-virtual operand is translated by the core's own TLB (R38): its entry, which becomes the most recently used one. -/
def Sys2Proof.Translated (s : State) (u : Turn) (t : Thread) (ea : Word) (x : TlbEntry) (s' : State) : Prop :=
  ∃ l, checkDv ea = .ok (ea.toNat % 2 ^ 56) ∧ tlbLook (s.core u.ep).tlb t.ctx (ea.toNat % 2 ^ 56) = some (x, l) ∧
    s' = s.modCore u.ep fun c => { c with tlb := l }

/-- The core's own TLB holds the page of a device-virtual operand (R37, R38). -/
def Sys2Proof.Mapped (s : State) (u : Turn) (t : Thread) (ea : Word) (x : TlbEntry) : Prop := ∃ s', Translated s u t ea x s'

/-- An access whose translation is at hand traps behind it (R37). -/
def Sys2Proof.TrapsMapped (i : Instr) (s : State) (u : Turn) (t : Thread) (ea : Word) (x : TlbEntry) (cause info : Nat) : Prop :=
  ∃ s0 s', Translated s u t ea x s0 ∧ exec i s = .next s' ∧ TrapTaken s0 u t cause ea info t.pc s'

/-- R86, R378, R379: MLD, MST and MAMO complete their turn where the page of their aligned operand is mapped with the rights they need and its
line is homed on the own memory core: they ask its line buffer. On another home they trap with cause 0x12; without RD or WR with cause 0x11.
A migrant that failed over to the mirror home is at home there (R375). -/
def Sys2Proof.HomeAccesses : Prop :=
  ∀ (s : State) (u : Turn) (t : Thread) (gd : Guard) (d a b c : Reg) (sz : BitVec 2) (sgn dbl : Bool) (op : BitVec 4) (imm : BitVec 32)
      (x : TlbEntry) (ea : Word),
    let va := ea.toNat % 2 ^ 56
    let tgt := dramTarget s (t.homesOf s u.ep x va) x va
    let home := tgt.1
    let pa := tgt.2.1
    let body := fun (acc : Access) (rlx : Bool) => Body.dram pa acc none rlx tgt.2.2.1 tgt.2.2.2
    let eb := (ebitOf s (epPkg u.ep) t.sr.peermap (paPkg pa)).getD 0
    let n := 2 ^ sz.toNat
    let w := if dbl = true then 8 else 4
    let atom : Access := if op = 15 then .atom 15 dbl (gr t c) (gr t b) true else .atom op.toNat dbl (gr t b) 0 true
    t.region = none → Mapped s u t ea x →
    (Issues s u t (.mld gd d a sz sgn imm) → ea = gr t a + imm.signExtend 64 → n ∣ ea.toNat →
      (x.rd = true → home = u.ep → Asks (.mld gd d a sz sgn imm) s u t u.ep eb (body (.load n sgn) false) .answer d) ∧
      (x.rd = true → home ≠ u.ep → TakesTraps t → TrapsMapped (.mld gd d a sz sgn imm) s u t ea x 0x12 (channelOf (x.addr va))) ∧
      (x.rd = false → TakesTraps t → TrapsMapped (.mld gd d a sz sgn imm) s u t ea x 0x11 1)) ∧
    (Issues s u t (.mst gd d a sz imm) → ea = gr t a + imm.signExtend 64 → n ∣ ea.toNat →
      (x.wr = true → home = u.ep →
        Asks (.mst gd d a sz imm) s u t u.ep eb (body (.store n (gr t d).toNat) false) .answer 0) ∧
      (x.wr = true → home ≠ u.ep → TakesTraps t → TrapsMapped (.mst gd d a sz imm) s u t ea x 0x12 (channelOf (x.addr va))) ∧
      (x.wr = false → TakesTraps t → TrapsMapped (.mst gd d a sz imm) s u t ea x 0x11 2)) ∧
    (Issues s u t (.mamo gd d a b c op dbl false) → ea = gr t a → w ∣ ea.toNat → x.rd = true → x.wr = true →
      (home = u.ep → Asks (.mamo gd d a b c op dbl false) s u t u.ep eb (body atom false) .answer d) ∧
      (home ≠ u.ep → TakesTraps t → TrapsMapped (.mamo gd d a b c op dbl false) s u t ea x 0x12 (channelOf (x.addr va)))) ∧
    (Issues s u t (.mamo gd d a b c op dbl true) → ea = gr t a → w ∣ ea.toNat → x.rd = true → x.wr = true → home = u.ep →
      (t.cnt.ldc < 8 → SendsRelaxed (.mamo gd d a b c op dbl true) s u t u.ep eb (body atom true) true 1 3 d))

/-- R380: REMUP completes its turn on any core and in a visitor slot, where the page of its aligned operand is mapped with RD and WR and the
peer map names its home's package: the update leaves for the home and STC has risen. Without a peer it traps with cause 0x13. -/
def Sys2Proof.RemoteUpdates : Prop :=
  ∀ (s : State) (u : Turn) (t : Thread) (gd : Guard) (a b : Reg) (op : BitVec 4) (dbl : Bool) (x : TlbEntry),
    let ea := gr t a
    let va := ea.toNat % 2 ^ 56
    let tgt := dramTarget s (epPkg u.ep) x va
    let peer := ebitOf s (epPkg u.ep) t.sr.peermap (paPkg (x.addr va))
    let i := Instr.remup gd a b op dbl
    Issues s u t i → t.region = none → Mapped s u t ea x → (if dbl = true then 8 else 4) ∣ ea.toNat → x.rd = true → x.wr = true →
      (∀ e, peer = some e → t.cnt.stc < 8 → SendsRelaxed i s u t tgt.1 e
        (.dram tgt.2.1 (.atom op.toNat dbl (gr t b) 0 false) none true tgt.2.2.1 tgt.2.2.2) false 4 4 0) ∧
      (peer = none → TakesTraps t → TrapsMapped i s u t ea x 0x13 0)

/-- R86, R378 to R380: the accesses of memory at its home, and REMUP. -/
def Obligations.HomeMemoryAccesses : Prop := HomeAccesses ∧ RemoteUpdates

/-- An instruction has handed something to a unit of its package and its thread waits for the answer (R286 kind 7 or 9): `before` and `after`
are the unit's list, which has grown by what `make` gives for the requester; registers, PC and memory are as before. -/
def Sys2Proof.Hands {α : Type} (i : Instr) (s : State) (u : Turn) (t : Thread) (d : Reg) (list : State → List α) (make : Req → α) : Prop :=
  ∃ (s' : State) (q : Req) (t' : Thread) (k : Park), exec i s = .next s' ∧ list s' = list s ++ [make q] ∧ q.ep = u.ep ∧ q.slot = u.slot ∧
    q.uid = t.uid ∧ q.ctx = t.ctx ∧ q.entry = 16 + 32 * k.ser ∧ s'.thr? u.ep u.slot = some t' ∧ t'.park = some k ∧ k.dst = d ∧
    k.next = u.next ∧ t'.regs = t.regs ∧ t'.sr = t.sr ∧ t'.pc = t.pc ∧ s'.net = s.net ∧ s'.dram = s.dram ∧ s'.turn = none ∧
    ∀ e, (s'.core e).spad = (s.core e).spad

/-- R201, R202, R216: a check on a die fails when the carried instant has lapsed at the die's NOW, or its replica shows the handle lapsed. The
instant never does not lapse; any other lapses in the nanosecond that it names and stays so for 2^47 ns. -/
def Obligations.LapseTest : Prop :=
  ∀ (s : State) (dk : Nat) (inst : Instant) (h : Nat),
    let now48 := (s.die dk).now.toNat % 2 ^ 48
    (lapsedAt (s.die dk).now inst = true ↔ inst.toNat ≠ 0xFFFF_FFFF_FFFF ∧ (now48 + 2 ^ 48 - inst.toNat) % 2 ^ 48 < 2 ^ 47) ∧
    (checkFails s dk inst h = true ↔ lapsedAt (s.die dk).now inst = true ∨ h ∈ (s.die dk).replica.lapsed) ∧
    (inst.toNat ≠ 0xFFFF_FFFF_FFFF → now48 = inst.toNat → lapsedAt (s.die dk).now inst = true) ∧
    (inst.toNat ≠ 0xFFFF_FFFF_FFFF → now48 + 1 = inst.toNat → lapsedAt (s.die dk).now inst = false)

/-- R431, R434: HND gives what the die's replica knows of a handle, or with .left the time to the held instant; LIVEMASK the live members of a
union. Neither parks or needs rights. Which handles are free HND reads from the instant unit's table: the model's choice (log 14). -/
def Sys2Proof.HandleReads : Prop :=
  ∀ (s : State) (u : Turn) (t : Thread) (gd : Guard) (d a : Reg),
    let h := (gr t a).toNat % 2 ^ 16
    let r := (s.die (dieKey u.ep)).replica
    let known := h = 0 ∨ (s.lapse? (epPkg u.ep) h).isSome = true ∧ h ∉ r.lapsed
    let now := (s.die (dieKey u.ep)).now
    (Issues s u t (.hnd gd d a false) → ∃ (w : Word) (p : Bool), Retires (.hnd gd d a false) s u (fun t => (t.putG d w).p7 p) ∧
      (p = true ↔ known) ∧ (w.getLsbD 0 = true ↔ ¬ known) ∧ (w.getLsbD 1 = true ↔ (tget r.unions h).isSome = true) ∧
      (w.getLsbD 2 = true ↔ h = t.sr.hnd.toNat ∨ ∃ ms live, tget r.unions t.sr.hnd.toNat = some ms ∧ (h, live) ∈ ms) ∧
      ∀ i ≥ 3, w.getLsbD i = false) ∧
    (Issues s u t (.hnd gd d a true) → ∃ w : Word, Writes (.hnd gd d a true) s u d w ∧
      (t.sr.inst = -1 → w.toNat = 0x7FFF_FFFF_FFFF_FFFF) ∧
      (t.sr.inst ≠ -1 → lapsedAt now t.sr.inst = false → w.toInt = (t.sr.inst - now.setWidth 48).toNat) ∧
      (t.sr.inst ≠ -1 → lapsedAt now t.sr.inst = true → w.toInt = -((now.setWidth 48 - t.sr.inst).toNat : Int))) ∧
    (Issues s u t (.livemask gd d a) →
      (∀ ms, tget r.unions h = some ms → ∃ w : Word, Retires (.livemask gd d a) s u (fun t => (t.putG d w).p7 true) ∧
        ∀ i < 64, w.getLsbD i = true ↔ ∃ m, ms[i]? = some (m, true)) ∧
      (tget r.unions h = none → Retires (.livemask gd d a) s u (fun t => (t.putG d 0).p7 false)))

/-- R213, R432: NARROW gives the slot the earlier of its held instant and g[a][47:0], and changes nothing else. -/
def Obligations.NarrowInstant : Prop :=
  ∀ (s : State) (u : Turn) (t : Thread) (gd : Guard) (a : Reg), Issues s u t (.narrow gd a) →
    let i : Instant := (gr t a).setWidth 48
    ∃ held : Instant, Retires (.narrow gd a) s u (fun t => { t with sr := { t.sr with inst := held } }) ∧
      (i = -1 → held = t.sr.inst) ∧ (i = t.sr.inst → held = i) ∧ (i ≠ -1 → t.sr.inst = -1 → held = i) ∧
      (i ≠ -1 → t.sr.inst ≠ -1 → i ≠ t.sr.inst →
        held = if (t.sr.inst - i).toNat < 2 ^ 47 then i else t.sr.inst)

/-- R215, R433, R435, R436: UNION, CANCEL and ADOPT go to the instant unit, and the thread waits for its answer. Without the right a CANCEL
traps with cause 0x04 and the handle in TADDR, handle 0 always; an ADOPT with TADDR 0; a UNION with the first offending handle. -/
def Sys2Proof.HandleRequests : Prop :=
  ∀ (s : State) (u : Turn) (t : Thread) (gd : Guard) (d a : Reg) (n : BitVec 7) (phys : Nat),
    let h := (gr t a).toNat % 2 ^ 16
    let reqs := fun (s : State) => (s.pkg (epPkg u.ep)).iureqs
    let hs := (List.range n.toNat).map fun i => mread (s.core u.ep).spad (phys + 2 * i) 2
    (Issues s u t (.cancel gd a) → mayCancel s u.ep t h = true → Hands (.cancel gd a) s u t 0 reqs fun q => .cancel q h) ∧
    (Issues s u t (.cancel gd a) → (h = 0 ∨ mayCancel s u.ep t h = false) → TakesTraps t →
      ∃ s', exec (.cancel gd a) s = .next s' ∧ TrapTaken s u t 0x04 (BitVec.ofNat 64 h) 0x0E4 t.pc s') ∧
    (Issues s u t (.adopt gd a) →
      (isSystem s u.ep t = true ∨ ∃ ms live, tget (s.die (dieKey u.ep)).replica.unions h = some ms ∧ (t.sr.hnd.toNat, live) ∈ ms) →
      Hands (.adopt gd a) s u t 0 reqs fun q => .adopt q h) ∧
    (Issues s u t (.adopt gd a) → isSystem s u.ep t = false → (∀ ms live, tget (s.die (dieKey u.ep)).replica.unions h = some ms →
      (t.sr.hnd.toNat, live) ∉ ms) → TakesTraps t →
      ∃ s', exec (.adopt gd a) s = .next s' ∧ TrapTaken s u t 0x04 0 0x0E5 t.pc s') ∧
    (Issues s u t (.union gd d a n) → checkLocal s u.ep t (gr t a) (2 * n.toNat) = .ok phys → 2 ∣ (gr t a).toNat →
      Plain s u t (wordsOf phys (2 * n.toNat)) → anyOchre s u.ep phys (2 * n.toNat) = false →
      (t.provisional = none → (isSystem s u.ep t = true ∨ ∀ x ∈ hs, mayCancel s u.ep t x = true) →
        Hands (.union gd d a n) s u t d reqs fun q => .union q t.ctx hs d) ∧
      (∀ l x r, hs = l ++ x :: r → isSystem s u.ep t = false → (∀ y ∈ l, mayCancel s u.ep t y = true) → mayCancel s u.ep t x = false →
        TakesTraps t → ∃ s', exec (.union gd d a n) s = .next s' ∧ TrapTaken s u t 0x04 (BitVec.ofNat 64 x) 0x0E2 t.pc s'))

/-- R431 to R437: the instructions of instants and handles. -/
def Obligations.HandleInstructions : Prop := HandleReads ∧ HandleRequests

/-- A thread has sent a message to a die's region unit (R486) and waits for its answer (R286): one packet more is in flight, on VC1, with the
requester, the carried instant and handle; registers, PC and memory are as before. -/
def Sys2Proof.AsksUnit (i : Instr) (s : State) (u : Turn) (t : Thread) (d : Reg) (dk : Nat) (m : RMsg) : Prop :=
  ∃ (s' : State) (p : Pkt) (t' : Thread) (k : Park), exec i s = .next s' ∧ s'.net = s.net ++ [p] ∧ p.src = u.ep ∧ p.dst = unitEp dk ∧
    p.vc = 1 ∧ p.body = .region m ∧ p.carry = ⟨t.sr.inst, t.sr.hnd, epPkg u.ep⟩ ∧ p.req.ep = u.ep ∧ p.req.slot = u.slot ∧
    p.req.uid = t.uid ∧ p.req.ctx = t.ctx ∧ p.req.entry = 16 + 32 * k.ser ∧ s'.thr? u.ep u.slot = some t' ∧ t'.park = some k ∧
    k.why = .answer ∧ k.dst = d ∧ k.next = u.next ∧ t'.regs = t.regs ∧ t'.sr = t.sr ∧ t'.pc = t.pc ∧ s'.dram = s.dram ∧ s'.turn = none ∧
    ∀ e, (s'.core e).spad = (s.core e).spad

/-- R438, R439, R440, R441, R486: the region instructions. RBEGIN asks the die's region unit for a record with the slot's instant and handle,
the abort target, d and the timeout; RCOMMIT with no region open sets p7 = 0, else it asks for the commit once CORE and MIGR are drained;
RABORT with none open does nothing; RSTAT with none open gives RCAUSE in bits 15:12, else it asks for the record. -/
def Sys2Proof.RegionInstructions : Prop :=
  ∀ (s : State) (u : Turn) (t : Thread) (gd : Guard) (d a : Reg) (imm : BitVec 22),
    let target : CodeAddr := BitVec.ofInt 32 (t.pc.toNat + 2 * imm.toInt)
    (Issues s u t (.rbegin gd d a imm) → t.region = none →
      AsksUnit (.rbegin gd d a imm) s u t d (dieKey u.ep) (.begin_ target d (gr t a))) ∧
    (Issues s u t (.rcommit gd) → t.region = none → Retires (.rcommit gd) s u (·.p7 false)) ∧
    (∀ r, Issues s u t (.rcommit gd) → t.region = some r → r.abort = none → drainedMask s u.ep t 0x09 0 = true →
      AsksUnit (.rcommit gd) s u t 0 (regionDie (epPkg u.ep) r.id) (.commit r.id)) ∧
    (∀ r, Issues s u t (.rcommit gd) → t.region = some r → r.abort = none → drainedMask s u.ep t 0x09 0 = false →
      Waits (.rcommit gd) s u t .commit) ∧
    (Issues s u t (.rabort gd) → t.region = none → Retires (.rabort gd) s u id) ∧
    (Issues s u t (.rstat gd d) → t.region = none → Writes (.rstat gd d) s u d (BitVec.ofNat 64 (t.sr.rcause.toNat * 2 ^ 12))) ∧
    (∀ r, Issues s u t (.rstat gd d) → t.region = some r → r.abort = none →
      AsksUnit (.rstat gd d) s u t d (regionDie (epPkg u.ep) r.id) (.stat r.id))

/-- R182, R192, R440, R486: RABORT, and an instruction that is illegal in a region and is not executed then, ask the region's unit for an abort
with cause 7 and with cause 9: the request leaves on VC1 for the record of the region. The thread parks with its registers as they were until
the abort comes: that an illegal instruction parks it is the model's choice (log 80). A record that is no longer the thread's is asked nothing. -/
def Sys2Proof.RegionAborts : Prop :=
  ∀ (s : State) (u : Turn) (t : Thread) (i : Instr) (cause : Nat) (ref : RegionRef) (gd : Guard) (d a b : Reg)
      (fe : BitVec 2) (sz : BitVec 3) (x y : Bool) (op : BitVec 4) (cnt : BitVec 5) (tag : BitVec 12) (imm : BitVec 22),
    let dk := regionDie (epPkg u.ep) ref.id
    let illegal : List Instr := [.take gd d a b sz x, .peek gd d a b sz x, .put gd d a b sz, .feset gd a b fe, .feget gd d a x,
      .red gd a b op y, .remup gd a b op y, .send gd a b cnt tag, .recv gd d a cnt, .join gd a b, .exit gd a, .wfw gd d a,
      .rbegin gd d a imm, .tbld gd a, .pushFill gd a]
    Issues s u t i → t.region = some ref → ref.abort = none → (i = .rabort gd ∧ cause = 7 ∨ i ∈ illegal ∧ cause = 9) →
    ∃ s' t' p, exec i s = .next s' ∧ s'.thr? u.ep u.slot = some t' ∧ t'.park = some p ∧ p.why = .answer ∧ t'.regs = t.regs ∧ t'.pc = t.pc ∧
      t'.region = t.region ∧ s'.dram = s.dram ∧ (∀ e, (s'.core e).spad = (s.core e).spad) ∧ s'.turn = none ∧
      (∀ r, regionAt s dk ref.id = some r → r.owner.uid = t.regionUid → ∃ q : Pkt, s'.net = s.net ++ [q] ∧ q.src = u.ep ∧ q.dst = unitEp dk ∧
        q.vc = 1 ∧ q.req = r.owner ∧ q.body = .region (.abort ref.id r.seq cause)) ∧
      ((∀ r, regionAt s dk ref.id = some r → r.owner.uid ≠ t.regionUid) → s'.net = s.net)

/-- R182, R192, R438 to R441: the instructions of regions, and how a region aborts. -/
def Obligations.Regions : Prop := RegionInstructions ∧ RegionAborts

/-- R375, R376, R87, R89: GO, with its translation at hand, RD granted and no relaxed access outstanding, sends the migrant to the home of its
address: from its own slot, which waits for its return, or from a visitor slot, which it frees; at home already it goes on. With a region
open it does not leave the die: it asks for an abort with cause 8 (R180). BACK sends the
migrant home, to go on at the next head, and the visitor slot is vacant. The registers travel (R444); that the mode does is the model's
choice (log 37), and so is which package's lost homes count on a migrant's later ways (log 29). -/
def Sys2Proof.Migration : Prop :=
  ∀ (s : State) (u : Turn) (t : Thread) (gd : Guard) (a : Reg) (x : TlbEntry),
    let va := (gr t a).toNat % 2 ^ 56
    let home := (dramTarget s (t.homesOf s u.ep x va) x va).1
    let goes := Issues s u t (.go gd a) ∧ t.region = none ∧ t.cnt.ldc = 0 ∧ t.cnt.stc = 0 ∧ Mapped s u t (gr t a) x ∧ x.rd = true ∧
      epPkg home = epPkg u.ep
    let leaves := fun (o : Origin) => t.origin = some o ∧ t.cnt.cpc = 0 ∧ t.qres.count = 0 ∧ t.outbox = [] ∧ t.provisional = none ∧
      epPkg o.ep = epPkg u.ep
    let carries := fun (m : Migrant) => m.thr.regs = t.regs ∧ m.thr.sup = t.sup ∧ m.thr.pc = u.next ∧
      m.carry = ⟨t.sr.inst, t.sr.hnd, epPkg u.ep⟩
    (goes → t.origin = none → ∃ s' p m t' k, exec (.go gd a) s = .next s' ∧ s'.net = s.net ++ [p] ∧ p.dst = home ∧
        p.body = .migrant m ∧ carries m ∧ m.origin = ⟨u.ep, u.slot, t.uid, epPkg u.ep⟩ ∧ s'.thr? u.ep u.slot = some t' ∧
        t'.park = some k ∧ k.why = .away ∧ t'.regs = t.regs ∧ s'.turn = none) ∧
    (∀ o, goes → leaves o → home ≠ u.ep → ∃ s' p m, exec (.go gd a) s = .next s' ∧ s'.net = s.net ++ [p] ∧ p.dst = home ∧
        p.body = .migrant m ∧ carries m ∧ m.origin = { o with via := if isLost s o.via (paPkg (x.addr va)) = true then o.via else epPkg u.ep } ∧ s'.thr? u.ep u.slot = none ∧ s'.turn = none) ∧
    (∀ o, goes → leaves o → home = u.ep → ∃ s', exec (.go gd a) s = .next s' ∧ s'.thr? u.ep u.slot = some (t.goTo u.next) ∧ s'.net = s.net) ∧
    (∀ ref s0, Issues s u t (.go gd a) → Translated s u t (gr t a) x s0 → x.rd = true → t.region = some ref → dieKey home ≠ dieKey u.ep →
        exec (.go gd a) s = .next (s0.abortOwn u t 8)) ∧
    (∀ o, Issues s u t (.back gd) → leaves o → t.cnt.ldc = 0 → t.cnt.stc = 0 →
        ∃ s' p m, exec (.back gd) s = .next s' ∧ s'.net = s.net ++ [p] ∧ p.dst = o.ep ∧ p.body = .comeBack m none false ∧
          carries m ∧ m.origin = o ∧ s'.thr? u.ep u.slot = none ∧ s'.turn = none)

/-- R42, R447: INVTLB needs supervisor rights over its context (cause 0x04); .page needs a device-virtual address (cause 0x02). It hands the
shootdown to every die of the package and waits. -/
def Sys2Proof.TranslationShootdown : Prop :=
  ∀ (s : State) (u : Turn) (t : Thread) (gd : Guard) (a b : Reg) (scope : BitVec 2), scope ≠ 3 → Issues s u t (.invtlb gd a b scope) →
    let ctx : Ctx := (gr t a).setWidth 12
    let rights := t.sup = true ∧ (isSystem s u.ep t = true ∨ (scope ≠ 2 ∧ ctx = t.ctx))
    (¬ rights → TakesTraps t → ∃ s', exec (.invtlb gd a b scope) s = .next s' ∧ TrapTaken s u t 0x04 0 0x1C6 t.pc s') ∧
    (rights → scope = 1 → (∀ va, checkDv (gr t b) ≠ .ok va) → TakesTraps t →
      ∃ s', exec (.invtlb gd a b scope) s = .next s' ∧ TrapTaken s u t 0x02 0 u.head.toNat t.pc s') ∧
    (∀ va, rights → (if scope = 1 then checkDv (gr t b) = .ok va else va = 0) →
      Hands (.invtlb gd a b scope) s u t 0 (fun s => (s.pkg (epPkg u.ep)).invs) fun q =>
        ⟨scope.toNat, ctx, va, [0, 1, 2, 3, 4, 5, 6, 7], q⟩)

/-- R375, R376, R447: GO, BACK and INVTLB. -/
def Obligations.MigrationAndShootdown : Prop := Migration ∧ TranslationShootdown

/-- R287, R445: CSWAP needs supervisor rights over the slot's context (cause 0x04); naming its own slot, or with a bit set that must be 0, it
traps with cause 0x02. Of a vacant slot it does nothing but set p7 = 0; a slot with a migrant out it waits for, up to the timeout. Any other
slot that is no part of a pair begins to leave for the named entry, and the thread waits for the image to be written. -/
def Sys2Proof.ContextSwap : Prop :=
  ∀ (s : State) (u : Turn) (t : Thread) (gd : Guard) (a b : Reg), Issues s u t (.cswap gd a b) →
    let i := Instr.cswap gd a b
    let w := (gr t a).toNat
    let k := w % 2 ^ 4
    let rights := t.sup = true ∧ ∀ x, s.thr? u.ep k = some x → x.ctx = t.ctx ∨ isSystem s u.ep t = true
    let form := w < 2 ^ 15 ∧ w / 2 ^ 4 % 2 ^ 4 = 0 ∧ k ≠ u.slot
    let calm := fun (x : Thread) => s.thr? u.ep k = some x ∧ x.pair = none ∧ ∀ y ∈ (s.core u.ep).swaps, y.1 ≠ k
    (¬ rights → TakesTraps t → ∃ s', exec i s = .next s' ∧ TrapTaken s u t 0x04 0 0x1C5 t.pc s') ∧
    (rights → ¬ form → TakesTraps t → ∃ s', exec i s = .next s' ∧ TrapTaken s u t 0x02 0 u.head.toNat t.pc s') ∧
    (rights → form → s.thr? u.ep k = none → Retires i s u (·.p7 false)) ∧
    (∀ x, rights → form → calm x → x.park.map (·.why) = some .away → t.park = none →
      (gr t b = 0 → Retires i s u (·.p7 false)) ∧ (gr t b ≠ 0 → Waits i s u t (.swappable k))) ∧
    (∀ x, rights → form → calm x → x.park.map (·.why) ≠ some .away →
      ∃ s' t' p, exec i s = .next s' ∧ (s'.core u.ep).swaps = (s.core u.ep).swaps ++ [(k, w / 2 ^ 8 % 2 ^ 7, t.uid)] ∧
        s'.thr? u.ep u.slot = some t' ∧ t'.park = some p ∧ p.why = .swap ∧ p.next = u.next ∧ t'.regs = t.regs ∧ t'.pc = t.pc ∧
        s'.turn = none)

/-- R293, R446: RESUME needs supervisor rights over the image's context (cause 0x04), and its operand's other bits must be 0 (cause 0x02).
It finds the image in its entry, or with .key by its thread in the cluster's cache. With none it sets p7 = 0; a dead one it frees with p7 = 0;
where the map entry does not name this core, p7 = 0 and the image stays. Else the image of a thread whose group is here goes into the lowest
vacant slot k, with g[d] = k and p7 = 1, and leaves its entry. -/
def Sys2Proof.ContextResume : Prop :=
  ∀ (s : State) (u : Turn) (t : Thread) (gd : Guard) (d a b : Reg) (key : Bool), Issues s u t (.resume gd d a b key) →
    let w := (gr t a).toNat
    let i := Instr.resume gd d a b key
    let pkg := epPkg u.ep
    let images := (s.cluster (clusterKey u.ep)).tcc
    let form := if key = true then w < 2 ^ 56 ∧ w % 2 ^ 24 = 0 else w < 2 ^ 7
    let found := fun (n : Nat) (img : Image) => tget images n = some img ∧
      if key = true then images.find? (fun x => x.2.thr.hasKey w) = some (n, img) else n = w
    let absent := if key = true then keyHeld s pkg w = false else tget images w = none
    let ends := fun (p : Bool) (f : Thread → Thread) (s' : State) => exec i s = .next s' ∧
      ∃ t', s'.thr? u.ep u.slot = some t' ∧ t'.regs = ((f t).p7 p).regs ∧ t'.pc = u.next ∧ s'.turn = none
    (t.sup = false → TakesTraps t → ∃ s', exec i s = .next s' ∧ TrapTaken s u t 0x04 0 0x1C4 t.pc s') ∧
    (∀ n img, found n img → img.thr.ctx ≠ t.ctx → isSystem s u.ep t = false → TakesTraps t →
      ∃ s', exec i s = .next s' ∧ TrapTaken s u t 0x04 0 0x1C4 t.pc s') ∧
    (isSystem s u.ep t = true → ¬ form → TakesTraps t → ∃ s', exec i s = .next s' ∧ TrapTaken s u t 0x02 0 u.head.toNat t.pc s') ∧
    (t.sup = true → form → absent → Retires i s u (·.p7 false)) ∧
    (∀ n img, t.sup = true → form → found n img → img.thr.ctx = t.ctx →
      (img.dead = true → ∃ s', ends false id s' ∧ tget (s'.cluster (clusterKey u.ep)).tcc n = none) ∧
      (img.dead = false → expired s u.ep (carryOf u.ep img.thr) = false →
        (∀ base size, vcOf s pkg t.ctx img.thr.vcore ≠ some (u.ep, base, size)) →
        ∃ s', ends false id s' ∧ tget (s'.cluster (clusterKey u.ep)).tcc n = some img) ∧
      (∀ base size g k, img.dead = false → expired s u.ep (carryOf u.ep img.thr) = false →
        vcOf s pkg t.ctx img.thr.vcore = some (u.ep, base, size) → groupOf s u.ep t.ctx img.thr.vcore = some g → g.slots ≠ [] →
        img.thr.pair = none → img.thr.region = none → img.ep = u.ep → (s.core u.ep).overflow = [] →
        k < 16 → s.thr? u.ep k = none → (∀ j < k, s.thr? u.ep j ≠ none) →
        ∃ s' x, ends true (·.putG d (BitVec.ofNat 64 k)) s' ∧ s'.thr? u.ep k = some x ∧ x.regs = img.thr.regs ∧ x.uid = img.thr.uid ∧
          x.ctx = t.ctx ∧ x.sup = img.thr.sup ∧ x.sr.lbase.toNat = base % 2 ^ 11 ∧ x.sr.lsize.toNat = size % 2 ^ 11 ∧
          tget (s'.cluster (clusterKey u.ep)).tcc n = none))

/-- R287, R293, R445, R446: CSWAP and RESUME. -/
def Obligations.ContextSwaps : Prop := ContextSwap ∧ ContextResume

/-- An operation has joined its core's tile path, last in issue order (R407), and the thread, changed by `f`, goes on. -/
def Sys2Proof.Joins (i : Instr) (s : State) (u : Turn) (t : Thread) (op : TileOp) (f : Thread → Thread) : Prop :=
  exec i s = .next ((s.modCore u.ep fun c => { c with jobs := c.jobs ++
    [⟨op, reqOf u.ep u.slot t 16 0, t.ctx, t.vcore, false, false, false, 0, 0⟩] }).retire u f)

/-- An operation has joined its core's tile path, and its thread is parked until it ends. -/
def Sys2Proof.ParksOn (i : Instr) (s : State) (u : Turn) (t : Thread) (op : TileOp) : Prop :=
  ∃ (s' : State) (t' : Thread) (p : Park), exec i s = .next s' ∧
    (s'.core u.ep).jobs = (s.core u.ep).jobs ++ [⟨op, reqOf u.ep u.slot t 16 0, t.ctx, t.vcore, false, false, false, 0, 0⟩] ∧
    s'.thr? u.ep u.slot = some t' ∧ t'.park = some p ∧ p.why = .mma ∧ p.next = u.next ∧ t'.regs = t.regs ∧
    t'.sr = t.sr ∧ t'.cnt = t.cnt ∧ t'.pc = t.pc ∧ (s'.core u.ep).acc = (s.core u.ep).acc ∧ s'.turn = none

/-- R62, R64, R409, R410: OCLAIM takes the lowest free slot, cleared, while the group's allotment lasts, else p7 = 0. OREL frees a slot of the
group; it waits while an MMA reads it, and traps with cause 0x19 while an OLD or a copy writes it or where the group does not hold it. -/
def Sys2Proof.OperandSlots : Prop :=
  ∀ (s : State) (u : Turn) (t : Thread) (gd : Guard) (d a : Reg) (n : Nat),
    let c := s.core u.ep
    let owned := fun (o : OpSlot) => o.owner = (t.ctx, t.vcore)
    let room := ∃ g, groupOf s u.ep t.ctx t.vcore = some g ∧ (c.opslots.filter fun x => decide (owned x.2)).length < g.ops
    let mine := (gr t a).toNat = n ∧ n < 32 ∧ ∃ o, tget c.opslots n = some o ∧ owned o
    (Issues s u t (.oclaim gd d) → room → n < 32 → tget c.opslots n = none → (∀ m < n, tget c.opslots m ≠ none) →
      exec (.oclaim gd d) s = .next ((s.modCore u.ep fun c => { c with
        opslots := tput n ⟨(t.ctx, t.vcore), none, false⟩ c.opslots, opmem := mclear c.opmem (n * 8192) 8192,
        broken := c.broken.filter (· != .operand n) }).retire u
          fun t => (t.putG d (BitVec.ofNat 64 n)).p7 true)) ∧
    (Issues s u t (.oclaim gd d) → (¬ room ∨ ∀ m < 32, tget c.opslots m ≠ none) → Retires (.oclaim gd d) s u (·.p7 false)) ∧
    (Issues s u t (.orel gd a) → mine → slotWriting s u.ep n = false → slotReading s u.ep n = false →
      exec (.orel gd a) s = .next ((s.modCore u.ep fun c => { c with opslots := tdelete n c.opslots }).retire u id)) ∧
    (Issues s u t (.orel gd a) → mine → slotWriting s u.ep n = false → slotReading s u.ep n = true →
      Waits (.orel gd a) s u t (.slotFree n)) ∧
    (Issues s u t (.orel gd a) → mine → slotWriting s u.ep n = true → TakesTraps t →
      ∃ s', exec (.orel gd a) s = .next s' ∧ TrapTaken s u t 0x19 0 n t.pc s') ∧
    (Issues s u t (.orel gd a) → (32 ≤ (gr t a).toNat ∨ ∀ o, tget c.opslots (gr t a).toNat = some o → ¬ owned o) → TakesTraps t →
      ∃ s', exec (.orel gd a) s = .next s' ∧ TrapTaken s u t 0x19 0 ((gr t a).toNat % 32) t.pc s')

/-- R407, R408, R411, R412, R415, R416, R115: with the checks passed OLD, ARD and AWR raise TLC and join the tile path; MMA joins it and parks;
ACLR applies at once where no earlier operation holds the tile, else it parks. TLC at 15 makes a transfer wait. That MMA checks the format an
earlier OLD of the path is to write, before it has written it, is the model's choice (log 18). -/
def Sys2Proof.TilePath : Prop :=
  ∀ (s : State) (u : Turn) (t : Thread) (gd : Guard) (a b c : Reg) (ty : Ty) (lay zf sc : Bool) (k : BitVec 9) (kd : BitVec 2)
      (oa ob : OpSlot) (x : Nat × Tile) (ta tb : Ty) (kind : TileKind) (phys stride pa pb : Nat),
    let jobs := (s.core u.ep).jobs
    let na := (gr t a).toNat
    let nb := (gr t b).toNat
    let w := if ty = .df then 64 else 32
    let rowsOk := fun (row : Nat) => (if gr t c = 0 then stride = row else stride = (gr t c).toNat ∧ 8 ∣ stride ∧ row ≤ stride) ∧
      checkLocal s u.ep t (gr t a) (31 * stride + row) = .ok phys ∧ 8 ∣ (gr t a).toNat
    let clash := fun (want : TileKind) => issuedKind jobs x.1 x.2.kind ≠ .none ∧ issuedKind jobs x.1 x.2.kind ≠ want
    let up := fun (t : Thread) => { t with cnt := { t.cnt with tlc := t.cnt.tlc + 1 } }
    let kl := if k = 0 then depthOf ta else k.toNat
    let cellTy := fun (ty : Ty) => ty = .df ∧ kind = .fp64 ∨ ty = .sf ∧ kind = .fp32 ∨ ty = .i32 ∧ kind = .i32
    t.region = none →
    (Issues s u t (.old gd a b c ty lay) → depthOf ty ≠ 0 → checkSlot s u.ep t (gr t b) = .ok ob → rowsOk 256 →
      (t.cnt.tlc < 15 → Joins (.old gd a b c ty lay) s u t (.old nb phys stride ty lay) up) ∧
      (15 ≤ t.cnt.tlc → Waits (.old gd a b c ty lay) s u t .tlcRoom)) ∧
    (Issues s u t (.mma gd a b c zf sc k) → checkSlot s u.ep t (gr t a) = .ok oa → checkSlot s u.ep t (gr t b) = .ok ob →
      checkTile s u.ep t (gr t c) = .ok x →
      ((issuedFmt jobs na oa.fmt).or (shadowFmt t.sr.sfa)) = some (ta, false) →
      ((issuedFmt jobs nb ob.fmt).or (shadowFmt t.sr.sfb)) = some (tb, true) → pairKind ta tb = some kind →
      (sc = true → ta ∈ [Ty.e4, .e5, .lg]) → kl ≤ depthOf ta →
      (¬ clash kind → (sc = false → pa = 0 ∧ pb = 0) → (sc = true → checkScales s u.ep t kl = .ok (pa, pb)) →
        ParksOn (.mma gd a b c zf sc k) s u t (.mma na nb x.1 ta tb zf sc kl pa pb 2)) ∧
      (clash kind → TakesTraps t →
        ∃ s', exec (.mma gd a b c zf sc k) s = .next s' ∧ TrapTaken s u t 0x1A 0 (x.2.name % 2 ^ 32) t.pc s')) ∧
    (Issues s u t (.mma gd a b c zf sc k) → (∀ o, checkSlot s u.ep t (gr t a) ≠ .ok o) → TakesTraps t →
      ∃ s', exec (.mma gd a b c zf sc k) s = .next s' ∧ TrapTaken s u t 0x19 0 (na % 32) t.pc s') ∧
    (Issues s u t (.ard gd a b c ty) → cellTy ty → checkTile s u.ep t (gr t b) = .ok x → ¬ clash kind → rowsOk (4 * w) →
      t.cnt.tlc < 15 → Joins (.ard gd a b c ty) s u t (.ard x.1 phys stride w) up) ∧
    (Issues s u t (.awr gd a b c ty) → cellTy ty → checkTile s u.ep t (gr t b) = .ok x → ¬ clash kind → rowsOk (4 * w) →
      t.cnt.tlc < 15 →
      (anyOchre s u.ep phys (31 * stride + 4 * w) = false →
        Joins (.awr gd a b c ty) s u t (.awr x.1 phys stride w kind) up) ∧
      (anyOchre s u.ep phys (31 * stride + 4 * w) = true → TakesTraps t → rectOf s u.ep = none →
        ∃ s', exec (.awr gd a b c ty) s = .next s' ∧ TrapTaken s u t 0x14 (gr t a) 0 t.pc s')) ∧
    (Issues s u t (.aclr gd a kd) → checkTile s u.ep t (gr t a) = .ok x →
      let new : TileKind := match kd.toNat with | 1 => .fp64 | 2 => .fp32 | 3 => .i32 | _ => .none
      let op : TileOp := .aclr x.1 new
      ((∀ j ∈ jobs, blockedBy op j.op = false) → exec (.aclr gd a kd) s = .next ((s.modCore u.ep fun c => { c with
        tiles := tmod x.1 (fun y => { y with kind := new, stop := false, prog := 0 }) c.tiles,
        acc := mclear c.acc (x.1 * 8192) 8192, broken := c.broken.filter (· != .acc x.1) }).retire u id)) ∧
      ((∃ j ∈ jobs, blockedBy op j.op = true) → ParksOn (.aclr gd a kd) s u t op)) ∧
    (Issues s u t (.aclr gd a kd) → (∀ y, checkTile s u.ep t (gr t a) ≠ .ok y) → TakesTraps t →
      ∃ s', exec (.aclr gd a kd) s = .next s' ∧ TrapTaken s u t 0x1A 0 ((gr t a).toNat % 32) t.pc s')

/-- R417, R68: MSTAT writes the tile status word as the tile stands. -/
def Sys2Proof.TileStatus : Prop :=
  ∀ (s : State) (u : Turn) (t : Thread) (gd : Guard) (d a : Reg), Issues s u t (.mstat gd d a) →
    let named := fun (x : Nat × Tile) => x.2.owner = (t.ctx, t.vcore) ∧ x.2.name = (gr t a).toNat
    (∀ x, (s.core u.ep).tiles.find? (fun x => decide (named x)) = some x → x.2.prog < 2 ^ 9 → ∃ w : Word, Writes (.mstat gd d a) s u d w ∧
      w.toNat = x.2.prog + x.2.stop.toNat * 2 ^ 10 + x.2.busy.toNat * 2 ^ 11 +
        (match x.2.kind with | .none => 0 | .fp64 => 1 | .fp32 => 2 | .i32 => 3) * 2 ^ 12) ∧
    ((∀ x ∈ (s.core u.ep).tiles, ¬ named x) → TakesTraps t →
      ∃ s', exec (.mstat gd d a) s = .next s' ∧ TrapTaken s u t 0x1A 0 ((gr t a).toNat % 32) t.pc s')

/-- R418, R70: TBLD writes the bank that is not active, makes it active and raises GEN, once no MMA holds that bank; a set bit in 15:13 of an
entry traps with cause 0x02. -/
def Sys2Proof.TableLoad : Prop :=
  ∀ (s : State) (u : Turn) (t : Thread) (gd : Guard) (a : Reg), Issues s u t (.tbld gd a) → t.region = none →
    let old := (s.core u.ep).lg6
    let entry := fun (i : Nat) => (gr t a).toNat / 2 ^ (16 * i)
    let ok := ∀ i < 4, entry i % 2 ^ 16 < 2 ^ 13
    (¬ ok → TakesTraps t → ∃ s', exec (.tbld gd a) s = .next s' ∧ TrapTaken s u t 0x02 0 u.head.toNat t.pc s') ∧
    (ok → bankHeld s u.ep (1 - old.active) = true → Waits (.tbld gd a) s u t .bankFree) ∧
    (ok → bankHeld s u.ep (1 - old.active) = false → old.active < 2 → old.banks.length = 2 → ∃ new : Lg6,
      exec (.tbld gd a) s = .next ((s.modCore u.ep fun c => { c with lg6 := new }).retire u id) ∧ new.active = 1 - old.active ∧
      new.gen = old.gen + 1 ∧ new.banks[old.active]? = old.banks[old.active]? ∧
      new.banks[new.active]? = some ((List.range 4).map fun i => entry i % 2 ^ 13))

/-- R407 to R418: the operand slots, the tile path, MSTAT and TBLD. -/
def Obligations.MatrixInstructions : Prop := OperandSlots ∧ TilePath ∧ TileStatus ∧ TableLoad

/-- A thread stands in slot n of a core under its identity. -/
def Sys2Proof.InSlot (s : State) (e : EP) (uid n : Nat) (t : Thread) : Prop := locate s e uid = .slot n ∧ s.thr? e n = some t

/-- R411, R416, R137: OLD_COMPLETE brings 32 rows of 256 bytes into the slot, with FMT and POISON. AWR_COMPLETE writes every cell of the tile
with the value read, or the NaN of an ochre granule, and its kind. ARD_COMPLETE puts the rows that fit into the tile write queue, whose
oldest entry TILE_WRITE_QUEUE_WRITE brings into the banks. That OLD and AWR take their whole effect in one step is the model's choice (log 31). No errors stand in the scratchpad (R48), and no sealed entry holds what is
read (R189). -/
def Sys2Proof.TransferUnit : Prop :=
  ∀ (s : State) (e k : Nat) (j : TileJob), (tget s.cores e).isSome → (s.core e).upsets = [] →
    let c := s.core e
    let ends := fun (s' : State) => (s'.core e).jobs = dropAt k c.jobs ∧ (s'.core e).spad = c.spad ∧ s'.net = s.net ∧
      ∀ n t, InSlot s e j.req.uid n t → ∃ t', s'.thr? e n = some t' ∧ t'.cnt = { t.cnt with tlc := t.cnt.tlc - 1 } ∧ t'.regs = t.regs
    (unitHead s e TileOp.transfers = some (k, j) →
      (∀ slot phys stride ty lay o, j.op = .old slot phys stride ty lay → tget c.opslots slot = some o → Memory.wf c.opmem = true →
        (∀ r < 32, anySealed s e (phys + r * stride) 256 = false) →
        ∃ s' o', exec (.oldComplete e) s = .next s' ∧ ends s' ∧ tget (s'.core e).opslots slot = some o' ∧ o'.owner = o.owner ∧
          o'.fmt = some (ty, lay) ∧ (o'.poison = true ↔ ∃ r < 32, anyOchre s e (phys + r * stride) 256 = true) ∧
          ∀ x, mget (s'.core e).opmem x = if slot * 8192 ≤ x ∧ x < slot * 8192 + 8192
            then mget c.spad (phys + (x - slot * 8192) / 256 * stride + x % 256) else mget c.opmem x) ∧
      (∀ tile phys stride w kind x, j.op = .awr tile phys stride w kind → tget c.tiles tile = some x → Memory.wf c.acc = true →
        (w = if kind = .fp64 then 64 else 32) → (∀ r < 32, anySealed s e (phys + r * stride) (4 * w) = false) →
        ∃ s', exec (.awrComplete e) s = .next s' ∧ ends s' ∧
          tget (s'.core e).tiles tile = some { x with kind := kind, stop := false, prog := 0 } ∧
          (∀ r < 32, ∀ q < 32, mread (s'.core e).acc (tile * 8192 + 8 * (32 * r + q)) 8 =
            if anyOchre s e (phys + r * stride + q * (w / 8)) (w / 8) = true
            then (match kind with | .fp64 => canonNan fmt64 | .fp32 => canonNan fmt32 | _ => 2 ^ 31)
            else mread c.spad (phys + r * stride + q * (w / 8)) (w / 8)) ∧
          ∀ x, x / 8192 ≠ tile → mget (s'.core e).acc x = mget c.acc x) ∧
      (∀ tile phys stride w, j.op = .ard tile phys stride w → w ∈ [32, 64] → .acc tile ∉ c.broken →
        ∃ s' added, exec (.ardComplete e) s = .next s' ∧
        (s'.core e).tileQ = c.tileQ ++ added ∧ (s'.core e).spad = c.spad ∧ (s'.core e).acc = c.acc ∧
        (c.tileQ.length ≤ 32 → (s'.core e).tileQ.length ≤ 32) ∧
        (c.tileQ = [] → j.step = 31 → 8 ∣ phys → 8 ∣ stride → ends s'))) ∧
    (∀ x rest, c.tileQ = x :: rest → x.data ≠ [] → Memory.wf c.spad = true → c.watches = [] → c.overflow = [] →
      (∀ d ∈ c.dtl, ∀ a, x.addr ≤ a → a < x.addr + x.data.length → d.addr / 16 ≠ a / 16) →
      (∀ a ∈ wordsOf x.addr x.data.length, stackOf s e a = []) →
      ∃ s', exec (.tileWriteQueueWrite e) s = .next s' ∧ (s'.core e).tileQ = rest ∧
        (∀ a, mget (s'.core e).spad a =
          if x.addr ≤ a ∧ a < x.addr + x.data.length then x.data.getD (a - x.addr) 0 else mget c.spad a) ∧
        ∀ a, granAt s' e a = if x.addr ≤ a / 16 * 16 ∧ a / 16 * 16 + 16 ≤ x.addr + x.data.length ∧ granAt s e a = .ochre
          then .empty else granAt s e a)

/-- R66, R68, R69, R413: MMA_START: a poisoned slot traps the thread with cause 0x14, INFO 3; a stopped tile continues at PROG, else PROG is 0,
with .z every cell 0, and an LG6 MMA records the active bank; an MMA at its K limit ends at once. ACLR_APPLY clears the tile. -/
def Sys2Proof.ArrayStart : Prop :=
  ∀ (s : State) (e k : Nat) (j : TileJob) (x : Tile), (tget s.cores e).isSome →
    let c := s.core e
    (∀ a b tile ta tb zf sc kl ssa ssb bank oa ob, unitHead s e TileOp.isMma = some (k, j) → j.run = false →
      j.op = .mma a b tile ta tb zf sc kl ssa ssb bank → tget c.tiles tile = some x → tget c.opslots a = some oa → tget c.opslots b = some ob →
      c.broken = [] →
      let k0 := if x.stop = true then x.prog else 0
      let kind := if x.kind = .none then (pairKind ta tb).getD .none else x.kind
      (oa.poison = true ∨ ob.poison = true → ∀ n t p, InSlot s e j.req.uid n t → t.park = some p → p.why = .mma → p.aux = 0 →
        TakesTraps t → rectOf s e = none → ∃ s' t', exec (.mmaStart e) s = .next s' ∧ s'.thr? e n = some t' ∧
          t'.sr.tcause = 0x14 ∧ t'.sr.taddr = 0 ∧ t'.sr.tstat.toNat % 2 ^ 32 = 3 ∧ t'.sr.trappc = t.pc ∧ t'.sup = true ∧
          t'.handler = true ∧ (s'.core e).acc = c.acc ∧ (s'.core e).tiles = c.tiles ∧ (s'.core e).jobs = dropAt k c.jobs) ∧
      (oa.poison = false → ob.poison = false → ∃ s' x', exec (.mmaStart e) s = .next s' ∧ tget (s'.core e).tiles tile = some x' ∧
        x'.prog = k0 ∧ x'.stop = false ∧ x'.kind = kind ∧ x'.busy = decide (k0 < kl) ∧ x'.owner = x.owner ∧ x'.name = x.name ∧
        x'.table = (if x.stop = false ∧ ta = .lg then some (c.lg6.banks.getD c.lg6.active []) else x.table) ∧
        (s'.core e).acc = (if x.stop = false ∧ zf = true then mclear c.acc (tile * 8192) 8192 else c.acc) ∧
        (k0 < kl → ∃ j', (s'.core e).jobs[k]? = some j' ∧ j'.run = true ∧ j'.req = j.req) ∧
        (kl ≤ k0 → (s'.core e).jobs = dropAt k c.jobs))) ∧
    (∀ tile kind, c.jobs[k]? = some j → j.op = .aclr tile kind → jobReady c.jobs k = true → tget c.tiles tile = some x →
      Memory.wf c.acc = true → ∃ s', exec (.aclrApply e k) s = .next s' ∧ (s'.core e).jobs = dropAt k c.jobs ∧
        tget (s'.core e).tiles tile = some { x with kind := kind, stop := false, prog := 0 } ∧
        ∀ a, mget (s'.core e).acc a = if a / 8192 = tile then 0 else mget c.acc a)

/-- R239, R240, R413: MMA_K_STEP: every cell takes its step, or its block, with one rounding; PROG rises; after the K limit the thread goes on
with the flags of all the steps in FFLAGS. Where a stop has been asked the MMA ends, with STOP set where pre-emption asked it (R287, R219). -/
def Sys2Proof.ArrayStep : Prop :=
  ∀ (s : State) (e k a b tile kl ssa ssb bank : Nat) (ta tb : Ty) (zf : Bool) (j : TileJob) (x : Tile), (tget s.cores e).isSome →
    let c := s.core e
    unitHead s e TileOp.isMma = some (k, j) → j.run = true → j.op = .mma a b tile ta tb zf false kl ssa ssb bank →
    tget c.tiles tile = some x → x.prog < kl → Memory.wf c.acc = true → (∃ kind, pairKind ta tb = some kind) →
    let block := ta ∈ [Ty.e4, .e5, .lg]
    let k1 := if block then min (x.prog / 32 * 32 + 32) kl else x.prog + 1
    let el := fun (slot : Nat) (ty : Ty) (i k : Nat) => mread c.opmem (slot * 8192 + 256 * i + ty.width / 8 * k) (ty.width / 8)
    let old := fun (i q : Nat) => mread c.acc (tile * 8192 + 8 * (32 * i + q)) (if ta = .df then 8 else 4)
    ∃ s' x', exec (.mmaKStep e) s = .next s' ∧ tget (s'.core e).tiles tile = some x' ∧ x'.prog = k1 ∧ x'.kind = x.kind ∧
      (s'.core e).opmem = c.opmem ∧ (s'.core e).spad = c.spad ∧ (∀ a, a / 8192 ≠ tile → mget (s'.core e).acc a = mget c.acc a) ∧
      (∀ i < 32, ∀ q < 32, let new := mread (s'.core e).acc (tile * 8192 + 8 * (32 * i + q)) 8
        (ta = .df → new = (packWith fmt64 .rne (fmaVal .rne (unpack fmt64 (el a ta i x.prog)) (unpack fmt64 (el b tb q x.prog))
          (unpack fmt64 (old i q)))).1) ∧
        (ta ∈ [Ty.sf, .bf, .hf] → new = (packWith fmt32 .rne (fmaVal .rne (unpack (fmtOf ta) (el a ta i x.prog))
          (unpack (fmtOf tb) (el b tb q x.prog)) (unpack fmt32 (old i q)))).1) ∧
        (ta = .i8 → (new : Int) = ((old i q : Int) + signed 8 (el a ta i x.prog) * signed 8 (el b tb q x.prog)) % 2 ^ 32) ∧
        (block → new = (packWith fmt32 .rne (addVal .rne (blockSum ((List.range (k1 - x.prog)).map fun n =>
          blockTerm (tileTable s e tile) ta tb (el a ta i (x.prog + n)) (el b tb q (x.prog + n)))).1 (unpack fmt32 (old i q)))).1)) ∧
      (kl ≤ k1 → j.stopReq = false → x'.busy = false ∧ x'.stop = x.stop ∧ (s'.core e).jobs = dropAt k c.jobs ∧
        ∀ n t p, InSlot s e j.req.uid n t → t.park = some p → p.why = .mma → ∃ t', s'.thr? e n = some t' ∧ t'.park = none ∧
          t'.pc = p.next ∧ t'.regs = t.regs) ∧
      (j.stopReq = true → x'.busy = false ∧ x'.stop = j.preempt ∧ (s'.core e).jobs = dropAt k c.jobs) ∧
      (k1 < kl → j.stopReq = false → x'.busy = x.busy ∧ ∃ j', (s'.core e).jobs[k]? = some j' ∧ j'.run = true ∧ j'.req = j.req)

/-- R407, R411 to R416: what the transfer unit, the matrix array and the tile write queue do. -/
def Obligations.MatrixEvents : Prop := TransferUnit ∧ ArrayStart ∧ ArrayStep

/-- The eight registers from g[a] on: the words of a command (R326). -/
def Sys2Proof.wordsFrom (t : Thread) (a : Reg) : List Word := (List.range 8).map fun i => gr t (a + BitVec.ofNat 5 i)

/-- R419, R420, R423 to R425: PUSH of a COPY, FILL or CODE. A failed check traps; an engine or a counter that is full makes it wait; else the
engine holds one command more, with its words, shape, LBASE, PEERMAP and carried expiry, and CPC, or the count of CODE commands, rises,
with NOTIFY the record places too. The shape record, if any, is read as a local access that nothing delays (R46, R140, R189). -/
def Sys2Proof.CopyPushes : Prop :=
  ∀ (s : State) (u : Turn) (t : Thread) (gd : Guard) (a : Reg) (dims : List (Nat × Int × Int)) (x : Trap),
    let w := wordsFrom t a
    let notify := (gr t a).getLsbD 8
    let pushes := fun (i : Instr) (engine ep : Nat) (carry : Carry) (cnt : Counters → Counters) (check : Checked (List (Nat × Int × Int))) =>
      Issues s u t i →
      (check = .ok dims → engineTakes s u.ep t engine = true → (notify = true → t.cnt.places < 16) →
        ∃ s' c t', exec i s = .next s' ∧ s'.cmds = s.cmds ++ [c] ∧ c.engine = engine ∧ c.ep = ep ∧ c.words = w ∧ c.dims = dims ∧
          c.req.uid = t.uid ∧ c.req.ep = u.ep ∧ c.carry = carry ∧ c.lbase = t.sr.lbase.toNat ∧ c.peermap = t.sr.peermap ∧ c.done = 0 ∧
          c.total = (dims.foldl (fun n d => n * d.1) 1) * 2 ^ ((gr t a).toNat / 2 ^ 24 % 2 ^ 4) ∧ c.landing = false ∧
          s'.thr? u.ep u.slot = some t' ∧ t'.pc = u.next ∧ t'.park = none ∧ t'.regs = t.regs ∧ t'.sr = t.sr ∧
          t'.cnt = (if notify = true then { cnt t.cnt with places := t.cnt.places + 1 } else cnt t.cnt) ∧
          s'.net = s.net ∧ s'.dram = s.dram ∧ (∀ e, (s'.core e).spad = (s.core e).spad) ∧ s'.turn = none) ∧
      (check = .ok dims → engineTakes s u.ep t engine = false → Waits i s u t (.engine engine)) ∧
      (check = .ok dims → engineTakes s u.ep t engine = true → notify = true → 16 ≤ t.cnt.places → Waits i s u t .places) ∧
      (check = .error x → x.cause ≠ 0x14 → x.cause < 256 → x.info < 2 ^ 32 → TakesTraps t →
        ∃ s', exec i s = .next s' ∧ TrapTaken s u t x.cause x.addr x.info t.pc s')
    let cpc := fun (c : Counters) => { c with cpc := c.cpc + 1 }
    let mine : Carry := ⟨t.sr.inst, t.sr.hnd, epPkg u.ep⟩
    t.region = none → (s.core u.ep).upsets = [] → localOut s u.ep t = false → u.lost = false →
    (∀ phys n, shapeRecord s u.ep t w = some (phys, n) → anySealed s u.ep phys n = false) →
    pushes (.pushCopy gd a false) 0 u.ep mine cpc (checkCopy s u.ep t w false false u.head.toNat) ∧
    pushes (.pushCopy gd a true) 1 (distEp u.ep) mine cpc (checkCopy s u.ep t w false true u.head.toNat) ∧
    pushes (.pushFill gd a) 0 u.ep mine cpc (checkCopy s u.ep t w true false u.head.toNat) ∧
    pushes (.pushCode gd a) 2 u.ep ⟨-1, 0, epPkg u.ep⟩ (fun c => { c with code := c.code + 1 }) (checkCode s u.ep t w u.head.toNat)

/-- R132, R419, R421, R426: PUSH of a COLL on a communicator of the context gives the package's collective engine one command more; on another
one it completes with status refused, at its PUSH: that it does so at once is the model's choice (log 51). -/
def Sys2Proof.CollectivePush : Prop :=
  ∀ (s : State) (u : Turn) (t : Thread) (gd : Guard) (a : Reg), Issues s u t (.pushColl gd a) → t.region = none →
    let w := wordsFrom t a
    let notify := (gr t a).getLsbD 8
    let pkg := epPkg u.ep
    let comm := (w.getD 4 0).toNat % 256
    let places := if notify = true then t.cnt.places + 1 else t.cnt.places
    checkColl s u.ep t w u.head.toNat = .ok () → engineTakes s u.ep t 3 = true → (notify = true → t.cnt.places < 16) →
    (commServes s pkg comm t.ctx = true → ∃ s' c t', exec (.pushColl gd a) s = .next s' ∧
      (s'.pkg pkg).colls = (s.pkg pkg).colls ++ [c] ∧ c.words = w ∧ c.comm = comm ∧ c.num = (tget (s.pkg pkg).collNums comm).getD 0 ∧
      tget (s'.pkg pkg).collNums comm = some (c.num + 1) ∧ c.req.uid = t.uid ∧ c.isOver = none ∧ s'.thr? u.ep u.slot = some t' ∧
      t'.cnt = { t.cnt with coll := t.cnt.coll + 1, places := places } ∧ t'.regs = t.regs ∧ t'.pc = u.next) ∧
    (commServes s pkg comm t.ctx = false → Retires (.pushColl gd a) s u fun t => { t with
      cnt := { t.cnt with places := places },
      recs := if notify = true then t.recs ++ [⟨BitVec.ofNat 64 ((gr t a).toNat / 2 ^ 32 * 2 ^ 32 + 3 * 2 ^ 8 + (gr t a).toNat % 256), 0⟩]
        else t.recs })

/-- R84, R419: PUSH on engine 4 sends the eight words to the home of g[b], and CPC rises. R421: POPC.REC takes the oldest record into g[d] and
g[d + 1] with p7 = 1, and its place is free; with none it waits, or with timeout 0 sets p7 = 0. -/
def Sys2Proof.ProgramsAndRecords : Prop :=
  ∀ (s s0 : State) (u : Turn) (t : Thread) (gd : Guard) (d a b : Reg) (x : TlbEntry) (eb : Nat),
    let va := (gr t b).toNat % 2 ^ 56
    let tgt := dramTarget s (epPkg u.ep) x va
    (Issues s u t (.pushProgram gd a b) → t.region = none → Translated s u t (gr t b) x s0 → x.rd = true →
      ebitOf s0 (epPkg u.ep) t.sr.peermap (paPkg tgt.2.1) = some eb → t.cnt.cpc < 15 →
      ∃ s' p t', exec (.pushProgram gd a b) s = .next s' ∧ s'.net = s.net ++ [p] ∧ p.src = u.ep ∧ p.dst = tgt.1 ∧
        p.body = .program (wordsFrom t a) ∧ p.carry = ⟨t.sr.inst, t.sr.hnd, epPkg u.ep⟩ ∧ p.req.uid = t.uid ∧ p.req.ebit = eb ∧
        s'.thr? u.ep u.slot = some t' ∧ t'.cnt = { t.cnt with cpc := t.cnt.cpc + 1 } ∧ t'.regs = t.regs ∧ t'.pc = u.next) ∧
    (∀ r rest, Issues s u t (.popcRec gd d a) → t.recs = r :: rest → Retires (.popcRec gd d a) s u fun t =>
      ((({ t with recs := rest, cnt := { t.cnt with places := t.cnt.places - 1 } }).putG d r.w0).putG (d + 1) r.w1).p7 true) ∧
    (Issues s u t (.popcRec gd d a) → t.recs = [] → t.park = none → gr t a = 0 → Retires (.popcRec gd d a) s u (·.p7 false)) ∧
    (Issues s u t (.popcRec gd d a) → t.recs = [] → t.park = none → gr t a ≠ 0 → Waits (.popcRec gd d a) s u t .record)

/-- R419 to R426: the pushes and POPC. -/
def Obligations.EnginePushes : Prop := CopyPushes ∧ CollectivePush ∧ ProgramsAndRecords

/-- R271, R346: FORK without a join address puts an arm at the bottom of the deque, with p7 = 1, or finds it full, p7 = 0; with one it first
adds 1 to the counter at its home. R347: JOIN reads the counter, with a watch unless its timeout is 0. -/
def Sys2Proof.ForkAndJoin : Prop :=
  ∀ (s : State) (u : Turn) (t : Thread) (gd : Guard) (a b : Reg) (imm : BitVec 32) (ja : Word) (r : Route),
    let target : CodeAddr := BitVec.ofInt 32 (t.pc.toNat + 2 * imm.toInt)
    let full := 64 ≤ (s.core u.ep).deque.length + (s.core u.ep).reserved
    let counter := fun (acc : Access) => Body.access r.vcore r.off r.phys acc none false false
    t.region = none →
    (Issues s u t (.fork gd a b imm) → gr t b = 0 → ¬ full → ∃ s' m t', exec (.fork gd a b imm) s = .next s' ∧
      (s'.core u.ep).deque = (s.core u.ep).deque ++ [m] ∧ m.ctx = t.ctx ∧ m.vcore = t.vcore ∧ m.pkt.length = 8 ∧
      (m.pkt.getD 0 0).toNat % 2 ^ 32 = target.toNat ∧ m.pkt.getD 1 0 = t.sr.wid ∧ m.pkt.getD 2 0 = t.sr.inst ++ t.sr.hnd ∧
      m.pkt.getD 6 0 = gr t a ∧ s'.thr? u.ep u.slot = some t' ∧ t'.regs = (t.p7 true).regs ∧ t'.sr = t.sr ∧ t'.pc = u.next ∧
      (∀ x, t.sr.hnd ≠ 0 → s.lapse? (epPkg u.ep) t.sr.hnd.toNat = some x →
        s'.lapse? (epPkg u.ep) t.sr.hnd.toNat = some { x with ref := x.ref + 1 }) ∧ s'.turn = none) ∧
    (Issues s u t (.fork gd a b imm) → gr t b = 0 → full → Retires (.fork gd a b imm) s u (·.p7 false)) ∧
    (Issues s u t (.fork gd a b imm) → gr t b ≠ 0 → joinRoute s u.ep t (gr t b) false = .ok (ja, r) →
      (¬ full → Asks (.fork gd a b imm) s u t r.dst r.ebit (counter (.atom 0 true 1 0 true)) (.fork (gr t a) ja target) 0) ∧
      (full → Retires (.fork gd a b imm) s u (·.p7 false))) ∧
    (Issues s u t (.join gd a b) → joinRoute s u.ep t (gr t a) true = .ok (ja, r) →
      Asks (.join gd a b) s u t r.dst r.ebit (counter (if gr t b = 0 then .load 8 false else .joinRead)) .joinWatch 0) ∧
    (∀ x, Issues s u t (.join gd a b) → joinRoute s u.ep t (gr t a) true = .error x → x.info < 2 ^ 32 → x.cause < 2 ^ 8 → TakesTraps t →
      x.cause ≠ 0x14 → ∃ s', exec (.join gd a b) s = .next s' ∧ TrapTaken s u t x.cause x.addr x.info t.pc s')

/-- R348: EXIT ends its thread, which leaves its slot vacant; with a join address CORE, UPD and MIGR drain before, and −1 is added. R349: WFW
ends the task, so that the thread holds handle 0, and waits for work; with timeout 0 and none there it sets p7 = 0. -/
def Sys2Proof.TaskEnds : Prop :=
  ∀ (s : State) (u : Turn) (t : Thread) (gd : Guard) (d a : Reg) (ja : Word) (r : Route),
    t.region = none →
    (Issues s u t (.exit gd a) → gr t a = 0 →
      ∃ s', exec (.exit gd a) s = .next s' ∧ s'.thr? u.ep u.slot = none ∧ s'.turn = none ∧ s'.cmds = s.cmds) ∧
    (Issues s u t (.exit gd a) → gr t a ≠ 0 → joinRoute s u.ep t (gr t a) false = .ok (ja, r) →
      (drainedMask s u.ep t 0x19 0 = true → Asks (.exit gd a) s u t r.dst r.ebit
        (.access r.vcore r.off r.phys (.atom 0 true (-1) 0 true) none false false) .exit 0) ∧
      (drainedMask s u.ep t 0x19 0 = false → Waits (.exit gd a) s u t (.drained 0x19 0))) ∧
    (Issues s u t (.wfw gd d a) → gr t a ≠ 0 →
      (∃ k x, (k, x) ∈ (s.core u.ep).slots ∧ k ≠ u.slot ∧ x.inGroup t.ctx t.vcore = true ∧ x.park = none ∧ x.pair = none) →
      ∃ s' t' p, exec (.wfw gd d a) s = .next s' ∧ s'.thr? u.ep u.slot = some t' ∧ t'.park = some p ∧ p.why = .work d false false ∧
        p.next = u.next ∧ t'.regs = t.regs ∧ t'.sr = { t.sr with hnd := 0, inst := -1 } ∧ t'.pc = t.pc ∧ s'.net = s.net ∧ s'.turn = none) ∧
    (Issues s u t (.wfw gd d a) → gr t a = 0 → quiet s u.ep = false →
      ∃ s' t', exec (.wfw gd d a) s = .next s' ∧ s'.thr? u.ep u.slot = some t' ∧ t'.park = none ∧ t'.regs = (t.p7 false).regs ∧
        t'.sr = { t.sr with hnd := 0, inst := -1 } ∧ t'.pc = u.next)

/-- R274, R275, R350: YIELD writes the frame at g[a]: the next PC, the mask as it stood with the priority, work identifier, handle word,
condition, and the registers of the mask from byte 64 on; it registers the frame and waits for work with handle 0. -/
def Sys2Proof.FrameYield : Prop :=
  ∀ (s : State) (u : Turn) (t : Thread) (gd : Guard) (a b : Reg) (phys : Nat), Issues s u t (.yield gd a b) →
    let mask := mread (s.core u.ep).spad (phys + 12) 4
    let len := 64 + 8 * (List.range 32).countP fun i => mask.testBit i
    let frames := (s.cluster (clusterKey u.ep)).frames
    t.region = none → t.provisional = none → gr t b = 0 → checkLocal s u.ep t (gr t a) 64 = .ok phys → 16 ∣ (gr t a).toNat →
    checkLocal s u.ep t (gr t a) len = .ok phys → anyOchre s u.ep phys 16 = false → Plain s u t (wordsOf phys len) →
    frames.length < 256 → Memory.wf (s.core u.ep).spad = true →
    ∃ s' f t' p, exec (.yield gd a b) s = .next s' ∧ (s'.cluster (clusterKey u.ep)).frames = frames ++ [f] ∧ f.ep = u.ep ∧
      f.addr = (gr t a).toNat ∧ f.ctx = t.ctx ∧ f.vcore = t.vcore ∧ f.carry = ⟨t.sr.inst, t.sr.hnd, epPkg u.ep⟩ ∧ f.ready = true ∧
      s'.thr? u.ep u.slot = some t' ∧ t'.park = some p ∧ p.why = .work 0 false true ∧ t'.regs = t.regs ∧ t'.sr.hnd = 0 ∧ s'.turn = none ∧
      (∀ k, ¬ (phys ≤ k ∧ k < phys + len) → mget (s'.core u.ep).spad k = mget (s.core u.ep).spad k) ∧
      mread (s'.core u.ep).spad phys 8 = u.next.toNat ∧
      mread (s'.core u.ep).spad (phys + 8) 8 = t.sr.pri.toNat + mask * 2 ^ 32 ∧
      mread (s'.core u.ep).spad (phys + 16) 8 = t.sr.wid.toNat ∧
      mread (s'.core u.ep).spad (phys + 24) 8 = (t.sr.inst ++ t.sr.hnd).toNat ∧ mread (s'.core u.ep).spad (phys + 40) 8 = 0 ∧
      ∀ i < 32, mask.testBit i = true →
        mread (s'.core u.ep).spad (phys + 64 + 8 * (List.range i).countP fun j => mask.testBit j) 8 =
          if i = 0 then (t.regs.p ||| 1).toNat else (gr t (BitVec.ofNat 5 i)).toNat

/-- R344: BTAG waits for a message; with one it writes its tag to g[d] with p7 = 1 and scans the table: with no pair of the tag among them it
goes on, else control goes to the first such pair's target; a target that is no head traps with cause 0x03 and leaves no effect (R280). -/
def Sys2Proof.TagBranch : Prop :=
  ∀ (s : State) (u : Turn) (t : Thread) (gd : Guard) (d a b : Reg) (count : BitVec 12) (phys : Nat), Issues s u t (.btag gd d a b count) →
    let pair := fun (k : Nat) => mread (s.core u.ep).spad (phys + 8 * k) 8
    let got := fun (m : Msg) (t : Thread) => (t.putG d (m.tag.setWidth 64)).p7 true
    (t.inbox = [] → t.park = none → gr t b = 0 → Retires (.btag gd d a b count) s u (·.p7 false)) ∧
    (t.inbox = [] → t.park = none → gr t b ≠ 0 → Waits (.btag gd d a b count) s u t .inbox) ∧
    (∀ m rest, t.inbox = m :: rest → (gr t a).toNat + 8 * count.toNat < 2 ^ 21 → 8 ∣ (gr t a).toNat →
      (∀ k < count.toNat, checkLocal s u.ep t (gr t a + BitVec.ofNat 64 (8 * k)) 8 = .ok (phys + 8 * k) ∧
        anyOchre s u.ep (phys + 8 * k) 8 = false ∧ anySealed s u.ep (phys + 8 * k) 8 = false) → (s.core u.ep).upsets = [] →
      localOut s u.ep t = false → u.lost = false →
      ((∀ k < count.toNat, pair k % 2 ^ 32 ≠ m.tag.toNat) → Retires (.btag gd d a b count) s u (got m)) ∧
      (∀ k < count.toNat, pair k % 2 ^ 32 = m.tag.toNat → (∀ j < k, pair j % 2 ^ 32 ≠ m.tag.toNat) →
        let target : CodeAddr := BitVec.ofNat 32 (pair k / 2 ^ 32)
        Lands s u.ep target →
          (HeadAt s u.ep target → exec (.btag gd d a b count) s = .next (s.jump u target (got m))) ∧
          (¬ HeadAt s u.ep target → TakesTraps t →
            ∃ s', exec (.btag gd d a b count) s = .next s' ∧ TrapTaken s u t 0x03 (target.setWidth 64) 0 t.pc s')))

/-- R344 to R350: the instructions that begin, join and end tasks. -/
def Obligations.TaskInstructions : Prop := ForkAndJoin ∧ TaskEnds ∧ FrameYield ∧ TagBranch

/-- R118, R119, R356, R357: SEND puts a message into one of two places for injection, p7 = 1, or finds none free, p7 = 0; RECV takes the oldest
message of the inbox, or waits. Without a context channel both trap with cause 0x13. A message to an invalid virtual core of the own package
sets the sticky bit of the entry, of a migrant at its origin (R377). -/
def Sys2Proof.SendAndReceive : Prop :=
  ∀ (s : State) (u : Turn) (t : Thread) (gd : Guard) (d a b : Reg) (n : BitVec 5) (tag : BitVec 12),
    let w := (gr t a).toNat
    let own := epPkg u.ep
    let form := w / 2 ^ 62 = 1 ∧ w / 2 ^ 50 % 2 ^ 12 = 0 ∧ w / 2 ^ 4 % 2 ^ 20 = 0
    let peer := w / 2 ^ 40 % 2 ^ 10
    let msg : Msg := ⟨tag, own, t.vcore, t.vthr, (List.range n.toNat).map fun i => gr t (b + BitVec.ofNat 5 i)⟩
    t.region = none →
    (∀ k eb e base size, Issues s u t (.send gd a b n tag) → ctxChannel s own t.ctx ≠ 0 → form →
      peerOf s own t.sr.peermap peer = some (k, eb) →
      (if k = own then vcOf s own t.ctx (w / 2 ^ 24 % 2 ^ 16) = some (e, base, size) else e = gatewayEp k 0 0 1) → t.outbox.length < 2 →
      let out : OutMsg := ⟨e, ctxVc s own t.ctx, w / 2 ^ 24 % 2 ^ 16, w % 2 ^ 4, msg, ⟨t.sr.inst, t.sr.hnd, own⟩, eb⟩
      exec (.send gd a b n tag) s =
        .next ((countOut s u.ep t.ctx).retire u fun t => ({ t with outbox := t.outbox ++ [out] }).p7 true)) ∧
    (∀ eb, Issues s u t (.send gd a b n tag) → ctxChannel s own t.ctx ≠ 0 → form → peerOf s own t.sr.peermap peer = some (own, eb) →
      vcOf s own t.ctx (w / 2 ^ 24 % 2 ^ 16) = none → t.outbox.length < 2 →
      (t.origin = none → exec (.send gd a b n tag) s =
        .next ((countIn (countOut s u.ep t.ctx) u.ep t.ctx).retire u fun t => (t.stick eb).p7 true)) ∧
      (∀ o, t.origin = some o → ∃ s' p t', exec (.send gd a b n tag) s = .next s' ∧ s'.net = s.net ++ [p] ∧ p.dst = o.ep ∧
        (∃ q, p.body = .stickySet (1#64 <<< (eb % 64)) q (.ack 0)) ∧ s'.thr? u.ep u.slot = some t' ∧ t'.regs = (t.p7 true).regs ∧
        t'.sr = t.sr ∧ t'.outbox = t.outbox ∧ t'.pc = u.next)) ∧
    (∀ k eb, Issues s u t (.send gd a b n tag) → ctxChannel s own t.ctx ≠ 0 → form →
      peerOf s own t.sr.peermap peer = some (k, eb) → 2 ≤ t.outbox.length → Retires (.send gd a b n tag) s u (·.p7 false)) ∧
    (Issues s u t (.send gd a b n tag) → (ctxChannel s own t.ctx = 0 ∨ ¬ form ∨ peerOf s own t.sr.peermap peer = none) → TakesTraps t →
      ∃ s', exec (.send gd a b n tag) s = .next s' ∧ TrapTaken s u t 0x13 (gr t a) peer t.pc s') ∧
    (∀ m rest, Issues s u t (.recv gd d a n) → ctxChannel s own t.ctx ≠ 0 → t.inbox = m :: rest → m.words.length ≤ 16 →
      ∃ v : Word, Retires (.recv gd d a n) s u (fun t => ((m.words.take n.toNat).zipIdx.foldl
          (fun (t : Thread) (y, i) => t.putG (d + 1 + BitVec.ofNat 5 i) y) (({ t with inbox := rest }).putG d v)).p7 true) ∧
        v.toNat % 2 ^ 12 = m.tag.toNat ∧ v.toNat / 2 ^ 12 % 2 ^ 14 = m.words.length ∧ v.toNat / 2 ^ 26 % 2 ^ 4 = m.vthr % 2 ^ 4 ∧
        v.toNat / 2 ^ 30 % 2 ^ 16 = m.vcore % 2 ^ 16 ∧ v.toNat / 2 ^ 46 = m.pkg % 2 ^ 10) ∧
    (Issues s u t (.recv gd d a n) → ctxChannel s own t.ctx ≠ 0 → t.inbox = [] → t.park = none →
      (gr t a = 0 → Retires (.recv gd d a n) s u (·.p7 false)) ∧ (gr t a ≠ 0 → Waits (.recv gd d a n) s u t .inbox)) ∧
    (Issues s u t (.recv gd d a n) → ctxChannel s own t.ctx = 0 → TakesTraps t →
      ∃ s', exec (.recv gd d a n) s = .next s' ∧ TrapTaken s u t 0x13 0 0 t.pc s')

/-- R276, R351 to R355: SPAWN and ENQ place an item in a queue of the own package that serves the context and has room, p7 = 1, else p7 = 0; an
ENQ on another package uses one of the slot's reservations; DEQ takes the oldest item of a MODE 2 queue in its turn, once its line can be read (R82); QRES gives the
reservations held, and asks for more. -/
def Sys2Proof.QueueInstructions : Prop :=
  ∀ (s : State) (u : Turn) (t : Thread) (gd : Guard) (d a b c : Reg) (sh ack : Bool) (imm : BitVec 32) (q pkg eb : Nat),
    let own := epPkg u.ep
    let mine : Carry := ⟨t.sr.inst, t.sr.hnd, own⟩
    let now : Word := BitVec.ofNat 64 (t.qres.count + t.qres.outstanding.toNat * 2 ^ 63)
    t.region = none →
    (Issues s u t (.spawn gd a b sh imm) → checkSel s u.ep t (gr t b) true = .ok (q, own, eb) →
      (qServes s own q 1 t.ctx = true → ringFull s own q = false → ∃ pkt : Packet, pkt.length = 8 ∧
        (pkt.getD 0 0).toNat % 2 ^ 32 = (BitVec.ofInt 32 (t.pc.toNat + 2 * imm.toInt) : CodeAddr).toNat ∧ pkt.getD 1 0 = gr t a ∧
        pkt.getD 2 0 = t.sr.inst ++ t.sr.hnd ∧ pkt.getD 3 0 = gr t (a + 1) ∧ pkt.getD 6 0 = gr t (a + 2) ∧ pkt.getD 7 0 = gr t (a + 3) ∧
        exec (.spawn gd a b sh imm) s = .next ((pushItem s own q pkt mine).retire u (·.p7 true))) ∧
      (qServes s own q 1 t.ctx = false ∨ ringFull s own q = true → Retires (.spawn gd a b sh imm) s u (·.p7 false))) ∧
    (Issues s u t (.enq gd a b c ack) → checkSel s u.ep t (gr t a) false = .ok (q, own, eb) →
      (qServes s own q 1 t.ctx = true ∨ qServes s own q 2 t.ctx = true → ringFull s own q = false →
        exec (.enq gd a b c ack) s = .next ((pushItem s own q (wordsFrom t b) mine).retire u (·.p7 true))) ∧
      (qServes s own q 1 t.ctx = false → qServes s own q 2 t.ctx = false → Retires (.enq gd a b c ack) s u (·.p7 false)) ∧
      (qServes s own q 1 t.ctx = true ∨ qServes s own q 2 t.ctx = true → ringFull s own q = true →
        (qBw (qDesc s own q) = false → Retires (.enq gd a b c ack) s u (·.p7 false)) ∧
        (qBw (qDesc s own q) = true → t.park = none → gr t c ≠ 0 → Waits (.enq gd a b c ack) s u t (.queueRoom q)) ∧
        (qBw (qDesc s own q) = true → t.park = none → gr t c = 0 → TakesTraps t →
          let place := fun (x : Nat) => x % qEntries (qDesc s own q)
          ∃ s', exec (.enq gd a b c ack) s = .next s' ∧ TrapTaken s u t 0x18 (BitVec.ofNat 64 q)
            (place (s.queue own q).head + place (s.queue own q).tail * 2 ^ 16) t.pc s'))) ∧
    (Issues s u t (.enq gd a b c false) → checkSel s u.ep t (gr t a) false = .ok (q, pkg, eb) → pkg ≠ own →
      (t.qres.count ≠ 0 → t.qres.sel = gr t a → ∃ s' p t', exec (.enq gd a b c false) s = .next s' ∧ s'.net = s.net ++ [p] ∧
        p.dst = hostGwEp pkg ∧ p.body = .enq q ((wordsFrom t b).set 2 (t.sr.inst ++ t.sr.hnd)) false ∧ p.carry = mine ∧
        s'.thr? u.ep u.slot = some t' ∧ t'.qres = { t.qres with count := t.qres.count - 1 } ∧ t'.regs = (t.p7 true).regs ∧
        t'.pc = u.next) ∧
      (t.qres.count = 0 ∨ t.qres.sel ≠ gr t a → Retires (.enq gd a b c false) s u (·.p7 false))) ∧
    (Issues s u t (.enq gd a b c true) → checkSel s u.ep t (gr t a) false = .ok (q, pkg, eb) → pkg ≠ own → t.qres.count ≠ 0 →
      t.qres.sel = gr t a → Asks (.enq gd a b c true) s u t (hostGwEp pkg) eb
        (.enq q ((wordsFrom t b).set 2 (t.sr.inst ++ t.sr.hnd)) true) .fullEmpty 0) ∧
    (Issues s u t (.deq gd d a c) → checkSel s u.ep t (gr t a) true = .ok (q, own, eb) →
      (qServes s own q 2 t.ctx = false → Retires (.deq gd d a c) s u (·.p7 false)) ∧
      (qServes s own q 2 t.ctx = true → takersOf s own q = [] → headThere s own q = true →
        let item := popItem s own q
        ∃ s' t', exec (.deq gd d a c) s = .next s' ∧ s'.thr? u.ep u.slot = some t' ∧ t'.pc = u.next ∧ t'.park = none ∧
          t'.regs = ((item.1.zipIdx.foldl (fun (t : Thread) (x, i) => t.putG (d + BitVec.ofNat 5 i) x) t).p7 true).regs ∧
          (s'.queue own q).head = (s.queue own q).head + 1 ∧ (s'.queue own q).tail = (s.queue own q).tail) ∧
      (qServes s own q 2 t.ctx = true → takersOf s own q = [] → (s.queue own q).head < (s.queue own q).tail →
        headThere s own q = false → Waits (.deq gd d a c) s u t (.queueItem q t.uid)) ∧
      (qServes s own q 2 t.ctx = true → takersOf s own q = [] → (s.queue own q).head = (s.queue own q).tail → t.park = none →
        (gr t c ≠ 0 → Waits (.deq gd d a c) s u t (.queueItem q t.uid)) ∧
        (gr t c = 0 → ∃ s' t', exec (.deq gd d a c) s = .next s' ∧ s'.thr? u.ep u.slot = some t' ∧ t'.regs = (t.p7 false).regs ∧
          t'.pc = u.next))) ∧
    (Issues s u t (.qres gd d a b) → checkSel s u.ep t (gr t a) false = .ok (q, pkg, eb) →
      let n := (gr t b).toNat
      (n = 0 → Retires (.qres gd d a b) s u fun t => (t.putG d now).p7 true) ∧
      (n ≠ 0 → (selPeer (gr t a) = 0 ∨ 4096 < n ∨ t.qres.outstanding = true ∨ (t.qres.count ≠ 0 ∧ t.qres.sel ≠ gr t a)) →
        Retires (.qres gd d a b) s u fun t => (t.putG d now).p7 false) ∧
      (n ≠ 0 → n ≤ 4096 → selPeer (gr t a) ≠ 0 → t.qres.outstanding = false → (t.qres.count = 0 ∨ t.qres.sel = gr t a) →
        ∃ s' p t', exec (.qres gd d a b) s = .next s' ∧ s'.net = s.net ++ [p] ∧ p.dst = hostGwEp pkg ∧ p.body = .qresReq q n ∧
          s'.thr? u.ep u.slot = some t' ∧ t'.qres = ⟨gr t a, t.qres.count, true⟩ ∧ t'.regs = ((t.putG d now).p7 true).regs ∧
          t'.pc = u.next))

/-- R279, R358: QPROBE of a domain the thread may probe begins one probe and waits; while one of the domain is under way it waits for that, or
with timeout 0 gives 2^63 and p7 = 0; another operand traps with cause 0x13. -/
def Sys2Proof.PhaseProbe : Prop :=
  ∀ (s : State) (u : Turn) (t : Thread) (gd : Guard) (d a b : Reg) (dom : Nat) (pkgs : List Nat), Issues s u t (.qprobe gd d a b) →
    let probes := (s.pkg (epPkg u.ep)).probes
    (probeDomain s u.ep t (gr t a) = none → TakesTraps t →
      ∃ s', exec (.qprobe gd d a b) s = .next s' ∧ TrapTaken s u t 0x13 (gr t a) ((gr t a).toNat / 2 ^ 40 % 2 ^ 10) t.pc s') ∧
    (probeDomain s u.ep t (gr t a) = some (dom, pkgs) → probing s dom = false →
      ∃ s' x t' p, exec (.qprobe gd d a b) s = .next s' ∧ (s'.pkg (epPkg u.ep)).probes = probes ++ [⟨dom, pkgs, some x⟩] ∧ x.uid = t.uid ∧
        s'.thr? u.ep u.slot = some t' ∧ t'.park = some p ∧ p.why = .probe ∧ p.dst = d ∧ t'.regs = t.regs ∧ s'.turn = none) ∧
    (probeDomain s u.ep t (gr t a) = some (dom, pkgs) → probing s dom = true → t.park = none →
      (gr t b = 0 → Retires (.qprobe gd d a b) s u fun t => (t.putG d (BitVec.ofNat 64 (2 ^ 63))).p7 false) ∧
      (gr t b ≠ 0 → Waits (.qprobe gd d a b) s u t (.probeFree dom)))

/-- R276 to R279, R351 to R358: messages, queues and the phase probe. -/
def Obligations.MessageInstructions : Prop := SendAndReceive ∧ QueueInstructions ∧ PhaseProbe

/-- R256, R257, R258, R259, R192, R217: ISSUE_TURN begins a cycle of a core that issues. The thread of the cycle's own position receives the
turn where it is runnable: it is not parked, or the condition that its instruction waits for holds. Where that position's is not, the turn
goes to a runnable thread whose last turn is eight cycles old and whose positions lie eight or more cycles before and after, the one
whose last turn is the oldest, of several in the lowest slot; with no such thread nobody has it. -/
def Sys2Proof.TurnsGranted : Prop :=
  ∀ (s : State) (e : EP) (lost : Bool) (c : Core), s.turn = none → coreIssues s e = true → tget s.cores e = some c → c.swaps = [] → c.broken = [] →
    (∀ k t, s.thr? e k = some t → t.pair = none ∧ t.region = none ∧ expired s e ⟨t.sr.inst, t.sr.hnd, epPkg e⟩ = false) →
    let n := slotCount e
    let own := c.cycle % n
    let begun := fun (c : Core) => { c with cycle := c.cycle + 1 }
    let ready := fun (k : Nat) => ∃ t, s.thr? e k = some t ∧ t.stopped = false ∧ ∀ p, t.park = some p → ∃ x, p.why = .again x ∧
      (t.xf = none ∨ x = .xfence ∨ x = .partner ∨ x = .released) ∧ holds (s.modCore e begun) e t x = true
    let last := fun (k : Nat) => (tget c.turns k).getD 0
    let spare := fun (k : Nat) => ready k ∧ k < n ∧ (last k = 0 ∨ last k + 7 ≤ c.cycle) ∧ 8 ≤ (own + n - k) % n ∧ 8 ≤ (k + n - own) % n
    let granted := fun (k : Nat) (t : Thread) => { s.modCore e fun c => { begun c with turns := tput k (c.cycle + 1) c.turns } with
      turn := some ⟨e, k, t.pc, 0, lost⟩ }
    (∀ t, s.thr? e own = some t → ready own → exec (.issueTurn e lost) s = .next (granted own t)) ∧
    (∀ k t, ¬ ready own → spare k → (∀ j, spare j → last k < last j ∨ last k = last j ∧ k ≤ j) → s.thr? e k = some t →
      exec (.issueTurn e lost) s = .next (granted k t)) ∧
    (¬ ready own → (∀ k, ¬ spare k) → exec (.issueTurn e lost) s = .next (s.modCore e begun))

/-- R260, R485, R347: WAIT_TIMEOUT ends a wait whose time has passed with p7 = 0 and nothing else, a pending XFENCE too, in a redundant
pair for both threads (R294). XFENCE_COMPLETE sets p7
once step 2 has begun and its entries are written. JOIN_BUSY_RETRY sends a fresh read once 256 cycles have passed. -/
def Sys2Proof.WaitsEnd : Prop :=
  ∀ (s : State) (e : EP) (slot : Nat) (t : Thread), s.thr? e slot = some t →
    let now := (s.core e).cycle
    (∀ p l, t.xf = none → t.park = some p → p.limit = some l → l < now →
      (p.why ∈ [Wait.fullEmpty, .joinWatch, .work p.dst false false] ∨ ∃ c, p.why = .again c ∧ holds s e t c = false ∧
        (∀ q, c ≠ .queueRoom q) ∧ (∀ dom, c ≠ .probeFree dom) ∧ ∀ x, c ≠ .imageSettled x) →
      exec (.waitTimeout e slot) s = .next (s.modThr e slot fun t => (t.p7 false).goTo p.next)) ∧
    (∀ x l, t.pair = none → t.xf = some x → x.limit = some l → l < now → t.park = none → ∃ t', exec (.waitTimeout e slot) s =
      .next (s.modThr e slot fun _ => t') ∧ t'.xf = none ∧ t'.regs = (t.p7 false).regs ∧ t'.sr = t.sr ∧ t'.pc = t.pc) ∧
    (∀ x, t.pair = none → t.xf = some x → t.park = none → (∀ l, x.limit = some l → now ≤ l) → x.step2 = true → (∀ q ∈ (s.core e).destQ, x.destUpTo ≤ q.num) →
      (∀ q ∈ (s.core e).tileQ, x.tileUpTo ≤ q.num) → ∃ t', exec (.xfenceComplete e slot) s = .next (s.modThr e slot fun _ => t') ∧
        t'.xf = none ∧ t'.regs = (t.p7 true).regs ∧ t'.sr = t.sr ∧ t'.pc = t.pc) ∧
    (∀ x l q o y, t.pair = some q → q.lead = true → q.other ≠ slot → t.xf = some x → x.limit = some l → l < now → t.park = none →
      s.thr? e q.other = some o → o.xf = some y → o.park = none → ∃ s' t' o', exec (.waitTimeout e slot) s = .next s' ∧
        s'.thr? e slot = some t' ∧ s'.thr? e q.other = some o' ∧ t'.xf = none ∧ t'.regs = (t.p7 false).regs ∧ o'.xf = none ∧
        o'.regs = (o.p7 false).regs) ∧
    (∀ x, t.pair = none → t.xf = some x → (∀ l, x.limit = some l → now ≤ l) → x.step2 = false → drainedMask s e t x.frm x.hostUpTo = false →
      exec (.xfenceComplete e slot) s = .next (s.modThr e slot fun t => { t with xf := some x })) ∧
    (∀ p at_ ja r, t.park = some p → p.why = .joinBusy at_ → at_ ≤ now → joinRoute s e t (BitVec.ofNat 64 p.aux) true = .ok (ja, r) →
      ∃ s' q t' k, exec (.joinBusyRetry e slot) s = .next s' ∧ s'.net = s.net ++ [q] ∧ q.src = e ∧ q.dst = r.dst ∧
        q.body = .access r.vcore r.off r.phys .joinRead none false false ∧ q.req.uid = t.uid ∧ s'.thr? e slot = some t' ∧
        t'.park = some k ∧ k.why = .joinWatch ∧ q.req.entry = 16 + 32 * k.ser ∧ k.limit = p.limit ∧ t'.regs = t.regs)

/-- R256, R257, R260, R347, R485: turns and the ends of waits. -/
def Obligations.TurnEvents : Prop := TurnsGranted ∧ WaitsEnd

/-- R473 to R480: the order of boot. A package that powers up is in state 0, the trained KBL brings state 1, GO in state 1 or 4 state 2, the
check state 3 with the measurement or state 4 with its code, and the firmware state 5 with every core released as R49 says; power loss
clears all but the attestation index. A request takes the next index, and its report of 92 bytes is signed with 5076 bytes: one signed
public key, that of the index's lower tree, and a signature with it (R478). SHA-256 is computed as its standard defines it (log 10); that a
KBL which went down and trains again is up in every state of boot is the model's choice (log 44). -/
def Obligations.BootOrder : Prop :=
  ∀ (s : State) (pkg : Nat), pkg < 1024 →
    let p := s.pkg pkg
    let b := p.bridge
    (p.powered = false → ∃ s', exec (.powerGood pkg) s = .next s' ∧ (s'.pkg pkg).powered = true ∧ (s'.pkg pkg).bridge.bootState = 0 ∧
      (s'.pkg pkg).kblUp = false ∧ (s'.pkg pkg).flash = p.flash ∧ (∀ d < 8, s'.die (pkg * 8 + d) = Die.start) ∧ s'.cores = s.cores) ∧
    (p.powered = true → exec (.powerGood pkg) s = .next s) ∧
    (p.powered = true → ∃ s', exec (.kblTrained pkg) s = .next s' ∧ (s'.pkg pkg).kblUp = true ∧
      (s'.pkg pkg).bridge = { b with bootState := if b.bootState = 0 then 1 else b.bootState }) ∧
    (hostReaches s pkg = true → b.bootState = 1 ∨ b.bootState = 4 → exec (.bootGo pkg) s =
      .next ((kblGood s pkg).modBridge pkg fun b => { b with bootState := 2, bootFail := 0 })) ∧
    (hostReaches s pkg = true → b.bootState ≠ 1 → b.bootState ≠ 4 → exec (.bootGo pkg) s = .next (kblGood s pkg)) ∧
    (p.powered = true → b.bootState = 2 →
      (mread p.staging 0 4 ≠ 0x4B314E41 → exec (.bootVerify pkg) s =
        .next (s.modBridge pkg fun b => { b with bootState := 4, bootFail := 1 })) ∧
      (bootChecks pkg p.staging = 0 → exec (.bootVerify pkg) s = .next (s.modPkg pkg fun p => { p with
        measure := sha256 (List.replicate 32 0 ++ leBytes 32 (sha256 (mbytes p.staging 0 0x60 ++
          mbytes p.staging 0x1000 (mread p.staging 8 4))).toNat),
        svn := BitVec.ofNat 32 (mread p.staging 12 4), bridge := { p.bridge with bootState := 3, bootFail := 0 } }))) ∧
    (∀ (now : Word) links, p.powered = true → b.bootState = 3 → 2 ^ 32 ≤ now.toNat → b.master = true →
      ∃ s', exec (.firmwareInitComplete pkg now links [] []) s = .next s' ∧ (s'.pkg pkg).bridge = { b with bootState := 5 } ∧
        (∀ d < 8, (s'.die (pkg * 8 + d)).now = now) ∧ (∀ e ∈ packageCores pkg, s'.core? e = some { Core.start (kindOf e) with mgmt := s.mgmt e })) ∧
    (p.powered = true → (∀ q ∈ s.net, epPkg q.dst = pkg → epPkg q.src = pkg) → ∃ s', exec (.powerLoss pkg) s = .next s' ∧ (s'.pkg pkg).powered = false ∧ (s'.pkg pkg).flash = p.flash ∧
      ∀ e, epPkg e = pkg → s'.core? e = none) ∧
    (∀ w : Word, hostReaches s pkg = true → w.getLsbD 0 = true → b.attState ≠ 1 →
      (p.flash < 2 ^ 20 → exec (.attestationRequest pkg w) s = .next ((kblGood s pkg).modPkg pkg fun p => { p with
        flash := p.flash + 1, bridge := { p.bridge with attState := 1, attIndex := BitVec.ofNat 20 p.flash } })) ∧
      (2 ^ 20 ≤ p.flash → exec (.attestationRequest pkg w) s = .next ((kblGood s pkg).modBridge pkg fun b => { b with attState := 3 }))) ∧
    (p.powered = true → b.attState = 1 → ∃ s', exec (.attestationDone pkg) s = .next s' ∧
      let r := leBytes 32 b.attnonce.toNat ++ leBytes 16 (Config.fuseDeviceId pkg).toNat ++ leBytes 32 p.measure.toNat ++
        leBytes 4 (Config.fuseMinSvn pkg).toNat ++ leBytes 4 p.svn.toNat ++ leBytes 4 b.attIndex.toNat
      let sig := hssSign pkg b.attIndex.toNat r
      (s'.pkg pkg).bridge = { b with attState := 2, attReport := r, attSig := sig } ∧ r.length = 92 ∧ sig.length = 5076 ∧
        sig.take 4 = beBytes 4 1 ∧ (sig.drop 4).take 4 = beBytes 4 (b.attIndex.toNat / 1024) ∧
        (sig.drop 2512).take 56 = lowerKey pkg (b.attIndex.toNat / 1024) ∧ (sig.drop 2568).take 4 = beBytes 4 (b.attIndex.toNat % 1024))

/-- R462, R472: an event takes its place in the log in the order of the numbers, where it has room; a missing number holds the log back, and
after 1 ms an entry of kind 1 with count 0 fills the gap. -/
def Sys2Proof.EventLog : Prop :=
  ∀ (s : State) (pkg k : Nat),
    let b := (s.pkg pkg).bridge
    let now := s.pkgNow pkg
    (∀ e, b.events[k]? = some e → e.seq = b.evnext → (b.evnext - b.evread).toNat < 128 → b.dropped = 0 →
      exec (.eventLogPlace pkg k) s = .next (s.modBridge pkg fun b => { b with
        events := dropAt k b.events, evlog := tput (e.seq.toNat % 128) e b.evlog, evnext := b.evnext + 1, gap := none })) ∧
    (∀ e, b.events[k]? = some e → (e.seq ≠ b.evnext ∨ 128 ≤ (b.evnext - b.evread).toNat) → exec (.eventLogPlace pkg k) s = .next s) ∧
    (b.events ≠ [] → (∀ e ∈ b.events, e.seq ≠ b.evnext) → b.gap = none →
      exec (.eventGapTimeout pkg) s = .next (s.modBridge pkg fun b => { b with gap := some now.toNat })) ∧
    (∀ t, b.events ≠ [] → (∀ e ∈ b.events, e.seq ≠ b.evnext) → b.gap = some t → t + 1000000 ≤ now.toNat →
      (b.evnext - b.evread).toNat < 128 → exec (.eventGapTimeout pkg) s = .next (s.modBridge pkg fun b => { b with
        evlog := tput (b.evnext.toNat % 128) ⟨1, 0, bridgeEp pkg, 255, now, 0, b.evnext⟩ b.evlog, evnext := b.evnext + 1, gap := none }))

/-- R469, R470, R471, R472: the writes of the management registers. A base register keeps bits 55:12, a setting takes the nearest value of its
range; a misaligned write is discarded and logged. COMMIT is busy until the units have read its entry anew (R470), when a queue's entries
count from 0; that the entry's waiting list is emptied then is the model's choice (log 23). LOSTCLR takes a package off the lost ones, a 0
in CHSTAT restores a channel. The nearest value is deduced (log 45); that a write of LTIDX reads the entry into LTDATA is the model's
choice (log 83). -/
def Sys2Proof.ManagementWrites : Prop :=
  ∀ (s : State) (pkg : Nat) (w : Word),
    let b := (s.pkg pkg).bridge
    let g := kblGood s pkg
    let write := fun (off : Nat) (f : Bridge → Bridge) => exec (.managementRegisterWrite pkg off w) s = .next (g.modBridge pkg f)
    let table := fun (off kind : Nat) (f : Bridge → Bridge) =>
      exec (.managementRegisterWrite pkg off w) s = .next (dropTable (g.modBridge pkg f) pkg kind)
    let idx := w.toNat % 2 ^ 16
    let base : Word := BitVec.ofNat 64 (w.toNat / 2 ^ 12 % 2 ^ 44 * 2 ^ 12)
    let near := fun (lo hi : Nat) => max lo (min hi w.toNat)
    hostReaches s pkg = true →
    table 0x10 0 (fun b => { b with ctxbase := base }) ∧ table 0x18 3 (fun b => { b with grpbase := base }) ∧
    table 0x20 1 (fun b => { b with qdbase := base }) ∧ table 0x28 2 (fun b => { b with commbase := base }) ∧
    write 0x40 (fun b => { b with settle := BitVec.ofNat 7 (near 1 64) }) ∧
    write 0x48 (fun b => { b with mirrto := BitVec.ofNat 10 (near 1 1000) }) ∧
    write 0x50 (fun b => { b with commto := BitVec.ofNat 14 (near 10 10000) }) ∧
    write 0x58 (fun b => { b with scrub := BitVec.ofNat 8 (near 1 168) }) ∧
    write 0x60 (fun b => { b with plim := BitVec.ofNat 13 (near 500 4500) }) ∧ write 0x68 (fun b => { b with master := w.getLsbD 0 }) ∧
    write 0x100 (fun b => { b with mgaddr := w &&& 0xC0FFFFFF000000FF }) ∧ 
    write 0x110 (fun b => { b with ltidx := w.setWidth 16, ltdata := BitVec.ofNat 256 (lapseBits pkg idx (s.lapse? pkg idx)) }) ∧
    write 0x208 (fun b => { b with evread := w.setWidth 32 }) ∧
    (∀ off ∈ [0x08, 0x38, 0x70, 0x78, 0x80, 0x118, 0x120, 0x128, 0x130, 0x200, 0x1000, 0x2028, 0x2100, 0x3800],
      exec (.managementRegisterWrite pkg off w) s = .next g) ∧
    (∀ off < 0x10000, off % 8 ≠ 0 → exec (.managementRegisterWrite pkg off w) s = .next (mgDiscard g pkg (BitVec.ofNat 64 off))) ∧
    exec (.evreadWrite pkg w) s = .next (g.modBridge pkg fun b => { b with evread := w.setWidth 32 }) ∧
    (b.commit = none → w.toNat / 2 ^ 14 % 2 ^ 48 = 0 → w.toNat % 2 ^ 14 < (if w.toNat / 2 ^ 62 = 1 then 16384 else
      if w.toNat / 2 ^ 62 = 2 then 256 else 4096) → exec (.commitWrite pkg w) s = .next (g.modBridge pkg fun b => { b with commit := some w })) ∧
    (∀ v, b.commit = some v →
      let kind := v.toNat / 2 ^ 62
      let i := v.toNat % 2 ^ 14
      let busy := entryWaits (dropCopies s pkg (· == entryKey kind i)) pkg kind i
      (busy = true → exec (.commitComplete pkg) s = .next s) ∧
      (busy = false → ∃ s', exec (.commitComplete pkg) s = .next s' ∧ (s'.pkg pkg).bridge.commit = none ∧
        tget (s'.pkg pkg).copies (entryKey kind i) = some (physWord s' (entryAt s pkg kind i).1 (entryAt s pkg kind i).2) ∧
        (kind = 1 → (s'.queue pkg i).next = 0 ∧ (s'.queue pkg i).waiting = []))) ∧
    exec (.lostclrWrite pkg w) s = .next (g.modPkg pkg fun p => { p with lost := p.lost.filter fun k => decide (k ≠ w.toNat % 1024) }) ∧
    (∀ e, isCore e = true → epKind e = 1 → exec (.chstatWrite e w) s = .next (if w.getLsbD 0 = true then s
      else s.modMgmt e fun m => { m with failed := false }))

/-- R471, R481, R482, R483: MGDATA gives the selected register, and clears a counter; ISLCTL, droop and telemetry. -/
def Sys2Proof.CountersAndIslands : Prop :=
  ∀ (s : State) (pkg isl n : Nat), isl < 1024 → (s.pkg pkg).powered = true →
    let x := s.island pkg isl
    let b := (s.pkg pkg).bridge
    (∀ e, hostReaches s pkg = true → b.mgaddr.toNat = e * 2 ^ 32 + 0x20 → isCore e = true → epPkg e = pkg →
      ∃ s', exec (.counterReadClear pkg) s = .next s' ∧ (s'.pkg pkg).hostValue = (s.mgmt e).secnt.toNat ∧
        s'.mgmt e = { s.mgmt e with secnt := 0 }) ∧
    (∀ w : BitVec 32, (w.getLsbD 31 = true ∨ ∀ e ∈ islandCores pkg isl, (s.core e).groups = []) →
      exec (.islctlWrite pkg isl w) s = .next (s.modIsland pkg isl fun x => { x with
        en := w.getLsbD 31, fstep := w.extractLsb' 20 4, dth := w.extractLsb' 16 4 })) ∧
    (x.stretched = false → 10 + 5 * x.dth.toNat < n → exec (.droopStretchStart pkg isl n) s =
      .next (s.modIsland pkg isl fun x => { x with stretched := true, nstr := BitVec.ofNat 16 (min (x.nstr.toNat + 1) 0xFFFF) })) ∧
    (x.stretched = true → n + 5 ≤ 10 + 5 * x.dth.toNat → exec (.droopStretchEnd pkg isl n) s =
      .next (s.modIsland pkg isl fun x => { x with stretched := false })) ∧
    (∀ mv temp watts, temp < 1250 → watts ≤ b.plim.toNat → exec (.telemetrySample pkg isl mv temp watts) s =
      .next (s.modIsland pkg isl fun x => { x with
        mv := BitVec.ofNat 16 mv, temp := BitVec.ofNat 16 temp,
        halved := if 1050 ≤ temp then true else if temp ≤ 1000 then false else x.halved })) ∧
    (∀ mv temp watts, 1250 ≤ temp → (∀ q ∈ s.net, epPkg q.dst = pkg → epPkg q.src = pkg) → ∃ s', exec (.telemetrySample pkg isl mv temp watts) s = .next s' ∧ (s'.pkg pkg).powered = false)

/-- R109, R199, R200, R463: replays that fail are counted, and at the eighth in a row the port, or the KBL, is down, with an event; a package
slews its time base by 100 ppm towards its master's, and an error above 250 ns is told. -/
def Sys2Proof.LinksAndTime : Prop :=
  ∀ (s : State) (pkg port err : Nat) (master : Word), (s.pkg pkg).powered = true →
    let p := s.pkg pkg
    let n := (tget p.replays port).getD 0 + 1
    let own := (s.pkgNow pkg).toNat
    let slew : Int := if own < master.toNat then 100 else if master.toNat < own then -100 else 0
    let far := max own master.toNat - min own master.toNat
    (port < 32 → port ∉ p.portsDown → n < 8 →
      exec (.linkFlitCrcFail pkg port) s = .next (s.modPkg pkg fun p => { p with replays := tput port n p.replays })) ∧
    (port < 32 → port ∉ p.portsDown → n = 8 → (∀ q ∈ s.net, q.stage ≠ .link) → (∀ x ∈ p.links, x.2 ≠ (port / 4, port % 4)) →
      ∃ s', exec (.linkFlitCrcFail pkg port) s = .next s' ∧ (s'.pkg pkg).portsDown = p.portsDown ++ [port] ∧
        (s'.pkg pkg).links = p.links ∧ s'.net = s.net) ∧
    (p.kblUp = true → p.kblFails + 1 < 8 →
      exec (.kblFlitCrcFail pkg) s = .next (s.modPkg pkg fun p => { p with kblFails := p.kblFails + 1 })) ∧
    (p.kblUp = true → p.kblFails + 1 = 8 → ∃ s', exec (.kblFlitCrcFail pkg) s = .next s' ∧ (s'.pkg pkg).kblUp = false ∧
      (s'.pkg pkg).hostRecs = p.hostRecs) ∧
    (p.bridge.bootState = 5 → p.bridge.master = false → far ≤ 250 ∨ p.bridge.unsync = true →
      exec (.timeSyncFlit pkg master) s = .next (s.modPkg pkg fun p => { p with slew := slew })) ∧
    (p.bridge.bootState = 5 → p.bridge.master = false → 250 < far → ∃ s', exec (.timeSyncFlit pkg master) s = .next s' ∧
      (s'.pkg pkg).slew = slew ∧ (s'.pkg pkg).bridge.unsync = true) ∧
    (p.bridge.bootState = 5 → p.bridge.master = false → ∃ s', exec (.timeSyncLost pkg err) s = .next s' ∧ (s'.pkg pkg).slew = 0 ∧
      (s'.pkg pkg).bridge.unsync = (p.bridge.unsync || decide (250 < err)))

/-- R109, R199, R200, R462 to R472, R481 to R483: the management plane, islands, links and the time base. -/
def Obligations.ManagementEvents : Prop := EventLog ∧ ManagementWrites ∧ CountersAndIslands ∧ LinksAndTime

/-- The k-th packet of the net has arrived at its endpoint: no earlier one of its flow is before it and its channel is not held (R108, R110). -/
def Sys2Proof.Arrives (s : State) (k : Nat) (p : Pkt) : Prop := arrivedPkt s k = some p

/-- An arrival leaves the state s', whose replies to a request of a mirrored page carry that request (R100), and a proxy that only the packet
kept ends (R207, R209). -/
def Sys2Proof.Becomes (i : Instr) (s : State) (p : Pkt) (s' : State) : Prop :=
  exec i s = .next (reapProxy (s.noteReplies s' p) (epPkg p.dst) p.carry.hnd.toNat)

/-- R208, R209, R216, R459: GATEWAY_EGRESS. A packet that has not lapsed leaves with the identity of its handle: a request's own, when the
package far off joins the export list with a reference; a proxy's origin's, where a third package is told to the origin and the proxy
kept until then. A lapsed message is dropped and reported. That the pieces of a COLL meet no lapse check is the model's choice (log 22). -/
def Sys2Proof.GatewayEgress : Prop :=
  ∀ (s : State) (k : Nat) (p : Pkt), s.net[k]? = some p → p.stage = .egress → waitsBehind s k p = false →
    let own := epPkg p.src
    let far := epPkg p.dst
    let h := p.carry.hnd.toNat
    let i := Instr.gatewayEgress k
    let leaves := fun (s : State) (c : Carry) => { s with net := modAt (fun p => { p with stage := .link, carry := c }) k s.net }
    let checked := (∀ a b c d e f, p.body ≠ .chunk a b c d e f) ∧ (p.ofColl = true ∨ expired s (egressOf s own far) p.carry = false)
    reachable s own far = true → far ≠ own → (bothLost p ≠ none → isLost s own far = false) →
    (checked → h = 0 ∨ p.carry.opkg ≠ own → exec i s = .next (leaves s p.carry)) ∧
    (∀ e, checked → h ≠ 0 → p.carry.opkg = own → s.lapse? own h = some e → e.kind ≠ .proxy → e.l = false →
      (far ∉ e.exports → e.exports.length < 8 → exec i s = .next (leaves
        (s.modLapse own h fun e => { e with exports := e.exports ++ [far], ref := e.ref + 1, settle := none })
        ⟨p.carry.inst, p.carry.hnd, own⟩)) ∧
      (far ∉ e.exports → 8 ≤ e.exports.length → exec i s = .next (leaves
        (s.modLapse own h fun e => { e with overflow := true }) ⟨p.carry.inst, p.carry.hnd, own⟩)) ∧
      (far ∈ e.exports → exec i s = .next (leaves s ⟨p.carry.inst, p.carry.hnd, own⟩))) ∧
    (∀ e, checked → h ≠ 0 → p.carry.opkg = own → s.lapse? own h = some e → e.kind = .proxy → e.opkg ≠ own →
      (far = e.opkg → exec i s = .next (leaves s ⟨p.carry.inst, e.ohnd, far⟩)) ∧
      (far ≠ e.opkg → exec i s = .next (leaves { s.modLapse own h fun e => { e with ref := e.ref + 1, settle := none } with
        ctl := s.ctl ++ [.exportNotice own e.opkg e.ohnd.toNat far h] } ⟨p.carry.inst, e.ohnd, e.opkg⟩))) ∧
    (∀ v n m, p.body = .message v n m → expired s (egressOf s own far) p.carry = true → h ≠ 0 → p.carry.opkg = own →
      ∃ s', exec i s = .next s' ∧ s'.net = dropAt k s.net ∧ s'.ctl = s.ctl ++ [.drop own h 0 1 0])

/-- R109: a package that cannot be reached refuses at the egress gateway: an access, message or command gets its answer from there. A reply to
a request of a mirrored page is lost there, and left to the mirror timeout (R100). -/
def Sys2Proof.UnreachableRefuses : Prop :=
  ∀ (s : State) (k : Nat) (p : Pkt), s.net[k]? = some p → p.stage = .egress → waitsBehind s k p = false →
    reachable s (epPkg p.src) (epPkg p.dst) = false →
    (∀ a, p.asked = some a → (∀ pa bs fin c, p.body ≠ .mirrorWrite pa bs fin c) → exec (.gatewayEgress k) s =
      .next { s with net := modAt (fun p => { p with stage := .lost }) k s.net }) ∧
    (p.asked = none → ((∃ v off ph acc r x l, p.body = .access v off ph acc r x l) ∨ (∃ v n m, p.body = .message v n m) ∨ ∃ w, p.body = .program w) →
      ∃ s' q, exec (.gatewayEgress k) s = .next s' ∧ s'.net = dropAt k s.net ++ [q] ∧ q.src = p.src ∧ q.dst = p.req.ep ∧ q.vc = 0 ∧
      q.req = p.req ∧ q.body = .answer .refused)

/-- R14, R15, R208, R216, R459: GATEWAY_INGRESS. A packet enters its package with a local handle: none, the own one, or a proxy, made from a
free handle where there is none, which takes a later carried instant; an access or message goes on to the core of its virtual core, or
is refused where the map names none. A lapsed message is dropped and its origin told by the origin identity, one of a handle that has been
freed at its own package is dropped there, and one for which no handle is free is refused and counted. By which port a packet comes in (log 81),
that a new handle is one never used before (log 5) and that a proxy begins unsettled (log 65) are the model's choices, and so is what no lapse
check drops (log 22). -/
def Sys2Proof.GatewayIngress : Prop :=
  ∀ (s : State) (k : Nat) (p : Pkt), s.net[k]? = some p → p.stage = .link → waitsBehind s k p = false →
    let own := epPkg p.dst
    let c := p.carry
    let h := c.hnd.toNat
    let i := Instr.gatewayIngress k
    let gw := ingressGw s own (epPkg p.src)
    let fails := checkFails s (dieKey gw) c.inst
    let enters := fun (e : EP) (b : Body) (hnd : Handle) (s' : State) =>
      exec i s = .next s' ∧ s'.net = modAt (fun p => { p with
        stage := .arrived, dst := e, body := b, carry := ⟨c.inst, hnd, own⟩, asked := if p.mirrors = true then p.asked else none }) k s.net ∧
        s'.cores = s.cores ∧ s'.ctl = s.ctl
    let dropped := fun (m : Ctl) => ∃ s', exec i s = .next s' ∧ s'.net = dropAt k s.net ∧ s'.ctl = s.ctl ++ [m]
    ((∀ a b c d e f, p.body ≠ .chunk a b c d e f) → resolveIngress s own p = some (p.dst, p.body) → (p.ofColl = true ∨ fails h = false) →
      (h = 0 ∨ c.opkg = own ∧ (s.lapse? own h).isSome = true) → ∃ s', enters p.dst p.body c.hnd s') ∧
    (∀ v off ph acc r x l, p.body = .access (some v) off ph acc r x l → h = 0 → fails 0 = false →
      (∀ e base size, vcOf s own p.req.ctx v = some (e, base, size) →
        ∃ s', enters e (.access none off (rebase base size off acc.size) acc r x l) 0 s') ∧
      (vcOf s own p.req.ctx v = none → ∃ s' q, exec i s = .next s' ∧ s'.net = dropAt k s.net ++ [q] ∧ q.src = gw ∧ q.dst = p.req.ep ∧
        q.req = p.req ∧ q.vc = 0 ∧ q.body = .answer .refused)) ∧
    (∀ v n m e base size, p.body = .message v n m → vcOf s own p.req.ctx v = some (e, base, size) → h ≠ 0 →
      (∀ x, c.opkg = own → s.lapse? own h = some x → fails h = false →
        ∃ s', enters e (.message v n m) c.hnd s' ∧ s'.lapse? own h = some x) ∧
      (c.opkg = own → s.lapse? own h = none → dropped (.drop own h 0 1 0)) ∧
      (∀ g x, c.opkg ≠ own → proxyOf s own c.opkg c.hnd = some g → g < 65536 → g ≠ 0 → s.lapse? own g = some x → fails g = false →
        (∀ y ∈ (s.pkg own).lapse, y.2.kind = .union → (g, true) ∉ y.2.members) →
        ∃ s', enters e (.message v n m) (BitVec.ofNat 16 g) s' ∧
          s'.lapse? own g = some { x with inst := if earlier x.inst c.inst then c.inst else x.inst }) ∧
      (c.opkg ≠ own → proxyOf s own c.opkg c.hnd = none → fails 0 = false →
        ((s.pkg own).fresh < 65536 → (s.pkg own).handleWait = [] →
          let g := (s.pkg own).fresh
          ∃ s', enters e (.message v n m) (BitVec.ofNat 16 g) s' ∧
            s'.lapse? own g = some (Lapse.start .proxy c.opkg c.hnd c.inst 0 p.req.ctx) ∧ (s'.pkg own).fresh = g + 1) ∧
        (takeHandle s own = none → ∃ s' q, exec i s = .next s' ∧ s'.net = dropAt k s.net ++ [q] ∧ q.src = gw ∧ q.dst = p.req.ep ∧
          q.body = .answer .refused ∧ s'.ctl = s.ctl ++ [.dropAt own c.opkg h 0 1 0])) ∧
      (c.opkg ≠ own → fails ((proxyOf s own c.opkg c.hnd).getD 0) = true → dropped (.dropAt own c.opkg h 0 1 0)))

/-- R108, R109, R208, R209, R216: what the gateways do with a packet that leaves its package and one that comes in. -/
def Obligations.PacketsCrossPackages : Prop := GatewayEgress ∧ UnreachableRefuses ∧ GatewayIngress

/-- R14, R15, R51, R110, R113, R137, R174, R189, R216, R470: FABRIC_INGRESS. An access that a window of the owner admits is performed there and
answered on VC0; one that none admits is refused; a lapsed store is dropped and counted; one that a sealed entry or a queued write holds
back stays where it is. The bridge window serves contexts with PRIV = 1. -/
def Sys2Proof.FabricArrival : Prop :=
  ∀ (s : State) (k : Nat) (p : Pkt) (off a : Nat) (acc : Access) (r : Option Nat) (x : Bool), Arrives s k p →
    let e := p.dst
    let n := acc.size
    let i := Instr.fabricIngress k
    let taken := takePkt s k e p
    let open_ := expired s e p.carry = false ∧ closedAt s e = false ∧ wrongChannel s e p = false
    let clear := anySealed s e a n = false ∧ queued s e a n = false
    let quiet := (s.core e).upsets = [] ∧ (s.core e).watches = [] ∧ (s.core e).vbuf = []
    (p.body = .access none off (some a) acc r x false →
      (open_ → admits s e p.req.ctx a n acc.needs = true → clear → quiet →
        (∀ m sg, acc = .load m sg → anyOchre s e a m = false → Becomes i s p
          (taken.answer e p.req p.carry (.value (extend m sg (mread (s.core e).spad a m)) 0))) ∧
        (∀ m sg, acc = .load m sg → anyOchre s e a m = true → Becomes i s p (taken.answer e p.req p.carry (.ochre 2 p.req.ebit))) ∧
        (∀ m v, acc = .store m v → Becomes i s p ((taken.spadWrite e a m v).answer e p.req p.carry (.ack 0))) ∧
        (∀ op dbl v cmp, acc = .atom op dbl v cmp true → anyOchre s e a n = false →
          let old := mread (s.core e).spad a n
          Becomes i s p ((taken.spadWrite e a n (atomNew op dbl old v.toNat cmp.toNat).1).answer e p.req p.carry
            (.value old (atomNew op dbl old v.toNat cmp.toNat).2)))) ∧
      (open_ → admits s e p.req.ctx a n acc.needs = false → Becomes i s p (taken.answer e p.req p.carry .refused)) ∧
      (expired s e p.carry = false → (closedAt s e = true ∨ wrongChannel s e p = true) →
        Becomes i s p (taken.answer e p.req p.carry .refused)) ∧
      (expired s e p.carry = true → acc.counts = true → p.carry.hnd ≠ 0 → p.carry.opkg = epPkg e →
        Becomes i s p { taken with ctl := taken.ctl ++ [.drop (epPkg e) p.carry.hnd.toNat 0 0 1] }) ∧
      (open_ → admits s e p.req.ctx a n acc.needs = true → ¬ clear → exec i s = .next s)) ∧
    (p.body = .access none off none acc r x false → open_ → Becomes i s p (taken.answer e p.req p.carry .refused)) ∧
    (∀ w, p.body = .window off (.store 8 w) true → expired s e p.carry = false → wrongChannel s e p = false → off < 0x10000 →
      Becomes i s p ((bridgeWrite taken (epPkg e) off (BitVec.ofNat 64 w)).answer e p.req p.carry (.ack 0))) ∧
    (∀ priv, p.body = .window off acc priv → expired s e p.carry = false → (wrongChannel s e p = true ∨ priv = false ∨ n ≠ 8 ∨ 0x10000 ≤ off) →
      Becomes i s p (taken.answer e p.req p.carry .refused))

/-- R99, R115, R117, R130, R292, R365: REPLY_ARRIVAL. The answer of a relaxed access lowers its counter, empties its entry and gives its value
to the register, or sets the sticky bit (of one lost on its way too: the model's choice, log 43); the answer that a thread is parked for completes its instruction with the value, or p7, or traps
with cause 0x13 or 0x14. One for a thread that is no more is discarded. -/
def Sys2Proof.ReplyArrival : Prop :=
  ∀ (s : State) (k : Nat) (p : Pkt) (a : Answer) (n : Nat) (t : Thread), Arrives s k p → p.body = .answer a → closedAt s p.dst = false →
    expired s p.dst p.carry = false →
    let i := Instr.replyArrival k
    let e := p.req.ep
    let o := p.req.entry
    let en := t.sbAt o
    let here := locate s e p.req.uid = .slot n ∧ s.thr? e n = some t ∧ t.origin = none
    let tgt := fun (f : Thread → Thread) => Becomes i s p ((s.dropPkt k).modThr e n f)
    let lower := fun (t : Thread) =>
      ({ t with cnt := if o < 8 then { t.cnt with ldc := t.cnt.ldc - 1 } else { t.cnt with stc := t.cnt.stc - 1 } }).setSb o SbEntry.none
    (here → o < 16 → en.state = .sent →
      (∀ v f, a = .value v f → t.pair = none → tgt fun t => ((lower t).setG en.reg (BitVec.ofNat 64 v)).orFlags f) ∧
      (∀ f, a = .ack f → tgt fun t => (lower t).orFlags f) ∧
      (a = .refused ∨ a = .timedOut → tgt fun t => (lower t).stick p.req.ebit) ∧
      (∀ x b, a = .ochre x b → tgt fun t => (lower t).stick b)) ∧
    (here → o = 17 → a = .refused → tgt (·.stick p.req.ebit)) ∧
    (∀ q, here → t.park = some q → o = 16 + 32 * q.ser → q.why = .answer →
      (∀ v f, a = .value v f → q.size ≠ 16 → tgt fun t => ((t.putG q.dst (BitVec.ofNat 64 v)).orFlags f).goTo q.next) ∧
      (∀ f, a = .ack f → tgt fun t => (t.orFlags f).goTo q.next) ∧
      (a = .joined → tgt fun t => (t.p7 true).goTo q.next) ∧
      (a = .timedOut → tgt fun t => (t.p7 false).goTo q.next)) ∧
    (∀ q, here → t.park = some q → o = 16 + 32 * q.ser → q.why = .answer → (a = .refused ∨ ∃ x b, a = .ochre x b ∧ x < 2 ^ 32) →
      TakesTraps t → rectOf s e = none → ∃ s' t', Becomes i s p s' ∧ s'.thr? e n = some t' ∧
        t'.sr.tcause.toNat = (if a = .refused then 0x13 else 0x14) ∧ t'.sr.taddr = q.operand ∧ t'.sr.trappc = t.pc ∧ t'.handler = true ∧
        t'.sup = true ∧ t'.regs = t.regs) ∧
    (s.thrWhere e (locate s e p.req.uid) = none → Becomes i s p (s.dropPkt k))

/-- R14, R51, R113, R117, R130: accesses at their owner, and their answers at the requester. -/
def Obligations.AccessesAndReplies : Prop := FabricArrival ∧ ReplyArrival

/-- R111, R118 to R120, R219: MESSAGE_INJECTION sends the oldest message of a slot, and frees its place. MESSAGE_DELIVERY puts one into the
inbox of its resident thread, up to four; it is held at the endpoint behind a full inbox, an earlier held one, or while the thread is
swapped out, or is refused where no such thread is at its endpoint, whatever the map says by then (R25): that it is refused there and not sent on is
the model's choice (log 26). HELD_MESSAGE_RELEASE delivers it once there is room. -/
def Sys2Proof.MessagesTravel : Prop :=
  ∀ (s : State) (k j n v m : Nat) (e : EP) (t : Thread) (p : Pkt) (msg : Msg),
    let hold : HeldMsg := ⟨p.req.ctx, v, m, msg, p.req, p.carry, true⟩
    let i := Instr.messageDelivery k
    let taken := takePkt s k p.dst p
    let arrives := Arrives s k p ∧ p.body = .message v m msg
    let open_ := expired s p.dst p.carry = false ∧ closedAt s p.dst = false ∧ wrongChannel s p.dst p = false
    let who := addressee s p.dst p.req.ctx v m
    let behind := ∃ h ∈ (s.core p.dst).held, h.isFor p.req.ctx v m = true
    let held := ∃ s', Becomes i s p s' ∧ s'.net = dropAt k s.net ∧ (s'.core p.dst).held = (s.core p.dst).held ++ [hold] ∧
      ∀ x, s'.thr? p.dst x = s.thr? p.dst x
    (∀ o rest, (outboxes s)[j]? = some (e, n, t) → s.thr? e n = some t → t.outbox = o :: rest →
      ∃ s' q t', exec (.messageInjection j) s = .next s' ∧ s'.net = s.net ++ [q] ∧ q.src = e ∧ q.dst = o.dst ∧ q.vc = o.vc ∧
        q.body = .message o.vcore o.vthr o.msg ∧ q.carry = o.carry ∧ q.req.uid = t.uid ∧ s'.thr? e n = some t' ∧ t'.outbox = rest ∧
        t'.regs = t.regs ∧ t'.pc = t.pc) ∧
    (arrives → open_ → who = .slot n → s.thr? p.dst n = some t → t.inbox.length < 4 → ¬ behind →
      Becomes i s p (taken.modThr p.dst n fun t => { t with inbox := t.inbox ++ [msg] })) ∧
    (arrives → open_ → who = .slot n → s.thr? p.dst n = some t → (4 ≤ t.inbox.length ∨ behind) → (s.core? p.dst).isSome → held) ∧
    (∀ x, arrives → open_ → who = .tcc x → (s.core? p.dst).isSome → held) ∧
    (arrives → open_ → who = .gone → Becomes i s p (taken.answer p.dst p.req p.carry .refused)) ∧
    (∀ h rest, (s.core e).held = h :: rest → expired s e h.carry = false → addressee s e h.ctx h.vcore h.vthr = .slot n →
      s.thr? e n = some t →
      (t.inbox.length < 4 → ∃ s', exec (.heldMessageRelease e 0) s = .next s' ∧ (s'.core e).held = rest ∧
        s'.thr? e n = some { t with inbox := t.inbox ++ [h.msg] } ∧ s'.net = s.net) ∧
      (4 ≤ t.inbox.length → exec (.heldMessageRelease e 0) s = .next s))

/-- R111, R121, R122, R355: REMOTE_ENQ_ARRIVAL fills the entry reserved for the item, or refuses; QRES_REQUEST_ARRIVAL grants no more than is neither
filled nor reserved, and nothing where the queue does not serve the context; a grant reaches the slot that asks its queue, or goes back, and
what goes back is free again; a grant or return that lapses on its way frees what it carries (R216). On another context's channel a request
and a return are refused (R111). -/
def Sys2Proof.RemoteQueues : Prop :=
  ∀ (s : State) (k q g n : Nat) (p : Pkt) (item : Packet) (ack : Bool) (t : Thread) (i : Instr), Arrives s k p →
    let pkg := epPkg p.dst
    let e := p.dst
    let x := s.queue pkg q
    let free := fun (s : State) (m : Nat) => s.modQueue pkg q fun x => { x with reserved := x.reserved - m }
    let taken := takePkt s k e p
    (p.body = .enq q item ack → expired s e p.carry = false →
      (takesEnq s pkg q p.req.ctx = true →
        let s' := pushItem (free taken 1) pkg q item p.carry
        Becomes (.remoteEnqArrival k) s p (if ack = true then s'.answer e p.req p.carry .placed else s')) ∧
      (takesEnq s pkg q p.req.ctx = false → Becomes (.remoteEnqArrival k) s p
        (taken.answer e p.req p.carry (if ack = true then .notPlaced else .refused)))) ∧
    (p.body = .qresReq q n → expired s e p.carry = false → wrongChannel s e p = false →
      (takesEnq s pkg q p.req.ctx = true →
        let g := min n (qEntries (qDesc s pkg q) - (x.tail - x.head) - x.reserved)
        Becomes (.qresRequestArrival k) s p (((s.dropPkt k).modQueue pkg q fun x => { x with reserved := x.reserved + g }).send e p.req.ep 0
          p.req p.carry (.qresGrant q g false))) ∧
      (takesEnq s pkg q p.req.ctx = false → Becomes (.qresRequestArrival k) s p
        ((s.dropPkt k).send e p.req.ep 0 p.req p.carry (.qresGrant q 0 true)))) ∧
    (p.body = .qresGrant q n false → expired s e p.carry = false → locate s e p.req.uid = .slot g → s.thr? e g = some t →
      (asksQueue s e t (epPkg p.src) q = true → Becomes (.qresGrantArrival k) s p ((s.dropPkt k).modThr e g fun t =>
        { t with qres := { t.qres with count := t.qres.count + n, outstanding := false } })) ∧
      (asksQueue s e t (epPkg p.src) q = false → n ≠ 0 → ∃ s' y, Becomes (.qresGrantArrival k) s p s' ∧ s'.net = dropAt k s.net ++ [y] ∧
        y.src = e ∧ y.dst = p.src ∧ y.body = .qresReturn q n)) ∧
    (p.body = .qresReturn q n → expired s e p.carry = false → wrongChannel s e p = false →
      Becomes (.reservationReturn k) s p (free (s.dropPkt k) n)) ∧
    (expired s e p.carry = true → (p.body = .qresGrant q n false ∧ i = .qresGrantArrival k ∧ g = epPkg p.src ∨
      p.body = .qresReturn q n ∧ i = .reservationReturn k ∧ g = pkg) → ∃ s', Becomes i s p s' ∧ s'.net = dropAt k s.net ∧
        (s'.queue g q).reserved = (s.queue g q).reserved - n) ∧
    (expired s e p.carry = false → (p.body = .qresReq q n ∧ i = .qresRequestArrival k ∨ p.body = .qresReturn q n ∧ i = .reservationReturn k) →
      wrongChannel s e p = true → ∃ s' y, Becomes i s p s' ∧ s'.net = dropAt k s.net ++ [y] ∧ y.src = e ∧ y.dst = p.req.ep ∧ y.vc = 0 ∧
        (s'.pkg pkg).queues = (s.pkg pkg).queues)

/-- R55, R260: DTL_ENTRY_TIMEOUT ends the wait of an access once the cycle of its timeout is over, and answers it so; before then it does
nothing. -/
def Sys2Proof.ListTimeouts : Prop :=
  ∀ (s : State) (e : EP) (x : DtlEntry) (rest : List DtlEntry), (s.core e).dtl = x :: rest → (s.core e).overflow = [] →
    (∀ d, x.deadline = some d → d < (s.core e).cycle → x.local_ = false → ∃ s' q, exec (.dtlEntryTimeout e 0) s = .next s' ∧
      (s'.core e).dtl = rest ∧ s'.net = s.net ++ [q] ∧ q.src = e ∧ q.dst = x.req.ep ∧ q.req = x.req ∧ q.vc = 0 ∧
      q.body = .answer .timedOut ∧ (s'.core e).gran = (s.core e).gran ∧ (s'.core e).spad = (s.core e).spad) ∧
    ((∀ d, x.deadline = some d → (s.core e).cycle ≤ d) → exec (.dtlEntryTimeout e 0) s = .next s)

/-- R279, R358: QPROBE_RETURN. The probe sums the counts of its domain at the interfaces of its packages and leaves them white; all of them
white before and a sum of 0 give 0 and p7 = 1, else g[d] is the sum and p7 = 0. -/
def Sys2Proof.ProbeReturn : Prop :=
  ∀ (s : State) (k n slot : Nat) (x : Probe) (req : Req) (t : Thread) (p : Park) (home : Nat),
    (s.pkgs.flatMap fun (n, p) => p.probes.map fun x => (n, x))[k]? = some (n, x) → x.pkgs = [home] → x.req = some req →
    locate s req.ep req.uid = .slot slot → s.thr? req.ep slot = some t → t.park = some p → req.entry = 16 + 32 * p.ser →
    let counts := (s.cores.filter fun (e, _) => epPkg e == home).map (fun (_, c) => niAt c.ni x.dom) ++ [niAt (s.pkg home).ni x.dom]
    let sum := (counts.map (·.1)).sum
    let done := (∀ y ∈ counts, y.2 = false) ∧ sum = 0
    ∃ s' t', exec (.qprobeReturn k) s = .next s' ∧ s'.thr? req.ep slot = some t' ∧ t'.park = none ∧ t'.pc = p.next ∧
      (done → t'.regs = ((t.putG p.dst 0).p7 true).regs) ∧
      (¬ done → t'.regs = ((t.putG p.dst (BitVec.ofInt 64 sum)).p7 false).regs) ∧
      (niAt (s'.pkg home).ni x.dom).2 = false ∧ s'.net = s.net

/-- R55, R118 to R122, R279, R355: messages, enqueued items, grants, waiting accesses and probes on their way. -/
def Obligations.MessageEvents : Prop := MessagesTravel ∧ RemoteQueues ∧ ListTimeouts ∧ ProbeReturn

/-- R123 to R129, R216, R219, R422: COPY_PIECE_DISPATCH of a COPY between two places of the own scratchpad. The next piece, cut at 256-byte
boundaries, leaves for its source with its place and masks; at each 4 KiB a lapse annuls what has not left and reports it. A command
that is all cut waits for its reports. -/
def Sys2Proof.PiecesLeave : Prop :=
  ∀ (s : State) (k : Nat) (c : Cmd), s.cmds[k]? = some c → s.cmds.find? (·.id == c.id) = some c →
    (∀ j y, s.cmds[j]? = some y → y.id = c.id → j = k) → c.engine = 0 → c.landing = false → cKind c.words ≠ 4 →
    (c.side 0).toNat / 2 ^ 62 = 0 → (c.side 1).toNat / 2 ^ 62 = 0 →
    let x := c.done
    let len := max 1 (c.pieceLen x)
    let loc := fun (side : Nat) => (⟨c.req.ep, (c.at_ side x).toNat, none, false, true, c.req.ebit, none, false⟩ : PieceLoc)
    let i := Instr.copyPieceDispatch k
    (c.done < c.total → (c.done < c.mark ∨ expired s c.ep c.carry = false) → ∃ s' p c', exec i s = .next s' ∧ s'.net = s.net ++ [p] ∧
      p.src = c.ep ∧ p.dst = c.req.ep ∧ p.req = c.req ∧ p.carry = c.carry ∧
      p.body = .pieceRead c.id (loc 0) len [loc 1] (c.need x len) c.ep ∧ s'.cmds[k]? = some c' ∧ c'.done = x + len ∧
      c'.flying = c.flying + 1 ∧ c'.failed = c.failed ∧ c'.mark = if c.mark ≤ x then x / 4096 * 4096 + 4096 else c.mark) ∧
    (c.done < c.total → c.mark ≤ c.done → expired s c.ep c.carry = true → c.flying ≠ 0 → c.carry.hnd ≠ 0 → c.carry.opkg = epPkg c.ep →
      let n := c.pieces c.done c.total
      ∃ s' c', exec i s = .next s' ∧ s'.cmds[k]? = some c' ∧ c'.done = c.total ∧ c'.failed = c.failed + n ∧ c'.annulled = true ∧
        s'.net = s.net ∧ s'.ctl = s.ctl ++ [.drop (epPkg c.ep) c.carry.hnd.toNat 0 0 n]) ∧
    (c.total ≤ c.done → c.flying ≠ 0 → exec i s = .next s)

/-- R48, R51, R64, R113, R126, R136, R137, R216: a piece at its scratchpad owner is read and goes on, as an error piece where a granule is
ochre; at its recipient it joins the destination write queue and is reported, waits while that is full, is refused, or lapses and is reported
as annulled; FILL's pattern read is answered with the bytes. That an owner that refuses sends no error piece (log 50), that the pieces of a COLL
meet no lapse check (log 22), and that a lapsed piece still tells its engine (log 35) are the model's choices. -/
def Sys2Proof.PiecesArrive : Prop :=
  ∀ (s : State) (k id len : Nat) (p : Pkt) (src dst : PieceLoc) (need : List Nat) (engine : EP) (bs : List (BitVec 8)), Arrives s k p →
    let e := p.dst
    let open_ := expired s e p.carry = false ∧ closedAt s e = false ∧ wrongChannel s e p = false
    let clear := anySealed s e src.addr len = false ∧ queued s e src.addr len = false ∧ (s.core e).upsets = []
    let readable := src.vcore = none ∧ src.mpkg = none ∧ dst.vcore = none ∧ src.dram = false ∧ (src.local_ = true ∨ admits s e p.req.ctx src.addr len (true, false, false) = true)
    let writable := dst.vcore = none ∧ dst.dram = false ∧ dst.addr < 0x180000 ∧
      (dst.local_ = true ∨ admits s e p.req.ctx dst.addr len (false, true, !need.isEmpty) = true)
    let fromHost := epKind p.src = 3 ∧ epX p.src = 1
    let landed := p.lapsed s e = false ∧ closedAt s e = false ∧ wrongChannel s e p = false
    let dropped := s.dropPkt k
    let left := (s.leaveTile p).dropPkt k
    let ends := fun (s : State) (x : PieceEnd) => s.send e engine 0 p.req p.carry (.pieceEnd id len x)
    let notice := fun (s : State) (b : Nat) => s.answer e { p.req with entry := 17, ebit := b } p.carry .refused
    let room := (s.core e).destQ.length < if epKind e = 1 then 32 else 64
    (p.body = .pieceRead id src len [dst] need engine → open_ →
      (readable → clear → anyOchre s e src.addr len = false → Becomes (.pieceAtOwner k) s p (dropped.send e dst.ep p.vc p.req p.carry
        (.pieceWrite id dst (some (mbytes (s.core e).spad src.addr len)) len need engine))) ∧
      (readable → clear → anyOchre s e src.addr len = true → dst.dram = false → Becomes (.pieceAtOwner k) s p
        (ends (notice (dropped.send e dst.ep p.vc p.req p.carry (.pieceWrite id dst none len need engine)) src.ebit) .fault)) ∧
      (src.vcore = none → src.dram = false → src.local_ = false → admits s e p.req.ctx src.addr len (true, false, false) = false →
        Becomes (.pieceAtOwner k) s p (ends (notice dropped src.ebit) .refused))) ∧
    (p.body = .pieceWrite id dst (some bs) len need engine → ¬ fromHost → landed →
      (writable → room → Becomes (.pieceAtRecipient k) s p (ends (dropped.modCore e fun c => { c with
        destQ := c.destQ ++ [⟨dst.addr, bs, need, false, id, c.destNum⟩], destNum := c.destNum + 1 }) .written)) ∧
      (writable → ¬ room → exec (.pieceAtRecipient k) s = .next s) ∧
      (dst.vcore = none → dst.dram = false → dst.addr < 0x180000 → dst.local_ = false →
        admits s e p.req.ctx dst.addr len (false, true, !need.isEmpty) = false →
        Becomes (.pieceAtRecipient k) s p (ends (notice left dst.ebit) .refused))) ∧
    (p.body = .pieceWrite id dst (some bs) len need engine → ¬ fromHost → dst.vcore = none → p.lapsed s e = true →
      Becomes (.pieceAtRecipient k) s p (ends (lapseDrop left e p 1) .annulled)) ∧
    (p.body = .pieceWrite id dst none len need engine → ¬ fromHost → landed → writable → room →
      Becomes (.pieceAtRecipient k) s p (dropped.modCore e fun c => { c with
        destQ := c.destQ ++ [⟨dst.addr, List.replicate len 0, need, true, id, c.destNum⟩], destNum := c.destNum + 1 })) ∧
    (p.body = .patternRead id src len engine → open_ → readable → clear → anyOchre s e src.addr len = false →
      Becomes (.fillPatternRead k) s p (dropped.send e engine 0 p.req p.carry
        (.pattern id (some (mbytes (s.core e).spad src.addr len)) false))) ∧
    (∀ c, p.body = .pattern id (some bs) false → expired s e p.carry = false → s.cmds.find? (·.id == id) = some c → c.done < c.total →
      Becomes (.fillPatternRead k) s p (dropped.modCmd id fun c => { c with pattern := some bs }))

/-- R51, R126, R127, R137, R148, R189, R420: PIECE_REPORT counts a report at its engine; the last one of a command lowers CPC and, with NOTIFY,
queues its record. DEST_WRITE_QUEUE_WRITE writes the oldest entry, unless a sealed entry holds it back: an error entry makes its granules
ochre and writes nothing; one with set-full makes a granule full once every byte of it is written. -/
def Sys2Proof.PiecesEnd : Prop :=
  ∀ (s : State) (k id len n : Nat) (e : EP) (p : Pkt) (c : Cmd) (t : Thread) (x : DestEntry) (rest : List DestEntry),
    let c' := { c with flying := c.flying - 1, bytes := c.bytes + len }
    (Arrives s k p → p.body = .pieceEnd id len .written → p.lapsed s p.dst = false → s.cmds.find? (·.id == id) = some c →
      (1 < c.flying → Becomes (.pieceReport k) s p ((s.dropPkt k).modCmd id fun c => { c with flying := c.flying - 1, bytes := c.bytes + len })) ∧
      (c.flying = 1 → c.total ≤ c.done → c.engine = 0 → c.landing = false → c'.status = 0 → cNote c.words = false →
        noticesOut (s.dropPkt k) c.req.uid = false → locate s c.req.ep c.req.uid = .slot n → s.thr? c.req.ep n = some t → t.origin = none →
        ∃ s' t', Becomes (.pieceReport k) s p s' ∧ s'.cmds = s.cmds.filter (·.id != id) ∧ s'.thr? c.req.ep n = some t' ∧
          t'.cnt = { t.cnt with cpc := t.cnt.cpc - 1 } ∧
          t'.recs = (if cNotify c.words = true then t.recs ++ [recordOf c.words 0 c.failed (c.bytes + len)] else t.recs) ∧
          t'.regs = t.regs ∧ t'.pc = t.pc)) ∧
    ((s.core e).destQ = x :: rest → (s.core? e).isSome → anySealed s e x.addr x.data.length = false →
      (x.err = false → x.need = [] → (∀ g, granAt s e (16 * g) ≠ .ochre) → (s.core e).vbuf = [] → (s.core e).watches = [] →
        (s.core e).dtl = [] → (s.core e).overflow = [] →
        exec (.destWriteQueueWrite e) s = .next ((s.modCore e fun c => { c with destQ := rest }).spadPut e x.addr x.data)) ∧
      (x.err = true → x.data ≠ [] → (s.core e).overflow = [] → ∃ s', exec (.destWriteQueueWrite e) s = .next s' ∧ (s'.core e).destQ = rest ∧
        (s'.core e).spad = (s.core e).spad ∧ ∀ a, granAt s' e a =
          if x.addr / 16 ≤ a / 16 ∧ a / 16 ≤ (x.addr + x.data.length - 1) / 16 then .ochre else granAt s e a) ∧
      (x.err = false → x.data.length = 16 → 16 ∣ x.addr → x.need = [2 ^ 16 - 1] → granAt s e x.addr = .empty → (s.core e).vbuf = [] →
        (s.core e).watches = [] → (s.core e).dtl = [] → (s.core e).overflow = [] → (s.core e).fills = [] → Memory.wf (s.core e).spad = true →
        ∃ s', exec (.destWriteQueueWrite e) s = .next s' ∧ granAt s' e x.addr = .full ∧ mbytes (s'.core e).spad x.addr 16 = x.data ∧
          (s'.core e).destQ = rest)) ∧
    ((s.core e).destQ = x :: rest → anySealed s e x.addr x.data.length = true → exec (.destWriteQueueWrite e) s = .next s)

/-- R71, R74, R471: CODESEG_WRITE lands a segment below XB from CODESRC. That it fails at once above XB and on a core that is not released yet, and that it
does nothing while one is under way, is the model's choice (log 19).
CODE_SEGMENT_LANDED sets the landed bit once every byte of the segment has reached the banks, and the command ends. -/
def Sys2Proof.SegmentsLand : Prop :=
  ∀ (s : State) (e : EP) (w : Word) (c : Core) (k : Nat) (m : Cmd),
    let seg := w.toNat % 512
    (s.core? e = none → isCore e = true → exec (.codesegWrite e w) s = .next (s.modMgmt e fun m => { m with codeSeg := seg, codeFail := true })) ∧
    (s.core? e = some c → c.mgmt.codeBusy = true → exec (.codesegWrite e w) s = .next s) ∧
    (s.core? e = some c → c.mgmt.codeBusy = false → seg * 4096 < xbBytes c → ∃ s' m, exec (.codesegWrite e w) s = .next s' ∧
      s'.cmds = s.cmds ++ [m] ∧ m.landing = true ∧ m.engine = 2 ∧ m.ep = e ∧ m.total = 4096 ∧ m.base 1 = seg * 4096 ∧
      m.base 0 = c.mgmt.codesrc.toNat / 2 ^ 12 % 2 ^ 44 * 4096 ∧ (s'.core e).mgmt = { c.mgmt with codeSeg := seg, codeBusy := true, codeFail := false }) ∧
    (s.core? e = some c → c.mgmt.codeBusy = false → xbBytes c ≤ seg * 4096 → ∃ s', exec (.codesegWrite e w) s = .next s' ∧
      s'.cmds = s.cmds.filter (·.id != s.nextUid) ∧ (s'.core e).mgmt = { c.mgmt with codeSeg := seg, codeBusy := false, codeFail := true }) ∧
    (s.cmds[k]? = some m → m.engine = 2 → m.total ≤ m.done → m.flying = 0 → m.status = 0 → m.landing = true → m.ep = m.req.ep →
      s.core? m.ep = some c →
      ((∀ q ∈ c.destQ, q.cmd ≠ m.id) → ∃ s', exec (.codeSegmentLanded k) s = .next s' ∧ s'.cmds = s.cmds.filter (·.id != m.id) ∧
        (s'.core m.ep).landed = (c.landed ||| 1#384 <<< (cwn m.words 2 / 4096)) ∧
        (s'.core m.ep).mgmt = { c.mgmt with codeBusy := false, codeFail := false }) ∧
      ((∃ q ∈ c.destQ, q.cmd = m.id) → exec (.codeSegmentLanded k) s = .next s))

/-- R84, R85, R420: a command of engine 4 joins the program queue of its memory core, with a reference, and is acknowledged; it waits while the
queue is full and is refused where its context has no program slots. The oldest whose context has a waiting thread goes to it. That the thread
takes over the instant and the handle of the command is the model's choice (log 36). -/
def Sys2Proof.ProgramCommands : Prop :=
  ∀ (s : State) (k n : Nat) (p : Pkt) (ws : Packet) (e : EP) (t : Thread) (x : Ctx × Carry × Req × Packet)
      (rest : List (Ctx × Carry × Req × Packet)),
    let progs := (s.core p.dst).mem.progs
    (Arrives s k p → p.body = .program ws → expired s p.dst p.carry = false →
      (wrongChannel s p.dst p = false → hasProgram s p.dst p.req.ctx = true → progs.length < 64 →
        Becomes (.programCommandArrival k) s p ((refInc ((s.dropPkt k).modCore p.dst fun c => { c with mem := { c.mem with
          progs := c.mem.progs ++ [(p.req.ctx, p.carry, p.req, ws)] } }) (epPkg p.dst) p.carry.hnd.toNat).answer p.dst p.req p.carry .placed)) ∧
      (wrongChannel s p.dst p = false → hasProgram s p.dst p.req.ctx = true → 64 ≤ progs.length →
        exec (.programCommandArrival k) s = .next s) ∧
      (wrongChannel s p.dst p = true ∨ hasProgram s p.dst p.req.ctx = false →
        Becomes (.programCommandArrival k) s p ((s.dropPkt k).answer p.dst p.req p.carry .refused))) ∧
    ((s.core e).mem.progs = x :: rest → (∀ y ∈ x :: rest, expired s e y.2.1 = false) → quiet s e = true → (s.core e).slots = [(n, t)] →
      t.waitsWork = true → t.pair = none → t.stopped = false → isVisitor e n = false →
      (t.ctx = x.1 → ∃ s' t', exec (.programCommandDelivery e) s = .next s' ∧ (s'.core e).mem.progs = rest ∧ s'.thr? e n = some t' ∧
        t'.park = none ∧ t'.sr.inst = x.2.1.inst ∧ t'.sr.hnd = x.2.1.hnd ∧ t'.sr.wid = x.2.2.2.getD 1 0) ∧
      (t.ctx ≠ x.1 → rest = [] → exec (.programCommandDelivery e) s = .next s))

/-- R71, R74, R84, R85, R123 to R129, R422 to R425: copies, landings and program commands at work. -/
def Obligations.EngineEvents : Prop := PiecesLeave ∧ PiecesArrive ∧ PiecesEnd ∧ SegmentsLand ∧ ProgramCommands

/-- R127, R132 to R135, R216, R427: COLL_CHUNK_SEND. The command whose turn it is sends its next chunk on VC3 to the engine of the rank's
package; one that has nothing left to do, or has stopped and has no piece on its way, completes with its status; a lapse stops it, and the
other participants are told on VC1; what came before it was issued is taken first. A chunk whose buffer cannot be reserved does not leave; how many
buffers there are, and that they are counted for each command, is the model's choice (log 22). -/
def Sys2Proof.ChunksLeave : Prop :=
  ∀ (s : State) (pkg k n : Nat) (c : Coll) (t : Thread), (s.pkg pkg).colls[k]? = some c →
    let i := Instr.collChunkSend pkg k
    let a := c.lbase * 1024 + (cw c.words 1).toNat % 2 ^ 21
    let completes := fun (status : Nat) => ∃ s' t', exec i s = .next s' ∧ (s'.pkg pkg).colls = (s.pkg pkg).colls.filter (·.id != c.id) ∧
      s'.thr? c.req.ep n = some t' ∧ t'.cnt = { t.cnt with coll := t.cnt.coll - 1 } ∧
      t'.recs = (if cNotify c.words = true then t.recs ++ [recordOf c.words status 0 c.bytes] else t.recs) ∧ t'.regs = t.regs ∧
      s'.net = s.net
    let requester := locate s c.req.ep c.req.uid = .slot n ∧ s.thr? c.req.ep n = some t
    let told := noticesOut s c.req.uid = false
    let early := ∀ x ∈ (s.pkg pkg).early, x.isFor c.comm c.num = false
    (∀ st, requester → c.isOver = some st → c.flying = 0 → told → st ≠ 0 → completes st) ∧
    (∀ st, c.isOver = some st → c.flying ≠ 0 ∨ ¬ told → exec i s = .next s) ∧
    (requester → c.isOver = none → c.toSend = [] → c.toCome = [] → c.parts = [] → c.flying = 0 → early → told → cNote c.words = false →
      completes 0) ∧
    (∀ rank lapse, c.isOver = none → (s.pkg pkg).early = [.partFail c.comm c.num rank lapse] → ∃ s' c', exec i s = .next s' ∧
      (s'.pkg pkg).early = [] ∧ (s'.pkg pkg).colls[k]? = some c' ∧ c'.isOver = some (if lapse = true then 2 else 1) ∧ c'.toSend = [] ∧
      c'.toCome = [] ∧ c'.parts = [] ∧ s'.net = s.net) ∧
    (∀ far, c.isOver = none → early → c.toSend ≠ [] → expired s (ceEp pkg) c.carry = true → commSize s pkg c.comm = 2 →
      commRank s pkg c.comm = 0 → commPkg s pkg c.comm 1 c.peermap = some far → ∃ s' c' q, exec i s = .next s' ∧
      (s'.pkg pkg).colls[k]? = some c' ∧ c'.isOver = some 2 ∧ c'.toSend = [] ∧ c'.toCome = [] ∧ c'.parts = [] ∧ c'.flying = c.flying ∧
      s'.net = s.net ++ [q] ∧ q.dst = ceEp far ∧ q.vc = 1 ∧ q.body = .partFail c.comm c.num 0 true) ∧
    (∀ rank no rest far, c.isOver = none → c.toSend = (rank, no) :: rest → expired s (ceEp pkg) c.carry = false → c.ready = none →
      nextColl s pkg = some k → (cw c.words 1).toNat / 2 ^ 62 = 0 → rank ≠ commRank s pkg c.comm →
      commPkg s pkg c.comm rank c.peermap = some far → reachable s pkg far = true →
      early →
      let off := c.srcOff rank no
      let len := chunkLen (colBytes c.words) no
      anySealed s c.req.ep (a + off) len = false → queued s c.req.ep (a + off) len = false → (s.core c.req.ep).upsets = [] →
      anyOchre s c.req.ep (a + off) len = false →
      ∃ s' q c', exec i s = .next s' ∧ s'.net = s.net ++ [q] ∧ q.src = ceEp pkg ∧ q.dst = ceEp far ∧ q.vc = 3 ∧ q.carry = c.carry ∧
        q.body = .chunk c.comm c.num (commRank s pkg c.comm) no c.hdr (mbytes (s.core c.req.ep).spad (a + off) len) ∧
        (s'.pkg pkg).colls[k]? = some c' ∧ c'.toSend = rest ∧ (s'.pkg pkg).collLast = c.comm) ∧
    (∀ rank no rest far, c.isOver = none → c.toSend = (rank, no) :: rest → expired s (ceEp pkg) c.carry = false → c.ready = none →
      early → rank ≠ commRank s pkg c.comm → 65536 * no < colBytes c.words →
      commPkg s pkg c.comm rank c.peermap = some far → reachable s pkg far = true → bufferFree s far c.comm c.num = false → exec i s = .next s)

/-- R134, R135, R427: a chunk is discarded once its command has ended; one that disagrees with it makes the own rank fail; a reduction's block goes
to its gateway core of die 0. A failure that arrives stops the command, as does a piece of its own destination that is not written, and a chunk
that has not come within the communicator timeout, and then every other participant is told on VC1. That a chunk or a failure waits in its buffer
for the rank's own command (log 22), from when the timeout runs (log 81), and that a rank that fails itself ends as the others do (log 83)
are the model's choices. -/
def Sys2Proof.ChunksArrive : Prop :=
  ∀ (s : State) (k comm num frm no rank : Nat) (hdr : List Nat) (data : List (BitVec 8)) (p : Pkt) (c : Coll) (lapse : Bool) (pkg : Nat),
    let own := epPkg p.dst
    let i := Instr.collChunkArrival k
    let f := Instr.collParticipantFailure k
    let seen := (tget (s.pkg own).collNums comm).getD 0
    let keeps := fun (x : Early) => (s.dropPkt k).modPkg own fun p => { p with early := p.early ++ [x] }
    let pair := fun (pkg far : Nat) => commSize s pkg c.comm = 2 ∧ commRank s pkg c.comm = 0 ∧ commPkg s pkg c.comm 1 c.peermap = some far
    let tells := fun (q : Pkt) (far rank : Nat) => q.dst = ceEp far ∧ q.vc = 1 ∧ q.body = .partFail c.comm c.num rank false
    (Arrives s k p → p.body = .chunk comm num frm no hdr data → expired s p.dst p.carry = false →
      (findColl s own comm num = none → seen ≤ num → Becomes i s p (keeps (.chunk comm num frm no hdr data))) ∧
      (findColl s own comm num = none → num < seen → Becomes i s p (s.dropPkt k)) ∧
      (findColl s own comm num = some c → c.isOver.isSome = true → Becomes i s p (s.dropPkt k)) ∧
      (findColl s own comm num = some c → c.isOver = none → hdr = c.hdr → (frm, no) ∉ c.toCome → Becomes i s p (s.dropPkt k)) ∧
      (∀ far, findColl s own comm num = some c → c.isOver = none → hdr ≠ c.hdr → pair own far → ∃ s' q, Becomes i s p s' ∧
        s'.net = dropAt k s.net ++ [q] ∧ tells q far 0 ∧
        (s'.pkg own).colls = (s.pkg own).colls.map fun y => if y.id == c.id then { y with isOver := some 1, toSend := [], toCome := [], parts := [] } else y) ∧
      (findColl s own comm num = some c → c.isOver = none → hdr = c.hdr → (frm, no) ∈ c.toCome → colReduces c.words = true →
        frm ≠ commRank s own c.comm → 0 < data.length → data.length ≤ 4096 → (s.core? (gatewayEp own 0 0 0)).isSome →
        let e := gatewayEp own 0 0 0
        ∃ s', Becomes i s p s' ∧ s'.net = dropAt k s.net ∧ (s'.core e).reds = (s.core e).reds ++
            [⟨c.req.ctx, c.carry, c.id, colRpc c.words, 16 * no, data, data.length / 2 ^ cEsz c.words, none⟩] ∧
          (s'.pkg own).colls = (s.pkg own).colls.map fun y =>
            if y.id == c.id then { y with toCome := y.toCome.erase (frm, no), lastFrom := tput frm (s.pkgNow own).toNat y.lastFrom } else y)) ∧
    (Arrives s k p → p.body = .partFail comm num rank lapse →
      (findColl s own comm num = none → seen ≤ num → Becomes f s p (keeps (.partFail comm num rank lapse))) ∧
      (findColl s own comm num = none → num < seen → Becomes f s p (s.dropPkt k)) ∧
      (findColl s own comm num = some c → c.isOver = none → ∃ s', Becomes f s p s' ∧ s'.net = dropAt k s.net ∧
        (s'.pkg own).colls = (s.pkg own).colls.map fun y => if y.id == c.id then
          { y with isOver := some (if lapse = true then 2 else 1), toSend := [], toCome := [], parts := [] } else y)) ∧
    (∀ id len far, Arrives s k p → p.body = .pieceEnd id len .refused → p.dst = ceEp own → s.cmds.find? (·.id == id) = none →
      (s.pkg own).colls.find? (·.id == id) = some c → c.isOver = none → pair own far → ∃ s' q, Becomes (.pieceReport k) s p s' ∧
      s'.net = dropAt k s.net ++ [q] ∧ tells q far 0 ∧ (s'.pkg own).colls = (s.pkg own).colls.map fun y =>
        if y.id == c.id then { y with isOver := some 1, toSend := [], toCome := [], parts := [], flying := y.flying - 1 } else y) ∧
    ((s.pkg pkg).colls[k]? = some c → c.isOver = none → (∃ rest, c.toCome = (rank, no) :: rest) →
      let due := fun (r : Nat) => (tget c.lastFrom r).getD c.since + (s.pkg pkg).bridge.commto.toNat * 1000
      ((∀ x ∈ c.toCome, (s.pkgNow pkg).toNat < due x.1) → exec (.collTimeout pkg k) s = .next s) ∧
      (∀ far, due rank ≤ (s.pkgNow pkg).toNat → pair pkg far → ∃ s' c' q, exec (.collTimeout pkg k) s = .next s' ∧
          (s'.pkg pkg).colls[k]? = some c' ∧ c'.isOver = some 1 ∧ c'.toSend = [] ∧ c'.toCome = [] ∧ c'.parts = [] ∧
          s'.net = s.net ++ [q] ∧ tells q far rank))

/-- R134, R427, R269: a block and its running partial are written into the allotment of a gateway thread that waits for work, which receives the
packet of the block and the carried handle. Where no thread waits nothing happens. Where in the allotment is a free value, and that a block is one that
the thread combines until it ends, are the model's (log 41). A block combined earlier, whose words were sealed then, is read back first. -/
def Sys2Proof.BlocksGoToThreads : Prop :=
  ∀ (s : State) (e i n x y : Nat) (b : RedBlock) (part : List (BitVec 8)) (t : Thread) (p : Park) (d : Reg),
    (combinedRed s e = some b → exec (.reductionBlockDelivery e) s = .next (redRead s e b)) ∧
    (combinedRed s e = none → nextRed s e = some (i, b, part) →
    ((∀ z ∈ (s.core e).slots, z.2.waitsWork = false) → exec (.reductionBlockDelivery e) s = .next s) ∧
    ((s.core e).slots = [(n, t)] → t.ctx = b.ctx → t.park = some p → p.why = .work d false false → t.pair = none → t.origin = none →
      t.stopped = false → quiet s e = true → redPlaces t = some (x, y) → (s.core e).vbuf = [] → Memory.wf (s.core e).spad = true → part.length ≤ 4096 →
      b.data.length ≤ 4096 → ∃ s' t', exec (.reductionBlockDelivery e) s = .next s' ∧ s'.thr? e n = some t' ∧ t'.park = none ∧
        t'.pc = p.next ∧ t'.sr.inst = b.carry.inst ∧ t'.sr.hnd = b.carry.hnd ∧ t'.sr.wid = 0 ∧
        mbytes (s'.core e).spad y part.length = part ∧ s'.net = s.net ∧
        (s'.core e).reds = modAt (fun r => { r with taken := some (t.uid, y) }) i (s.core e).reds))

/-- R132 to R135, R427: collectives at work. -/
def Obligations.CollectiveEvents : Prop := ChunksLeave ∧ ChunksArrive ∧ BlocksGoToThreads

/-- R81, R83, R91 to R95, R97: LINE_FILL_COMPLETE, VICTIM_WRITEBACK and PATROL_SCRUB_READ. A line that decodes without error is clean, a
corrected one dirty and counted; an ochre marker makes the line ochre, and what cannot be corrected takes the marker, with an event, where
the channel has not failed. A victim that holds no error is written back; after its retries the line takes the marker, or the channel has
failed; an ochre one is dropped. The scrubber's corrected line enters the buffer dirty; that it comes back to a line for which no way is free is the
model's choice (log 82). -/
def Sys2Proof.LinesFilledAndScrubbed : Prop :=
  ∀ (s : State) (e k line : Nat) (b : BufLine) (ok markOk : Bool), (s.core? e).isSome →
    let r := readLine s b.line
    let fill := exec (.lineFillComplete e k) s
    let put := fun (f : BufLine → BufLine) => fill = .next (s.modCore e fun c => { c with mem := { c.mem with
      buf := c.mem.buf.map fun x => if x.line == b.line then f x else x } })
    let gone := fun (s' : State) => (s'.core e).mem.buf = (s.core e).mem.buf.filter (·.line != b.line)
    let back := exec (.victimWriteback e k ok markOk) s
    let victim := b.writing = true ∧ homeOf b.line = e ∧ (s.core e).mem.buf.find? (·.line == b.line) = some b ∧ b.upsets = []
    let failed := (s.core e).mgmt.failed
    let lr := readLine s line
    let scrub := exec (.patrolScrubRead e line) s
    ((s.core e).mem.buf[k]? = some b →
      (b.filling = false → fill = .next s) ∧
      (b.filling = true → (r.bad = true ∧ failed = true) ∨ r.marker = true → put fun x => { x with ochre := true, filling := false }) ∧
      (b.filling = true → failed = false → r.marker = false → r.bad = true → ∃ s', fill = .next s' ∧
        s'.dram = (storeMarker s b.line).dram ∧ s'.check = (storeMarker s b.line).check ∧
        ∀ x ∈ (s'.core e).mem.buf, x.line = b.line → x.ochre = true ∧ x.filling = false ∧ x.dirty = false) ∧
      (b.filling = true → r.marker = false → r.bad = false → r.fixed = [] →
        put fun x => { x with data := BitVec.ofNat 512 r.data, dirty := false, filling := false }) ∧
      (b.filling = true → r.marker = false → r.bad = false → r.fixed ≠ [] → ∃ s', fill = .next s' ∧
        s'.dram = s.dram ∧ ∀ x ∈ (s'.core e).mem.buf, x.line = b.line →
          x.data = BitVec.ofNat 512 r.data ∧ x.dirty = true ∧ x.filling = false) ∧
      (b.writing = false → back = .next s) ∧
      (victim → b.ochre = true → back = .next (s.modCore e fun c => { c with mem := { c.mem with
        buf := c.mem.buf.filter (·.line != b.line) } })) ∧
      (victim → b.ochre = false → ok = true → ∃ s', back = .next s' ∧ gone s' ∧ s'.dram = (storeLine s b.line b.data.toNat).dram ∧
        s'.check = (storeLine s b.line b.data.toNat).check) ∧
      (victim → b.ochre = false → ok = false → markOk = true → ∃ s', back = .next s' ∧ gone s' ∧ s'.dram = (storeMarker s b.line).dram ∧
        s'.check = (storeMarker s b.line).check ∧ (s'.core e).mgmt = (s.core e).mgmt) ∧
      (victim → b.ochre = false → ok = false → markOk = false → ∃ s', back = .next s' ∧ gone s' ∧ s'.dram = s.dram ∧
        (s'.core e).mgmt = { (s.core e).mgmt with failed := true })) ∧
    (64 ∣ line → populated line 64 = true → homeOf line = e → failed = false →
      let next := s.modCore e fun c => { c with mem := { c.mem with scrub := line + 64 } }
      (bufLine? s line ≠ none → scrub = .next next) ∧
      (bufLine? s line = none → lr.marker = true → scrub = .next next) ∧
      (bufLine? s line = none → lr.marker = false → lr.bad = false → lr.fixed = [] → scrub = .next next) ∧
      let found := bufLine? s line = none ∧ lr.marker = false ∧ (lr.bad = true ∨ lr.fixed ≠ [])
      let free := wayFor s e line = some none
      (found → canEnter s e line = false → scrub = .next s) ∧
      (found → canEnter s e line = true → lr.bad = false → ∃ s', scrub = .next s' ∧ (s'.core e).mem.scrub = line + 64 ∧
        ⟨line, BitVec.ofNat 512 lr.data, true, false, false, false, []⟩ ∈ (s'.core e).mem.buf ∧
        (free → s'.dram = s.dram ∧ (s'.core e).mgmt.pgcnt = ((countFixed s e lr.fixed).core e).mgmt.pgcnt)) ∧
      (found → canEnter s e line = true → lr.bad = true → ∃ s', scrub = .next s' ∧ (s'.core e).mem.scrub = line + 64 ∧
        ⟨line, 0, false, true, false, false, []⟩ ∈ (s'.core e).mem.buf ∧
        (free → s'.dram = (storeMarker s line).dram ∧ s'.check = (storeMarker s line).check)))

/-- R81, R82, R95 to R97, R174, R216: LINE_BUFFER_ACCESS. An access that no earlier one at the port holds back finds its line in the buffer, or
its fill begins and it keeps its place at the port; a load gives the bytes, a store changes them and makes the line dirty; on an ochre line
or a failed channel both fail, with INFO 1. R98 to R101: MIRROR_WRITE_APPLY applies a write at the mirror home and tells the writer;
MIRROR_TIMEOUT declares the home lost after the timeout, and tells the writer so, or sends the access on to the other home, also where only
its reply is late. That a write still on its way to a lost home is not applied later (log 48), and that one refused for its channel fares as with
that home lost (log 83), are the model's choices. -/
def Sys2Proof.LinesAccessed : Prop :=
  ∀ (s : State) (k pa m : Nat) (acc : Access) (r : Option Nat) (x : Bool) (p : Pkt) (b : BufLine) (data : List (BitVec 8)) (a : Answer)
      (orig : Carry),
    let e := p.dst
    let failed := (s.core e).mgmt.failed
    let first := ∀ y ∈ portWaiters s e, p.ticket ≠ 0 ∧ p.ticket ≤ y.1
    let bad := b.ochre = true ∨ failed = true
    let i := Instr.lineBufferAccess k
    let buf := (s.core e).mem.buf
    let n := acc.size
    let moved := (s.dropPkt k).modCore e fun c => { c with mem := { c.mem with
      buf := c.mem.buf.filter (·.line != lineOfPa pa) ++ [b] } }
    let answered := fun (s : State) (a : Answer) => s.answer e p.req p.carry a
    let old := b.data.toNat / 2 ^ (8 * (pa % 64)) % 2 ^ (8 * n)
    (Arrives s k p → p.body = .dram pa acc r x none false → expired s e p.carry = false → p.req.ep ≠ e → wrongChannel s e p = false →
      (first → buf.find? (·.line == lineOfPa pa) = some b → b.filling = false → b.writing = false → b.upsets = [] → (s.core e).vbuf = [] →
        (∀ m sg, acc = .load m sg → ¬ bad → Becomes i s p (answered moved (.value (extend m sg old) 0))) ∧
        (∀ m sg, acc = .load m sg → bad → Becomes i s p (answered moved (.ochre 1 p.req.ebit))) ∧
        (∀ m v, acc = .store m v → bad → Becomes i s p (answered moved (.ochre 1 p.req.ebit))) ∧
        (∀ m v, acc = .store m v → ¬ bad → ∃ s' q, Becomes i s p s' ∧ s'.net = dropAt k s.net ++ [q] ∧ q.dst = p.req.ep ∧
          q.body = .answer (.ack 0) ∧ q.req = p.req ∧ ∃ b' ∈ (s'.core e).mem.buf, b'.line = b.line ∧ b'.dirty = true ∧ b'.ochre = false ∧
            b'.data = BitVec.ofNat 512 (patchLine b.data.toNat (pa % 64) (leBytes m v)))) ∧
      (first → buf.find? (·.line == lineOfPa pa) = none → (buf.filter fun y => lineSet y.line == lineSet (lineOfPa pa)).length < 16 →
        (∀ y ∈ buf, lineSet y.line = lineSet (lineOfPa pa) → y.writing = false) →
        exec i s = .next ((s.modCore e fun c => { c with mem := { c.mem with
          buf := c.mem.buf ++ [⟨lineOfPa pa, 0, false, false, true, false, []⟩] } }).heldAtPort k p)) ∧
      (buf.find? (·.line == lineOfPa pa) = some b → b.filling = true ∨ b.writing = true → exec i s = .next (s.heldAtPort k p)) ∧
      (∀ y ∈ portWaiters s e, p.ticket = 0 ∨ y.1 < p.ticket → lineOfPa pa ∈ y.2 → exec i s = .next (s.heldAtPort k p))) ∧
    (Arrives s k p → p.body = .dram pa acc r x none false → expired s e p.carry = true → acc.counts = true → p.carry.hnd ≠ 0 →
      p.carry.opkg = epPkg e → Becomes i s p { takePkt s k e p with
        ctl := (takePkt s k e p).ctl ++ [.drop (epPkg e) p.carry.hnd.toNat 0 0 1] }) ∧
    (Arrives s k p → p.body = .mirrorWrite pa data (.answer a) orig → 0 < data.length → pa % 64 + data.length ≤ 64 → p.req.ep ≠ e →
      wrongChannel s e p = false → first → failed = false → buf = [b] → b.line = lineOfPa pa → b.filling = false → b.writing = false →
      (s.core e).vbuf = [] → (b.ochre = false ∨ data.length = 64) → ∃ s' q b',
        Becomes (.mirrorWriteApply k) s p s' ∧ s'.net = dropAt k s.net ++ [q] ∧ q.dst = p.req.ep ∧ q.body = .answer a ∧
        q.carry = localCarry s (epPkg e) orig ∧
        (s'.core e).mem.buf = [b'] ∧ b'.line = b.line ∧ b'.dirty = true ∧ b'.ochre = false ∧
        b'.data = BitVec.ofNat 512 (patchLine b.data.toNat (pa % 64) data)) ∧
    (Arrives s k p → p.body = .mirrorWrite pa data (.answer a) orig → p.req.ep ≠ e → wrongChannel s e p = true →
      ∃ s' q, Becomes (.mirrorWriteApply k) s p s' ∧ s'.net = dropAt k s.net ++ [q] ∧ q.dst = p.req.ep ∧
        q.body = .answer (withLost a (epPkg e) (epPkg p.src)) ∧ ∀ x, (s'.core x).mem = (s.core x).mem) ∧
    (s.net[k]? = some p → p.body = .mirrorWrite pa data (.answer (.ack 0)) orig → epPkg p.src ≠ epPkg e → p.req.ep ≠ p.src →
      let own := epPkg p.src
      let due := p.sent + (s.pkg own).bridge.mirrto.toNat * 1000
      ((s.now p.src).toNat < due → exec (.mirrorTimeout k) s = .next s) ∧
      (due ≤ (s.now p.src).toNat → epPkg e ∉ (s.pkg own).lost → ∃ s' q, exec (.mirrorTimeout k) s = .next s' ∧
        (s'.pkg own).lost = (s.pkg own).lost ++ [epPkg e] ∧ s'.net = dropAt k s.net ++ [q] ∧ q.dst = p.req.ep ∧
        q.body = .answer (.mirrorLost 0 0 (epPkg e) own))) ∧
    (s.net[k]? = some p → p.body = .dram pa acc r x (some m) false → p.asked = none → epPkg p.src ≠ epPkg e →
      let own := epPkg p.src
      let other := m * 2 ^ 46 + pa % 2 ^ 46
      p.sent + (s.pkg own).bridge.mirrto.toNat * 1000 ≤ (s.now p.src).toNat → epPkg e ∉ (s.pkg own).lost →
        ∃ s' q, exec (.mirrorTimeout k) s = .next s' ∧ (s'.pkg own).lost = (s.pkg own).lost ++ [epPkg e] ∧
          s'.net = dropAt k s.net ++ [q] ∧ q.src = p.src ∧ q.dst = homeOf other ∧ q.req = p.req ∧
          q.body = .dram other acc r x (some (epPkg e)) true) ∧
    (∀ q0 : Asked, s.net[k]? = some p → p.body = .answer a → p.asked = some q0 → q0.body = .dram pa acc r x (some m) false →
      let own := epPkg q0.src
      let other := m * 2 ^ 46 + pa % 2 ^ 46
      let due := q0.sent + (s.pkg own).bridge.mirrto.toNat * 1000
      ((s.now q0.src).toNat < due → exec (.mirrorTimeout k) s = .next s) ∧
      (due ≤ (s.now q0.src).toNat → epPkg q0.dst ∉ (s.pkg own).lost → ∃ s' q, exec (.mirrorTimeout k) s = .next s' ∧
        (s'.pkg own).lost = (s.pkg own).lost ++ [epPkg q0.dst] ∧ s'.net = dropAt k s.net ++ [q] ∧ q.src = q0.src ∧ q.dst = homeOf other ∧
        q.req = p.req ∧ q.body = .dram other acc r x (some (epPkg q0.dst)) true))

/-- R34, R36 to R42, R82, R93, R95, R447: PAGE_WALK_STEP reads a table entry for a walk, by the line buffer of its home, behind what waits there; the walk
goes on a level, or ends with its leaf in the TLBs it serves, or with nothing found. A walk that an INVTLB has overtaken completes for the accesses that
wait for it, and its leaf enters no TLB. INVTLB_APPLY takes the matching entries off a die, whose walks under way in the pages it names become stale.
Which walks those are (log 69), and that a unit's read is served in the unit's own step where no line of it is busy (log 82), are the
model's choices. -/
def Sys2Proof.WalksAndShootdowns : Prop :=
  ∀ (s : State) (dk k pkg die : Nat) (w : Walk) (v : Inv),
    let i := Instr.pageWalkStep dk k
    let a := w.table + 8 * ptIndex w.va w.level
    let there := paPkg w.table = dk / 8 ∧ populated w.table 8192 = true
    let s1 := if there then unitRead s a 8 else s
    let read := walkRead s1 (dk / 8) w.table w.va w.level
    let learns := fun (s' : State) (mark : Nat) => ∀ e n t, s1.thr? e n = some t → dieKey e = dk →
      s'.thr? e n = some (if t.awaits w = true then { t with park := t.park.map fun p => { p with aux := mark } } else t)
    let noTlb := fun (s' : State) => (s'.die dk).tlb = (s1.die dk).tlb ∧ s'.clusters = s1.clusters ∧
      ∀ e, (s'.core e).tlb = (s1.core e).tlb
    let kept := fun (s' : State) (leaf : Option TlbEntry) => ((∀ x ∈ w.fill, x.1 ≠ 3) → (s'.die dk).walks = (s1.die dk).walks.erase w) ∧
      ∀ c, (3, c) ∈ w.fill → ∃ w' ∈ (s'.die dk).walks, w'.ended = true ∧ w'.found = leaf ∧ w'.ctx = w.ctx ∧ w'.va = w.va ∧ (3, c) ∈ w'.fill
    (((s.die dk).walks.filter fun w => !w.ended).take 64 = [w] → k = 0 →
      (there → unitBusy s a 8 = true → exec i s = .next s) ∧
      ((there → unitBusy s a 8 = false) →
        (∀ pa, read.1 = .table pa → exec i s = .next (s1.modDie dk fun d => { d with
          walks := d.walks.map fun x => if x == w then { w with level := w.level + 1, table := pa } else x })) ∧
        (∀ bits pa e, read.1 = .leaf bits pa → w.stale = false → w.fill = [(0, e)] → exec i s = .next
          ((s1.modDie dk fun d => { d with walks := d.walks.erase w }).modCore e fun c => { c with
            tlb := tlbFill 1 128 c.tlb (tlbEntryOf w.ctx w.va bits pa read.2) })) ∧
        (∀ bits pa, read.1 = .leaf bits pa → w.stale = true → ∃ s', exec i s = .next s' ∧
          learns s' (tlbEntryOf w.ctx w.va bits pa read.2).mark ∧ noTlb s' ∧ kept s' (some (tlbEntryOf w.ctx w.va bits pa read.2))) ∧
        (read.1 = .absent → ∃ s', exec i s = .next s' ∧ learns s' 1 ∧ noTlb s' ∧ kept s' none))) ∧
    ((s.pkg pkg).invs = [v] →
      let named := fun (w : Walk) => v.names w.ctx = true ∧ (v.scope ≠ 1 ∨ w.va / 2 ^ 36 = v.va / 2 ^ 36)
      let after := fun (s' : State) => (s'.die (pkg * 8 + die)).tlb = (s.die (pkg * 8 + die)).tlb.filter (fun x => !v.removes x) ∧
        ((s'.die (pkg * 8 + die)).walks = (s.die (pkg * 8 + die)).walks.map fun w => if named w then { w with stale := true } else w) ∧
        ∀ e c, s.core? e = some c → dieKey e = pkg * 8 + die → (s'.core e).tlb = c.tlb.filter fun x => !v.removes x
      (v.todo = [die, die + 1] → ∃ s', exec (.invtlbApply pkg die) s = .next s' ∧ after s' ∧
        (s'.pkg pkg).invs = [{ v with todo := [die + 1] }] ∧ s'.net = s.net) ∧
      (v.todo = [die] → ∃ s', exec (.invtlbApply pkg die) s = .next s' ∧ after s' ∧ (s'.pkg pkg).invs = [])) ∧
    (∀ c : Cmd, c.engine = 1 → dieKey c.ep = dk → tlbLook (s.die dk).tlb c.req.ctx w.va = none → (s.die dk).walks = [w] → w.ended = true →
      w.ctx = c.req.ctx → (3, c.id) ∈ w.fill → ∀ x, w.found = some x → (engineXlate s c w.va).1 = .hit x)

/-- R34 to R42, R81 to R101, R447: lines, mirrors and page walks. -/
def Obligations.MemoryEvents : Prop := LinesFilledAndScrubbed ∧ LinesAccessed ∧ WalksAndShootdowns

/-- A message of the region unit's as it leaves: on its channel, for the requester of its region (R486), with the expiry that the thread's own messages
carry (R212); between the unit and the owners with the system handle. -/
def Sys2Proof.UnitSends (s : State) (src dst : EP) (vc : Nat) (req : Req) (c : Carry) (m : RMsg) : Pkt :=
  ⟨src, dst, vc, if epPkg src == epPkg dst then .arrived else .egress, (s.now src).toNat, req,
    if m.ofThread then c else ⟨never, 0, epPkg src⟩, .region m, 0, none⟩

/-- R110, R177, R438, R486: REGION_BEGIN_REQUEST takes the free record of lowest index, with the next begin sequence, and answers; with none free the
answer says so. The answer opens the region, and the thread goes on; or the region aborts at once with cause 3, at the abort target. That the
lowest record is taken is the model's choice (log 21). -/
def Sys2Proof.RegionBegins : Prop :=
  ∀ (s : State) (dk k j n : Nat) (p : Pkt) (target : CodeAddr) (reg : Reg) (timeout : Word) (t : Thread) (w : Park) (id : Nat),
    let d := s.die dk
    let free := fun (i : Nat) => tget d.regions i = none
    let i := Instr.regionBeginRequest dk k
    let answer := fun (r : Option Nat) => UnitSends s (unitEp dk) p.req.ep 0 p.req p.carry (.opened r target reg)
    let waits := locate s p.req.ep p.req.uid = .slot n ∧ s.thr? p.req.ep n = some t ∧ t.park = some w ∧ p.req.entry = 16 + 32 * w.ser
    (regionPkt s dk k = some (j, p, .begin_ target reg timeout) → expired s p.dst p.carry = false → awaits s p.req = true →
      (∀ x < 1024, free x → (∀ y < x, ¬ free y) → ∃ s' r, exec i s = .next s' ∧ s'.net = dropAt j s.net ++ [answer (some (dk % 8 * 1024 + x))] ∧
        (s'.die dk).rseq = d.rseq + 1 ∧ tget (s'.die dk).regions x = some r ∧ r.state = .opened ∧ r.seq = d.rseq ∧ r.owner = p.req ∧
        r.carry = p.carry ∧ r.target = target ∧ r.reg = reg ∧ r.timeout = timeout ∧ r.preds = [] ∧ r.owners = [] ∧
        ∀ y, y ≠ x → tget (s'.die dk).regions y = tget d.regions y) ∧
      ((∀ x < 1024, ¬ free x) → ∃ s', exec i s = .next s' ∧ s'.net = dropAt j s.net ++ [answer none] ∧ (s'.die dk).regions = d.regions)) ∧
    (Arrives s k p → expired s p.dst p.carry = false → waits →
      (p.body = .region (.opened (some id) target reg) → ∃ s' t', Becomes (.replyArrival k) s p s' ∧ s'.net = dropAt k s.net ∧
        s'.thr? p.req.ep n = some t' ∧ t'.region = some ⟨id, none⟩ ∧ t'.pc = w.next ∧ t'.park = none ∧ t'.regs = t.regs ∧ t'.sr = t.sr) ∧
      (p.body = .region (.opened none target reg) →
        (fetchTraps s p.req.ep target.toNat = true ∨ isHead (lineAt s p.req.ep target.toNat) target.toNat = true) →
        ∃ s' t', Becomes (.replyArrival k) s p s' ∧ s'.net = dropAt k s.net ∧ s'.thr? p.req.ep n = some t' ∧ t'.region = none ∧
          t'.sr = { t.sr with rcause := 3 } ∧ t'.regs = (t.putG reg 3).regs ∧ t'.pc = target ∧ t'.park = none))

/-- R177, R180, R181, R185, R186, R187, R216, R486: an access joins those at its owner, unless a window refuses it, or it has lapsed, for which the owner asks
for the end of its region with cause 4; the owner asks the unit for its edges, by region and begin sequence; the unit grants a new edge, aborts
the youngest region of a cycle with cause 1, or parks an access that would give its region a fifth predecessor; a region that has reused a record
is none that was asked for; an access that need not be parked any more is granted, and its wait has ended; the grant comes to the owner. -/
def Sys2Proof.RegionEdges : Prop :=
  ∀ (s : State) (dk k j q : Nat) (p : Pkt) (x : RAccess) (r r2 : Region) (frm : List Nat),
    let d := s.die dk
    let idx := x.region % 1024
    let i := Instr.regionAccessEdges dk k
    let key := x.key (((x.words.head?.map (·.1)).getD 0) / 8 * 8)
    let live := liveStack s dk x.home key
    let aborts := fun (n cause : Nat) => ∃ s' y, exec i s = .next s' ∧ tget (s'.die dk).regions n = some y ∧ y.state = .aborting ∧ y.cause = cause
    let grants := fun (s' : State) => exec i s = .next s' ∧ UnitSends s (unitEp dk) x.home 0 x.req x.carry (.granted x.region x.num frm) ∈ s'.net
    (regionPkt s dk k = some (j, p, .access x) → accessRegion s dk x = some r →
      (expired s p.dst p.carry = true → ∃ s', exec i s = .next s' ∧ (s'.die dk).regions = d.regions ∧ (s'.die dk).raccs = d.raccs ∧
        UnitSends s x.home (unitEp dk) 1 r.owner r.carry (.abort x.region r.seq 4) ∈ s'.net) ∧
      (expired s p.dst p.carry = false → accessCurrent s x = true →
        (x.here = true ∨ (closedAt s x.home = false ∧ wrongChannel s x.home p = false ∧ ∀ y ∈ x.words, admits s x.home x.req.ctx y.1 y.2.size y.2.needs = true) →
          exec i s = .next ((s.dropPkt j).modDie dk fun d => { d with raccs := d.raccs ++ [x] })) ∧
        (x.here = false → (closedAt s x.home = true ∨ wrongChannel s x.home p = true ∨ ∃ y ∈ x.words, admits s x.home x.req.ctx y.1 y.2.size y.2.needs = false) →
          ∃ s' m, exec i s = .next s' ∧ s'.net = dropAt j s.net ++ [m] ∧ m.dst = x.req.ep ∧ m.vc = 0 ∧ m.body = .answer .refused))) ∧
    (d.raccs = [x] → k = (regionPkts s dk).length → x.phase = .waiting → ∃ s' edges, exec i s = .next s' ∧ (s'.die dk).raccs = [{ x with phase := .asked }] ∧
      s'.net = s.net ++ [UnitSends s x.home (unitEp dk) 1 x.req x.carry (.edges x.region x.num edges)] ∧
      ((∀ y ∈ x.words, y.1 / 8 = ((x.words.head?.map (·.1)).getD 0) / 8 → y.2.writes = false) →
        edges = (newestW live).toList.filterMap fun v => if v.region = x.region then none else some (regionKey s dk v.region)) ∧
      ((∃ y, x.words.head? = some y ∧ y.2.writes = true) →
        edges = live.filterMap fun v => if v.region = x.region then none else some (regionKey s dk v.region))) ∧
    (regionPkt s dk k = some (j, p, .edges x.region x.num frm) → d.raccs = [x] → x.phase = .asked → r.state = .opened →
      (frm = [] → d.regions = [(idx, r)] → r.preds = [] → ∃ s', grants s' ∧ (s'.die dk).regions = d.regions) ∧
      (∀ key, frm = [key] → regionKey s dk (key % 8192) ≠ key → d.regions = [(idx, r)] → r.preds = [] →
        ∃ s', grants s' ∧ (s'.die dk).regions = d.regions) ∧
      (q < 8192 → frm = [regionKey s dk q] → d.regions = [(idx, r), (q % 1024, r2)] → idx ≠ q % 1024 → q ≠ x.region → r2.state = .opened →
        (r2.preds = [] → r.preds = [] → ∃ s', grants s' ∧ tget (s'.die dk).regions idx = some { r with preds := [q] }) ∧
        (r2.preds = [] → r.preds.length = 4 → q ∉ r.preds → x.since = 0 → ∃ s', exec i s = .next s' ∧ (s'.die dk).regions = d.regions ∧
          (s'.die dk).raccs = [{ x with phase := .parked frm, since := (s.core x.req.ep).cycle + 1 }]) ∧
        (r2.preds = [x.region] → r.preds = [] → r.owners ≠ [] → (r.seq - r2.seq).toNat < 2 ^ 31 → aborts idx 1) ∧
        (r2.preds = [x.region] → r.preds = [] → r2.owners ≠ [] → 2 ^ 31 ≤ (r.seq - r2.seq).toNat → aborts (q % 1024) 1 ∧ ∃ s', grants s'))) ∧
    (d.raccs = [x] → k = (regionPkts s dk).length → x.phase = .parked frm → frm = [] → d.regions = [(idx, r)] → r.state = .opened → r.preds = [] →
      ∃ s', grants s' ∧ (s'.die dk).regions = d.regions ∧ (s'.die dk).raccs = [{ x with phase := .asked, since := 0 }]) ∧
    (regionPkt s dk k = some (j, p, .granted x.region x.num frm) → d.raccs = [x] →
      ∃ s', exec i s = .next s' ∧ s'.net = dropAt j s.net ∧ (s'.die dk).raccs = [{ x with phase := .granted frm }] ∧ (s'.die dk).regions = d.regions)

/-- R51, R176, R180, R181, R183, R184, R187, R189: REGION_ACCESS_EDGES of a granted access to one scratchpad word: a read answers the newest version
of the word, or its committed value, and leaves an R entry but on a version of its own; a write leaves a W entry with the new word and
changes no memory; a read of an ochre word is answered so; for one over the buffer's size the owner asks for the abort with cause 3 (R486). That an access
of a region whose entry a plain write has met waits for its abort (R189) is the model's choice (log 80). -/
def Sys2Proof.RegionAccesses : Prop :=
  ∀ (s : State) (dk k a m v : Nat) (sgn : Bool) (x : RAccess) (r r2 : Region) (acc : Access) (frm : List Nat) (y : VEntry),
    let d := s.die dk
    let w := a / 8 * 8
    let idx := x.region % 1024
    let vb := (s.core x.home).vbuf
    let i := Instr.regionAccessEdges dk k
    let size := if epKind x.home = 1 then 1024 else 128
    let field := fun (v : Nat) => extend m sgn (v / 2 ^ (8 * (a % 8)) % 2 ^ (8 * m))
    let same := fun (s' : State) => (s'.core x.home).spad = (s.core x.home).spad ∧ (s'.die dk).raccs = [] ∧ s'.net = s.net ∧
      ∃ (z : Region), tget (s'.die dk).regions idx = some z ∧ z.owner = r.owner ∧ z.seq = r.seq ∧ z.state = .opened ∧ z.preds = r.preds ∧ z.owners = r.owners
    let reads := fun (v : Nat) (more : List VEntry) => ∃ (s' : State), exec i s = .next (s'.settle x.req (.value (field v) 0)) ∧ same s' ∧ (s'.core x.home).vbuf = vb ++ more
    d.raccs = [x] → k = (regionPkts s dk).length → x.phase = .granted frm → x.words = [(a, acc)] → x.got = [] → x.dram = false → x.vec = none → x.relaxed = false →
    x.here = true → tget d.regions idx = some r → r.state = .opened → r.owners = [x.home] → (s.core? x.home).isSome → (s.core x.home).upsets = [] →
    ((∃ e ∈ vb, e.region = x.region ∧ e.doomed = true) → exec i s = .next s) ∧
    ((∀ e ∈ vb, e.region = x.region → e.doomed = false) →
    (acc = .load m sgn → a % 8 + m ≤ 8 → vb.length < size →
      ((∀ e ∈ vb, e.addr ≠ w) → anyOchre s x.home w 8 = false → reads (mread (s.core x.home).spad w 8) [⟨w, x.region, false, 0, 0, false, none, false⟩]) ∧
      ((∀ e ∈ vb, e.addr ≠ w) → anyOchre s x.home w 8 = true → ∃ (s' : State), exec i s = .next (s'.settle x.req (.ochre 0 x.req.ebit)) ∧ same s' ∧ (s'.core x.home).vbuf = vb) ∧
      (vb = [y] → y.addr = w → y.write = true → y.region = x.region → reads y.new.toNat []) ∧
      (vb = [y] → y.addr = w → y.write = true → y.doomed = false → y.region ≠ x.region → frm = [regionKey s dk y.region] →
        tget d.regions (y.region % 1024) = some r2 → r2.state ≠ .aborting → reads y.new.toNat [⟨w, x.region, false, 0, 0, false, none, false⟩])) ∧
    (acc = .store 8 v → a % 8 = 0 → v < 2 ^ 64 → (∀ e ∈ vb, e.addr ≠ w) →
      (vb.length < size → ∃ (s' : State), exec i s = .next (s'.settle x.req (.ack 0)) ∧ same s' ∧
        (s'.core x.home).vbuf = vb ++ [⟨w, x.region, true, BitVec.ofNat 64 v, BitVec.ofNat 64 (mread (s.core x.home).spad w 8), false, x.mpkg, false⟩]) ∧
      (size ≤ vb.length → ∃ s', exec i s = .next s' ∧ (s'.die dk).regions = d.regions ∧ (s'.die dk).raccs = [{ x with phase := .asked }] ∧
        s'.net = s.net ++ [UnitSends s x.home (unitEp dk) 1 r.owner r.carry (.abort x.region r.seq 3)] ∧ s'.cores = s.cores)))

/-- R110, R178, R187, R188, R190, R216, R439, R441, R486: a commit seals the region's entries at every owner; with the last acknowledgement and no
predecessor left it is decided and a resolve goes to every owner, which turns its versions into the committed words; with the last of those
acknowledged the release takes its thread past RCOMMIT with p7 = 1 and RCAUSE 0, and the record is free. RSTAT gets the record's word. Requests travel on VC1, answers on VC0.
That a sealing region's wait counts from the last acknowledgement (log 83), in cycles of the core that began the region (log 21), and that an owner whose
entry a plain write has met acknowledges no seal (log 80), is the model's choice. -/
def Sys2Proof.RegionCommits : Prop :=
  ∀ (s : State) (dk k j id n : Nat) (p : Pkt) (r : Region) (e f : EP) (v : VEntry) (t : Thread) (w : Park),
    let d := s.die dk
    let idx := id % 1024
    let tells := fun (m : RMsg) => r.owners.map fun e => UnitSends s (unitEp dk) e 1 r.owner r.carry m
    let acks := fun (m : RMsg) => UnitSends s p.dst (unitEp dk) 0 p.req p.carry m
    let becomes := fun (i : Instr) (r : Region) (more : List Pkt) => ∃ s', exec i s = .next s' ∧ (s'.die dk).regions = [(idx, r)] ∧
      s'.net = dropAt j s.net ++ more ∧ s'.cores = s.cores
    id = dk % 8 * 1024 + idx → d.regions = [(idx, r)] →
    (regionPkt s dk k = some (j, p, .commit id) → expired s p.dst p.carry = false → r.owner.uid = p.req.uid → awaits s p.req = true → r.state = .opened → r.owners ≠ [] →
      becomes (.regionCommitRequest dk k) { r with state := .sealing, waiting := r.owners } (tells (.seal_ id))) ∧
    (regionPkt s dk k = some (j, p, .stat id) → expired s p.dst p.carry = false → r.owner.uid = p.req.uid → r.state = .opened → r.preds = [] → locate s p.req.ep p.req.uid = .slot n →
      s.thr? p.req.ep n = some t → ∃ s' q, exec (.regionCommitRequest dk k) s = .next s' ∧ s'.net = dropAt j s.net ++ [q] ∧ q.dst = p.req.ep ∧ q.vc = 0 ∧
        q.body = .answer (.value (r.seq.toNat * 2 ^ 32 + dk % 8 * 2 ^ 26 + idx * 2 ^ 16 + t.sr.rcause.toNat * 2 ^ 12 + 1) 0)) ∧
    (regionPkt s dk k = some (j, p, .seal_ id) → (∃ v ∈ (s.core p.dst).vbuf, v.region = id ∧ v.doomed = true) →
      exec (.sealAtOwner dk k) s = .next (s.dropPkt j)) ∧
    (regionPkt s dk k = some (j, p, .seal_ id) → (∀ v ∈ (s.core p.dst).vbuf, v.region = id → v.doomed = false) → ∃ s', exec (.sealAtOwner dk k) s = .next s' ∧ s'.net = dropAt j s.net ++ [acks (.sealAck id p.dst)] ∧
      (s'.core p.dst).vbuf = ((s.core p.dst).vbuf.map fun v => if v.region == id then { v with sealed_ := true } else v) ∧
      (s'.core p.dst).spad = (s.core p.dst).spad ∧ s'.dies = s.dies) ∧
    (regionPkt s dk k = some (j, p, .sealAck id e) → r.state = .sealing →
      (r.waiting.erase e ≠ [] → becomes (.sealAck dk k) { r with waiting := r.waiting.erase e } []) ∧
      (r.waiting = [e] → r.preds ≠ [] → r.since = 0 →
        becomes (.sealAck dk k) { r with waiting := [], since := (s.core r.owner.ep).cycle + 1, clock := r.owner.ep } []) ∧
      (r.waiting = [e] → r.preds = [] → r.owners ≠ [] → checkFails s dk r.carry.inst r.carry.hnd.toNat = false →
        ∃ c, becomes (.sealAck dk k) { r with state := .committed, waiting := r.owners, since := 0, clock := c } (tells (.resolve id))) ∧
      (r.waiting = [e] → r.preds = [] → r.owners ≠ [] → checkFails s dk r.carry.inst r.carry.hnd.toNat = true → ∃ s' y,
        exec (.sealAck dk k) s = .next s' ∧ tget (s'.die dk).regions idx = some y ∧ y.state = .aborting ∧ y.cause = 4)) ∧
    (regionPkt s dk k = some (j, p, .resolve id) → (s.core p.dst).vbuf = [v] → v.region = id → v.write = true → v.addr + 8 ≤ 2 ^ 60 →
      (s.core p.dst).watches = [] → (s.core p.dst).dtl = [] → (s.core p.dst).overflow = [] → Memory.wf (s.core p.dst).spad = true →
      ∃ s', exec (.resolveAtOwner dk k) s = .next s' ∧ (s'.core p.dst).vbuf = [] ∧ mread (s'.core p.dst).spad v.addr 8 = v.new.toNat ∧
        s'.net = dropAt j s.net ++ [acks (.resolveAck id p.dst)] ∧
        ∀ a, ¬ (v.addr ≤ a ∧ a < v.addr + 8) → mget (s'.core p.dst).spad a = mget (s.core p.dst).spad a) ∧
    (regionPkt s dk k = some (j, p, .resolveAck id e) → r.state = .committed →
      (r.waiting.erase e ≠ [] → becomes (.resolveAck dk k) { r with waiting := r.waiting.erase e } []) ∧
      (r.waiting = [e] → committer s r = some (f, n) →
        becomes (.resolveAck dk k) { r with waiting := [] } [UnitSends s (unitEp dk) f 0 r.owner r.carry (.release id)])) ∧
    (Arrives s k p → p.body = .region (.release id) → expired s p.dst p.carry = false → dieKey p.src = dk → r.state = .committed → committer s r = some (e, n) → s.thr? e n = some t →
      t.park = some w → ∃ s' t', Becomes (.replyArrival k) s p s' ∧ s'.net = dropAt k s.net ∧ (s'.die dk).regions = [] ∧ s'.thr? e n = some t' ∧
        t'.region = none ∧ t'.sr = { t.sr with rcause := 0 } ∧ t'.regs = (t.p7 true).regs ∧ t'.pc = w.next ∧ t'.park = none)

/-- R187, R192, R193, R196, R197, R216, R284, R438, R486: an owner discards its entries and acknowledges; with the last acknowledgement the record is
free and the abort on its way. A thread that waits on its region takes it at once: the cause in its register and in RCAUSE, the PC at the abort
target; another keeps it. That a handler goes on behind what it waited for is the model's choice (log 80). A lapsed record aborts with cause 4, one past its
timeout, by its own wait or that of an access parked now, with cause 6. A request for an abort, of the thread or of an owner, aborts the region it
names, and no other that has reused its record. -/
def Sys2Proof.RegionEnds : Prop :=
  ∀ (s : State) (dk k j id n cause : Nat) (p : Pkt) (r : Region) (e : EP) (t : Thread) (w : Park) (target : CodeAddr) (reg : Reg),
    let d := s.die dk
    let idx := id % 1024
    let aborts := fun (i : Instr) (cause : Nat) => ∃ s' y, exec i s = .next s' ∧ tget (s'.die dk).regions idx = some y ∧ y.state = .aborting ∧
      y.cause = cause ∧ y.waiting = r.owners
    let held : Option RegionRef := some ⟨id, some (cause, target, reg)⟩
    (∀ seq, regionPkt s dk k = some (j, p, .abort id seq cause) → d.regions = [(idx, r)] → id = dk % 8 * 1024 + idx →
      (r.seq = seq → (r.state = .opened ∨ r.state = .sealing) → r.owners ≠ [] → r.preds = [] → aborts (.abortDelivery dk k) cause) ∧
      (r.seq ≠ seq → exec (.abortDelivery dk k) s = .next (s.dropPkt j))) ∧
    (regionPkt s dk k = some (j, p, .discard id) → (s.core p.dst).dtl = [] → (s.core p.dst).overflow = [] → ∃ s', exec (.discardAtOwner dk k) s = .next s' ∧
      (s'.core p.dst).vbuf = ((s.core p.dst).vbuf.filter fun v => v.region != id) ∧ (s'.core p.dst).spad = (s.core p.dst).spad ∧
      s'.net = dropAt j s.net ++ [UnitSends s p.dst (unitEp dk) 0 p.req p.carry (.discardAck id p.dst)] ∧ s'.dies = s.dies) ∧
    (regionPkt s dk k = some (j, p, .discardAck id e) → d.regions = [(idx, r)] → r.state = .aborting → e ∈ r.waiting →
      (r.waiting.erase e ≠ [] → ∃ s', exec (.abortDelivery dk k) s = .next s' ∧ s'.net = dropAt j s.net ∧
        (s'.die dk).regions = [(idx, { r with waiting := r.waiting.erase e })]) ∧
      (r.waiting = [e] → ∃ s', exec (.abortDelivery dk k) s = .next s' ∧ (s'.die dk).regions = [] ∧ s'.net = dropAt j s.net ++
        if r.silent = true then [] else [UnitSends s (unitEp dk) r.owner.ep 0 r.owner r.carry (.deliver id r.cause r.target r.reg)])) ∧
    (regionPkt s dk k = some (j, p, .deliver id cause target reg) → findThread s (dk / 8) p.req.uid = some (e, .slot n) → visitorOf s p.req.uid = none →
      s.thr? e n = some t → cause < 16 →
      (∀ h, t.region = some ⟨id, h⟩ → t.handler = false → t.pair = none → t.waitsRegion = true →
        (fetchTraps s e target.toNat = true ∨ isHead (lineAt s e target.toNat) target.toNat = true) →
        ∃ s' t', exec (.abortDelivery dk k) s = .next s' ∧ s'.net = dropAt j s.net ∧ s'.thr? e n = some t' ∧
          t'.region = none ∧ t'.sr = { t.sr with rcause := BitVec.ofNat 4 cause } ∧ t'.regs = (t.putG reg (BitVec.ofNat 64 cause)).regs ∧
          t'.pc = target ∧ t'.park = none) ∧
      (∀ h, t.region = some ⟨id, h⟩ → t.handler = true → t.waitsRegion = true → t.park = some w → ∃ s' t', exec (.abortDelivery dk k) s = .next s' ∧
        s'.net = dropAt j s.net ∧ s'.thr? e n = some t' ∧ t'.region = held ∧ t'.pc = w.next ∧ t'.park = none ∧ t'.regs = t.regs) ∧
      (∀ h, t.region = some ⟨id, h⟩ → t.waitsRegion = false → exec (.abortDelivery dk k) s =
        .next ((s.dropPkt j).modThr e n fun t => { t with region := held })) ∧
      ((∀ h, t.region ≠ some ⟨id, h⟩) → exec (.abortDelivery dk k) s = .next (s.dropPkt j))) ∧
    (regionPkt s dk k = some (j, p, .deliver id cause target reg) → findThread s (dk / 8) p.req.uid = none →
      exec (.abortDelivery dk k) s = .next (s.dropPkt j)) ∧
    (d.regions = [(idx, r)] → k = 0 → id = dk % 8 * 1024 + idx → (r.state = .opened ∨ r.state = .sealing) → r.owners ≠ [] → r.preds = [] →
      (checkFails s dk r.carry.inst r.carry.hnd.toNat = true → aborts (.regionInstantTest dk k) 4) ∧
      (checkFails s dk r.carry.inst r.carry.hnd.toNat = false → exec (.regionInstantTest dk k) s = .next s) ∧
      (r.state = .sealing → r.since ≠ 0 → r.timeout ≠ -1 → r.since + r.timeout.toNat ≤ (s.core r.clock).cycle + 1 →
        aborts (.regionWaitTimeout dk k) 6) ∧
      ((r.state = .opened ∨ r.since = 0 ∨ r.timeout = -1 ∨ (s.core r.clock).cycle + 1 < r.since + r.timeout.toNat) →
        (∀ x ∈ d.raccs, x.region = id → x.parked = false) → exec (.regionWaitTimeout dk k) s = .next s) ∧
      (∀ x ∈ d.raccs, x.region = id → x.parked = true → x.since ≠ 0 → r.timeout ≠ -1 → x.since + r.timeout.toNat ≤ (s.core x.req.ep).cycle + 1 →
        aborts (.regionWaitTimeout dk k) 6))

/-- R177 to R198, R438 to R441, R486: the region unit at work. -/
def Obligations.RegionEvents : Prop := RegionBegins ∧ RegionEdges ∧ RegionAccesses ∧ RegionCommits ∧ RegionEnds

/-- A migrant runs in a visitor slot (R80, R87, R192, R197, R212, R377, R444): its scalar registers, PC, mode and special registers, an identity of its own,
the carried expiry, its region as its origin knows it. -/
def Sys2Proof.Visits (s s' : State) (e : EP) (n uid : Nat) (m : Migrant) (c : Carry) : Prop :=
  ∃ t' : Thread, s'.thr? e n = some t' ∧ t'.regs.g = m.thr.regs.g ∧ t'.regs.p = m.thr.regs.p ∧ t'.pc = m.thr.pc ∧ t'.park = none ∧
    t'.origin = some m.origin ∧ t'.uid = uid ∧ t'.sup = m.thr.sup ∧ t'.handler = m.thr.handler ∧
    t'.sr = { m.thr.sr with inst := c.inst, hnd := c.hnd } ∧
    t'.region = if m.thr.region = none then none else ((s.thrWhere m.origin.ep (locate s m.origin.ep m.origin.uid)).bind (·.region)).or m.thr.region

/-- R80, R87, R89, R219, R285, R376: a migrant takes the lowest free visitor slot, joins the ingress queue of 32 where none is free, or waits
while that is full; the oldest one queued takes a slot that has become free. One that comes home brings its scalar registers, PC, mode, special
registers, instant, handle and region back, but what a visitor cannot write stays the origin's; its trap is taken there; one that has ended,
or that lapses on its way, ends its origin. What travels with a migrant, and which channel it comes home on, are the model's choices (log 37). -/
def Sys2Proof.MigrantsTravel : Prop :=
  ∀ (s : State) (k n : Nat) (e : EP) (p : Pkt) (m : Migrant) (rest : List Migrant) (t : Thread),
    let queue := fun (e : EP) => (s.core e).mem.migrants
    (Arrives s k p → p.body = .migrant m → expired s p.dst p.carry = false → wrongChannel s p.dst p = false →
      epPkg m.origin.ep = epPkg p.dst → (s.core? p.dst).isSome →
      (queue p.dst = [] → freeVisitor s p.dst = some n → ∃ s', Becomes (.migrantArrival k) s p s' ∧ s'.net = dropAt k s.net ∧
        Visits s s' p.dst n s.nextUid m p.carry) ∧
      ((queue p.dst ≠ [] ∨ freeVisitor s p.dst = none) → (queue p.dst).length < 32 → Becomes (.migrantArrival k) s p
        ((s.dropPkt k).modCore p.dst fun c => { c with mem := { c.mem with migrants := c.mem.migrants ++ [{ m with carry := p.carry }] } })) ∧
      (32 ≤ (queue p.dst).length → exec (.migrantArrival k) s = .next s)) ∧
    (queue e = m :: rest → epPkg m.origin.ep = epPkg e → (freeVisitor s e = some n → ∃ s', exec (.migrantQueueAdmit e) s = .next s' ∧ (s'.core e).mem.migrants = rest ∧
        Visits s s' e n s.nextUid m m.carry) ∧
      (freeVisitor s e = none → exec (.migrantQueueAdmit e) s = .next s)) ∧
    (∀ trap, let brought := { m.thr.sr with inst := p.carry.inst, hnd := p.carry.hnd, lbase := t.sr.lbase, lsize := t.sr.lsize,
                                            peermap := t.sr.peermap, trapbase := t.sr.trapbase, sticky := t.sr.sticky }
      Arrives s k p → expired s p.dst p.carry = false → (p.vc = 0 ∨ wrongChannel s p.dst p = false) → p.body = .comeBack m trap false → originSlot s m.origin = some (n, t) → m.origin.ep = p.dst →
      s.thr? p.dst n = some t → epPkg p.src = epPkg p.dst →
      (trap = none → ∃ s' t', Becomes (.migrantReturn k) s p s' ∧ s'.net = dropAt k s.net ∧ s'.thr? p.dst n = some t' ∧
        t'.regs = { t.regs with g := m.thr.regs.g, p := m.thr.regs.p } ∧ t'.pc = m.thr.pc ∧ t'.park = none ∧ t'.uid = t.uid ∧
        t'.sup = m.thr.sup ∧ t'.handler = m.thr.handler ∧ t'.sr = brought ∧
        t'.region = if m.thr.region ≠ none ∧ t.region.bind (·.abort) ≠ none then t.region else m.thr.region) ∧
      (∀ c a i, trap = some (c, a, i) → m.thr.handler = false → t.origin = none → c < 256 → rectOf s p.dst = none → ∃ s' t', Becomes (.migrantReturn k) s p s' ∧
        s'.thr? p.dst n = some t' ∧ t'.handler = true ∧ t'.sup = true ∧ t'.sr.tcause.toNat = c ∧ t'.sr.taddr = a ∧
        t'.sr.trappc = m.thr.pc ∧ t'.regs.g = m.thr.regs.g)) ∧
    (∀ trap ended, Arrives s k p → expired s p.dst p.carry = true → p.body = .comeBack m trap ended → originSlot s m.origin = some (n, t) →
      m.origin.ep = p.dst → s.thr? p.dst n = some t → t.origin = none → ∃ s', Becomes (.migrantReturn k) s p s' ∧ s'.thr? p.dst n = none) ∧
    (∀ trap, Arrives s k p → expired s p.dst p.carry = false → (p.vc = 0 ∨ wrongChannel s p.dst p = false) → p.body = .comeBack m trap true → originSlot s m.origin = some (n, t) → m.origin.ep = p.dst →
      s.thr? p.dst n = some t → m.thr.lapsed = false → t.origin = none → ∃ s', Becomes (.migrantReturn k) s p s' ∧ s'.thr? p.dst n = none) ∧
    (∀ trap ended, Arrives s k p → expired s p.dst p.carry = false → (p.vc = 0 ∨ wrongChannel s p.dst p = false) → p.body = .comeBack m trap ended →
      originSlot s m.origin = none →
      Becomes (.migrantReturn k) s p (s.dropPkt k))

/-- R219, R287, R445: once nothing of the slot is under way its image goes into the entry, the slot is vacant, and the CSWAP ends with p7 = 1; the
image of a thread that has lapsed is dead. With nobody left to save it ends with p7 = 0. That the swap goes on though the thread has lapsed, and ends so where
containment has emptied the slot, are the model's choices (log 32). -/
def Sys2Proof.ImagesWritten : Prop :=
  ∀ (s : State) (e : EP) (slot entry issuer j : Nat) (t x : Thread) (p : Park), (s.core e).swaps.find? (·.1 == slot) = some (slot, entry, issuer) →
    let i := Instr.swapImageWritten e slot
    let waits := (s.core e).slots.find? (fun (_, t) => t.uid == issuer && (t.park.map (·.why)) == some .swap) = some (j, x) ∧
      s.thr? e j = some x ∧ x.park = some p ∧ j ≠ slot
    let ends := fun (s' : State) (ok : Bool) => ∃ x', s'.thr? e j = some x' ∧ x'.regs = (x.p7 ok).regs ∧ x'.pc = p.next ∧ x'.park = none ∧
      (s'.core e).swaps = (s.core e).swaps.filter (·.1 != slot)
    (s.thr? e slot = some t → (t.xf.isSome = true ∨ t.cnt.tlc ≠ 0 ∨ mmaBusy s e t = true) → exec i s = .next s) ∧
    (s.thr? e slot = none → waits → ∃ s', exec i s = .next s' ∧ ends s' false) ∧
    (s.thr? e slot = some t → waits → t.xf = none → t.cnt.tlc = 0 → mmaBusy s e t = false → t.outbox = [] → t.qres.count = 0 → t.pair = none →
      tget (s.cluster (clusterKey e)).tcc entry = none → groupOf s e t.ctx t.vcore = none → t.park = none →
      ∃ s' g, exec i s = .next s' ∧ ends s' true ∧ s'.thr? e slot = none ∧ tget (s'.cluster (clusterKey e)).tcc entry = some g ∧
        g.ep = e ∧ g.dead = expired s e (carryOf e t) ∧ g.thr.regs = t.regs ∧ g.thr.sr = t.sr ∧ g.thr.pc = t.pc ∧ g.thr.uid = t.uid ∧ g.thr.sb = t.sb ∧
        (s'.core e).held = t.inbox.map (fun m => ⟨t.ctx, t.vcore, t.vthr, m, ⟨e, 0, 0, t.ctx, 0, 0, 17, 0⟩, ⟨t.sr.inst, t.sr.hnd, epPkg e⟩, false⟩) ++
          (s.core e).held)

/-- R102 to R106: AREC_WRITE sets V, the rectangle and REL of a descriptor, never its STATE, and ignores a rectangle that is misaligned, meets
another or would move while not open. BOUNDARY_CLOSE closes a resetting rectangle: no thread stays on a core inside, and no packet between
two of them; here where every other packet's way keeps clear of it (how far one on its way through has come is log 40). RECTANGLE_RESET_COMPLETE resets its cores, and STATE is 2; CONTAINMENT_RELEASE opens it again, and its cores issue. Logs 38 to 40 name what the model deduces. -/
def Sys2Proof.ContainmentSteps : Prop :=
  ∀ (s : State) (dk r : Nat) (w : BitVec 32), r < 16 →
    let d := s.die dk
    let old := (d.arec.toList.getD r 0).toNat
    let v := w.toNat
    let inside := rectCores s (dk / 8) (dk % 8) r
    let closed := d.closed.toList.getD r false
    let state := old / 2 ^ 29 % 4
    let bad := rectAligned v = false ∨ ∃ i < 16, i ≠ r ∧ (d.arec.toList.getD i 0).toNat / 2 ^ 31 = 1 ∧
      rectsMeet v (d.arec.toList.getD i 0).toNat = true
    let moves := v / 2 ^ 9 % 2 ^ 18 ≠ old / 2 ^ 9 % 2 ^ 18 ∧ state ≠ 0
    (¬ bad → ¬ moves → v % 2 = 0 → exec (.arecWrite dk r w) s = .next (s.modDie dk fun d => { d with
      arec := d.arec.setIfInBounds r (BitVec.ofNat 32 (v / 2 ^ 31 * 2 ^ 31 + state * 2 ^ 29 + v / 2 ^ 9 % 2 ^ 18 * 2 ^ 9)) })) ∧
    (bad ∨ moves → ∃ s', exec (.arecWrite dk r w) s = .next s' ∧ s'.dies = s.dies ∧ s'.cores = s.cores) ∧
    (state ≠ 1 ∨ closed = true → exec (.boundaryClose dk r) s = .next s) ∧
    (state = 1 → closed = false → d.regions = [] → d.raccs = [] → (∀ p ∈ s.net, p.probed = false ∧ ∀ m, p.body ≠ .migrant m) →
      (∀ p ∈ s.net, p.dst ∉ inside → ∀ x ∈ wayOf s p, ∀ e ∈ inside, x ≠ (dieKey e, routerOf e)) →
      (∀ p ∈ s.net, p.src ∈ inside → p.dst ∈ inside → p.req.ep ∈ inside ∧ ((∃ a, p.body = .answer a) ∨ ∃ a b c acc d' f h, p.body = .access a b c acc d' f h)) →
      (∀ c ∈ s.cmds, c.ep ∉ inside) → (∀ key, (s.cluster key).frames = []) →
      (∀ c ∈ s.cores, c.2.mem.migrants = [] ∧ c.2.overflow = [] ∧ ∀ x ∈ c.2.slots, x.2.origin = none) →
      (∀ e ∈ inside, (s.core e).groups = [] ∧ (s.core e).deque = [] ∧ ∀ x ∈ (s.core e).slots, x.2.region = none ∧ x.2.provisional = none ∧
        x.2.sr.hnd = 0 ∧ x.2.qres.count = 0) →
      ∃ s', exec (.boundaryClose dk r) s = .next s' ∧ (s'.die dk).closed = d.closed.setIfInBounds r true ∧
        (∀ e ∈ inside, ∀ n, s'.thr? e n = none) ∧ (∀ e n, e ∉ inside → s'.thr? e n = s.thr? e n) ∧
        s'.net = s.net.filter fun p => !(inside.contains p.src && inside.contains p.dst)) ∧
    (state ≠ 1 ∨ closed = false → exec (.rectangleResetComplete dk r) s = .next s) ∧
    (state = 1 → closed = true → ∃ s', exec (.rectangleResetComplete dk r) s = .next s' ∧ arecState s' dk r = 2 ∧ s'.net = s.net ∧
      (∀ e c, e ∈ inside → s.core? e = some c → s'.core? e = some c.contained) ∧ (∀ e, e ∉ inside → s'.core? e = s.core? e)) ∧
    (state = 2 → ∃ s', exec (.containmentRelease dk r) s = .next s' ∧ arecState s' dk r = 0 ∧
      (s'.die dk).closed = d.closed.setIfInBounds r false ∧ ∀ e c, e ∈ inside → s.core? e = some c → s'.core? e = some { c with halted := false }) ∧
    (state ≠ 2 → exec (.containmentRelease dk r) s = .next s)

/-- R80 to R89, R102 to R106, R287: migrants, swapped-out images and contained rectangles. -/
def Obligations.VisitorsImagesAndContainment : Prop := MigrantsTravel ∧ ImagesWritten ∧ ContainmentSteps

/-- R263, R464 to R468: what the host writes. An entry of 64 bytes whose SEQ lies within the ring is placed and waits for its turn; another
form changes no queue. A cancel reaches the admitted request of its queue and SEQ, which lapses with C, waits for its entry, or finds it completed and
does nothing. A staging write counts in boot
states 1 and 4, a write to a scratchpad leaves as pieces on VC1, and an unmapped one is discarded. -/
def Sys2Proof.HostWrites : Prop :=
  ∀ (s : State) (pkg off n : Nat) (entry : BitVec 512) (w : Word) (data : Nat), hostReaches s pkg = true →
    let q := off / 64
    let d := qDesc s pkg q
    let seq : BitVec 32 := entry.setWidth 32
    let ahead := (seq - (s.queue pkg q).next).toNat
    let write := exec (.hostQueueEntryWrite pkg off n entry) s
    let cq := off / 8
    let cseq : BitVec 32 := w.setWidth 32
    let cancel := exec (.hostCancelWrite pkg off n w) s
    let cform := n = 8 ∧ 8 ∣ off ∧ cq < 16384 ∧ qMode (qDesc s pkg cq) = 0 ∧ w.toNat < 2 ^ 32
    let b := (s.pkg pkg).bridge.bootState
    let same := fun (s' : State) => s'.dram = s.dram ∧ s'.net = s.net ∧ (s'.pkg pkg).queues = (s.pkg pkg).queues ∧
      (s'.pkg pkg).lapse = (s.pkg pkg).lapse
    let good := s.modPkg pkg fun p => { p with kblFails := 0 }
    (n = 64 → 64 ∣ off → q < 16384 → qMode d = 0 → ahead < qEntries d → write = .next ((physWrite good (qRing d + 64 * (seq.toNat % qEntries d))
      (leBytes 64 entry.toNat)).modQueue pkg q fun x => { x with waiting := x.waiting.filter (·.1 != seq) ++ [(seq, (s.pkg pkg).hostWrites)] })) ∧
    ((n ≠ 64 ∨ ¬ 64 ∣ off ∨ 16384 ≤ q ∨ qMode d ≠ 0 ∨ qEntries d ≤ ahead) → ∃ s', write = .next s' ∧ same s') ∧
    (∀ h e, cform → (s.queue pkg cq).admitted.find? (·.1 == cseq) = some (cseq, h) → s.lapse? pkg h = some e → e.kind = .request → e.ref ≠ 0 →
      (e.l = false → e.queue = cq → e.seq = cseq → (∀ x ∈ (s.pkg pkg).lapse, x.2.kind ≠ .union) → e.exports = [] → e.overflow = false →
        ∃ s', cancel = .next s' ∧ s'.lapse? pkg h = some { e with l := true, c := true }) ∧
      ((e.l = true ∨ e.queue ≠ cq ∨ e.seq ≠ cseq) → cancel = .next good)) ∧
    (cform → (s.queue pkg cq).admitted.find? (·.1 == cseq) = none →
      ((cseq - (s.queue pkg cq).next).toNat < qEntries (qDesc s pkg cq) → cancel =
        .next (good.modQueue pkg cq fun x => { x with cancels := addOnce cseq x.cancels })) ∧
      (qEntries (qDesc s pkg cq) ≤ (cseq - (s.queue pkg cq).next).toNat → slotKept (qDesc s pkg cq) (s.queue pkg cq)
        ((s.pkg pkg).hostRecs.filter (·.queue == cq)).length cseq = true → cancel = .next good) ∧
      (qEntries (qDesc s pkg cq) ≤ (cseq - (s.queue pkg cq).next).toNat → ∃ s', cancel = .next s' ∧ same s')) ∧
    (¬ cform → ∃ s', cancel = .next s' ∧ same s') ∧
    (0x400000 ≤ off → off + n ≤ 0x800000 → exec (.hostDataWrite pkg off n data) s = .next (if b = 1 ∨ b = 4 then
      good.modPkg pkg fun p => { p with staging := mputs (off - 0x400000) (leBytes n data) p.staging } else good)) ∧
    (∀ e o, apertureOf s pkg off n = .spad e o → 0 < n → o % 256 + n ≤ 256 → ∃ s' p, exec (.hostDataWrite pkg off n data) s = .next s' ∧
      s'.net = s.net ++ [p] ∧ p.src = hostGwEp pkg ∧ p.dst = e ∧ p.vc = 1 ∧ p.carry = ⟨-1, 0, pkg⟩ ∧
      (s'.pkg pkg).hostWrites = (s.pkg pkg).hostWrites + 1 ∧
      p.body = .pieceWrite 0 ⟨e, o, none, false, true, 0, none, false⟩ (some (leBytes n data)) n [] (hostGwEp pkg)) ∧
    (apertureOf s pkg off n = .none → ∃ s', exec (.hostDataWrite pkg off n data) s = .next s' ∧ same s' ∧ s'.cores = s.cores)

/-- R137, R189, R464, R466: a host read of a scratchpad gives its bytes, and waits behind writes on their way to it; an unmapped read gives all
ones. What cannot be read is a free value (log 46). -/
def Sys2Proof.HostReads : Prop :=
  ∀ (s : State) (pkg off n o : Nat) (e : EP), hostReaches s pkg = true →
    let i := Instr.hostDataRead pkg off n
    let gives := fun (v : Nat) => ∃ s', exec i s = .next s' ∧ (s'.pkg pkg).hostValue = v ∧ s'.cores = s.cores ∧ s'.dram = s.dram
    (apertureOf s pkg off n = .spad e o →
      (hostWriteTo s pkg e = false → anySealed s e o n = false → queued s e o n = false → closedAt s e = false → (s.core e).upsets = [] →
        anyOchre s e o n = false → gives (mread (s.core e).spad o n)) ∧
      (hostWriteTo s pkg e = true ∨ anySealed s e o n = true ∨ queued s e o n = true → exec i s = .next s)) ∧
    (apertureOf s pkg off n = .none → gives (2 ^ (8 * n) - 1))

/-- R206, R263, R270, R467: ENTRY_ADMISSION reads the next entry of a queue and gives it a handle, whose lapse-table entry holds its instant, context, queue
and SEQ with one reference; a cancelled or lapsed one completes without one. HELD_RECORD_RETRY writes a held record into a slot that the
host has released, and notes one that has been held for 1 ms. Which free handle is taken (log 5), and that the entry is read in the unit's own
step (log 82), are the model's choices. -/
def Sys2Proof.EntriesAdmitted : Prop :=
  ∀ (s : State) (pkg q : Nat) (r : HostRec),
    let d := qDesc s pkg q
    let x := s.queue pkg q
    let s1 := unitRead s (qRing d + 64 * (x.next.toNat % qEntries d)) 64
    let e := ringEntry s1 pkg q x.next.toNat
    let inst : Instant := e.extractLsb' 64 48
    let i := Instr.entryAdmission pkg q
    let h := (s.pkg pkg).fresh
    let handle : Handle := BitVec.ofNat 16 h
    let bare := ∃ s', exec i s = .next s' ∧ (s'.queue pkg q).next = x.next + 1 ∧ (s'.queue pkg q).records = x.records + 1 ∧
      (s'.queue pkg q).ready = x.ready ∧ (s'.pkg pkg).lapse = (s.pkg pkg).lapse ∧ (s'.pkg pkg).fresh = h
    (admissible s pkg q = false → exec i s = .next s) ∧
    (admissible s pkg q = true → x.next ∈ x.cancels → bare) ∧
    (admissible s pkg q = true → lapsedAt (s.pkgNow pkg) inst = true → bare) ∧
    (admissible s pkg q = true → x.next ∉ x.cancels → lapsedAt (s.pkgNow pkg) inst = false → (s.pkg pkg).handleWait = [] → h < 65536 →
      ∃ s' l, exec i s = .next s' ∧ (s'.queue pkg q).next = x.next + 1 ∧ (s'.pkg pkg).fresh = h + 1 ∧ s'.lapse? pkg h = some l ∧
        l.kind = .request ∧ l.l = false ∧ l.c = false ∧ l.inst = inst ∧ l.ref = 1 ∧ l.ctx = qCtx d ∧ l.queue = q ∧ l.seq = x.next ∧
        (s'.queue pkg q).admitted = x.admitted ++ [(x.next, h)] ∧
        (s'.queue pkg q).ready = x.ready ++ [(e, (s.pkgNow pkg).toNat, ⟨inst, handle, pkg⟩)] ∧
        ∀ y, y ≠ h → s'.lapse? pkg y = s.lapse? pkg y) ∧
    (admissible s pkg q = true → x.next ∉ x.cancels → lapsedAt (s.pkgNow pkg) inst = false → (s.pkg pkg).handleWait = [] → 65536 ≤ h →
      (s.pkg pkg).freed = [] → exec i s = .next (s1.modPkg pkg fun p => { p with handleWait := [q] })) ∧
    ((s.pkg pkg).hostRecs = [r] → r.queue = q → recordSlotFree s pkg q r.idx = true → ∃ s', exec (.heldRecordRetry pkg q) s = .next s' ∧
      (s'.pkg pkg).hostRecs = [] ∧ s'.host = mwrite s.host (recordAddr s pkg q r.idx) 32 r.data.toNat) ∧
    ((s.pkg pkg).hostRecs = [r] → r.queue = q → recordSlotFree s pkg q r.idx = false →
      (r.logged = true ∨ (s.pkgNow pkg).toNat < r.since + 1000000) → exec (.heldRecordRetry pkg q) s = .next s) ∧
    ((s.pkg pkg).hostRecs = [r] → r.queue = q → recordSlotFree s pkg q r.idx = false → r.logged = false → r.since + 1000000 ≤ (s.pkgNow pkg).toNat →
      ∃ s', exec (.heldRecordRetry pkg q) s = .next s' ∧ (s'.pkg pkg).hostRecs = [{ r with logged := true }] ∧ s'.host = s.host)

/-- R249 to R252, R264, R265, R270: the head of the queue that is served next leaves it. It is discarded where it has lapsed; its launch header
is read unless the queue's last one had the same address; with a usable header it joins the dispenser of its group's cluster, with its
group number; one whose header cannot be read completes FAILED and frees its handle. That a header is met and read in the unit's own step, where no
line of the walk or of the header is busy (log 82), and that an empty MASK leaves a header usable (log 83), are the model's choices. -/
def Sys2Proof.EntriesDispatched : Prop :=
  ∀ (s : State) (pkg k q at_ cl : Nat) (p : DispPkt) (lh : Word) (h : BitVec 512),
    let served := dropHead (s.modPkg pkg fun x => { x with rr := q }) pkg q
    let i := Instr.dispatchEntry pkg
    let usable := fun (s : State) => headerOk h = true ∧ couldHold s pkg (qDesc s pkg p.queue) (h.toNat / 2 ^ 64 % 2 ^ 11) = true
    let g := (p.pkt.getD 1 0).toNat / 2 ^ widBound h (h.toNat / 2 ^ 45 % 2 ^ 3)
    let joins := fun (i : Instr) (from_ : State) => ∃ s' x, exec i s = .next s' ∧ (s'.cluster (pkg * 256 + cl)).packets =
      (from_.cluster (pkg * 256 + cl)).packets ++ [x] ∧ x.grp = g ∧ x.hdr = h ∧ x.ctx = p.ctx ∧ x.carry = p.carry ∧ x.pri = p.pri ∧
      x.pkt.drop 1 = p.pkt.drop 1
    (nextQueue s pkg = none → exec i s = .next s) ∧
    (nextQueue s pkg = some q → headOf s pkg q = some (p, lh, at_) → expired s (pkg * 2 ^ 14) p.carry = false →
      ((∀ y, (s.queue pkg q).header ≠ some (lh, y)) → exec i s = .next (served.modPkg pkg fun x => { x with
        headerReads := x.headerReads ++ [(q, { p with hdr := lh.setWidth 512 })] })) ∧
      ((s.queue pkg q).header = some (lh, h) → usable served → g < 65536 → g < ctxVclen served pkg p.ctx →
        (∃ new, routeOf served pkg (qDesc served pkg p.queue) p.ctx g = some (cl, new)) → p.pkt ≠ [] → joins i served)) ∧
    (nextQueue s pkg = some q → headOf s pkg q = some (p, lh, at_) → expired s (pkg * 2 ^ 14) p.carry = true → exec i s =
      .next (refDec (served.report pkg p.carry.hnd.toNat 1 0 0) pkg p.carry.hnd.toNat)) ∧
    ((s.pkg pkg).headerReads[k]? = some (q, p) →
      let a : Word := p.hdr.setWidth 64
      let kept := ∃ y, (s.queue pkg q).header = some (a, y)
      let busy := walkBusy s pkg p.ctx (a.toNat % 2 ^ 56) 64
      let s1 := meetHeader s pkg p.ctx (p.hdr.setWidth 64)
      (¬ kept → busy = true → exec (.launchHeaderRead pkg k) s = .next s) ∧
      (¬ kept → busy = false → readHeader s1 pkg p.ctx (p.hdr.setWidth 64) = none → p.entry = true → ∃ s', exec (.launchHeaderRead pkg k) s = .next s' ∧
        (s'.pkg pkg).headerReads = dropAt k (s.pkg pkg).headerReads ∧ s'.lapse? pkg p.carry.hnd.toNat = none ∧
        (s'.queue pkg p.queue).records = (s.queue pkg p.queue).records + 1) ∧
      (let from_ := s.modPkg pkg fun x => { x with headerReads := dropAt k x.headerReads };
        (s.queue pkg q).header = some (a, h) → usable from_ → g < 65536 → g < ctxVclen from_ pkg p.ctx →
        (∃ new, routeOf from_ pkg (qDesc from_ pkg p.queue) p.ctx g = some (cl, new)) → p.pkt ≠ [] → joins (.launchHeaderRead pkg k) from_) ∧
      (¬ kept → busy = false → readHeader s1 pkg p.ctx (p.hdr.setWidth 64) = some h →
        let from_ := (s1.modQueue pkg q fun x => { x with header := some (p.hdr.setWidth 64, h) }).modPkg pkg fun x =>
          { x with headerReads := dropAt k x.headerReads }
        usable from_ → g < 65536 → g < ctxVclen from_ pkg p.ctx →
        (∃ new, routeOf from_ pkg (qDesc from_ pkg p.queue) p.ctx g = some (cl, new)) → p.pkt ≠ [] → joins (.launchHeaderRead pkg k) from_))

/-- R253, R255, R266, R267, R269, R272, R275: the dispenser's first packet goes to a thread of its group that waits in WFW, in g[d] and the seven
after it; or its group is placed and its first thread begins at the packet's PC; or it is discarded after its lapse, or passed over. A frame
whose condition holds goes on in a waiting thread of its group, with the registers it marks; while one of its words is sealed it waits. The registers of a thread that waits after YIELD are the model's
choice (log 16). -/
def Sys2Proof.PacketsDispensed : Prop :=
  ∀ (s : State) (pkg cl k slot base spad : Nat) (p : DispPkt) (rest : List DispPkt) (e : EP) (t : Thread) (q : Park) (d : Reg)
      (tiles : List Nat) (wrote : Bool) (f : Frame),
    let key := pkg * 256 + cl
    let w := fun (i : Nat) => (p.pkt.getD i 0)
    let i := Instr.dispenserExamine pkg cl 0
    let from_ := match vcOf s pkg f.ctx f.vcore with
      | some (_, b, _) => b
      | none => t.sr.lbase.toNat
    let frame := fun (j : Nat) => mread (s.core f.ep).spad (from_ * 1024 + f.addr + 8 * j) 8
    let mask := frame 1 / 2 ^ 32
    (examOrder (s.cluster key).packets = p :: rest →
      (examine s pkg cl [] p = .into e slot → s.thr? e slot = some t → t.park = some q → q.why = .work d false false → t.pair = none →
        p.pkt.length = 8 → ∃ s' t', exec i s = .next s' ∧ (s'.cluster key).packets = (s.cluster key).packets.erase p ∧
          s'.thr? e slot = some t' ∧ t'.park = none ∧ t'.pc = q.next ∧ t'.sr.wid = w 1 ∧ t'.sr.inst = (w 2).extractLsb' 16 48 ∧
          t'.sr.hnd = (w 2).setWidth 16 ∧ t'.sr.pri.toNat = (w 0).toNat / 2 ^ 32 % 8 ∧
          t'.regs = (((p.pkt.zipIdx.foldl (fun (t : Thread) (x, i) => t.putG (d + BitVec.ofNat 5 i) x) t)).p7 true).regs) ∧
      (examine s pkg cl [] p = .place e base spad [slot] tiles wrote → p.hdr.toNat / 2 ^ 91 % 2 = 0 → wrote = false → (s.core? e).isSome →
        ∃ s' t' g, exec i s = .next s' ∧ s'.thr? e slot = some t' ∧ t'.park = none ∧ t'.pc.toNat = (w 0).toNat % 2 ^ 32 ∧ t'.ctx = p.ctx ∧
          t'.vcore = p.grp ∧ t'.vthr = 0 ∧ t'.sr.wid = w 1 ∧ g ∈ (s'.core e).groups ∧ g.ctx = p.ctx ∧ g.vcore = p.grp ∧ g.base = base ∧
          g.spad = spad ∧ g.slots = [slot] ∧ g.tiles = tiles) ∧
      (examine s pkg cl [] p = .discard → groupHome s pkg p.ctx p.grp = none → ∃ s', exec i s = .next s' ∧
        (s'.cluster key).packets = (s.cluster key).packets.erase p ∧
        (p.carry.hnd ≠ 0 → ∃ l, s'.ctl = s.ctl ++ .drop pkg p.carry.hnd.toNat 1 0 0 :: l)) ∧
      (examine s pkg cl [] p = .pass → exec i s = .next s)) ∧
    ((s.cluster key).frames[k]? = some f →
      (f.ready = false → exec (.frameReentry pkg cl k) s = .next s) ∧
      (expired s f.ep f.carry = false → (waiters s key).find? (fun (_, _, t) => t.ctx == f.ctx && t.vcore == f.vcore) = some (f.ep, slot, t) →
        frameSealed s f.ep f = true → exec (.frameReentry pkg cl k) s = .next s) ∧
      (f.ready = true → expired s f.ep f.carry = false → (waiters s key).find? (fun (_, _, t) => t.ctx == f.ctx && t.vcore == f.vcore) =
          some (f.ep, slot, t) → s.thr? f.ep slot = some t → frameSealed s f.ep f = false → epPkg f.ep = pkg → ∃ s' t',
        exec (.frameReentry pkg cl k) s = .next s' ∧ (s'.cluster key).frames = dropAt k (s.cluster key).frames ∧
        s'.thr? f.ep slot = some t' ∧ t'.park = none ∧ t'.pc.toNat = frame 0 % 2 ^ 32 ∧ t'.sr.inst = f.carry.inst ∧ t'.sr.hnd = f.carry.hnd ∧
        t'.sr.wid.toNat = frame 2 ∧ t'.sr.pri.toNat = frame 1 % 8 ∧
        ∀ r : Reg, r ≠ 0 → mask.testBit r.toNat = true →
          (gr t' r).toNat = frame (8 + (List.range r.toNat).countP fun j => mask.testBit j)))

/-- R249 to R275, R461 to R468: the host's accesses, and the way of a request to a thread. -/
def Obligations.HostAndDispatchEvents : Prop := HostWrites ∧ HostReads ∧ EntriesAdmitted ∧ EntriesDispatched ∧ PacketsDispensed

/-- A live handle lapses (R203, R205): L is set, C for a CANCEL, and a broadcast is on its way to the replica of every die. -/
def Sys2Proof.Lapses (s s' : State) (pkg h : Nat) (e : Lapse) (cancel : Bool) : Prop :=
  s'.lapse? pkg h = some { e with l := true, c := cancel } ∧ (s'.pkg pkg).bseq = (s.pkg pkg).bseq + 1 ∧
  (∀ d < 8, (s'.die (pkg * 8 + d)).replica.coming = (s.die (pkg * 8 + d)).replica.coming ++ [((s.pkg pkg).bseq, .lapse h)]) ∧
  ∀ x, x ≠ h → s'.lapse? pkg x = s.lapse? pkg x

/-- R203, R205, R206, R219, R222, R270: INSTANT_LAPSE lapses a live handle whose instant has passed on die 0. A replica applies its broadcasts in
their sequence. After the settle interval a request's record is sent, with status ANNULLED, CANCELLED or FAULT as its entry
says, and the handle is free; a queue that waits for one has its admission next. -/
def Sys2Proof.InstantUnit : Prop :=
  ∀ (s : State) (pkg h die k n q : Nat) (e : Lapse) (at_ : Nat) (inst : Instant) (ep : EP) (t : Thread) (seq : BitVec 16),
    let r := (s.die (pkg * 8 + die)).replica
    let noUnions := ∀ x ∈ (s.pkg pkg).lapse, x.2.kind ≠ .union
    let applied := fun (s' : State) => (s'.die (pkg * 8 + die)).replica.next = r.next + 1 ∧
      (s'.die (pkg * 8 + die)).replica.coming = dropAt k r.coming
    let apply := Instr.lapseBroadcastApply pkg die k
    (s.lapse? pkg h = some e → e.l = false → e.settle = none →
      (lapsedAt (s.pkgNow pkg) e.inst = true → noUnions → ∃ s', exec (.instantLapse pkg h) s = .next s' ∧ Lapses s s' pkg h e false ∧
        s'.ctl = s.ctl ∧ s'.net = s.net) ∧
      (lapsedAt (s.pkgNow pkg) e.inst = false → exec (.instantLapse pkg h) s = .next s)) ∧
    ((s.lapse? pkg h = none ∨ s.lapse? pkg h = some e ∧ e.l = true) → exec (.instantLapse pkg h) s = .next s) ∧
    (∀ c, r.coming[k]? = some (seq, c) → seq ≠ r.next → exec apply s = .next s) ∧
    (r.coming[k]? = some (r.next, .lapse h) → (s.pkg pkg).iureqs = [] → (∀ x ∈ s.clusters, x.2.tcc = []) → (s.pkg pkg).spilled = [] →
      ∃ s', exec apply s = .next s' ∧ applied s' ∧ h ∈ (s'.die (pkg * 8 + die)).replica.lapsed ∧
        (∀ x, x ∈ (s'.die (pkg * 8 + die)).replica.lapsed ↔ x = h ∨ x ∈ r.lapsed) ∧ s'.cores = s.cores) ∧
    (r.coming[k]? = some (r.next, .inst h inst) → (s.pkg pkg).iureqs = [] → dieKey ep = pkg * 8 + die → s.thr? ep n = some t →
      ∃ s', exec apply s = .next s' ∧ applied s' ∧
        s'.thr? ep n = some (if t.sr.hnd.toNat = h then { t with sr := { t.sr with inst := inst } } else t)) ∧
    (s.lapse? pkg h = some e → e.settle = some at_ → e.kind = .request → e.ref = 0 →
      ((s.pkgNow pkg).toNat < at_ → exec (.settleExpiry pkg h) s = .next s) ∧
      (at_ ≤ (s.pkgNow pkg).toNat → (s.pkg pkg).handleWait = [q] → ∃ s', exec (.settleExpiry pkg h) s = .next s' ∧ s'.lapse? pkg h = none ∧
        s'.agenda = ⟨0, .entryAdmission pkg q⟩ :: s.agenda) ∧
      (at_ ≤ (s.pkgNow pkg).toNat → (s.pkg pkg).handleWait = [] → (s.pkg pkg).hostRecs = [] → recordSlotFree s pkg e.queue (s.queue pkg e.queue).records = false →
        (s.pkg pkg).kblUp = true →
        ∃ s' x, exec (.settleExpiry pkg h) s = .next s' ∧ s'.lapse? pkg h = none ∧ (s'.pkg pkg).freed = (s.pkg pkg).freed ++ [h] ∧
          (s'.pkg pkg).hostRecs = [x] ∧ x.queue = e.queue ∧ x.idx = (s.queue pkg e.queue).records ∧
          x.data.extractLsb' 0 32 = e.seq ∧ (x.data.toNat / 2 ^ 32) % 2 ^ 16 = h % 2 ^ 16 ∧
          x.data.toNat / 2 ^ 48 % 8 = (if e.fault = true then 2 else if e.l = true ∧ e.c = true then 3 else if e.l = true then 1 else 0) ∧
          x.data.toNat / 2 ^ 64 % 2 ^ 32 = e.tasks.toNat % 2 ^ 32 ∧ x.data.toNat / 2 ^ 96 % 2 ^ 32 = e.msgs.toNat % 2 ^ 32 ∧
          x.data.toNat / 2 ^ 128 % 2 ^ 32 = e.stores.toNat % 2 ^ 32 ∧ x.data.toNat / 2 ^ 192 = (s.pkgNow pkg).toNat))

/-- R207, R209, R211, R218, R224: what the packages tell each other. Reports are counted at the handle, or at the package where it is free; an
export notice lists the third package with a reference and is acknowledged, when the proxy's own ends; a proxy's report brings its counters
and ends the listed reference; a request with no reference left begins its settle interval, and has lapsed where its instant has passed by then;
a cancellation and a union's new instant reach the proxy and every replica of its package, and a union there of which it is the only live member
takes that instant. That a request settles no more once it has a reference again is the model's choice (log 65). -/
def Sys2Proof.PackagesTell : Prop :=
  ∀ (s : State) (k pkg h frm third proxy a b c opkg : Nat) (e : Lapse) (inst : Instant) (fault : Bool),
    let m := s.ctl[k]?
    let rest := dropAt k s.ctl
    let took := { s with ctl := rest }
    let counts := fun (e : Lapse) => { e with tasks := satAdd e.tasks a, msgs := satAdd e.msgs b, stores := satAdd e.stores c }
    let entry := s.lapse? pkg h = some e
    (m = some (.drop pkg h a b c) →
      (entry → exec (.dropReport k) s = .next (took.modLapse pkg h counts)) ∧
      (s.lapse? pkg h = none → exec (.dropReport k) s = .next (took.modBridge pkg fun x => { x with
        ptasks := satAdd64 x.ptasks a, pmsgs := satAdd64 x.pmsgs b, pstores := satAdd64 x.pstores c }))) ∧
    (m = some (.dropAt frm pkg h a b c) → (proxyOf s frm pkg (BitVec.ofNat 16 h)).isSome = true → entry →
      exec (.dropReport k) s = .next (took.modLapse pkg h counts)) ∧
    (m = some (.dropAt frm pkg h a b c) → proxyOf s frm pkg (BitVec.ofNat 16 h) = none → entry → h ≠ 0 → e.kind = .request → frm ∈ e.exports → 1 < e.ref →
      ∃ s', exec (.dropReport k) s = .next s' ∧ s'.ctl = rest ∧ s'.lapse? pkg h = some { counts e with
        exports := e.exports.filter (· != frm), ref := e.ref - 1 }) ∧
    (m = some (.exportNotice frm pkg h third proxy) → entry → third ∉ e.exports → e.exports.length < 8 → e.l = false →
      exec (.exportNotice k) s = .next { took.modLapse pkg h fun e => { e with exports := e.exports ++ [third], ref := e.ref + 1, settle := none } with
        ctl := rest ++ [.noticeAck frm proxy] }) ∧
    (m = some (.noticeAck pkg h) → entry → h ≠ 0 → 1 < e.ref → exec (.exportNoticeAck k) s =
      .next (took.modLapse pkg h fun e => { e with ref := e.ref - 1 })) ∧
    (m = some (.noticeAck pkg h) → entry → h ≠ 0 → e.ref ≤ 1 → e.kind = .proxy → ∃ s', exec (.exportNoticeAck k) s = .next s' ∧
      s'.lapse? pkg h = none ∧ (s'.pkg pkg).freed = (s.pkg pkg).freed ++ [h] ∧
      s'.ctl = (rest.filter fun m => match m with
        | .drop p x _ _ _ => !(p == pkg && x == h)
        | _ => true) ++ [.proxyReport pkg e.opkg e.ohnd.toNat (satAdd e.tasks (comingDrops took pkg h).1).toNat
          (satAdd e.msgs (comingDrops took pkg h).2.1).toNat (satAdd e.stores (comingDrops took pkg h).2.2).toNat e.fault]) ∧
    (m = some (.noticeAck pkg h) → entry → h ≠ 0 → e.ref ≤ 1 → e.kind = .request → ∃ s', exec (.exportNoticeAck k) s = .next s' ∧
      s'.lapse? pkg h = some { e with
        ref := 0, l := e.l || lapsedAt (s.pkgNow pkg) e.inst, settle := some ((s.pkgNow pkg).toNat + (s.pkg pkg).bridge.settle.toNat * 1000) }) ∧
    (m = some (.proxyReport frm pkg h a b c fault) → entry → h ≠ 0 → e.kind = .request → frm ∈ e.exports → 1 < e.ref →
      ∃ s', exec (.proxyReport k) s = .next s' ∧ s'.ctl = rest ∧ s'.lapse? pkg h = some { counts e with
        fault := e.fault || fault, exports := e.exports.filter (· != frm), ref := e.ref - 1 }) ∧
    (m = some (.proxyReport frm pkg h a b c false) → s.lapse? pkg h = none → exec (.proxyReport k) s =
      .next (took.modBridge pkg fun x => { x with
        ptasks := satAdd64 x.ptasks a, pmsgs := satAdd64 x.pmsgs b, pstores := satAdd64 x.pstores c })) ∧
    (m = some (.cancel pkg opkg proxy) → proxyOf s pkg opkg (BitVec.ofNat 16 proxy) = some h → entry → e.l = false →
      (∀ x ∈ (s.pkg pkg).lapse, x.2.kind ≠ .union) →
      ∃ s', exec (.cancelPropagation k) s = .next s' ∧ Lapses s s' pkg h e true ∧ s'.ctl = rest) ∧
    (m = some (.cancel pkg opkg proxy) → proxyOf s pkg opkg (BitVec.ofNat 16 proxy) = none →
      exec (.cancelPropagation k) s = .next took) ∧
    (m = some (.cancelOrigin pkg h) → entry → e.l = false → e.settle = none → e.kind = .request → e.overflow = false →
      (∀ x ∈ (s.pkg pkg).lapse, x.2.kind ≠ .union) → ∃ s', exec (.cancelPropagation k) s = .next s' ∧ Lapses s s' pkg h e true ∧
        s'.ctl = rest ++ e.exports.map fun p => .cancel p pkg h) ∧
    (∀ u x, m = some (.unionChange pkg opkg proxy inst false) → proxyOf s pkg opkg (BitVec.ofNat 16 proxy) = some h → entry → u ≠ h →
      (s.pkg pkg).lapse.filter (·.2.kind == .union) = [(u, x)] → s.lapse? pkg u = some x → x.members = [(h, true)] →
      ∃ s', exec (.unionChangePropagation k) s = .next s' ∧ s'.lapse? pkg u = some { x with inst := inst }) ∧
    (m = some (.unionChange pkg opkg proxy inst false) → proxyOf s pkg opkg (BitVec.ofNat 16 proxy) = some h → entry →
      (∀ x ∈ (s.pkg pkg).lapse, x.2.kind ≠ .union) →
      ∃ s', exec (.unionChangePropagation k) s = .next s' ∧ s'.lapse? pkg h = some { e with inst := inst } ∧ s'.ctl = rest ∧
        ∀ d < 8, (s'.die (pkg * 8 + d)).replica.coming = (s.die (pkg * 8 + d)).replica.coming ++ [((s.pkg pkg).bseq, .inst h inst)]) ∧
    (m = some (.unionChange pkg opkg proxy inst fault) → proxyOf s pkg opkg (BitVec.ofNat 16 proxy) = none →
      exec (.unionChangePropagation k) s = .next took)

/-- R205, R210, R214, R433, R435, R436: the instant unit answers its oldest request. CANCEL lapses a live handle, p7 = 1, and another leaves p7 = 0;
ADOPT moves the thread's reference to the target, whose handle and instant it holds then; UNION makes a union of a live member, with its
instant and a reference on it, and broadcasts it. That the union takes a handle never used before (log 5), and that a handle in its settle interval
can still be adopted or joined and settles no more (log 65), are the model's choices. -/
def Sys2Proof.UnitAnswers : Prop :=
  ∀ (s : State) (pkg h slot : Nat) (req : Req) (t : Thread) (p : Park) (e old : Lapse) (d : Reg),
    let i := Instr.instantUnitRequest pkg
    let answered := fun (s' : State) (ok : Bool) (f : Thread → Thread) => ∃ t', s'.thr? req.ep slot = some t' ∧ t'.park = none ∧ t'.pc = p.next ∧
      t'.regs = (t.p7 ok).regs ∧ t'.sr = (f t).sr
    let live := s.lapse? pkg h = some e ∧ e.l = false
    locate s req.ep req.uid = .slot slot → s.thr? req.ep slot = some t → t.park = some p → req.entry = 16 + 32 * p.ser → p.why = .answer →
    t.origin = none → epPkg req.ep = pkg →
    ((s.pkg pkg).iureqs = [] → exec i s = .next s) ∧
    ((s.pkg pkg).iureqs = [.cancel req h] →
      (live → e.settle = none → (∀ x ∈ (s.pkg pkg).lapse, x.2.kind ≠ .union) → ∃ s', exec i s = .next s' ∧ (s'.pkg pkg).iureqs = [] ∧
        Lapses s s' pkg h e true ∧ answered s' true id) ∧
      ((∀ e, s.lapse? pkg h = some e → e.l = true ∨ e.settle ≠ none) → ∃ s', exec i s = .next s' ∧ (s'.pkg pkg).iureqs = [] ∧
        (s'.pkg pkg).lapse = (s.pkg pkg).lapse ∧ answered s' false id)) ∧
    ((s.pkg pkg).iureqs = [.adopt req h] → t.provisional = none →
      (live → h ≠ 0 → h < 65536 → t.sr.hnd.toNat ≠ h → t.sr.hnd ≠ 0 → s.lapse? pkg t.sr.hnd.toNat = some old → 1 < old.ref →
        ∃ s', exec i s = .next s' ∧ (s'.pkg pkg).iureqs = [] ∧ s'.lapse? pkg h = some { e with ref := e.ref + 1, settle := none } ∧
          s'.lapse? pkg t.sr.hnd.toNat = some { old with ref := old.ref - 1 } ∧
          answered s' true fun t => { t with sr := { t.sr with inst := e.inst, hnd := BitVec.ofNat 16 h } }) ∧
      ((∀ e, s.lapse? pkg h = some e → e.l = true) → h ≠ 0 → ∃ s', exec i s = .next s' ∧ (s'.pkg pkg).iureqs = [] ∧
        (s'.pkg pkg).lapse = (s.pkg pkg).lapse ∧ answered s' false id)) ∧
    ((s.pkg pkg).iureqs = [.union req t.ctx [h] d] → (s.pkg pkg).fresh < 65536 → (s.pkg pkg).handleWait = [] → (s.pkg pkg).fresh ≠ h →
      let u := (s.pkg pkg).fresh
      (live → h ≠ 0 → (∀ x ∈ (s.pkg pkg).lapse, x.2.kind ≠ .union) → e.kind ≠ .union → ∃ s' x, exec i s = .next s' ∧
        (s'.pkg pkg).iureqs = [.unionMade req u d (s.pkg pkg).bseq] ∧ s'.lapse? pkg u = some x ∧ x.kind = .union ∧ x.inst = e.inst ∧
        x.ref = 1 ∧ x.members = [(h, true)] ∧ x.ctx = t.ctx ∧ s'.lapse? pkg h = some { e with ref := e.ref + 1, settle := none } ∧
        (∀ n < 8, ((s.pkg pkg).bseq, Change.union u [(h, true)] e.inst) ∈ (s'.die (pkg * 8 + n)).replica.coming) ∧ s'.cores = s.cores) ∧
      (h = 0 ∨ s.lapse? pkg h = none → ∃ s', exec i s = .next s' ∧ (s'.pkg pkg).iureqs = [] ∧ answered s' false id))

/-- R201 to R224, R433 to R437: expiry at work. -/
def Obligations.ExpiryEvents : Prop := InstantUnit ∧ PackagesTell ∧ UnitAnswers

/-- R312 to R323: decode and encode agree. For every well-formed instruction, at every value of its fields, the decoder reads back from the
words of its encoding, laid out as a line of one head, that instruction; a FILL reads as the COPY whose words it has, since which of the
two a PUSH of engine 0 is stands in its command (R326, R419). -/
def Obligations.DecodeEncodeAgree : Prop :=
  ∀ i : Instr, i.wf = true → decodeAt (oneHeadLine (encode i).1 (encode i).2) 1 = .ok
    (match i with
      | .pushFill gd a => .pushCopy gd a false
      | i => i)

/-- R312, R313, R317, R319, R322, R323: words written out from the spec's encodings decode to the instructions they stand for. First the
spec's own line: ADDI, CMPI and BR with N = 3; with 0x1801 for its descriptor the line is ill-formed, with 0x4026 for its second head the TL
is wrong. Then an ADD guarded by p3 = 0, LI, LD, FADD, MMA and TRAP, and an ADD with its bit s set. -/
def Obligations.DecodeSamples : Prop :=
  let line := fun (a b : Half) => [a, 0x4003, b, 0x4440] ++ List.replicate 21 (0 : Half) ++
    [0xF800, 0xFFFF, 0x1121, 0x0000, 0x0000, 0xFD29, 0xFFFF]
  let at_ := fun (a b : Nat) => a * 2 ^ b
  decodeAt (line 0x1800 0x6026) 1 = .ok (.addi ⟨0, false⟩ 9 9 (-1)) ∧
  decodeAt (line 0x1800 0x6026) 2 = .ok (.cmpi ⟨0, false⟩ 1 9 .gt 0) ∧
  decodeAt (line 0x1800 0x6026) 3 = .ok (.br ⟨1, false⟩ (-2)) ∧
  decodeAt (line 0x1801 0x6026) 1 = .error (.line 0x1801) ∧
  decodeAt (line 0x1800 0x4026) 2 = .error (.encoding 0x4026) ∧
  -- TL at bit 13, PG at bit 10, PN at bit 9; layout A: b at bit 10, a at bit 5, d at bit 0
  decodeHead (0x001 + at_ 1 9 + at_ 3 10 + at_ 1 13) (5 + at_ 6 5 + at_ 7 10) = .ok (.add ⟨3, true⟩ 5 6 7) ∧
  decodeHead (0x001 + at_ 1 13) (at_ 1 15) = .error (.encoding 0x2001) ∧
  -- layout E: imm48 at bit 16
  decodeHead (0x022 + at_ 4 13) (2 + at_ 0x123456789ABC 16) = .ok (.li ⟨0, false⟩ 2 0x123456789ABC) ∧
  -- layout D: imm32 at bit 16; b of LD is 2 for four bytes and 4 for the sign
  decodeHead (0x080 + at_ 3 13) (4 + at_ 3 5 + at_ 6 10 + at_ 16 16) = .ok (.ld ⟨0, false⟩ 4 3 2 true 16) ∧
  -- layout C: f at bit 20, c at bit 15; f[3:0] type 11 (.df), f[6:4] rounding
  decodeHead (0x100 + at_ 2 13) (1 + at_ 2 5 + at_ 3 10 + at_ 11 20 + at_ 1 24) = .ok (.fadd ⟨0, false⟩ 1 2 3 .df .rz) ∧
  decodeHead (0x183 + at_ 2 13) (at_ 1 5 + at_ 2 10 + at_ 3 15 + at_ 1 20 + at_ 5 22) = .ok (.mma ⟨0, false⟩ 1 2 3 true false 5) ∧
  -- layout B: imm22 at bit 10
  decodeHead (0x1C0 + at_ 2 13) (at_ 0x155 10) = .ok (.trap ⟨0, false⟩ 0x155)

/-- R72, R312 to R319, R332: a step runs the decoded instruction. Where a slot has the turn, its line has been fetched, the slot has the
instruction and the halfwords at its PC decode to i, the step is exec of i (FILL, where a PUSH of engine 0 names a command of KIND 4), in
the state in which the turn knows the next head and the head halfword, once what i uses of the tables in DRAM has been read there (R80, R470); where
such a read must wait behind what uses its line, the turn passes. A head that the slot lacks, or of no opcode, traps with cause 0x01,
a wrong encoding with cause 0x02. That a step has what it uses read before it, in the same step, is the model's choice (log 82). -/
def Sys2Proof.StepRunsDecoded : Prop :=
  ∀ (s s' : State) (u : Turn) (t : Thread) (l : Line),
    let h := t.pc.toNat / 2 % 32
    let base := t.pc.toNat / 64 * 64
    let op := fld (hw l h) 0 9
    let at_ := s'.modThr u.ep u.slot fun t => { t with fresh := false, line := some (t.pc.toNat / 64 * 64, l) }
    let u' := { u with next := if h < lineN l then t.pc + 2 else BitVec.ofNat 32 (base + 66), head := BitVec.ofNat 16 (hw l h) }
    let lack := lacks (kindOf u.ep) (isVisitor u.ep u.slot) t.pair.isSome op (tailOf l h)
    let m := { at_ with turn := some u' }
    let runs := fun (i : Instr) => (∀ x, readTables m (usesOfInstr m u' i) = some x → step s = exec i x) ∧
      (readTables m (usesOfInstr m u' i) = none → step s = .next m.noTurn)
    s.turn = some u → s.thr? u.ep u.slot = some t → fetchLine s u.ep t = (.ok l, s') →
      (∀ i, lack = false → decodeAt l h = .ok i → (∀ gd a, i ≠ .pushCopy gd a false) → runs i) ∧
      (∀ gd a, lack = false → decodeAt l h = .ok (.pushCopy gd a false) →
        runs (if (gr t a).toNat % 2 ^ 8 = 4 then .pushFill gd a else .pushCopy gd a false)) ∧
      (lack = true → step s = .next (at_.raise u' 0x01 0 op)) ∧
      (∀ o, lack = false → decodeAt l h = .error (.opcode o) → step s = .next (at_.raise u' 0x01 0 o)) ∧
      (∀ w, lack = false → decodeAt l h = .error (.encoding w) → step s = .next (at_.raise u' 0x02 0 w))

/-- R80, R470: what a step has read before it: with every entry that it uses held as a copy, and no map to look into, nothing is read; a read changes no
thread, no scratchpad, no packet under way and not the turn. That the copies are read so is the model's choice (logs 7 and 82). -/
def Sys2Proof.TablesAreRead : Prop :=
  ∀ (s : State) (x : Uses),
    ((∀ y ∈ x.entries, (tget (s.pkg y.1).copies (entryKey y.2.1 y.2.2)).isSome = true) → x.words = [] → readTables s x = some s) ∧
    ∀ s', readTables s x = some s' → (∀ e n, s'.thr? e n = s.thr? e n) ∧ (∀ e, (s'.core e).spad = (s.core e).spad) ∧ s'.net = s.net ∧
      s'.turn = s.turn ∧ s'.clusters = s.clusters ∧ s'.dies = s.dies

/-- R72, R73, R51, R314, R316: the line of the turn. A line that the slot has fetched is the one used; else it is the 64 bytes of the
scratchpad about the PC, which must lie below XB, have landed, hold no uncorrected error, and be well-formed, with a head at the PC where
control has just arrived; a check that fails traps, the state else as it was. -/
def Sys2Proof.LinesAreFetched : Prop :=
  ∀ (s : State) (u : Turn) (t : Thread),
    let pc := t.pc.toNat
    let l := lineOfBytes (mbytes (s.core u.ep).spad (pc / 64 * 64) 64)
    let below := pc < xbBytes (s.core u.ep)
    let there := (s.core u.ep).landed.getLsbD (pc / 4096) = true
    (t.fresh = false → ∀ k, t.line = some (pc / 64 * 64, k) → fetchLine s u.ep t = (.ok k, s)) ∧
    ((t.fresh = true ∨ t.line = none) → (s.core u.ep).upsets = [] →
      (below → there → anyOchre s u.ep (pc / 64 * 64) 64 = false → lineOk l = true → (t.fresh = true → isHead l pc = true) →
        fetchLine s u.ep t = (.ok l, s)) ∧
      (s.turn = some u → s.thr? u.ep u.slot = some t →
        (¬ below → step s = .next (s.raise u 0x05 (t.pc.setWidth 64) 0)) ∧
        (below → ¬ there → step s = .next (s.raise u 0x06 (t.pc.setWidth 64) (pc / 4096))) ∧
        (below → there → anyOchre s u.ep (pc / 64 * 64) 64 = true → step s = .next (s.raise u 0x14 (t.pc.setWidth 64) 0)) ∧
        (below → there → anyOchre s u.ep (pc / 64 * 64) 64 = false → t.fresh = true → isHead l pc = false →
          step s = .next (s.raise u 0x03 (t.pc.setWidth 64) 0)) ∧
        (below → there → anyOchre s u.ep (pc / 64 * 64) 64 = false → t.fresh = false → lineOk l = false →
          step s = .next (s.raise u 0x02 0 (hw l 0)))))

/-- Between turns the step does what stands first on the agenda, after its time has passed; an empty agenda begins a round, one nanosecond
later (the model's choice, log 2). An event does by itself what exec gives it, once what it uses of the tables in DRAM has been read; till then it
comes again (the model's choice, log 82). -/
def Sys2Proof.StepRunsAgenda : Prop :=
  ∀ s : State, s.turn = none →
    (∀ o rest, s.agenda = o :: rest → let m := { s with agenda := rest }.advance o.dt
      (∀ x, readTables m (usesOfEv m o.ev) = some x → step s = runEv o.ev x) ∧ (readTables m (usesOfEv m o.ev) = none → step s = .next m)) ∧
    (s.agenda = [] → step s = .next (startRound s)) ∧
    ∀ i ev, evOf i = some ev → runEv ev s = exec i s

/-- R72, R312 to R319: what a step of the domain is. -/
def Obligations.StepRunsDecodedInstruction : Prop := StepRunsDecoded ∧ TablesAreRead ∧ LinesAreFetched ∧ StepRunsAgenda

/-- R281 (checks 1 and 2), R318, R319, R485, R332: what an instruction in a turn meets before its own effect, here for ADD: a slot that lacks
it (R324) traps with cause 0x01; the guard form PG = 0 with PN = 1 traps with cause 0x02; under a pending XFENCE a guard on p7 waits; a
guard that fails lets the instruction complete with no effect. -/
def Sys2Proof.GuardsAndLacks : Prop :=
  ∀ (s : State) (u : Turn) (t : Thread) (gd : Guard) (d a b : Reg), s.turn = some u → s.thr? u.ep u.slot = some t →
    (gd.wf = false → exec (.add gd d a b) s = .next (s.raise u 0x02 0 u.head.toNat)) ∧
    (gd.wf = true → t.xf ≠ none → gd.pg = 7 → exec (.add gd d a b) s = .next (s.waitEver u .xfence)) ∧
    (gd.wf = true → (t.xf = none ∨ gd.pg ≠ 7) → passes t gd = false → exec (.add gd d a b) s = .next (s.retire u id)) ∧
    (kindOf u.ep = .memory → exec (.vmpop gd d 0 true) s = .next (s.raise u 0x01 0 (opOf (.vmpop gd d 0 true))))

/-- R332, R321, R117: the frame of an instruction that completes in its turn. Memory, the packets under way, every other core and
every other slot are as they were; of the core only this slot has changed, and of the thread, beside what the instruction writes, only what
moving to the next head changes: the PC, the end of a wait and the counts of R46 and R47. An instruction that writes one g register leaves
every other register, the special registers and the rest of the thread as they were; g0 discards the write. -/
def Sys2Proof.RetireFrame : Prop :=
  ∀ (i : Instr) (s s' : State) (u : Turn) (t : Thread) (f : Thread → Thread),
    s.thr? u.ep u.slot = some t → Retires i s u f → exec i s = .next s' →
      { s' with cores := s.cores, turn := s.turn } = s ∧ s'.turn = none ∧
      (∀ e, e ≠ u.ep → tget s'.cores e = tget s.cores e) ∧
      (∀ a, mget (s'.core u.ep).spad a = mget (s.core u.ep).spad a) ∧
      { s'.core u.ep with slots := (s.core u.ep).slots } = s.core u.ep ∧
      (∀ n, n ≠ u.slot → s'.thr? u.ep n = s.thr? u.ep n) ∧
      (∃ t', s'.thr? u.ep u.slot = some t' ∧ t'.pc = u.next ∧ t'.regs = (f t).regs ∧ t'.sr = (f t).sr ∧ t'.park = none ∧
        { t' with pc := (f t).pc, park := (f t).park, forfeits := (f t).forfeits, passes := (f t).passes, fresh := (f t).fresh,
                  line := (f t).line, sb := (f t).sb } = f t) ∧
      ∀ d v, f = (·.putG d v) → ∃ t', s'.thr? u.ep u.slot = some t' ∧
        (∀ r, gr t' r = if r = d ∧ d ≠ 0 then v else gr t r) ∧ t'.regs.p = t.regs.p ∧ t'.regs.v = t.regs.v ∧ t'.regs.vm = t.regs.vm ∧
        t'.sr = t.sr ∧ t'.sup = t.sup ∧ t'.cnt = t.cnt ∧ t'.inbox = t.inbox ∧ t'.region = t.region

/-- R318, R319, R321, R332: the guard and the frame of the instructions that complete in their turn. -/
def Obligations.IssueAndFrame : Prop := GuardsAndLacks ∧ RetireFrame

/-- R2: every memory of the machine is read and written little-endian: a read of n bytes after a write of n bytes there gives the low
8n bits written, every byte outside reads as before, and the canonical form is kept. -/
def Obligations.ReadAfterWrite : Prop :=
  ∀ (m : Memory) (a n v : Nat), Memory.wf m = true →
    mread (mwrite m a n v) a n = v % 2 ^ (8 * n) ∧ Memory.wf (mwrite m a n v) = true ∧
    (∀ k, k < a ∨ a + n ≤ k → mget (mwrite m a n v) k = mget m k) ∧
    ∀ k < n, (mget m (a + k)).toNat = mread m a n / 2 ^ (8 * k) % 2 ^ 8

/-- R474: the machine before any power: no package is powered, nothing is in any memory, no slot has a turn, and the invariant holds. -/
def Obligations.ResetState : Prop :=
  (∀ pkg, tget State.reset.pkgs pkg = none ∧ (State.reset.pkg pkg).bridge.bootState = 0) ∧ (∀ e, tget State.reset.cores e = none) ∧
  (∀ a, mget State.reset.dram a = 0 ∧ mget State.reset.host a = 0) ∧ State.reset.net = [] ∧ State.reset.turn = none ∧
  turnOk State.reset = true ∧ memOk State.reset = true

/-- Every step keeps the invariant: the turn under way belongs to a slot that holds a thread (R256), and every memory keeps its canonical
form. -/
def Obligations.StepKeepsInvariant : Prop :=
  ∀ s s' : State, turnOk s = true → memOk s = true → step s = .next s' → turnOk s' = true ∧ memOk s' = true

/-- No step stops: in a state whose turn belongs to a thread, the step answers a next state. -/
def Obligations.StepNeverStops : Prop := ∀ s : State, turnOk s = true → ∃ s', step s = .next s'
end

