-- ==== Sys2Proof/Laws/Exec.lean ====
section
/-! SUPPORT. What the dispatch does, arm by arm: each is true by rfl. -/

namespace Sys2Proof.Machine

theorem exec_nop (gd : Guard) (s : State) : exec (.nop gd) s = execNop gd s := rfl
theorem exec_add (gd : Guard) (d : Reg) (a : Reg) (b : Reg) (s : State) : exec (.add gd d a b) s = execAdd gd d a b s := rfl
theorem exec_sub (gd : Guard) (d : Reg) (a : Reg) (b : Reg) (s : State) : exec (.sub gd d a b) s = execSub gd d a b s := rfl
theorem exec_mul (gd : Guard) (d : Reg) (a : Reg) (b : Reg) (s : State) : exec (.mul gd d a b) s = execMul gd d a b s := rfl
theorem exec_mulh (gd : Guard) (d : Reg) (a : Reg) (b : Reg) (s : State) : exec (.mulh gd d a b) s = execMulh gd d a b s := rfl
theorem exec_mulhn (gd : Guard) (d : Reg) (a : Reg) (b : Reg) (s : State) : exec (.mulhn gd d a b) s = execMulhn gd d a b s := rfl
theorem exec_div (gd : Guard) (d : Reg) (a : Reg) (b : Reg) (s : State) : exec (.div gd d a b) s = execDiv gd d a b s := rfl
theorem exec_divn (gd : Guard) (d : Reg) (a : Reg) (b : Reg) (s : State) : exec (.divn gd d a b) s = execDivn gd d a b s := rfl
theorem exec_rem (gd : Guard) (d : Reg) (a : Reg) (b : Reg) (s : State) : exec (.rem gd d a b) s = execRem gd d a b s := rfl
theorem exec_remn (gd : Guard) (d : Reg) (a : Reg) (b : Reg) (s : State) : exec (.remn gd d a b) s = execRemn gd d a b s := rfl
theorem exec_and (gd : Guard) (d : Reg) (a : Reg) (b : Reg) (s : State) : exec (.and gd d a b) s = execAnd gd d a b s := rfl
theorem exec_or (gd : Guard) (d : Reg) (a : Reg) (b : Reg) (s : State) : exec (.or gd d a b) s = execOr gd d a b s := rfl
theorem exec_xor (gd : Guard) (d : Reg) (a : Reg) (b : Reg) (s : State) : exec (.xor gd d a b) s = execXor gd d a b s := rfl
theorem exec_andn (gd : Guard) (d : Reg) (a : Reg) (b : Reg) (s : State) : exec (.andn gd d a b) s = execAndn gd d a b s := rfl
theorem exec_shl (gd : Guard) (d : Reg) (a : Reg) (b : Reg) (s : State) : exec (.shl gd d a b) s = execShl gd d a b s := rfl
theorem exec_shr (gd : Guard) (d : Reg) (a : Reg) (b : Reg) (s : State) : exec (.shr gd d a b) s = execShr gd d a b s := rfl
theorem exec_sra (gd : Guard) (d : Reg) (a : Reg) (b : Reg) (s : State) : exec (.sra gd d a b) s = execSra gd d a b s := rfl
theorem exec_shli (gd : Guard) (d : Reg) (a : Reg) (n : BitVec 6) (s : State) : exec (.shli gd d a n) s = execShli gd d a n s := rfl
theorem exec_shri (gd : Guard) (d : Reg) (a : Reg) (n : BitVec 6) (s : State) : exec (.shri gd d a n) s = execShri gd d a n s := rfl
theorem exec_srai (gd : Guard) (d : Reg) (a : Reg) (n : BitVec 6) (s : State) : exec (.srai gd d a n) s = execSrai gd d a n s := rfl
theorem exec_clz (gd : Guard) (d : Reg) (a : Reg) (s : State) : exec (.clz gd d a) s = execClz gd d a s := rfl
theorem exec_ctz (gd : Guard) (d : Reg) (a : Reg) (s : State) : exec (.ctz gd d a) s = execCtz gd d a s := rfl
theorem exec_popc (gd : Guard) (d : Reg) (a : Reg) (s : State) : exec (.popc gd d a) s = execPopc gd d a s := rfl
theorem exec_min (gd : Guard) (d : Reg) (a : Reg) (b : Reg) (s : State) : exec (.min gd d a b) s = execMin gd d a b s := rfl
theorem exec_max (gd : Guard) (d : Reg) (a : Reg) (b : Reg) (s : State) : exec (.max gd d a b) s = execMax gd d a b s := rfl
theorem exec_minn (gd : Guard) (d : Reg) (a : Reg) (b : Reg) (s : State) : exec (.minn gd d a b) s = execMinn gd d a b s := rfl
theorem exec_maxn (gd : Guard) (d : Reg) (a : Reg) (b : Reg) (s : State) : exec (.maxn gd d a b) s = execMaxn gd d a b s := rfl
theorem exec_addi (gd : Guard) (d : Reg) (a : Reg) (imm : BitVec 22) (s : State) : exec (.addi gd d a imm) s = execAddi gd d a imm s := rfl
theorem exec_andi (gd : Guard) (d : Reg) (a : Reg) (imm : BitVec 22) (s : State) : exec (.andi gd d a imm) s = execAndi gd d a imm s := rfl
theorem exec_ori (gd : Guard) (d : Reg) (a : Reg) (imm : BitVec 22) (s : State) : exec (.ori gd d a imm) s = execOri gd d a imm s := rfl
theorem exec_xori (gd : Guard) (d : Reg) (a : Reg) (imm : BitVec 22) (s : State) : exec (.xori gd d a imm) s = execXori gd d a imm s := rfl
theorem exec_li (gd : Guard) (d : Reg) (imm : BitVec 48) (s : State) : exec (.li gd d imm) s = execLi gd d imm s := rfl
theorem exec_lih (gd : Guard) (d : Reg) (a : Reg) (imm : BitVec 16) (s : State) : exec (.lih gd d a imm) s = execLih gd d a imm s := rfl
theorem exec_bfx (gd : Guard) (d : Reg) (a : Reg) (pos : BitVec 6) (len1 : BitVec 6) (s : State) : exec (.bfx gd d a pos len1) s = execBfx gd d a pos len1 s := rfl
theorem exec_bfxs (gd : Guard) (d : Reg) (a : Reg) (pos : BitVec 6) (len1 : BitVec 6) (s : State) : exec (.bfxs gd d a pos len1) s = execBfxs gd d a pos len1 s := rfl
theorem exec_bfi (gd : Guard) (d : Reg) (a : Reg) (b : Reg) (pos : BitVec 6) (len1 : BitVec 6) (s : State) : exec (.bfi gd d a b pos len1) s = execBfi gd d a b pos len1 s := rfl
theorem exec_lea (gd : Guard) (d : Reg) (a : Reg) (b : Reg) (sh : BitVec 2) (disp : BitVec 10) (s : State) : exec (.lea gd d a b sh disp) s = execLea gd d a b sh disp s := rfl
theorem exec_cmp (gd : Guard) (d : Pred) (a : Reg) (b : Reg) (cc : Cond) (s : State) : exec (.cmp gd d a b cc) s = execCmp gd d a b cc s := rfl
theorem exec_cmpi (gd : Guard) (d : Pred) (a : Reg) (cc : Cond) (imm : BitVec 32) (s : State) : exec (.cmpi gd d a cc imm) s = execCmpi gd d a cc imm s := rfl
theorem exec_plog (gd : Guard) (d : Pred) (a : Pred) (b : Pred) (table : BitVec 4) (s : State) : exec (.plog gd d a b table) s = execPlog gd d a b table s := rfl
theorem exec_sel (gd : Guard) (d : Reg) (a : Reg) (b : Reg) (c : Pred) (s : State) : exec (.sel gd d a b c) s = execSel gd d a b c s := rfl
theorem exec_pset (gd : Guard) (a : Reg) (s : State) : exec (.pset gd a) s = execPset gd a s := rfl
theorem exec_pget (gd : Guard) (d : Reg) (s : State) : exec (.pget gd d) s = execPget gd d s := rfl
theorem exec_sext (gd : Guard) (d : Reg) (a : Reg) (n : BitVec 6) (s : State) : exec (.sext gd d a n) s = execSext gd d a n s := rfl
theorem exec_zext (gd : Guard) (d : Reg) (a : Reg) (n : BitVec 6) (s : State) : exec (.zext gd d a n) s = execZext gd d a n s := rfl
theorem exec_br (gd : Guard) (imm : BitVec 22) (s : State) : exec (.br gd imm) s = execBr gd imm s := rfl
theorem exec_brr (gd : Guard) (a : Reg) (s : State) : exec (.brr gd a) s = execBrr gd a s := rfl
theorem exec_call (gd : Guard) (d : Reg) (imm : BitVec 22) (s : State) : exec (.call gd d imm) s = execCall gd d imm s := rfl
theorem exec_callr (gd : Guard) (d : Reg) (a : Reg) (s : State) : exec (.callr gd d a) s = execCallr gd d a s := rfl
theorem exec_jseg (gd : Guard) (imm : BitVec 22) (s : State) : exec (.jseg gd imm) s = execJseg gd imm s := rfl
theorem exec_btag (gd : Guard) (d : Reg) (a : Reg) (b : Reg) (count : BitVec 12) (s : State) : exec (.btag gd d a b count) s = execBtag gd d a b count s := rfl
theorem exec_fork (gd : Guard) (a : Reg) (b : Reg) (imm : BitVec 32) (s : State) : exec (.fork gd a b imm) s = execFork gd a b imm s := rfl
theorem exec_join (gd : Guard) (a : Reg) (b : Reg) (s : State) : exec (.join gd a b) s = execJoin gd a b s := rfl
theorem exec_spawn (gd : Guard) (a : Reg) (b : Reg) (sh : Bool) (imm : BitVec 32) (s : State) : exec (.spawn gd a b sh imm) s = execSpawn gd a b sh imm s := rfl
theorem exec_yield (gd : Guard) (a : Reg) (b : Reg) (s : State) : exec (.yield gd a b) s = execYield gd a b s := rfl
theorem exec_exit (gd : Guard) (a : Reg) (s : State) : exec (.exit gd a) s = execExit gd a s := rfl
theorem exec_wfw (gd : Guard) (d : Reg) (a : Reg) (s : State) : exec (.wfw gd d a) s = execWfw gd d a s := rfl
theorem exec_send (gd : Guard) (a : Reg) (b : Reg) (n : BitVec 5) (tag : BitVec 12) (s : State) : exec (.send gd a b n tag) s = execSend gd a b n tag s := rfl
theorem exec_recv (gd : Guard) (d : Reg) (a : Reg) (n : BitVec 5) (s : State) : exec (.recv gd d a n) s = execRecv gd d a n s := rfl
theorem exec_enq (gd : Guard) (a : Reg) (b : Reg) (c : Reg) (ack : Bool) (s : State) : exec (.enq gd a b c ack) s = execEnq gd a b c ack s := rfl
theorem exec_deq (gd : Guard) (d : Reg) (a : Reg) (c : Reg) (s : State) : exec (.deq gd d a c) s = execDeq gd d a c s := rfl
theorem exec_qres (gd : Guard) (d : Reg) (a : Reg) (b : Reg) (s : State) : exec (.qres gd d a b) s = execQres gd d a b s := rfl
theorem exec_qprobe (gd : Guard) (d : Reg) (a : Reg) (b : Reg) (s : State) : exec (.qprobe gd d a b) s = execQprobe gd d a b s := rfl
theorem exec_ld (gd : Guard) (d : Reg) (a : Reg) (sz : BitVec 2) (sgn : Bool) (imm : BitVec 32) (s : State) : exec (.ld gd d a sz sgn imm) s = execLd gd d a sz sgn imm s := rfl
theorem exec_st (gd : Guard) (d : Reg) (a : Reg) (sz : BitVec 2) (imm : BitVec 32) (s : State) : exec (.st gd d a sz imm) s = execSt gd d a sz imm s := rfl
theorem exec_ldx (gd : Guard) (d : Reg) (a : Reg) (b : Reg) (sz : BitVec 2) (sgn : Bool) (sh : BitVec 2) (s : State) : exec (.ldx gd d a b sz sgn sh) s = execLdx gd d a b sz sgn sh s := rfl
theorem exec_stx (gd : Guard) (d : Reg) (a : Reg) (b : Reg) (sz : BitVec 2) (sh : BitVec 2) (s : State) : exec (.stx gd d a b sz sh) s = execStx gd d a b sz sh s := rfl
theorem exec_ldf (gd : Guard) (d : Reg) (a : Reg) (sz : BitVec 2) (sgn : Bool) (rlx : Bool) (imm : BitVec 32) (s : State) : exec (.ldf gd d a sz sgn rlx imm) s = execLdf gd d a sz sgn rlx imm s := rfl
theorem exec_stf (gd : Guard) (d : Reg) (a : Reg) (sz : BitVec 2) (rlx : Bool) (imm : BitVec 32) (s : State) : exec (.stf gd d a sz rlx imm) s = execStf gd d a sz rlx imm s := rfl
theorem exec_take (gd : Guard) (d : Reg) (a : Reg) (b : Reg) (sz : BitVec 3) (sgn : Bool) (s : State) : exec (.take gd d a b sz sgn) s = execTake gd d a b sz sgn s := rfl
theorem exec_put (gd : Guard) (d : Reg) (a : Reg) (b : Reg) (sz : BitVec 3) (s : State) : exec (.put gd d a b sz) s = execPut gd d a b sz s := rfl
theorem exec_peek (gd : Guard) (d : Reg) (a : Reg) (b : Reg) (sz : BitVec 3) (sgn : Bool) (s : State) : exec (.peek gd d a b sz sgn) s = execPeek gd d a b sz sgn s := rfl
theorem exec_feset (gd : Guard) (a : Reg) (b : Reg) (st : BitVec 2) (s : State) : exec (.feset gd a b st) s = execFeset gd a b st s := rfl
theorem exec_feget (gd : Guard) (d : Reg) (a : Reg) (o : Bool) (s : State) : exec (.feget gd d a o) s = execFeget gd d a o s := rfl
theorem exec_amo (gd : Guard) (d : Reg) (a : Reg) (b : Reg) (op : BitVec 4) (dbl : Bool) (rlx : Bool) (s : State) : exec (.amo gd d a b op dbl rlx) s = execAmo gd d a b op dbl rlx s := rfl
theorem exec_cas (gd : Guard) (d : Reg) (a : Reg) (b : Reg) (c : Reg) (op : BitVec 4) (dbl : Bool) (rlx : Bool) (s : State) : exec (.cas gd d a b c op dbl rlx) s = execCas gd d a b c op dbl rlx s := rfl
theorem exec_red (gd : Guard) (a : Reg) (b : Reg) (op : BitVec 4) (dbl : Bool) (s : State) : exec (.red gd a b op dbl) s = execRed gd a b op dbl s := rfl
theorem exec_waitc (gd : Guard) (a : Reg) (imm : BitVec 32) (s : State) : exec (.waitc gd a imm) s = execWaitc gd a imm s := rfl
theorem exec_fence (gd : Guard) (d : Reg) (a : Reg) (mask : BitVec 8) (s : State) : exec (.fence gd d a mask) s = execFence gd d a mask s := rfl
theorem exec_xfence (gd : Guard) (a : Reg) (frm : BitVec 8) (tgt : BitVec 8) (s : State) : exec (.xfence gd a frm tgt) s = execXfence gd a frm tgt s := rfl
theorem exec_go (gd : Guard) (a : Reg) (s : State) : exec (.go gd a) s = execGo gd a s := rfl
theorem exec_back (gd : Guard) (s : State) : exec (.back gd) s = execBack gd s := rfl
theorem exec_mld (gd : Guard) (d : Reg) (a : Reg) (sz : BitVec 2) (sgn : Bool) (imm : BitVec 32) (s : State) : exec (.mld gd d a sz sgn imm) s = execMld gd d a sz sgn imm s := rfl
theorem exec_mst (gd : Guard) (d : Reg) (a : Reg) (sz : BitVec 2) (imm : BitVec 32) (s : State) : exec (.mst gd d a sz imm) s = execMst gd d a sz imm s := rfl
theorem exec_mamo (gd : Guard) (d : Reg) (a : Reg) (b : Reg) (c : Reg) (op : BitVec 4) (dbl : Bool) (rlx : Bool) (s : State) : exec (.mamo gd d a b c op dbl rlx) s = execMamo gd d a b c op dbl rlx s := rfl
theorem exec_remup (gd : Guard) (a : Reg) (b : Reg) (op : BitVec 4) (dbl : Bool) (s : State) : exec (.remup gd a b op dbl) s = execRemup gd a b op dbl s := rfl
theorem exec_tlook (gd : Guard) (d : Reg) (a : Reg) (s : State) : exec (.tlook gd d a) s = execTlook gd d a s := rfl
theorem exec_tins (gd : Guard) (a : Reg) (b : Reg) (fill : Bool) (dirty : Bool) (s : State) : exec (.tins gd a b fill dirty) s = execTins gd a b fill dirty s := rfl
theorem exec_tdel (gd : Guard) (a : Reg) (wide : Bool) (s : State) : exec (.tdel gd a wide) s = execTdel gd a wide s := rfl
theorem exec_hnd (gd : Guard) (d : Reg) (a : Reg) (left : Bool) (s : State) : exec (.hnd gd d a left) s = execHnd gd d a left s := rfl
theorem exec_narrow (gd : Guard) (a : Reg) (s : State) : exec (.narrow gd a) s = execNarrow gd a s := rfl
theorem exec_union (gd : Guard) (d : Reg) (a : Reg) (n : BitVec 7) (s : State) : exec (.union gd d a n) s = execUnion gd d a n s := rfl
theorem exec_livemask (gd : Guard) (d : Reg) (a : Reg) (s : State) : exec (.livemask gd d a) s = execLivemask gd d a s := rfl
theorem exec_cancel (gd : Guard) (a : Reg) (s : State) : exec (.cancel gd a) s = execCancel gd a s := rfl
theorem exec_adopt (gd : Guard) (a : Reg) (s : State) : exec (.adopt gd a) s = execAdopt gd a s := rfl
theorem exec_rbegin (gd : Guard) (d : Reg) (a : Reg) (imm : BitVec 22) (s : State) : exec (.rbegin gd d a imm) s = execRbegin gd d a imm s := rfl
theorem exec_rcommit (gd : Guard) (s : State) : exec (.rcommit gd) s = execRcommit gd s := rfl
theorem exec_rabort (gd : Guard) (s : State) : exec (.rabort gd) s = execRabort gd s := rfl
theorem exec_rstat (gd : Guard) (d : Reg) (s : State) : exec (.rstat gd d) s = execRstat gd d s := rfl
theorem exec_fadd (gd : Guard) (d : Reg) (a : Reg) (b : Reg) (ty : Ty) (rm : Rnd) (s : State) : exec (.fadd gd d a b ty rm) s = execFadd gd d a b ty rm s := rfl
theorem exec_fsub (gd : Guard) (d : Reg) (a : Reg) (b : Reg) (ty : Ty) (rm : Rnd) (s : State) : exec (.fsub gd d a b ty rm) s = execFsub gd d a b ty rm s := rfl
theorem exec_fmul (gd : Guard) (d : Reg) (a : Reg) (b : Reg) (ty : Ty) (rm : Rnd) (s : State) : exec (.fmul gd d a b ty rm) s = execFmul gd d a b ty rm s := rfl
theorem exec_fma (gd : Guard) (d : Reg) (a : Reg) (b : Reg) (c : Reg) (ty : Ty) (rm : Rnd) (s : State) : exec (.fma gd d a b c ty rm) s = execFma gd d a b c ty rm s := rfl
theorem exec_fdiv (gd : Guard) (d : Reg) (a : Reg) (b : Reg) (ty : Ty) (rm : Rnd) (s : State) : exec (.fdiv gd d a b ty rm) s = execFdiv gd d a b ty rm s := rfl
theorem exec_fsqrt (gd : Guard) (d : Reg) (a : Reg) (ty : Ty) (rm : Rnd) (s : State) : exec (.fsqrt gd d a ty rm) s = execFsqrt gd d a ty rm s := rfl
theorem exec_frsq (gd : Guard) (d : Reg) (a : Reg) (ty : Ty) (rm : Rnd) (s : State) : exec (.frsq gd d a ty rm) s = execFrsq gd d a ty rm s := rfl
theorem exec_fmin (gd : Guard) (d : Reg) (a : Reg) (b : Reg) (ty : Ty) (s : State) : exec (.fmin gd d a b ty) s = execFmin gd d a b ty s := rfl
theorem exec_fmax (gd : Guard) (d : Reg) (a : Reg) (b : Reg) (ty : Ty) (s : State) : exec (.fmax gd d a b ty) s = execFmax gd d a b ty s := rfl
theorem exec_fcmp (gd : Guard) (d : Pred) (a : Reg) (b : Reg) (ty : Ty) (fc : FCond) (s : State) : exec (.fcmp gd d a b ty fc) s = execFcmp gd d a b ty fc s := rfl
theorem exec_fcvt (gd : Guard) (d : Reg) (a : Reg) (tgt : Ty) (frm : Ty) (rm : Rnd) (sat : Bool) (s : State) : exec (.fcvt gd d a tgt frm rm sat) s = execFcvt gd d a tgt frm rm sat s := rfl
theorem exec_fclass (gd : Guard) (d : Reg) (a : Reg) (ty : Ty) (s : State) : exec (.fclass gd d a ty) s = execFclass gd d a ty s := rfl
theorem exec_fexp2 (gd : Guard) (d : Reg) (a : Reg) (ty : Ty) (rm : Rnd) (s : State) : exec (.fexp2 gd d a ty rm) s = execFexp2 gd d a ty rm s := rfl
theorem exec_flog2 (gd : Guard) (d : Reg) (a : Reg) (ty : Ty) (rm : Rnd) (s : State) : exec (.flog2 gd d a ty rm) s = execFlog2 gd d a ty rm s := rfl
theorem exec_vld (gd : Guard) (d : VReg) (a : Reg) (esz : BitVec 2) (mk : Mask) (z : Bool) (imm : BitVec 32) (s : State) : exec (.vld gd d a esz mk z imm) s = execVld gd d a esz mk z imm s := rfl
theorem exec_vst (gd : Guard) (d : VReg) (a : Reg) (esz : BitVec 2) (mk : Mask) (imm : BitVec 32) (s : State) : exec (.vst gd d a esz mk imm) s = execVst gd d a esz mk imm s := rfl
theorem exec_vlds (gd : Guard) (d : VReg) (a : Reg) (b : Reg) (ty : Ty) (mk : Mask) (z : Bool) (s : State) : exec (.vlds gd d a b ty mk z) s = execVlds gd d a b ty mk z s := rfl
theorem exec_vsts (gd : Guard) (d : VReg) (a : Reg) (b : Reg) (ty : Ty) (mk : Mask) (s : State) : exec (.vsts gd d a b ty mk) s = execVsts gd d a b ty mk s := rfl
theorem exec_vbcast (gd : Guard) (d : VReg) (a : Reg) (ty : Ty) (mk : Mask) (z : Bool) (s : State) : exec (.vbcast gd d a ty mk z) s = execVbcast gd d a ty mk z s := rfl
theorem exec_vext (gd : Guard) (d : Reg) (a : VReg) (ty : Ty) (lane : BitVec 6) (s : State) : exec (.vext gd d a ty lane) s = execVext gd d a ty lane s := rfl
theorem exec_vins (gd : Guard) (d : VReg) (a : Reg) (ty : Ty) (lane : BitVec 6) (s : State) : exec (.vins gd d a ty lane) s = execVins gd d a ty lane s := rfl
theorem exec_vadd (gd : Guard) (d : VReg) (a : VReg) (b : BOp) (ty : Ty) (rm : Rnd) (mk : Mask) (z : Bool) (s : State) : exec (.vadd gd d a b ty rm mk z) s = execVadd gd d a b ty rm mk z s := rfl
theorem exec_vsub (gd : Guard) (d : VReg) (a : VReg) (b : BOp) (ty : Ty) (rm : Rnd) (mk : Mask) (z : Bool) (s : State) : exec (.vsub gd d a b ty rm mk z) s = execVsub gd d a b ty rm mk z s := rfl
theorem exec_vmul (gd : Guard) (d : VReg) (a : VReg) (b : BOp) (ty : Ty) (rm : Rnd) (mk : Mask) (z : Bool) (s : State) : exec (.vmul gd d a b ty rm mk z) s = execVmul gd d a b ty rm mk z s := rfl
theorem exec_vfma (gd : Guard) (d : VReg) (a : VReg) (b : BOp) (c : VReg) (ty : Ty) (rm : Rnd) (mk : Mask) (z : Bool) (s : State) : exec (.vfma gd d a b c ty rm mk z) s = execVfma gd d a b c ty rm mk z s := rfl
theorem exec_vmin (gd : Guard) (d : VReg) (a : VReg) (b : BOp) (ty : Ty) (mk : Mask) (z : Bool) (s : State) : exec (.vmin gd d a b ty mk z) s = execVmin gd d a b ty mk z s := rfl
theorem exec_vmax (gd : Guard) (d : VReg) (a : VReg) (b : BOp) (ty : Ty) (mk : Mask) (z : Bool) (s : State) : exec (.vmax gd d a b ty mk z) s = execVmax gd d a b ty mk z s := rfl
theorem exec_vabs (gd : Guard) (d : VReg) (a : VReg) (ty : Ty) (mk : Mask) (z : Bool) (s : State) : exec (.vabs gd d a ty mk z) s = execVabs gd d a ty mk z s := rfl
theorem exec_vdiv (gd : Guard) (d : VReg) (a : VReg) (b : BOp) (ty : Ty) (rm : Rnd) (mk : Mask) (z : Bool) (s : State) : exec (.vdiv gd d a b ty rm mk z) s = execVdiv gd d a b ty rm mk z s := rfl
theorem exec_vsqrt (gd : Guard) (d : VReg) (a : VReg) (ty : Ty) (rm : Rnd) (mk : Mask) (z : Bool) (s : State) : exec (.vsqrt gd d a ty rm mk z) s = execVsqrt gd d a ty rm mk z s := rfl
theorem exec_vrsq (gd : Guard) (d : VReg) (a : VReg) (ty : Ty) (rm : Rnd) (mk : Mask) (z : Bool) (s : State) : exec (.vrsq gd d a ty rm mk z) s = execVrsq gd d a ty rm mk z s := rfl
theorem exec_vexp2 (gd : Guard) (d : VReg) (a : VReg) (ty : Ty) (rm : Rnd) (mk : Mask) (z : Bool) (s : State) : exec (.vexp2 gd d a ty rm mk z) s = execVexp2 gd d a ty rm mk z s := rfl
theorem exec_vlog2 (gd : Guard) (d : VReg) (a : VReg) (ty : Ty) (rm : Rnd) (mk : Mask) (z : Bool) (s : State) : exec (.vlog2 gd d a ty rm mk z) s = execVlog2 gd d a ty rm mk z s := rfl
theorem exec_vand (gd : Guard) (d : VReg) (a : VReg) (b : BOp) (ty : Ty) (mk : Mask) (z : Bool) (s : State) : exec (.vand gd d a b ty mk z) s = execVand gd d a b ty mk z s := rfl
theorem exec_vor (gd : Guard) (d : VReg) (a : VReg) (b : BOp) (ty : Ty) (mk : Mask) (z : Bool) (s : State) : exec (.vor gd d a b ty mk z) s = execVor gd d a b ty mk z s := rfl
theorem exec_vxor (gd : Guard) (d : VReg) (a : VReg) (b : BOp) (ty : Ty) (mk : Mask) (z : Bool) (s : State) : exec (.vxor gd d a b ty mk z) s = execVxor gd d a b ty mk z s := rfl
theorem exec_vshl (gd : Guard) (d : VReg) (a : VReg) (b : BOp) (ty : Ty) (mk : Mask) (z : Bool) (s : State) : exec (.vshl gd d a b ty mk z) s = execVshl gd d a b ty mk z s := rfl
theorem exec_vshr (gd : Guard) (d : VReg) (a : VReg) (b : BOp) (ty : Ty) (mk : Mask) (z : Bool) (s : State) : exec (.vshr gd d a b ty mk z) s = execVshr gd d a b ty mk z s := rfl
theorem exec_vcmp (gd : Guard) (d : VMsk) (a : VReg) (b : BOp) (ty : Ty) (fc : FCond) (mk : Mask) (s : State) : exec (.vcmp gd d a b ty fc mk) s = execVcmp gd d a b ty fc mk s := rfl
theorem exec_vsel (gd : Guard) (d : VReg) (a : VReg) (b : BOp) (c : VMsk) (ty : Ty) (s : State) : exec (.vsel gd d a b c ty) s = execVsel gd d a b c ty s := rfl
theorem exec_vcvt (gd : Guard) (d : VReg) (a : VReg) (tgt : Ty) (frm : Ty) (rm : Rnd) (sat : Bool) (part : BitVec 5) (s : State) : exec (.vcvt gd d a tgt frm rm sat part) s = execVcvt gd d a tgt frm rm sat part s := rfl
theorem exec_vred (gd : Guard) (d : Reg) (a : VReg) (op : BitVec 2) (ty : Ty) (rm : Rnd) (mk : Mask) (s : State) : exec (.vred gd d a op ty rm mk) s = execVred gd d a op ty rm mk s := rfl
theorem exec_vscan (gd : Guard) (d : VReg) (a : VReg) (op : BitVec 2) (ty : Ty) (rm : Rnd) (mk : Mask) (s : State) : exec (.vscan gd d a op ty rm mk) s = execVscan gd d a op ty rm mk s := rfl
theorem exec_vperm (gd : Guard) (d : VReg) (a : VReg) (b : VReg) (ty : Ty) (mk : Mask) (z : Bool) (s : State) : exec (.vperm gd d a b ty mk z) s = execVperm gd d a b ty mk z s := rfl
theorem exec_vmlog (gd : Guard) (d : VMsk) (a : BitVec 5) (b : VMsk) (table : BitVec 4) (isG : Bool) (s : State) : exec (.vmlog gd d a b table isG) s = execVmlog gd d a b table isG s := rfl
theorem exec_vmpop (gd : Guard) (d : Reg) (a : VMsk) (raw : Bool) (s : State) : exec (.vmpop gd d a raw) s = execVmpop gd d a raw s := rfl
theorem exec_barq (gd : Guard) (d : VReg) (a : VReg) (b : Reg) (part : BitVec 2) (ty : Ty) (mk : Mask) (z : Bool) (s : State) : exec (.barq gd d a b part ty mk z) s = execBarq gd d a b part ty mk z s := rfl
theorem exec_oclaim (gd : Guard) (d : Reg) (s : State) : exec (.oclaim gd d) s = execOclaim gd d s := rfl
theorem exec_orel (gd : Guard) (a : Reg) (s : State) : exec (.orel gd a) s = execOrel gd a s := rfl
theorem exec_old (gd : Guard) (a : Reg) (b : Reg) (c : Reg) (ty : Ty) (layB : Bool) (s : State) : exec (.old gd a b c ty layB) s = execOld gd a b c ty layB s := rfl
theorem exec_mma (gd : Guard) (a : Reg) (b : Reg) (c : Reg) (zf : Bool) (sc : Bool) (k : BitVec 9) (s : State) : exec (.mma gd a b c zf sc k) s = execMma gd a b c zf sc k s := rfl
theorem exec_ard (gd : Guard) (a : Reg) (b : Reg) (c : Reg) (ty : Ty) (s : State) : exec (.ard gd a b c ty) s = execArd gd a b c ty s := rfl
theorem exec_awr (gd : Guard) (a : Reg) (b : Reg) (c : Reg) (ty : Ty) (s : State) : exec (.awr gd a b c ty) s = execAwr gd a b c ty s := rfl
theorem exec_aclr (gd : Guard) (a : Reg) (kind : BitVec 2) (s : State) : exec (.aclr gd a kind) s = execAclr gd a kind s := rfl
theorem exec_mstat (gd : Guard) (d : Reg) (a : Reg) (s : State) : exec (.mstat gd d a) s = execMstat gd d a s := rfl
theorem exec_tbld (gd : Guard) (a : Reg) (s : State) : exec (.tbld gd a) s = execTbld gd a s := rfl
theorem exec_pushCopy (gd : Guard) (a : Reg) (dist : Bool) (s : State) : exec (.pushCopy gd a dist) s = execPushCopy gd a dist s := rfl
theorem exec_pushFill (gd : Guard) (a : Reg) (s : State) : exec (.pushFill gd a) s = execPushFill gd a s := rfl
theorem exec_pushCode (gd : Guard) (a : Reg) (s : State) : exec (.pushCode gd a) s = execPushCode gd a s := rfl
theorem exec_pushColl (gd : Guard) (a : Reg) (s : State) : exec (.pushColl gd a) s = execPushColl gd a s := rfl
theorem exec_pushProgram (gd : Guard) (a : Reg) (b : Reg) (s : State) : exec (.pushProgram gd a b) s = execPushProgram gd a b s := rfl
theorem exec_popcRec (gd : Guard) (d : Reg) (a : Reg) (s : State) : exec (.popcRec gd d a) s = execPopcRec gd d a s := rfl
theorem exec_trap (gd : Guard) (imm : BitVec 22) (s : State) : exec (.trap gd imm) s = execTrap gd imm s := rfl
theorem exec_rtt (gd : Guard) (s : State) : exec (.rtt gd) s = execRtt gd s := rfl
theorem exec_mfs (gd : Guard) (d : Reg) (a : Reg) (n : BitVec 8) (s : State) : exec (.mfs gd d a n) s = execMfs gd d a n s := rfl
theorem exec_mts (gd : Guard) (a : Reg) (n : BitVec 8) (s : State) : exec (.mts gd a n) s = execMts gd a n s := rfl
theorem exec_resume (gd : Guard) (d : Reg) (a : Reg) (b : Reg) (key : Bool) (s : State) : exec (.resume gd d a b key) s = execResume gd d a b key s := rfl
theorem exec_cswap (gd : Guard) (a : Reg) (b : Reg) (s : State) : exec (.cswap gd a b) s = execCswap gd a b s := rfl
theorem exec_invtlb (gd : Guard) (a : Reg) (b : Reg) (scope : BitVec 2) (s : State) : exec (.invtlb gd a b scope) s = execInvtlb gd a b scope s := rfl
theorem exec_issueTurn (ep : Nat) (lost : Bool) (s : State) : exec (.issueTurn ep lost) s = execIssueTurn ep lost s := rfl
theorem exec_waitTimeout (ep : Nat) (slot : Nat) (s : State) : exec (.waitTimeout ep slot) s = execWaitTimeout ep slot s := rfl
theorem exec_hostQueueEntryWrite (pkg : Nat) (off : Nat) (n : Nat) (entry : BitVec 512) (s : State) : exec (.hostQueueEntryWrite pkg off n entry) s = execHostQueueEntryWrite pkg off n entry s := rfl
theorem exec_entryAdmission (pkg : Nat) (q : Nat) (s : State) : exec (.entryAdmission pkg q) s = execEntryAdmission pkg q s := rfl
theorem exec_hostCancelWrite (pkg : Nat) (off : Nat) (n : Nat) (w : BitVec 64) (s : State) : exec (.hostCancelWrite pkg off n w) s = execHostCancelWrite pkg off n w s := rfl
theorem exec_hostDataWrite (pkg : Nat) (off : Nat) (n : Nat) (data : Nat) (s : State) : exec (.hostDataWrite pkg off n data) s = execHostDataWrite pkg off n data s := rfl
theorem exec_hostDataRead (pkg : Nat) (off : Nat) (n : Nat) (s : State) : exec (.hostDataRead pkg off n) s = execHostDataRead pkg off n s := rfl
theorem exec_dispatchEntry (pkg : Nat) (s : State) : exec (.dispatchEntry pkg) s = execDispatchEntry pkg s := rfl
theorem exec_launchHeaderRead (pkg : Nat) (k : Nat) (s : State) : exec (.launchHeaderRead pkg k) s = execLaunchHeaderRead pkg k s := rfl
theorem exec_dispenserExamine (pkg : Nat) (cl : Nat) (k : Nat) (s : State) : exec (.dispenserExamine pkg cl k) s = execDispenserExamine pkg cl k s := rfl
theorem exec_frameReentry (pkg : Nat) (cl : Nat) (k : Nat) (s : State) : exec (.frameReentry pkg cl k) s = execFrameReentry pkg cl k s := rfl
theorem exec_instantLapse (pkg : Nat) (h : Nat) (s : State) : exec (.instantLapse pkg h) s = execInstantLapse pkg h s := rfl
theorem exec_lapseBroadcastApply (pkg : Nat) (die : Nat) (k : Nat) (s : State) : exec (.lapseBroadcastApply pkg die k) s = execLapseBroadcastApply pkg die k s := rfl
theorem exec_settleExpiry (pkg : Nat) (h : Nat) (s : State) : exec (.settleExpiry pkg h) s = execSettleExpiry pkg h s := rfl
theorem exec_heldRecordRetry (pkg : Nat) (q : Nat) (s : State) : exec (.heldRecordRetry pkg q) s = execHeldRecordRetry pkg q s := rfl
theorem exec_dropReport (k : Nat) (s : State) : exec (.dropReport k) s = execDropReport k s := rfl
theorem exec_gatewayEgress (k : Nat) (s : State) : exec (.gatewayEgress k) s = execGatewayEgress k s := rfl
theorem exec_gatewayIngress (k : Nat) (s : State) : exec (.gatewayIngress k) s = execGatewayIngress k s := rfl
theorem exec_exportNotice (k : Nat) (s : State) : exec (.exportNotice k) s = execExportNotice k s := rfl
theorem exec_proxyReport (k : Nat) (s : State) : exec (.proxyReport k) s = execProxyReport k s := rfl
theorem exec_cancelPropagation (k : Nat) (s : State) : exec (.cancelPropagation k) s = execCancelPropagation k s := rfl
theorem exec_unionChangePropagation (k : Nat) (s : State) : exec (.unionChangePropagation k) s = execUnionChangePropagation k s := rfl
theorem exec_fabricIngress (k : Nat) (s : State) : exec (.fabricIngress k) s = execFabricIngress k s := rfl
theorem exec_replyArrival (k : Nat) (s : State) : exec (.replyArrival k) s = execReplyArrival k s := rfl
theorem exec_messageInjection (k : Nat) (s : State) : exec (.messageInjection k) s = execMessageInjection k s := rfl
theorem exec_messageDelivery (k : Nat) (s : State) : exec (.messageDelivery k) s = execMessageDelivery k s := rfl
theorem exec_heldMessageRelease (ep : Nat) (k : Nat) (s : State) : exec (.heldMessageRelease ep k) s = execHeldMessageRelease ep k s := rfl
theorem exec_remoteEnqArrival (k : Nat) (s : State) : exec (.remoteEnqArrival k) s = execRemoteEnqArrival k s := rfl
theorem exec_qresRequestArrival (k : Nat) (s : State) : exec (.qresRequestArrival k) s = execQresRequestArrival k s := rfl
theorem exec_qresGrantArrival (k : Nat) (s : State) : exec (.qresGrantArrival k) s = execQresGrantArrival k s := rfl
theorem exec_dtlEntryTimeout (ep : Nat) (k : Nat) (s : State) : exec (.dtlEntryTimeout ep k) s = execDtlEntryTimeout ep k s := rfl
theorem exec_destWriteQueueWrite (ep : Nat) (s : State) : exec (.destWriteQueueWrite ep) s = execDestWriteQueueWrite ep s := rfl
theorem exec_tileWriteQueueWrite (ep : Nat) (s : State) : exec (.tileWriteQueueWrite ep) s = execTileWriteQueueWrite ep s := rfl
theorem exec_copyPieceDispatch (k : Nat) (s : State) : exec (.copyPieceDispatch k) s = execCopyPieceDispatch k s := rfl
theorem exec_fillPatternRead (k : Nat) (s : State) : exec (.fillPatternRead k) s = execFillPatternRead k s := rfl
theorem exec_pieceAtOwner (k : Nat) (s : State) : exec (.pieceAtOwner k) s = execPieceAtOwner k s := rfl
theorem exec_pieceAtRecipient (k : Nat) (s : State) : exec (.pieceAtRecipient k) s = execPieceAtRecipient k s := rfl
theorem exec_pieceReport (k : Nat) (s : State) : exec (.pieceReport k) s = execPieceReport k s := rfl
theorem exec_codeSegmentLanded (k : Nat) (s : State) : exec (.codeSegmentLanded k) s = execCodeSegmentLanded k s := rfl
theorem exec_codesegWrite (ep : Nat) (w : BitVec 64) (s : State) : exec (.codesegWrite ep w) s = execCodesegWrite ep w s := rfl
theorem exec_programCommandArrival (k : Nat) (s : State) : exec (.programCommandArrival k) s = execProgramCommandArrival k s := rfl
theorem exec_programCommandDelivery (ep : Nat) (s : State) : exec (.programCommandDelivery ep) s = execProgramCommandDelivery ep s := rfl
theorem exec_collChunkSend (pkg : Nat) (k : Nat) (s : State) : exec (.collChunkSend pkg k) s = execCollChunkSend pkg k s := rfl
theorem exec_collChunkArrival (k : Nat) (s : State) : exec (.collChunkArrival k) s = execCollChunkArrival k s := rfl
theorem exec_reductionBlockDelivery (ep : Nat) (s : State) : exec (.reductionBlockDelivery ep) s = execReductionBlockDelivery ep s := rfl
theorem exec_collParticipantFailure (k : Nat) (s : State) : exec (.collParticipantFailure k) s = execCollParticipantFailure k s := rfl
theorem exec_collTimeout (pkg : Nat) (k : Nat) (s : State) : exec (.collTimeout pkg k) s = execCollTimeout pkg k s := rfl
theorem exec_qprobeReturn (k : Nat) (s : State) : exec (.qprobeReturn k) s = execQprobeReturn k s := rfl
theorem exec_lineBufferAccess (k : Nat) (s : State) : exec (.lineBufferAccess k) s = execLineBufferAccess k s := rfl
theorem exec_lineFillComplete (ep : Nat) (k : Nat) (s : State) : exec (.lineFillComplete ep k) s = execLineFillComplete ep k s := rfl
theorem exec_victimWriteback (ep : Nat) (k : Nat) (ok : Bool) (markOk : Bool) (s : State) : exec (.victimWriteback ep k ok markOk) s = execVictimWriteback ep k ok markOk s := rfl
theorem exec_patrolScrubRead (ep : Nat) (line : Nat) (s : State) : exec (.patrolScrubRead ep line) s = execPatrolScrubRead ep line s := rfl
theorem exec_mirrorWriteApply (k : Nat) (s : State) : exec (.mirrorWriteApply k) s = execMirrorWriteApply k s := rfl
theorem exec_mirrorTimeout (k : Nat) (s : State) : exec (.mirrorTimeout k) s = execMirrorTimeout k s := rfl
theorem exec_joinBusyRetry (ep : Nat) (slot : Nat) (s : State) : exec (.joinBusyRetry ep slot) s = execJoinBusyRetry ep slot s := rfl
theorem exec_migrantArrival (k : Nat) (s : State) : exec (.migrantArrival k) s = execMigrantArrival k s := rfl
theorem exec_migrantQueueAdmit (ep : Nat) (s : State) : exec (.migrantQueueAdmit ep) s = execMigrantQueueAdmit ep s := rfl
theorem exec_migrantReturn (k : Nat) (s : State) : exec (.migrantReturn k) s = execMigrantReturn k s := rfl
theorem exec_pageWalkStep (die : Nat) (k : Nat) (s : State) : exec (.pageWalkStep die k) s = execPageWalkStep die k s := rfl
theorem exec_invtlbApply (pkg : Nat) (die : Nat) (s : State) : exec (.invtlbApply pkg die) s = execInvtlbApply pkg die s := rfl
theorem exec_regionBeginRequest (die : Nat) (k : Nat) (s : State) : exec (.regionBeginRequest die k) s = execRegionBeginRequest die k s := rfl
theorem exec_regionAccessEdges (die : Nat) (k : Nat) (s : State) : exec (.regionAccessEdges die k) s = execRegionAccessEdges die k s := rfl
theorem exec_regionCommitRequest (die : Nat) (k : Nat) (s : State) : exec (.regionCommitRequest die k) s = execRegionCommitRequest die k s := rfl
theorem exec_sealAtOwner (die : Nat) (k : Nat) (s : State) : exec (.sealAtOwner die k) s = execSealAtOwner die k s := rfl
theorem exec_sealAck (die : Nat) (k : Nat) (s : State) : exec (.sealAck die k) s = execSealAck die k s := rfl
theorem exec_resolveAtOwner (die : Nat) (k : Nat) (s : State) : exec (.resolveAtOwner die k) s = execResolveAtOwner die k s := rfl
theorem exec_resolveAck (die : Nat) (k : Nat) (s : State) : exec (.resolveAck die k) s = execResolveAck die k s := rfl
theorem exec_discardAtOwner (die : Nat) (k : Nat) (s : State) : exec (.discardAtOwner die k) s = execDiscardAtOwner die k s := rfl
theorem exec_abortDelivery (die : Nat) (k : Nat) (s : State) : exec (.abortDelivery die k) s = execAbortDelivery die k s := rfl
theorem exec_regionInstantTest (die : Nat) (k : Nat) (s : State) : exec (.regionInstantTest die k) s = execRegionInstantTest die k s := rfl
theorem exec_regionWaitTimeout (die : Nat) (k : Nat) (s : State) : exec (.regionWaitTimeout die k) s = execRegionWaitTimeout die k s := rfl
theorem exec_boundaryClose (die : Nat) (r : Nat) (s : State) : exec (.boundaryClose die r) s = execBoundaryClose die r s := rfl
theorem exec_rectangleResetComplete (die : Nat) (r : Nat) (s : State) : exec (.rectangleResetComplete die r) s = execRectangleResetComplete die r s := rfl
theorem exec_containmentRelease (die : Nat) (r : Nat) (s : State) : exec (.containmentRelease die r) s = execContainmentRelease die r s := rfl
theorem exec_arecWrite (die : Nat) (r : Nat) (w : BitVec 32) (s : State) : exec (.arecWrite die r w) s = execArecWrite die r w s := rfl
theorem exec_oldComplete (ep : Nat) (s : State) : exec (.oldComplete ep) s = execOldComplete ep s := rfl
theorem exec_ardComplete (ep : Nat) (s : State) : exec (.ardComplete ep) s = execArdComplete ep s := rfl
theorem exec_awrComplete (ep : Nat) (s : State) : exec (.awrComplete ep) s = execAwrComplete ep s := rfl
theorem exec_mmaStart (ep : Nat) (s : State) : exec (.mmaStart ep) s = execMmaStart ep s := rfl
theorem exec_mmaKStep (ep : Nat) (s : State) : exec (.mmaKStep ep) s = execMmaKStep ep s := rfl
theorem exec_aclrApply (ep : Nat) (k : Nat) (s : State) : exec (.aclrApply ep k) s = execAclrApply ep k s := rfl
theorem exec_xfenceComplete (ep : Nat) (slot : Nat) (s : State) : exec (.xfenceComplete ep slot) s = execXfenceComplete ep slot s := rfl
theorem exec_linkFlitCrcFail (pkg : Nat) (port : Nat) (s : State) : exec (.linkFlitCrcFail pkg port) s = execLinkFlitCrcFail pkg port s := rfl
theorem exec_kblFlitCrcFail (pkg : Nat) (s : State) : exec (.kblFlitCrcFail pkg) s = execKblFlitCrcFail pkg s := rfl
theorem exec_timeSyncFlit (pkg : Nat) (master : BitVec 64) (s : State) : exec (.timeSyncFlit pkg master) s = execTimeSyncFlit pkg master s := rfl
theorem exec_powerGood (pkg : Nat) (s : State) : exec (.powerGood pkg) s = execPowerGood pkg s := rfl
theorem exec_kblTrained (pkg : Nat) (s : State) : exec (.kblTrained pkg) s = execKblTrained pkg s := rfl
theorem exec_bootGo (pkg : Nat) (s : State) : exec (.bootGo pkg) s = execBootGo pkg s := rfl
theorem exec_bootVerify (pkg : Nat) (s : State) : exec (.bootVerify pkg) s = execBootVerify pkg s := rfl
theorem exec_firmwareInitComplete (pkg : Nat) (now : BitVec 64) (links : List (Nat × Nat × Nat)) (regs : List (Nat × Nat)) (tables : List (Nat × Nat × Nat)) (s : State) : exec (.firmwareInitComplete pkg now links regs tables) s = execFirmwareInitComplete pkg now links regs tables s := rfl
theorem exec_attestationRequest (pkg : Nat) (w : BitVec 64) (s : State) : exec (.attestationRequest pkg w) s = execAttestationRequest pkg w s := rfl
theorem exec_attestationDone (pkg : Nat) (s : State) : exec (.attestationDone pkg) s = execAttestationDone pkg s := rfl
theorem exec_commitWrite (pkg : Nat) (w : BitVec 64) (s : State) : exec (.commitWrite pkg w) s = execCommitWrite pkg w s := rfl
theorem exec_commitComplete (pkg : Nat) (s : State) : exec (.commitComplete pkg) s = execCommitComplete pkg s := rfl
theorem exec_lostclrWrite (pkg : Nat) (w : BitVec 64) (s : State) : exec (.lostclrWrite pkg w) s = execLostclrWrite pkg w s := rfl
theorem exec_chstatWrite (ep : Nat) (w : BitVec 64) (s : State) : exec (.chstatWrite ep w) s = execChstatWrite ep w s := rfl
theorem exec_islctlWrite (pkg : Nat) (isl : Nat) (w : BitVec 32) (s : State) : exec (.islctlWrite pkg isl w) s = execIslctlWrite pkg isl w s := rfl
theorem exec_counterReadClear (pkg : Nat) (s : State) : exec (.counterReadClear pkg) s = execCounterReadClear pkg s := rfl
theorem exec_evreadWrite (pkg : Nat) (w : BitVec 64) (s : State) : exec (.evreadWrite pkg w) s = execEvreadWrite pkg w s := rfl
theorem exec_managementRegisterWrite (pkg : Nat) (off : Nat) (w : BitVec 64) (s : State) : exec (.managementRegisterWrite pkg off w) s = execManagementRegisterWrite pkg off w s := rfl
theorem exec_eventLogPlace (pkg : Nat) (k : Nat) (s : State) : exec (.eventLogPlace pkg k) s = execEventLogPlace pkg k s := rfl
theorem exec_eventGapTimeout (pkg : Nat) (s : State) : exec (.eventGapTimeout pkg) s = execEventGapTimeout pkg s := rfl
theorem exec_telemetrySample (pkg : Nat) (isl : Nat) (mv : Nat) (temp : Nat) (watts : Nat) (s : State) : exec (.telemetrySample pkg isl mv temp watts) s = execTelemetrySample pkg isl mv temp watts s := rfl
theorem exec_droopStretchStart (pkg : Nat) (isl : Nat) (sag : Nat) (s : State) : exec (.droopStretchStart pkg isl sag) s = execDroopStretchStart pkg isl sag s := rfl
theorem exec_droopStretchEnd (pkg : Nat) (isl : Nat) (sag : Nat) (s : State) : exec (.droopStretchEnd pkg isl sag) s = execDroopStretchEnd pkg isl sag s := rfl
theorem exec_instantUnitRequest (pkg : Nat) (s : State) : exec (.instantUnitRequest pkg) s = execInstantUnitRequest pkg s := rfl
theorem exec_exportNoticeAck (k : Nat) (s : State) : exec (.exportNoticeAck k) s = execExportNoticeAck k s := rfl
theorem exec_reservationReturn (k : Nat) (s : State) : exec (.reservationReturn k) s = execReservationReturn k s := rfl
theorem exec_swapImageWritten (ep : Nat) (slot : Nat) (s : State) : exec (.swapImageWritten ep slot) s = execSwapImageWritten ep slot s := rfl
theorem exec_timeSyncLost (pkg : Nat) (err : Nat) (s : State) : exec (.timeSyncLost pkg err) s = execTimeSyncLost pkg err s := rfl
theorem exec_powerLoss (pkg : Nat) (s : State) : exec (.powerLoss pkg) s = execPowerLoss pkg s := rfl

end Sys2Proof.Machine
end

