-- ==== Sys2Proof/Laws/Issue.lean ====
section
/-! SUPPORT. The issue of one instruction under its plain conditions, and what a thread's registers read after a write. -/

namespace Sys2Proof

open Sys2Proof.Machine

theorem guard_of {i : Instr} {tl op T : Nat} {gd : Guard} (he : encode i = (hd tl gd op, T)) (ho : op < 512) (ht : tl < 8) :
    i.guard = gd := by
  rw [Instr.guard, he]; exact Laws.RoundTrip.hd_guard tl op gd ho ht

theorem opOf_of {i : Instr} {tl op T : Nat} {gd : Guard} (he : encode i = (hd tl gd op, T)) (ho : op < 512) : opOf i = op := by
  rw [opOf, he]; exact Laws.RoundTrip.hd_op tl op gd ho

/-- What a slot lacks does not look at the tail, but for FCVT, VCVT and PUSH (R324, R88). -/
theorem lacks_tail {op : Nat} (h : op ≠ 0x10A ∧ op ≠ 0x15A ∧ op ≠ 0x1A0) (k : CoreKind) (v p : Bool) (T T' : Nat) :
    lacks k v p op T = lacks k v p op T' := by
  have h1 : (op == 0x10A) = false := beq_eq_false_iff_ne.2 h.1
  have h2 : (op == 0x15A) = false := beq_eq_false_iff_ne.2 h.2.1
  have h3 : (op == 0x1A0) = false := beq_eq_false_iff_ne.2 h.2.2
  cases k <;> simp only [lacks, h1, h2, h3, Bool.false_and]

/-- An instruction that issues by itself comes to its own effect: outside a region, or where a region allows it. -/
theorem issue_next {i : Instr} {s : State} {u : Turn} {t : Thread} {m : Meta} {gd : Guard} {tl op T : Nat}
    {body : Turn → Thread → State → State} (h : Issues s u t i) (he : encode i = (hd tl gd op, T)) (hop : m.op = op) (ho : op < 512)
    (ht : tl < 8) (hl : ∀ k v p, lacks k v p op T = lacks k v p op m.tail) (hr : t.region = none ∨ m.illegal = false) :
    issue m gd s body = .next (body u t s) := by
  subst hop
  have hg := guard_of he ho ht
  have h1 := h.has
  rw [opOf_of he ho, he, hl, h.single, Option.isSome_none] at h1
  have h2 := h.guardOk
  have h3 := h.passes
  rw [hg] at h2 h3
  have h4 : (m.illegal && t.region.any fun r => r.abort.isNone || m.op == 0x0E8) = false := by
    rcases hr with hr | hr <;> simp [hr]
  simp only [issue, h.turn, h.thread, h2, h3, h.calm, h.single, h4, h1, Option.isSome_none, Bool.false_and, Bool.not_true,
    Bool.false_eq_true, if_false]

/-- A table changed at a key by two functions that agree on what stands there. -/
theorem tmod_congr {α : Type} {k : Nat} {f g : α → α} {t : Table α} {x : α} (hx : tget t k = some x) (h : f x = g x) :
    tmod k f t = tmod k g t := by
  induction t with
  | nil => rfl
  | cons y r ih =>
    obtain ⟨j, y⟩ := y
    by_cases hj : j = k
    · simp only [tget, hj, beq_self_eq_true, if_true, Option.some.injEq] at hx
      simp only [tmod, hj, beq_self_eq_true, if_true, hx, h]
    · have hj' : (j == k) = false := beq_eq_false_iff_ne.2 hj
      simp only [tget, hj', Bool.false_eq_true, if_false] at hx
      simp only [tmod, hj', Bool.false_eq_true, if_false, ih hx]

/-- A thread changed by two functions that agree on it. -/
theorem modThr_congr {s : State} {e : EP} {n : Nat} {t : Thread} {f g : Thread → Thread} (ht : s.thr? e n = some t) (h : f t = g t) :
    s.modThr e n f = s.modThr e n g := by
  simp only [State.thr?] at ht
  simp only [State.modThr, State.modCore]
  cases hc : tget s.cores e with
  | none => rw [hc] at ht; simp at ht
  | some c =>
    rw [hc] at ht
    rw [tmod_congr hc]
    simp only [Option.bind_some] at ht
    rw [tmod_congr ht h]

/-- A thread that is left as it is. -/
theorem modThr_id (s : State) (e : EP) (n : Nat) : s.modThr e n id = s := by
  have h : ∀ {α : Type} (k : Nat) (f : α → α) (t : Table α), (∀ x, f x = x) → tmod k f t = t := by
    intro α k f t hf
    induction t with
    | nil => rfl
    | cons y r ih =>
      obtain ⟨j, y⟩ := y
      by_cases hj : (j == k) = true
      · simp only [tmod, hj, if_true, hf]
      · rw [tmod, if_neg hj, ih]
  simp only [State.modThr, State.modCore]
  rw [h]
  intro c
  rw [h]
  intro t
  rfl

theorem retire_congr {s : State} {u : Turn} {t : Thread} {f g : Thread → Thread} (ht : s.thr? u.ep u.slot = some t) (h : f t = g t) :
    s.retire u f = s.retire u g := by
  simp only [State.retire]
  rw [modThr_congr ht (by rw [h])]

/-- An instruction that changes registers alone completes, whether or not a region is open. -/
theorem pure_next {i : Instr} {s : State} {u : Turn} {t : Thread} {m : Meta} {gd : Guard} {tl op T : Nat} {f g : Thread → Thread}
    (h : Issues s u t i) (he : encode i = (hd tl gd op, T)) (hop : m.op = op) (ho : op < 512) (ht : tl < 8)
    (hl : ∀ k v p, lacks k v p op T = lacks k v p op m.tail) (hr : m.illegal = false) (hf : f t = g t) :
    pure_ m gd s f = .next (s.retire u g) := by
  rw [pure_, issue_next h he hop ho ht hl (Or.inr hr), retire_congr h.thread hf]

end Sys2Proof
end

