-- ==== Sys2Proof/Laws/Memory.lean ====
section
/-! SUPPORT. The byte memories: every write keeps the canonical form, and a read after a write. -/

namespace Sys2Proof.Machine

/-- A bound that is below one below which a canonical memory starts. -/
theorem Memory.above_mono {m : Memory} {a b : Nat} (h : a ≤ b) (hm : Memory.above (some b) m = true) :
    Memory.above (some a) m = true := by
  cases m with
  | nil => rfl
  | cons x r =>
    simp only [Memory.above, Bool.and_eq_true, decide_eq_true_eq] at hm ⊢
    exact ⟨⟨by omega, hm.1.2⟩, hm.2⟩

theorem Memory.above_none {m : Memory} {b : Nat} (hm : Memory.above (some b) m = true) : Memory.above none m = true := by
  cases m with
  | nil => rfl
  | cons x r => simp only [Memory.above, Bool.and_eq_true, Bool.true_and] at hm ⊢; exact ⟨hm.1.2, hm.2⟩

/-- A byte written above a bound keeps a memory that lies above it. -/
theorem mput_above {m : Memory} {lo a : Nat} {b : BitVec 8} (h : lo < a) (hm : Memory.above (some lo) m = true) :
    Memory.above (some lo) (mput a b m) = true := by
  induction m generalizing lo with
  | nil => simp only [mput]; split <;> simp_all [Memory.above]
  | cons x r ih =>
    obtain ⟨j, c⟩ := x
    simp only [Memory.above, Bool.and_eq_true, decide_eq_true_eq] at hm
    obtain ⟨⟨h1, h2⟩, h3⟩ := hm
    simp only [mput]
    split
    · rename_i e
      split
      · exact Memory.above_mono (by omega) h3
      · rename_i nb; rw [beq_iff_eq] at e; subst e; simp_all [Memory.above]
    · split
      · split
        · simp_all [Memory.above]
        · simp_all [Memory.above]
      · rename_i ne nl
        simp only [Memory.above, Bool.and_eq_true, decide_eq_true_eq]
        refine ⟨⟨h1, h2⟩, ih ?_ h3⟩
        simp only [beq_iff_eq] at ne; omega

/-- A byte written keeps the canonical form. -/
theorem mput_wf {m : Memory} (a : Nat) (b : BitVec 8) (hm : Memory.wf m = true) : Memory.wf (mput a b m) = true := by
  unfold Memory.wf at *
  cases m with
  | nil => simp only [mput]; split <;> simp_all [Memory.above]
  | cons x r =>
    obtain ⟨j, c⟩ := x
    simp only [Memory.above, Bool.and_eq_true, Bool.true_and] at hm
    obtain ⟨h2, h3⟩ := hm
    simp only [mput]
    split
    · split
      · exact Memory.above_none h3
      · rename_i e _; rw [beq_iff_eq] at e; subst e; simp_all [Memory.above]
    · split
      · split <;> simp_all [Memory.above]
      · rename_i ne nl
        simp only [Memory.above, Bool.and_eq_true, Bool.true_and]
        refine ⟨h2, mput_above ?_ h3⟩
        simp only [beq_iff_eq] at ne; omega

/-- A list of bytes written keeps the canonical form. -/
theorem mputs_wf {m : Memory} (a : Nat) (bs : List (BitVec 8)) (hm : Memory.wf m = true) : Memory.wf (mputs a bs m) = true := by
  induction bs generalizing a m with
  | nil => exact hm
  | cons b bs ih => exact ih _ (mput_wf a b hm)

/-- A number written keeps the canonical form. -/
theorem mwrite_wf {m : Memory} (a n v : Nat) (hm : Memory.wf m = true) : Memory.wf (mwrite m a n v) = true := by
  induction n generalizing a m v with
  | zero => exact hm
  | succ n ih => exact ih _ _ (mput_wf a _ hm)

/-- A part of a canonical memory is canonical, and stands above what the whole stands above. -/
theorem filter_above {m : Memory} (lo : Option Nat) (p : Host.Cell → Bool) (hm : Memory.above lo m = true) :
    Memory.above lo (m.filter p) = true := by
  induction m generalizing lo with
  | nil => rfl
  | cons x r ih =>
    obtain ⟨j, c⟩ := x
    simp only [Memory.above, Bool.and_eq_true] at hm
    simp only [List.filter_cons]
    split
    · simp only [Memory.above, Bool.and_eq_true]; exact ⟨hm.1, ih _ hm.2⟩
    · refine ih _ ?_
      cases lo with
      | none => exact Memory.above_none hm.2
      | some a => exact Memory.above_mono (by simpa using Nat.le_of_lt (by simpa using hm.1.1)) hm.2

theorem filter_wf {m : Memory} (p : Host.Cell → Bool) (hm : Memory.wf m = true) : Memory.wf (m.filter p) = true :=
  filter_above none p hm

/-- A range cleared keeps the canonical form. -/
theorem mclear_wf {m : Memory} (a n : Nat) (hm : Memory.wf m = true) : Memory.wf (mclear m a n) = true := filter_wf _ hm

/-- Below its bound a canonical memory reads 0. -/
theorem mget_above {m : Memory} {lo a : Nat} (hm : Memory.above (some lo) m = true) (h : a ≤ lo) : mget m a = 0 := by
  induction m generalizing lo with
  | nil => rfl
  | cons x r ih =>
    obtain ⟨j, c⟩ := x
    simp only [Memory.above, Bool.and_eq_true, decide_eq_true_eq] at hm
    have hj : (j == a) = false := by simp; omega
    simp only [mget, hj]
    exact ih hm.2 (by omega)

/-- A byte reads back as written. -/
theorem mget_mput_same {m : Memory} (a : Nat) (b : BitVec 8) (hm : Memory.wf m = true) : mget (mput a b m) a = b := by
  have gen : ∀ (m : Memory) (lo : Option Nat), Memory.above lo m = true → mget (mput a b m) a = b := by
    intro m
    induction m with
    | nil => intro lo _; simp only [mput]; split <;> simp_all [mget]
    | cons x r ih =>
      intro lo hm
      obtain ⟨j, c⟩ := x
      simp only [Memory.above, Bool.and_eq_true] at hm
      simp only [mput]
      split
      · rename_i e
        rw [beq_iff_eq] at e
        split
        · rename_i z; rw [beq_iff_eq] at z; rw [z]; exact mget_above hm.2 (by omega)
        · simp [mget]
      · split
        · rename_i ne lt
          split
          · rename_i z; rw [beq_iff_eq] at z; simp only [mget, ne]
            rw [z]; exact mget_above hm.2 (by omega)
          · simp [mget]
        · rename_i ne _; simp only [mget, ne]; exact ih _ hm.2
  exact gen m none hm

/-- A byte written leaves every other byte. -/
theorem mget_mput_other (m : Memory) {a x : Nat} (b : BitVec 8) (h : x ≠ a) : mget (mput a b m) x = mget m x := by
  have hb : (a == x) = false := by simp; omega
  induction m with
  | nil => simp only [mput]; split <;> simp [mget, hb]
  | cons y r ih =>
    obtain ⟨j, c⟩ := y
    simp only [mput]
    split
    · rename_i e
      rw [beq_iff_eq] at e; subst e
      split <;> simp [mget, hb]
    · split
      · split <;> simp [mget, hb]
      · simp only [mget, ih]

/-- Bytes written leave every byte outside them. -/
theorem mget_mputs_other (m : Memory) {a x : Nat} (bs : List (BitVec 8)) (h : x < a ∨ a + bs.length ≤ x) :
    mget (mputs a bs m) x = mget m x := by
  induction bs generalizing a m with
  | nil => rfl
  | cons b bs ih =>
    simp only [List.length_cons] at h
    simp only [mputs]
    rw [ih _ (by omega), mget_mput_other _ _ (by omega)]

/-- A number written leaves every byte outside it. -/
theorem mget_mwrite_other (m : Memory) {a x : Nat} (n v : Nat) (h : x < a ∨ a + n ≤ x) : mget (mwrite m a n v) x = mget m x := by
  induction n generalizing a m v with
  | zero => rfl
  | succ n ih =>
    simp only [mwrite]
    rw [ih _ _ (by omega), mget_mput_other _ _ (by omega)]

/-- A number reads back as written, cut to its bytes. -/
theorem mread_mwrite (m : Memory) (a n v : Nat) (hm : Memory.wf m = true) : mread (mwrite m a n v) a n = v % 256 ^ n := by
  induction n generalizing a m v with
  | zero => simp [mread, Nat.mod_one]
  | succ n ih =>
    simp only [mread, mwrite]
    rw [ih _ _ _ (mput_wf a _ hm), mget_mwrite_other _ _ _ (by omega), mget_mput_same _ _ hm]
    have h : 256 ^ (n + 1) = 256 * 256 ^ n := (Nat.pow_succ ..).trans (Nat.mul_comm ..)
    rw [h, Nat.mod_mul, BitVec.toNat_ofNat]

end Sys2Proof.Machine
end

