-- ==== Sys2Proof/Laws/Tables.lean ====
section
/-! SUPPORT. The sparse tables: a value read after one was put, deleted or changed. -/

namespace Sys2Proof.Machine

variable {α : Type}

@[simp] theorem tget_tput_same (k : Nat) (x : α) (t : Table α) : tget (tput k x t) k = some x := by
  induction t with
  | nil => simp [tput, tget]
  | cons y r ih => obtain ⟨j, y⟩ := y; simp only [tput]; split <;> (try split) <;> simp_all [tget]

theorem tget_tput_other {k i : Nat} (x : α) (t : Table α) (h : i ≠ k) : tget (tput k x t) i = tget t i := by
  have hb : (k == i) = false := by simp; omega
  induction t with
  | nil => simp [tput, tget, hb]
  | cons y r ih =>
    obtain ⟨j, y⟩ := y
    simp only [tput]
    split
    · rename_i e; rw [beq_iff_eq] at e; subst e; simp [tget, hb]
    · split <;> simp_all [tget]

@[simp] theorem tget_tmod_same (k : Nat) (f : α → α) (t : Table α) : tget (tmod k f t) k = (tget t k).map f := by
  induction t with
  | nil => rfl
  | cons y r ih => obtain ⟨j, y⟩ := y; simp only [tmod]; split <;> simp_all [tget]

theorem tget_tmod_other {k i : Nat} (f : α → α) (t : Table α) (h : i ≠ k) : tget (tmod k f t) i = tget t i := by
  have hb : (k == i) = false := by simp; omega
  induction t with
  | nil => rfl
  | cons y r ih =>
    obtain ⟨j, y⟩ := y
    simp only [tmod]
    split
    · rename_i e; rw [beq_iff_eq] at e; subst e; simp [tget, hb]
    · simp only [tget, ih]

/-- What holds of every value of a table holds of every value of it with one changed to keep it. -/
theorem tmod_all {p : α → Bool} {k : Nat} {f : α → α} {t : Table α} (hf : ∀ x, p x = true → p (f x) = true)
    (h : t.all (fun x => p x.2) = true) : (tmod k f t).all (fun x => p x.2) = true := by
  induction t with
  | nil => rfl
  | cons y r ih =>
    obtain ⟨j, y⟩ := y
    simp only [List.all_cons, Bool.and_eq_true] at h
    simp only [tmod]
    split <;> simp only [List.all_cons, Bool.and_eq_true]
    · exact ⟨hf _ h.1, h.2⟩
    · exact ⟨h.1, ih h.2⟩

theorem tput_all {p : α → Bool} {k : Nat} {x : α} {t : Table α} (hx : p x = true)
    (h : t.all (fun x => p x.2) = true) : (tput k x t).all (fun x => p x.2) = true := by
  induction t with
  | nil => simp [tput, hx]
  | cons y r ih =>
    obtain ⟨j, y⟩ := y
    simp only [List.all_cons, Bool.and_eq_true] at h
    simp only [tput]
    split
    · simp only [List.all_cons, Bool.and_eq_true]; exact ⟨hx, h.2⟩
    · split
      · simp only [List.all_cons, Bool.and_eq_true]; exact ⟨hx, h⟩
      · simp only [List.all_cons, Bool.and_eq_true]; exact ⟨h.1, ih h.2⟩

theorem tget_all {p : α → Bool} {k : Nat} {x : α} {t : Table α} (h : t.all (fun x => p x.2) = true) (hx : tget t k = some x) :
    p x = true := by
  induction t with
  | nil => simp [tget] at hx
  | cons y r ih =>
    obtain ⟨j, y⟩ := y
    simp only [List.all_cons, Bool.and_eq_true] at h
    simp only [tget] at hx
    split at hx
    · simp_all
    · exact ih h.2 hx

end Sys2Proof.Machine
end

