-- ==== Sys2Proof/Laws/State.lean ====
section
/-! SUPPORT. The state: each field after each update (true by rfl), and what the accessors read after one. -/

namespace Sys2Proof.Machine

@[simp] theorem modPkg_dies (s : State) (i : Nat) (f : Pkg → Pkg) : (s.modPkg i f).dies = s.dies := rfl
@[simp] theorem modPkg_clusters (s : State) (i : Nat) (f : Pkg → Pkg) : (s.modPkg i f).clusters = s.clusters := rfl
@[simp] theorem modPkg_cores (s : State) (i : Nat) (f : Pkg → Pkg) : (s.modPkg i f).cores = s.cores := rfl
@[simp] theorem modPkg_dram (s : State) (i : Nat) (f : Pkg → Pkg) : (s.modPkg i f).dram = s.dram := rfl
@[simp] theorem modPkg_check (s : State) (i : Nat) (f : Pkg → Pkg) : (s.modPkg i f).check = s.check := rfl
@[simp] theorem modPkg_net (s : State) (i : Nat) (f : Pkg → Pkg) : (s.modPkg i f).net = s.net := rfl
@[simp] theorem modPkg_ctl (s : State) (i : Nat) (f : Pkg → Pkg) : (s.modPkg i f).ctl = s.ctl := rfl
@[simp] theorem modPkg_cmds (s : State) (i : Nat) (f : Pkg → Pkg) : (s.modPkg i f).cmds = s.cmds := rfl
@[simp] theorem modPkg_host (s : State) (i : Nat) (f : Pkg → Pkg) : (s.modPkg i f).host = s.host := rfl
@[simp] theorem modPkg_turn (s : State) (i : Nat) (f : Pkg → Pkg) : (s.modPkg i f).turn = s.turn := rfl
@[simp] theorem modPkg_agenda (s : State) (i : Nat) (f : Pkg → Pkg) : (s.modPkg i f).agenda = s.agenda := rfl
@[simp] theorem modPkg_nextUid (s : State) (i : Nat) (f : Pkg → Pkg) : (s.modPkg i f).nextUid = s.nextUid := rfl
@[simp] theorem modPkg_free (s : State) (i : Nat) (f : Pkg → Pkg) : (s.modPkg i f).free = s.free := rfl
@[simp] theorem modBridge_dies (s : State) (i : Nat) (f : Bridge → Bridge) : (s.modBridge i f).dies = s.dies := rfl
@[simp] theorem modBridge_clusters (s : State) (i : Nat) (f : Bridge → Bridge) : (s.modBridge i f).clusters = s.clusters := rfl
@[simp] theorem modBridge_cores (s : State) (i : Nat) (f : Bridge → Bridge) : (s.modBridge i f).cores = s.cores := rfl
@[simp] theorem modBridge_dram (s : State) (i : Nat) (f : Bridge → Bridge) : (s.modBridge i f).dram = s.dram := rfl
@[simp] theorem modBridge_check (s : State) (i : Nat) (f : Bridge → Bridge) : (s.modBridge i f).check = s.check := rfl
@[simp] theorem modBridge_net (s : State) (i : Nat) (f : Bridge → Bridge) : (s.modBridge i f).net = s.net := rfl
@[simp] theorem modBridge_ctl (s : State) (i : Nat) (f : Bridge → Bridge) : (s.modBridge i f).ctl = s.ctl := rfl
@[simp] theorem modBridge_cmds (s : State) (i : Nat) (f : Bridge → Bridge) : (s.modBridge i f).cmds = s.cmds := rfl
@[simp] theorem modBridge_host (s : State) (i : Nat) (f : Bridge → Bridge) : (s.modBridge i f).host = s.host := rfl
@[simp] theorem modBridge_turn (s : State) (i : Nat) (f : Bridge → Bridge) : (s.modBridge i f).turn = s.turn := rfl
@[simp] theorem modBridge_agenda (s : State) (i : Nat) (f : Bridge → Bridge) : (s.modBridge i f).agenda = s.agenda := rfl
@[simp] theorem modBridge_nextUid (s : State) (i : Nat) (f : Bridge → Bridge) : (s.modBridge i f).nextUid = s.nextUid := rfl
@[simp] theorem modBridge_free (s : State) (i : Nat) (f : Bridge → Bridge) : (s.modBridge i f).free = s.free := rfl
@[simp] theorem modQueue_dies (s : State) (i q : Nat) (f : QState → QState) : (s.modQueue i q f).dies = s.dies := rfl
@[simp] theorem modQueue_clusters (s : State) (i q : Nat) (f : QState → QState) : (s.modQueue i q f).clusters = s.clusters := rfl
@[simp] theorem modQueue_cores (s : State) (i q : Nat) (f : QState → QState) : (s.modQueue i q f).cores = s.cores := rfl
@[simp] theorem modQueue_dram (s : State) (i q : Nat) (f : QState → QState) : (s.modQueue i q f).dram = s.dram := rfl
@[simp] theorem modQueue_check (s : State) (i q : Nat) (f : QState → QState) : (s.modQueue i q f).check = s.check := rfl
@[simp] theorem modQueue_net (s : State) (i q : Nat) (f : QState → QState) : (s.modQueue i q f).net = s.net := rfl
@[simp] theorem modQueue_ctl (s : State) (i q : Nat) (f : QState → QState) : (s.modQueue i q f).ctl = s.ctl := rfl
@[simp] theorem modQueue_cmds (s : State) (i q : Nat) (f : QState → QState) : (s.modQueue i q f).cmds = s.cmds := rfl
@[simp] theorem modQueue_host (s : State) (i q : Nat) (f : QState → QState) : (s.modQueue i q f).host = s.host := rfl
@[simp] theorem modQueue_turn (s : State) (i q : Nat) (f : QState → QState) : (s.modQueue i q f).turn = s.turn := rfl
@[simp] theorem modQueue_agenda (s : State) (i q : Nat) (f : QState → QState) : (s.modQueue i q f).agenda = s.agenda := rfl
@[simp] theorem modQueue_nextUid (s : State) (i q : Nat) (f : QState → QState) : (s.modQueue i q f).nextUid = s.nextUid := rfl
@[simp] theorem modQueue_free (s : State) (i q : Nat) (f : QState → QState) : (s.modQueue i q f).free = s.free := rfl
@[simp] theorem modIsland_dies (s : State) (i k : Nat) (f : Island → Island) : (s.modIsland i k f).dies = s.dies := rfl
@[simp] theorem modIsland_clusters (s : State) (i k : Nat) (f : Island → Island) : (s.modIsland i k f).clusters = s.clusters := rfl
@[simp] theorem modIsland_cores (s : State) (i k : Nat) (f : Island → Island) : (s.modIsland i k f).cores = s.cores := rfl
@[simp] theorem modIsland_dram (s : State) (i k : Nat) (f : Island → Island) : (s.modIsland i k f).dram = s.dram := rfl
@[simp] theorem modIsland_check (s : State) (i k : Nat) (f : Island → Island) : (s.modIsland i k f).check = s.check := rfl
@[simp] theorem modIsland_net (s : State) (i k : Nat) (f : Island → Island) : (s.modIsland i k f).net = s.net := rfl
@[simp] theorem modIsland_ctl (s : State) (i k : Nat) (f : Island → Island) : (s.modIsland i k f).ctl = s.ctl := rfl
@[simp] theorem modIsland_cmds (s : State) (i k : Nat) (f : Island → Island) : (s.modIsland i k f).cmds = s.cmds := rfl
@[simp] theorem modIsland_host (s : State) (i k : Nat) (f : Island → Island) : (s.modIsland i k f).host = s.host := rfl
@[simp] theorem modIsland_turn (s : State) (i k : Nat) (f : Island → Island) : (s.modIsland i k f).turn = s.turn := rfl
@[simp] theorem modIsland_agenda (s : State) (i k : Nat) (f : Island → Island) : (s.modIsland i k f).agenda = s.agenda := rfl
@[simp] theorem modIsland_nextUid (s : State) (i k : Nat) (f : Island → Island) : (s.modIsland i k f).nextUid = s.nextUid := rfl
@[simp] theorem modIsland_free (s : State) (i k : Nat) (f : Island → Island) : (s.modIsland i k f).free = s.free := rfl
@[simp] theorem modDie_pkgs (s : State) (k : Nat) (f : Die → Die) : (s.modDie k f).pkgs = s.pkgs := rfl
@[simp] theorem modDie_clusters (s : State) (k : Nat) (f : Die → Die) : (s.modDie k f).clusters = s.clusters := rfl
@[simp] theorem modDie_cores (s : State) (k : Nat) (f : Die → Die) : (s.modDie k f).cores = s.cores := rfl
@[simp] theorem modDie_dram (s : State) (k : Nat) (f : Die → Die) : (s.modDie k f).dram = s.dram := rfl
@[simp] theorem modDie_check (s : State) (k : Nat) (f : Die → Die) : (s.modDie k f).check = s.check := rfl
@[simp] theorem modDie_net (s : State) (k : Nat) (f : Die → Die) : (s.modDie k f).net = s.net := rfl
@[simp] theorem modDie_ctl (s : State) (k : Nat) (f : Die → Die) : (s.modDie k f).ctl = s.ctl := rfl
@[simp] theorem modDie_cmds (s : State) (k : Nat) (f : Die → Die) : (s.modDie k f).cmds = s.cmds := rfl
@[simp] theorem modDie_host (s : State) (k : Nat) (f : Die → Die) : (s.modDie k f).host = s.host := rfl
@[simp] theorem modDie_turn (s : State) (k : Nat) (f : Die → Die) : (s.modDie k f).turn = s.turn := rfl
@[simp] theorem modDie_agenda (s : State) (k : Nat) (f : Die → Die) : (s.modDie k f).agenda = s.agenda := rfl
@[simp] theorem modDie_nextUid (s : State) (k : Nat) (f : Die → Die) : (s.modDie k f).nextUid = s.nextUid := rfl
@[simp] theorem modDie_free (s : State) (k : Nat) (f : Die → Die) : (s.modDie k f).free = s.free := rfl
@[simp] theorem modCluster_pkgs (s : State) (k : Nat) (f : Cluster → Cluster) : (s.modCluster k f).pkgs = s.pkgs := rfl
@[simp] theorem modCluster_dies (s : State) (k : Nat) (f : Cluster → Cluster) : (s.modCluster k f).dies = s.dies := rfl
@[simp] theorem modCluster_cores (s : State) (k : Nat) (f : Cluster → Cluster) : (s.modCluster k f).cores = s.cores := rfl
@[simp] theorem modCluster_dram (s : State) (k : Nat) (f : Cluster → Cluster) : (s.modCluster k f).dram = s.dram := rfl
@[simp] theorem modCluster_check (s : State) (k : Nat) (f : Cluster → Cluster) : (s.modCluster k f).check = s.check := rfl
@[simp] theorem modCluster_net (s : State) (k : Nat) (f : Cluster → Cluster) : (s.modCluster k f).net = s.net := rfl
@[simp] theorem modCluster_ctl (s : State) (k : Nat) (f : Cluster → Cluster) : (s.modCluster k f).ctl = s.ctl := rfl
@[simp] theorem modCluster_cmds (s : State) (k : Nat) (f : Cluster → Cluster) : (s.modCluster k f).cmds = s.cmds := rfl
@[simp] theorem modCluster_host (s : State) (k : Nat) (f : Cluster → Cluster) : (s.modCluster k f).host = s.host := rfl
@[simp] theorem modCluster_turn (s : State) (k : Nat) (f : Cluster → Cluster) : (s.modCluster k f).turn = s.turn := rfl
@[simp] theorem modCluster_agenda (s : State) (k : Nat) (f : Cluster → Cluster) : (s.modCluster k f).agenda = s.agenda := rfl
@[simp] theorem modCluster_nextUid (s : State) (k : Nat) (f : Cluster → Cluster) : (s.modCluster k f).nextUid = s.nextUid := rfl
@[simp] theorem modCluster_free (s : State) (k : Nat) (f : Cluster → Cluster) : (s.modCluster k f).free = s.free := rfl
@[simp] theorem modCore_pkgs (s : State) (e : EP) (f : Core → Core) : (s.modCore e f).pkgs = s.pkgs := rfl
@[simp] theorem modCore_dies (s : State) (e : EP) (f : Core → Core) : (s.modCore e f).dies = s.dies := rfl
@[simp] theorem modCore_clusters (s : State) (e : EP) (f : Core → Core) : (s.modCore e f).clusters = s.clusters := rfl
@[simp] theorem modCore_dram (s : State) (e : EP) (f : Core → Core) : (s.modCore e f).dram = s.dram := rfl
@[simp] theorem modCore_check (s : State) (e : EP) (f : Core → Core) : (s.modCore e f).check = s.check := rfl
@[simp] theorem modCore_net (s : State) (e : EP) (f : Core → Core) : (s.modCore e f).net = s.net := rfl
@[simp] theorem modCore_ctl (s : State) (e : EP) (f : Core → Core) : (s.modCore e f).ctl = s.ctl := rfl
@[simp] theorem modCore_cmds (s : State) (e : EP) (f : Core → Core) : (s.modCore e f).cmds = s.cmds := rfl
@[simp] theorem modCore_host (s : State) (e : EP) (f : Core → Core) : (s.modCore e f).host = s.host := rfl
@[simp] theorem modCore_turn (s : State) (e : EP) (f : Core → Core) : (s.modCore e f).turn = s.turn := rfl
@[simp] theorem modCore_agenda (s : State) (e : EP) (f : Core → Core) : (s.modCore e f).agenda = s.agenda := rfl
@[simp] theorem modCore_nextUid (s : State) (e : EP) (f : Core → Core) : (s.modCore e f).nextUid = s.nextUid := rfl
@[simp] theorem modCore_free (s : State) (e : EP) (f : Core → Core) : (s.modCore e f).free = s.free := rfl
@[simp] theorem modThr_pkgs (s : State) (e : EP) (n : Nat) (f : Thread → Thread) : (s.modThr e n f).pkgs = s.pkgs := rfl
@[simp] theorem modThr_dies (s : State) (e : EP) (n : Nat) (f : Thread → Thread) : (s.modThr e n f).dies = s.dies := rfl
@[simp] theorem modThr_clusters (s : State) (e : EP) (n : Nat) (f : Thread → Thread) : (s.modThr e n f).clusters = s.clusters := rfl
@[simp] theorem modThr_dram (s : State) (e : EP) (n : Nat) (f : Thread → Thread) : (s.modThr e n f).dram = s.dram := rfl
@[simp] theorem modThr_check (s : State) (e : EP) (n : Nat) (f : Thread → Thread) : (s.modThr e n f).check = s.check := rfl
@[simp] theorem modThr_net (s : State) (e : EP) (n : Nat) (f : Thread → Thread) : (s.modThr e n f).net = s.net := rfl
@[simp] theorem modThr_ctl (s : State) (e : EP) (n : Nat) (f : Thread → Thread) : (s.modThr e n f).ctl = s.ctl := rfl
@[simp] theorem modThr_cmds (s : State) (e : EP) (n : Nat) (f : Thread → Thread) : (s.modThr e n f).cmds = s.cmds := rfl
@[simp] theorem modThr_host (s : State) (e : EP) (n : Nat) (f : Thread → Thread) : (s.modThr e n f).host = s.host := rfl
@[simp] theorem modThr_turn (s : State) (e : EP) (n : Nat) (f : Thread → Thread) : (s.modThr e n f).turn = s.turn := rfl
@[simp] theorem modThr_agenda (s : State) (e : EP) (n : Nat) (f : Thread → Thread) : (s.modThr e n f).agenda = s.agenda := rfl
@[simp] theorem modThr_nextUid (s : State) (e : EP) (n : Nat) (f : Thread → Thread) : (s.modThr e n f).nextUid = s.nextUid := rfl
@[simp] theorem modThr_free (s : State) (e : EP) (n : Nat) (f : Thread → Thread) : (s.modThr e n f).free = s.free := rfl
@[simp] theorem vacate_pkgs (s : State) (e : EP) (n : Nat) : (s.vacate e n).pkgs = s.pkgs := rfl
@[simp] theorem vacate_dies (s : State) (e : EP) (n : Nat) : (s.vacate e n).dies = s.dies := rfl
@[simp] theorem vacate_clusters (s : State) (e : EP) (n : Nat) : (s.vacate e n).clusters = s.clusters := rfl
@[simp] theorem vacate_dram (s : State) (e : EP) (n : Nat) : (s.vacate e n).dram = s.dram := rfl
@[simp] theorem vacate_check (s : State) (e : EP) (n : Nat) : (s.vacate e n).check = s.check := rfl
@[simp] theorem vacate_net (s : State) (e : EP) (n : Nat) : (s.vacate e n).net = s.net := rfl
@[simp] theorem vacate_ctl (s : State) (e : EP) (n : Nat) : (s.vacate e n).ctl = s.ctl := rfl
@[simp] theorem vacate_cmds (s : State) (e : EP) (n : Nat) : (s.vacate e n).cmds = s.cmds := rfl
@[simp] theorem vacate_host (s : State) (e : EP) (n : Nat) : (s.vacate e n).host = s.host := rfl
@[simp] theorem vacate_turn (s : State) (e : EP) (n : Nat) : (s.vacate e n).turn = s.turn := rfl
@[simp] theorem vacate_agenda (s : State) (e : EP) (n : Nat) : (s.vacate e n).agenda = s.agenda := rfl
@[simp] theorem vacate_nextUid (s : State) (e : EP) (n : Nat) : (s.vacate e n).nextUid = s.nextUid := rfl
@[simp] theorem vacate_free (s : State) (e : EP) (n : Nat) : (s.vacate e n).free = s.free := rfl
@[simp] theorem noTurn_pkgs (s : State) : (s.noTurn).pkgs = s.pkgs := rfl
@[simp] theorem noTurn_dies (s : State) : (s.noTurn).dies = s.dies := rfl
@[simp] theorem noTurn_clusters (s : State) : (s.noTurn).clusters = s.clusters := rfl
@[simp] theorem noTurn_cores (s : State) : (s.noTurn).cores = s.cores := rfl
@[simp] theorem noTurn_dram (s : State) : (s.noTurn).dram = s.dram := rfl
@[simp] theorem noTurn_check (s : State) : (s.noTurn).check = s.check := rfl
@[simp] theorem noTurn_net (s : State) : (s.noTurn).net = s.net := rfl
@[simp] theorem noTurn_ctl (s : State) : (s.noTurn).ctl = s.ctl := rfl
@[simp] theorem noTurn_cmds (s : State) : (s.noTurn).cmds = s.cmds := rfl
@[simp] theorem noTurn_host (s : State) : (s.noTurn).host = s.host := rfl
@[simp] theorem noTurn_agenda (s : State) : (s.noTurn).agenda = s.agenda := rfl
@[simp] theorem noTurn_nextUid (s : State) : (s.noTurn).nextUid = s.nextUid := rfl
@[simp] theorem noTurn_free (s : State) : (s.noTurn).free = s.free := rfl
@[simp] theorem event_dies (s : State) (p k a e n : Nat) (d : Word) : (s.event p k a e n d).dies = s.dies := rfl
@[simp] theorem event_clusters (s : State) (p k a e n : Nat) (d : Word) : (s.event p k a e n d).clusters = s.clusters := rfl
@[simp] theorem event_cores (s : State) (p k a e n : Nat) (d : Word) : (s.event p k a e n d).cores = s.cores := rfl
@[simp] theorem event_dram (s : State) (p k a e n : Nat) (d : Word) : (s.event p k a e n d).dram = s.dram := rfl
@[simp] theorem event_check (s : State) (p k a e n : Nat) (d : Word) : (s.event p k a e n d).check = s.check := rfl
@[simp] theorem event_net (s : State) (p k a e n : Nat) (d : Word) : (s.event p k a e n d).net = s.net := rfl
@[simp] theorem event_ctl (s : State) (p k a e n : Nat) (d : Word) : (s.event p k a e n d).ctl = s.ctl := rfl
@[simp] theorem event_cmds (s : State) (p k a e n : Nat) (d : Word) : (s.event p k a e n d).cmds = s.cmds := rfl
@[simp] theorem event_host (s : State) (p k a e n : Nat) (d : Word) : (s.event p k a e n d).host = s.host := rfl
@[simp] theorem event_turn (s : State) (p k a e n : Nat) (d : Word) : (s.event p k a e n d).turn = s.turn := rfl
@[simp] theorem event_agenda (s : State) (p k a e n : Nat) (d : Word) : (s.event p k a e n d).agenda = s.agenda := rfl
@[simp] theorem event_nextUid (s : State) (p k a e n : Nat) (d : Word) : (s.event p k a e n d).nextUid = s.nextUid := rfl
@[simp] theorem event_free (s : State) (p k a e n : Nat) (d : Word) : (s.event p k a e n d).free = s.free := rfl
@[simp] theorem send_pkgs (s : State) (a b v : Nat) (r : Req) (c : Carry) (x : Body) : (s.send a b v r c x).pkgs = s.pkgs := rfl
@[simp] theorem send_dies (s : State) (a b v : Nat) (r : Req) (c : Carry) (x : Body) : (s.send a b v r c x).dies = s.dies := rfl
@[simp] theorem send_clusters (s : State) (a b v : Nat) (r : Req) (c : Carry) (x : Body) : (s.send a b v r c x).clusters = s.clusters := rfl
@[simp] theorem send_cores (s : State) (a b v : Nat) (r : Req) (c : Carry) (x : Body) : (s.send a b v r c x).cores = s.cores := rfl
@[simp] theorem send_dram (s : State) (a b v : Nat) (r : Req) (c : Carry) (x : Body) : (s.send a b v r c x).dram = s.dram := rfl
@[simp] theorem send_check (s : State) (a b v : Nat) (r : Req) (c : Carry) (x : Body) : (s.send a b v r c x).check = s.check := rfl
@[simp] theorem send_ctl (s : State) (a b v : Nat) (r : Req) (c : Carry) (x : Body) : (s.send a b v r c x).ctl = s.ctl := rfl
@[simp] theorem send_cmds (s : State) (a b v : Nat) (r : Req) (c : Carry) (x : Body) : (s.send a b v r c x).cmds = s.cmds := rfl
@[simp] theorem send_host (s : State) (a b v : Nat) (r : Req) (c : Carry) (x : Body) : (s.send a b v r c x).host = s.host := rfl
@[simp] theorem send_turn (s : State) (a b v : Nat) (r : Req) (c : Carry) (x : Body) : (s.send a b v r c x).turn = s.turn := rfl
@[simp] theorem send_agenda (s : State) (a b v : Nat) (r : Req) (c : Carry) (x : Body) : (s.send a b v r c x).agenda = s.agenda := rfl
@[simp] theorem send_nextUid (s : State) (a b v : Nat) (r : Req) (c : Carry) (x : Body) : (s.send a b v r c x).nextUid = s.nextUid := rfl
@[simp] theorem send_free (s : State) (a b v : Nat) (r : Req) (c : Carry) (x : Body) : (s.send a b v r c x).free = s.free := rfl
@[simp] theorem answer_pkgs (s : State) (a : EP) (r : Req) (c : Carry) (x : Answer) : (s.answer a r c x).pkgs = s.pkgs := rfl
@[simp] theorem answer_dies (s : State) (a : EP) (r : Req) (c : Carry) (x : Answer) : (s.answer a r c x).dies = s.dies := rfl
@[simp] theorem answer_clusters (s : State) (a : EP) (r : Req) (c : Carry) (x : Answer) : (s.answer a r c x).clusters = s.clusters := rfl
@[simp] theorem answer_cores (s : State) (a : EP) (r : Req) (c : Carry) (x : Answer) : (s.answer a r c x).cores = s.cores := rfl
@[simp] theorem answer_dram (s : State) (a : EP) (r : Req) (c : Carry) (x : Answer) : (s.answer a r c x).dram = s.dram := rfl
@[simp] theorem answer_check (s : State) (a : EP) (r : Req) (c : Carry) (x : Answer) : (s.answer a r c x).check = s.check := rfl
@[simp] theorem answer_ctl (s : State) (a : EP) (r : Req) (c : Carry) (x : Answer) : (s.answer a r c x).ctl = s.ctl := rfl
@[simp] theorem answer_cmds (s : State) (a : EP) (r : Req) (c : Carry) (x : Answer) : (s.answer a r c x).cmds = s.cmds := rfl
@[simp] theorem answer_host (s : State) (a : EP) (r : Req) (c : Carry) (x : Answer) : (s.answer a r c x).host = s.host := rfl
@[simp] theorem answer_turn (s : State) (a : EP) (r : Req) (c : Carry) (x : Answer) : (s.answer a r c x).turn = s.turn := rfl
@[simp] theorem answer_agenda (s : State) (a : EP) (r : Req) (c : Carry) (x : Answer) : (s.answer a r c x).agenda = s.agenda := rfl
@[simp] theorem answer_nextUid (s : State) (a : EP) (r : Req) (c : Carry) (x : Answer) : (s.answer a r c x).nextUid = s.nextUid := rfl
@[simp] theorem answer_free (s : State) (a : EP) (r : Req) (c : Carry) (x : Answer) : (s.answer a r c x).free = s.free := rfl
@[simp] theorem report_pkgs (s : State) (p h a b c : Nat) : (s.report p h a b c).pkgs = s.pkgs := by unfold State.report; split <;> rfl
@[simp] theorem report_dies (s : State) (p h a b c : Nat) : (s.report p h a b c).dies = s.dies := by unfold State.report; split <;> rfl
@[simp] theorem report_clusters (s : State) (p h a b c : Nat) : (s.report p h a b c).clusters = s.clusters := by unfold State.report; split <;> rfl
@[simp] theorem report_cores (s : State) (p h a b c : Nat) : (s.report p h a b c).cores = s.cores := by unfold State.report; split <;> rfl
@[simp] theorem report_dram (s : State) (p h a b c : Nat) : (s.report p h a b c).dram = s.dram := by unfold State.report; split <;> rfl
@[simp] theorem report_check (s : State) (p h a b c : Nat) : (s.report p h a b c).check = s.check := by unfold State.report; split <;> rfl
@[simp] theorem report_net (s : State) (p h a b c : Nat) : (s.report p h a b c).net = s.net := by unfold State.report; split <;> rfl
@[simp] theorem report_cmds (s : State) (p h a b c : Nat) : (s.report p h a b c).cmds = s.cmds := by unfold State.report; split <;> rfl
@[simp] theorem report_host (s : State) (p h a b c : Nat) : (s.report p h a b c).host = s.host := by unfold State.report; split <;> rfl
@[simp] theorem report_turn (s : State) (p h a b c : Nat) : (s.report p h a b c).turn = s.turn := by unfold State.report; split <;> rfl
@[simp] theorem report_agenda (s : State) (p h a b c : Nat) : (s.report p h a b c).agenda = s.agenda := by unfold State.report; split <;> rfl
@[simp] theorem report_nextUid (s : State) (p h a b c : Nat) : (s.report p h a b c).nextUid = s.nextUid := by unfold State.report; split <;> rfl
@[simp] theorem report_free (s : State) (p h a b c : Nat) : (s.report p h a b c).free = s.free := by unfold State.report; split <;> rfl
@[simp] theorem retire_pkgs (s : State) (u : Turn) (f : Thread → Thread) : (s.retire u f).pkgs = s.pkgs := rfl
@[simp] theorem retire_dies (s : State) (u : Turn) (f : Thread → Thread) : (s.retire u f).dies = s.dies := rfl
@[simp] theorem retire_clusters (s : State) (u : Turn) (f : Thread → Thread) : (s.retire u f).clusters = s.clusters := rfl
@[simp] theorem retire_dram (s : State) (u : Turn) (f : Thread → Thread) : (s.retire u f).dram = s.dram := rfl
@[simp] theorem retire_check (s : State) (u : Turn) (f : Thread → Thread) : (s.retire u f).check = s.check := rfl
@[simp] theorem retire_net (s : State) (u : Turn) (f : Thread → Thread) : (s.retire u f).net = s.net := rfl
@[simp] theorem retire_ctl (s : State) (u : Turn) (f : Thread → Thread) : (s.retire u f).ctl = s.ctl := rfl
@[simp] theorem retire_cmds (s : State) (u : Turn) (f : Thread → Thread) : (s.retire u f).cmds = s.cmds := rfl
@[simp] theorem retire_host (s : State) (u : Turn) (f : Thread → Thread) : (s.retire u f).host = s.host := rfl
@[simp] theorem retire_agenda (s : State) (u : Turn) (f : Thread → Thread) : (s.retire u f).agenda = s.agenda := rfl
@[simp] theorem retire_nextUid (s : State) (u : Turn) (f : Thread → Thread) : (s.retire u f).nextUid = s.nextUid := rfl
@[simp] theorem retire_free (s : State) (u : Turn) (f : Thread → Thread) : (s.retire u f).free = s.free := rfl
@[simp] theorem jump_pkgs (s : State) (u : Turn) (pc : CodeAddr) (f : Thread → Thread) : (s.jump u pc f).pkgs = s.pkgs := rfl
@[simp] theorem jump_dies (s : State) (u : Turn) (pc : CodeAddr) (f : Thread → Thread) : (s.jump u pc f).dies = s.dies := rfl
@[simp] theorem jump_clusters (s : State) (u : Turn) (pc : CodeAddr) (f : Thread → Thread) : (s.jump u pc f).clusters = s.clusters := rfl
@[simp] theorem jump_dram (s : State) (u : Turn) (pc : CodeAddr) (f : Thread → Thread) : (s.jump u pc f).dram = s.dram := rfl
@[simp] theorem jump_check (s : State) (u : Turn) (pc : CodeAddr) (f : Thread → Thread) : (s.jump u pc f).check = s.check := rfl
@[simp] theorem jump_net (s : State) (u : Turn) (pc : CodeAddr) (f : Thread → Thread) : (s.jump u pc f).net = s.net := rfl
@[simp] theorem jump_ctl (s : State) (u : Turn) (pc : CodeAddr) (f : Thread → Thread) : (s.jump u pc f).ctl = s.ctl := rfl
@[simp] theorem jump_cmds (s : State) (u : Turn) (pc : CodeAddr) (f : Thread → Thread) : (s.jump u pc f).cmds = s.cmds := rfl
@[simp] theorem jump_host (s : State) (u : Turn) (pc : CodeAddr) (f : Thread → Thread) : (s.jump u pc f).host = s.host := rfl
@[simp] theorem jump_agenda (s : State) (u : Turn) (pc : CodeAddr) (f : Thread → Thread) : (s.jump u pc f).agenda = s.agenda := rfl
@[simp] theorem jump_nextUid (s : State) (u : Turn) (pc : CodeAddr) (f : Thread → Thread) : (s.jump u pc f).nextUid = s.nextUid := rfl
@[simp] theorem jump_free (s : State) (u : Turn) (pc : CodeAddr) (f : Thread → Thread) : (s.jump u pc f).free = s.free := rfl
@[simp] theorem parkAt_pkgs (s : State) (u : Turn) (w : Wait) (k p : Nat) (b : Bool) (l : Option Nat) (d : Reg) (x n : Nat) : (s.parkAt u w k p b l d x n).pkgs = s.pkgs := rfl
@[simp] theorem parkAt_dies (s : State) (u : Turn) (w : Wait) (k p : Nat) (b : Bool) (l : Option Nat) (d : Reg) (x n : Nat) : (s.parkAt u w k p b l d x n).dies = s.dies := rfl
@[simp] theorem parkAt_clusters (s : State) (u : Turn) (w : Wait) (k p : Nat) (b : Bool) (l : Option Nat) (d : Reg) (x n : Nat) : (s.parkAt u w k p b l d x n).clusters = s.clusters := rfl
@[simp] theorem parkAt_dram (s : State) (u : Turn) (w : Wait) (k p : Nat) (b : Bool) (l : Option Nat) (d : Reg) (x n : Nat) : (s.parkAt u w k p b l d x n).dram = s.dram := rfl
@[simp] theorem parkAt_check (s : State) (u : Turn) (w : Wait) (k p : Nat) (b : Bool) (l : Option Nat) (d : Reg) (x n : Nat) : (s.parkAt u w k p b l d x n).check = s.check := rfl
@[simp] theorem parkAt_net (s : State) (u : Turn) (w : Wait) (k p : Nat) (b : Bool) (l : Option Nat) (d : Reg) (x n : Nat) : (s.parkAt u w k p b l d x n).net = s.net := rfl
@[simp] theorem parkAt_ctl (s : State) (u : Turn) (w : Wait) (k p : Nat) (b : Bool) (l : Option Nat) (d : Reg) (x n : Nat) : (s.parkAt u w k p b l d x n).ctl = s.ctl := rfl
@[simp] theorem parkAt_cmds (s : State) (u : Turn) (w : Wait) (k p : Nat) (b : Bool) (l : Option Nat) (d : Reg) (x n : Nat) : (s.parkAt u w k p b l d x n).cmds = s.cmds := rfl
@[simp] theorem parkAt_host (s : State) (u : Turn) (w : Wait) (k p : Nat) (b : Bool) (l : Option Nat) (d : Reg) (x n : Nat) : (s.parkAt u w k p b l d x n).host = s.host := rfl
@[simp] theorem parkAt_agenda (s : State) (u : Turn) (w : Wait) (k p : Nat) (b : Bool) (l : Option Nat) (d : Reg) (x n : Nat) : (s.parkAt u w k p b l d x n).agenda = s.agenda := rfl
@[simp] theorem parkAt_nextUid (s : State) (u : Turn) (w : Wait) (k p : Nat) (b : Bool) (l : Option Nat) (d : Reg) (x n : Nat) : (s.parkAt u w k p b l d x n).nextUid = s.nextUid := rfl
@[simp] theorem parkAt_free (s : State) (u : Turn) (w : Wait) (k p : Nat) (b : Bool) (l : Option Nat) (d : Reg) (x n : Nat) : (s.parkAt u w k p b l d x n).free = s.free := rfl
@[simp] theorem noTurn_turn (s : State) : (s.noTurn).turn = none := rfl
@[simp] theorem retire_turn (s : State) (u : Turn) (f : Thread → Thread) : (s.retire u f).turn = none := rfl
@[simp] theorem jump_turn (s : State) (u : Turn) (pc : CodeAddr) (f : Thread → Thread) : (s.jump u pc f).turn = none := rfl
@[simp] theorem parkAt_turn (s : State) (u : Turn) (w : Wait) (k p : Nat) (b : Bool) (l : Option Nat) (d : Reg) (x n : Nat) : (s.parkAt u w k p b l d x n).turn = none := rfl

/-- The thread of a slot after it was changed. -/
@[simp] theorem thr?_modThr (s : State) (e : EP) (n : Nat) (f : Thread → Thread) :
    (s.modThr e n f).thr? e n = (s.thr? e n).map f := by
  simp only [State.thr?, State.modThr, State.modCore, tget_tmod_same]
  cases tget s.cores e <;> simp

/-- Another core's threads are as they were. -/
theorem thr?_modThr_ep (s : State) {e i : EP} (n m : Nat) (f : Thread → Thread) (h : i ≠ e) :
    (s.modThr e n f).thr? i m = s.thr? i m := by
  simp only [State.thr?, State.modThr, State.modCore]
  rw [tget_tmod_other _ _ h]

/-- Another slot's thread is as it was. -/
theorem thr?_modThr_slot (s : State) (e : EP) {n m : Nat} (f : Thread → Thread) (h : m ≠ n) :
    (s.modThr e n f).thr? e m = s.thr? e m := by
  simp only [State.thr?, State.modThr, State.modCore, tget_tmod_same]
  cases tget s.cores e with
  | none => rfl
  | some c => simp [tget_tmod_other _ _ h]

/-- A changed thread is there where it was there before. -/
@[simp] theorem thr?_modThr_isSome (s : State) (e i : EP) (n m : Nat) (f : Thread → Thread) :
    ((s.modThr e n f).thr? i m).isSome = (s.thr? i m).isSome := by
  by_cases he : i = e
  · subst he
    by_cases hn : m = n
    · subst hn; simp
    · rw [thr?_modThr_slot _ _ _ hn]
  · rw [thr?_modThr_ep _ _ _ _ he]

@[simp] theorem thr?_noTurn (s : State) (e : EP) (n : Nat) : s.noTurn.thr? e n = s.thr? e n := rfl
@[simp] theorem core_noTurn (s : State) (e : EP) : s.noTurn.core e = s.core e := rfl
@[simp] theorem pkg_noTurn (s : State) (i : Nat) : s.noTurn.pkg i = s.pkg i := rfl

/-- The thread of a slot after its instruction retired. -/
theorem thr?_retire (s : State) (u : Turn) (f : Thread → Thread) :
    (s.retire u f).thr? u.ep u.slot = (s.thr? u.ep u.slot).map fun t => (f t).goTo u.next := by
  simp [State.retire]

/-- A core's memories do not change where only a thread does. -/
@[simp] theorem core_modThr_spad (s : State) (e i : EP) (n : Nat) (f : Thread → Thread) :
    ((s.modThr e n f).core i).spad = (s.core i).spad := by
  by_cases h : i = e
  · subst h; simp only [State.core, State.modThr, State.modCore, tget_tmod_same]; cases tget s.cores i <;> rfl
  · simp only [State.core, State.modThr, State.modCore]; rw [tget_tmod_other _ _ h]

@[simp] theorem core_retire_spad (s : State) (i : EP) (u : Turn) (f : Thread → Thread) :
    ((s.retire u f).core i).spad = (s.core i).spad := core_modThr_spad ..

end Sys2Proof.Machine
end

