-- ==== Sys2Proof/Laws/Ok.lean ====
section
/-! SUPPORT. What every operation of the machine keeps: the turn under way and the canonical form of every memory. The lemmas of the
files Ok… say it once for each operation. -/

namespace Sys2Proof.Machine

/-- The turn under way is `τ`, and every memory is in canonical form. -/
def Ok (τ : Option Turn) (s : State) : Prop := s.turn = τ ∧ memOk s = true

variable {τ : Option Turn} {s : State}

theorem memOk_iff : memOk s = true ↔ Memory.wf s.dram = true ∧ Memory.wf s.check = true ∧ Memory.wf s.host = true ∧
    s.cores.all (fun x => coreMemOk x.2) = true ∧ s.pkgs.all (fun x => Memory.wf x.2.staging) = true := by
  simp only [memOk, Bool.and_eq_true, and_assoc]

/-- A state with the same turn, memories, cores and packages. -/
theorem Ok.same {s t : State} (h : Ok τ s) (ht : t.turn = s.turn) (hd : t.dram = s.dram) (hk : t.check = s.check)
    (hh : t.host = s.host) (hc : t.cores = s.cores) (hp : t.pkgs = s.pkgs) : Ok τ t := by
  obtain ⟨h1, h2⟩ := h
  refine ⟨ht.trans h1, ?_⟩
  rw [memOk_iff] at *
  rw [hd, hk, hh, hc, hp]
  exact h2

theorem Ok.cores (h : Ok τ s) : s.cores.all (fun x => coreMemOk x.2) = true := (memOk_iff.1 h.2).2.2.2.1
theorem Ok.pkgs (h : Ok τ s) : s.pkgs.all (fun x => Memory.wf x.2.staging) = true := (memOk_iff.1 h.2).2.2.2.2
theorem Ok.dram (h : Ok τ s) : Memory.wf s.dram = true := (memOk_iff.1 h.2).1
theorem Ok.check (h : Ok τ s) : Memory.wf s.check = true := (memOk_iff.1 h.2).2.1
theorem Ok.host (h : Ok τ s) : Memory.wf s.host = true := (memOk_iff.1 h.2).2.2.1

/-- The cores change and keep their memories canonical. -/
theorem Ok.setCores {cs : Table Core} (h : Ok τ s) (hc : cs.all (fun x => coreMemOk x.2) = true) : Ok τ { s with cores := cs } := by
  obtain ⟨h1, h2⟩ := h
  refine ⟨h1, ?_⟩
  rw [memOk_iff] at *
  exact ⟨h2.1, h2.2.1, h2.2.2.1, hc, h2.2.2.2.2⟩

/-- The packages change and keep their memories canonical. -/
theorem Ok.setPkgs {ps : Table Pkg} (h : Ok τ s) (hp : ps.all (fun x => Memory.wf x.2.staging) = true) :
    Ok τ { s with pkgs := ps } := by
  obtain ⟨h1, h2⟩ := h
  refine ⟨h1, ?_⟩
  rw [memOk_iff] at *
  exact ⟨h2.1, h2.2.1, h2.2.2.1, h2.2.2.2.1, hp⟩

theorem Ok.setDram {m k : Memory} (h : Ok τ s) (hm : Memory.wf m = true) (hk : Memory.wf k = true) :
    Ok τ { s with dram := m, check := k } := by
  obtain ⟨h1, h2⟩ := h
  refine ⟨h1, ?_⟩
  rw [memOk_iff] at *
  exact ⟨hm, hk, h2.2.2⟩

theorem Ok.setHost {m : Memory} (h : Ok τ s) (hm : Memory.wf m = true) : Ok τ { s with host := m } := by
  obtain ⟨h1, h2⟩ := h
  refine ⟨h1, ?_⟩
  rw [memOk_iff] at *
  exact ⟨h2.1, h2.2.1, hm, h2.2.2.2⟩

/-- The turn set back, or set. -/
theorem Ok.setTurn {σ : Option Turn} (h : Ok τ s) : Ok σ { s with turn := σ } := ⟨rfl, h.2⟩

/-- Whatever stands outside the turn, the memories, the cores and the packages may change. -/
theorem Ok.upd {di : Table Die} {cl : Table Cluster} {ne : List Pkt} {ct : List Ctl} {cm : List Cmd} {ag : List Occ} {nu fr : Nat}
    (h : Ok τ s) :
    Ok τ { s with dies := di, clusters := cl, net := ne, ctl := ct, cmds := cm, agenda := ag, nextUid := nu, free := fr } := h

/-- Something done whose end of the turn is undone. -/
theorem Ok.keep {σ : Option Turn} {t : State} (h : Ok τ s) (h' : Ok σ t) : Ok τ { t with turn := s.turn } := ⟨h.1, h'.2⟩

theorem Ok.noTurn (h : Ok τ s) : Ok none s.noTurn := ⟨rfl, h.2⟩

theorem Ok.modCore {e : EP} {f : Core → Core} (h : Ok τ s) (hf : ∀ c, coreMemOk c = true → coreMemOk (f c) = true) :
    Ok τ (s.modCore e f) := h.setCores (tmod_all hf h.cores)

/-- A core's memories stay canonical. -/
structure KeepMem (c d : Core) : Prop where
  spad : Memory.wf c.spad = true → Memory.wf d.spad = true
  opmem : Memory.wf c.opmem = true → Memory.wf d.opmem = true
  acc : Memory.wf c.acc = true → Memory.wf d.acc = true

/-- A core changes and its memories stay canonical. -/
theorem Ok.modKeep {e : EP} {f : Core → Core} (h : Ok τ s) (hf : ∀ c, KeepMem c (f c)) : Ok τ (s.modCore e f) :=
  h.modCore fun c hc => by
    simp only [coreMemOk, Bool.and_eq_true] at hc ⊢
    obtain ⟨h1, h2, h3⟩ := hf c
    exact ⟨⟨h1 hc.1.1, h2 hc.1.2⟩, h3 hc.2⟩

theorem Ok.modPkg {i : Nat} {f : Pkg → Pkg} (h : Ok τ s) (hf : ∀ p, Memory.wf p.staging = true → Memory.wf (f p).staging = true) :
    Ok τ (s.modPkg i f) := by
  refine h.setPkgs (tput_all (p := fun x : Pkg => Memory.wf x.staging) (hf _ ?_) h.pkgs)
  unfold State.pkg
  cases e : tget s.pkgs i with
  | none => rfl
  | some x => exact tget_all (p := fun x : Pkg => Memory.wf x.staging) h.pkgs e

/-- Every core changes and its memories stay canonical. -/
theorem Ok.mapCores {g : Nat × Core → Nat × Core} (h : Ok τ s) (hg : ∀ x, KeepMem x.2 (g x).2) :
    Ok τ { s with cores := s.cores.map g } := by
  refine h.setCores ?_
  have := h.cores
  rw [List.all_eq_true] at this ⊢
  intro y hy
  obtain ⟨x, hx, rfl⟩ := List.mem_map.1 hy
  have hc := this x hx
  simp only [coreMemOk, Bool.and_eq_true] at hc ⊢
  obtain ⟨h1, h2, h3⟩ := hg x
  exact ⟨⟨h1 hc.1.1, h2 hc.1.2⟩, h3 hc.2⟩

/-- One of two does not change a core's memories, nor does the other. -/
theorem KeepMem.ite {c : Prop} [Decidable c] {x : Core} {a b : Nat × Core} (ha : KeepMem x a.2) (hb : KeepMem x b.2) :
    KeepMem x (if c then a else b).2 := by split <;> assumption

/-- A package's staging memory does not change. -/
theorem Ok.modPkgSame {i : Nat} {f : Pkg → Pkg} (h : Ok τ s) (hf : ∀ p, (f p).staging = p.staging) : Ok τ (s.modPkg i f) :=
  h.modPkg fun p hp => by rw [hf p]; exact hp

theorem Ok.modThr {e : EP} {n : Nat} {f : Thread → Thread} (h : Ok τ s) : Ok τ (s.modThr e n f) := h.modCore fun _ hc => hc
theorem Ok.vacate {e : EP} {n : Nat} (h : Ok τ s) : Ok τ (s.vacate e n) := h.modCore fun _ hc => hc
theorem Ok.modBridge {i : Nat} {f : Bridge → Bridge} (h : Ok τ s) : Ok τ (s.modBridge i f) := h.modPkg fun _ hc => hc
theorem Ok.modQueue {i q : Nat} {f : QState → QState} (h : Ok τ s) : Ok τ (s.modQueue i q f) := h.modPkg fun _ hc => hc
theorem Ok.modIsland {i k : Nat} {f : Island → Island} (h : Ok τ s) : Ok τ (s.modIsland i k f) := h.modPkg fun _ hc => hc
theorem Ok.modDie {k : Nat} {f : Die → Die} (h : Ok τ s) : Ok τ (s.modDie k f) := h
theorem Ok.modCluster {k : Nat} {f : Cluster → Cluster} (h : Ok τ s) : Ok τ (s.modCluster k f) := h
theorem Ok.draw {n k : Nat} {t : State} (h : Ok τ s) (e : s.draw n = (k, t)) : Ok τ t := by cases e; exact h
theorem Ok.draw2 {n : Nat} (h : Ok τ s) : Ok τ (s.draw n).2 := h

/-- Either of two. -/
theorem Ok.ite {c : Prop} [Decidable c] {a b : State} (ha : Ok τ a) (hb : Ok τ b) : Ok τ (if c then a else b) := by
  split <;> assumption

theorem Ok.iteFst {α : Type} {c : Prop} [Decidable c] {a b : State × α} (ha : Ok τ a.1) (hb : Ok τ b.1) :
    Ok τ (if c then a else b).1 := by split <;> assumption
theorem Ok.iteSnd {α : Type} {c : Prop} [Decidable c] {a b : α × State} (ha : Ok τ a.2) (hb : Ok τ b.2) :
    Ok τ (if c then a else b).2 := by split <;> assumption

/-- Something done for every item of a list. -/
theorem Ok.foldl {α : Type} {f : State → α → State} {l : List α} (h : Ok τ s) (hf : ∀ s a, Ok τ s → Ok τ (f s a)) :
    Ok τ (l.foldl f s) := by
  induction l generalizing s with
  | nil => exact h
  | cons a l ih => exact ih (hf _ _ h)

theorem Ok.ofSnd {α : Type} {p : α × State} {x : α} {t : State} (e : p = (x, t)) (h : Ok τ p.2) : Ok τ t := by rw [e] at h; exact h
theorem Ok.ofFst {α : Type} {p : State × α} {x : α} {t : State} (e : p = (t, x)) (h : Ok τ p.1) : Ok τ t := by rw [e] at h; exact h

/-- The state that an optional value was turned into. -/
theorem Ok.optMap {β : Type} {o : Option β} {f : β → State} {t : State} (e : o.map f = some t) (hf : ∀ b, Ok τ (f b)) : Ok τ t := by
  cases o with
  | none => cases e
  | some b => cases e; exact hf b

theorem Ok.foldlSnd {α β : Type} {f : α × State → β → α × State} {l : List β} {x : α × State} (h : Ok τ x.2)
    (hf : ∀ a b, Ok τ a.2 → Ok τ (f a b).2) : Ok τ (l.foldl f x).2 := by
  induction l generalizing x with
  | nil => exact h
  | cons a l ih => exact ih (hf _ _ h)

theorem Ok.foldlFst {α β : Type} {f : State × α → β → State × α} {l : List β} {x : State × α} (h : Ok τ x.1)
    (hf : ∀ a b, Ok τ a.1 → Ok τ (f a b).1) : Ok τ (l.foldl f x).1 := by
  induction l generalizing x with
  | nil => exact h
  | cons a l ih => exact ih (hf _ _ h)

/-- What an issued instruction's effect keeps, the whole issue does (R281). -/
theorem Ok.next {o : Host.Outcome State Fault Refusal} {t u : State} (h : Ok none t) (e : o = .next t) (e' : o = .next u) : Ok none u := by
  rw [e] at e'; cases e'; exact h

end Sys2Proof.Machine
end

