-- ==== Sys2Proof/Tests/Slice0.lean ====
section
/-! SUPPORT. Tests of the model: ill-formed terms, words of the spec, single steps, and for each statement states and operands that meet
its hypotheses. -/

namespace Sys2Proof.Tests

set_option Elab.async false

open Sys2Proof Sys2Proof.Machine

/-- The unguarded form. -/
abbrev g : Guard := ⟨0, false⟩
/-- No mask. -/
abbrev mk0 : Mask := ⟨false, 0⟩
/-- A compute core, a memory core and a gateway core of package 0, die 0. -/
abbrev eC : EP := mkEp 0 0 0 0 0
abbrev eM : EP := mkEp 0 0 1 0 0
abbrev eG : EP := mkEp 0 0 2 0 0

/-- A thread at head 1 of segment 1 with registers given, all others 0. -/
def thr (rs : List (Reg × Word)) : Thread :=
  let t := { Thread.start 1 0 0 0 0 with
    pc := 0x1002, fresh := false, park := none,
    regs := ⟨Vector.replicate 32 0, 1, Vector.replicate 8 0, Vector.replicate 4 0⟩ }
  rs.foldl (fun t r => t.setG r.1 r.2) t

/-- Its turn. -/
def turn (e : EP) (n : Nat) : Turn := ⟨e, n, 0x1004, 0, false⟩

/-- A state with one core, in whose slot n a thread has the turn. -/
def stC (e : EP) (n : Nat) (c : Core) (t : Thread) : State :=
  { State.reset with cores := [(e, { c with slots := [(n, t)] })], turn := some (turn e n) }

/-- The same on a core as at release. -/
def st (e : EP) (n : Nat) (t : Thread) : State := stC e n (Core.start (kindOf e)) t

/-- What Issues asks of the instruction. -/
def canIssue (u : Turn) (t : Thread) (i : Instr) : Bool :=
  !lacks (kindOf u.ep) (isVisitor u.ep u.slot) t.pair.isSome (opOf i) (encode i).2 && i.guard.wf && passes t i.guard
  && t.xf.isNone && t.pair.isNone

theorem issues_of {s : State} {u : Turn} {t : Thread} {i : Instr} (hs : s.turn = some u) (ht : s.thr? u.ep u.slot = some t)
    (h : canIssue u t i = true) : Issues s u t i := by
  simp only [canIssue, Bool.and_eq_true, Bool.not_eq_true'] at h
  exact ⟨hs, ht, h.1.1.1.1, h.1.1.1.2, h.1.1.2, Option.isNone_iff_eq_none.1 h.1.2, Option.isNone_iff_eq_none.1 h.2⟩

/-- A thread in slot 0 of the compute core and its state. -/
abbrev t0 : Thread := thr []
abbrev s0 : State := st eC 0 t0
abbrev u0 : Turn := turn eC 0

/-- The thread of a slot after a step of exec. -/
def after (i : Instr) (s : State) (e : EP) (n : Nat) : Option Thread := match exec i s with
  | .next s => s.thr? e n
  | _ => none

/-- A register after an instruction of slot 0 of the compute core. -/
def gives (i : Instr) (rs : List (Reg × Word)) (d : Reg) : Option Word := (after i (st eC 0 (thr rs)) eC 0).map fun t => gr t d

theorem test_witness_issues_1 : ∀ i ∈ ([
   .nop g, .add g 1 1 1, .sub g 1 1 1, .mul g 1 1 1, .mulh g 1 1 1, .mulhn g 1 1 1,
   .div g 1 1 1, .divn g 1 1 1, .rem g 1 1 1, .remn g 1 1 1, .and g 1 1 1, .or g 1 1 1,
   .xor g 1 1 1, .andn g 1 1 1, .shl g 1 1 1, .shr g 1 1 1, .sra g 1 1 1, .shli g 1 1 1,
   .shri g 1 1 1, .srai g 1 1 1, .clz g 1 1, .ctz g 1 1, .popc g 1 1, .min g 1 1 1,
   .max g 1 1 1, .minn g 1 1 1, .maxn g 1 1 1, .addi g 1 1 1, .andi g 1 1 1, .ori g 1 1 1,
   .xori g 1 1 1, .li g 1 1, .lih g 1 1 1, .bfx g 1 1 1 1, .bfxs g 1 1 1 1, .bfi g 1 1 1 1 1,
   .lea g 1 1 1 1 1, .cmp g 1 1 1 .eq, .cmpi g 1 1 .eq 1, .plog g 1 1 1 1, .sel g 1 1 1 1, .pset g 1] : List Instr), Issues s0 u0 t0 i :=
  fun _ hi => issues_of rfl rfl (List.all_eq_true.1 (show List.all _ (canIssue u0 t0) = true by decide) _ hi)

theorem test_witness_issues_2 : ∀ i ∈ ([
   .pget g 1, .sext g 1 1 1, .zext g 1 1 1, .br g 1, .brr g 1, .call g 1 1,
   .callr g 1 1, .jseg g 1, .btag g 1 1 1 1, .fork g 1 1 1, .join g 1 1, .spawn g 1 1 false 1,
   .yield g 1 1, .exit g 1, .wfw g 1 1, .send g 1 1 1 1, .recv g 1 1 1, .enq g 1 1 1 false,
   .deq g 1 1 1, .qres g 1 1 1, .qprobe g 1 1 1, .ld g 1 1 1 false 1, .st g 1 1 1 1, .ldx g 1 1 1 1 false 1,
   .stx g 1 1 1 1 1, .ldf g 1 1 1 false false 1, .stf g 1 1 1 false 1, .take g 1 1 1 1 false, .put g 1 1 1 1, .peek g 1 1 1 1 false,
   .feset g 1 1 1, .feget g 1 1 false, .amo g 1 1 1 1 false false, .cas g 1 1 1 1 1 false false, .red g 1 1 1 false, .waitc g 1 1,
   .fence g 1 1 1, .xfence g 1 1 1, .go g 1, .mld g 1 1 1 false 1, .mst g 1 1 1 1, .mamo g 1 1 1 1 1 false false] : List Instr), Issues s0 u0 t0 i :=
  fun _ hi => issues_of rfl rfl (List.all_eq_true.1 (show List.all _ (canIssue u0 t0) = true by decide) _ hi)

theorem test_witness_issues_3 : ∀ i ∈ ([
   .remup g 1 1 1 false, .tlook g 1 1, .tins g 1 1 false false, .tdel g 1 false, .hnd g 1 1 false, .narrow g 1,
   .union g 1 1 1, .livemask g 1 1, .cancel g 1, .adopt g 1, .rbegin g 1 1 1, .rcommit g,
   .rabort g, .rstat g 1, .fadd g 1 1 1 .df .rne, .fsub g 1 1 1 .df .rne, .fmul g 1 1 1 .df .rne, .fma g 1 1 1 1 .df .rne,
   .fdiv g 1 1 1 .df .rne, .fsqrt g 1 1 .df .rne, .frsq g 1 1 .df .rne, .fmin g 1 1 1 .df, .fmax g 1 1 1 .df, .fcmp g 1 1 1 .df .eq,
   .fcvt g 1 1 .df .df .rne false, .fclass g 1 1 .df, .fexp2 g 1 1 .df .rne, .flog2 g 1 1 .df .rne, .vld g 1 1 1 mk0 false 1, .vst g 1 1 1 mk0 1,
   .vlds g 1 1 1 .df mk0 false, .vsts g 1 1 1 .df mk0, .vbcast g 1 1 .df mk0 false, .vext g 1 1 .df 1, .vins g 1 1 .df 1, .vadd g 1 1 (.v 1) .df .rne mk0 false,
   .vsub g 1 1 (.v 1) .df .rne mk0 false, .vmul g 1 1 (.v 1) .df .rne mk0 false, .vfma g 1 1 (.v 1) 1 .df .rne mk0 false, .vmin g 1 1 (.v 1) .df mk0 false, .vmax g 1 1 (.v 1) .df mk0 false, .vabs g 1 1 .df mk0 false] : List Instr), Issues s0 u0 t0 i :=
  fun _ hi => issues_of rfl rfl (List.all_eq_true.1 (show List.all _ (canIssue u0 t0) = true by decide) _ hi)

theorem test_witness_issues_4 : ∀ i ∈ ([
   .vdiv g 1 1 (.v 1) .df .rne mk0 false, .vsqrt g 1 1 .df .rne mk0 false, .vrsq g 1 1 .df .rne mk0 false, .vexp2 g 1 1 .df .rne mk0 false, .vlog2 g 1 1 .df .rne mk0 false, .vand g 1 1 (.v 1) .df mk0 false,
   .vor g 1 1 (.v 1) .df mk0 false, .vxor g 1 1 (.v 1) .df mk0 false, .vshl g 1 1 (.v 1) .df mk0 false, .vshr g 1 1 (.v 1) .df mk0 false, .vcmp g 1 1 (.v 1) .df .eq mk0, .vsel g 1 1 (.v 1) 1 .df,
   .vcvt g 1 1 .df .df .rne false 1, .vred g 1 1 1 .df .rne mk0, .vscan g 1 1 1 .df .rne mk0, .vperm g 1 1 1 .df mk0 false, .vmlog g 1 1 1 1 false, .vmpop g 1 1 false,
   .oclaim g 1, .orel g 1, .old g 1 1 1 .df false, .mma g 1 1 1 false false 1, .ard g 1 1 1 .df, .awr g 1 1 1 .df,
   .aclr g 1 1, .mstat g 1 1, .tbld g 1, .pushCopy g 1 false, .pushFill g 1, .pushCode g 1,
   .pushColl g 1, .pushProgram g 1 1, .popcRec g 1 1, .trap g 1, .rtt g, .mfs g 1 1 1,
   .mts g 1 1, .resume g 1 1 1 false, .cswap g 1 1, .invtlb g 1 1 1] : List Instr), Issues s0 u0 t0 i :=
  fun _ hi => issues_of rfl rfl (List.all_eq_true.1 (show List.all _ (canIssue u0 t0) = true by decide) _ hi)

theorem test_witness_issues_back : Issues (st eM 16 t0) (turn eM 16) t0 (.back g) := issues_of rfl rfl (by decide)

theorem test_witness_issues_barq : Issues (st eG 0 t0) (turn eG 0) t0 (.barq g 1 1 1 1 .e4 mk0 false) := issues_of rfl rfl (by decide)

/-- An ill-formed term for each check of WellFormed (R281 check 2 and the descriptions of the instructions). -/
def illFormed : List Instr :=
  [.add ⟨0, true⟩ 1 2 3, .bfx g 1 2 60 4, .bfxs g 1 2 63 1, .bfi g 1 2 3 1 63, .btag g 1 2 3 0, .wfw g 25 0, .spawn g 29 1 false 1,
   .send g 1 2 9 0, .send g 1 30 3 0, .send g 1 2 0 0, .recv g 30 1 2, .recv g 1 1 9, .enq g 1 25 1 false, .deq g 25 1 1] ++
  [.ld g 1 2 3 true 0, .ldx g 1 2 3 3 true 0, .ldf g 1 2 3 true false 0, .mld g 1 2 3 true 0, .take g 1 2 3 5 false, .take g 31 2 3 4 false,
   .peek g 1 2 3 3 true, .put g 31 2 3 4, .feset g 1 2 3, .amo g 1 2 3 10 false false, .red g 1 2 10 false, .remup g 1 2 10 false,
   .mamo g 1 2 3 1 0 false false, .mamo g 1 2 3 0 10 false false, .hnd g 1 2 true, .union g 1 2 0, .union g 1 2 65] ++
  [.fadd g 1 2 3 .e4 .rne, .fsub g 1 2 3 .i32 .rne, .fmul g 1 2 3 .lg .rne, .fdiv g 1 2 3 .i8 .rne, .fma g 1 2 3 4 .n64 .rne,
   .fsqrt g 1 2 .e5 .rne, .frsq g 1 2 .i64 .rne, .fexp2 g 1 2 .e4 .rne, .flog2 g 1 2 .lg .rne, .fmin g 1 2 3 .i32, .fmax g 1 2 3 .e4,
   .fcmp g 1 2 3 .i32 .eq, .fcvt g 1 2 .i32 .i64 .rz false, .fcvt g 1 2 .sf .sf .ru false, .fclass g 1 2 .i32] ++
  [.vld g 1 2 1 mk0 false 0, .vld g 1 2 0 ⟨false, 1⟩ false 0, .vld g 1 2 0 mk0 true 0, .vst g 1 2 1 mk0 0, .vlds g 1 2 3 .sf mk0 true,
   .vsts g 1 2 3 .sf ⟨false, 2⟩, .vbcast g 1 2 .sf mk0 true, .vext g 1 2 .df 8, .vins g 1 2 .sf 16, .vadd g 1 2 (.v 3) .e4 .rne mk0 false,
   .vsub g 1 2 (.v 3) .i32 .rz mk0 false, .vmul g 1 2 (.v 3) .sf .rne mk0 true, .vfma g 1 2 (.v 3) 4 .i32 .rne mk0 false,
   .vmin g 1 2 (.v 3) .lg mk0 false, .vmax g 1 2 (.v 3) .e5 mk0 false, .vabs g 1 2 .lg mk0 false, .vdiv g 1 2 (.v 3) .i32 .rne mk0 false] ++
  [.vsqrt g 1 2 .i8 .rne mk0 false, .vrsq g 1 2 .i8 .rne mk0 false, .vexp2 g 1 2 .i8 .rne mk0 false, .vlog2 g 1 2 .i8 .rne mk0 false,
   .vand g 1 2 (.v 3) .i8 mk0 true, .vor g 1 2 (.v 3) .i8 mk0 true, .vxor g 1 2 (.v 3) .i8 mk0 true, .vshl g 1 2 (.v 3) .sf mk0 false,
   .vshr g 1 2 (.v 3) .df mk0 false, .vcmp g 1 2 (.v 3) .i32 .un mk0, .vcmp g 1 2 (.v 3) .e4 .eq mk0,
   .vcvt g 1 2 .sf .df .rne false 2, .vcvt g 1 2 .i32 .i32 .rd false 0, .vred g 1 2 3 .sf .rne mk0, .vscan g 1 2 0 .i32 .rz mk0,
   .vperm g 1 2 3 .sf mk0 true, .vmlog g 1 4 1 0 false] ++
  [.barq g 1 2 3 0 .sf mk0 false, .barq g 1 2 31 0 .lg mk0 false, .ard g 1 2 3 .i8, .awr g 1 2 3 .hf, .pushCopy g 25 false,
   .pushFill g 25, .pushCode g 25, .pushColl g 25, .pushProgram g 25 1, .popcRec g 31 1, .mfs g 1 0 0x05, .mfs g 1 2 0x00, .mts g 1 0x05,
   .mts g 1 0x00, .invtlb g 1 2 3]

theorem test_ill_formed : illFormed.all (fun i => !i.wf) = true := by decide

/-- A head by its fields: TL at bit 13, PG at bit 10, PN at bit 9, OP (R317). -/
def head (tl pg pn op : Nat) : Nat := tl * 2 ^ 13 + pg * 2 ^ 10 + pn * 2 ^ 9 + op
/-- The tails of layouts A to E by their fields (R319). -/
def tA (s b a d : Nat) : Nat := s * 2 ^ 15 + b * 2 ^ 10 + a * 2 ^ 5 + d
def tB (imm a d : Nat) : Nat := imm * 2 ^ 10 + a * 2 ^ 5 + d
def tC (f c b a d : Nat) : Nat := f * 2 ^ 20 + c * 2 ^ 15 + b * 2 ^ 10 + a * 2 ^ 5 + d
def tD (imm x b a d : Nat) : Nat := imm * 2 ^ 16 + x * 2 ^ 15 + b * 2 ^ 10 + a * 2 ^ 5 + d

-- integer, address and predicate (R333 to R341)
theorem test_decode_subtract : decodeHead (head 1 0 0 0x002) (tA 0 3 2 1) = .ok (.sub g 1 2 3) := rfl
theorem test_decode_shift_by_bits_s_b : decodeHead (head 1 0 0 0x015) (tA 1 2 5 4) = .ok (.shli g 4 5 34) := rfl
theorem test_decode_insert : decodeHead (head 2 0 0 0x021) (tC (7 * 2 ^ 6 + 8) 0 3 2 1) = .ok (.bfi g 1 2 3 8 7) := rfl
theorem test_decode_guard : decodeHead (head 2 1 1 0x003) (tB 5 2 1) = .ok (.addi ⟨1, true⟩ 1 2 5) := rfl
-- control and tasks (R342 to R358)
theorem test_decode_call_back : decodeHead (head 2 0 0 0x042) (tB (2 ^ 22 - 4) 0 31) = .ok (.call g 31 (-4)) := rfl
theorem test_decode_rtt : decodeHead (head 0 0 0 0x1C1) 0 = .ok (.rtt g) := rfl
-- scratchpad memory (R360 to R373)
theorem test_decode_store_word : decodeHead (head 3 0 0 0x081) (tD (2 ^ 32 - 8) 0 3 2 1) = .ok (.st g 1 2 3 (-8)) := rfl
theorem test_decode_relaxed_load : decodeHead (head 3 0 0 0x084) (tD 64 1 3 2 1) = .ok (.ldf g 1 2 3 false true 64) := rfl
theorem test_decode_atomic_add_relaxed : decodeHead (head 2 0 0 0x08B) (tC 0x30 0 3 2 1) = .ok (.amo g 1 2 3 0 true true) := rfl
theorem test_decode_xfence : decodeHead (head 3 0 0 0x090) (tD (1 * 2 ^ 8 + 4) 0 0 9 0) = .ok (.xfence g 9 4 1) := rfl
-- floating point and vectors (R389 to R405)
theorem test_decode_convert : decodeHead (head 2 0 0 0x10A) (tC (2 ^ 11 + 1 * 2 ^ 8 + 11 * 2 ^ 4 + 2) 0 0 2 1) =
    .ok (.fcvt g 1 2 .i32 .df .rz true) := rfl
theorem test_decode_vector_type_15_refused : decodeHead (head 2 0 0 0x147) (tC 15 0 3 2 1) = .error (.encoding (head 2 0 0 0x147)) := rfl
-- matrix engine and engines (R407 to R427)
theorem test_decode_claim : decodeHead (head 1 0 0 0x180) (tA 0 0 0 7) = .ok (.oclaim g 7) := rfl
theorem test_decode_push_code : decodeHead (head 2 0 0 0x1A0) (tC 2 0 0 8 0) = .ok (.pushCode g 8) := rfl
-- migration, tags, expiry, regions and system (R374 to R382, R428 to R447)
theorem test_decode_back : decodeHead (head 0 0 0 0x0C1) 0 = .ok (.back g) := rfl
theorem test_decode_rbegin : decodeHead (head 2 0 0 0x0E8) (tB 10 9 12) = .ok (.rbegin g 12 9 10) := rfl
theorem test_decode_unknown_opcode : decodeHead (head 1 0 0 0x02D) 0 = .error (.opcode 0x02D) := rfl

-- single steps; the expected values are computed by hand from the rules
theorem test_add_wraps : gives (.add g 1 2 3) [(2, -1), (3, 2)] 1 = some 1 := by decide
theorem test_sub_source_is_destination : gives (.sub g 2 2 3) [(2, 5), (3, 7)] 2 = some (-2) := by decide
theorem test_g0_discards : gives (.add g 0 2 3) [(2, 5), (3, 7)] 0 = some 0 := by decide
theorem test_mulh_of_minus_one : gives (.mulh g 1 2 3) [(2, -1), (3, 2)] 1 = some (-1) := by decide
theorem test_mulhn_of_all_ones : gives (.mulhn g 1 2 3) [(2, -1), (3, -1)] 1 = some (-2) := by decide
theorem test_div_truncates : gives (.div g 1 2 3) [(2, -7), (3, 2)] 1 = some (-3) := by decide
theorem test_div_by_zero : gives (.div g 1 2 3) [(2, 9)] 1 = some (-1) := by decide
theorem test_div_overflow : gives (.div g 1 2 3) [(2, BitVec.intMin 64), (3, -1)] 1 = some (BitVec.intMin 64) := by decide
theorem test_rem_has_sign_of_dividend : gives (.rem g 1 2 3) [(2, -7), (3, 2)] 1 = some (-1) := by decide
theorem test_divn_is_unsigned : gives (.divn g 1 2 3) [(2, -1), (3, 2)] 1 = some 0x7FFF_FFFF_FFFF_FFFF := by decide
theorem test_andn : gives (.andn g 1 2 3) [(2, 0xFF), (3, 0x0F)] 1 = some 0xF0 := by decide
theorem test_shift_amount_modulo_64 : gives (.shl g 1 2 3) [(2, 1), (3, 65)] 1 = some 2 := by decide
theorem test_sra_copies_sign : gives (.sra g 1 2 3) [(2, BitVec.intMin 64), (3, 63)] 1 = some (-1) := by decide
theorem test_clz_of_zero : gives (.clz g 1 2) [] 1 = some 64 := by decide
theorem test_popc : gives (.popc g 1 2) [(2, 0xF0F0)] 1 = some 8 := by decide
theorem test_sext_bit_7 : gives (.sext g 1 2 7) [(2, 0x80)] 1 = some (-128) := by decide
theorem test_bfx : gives (.bfx g 1 2 8 7) [(2, 0x12345)] 1 = some 0x23 := by decide
theorem test_bfi : gives (.bfi g 1 2 3 8 7) [(2, 0xAB), (3, -1)] 1 = some 0xFFFF_FFFF_FFFF_ABFF := by decide
theorem test_li_is_signed : gives (.li g 1 0x800000000000) [] 1 = some 0xFFFF_8000_0000_0000 := by decide
theorem test_lih_replaces_the_top : gives (.lih g 1 2 0x1234) [(2, -1)] 1 = some 0x1234_FFFF_FFFF_FFFF := by decide
theorem test_lea : gives (.lea g 1 2 3 3 (-8)) [(2, 0x100), (3, 4)] 1 = some 0x118 := by decide
theorem test_minn_is_unsigned : gives (.minn g 1 2 3) [(2, -1), (3, 1)] 1 = some 1 := by decide
theorem test_sel_takes_b : gives (.sel g 1 2 3 4) [(2, 5), (3, 6)] 1 = some 6 := by decide
theorem test_guard_fails : gives (.add ⟨1, false⟩ 1 2 3) [(1, 9), (2, 5), (3, 7)] 1 = some 9 := by decide
theorem test_guard_of_p0_negated_traps : (after (.add ⟨0, true⟩ 1 2 3) s0 eC 0).map (fun t => (t.sr.tcause, t.handler)) = some (2, true) := by decide
theorem test_compare_signed : (after (.cmp g 3 1 2 .lt) (st eC 0 (thr [(1, -1), (2, 1)])) eC 0).map (·.regs.p) = some 9 := by decide
theorem test_compare_unsigned : (after (.cmpi g 3 1 .ltn 1) (st eC 0 (thr [(1, -1)])) eC 0).map (·.regs.p) = some 1 := by decide
theorem test_pset_keeps_p0 : (after (.pset g 1) s0 eC 0).map (·.regs.p) = some 1 := by decide
-- an FP64 sum, the fused step of R239's example in FP32, and an overflow
theorem test_fadd : gives (.fadd g 1 2 3 .df .rne) [(2, 0x3FF0_0000_0000_0000), (3, 0x4000_0000_0000_0000)] 1 = some 0x4008_0000_0000_0000 := by
  decide
theorem test_fma_rounds_once : gives (.fma g 1 2 3 4 .sf .rne) [(2, 0x3F80_0001), (3, 0x3F7F_FFFE), (4, 0xBF80_0000)] 1 = some 0xA880_0000 := by
  decide
theorem test_fdiv_by_zero : gives (.fdiv g 1 2 3 .sf .rne) [(2, 0x3F80_0000)] 1 = some 0x7F80_0000 := by decide
theorem test_fdiv_flags : (after (.fdiv g 1 2 3 .sf .rne) (st eC 0 (thr [(2, 0x3F80_0000)])) eC 0).map (·.sr.fflags) = some 8 := by decide
theorem test_fmin_orders_zeros : gives (.fmin g 1 2 3 .df) [(3, 0x8000_0000_0000_0000)] 1 = some 0x8000_0000_0000_0000 := by decide
theorem test_convert_to_int_saturates : gives (.fcvt g 1 2 .i8 .sf .rne false) [(2, 0x4396_0000)] 1 = some 127 := by decide
theorem test_fsqrt : gives (.fsqrt g 1 2 .hf .rne) [(2, 0x4400)] 1 = some 0x4000 := by decide
-- traps (R280, R442): TRAP goes to head 1 of the line of cause 0x21 and saves the next head
theorem test_trap : (after (.trap g 5) s0 eC 0).map (fun t => (t.pc, t.sr.trappc, t.sr.taddr, t.sup)) = some (0x842, 0x1004, 5, true) := by decide
theorem test_rtt_needs_supervisor : (after (.rtt g) s0 eC 0).map (·.sr.tcause) = some 4 := by decide
theorem test_local_load_out_of_range : (after (.ld g 1 2 3 false 0) s0 eC 0).map (·.sr.tcause) = some 7 := by decide


-- for each statement with hypotheses, a state and operands that meet them together

/-- A core whose segment 1 has landed, with one line of one head there. -/
def coreL (k : CoreKind) : Core :=
  { Core.start k with landed := 2#384, spad := mputs 0x1000 ((oneHeadLine 0 0).flatMap fun h => leBytes 2 h.toNat) [] }
abbrev sL (t : Thread) : State := stC eC 0 (coreL .compute) t
/-- The same thread in supervisor mode. -/
abbrev sup (t : Thread) : Thread := { t with sup := true }

-- Branches: a head (the first one of the segment), an address just past the last head of its line, a value just above 31 bits, the first
-- address of a segment that has not landed
theorem test_witness_lands : Lands (sL t0) eC 0x1002 ∧ HeadAt (sL t0) eC 0x1002 := by
  and_intros <;> decide
theorem test_witness_no_head : Lands (sL t0) eC 0x1004 ∧ ¬ HeadAt (sL t0) eC 0x1004 := by
  constructor
  · and_intros <;> decide
  · exact fun h => absurd h.2.2.1 (by decide)
abbrev tFar : Thread := thr [(1, 0x1002)]
theorem test_witness_branch : Issues (sL t0) u0 t0 (.br g 0) ∧ Issues (sL t0) u0 t0 (.call g 31 0) ∧ Issues (sL t0) u0 t0 (.jseg g 0) ∧
    BitVec.ofInt 32 (t0.pc.toNat + 2 * (0 : BitVec 22).toInt) = 0x1002 ∧ BitVec.ofInt 32 (t0.pc.toNat + 2 * (1 : BitVec 22).toInt) = 0x1004 := by
  refine ⟨issues_of rfl rfl (by decide), issues_of rfl rfl (by decide), issues_of rfl rfl (by decide), ?_, ?_⟩ <;> decide
theorem test_witness_branch_register : Issues (sL tFar) u0 tFar (.brr g 1) ∧ Issues (sL tFar) u0 tFar (.callr g 31 1) ∧
    (gr tFar 1).toNat < 2 ^ 32 ∧ Lands (sL tFar) eC ((gr tFar 1).setWidth 32) ∧ HeadAt (sL tFar) eC ((gr tFar 1).setWidth 32) := by
  refine ⟨issues_of rfl rfl (by decide), issues_of rfl rfl (by decide), ?_⟩
  and_intros <;> decide
abbrev tNo : Thread := thr [(1, 0x1004), (2, 0x1_0000_0000)]
theorem test_witness_branch_traps : Issues (sL tNo) u0 tNo (.callr g 31 1) ∧ Lands (sL tNo) eC ((gr tNo 1).setWidth 32) ∧
    ¬ HeadAt (sL tNo) eC ((gr tNo 1).setWidth 32) ∧ Issues (sL tNo) u0 tNo (.brr g 2) ∧ 2 ^ 32 ≤ (gr tNo 2).toNat := by
  refine ⟨issues_of rfl rfl (by decide), ?_, fun h => absurd h.2.2.1 (by decide), issues_of rfl rfl (by decide), by decide⟩
  and_intros <;> decide
theorem test_witness_branch_no_head : Issues (sL tNo) u0 tNo (.brr g 1) ∧ (gr tNo 1).toNat < 2 ^ 32 ∧ Issues (sL t0) u0 t0 (.jseg g 1) :=
  ⟨issues_of rfl rfl (by decide), by decide, issues_of rfl rfl (by decide)⟩
theorem test_witness_branch_unlanded : Issues (sL t0) u0 t0 (.jseg g 0x7FF) ∧
    (BitVec.ofInt 32 (t0.pc.toNat + 2 * (0x7FF : BitVec 22).toInt)).toNat = 0x2000 ∧ 0x2000 < xbBytes ((sL t0).core eC) ∧
    landed (sL t0) eC 0x2000 = false := by
  refine ⟨issues_of rfl rfl (by decide), ?_⟩
  and_intros <;> decide

-- TrapEntry, TrapAndReturn
theorem test_witness_takes_traps : TakesTraps t0 ∧ s0.thr? eC 0 = some t0 ∧ rectOf s0 eC = none := by and_intros <;> rfl
abbrev tHandler : Thread := { sup t0 with handler := true }
theorem test_witness_double_trap : (st eC 0 tHandler).thr? eC 0 = some tHandler ∧ tHandler.handler = true ∧ tHandler.xf = none ∧
    tHandler.pair = none := by and_intros <;> rfl
abbrev tRet (pc : CodeAddr) (h l : Bool) : Thread := { sup t0 with handler := h, lapsed := l, sr := { t0.sr with trappc := pc } }
/-- A migrant in a visitor slot, in a handler and not. -/
theorem test_witness_migrant_traps (h : Bool) : let t : Thread := { t0 with origin := some ⟨eC, 3, 5, 0⟩, handler := h }
    (st eM 16 t).thr? eM 16 = some t ∧ t.xf = none ∧ t.pair = none ∧ rectOf (st eM 16 t) eM = none := ⟨rfl, rfl, rfl, rfl⟩
theorem test_witness_rtt_user : Issues s0 u0 t0 (.rtt g) ∧ t0.sup = false ∧ TakesTraps t0 :=
  ⟨issues_of rfl rfl (by decide), rfl, test_witness_takes_traps.1⟩
theorem test_witness_rtt : Issues (sL (tRet 0x1002 true false)) u0 (tRet 0x1002 true false) (.rtt g) ∧
    Lands (sL (tRet 0x1002 true false)) eC 0x1002 ∧ HeadAt (sL (tRet 0x1002 true false)) eC 0x1002 := by
  refine ⟨issues_of rfl rfl (by decide), ?_, ?_⟩ <;> and_intros <;> decide
theorem test_witness_rtt_no_head : Issues (sL (tRet 0x1004 false false)) u0 (tRet 0x1004 false false) (.rtt g) ∧
    TakesTraps (tRet 0x1004 false false) ∧ Lands (sL (tRet 0x1004 false false)) eC 0x1004 ∧
    ¬ HeadAt (sL (tRet 0x1004 false false)) eC 0x1004 := by
  refine ⟨issues_of rfl rfl (by decide), ?_, ?_, fun h => absurd h.2.2.1 (by decide)⟩ <;> and_intros <;> first | rfl | decide
theorem test_witness_rtt_lapsed : Issues (sL (tRet 0 true true)) u0 (tRet 0 true true) (.rtt g) ∧ (tRet 0 true true).lapsed = true :=
  ⟨issues_of rfl rfl (by decide), rfl⟩

-- SpecialRegisterReads, SpecialRegisterWrites: the first and last supervisor registers in both modes, reserved values
theorem test_witness_mfs : ∀ n ∈ [(0x0C : BitVec 8), 0x18], Issues s0 u0 t0 (.mfs g 1 0 n) ∧ Issues (st eC 0 (sup t0)) u0 (sup t0) (.mfs g 1 0 n) := by
  simp only [List.forall_mem_cons]
  exact ⟨⟨issues_of rfl rfl (by decide), issues_of rfl rfl (by decide)⟩, ⟨issues_of rfl rfl (by decide), issues_of rfl rfl (by decide)⟩, by simp⟩
abbrev tMts : Thread := sup (thr [(1, 0x20), (2, 0x20_0000), (3, 0x400), (4, 0x100_0000_0000_0000), (5, 0x1_0000_0000), (6, 0x1_0000)])
theorem test_witness_mts_reserved : TakesTraps tMts ∧ isVisitor eC 0 = false ∧
    ([(0x08, 1), (0x09, 1), (0x11, 1), (0x0A, 2), (0x0B, 2), (0x0C, 2), (0x0D, 2), (0x13, 4), (0x14, 5), (0x15, 6), (0x17, 5), (0x18, 4)] :
      List (BitVec 8 × Reg)).all (fun x => canIssue u0 tMts (.mts g x.2 x.1)) = true := by
  refine ⟨⟨rfl, rfl, rfl, rfl⟩, ?_⟩
  and_intros <;> decide
theorem test_witness_mts_written :
    ([(0x08, 0), (0x09, 0), (0x11, 0), (0x0A, 1), (0x0B, 1), (0x0C, 3), (0x0D, 3), (0x0E, 6), (0x13, 6), (0x14, 6), (0x15, 1), (0x16, 4), (0x17, 6),
      (0x18, 6)] : List (BitVec 8 × Reg)).all (fun x => canIssue u0 tMts (.mts g x.2 x.1)) = true := by decide

-- FloatResults: NaNs of both kinds, infinities, zeros, negative and finite values in each format
theorem test_witness_float_values :
    [(Ty.bf, 0x7FC0, 0x7F81, 0x7F80, 0xFF80, 0x8000), (.hf, 0x7E00, 0x7C01, 0x7C00, 0xFC00, 0x8000),
      (.sf, 0x7FC0_0000, 0x7F80_0001, 0x7F80_0000, 0xFF80_0000, 0x8000_0000),
      (.df, 0x7FF8_0000_0000_0000, 0x7FF0_0000_0000_0001, 0x7FF0_0000_0000_0000, 0xFFF0_0000_0000_0000, 0x8000_0000_0000_0000)].all (fun x =>
      let v := unpack (fmtOf x.1)
      v x.2.1 == .nan false && v x.2.2.1 == .nan true && v x.2.2.2.1 == .inf false && v x.2.2.2.2.1 == .inf true &&
      (match v x.2.2.2.2.2, v 0, v (x.2.2.2.2.2 + 1), v 1 with
        | .num true 0 _, .num false 0 _, .num true 1 e, .num false 1 g => e == g
        | _, _, _, _ => false)) = true := by decide
theorem test_witness_finite : Finite (unpack fmt64 1) ∧ Finite (unpack fmt32 0x8000_0001) := by
  constructor <;> exact ⟨by decide, fun s => by cases s <;> decide⟩
-- RoundingIsCorrect: 1 + 2^−53 in FP64, a tie, does not overflow
theorem test_witness_rounding : (roundTo fmt64 .rne false false (2 ^ 53 + 1) (-53) false).2.testBit 2 = false := by decide
-- QuotientsAndRoots, PowersAndLogarithms: 1 in each format; 2 is as far from every boundary but itself as is asked
theorem test_witness_ones : ([(Ty.bf, 0x3F80), (.hf, 0x3C00), (.sf, 0x3F80_0000), (.df, 0x3FF0_0000_0000_0000)]).all (fun x => decide (scaled 1074 (unpack (fmtOf x.1) x.2) = 2 ^ 1074)) = true ∧
    Finite (unpack fmt32 0x3F80_0000) ∧ (∃ p e, unpack fmt32 0 = .num p 0 e) := ⟨by decide +kernel, ⟨by decide, fun s => by cases s <;> decide⟩, ⟨_, _, rfl⟩⟩
theorem test_witness_apart (f : Fmt) : Apart f 2 := by
  intro n g hn hne
  have two : |(2 : ℝ)| = 2 := by norm_num
  rw [two]
  rcases le_or_gt 1 g with hg | hg
  · obtain ⟨k, rfl⟩ : ∃ k : ℕ, g = k + 1 := ⟨(g - 1).toNat, by omega⟩
    have e : (2 : ℝ) - n * 2 ^ ((k : ℤ) + 1) = 2 * ((1 - n * 2 ^ k : ℤ) : ℝ) := by
      push_cast; rw [zpow_add_one₀ (by norm_num), zpow_natCast]; ring
    have nz : (1 - n * 2 ^ k : ℤ) ≠ 0 := fun h => hne (by
      have : (2 : ℝ) - n * 2 ^ ((k : ℤ) + 1) = 0 := by rw [e, h]; simp
      linarith)
    have one : (1 : ℝ) ≤ |((1 - n * 2 ^ k : ℤ) : ℝ)| := by exact_mod_cast Int.one_le_abs nz
    rw [e, abs_mul, two]
    nlinarith [one_le_pow₀ (n := f.mb + 70) (one_le_two : (1 : ℝ) ≤ 2)]
  · obtain ⟨k, rfl⟩ : ∃ k : ℕ, g = 1 - k := ⟨(1 - g).toNat, by omega⟩
    have pk : (0 : ℝ) < 2 ^ k := by positivity
    have e : (2 : ℝ) - n * 2 ^ (1 - (k : ℤ)) = 2 * ((2 ^ k - n : ℤ) : ℝ) / 2 ^ k := by
      push_cast; rw [zpow_sub₀ (by norm_num), zpow_natCast, zpow_one]; field_simp
    have nz : (2 ^ k - n : ℤ) ≠ 0 := fun h => hne (by
      have : (2 : ℝ) - n * 2 ^ (1 - (k : ℤ)) = 0 := by rw [e, h]; simp
      linarith)
    rw [e, abs_div, abs_mul, two, abs_of_pos pk, div_mul_eq_mul_div, le_div_iff₀ pk]
    rcases Nat.lt_or_ge (f.mb + 70) k with hk | hk
    · have big : (2 : ℤ) ^ k ≤ 2 * |2 ^ k - n| := by
        have : (2 : ℤ) ^ (f.mb + 3) ≤ 2 ^ k := pow_le_pow_right₀ (by norm_num) (by omega)
        rw [pow_succ] at this
        have a := abs_lt.1 hn
        rw [abs_of_pos] <;> omega
      have big' : (2 : ℝ) ^ k ≤ 2 * |((2 ^ k - n : ℤ) : ℝ)| := by exact_mod_cast big
      nlinarith [one_le_pow₀ (n := f.mb + 69) (one_le_two : (1 : ℝ) ≤ 2), pow_succ (2 : ℝ) (f.mb + 69), abs_nonneg ((2 ^ k - n : ℤ) : ℝ)]
    · have one : (1 : ℝ) ≤ |((2 ^ k - n : ℤ) : ℝ)| := by exact_mod_cast Int.one_le_abs nz
      have : (2 : ℝ) ^ k ≤ 2 ^ (f.mb + 70) := pow_le_pow_right₀ (by norm_num) hk
      nlinarith
-- MinAndMax, FloatComparisons: operands of each kind in one thread
abbrev tF : Thread := thr [(1, 0x7FF8_0000_0000_0000), (2, 0x7FF0_0000_0000_0001), (3, 0x7FF0_0000_0000_0000), (4, 0xFFF0_0000_0000_0000),
  (5, 0x8000_0000_0000_0000), (6, 0x3FF0_0000_0000_0000)]
theorem test_witness_float_operands : ([.fmin g 7 1 2 .df, .fmax g 7 5 0 .df, .fcmp g 1 3 4 .df .lt, .fclass g 7 5 .df, .fadd g 7 6 6 .df .rd,
    .vmin g 1 2 (.v 3) .sf mk0 false, .fcvt g 7 3 .i32 .df .rz false] : List Instr).all (canIssue u0 tF) = true := by decide
-- Conversions, ConversionToLg: NaN, infinity, zero, a finite value; integers
theorem test_witness_conversions : tyVal [] .df 0x7FF8_0000_0000_0000 = .nan false ∧ tyVal [] .df 0xFFF0_0000_0000_0000 = .inf true ∧
    (∃ e, tyVal [] .df 0 = .num false 0 e) ∧ (∃ e, tyVal [] .df 0x3FF0_0000_0000_0000 = .num false (2 ^ 52) e) ∧ intOf .i8 0x80 = -128 ∧ intOf .i8 0 = 0 := by
  refine ⟨by decide, by decide, ⟨_, rfl⟩, ⟨_, rfl⟩, by decide, by decide⟩

-- vectors and local accesses
/-- A check passes with a value. -/
def passesWith {α : Type} [DecidableEq α] (x : Checked α) (v : α) : Bool := match x with
  | .ok y => decide (y = v)
  | .error _ => false
/-- A check fails with a trap. -/
def failsWith {α : Type} (x : Checked α) (tr : Trap) : Bool := match x with
  | .ok _ => false
  | .error y => decide (y = tr)
theorem ok_of {α : Type} [DecidableEq α] {x : Checked α} {v : α} (h : passesWith x v = true) : x = .ok v := by
  cases x <;> simp_all [passesWith]
theorem error_of {α : Type} {x : Checked α} {tr : Trap} (h : failsWith x tr = true) : x = .error tr := by
  cases x <;> simp_all [failsWith]
/-- A thread with the allotment of 64 KiB at 128 KiB. -/
abbrev own (t : Thread) : Thread := { t with sr := { t.sr with lbase := 128, lsize := 64 } }
abbrev tL : Thread := own t0
theorem test_witness_vector_types : (∀ ty ∈ [Ty.bf, .hf, .sf, .df], ClassF ty ∧ canIssue u0 t0 (.vadd g 1 1 (.v 1) ty .rne mk0 false) = true) ∧
    ∀ ty ∈ [Ty.i8, .i32, .n64], ty.isI = true ∧ canIssue u0 t0 (.vshr g 1 1 (.v 1) ty mk0 false) = true := by
  constructor <;> intro ty h <;> simp only [List.mem_cons, List.mem_nil_iff, or_false] at h
  · obtain rfl | rfl | rfl | rfl := h <;> exact ⟨by simp [ClassF], by decide⟩
  · obtain rfl | rfl | rfl := h <;> exact ⟨rfl, by decide⟩
theorem test_witness_lane_to_vector : (15 : BitVec 6).toNat < Ty.sf.lanes ∧ canIssue u0 t0 (.vins g 1 1 .sf 15) = true := by decide
-- VectorFolds: the last part of a narrowing, a widening and of equal widths
theorem test_witness_vcvt_parts : ∀ x ∈ [(Ty.bf, Ty.df, (3 : BitVec 5)), (.df, .bf, 3), (.sf, .i32, 0)],
    x.2.2.toNat < max (x.1.width / x.2.1.width) (x.2.1.width / x.1.width) ∧ canIssue u0 t0 (.vcvt g 1 1 x.1 x.2.1 .rne false x.2.2) = true := by
  decide
theorem test_witness_fold_operators : Ty.i32.isI = true ∧ canIssue u0 t0 (.vred g 1 1 0 .i32 .rne mk0) = true ∧
    canIssue u0 t0 (.vred g 1 1 3 .n64 .rne mk0) = true := by decide
abbrev tQ (w : Word) : Thread := thr [(2, w)]
theorem test_witness_barq_bad : Issues (st eG 0 (tQ 0x2000)) (turn eG 0) (tQ 0x2000) (.barq g 1 1 1 3 .lg mk0 false) ∧
    (∃ i < 4, (gr (tQ 0x2000) 2).toNat / 2 ^ (16 * i + 13) % 2 ^ 3 ≠ 0) ∧ TakesTraps (tQ 0x2000) :=
  ⟨issues_of rfl rfl (by decide), ⟨0, by decide, by decide⟩, by and_intros <;> rfl⟩
theorem test_witness_barq : Issues (st eG 0 (tQ 0x1FFF)) (turn eG 0) (tQ 0x1FFF) (.barq g 1 1 1 3 .lg mk0 false) ∧
    (¬ ∃ i < 4, (gr (tQ 0x1FFF) 2).toNat / 2 ^ (16 * i + 13) % 2 ^ 3 ≠ 0) ∧
    Issues (st eG 0 (tQ 0x1FFF)) (turn eG 0) (tQ 0x1FFF) (.barq g 2 1 1 3 .lg mk0 false) := ⟨issues_of rfl rfl (by decide), by decide, issues_of rfl rfl (by decide)⟩

-- LocalAccessChecks: the last byte of the allotment, one past it, an address below XB, a misaligned one
theorem test_witness_local_last : checkLocal s0 eC tL 0xFFF8 8 = .ok 0x2FFF8 ∧ (8 ∣ (0xFFF8 : Word).toNat) := ⟨ok_of (by decide), by decide⟩
theorem test_witness_local_past : checkLocal s0 eC tL 0xFFF9 8 = .error ⟨0x07, 0xFFF9, 8⟩ ∧ tL.sr.lsize.toNat * 2 ^ 10 < 0xFFF9 % 2 ^ 21 + 8 := ⟨error_of (by decide), by decide⟩
theorem test_witness_local_below_xb : checkLocal s0 eC { t0 with sr := { t0.sr with lbase := 127, lsize := 64 } } 0x3FF 1 = .error ⟨0x05, 0x3FF, 1⟩ := error_of (by decide)
theorem test_witness_local_misaligned : checkLocal s0 eC tL 4 8 = .ok 0x20004 ∧ ¬ 8 ∣ (4 : Word).toNat := ⟨ok_of (by decide), by decide⟩

/-- A state whose core holds the thread's allotment, with states of granules. -/
abbrev sV (gran : Table GState) (t : Thread) : State := stC eC 0 { Core.start .compute with gran := gran } t
theorem plain_of {e : EP} {n : Nat} {c : Core} {t : Thread} {ws : List Nat} (hr : t.region = none) (hu : c.upsets = []) (hv : c.vbuf = [])
    (hw : c.watches = []) : Plain (stC e n c t) (turn e n) t ws := by
  have h : (stC e n c t).core e = { c with slots := [(n, t)] } := by simp [State.core, stC, tget]
  refine ⟨hr, by simp [localOut, stC, State.reset], rfl, ?_, fun w _ => ?_, ?_⟩
  · show ((stC e n c t).core e).upsets = []
    rw [h]; exact hu
  · show stackOf (stC e n c t) e w = []
    simp [stackOf, h, hv]
  · show ((stC e n c t).core e).watches = []
    rw [h]; exact hw
-- LocalAccesses, VectorAccesses: plain accesses of the last bytes, and of a row
theorem test_witness_local_load : Issues (sV [] tL) u0 tL (.ld g 1 0 3 false 0xFFF8) ∧ Issues (sV [] tL) u0 tL (.st g 1 0 3 0xFFF8) ∧
    Plain (sV [] tL) u0 tL (wordsOf 0x2FFF8 8) ∧ checkLocal (sV [] tL) eC tL (gr tL 0 + (0xFFF8 : BitVec 32).signExtend 64) 8 = .ok 0x2FFF8 ∧
    anyOchre (sV [] tL) eC 0x2FFF8 8 = false :=
  ⟨issues_of rfl rfl (by decide), issues_of rfl rfl (by decide), plain_of rfl rfl rfl rfl, ok_of (by decide), by decide⟩
theorem test_witness_local_indexed : Issues (sV [] tL) u0 tL (.ldx g 1 0 0 2 true 3) ∧ Issues (sV [] tL) u0 tL (.stx g 1 0 0 2 3) ∧
    checkLocal (sV [] tL) eC tL (gr tL 0 + (gr tL 0 <<< 3)) 4 = .ok 0x20000 :=
  ⟨issues_of rfl rfl (by decide), issues_of rfl rfl (by decide), ok_of (by decide)⟩
theorem test_witness_local_traps : TakesTraps tL ∧ anyOchre (sV [(0x2000, .ochre)] tL) eC 0x20008 8 = true ∧
    Plain (sV [(0x2000, .ochre)] tL) u0 tL (wordsOf 0x20008 8) ∧ rectOf (sV [(0x2000, .ochre)] tL) eC = none ∧
    checkLocal (sV [] tL) eC tL 0xFFFC 8 = .error ⟨0x07, 0xFFFC, 8⟩ :=
  ⟨by and_intros <;> rfl, by decide, plain_of rfl rfl rfl rfl, rfl, error_of (by decide)⟩
theorem test_witness_vector_row : Issues (sV [] tL) u0 tL (.vld g 1 0 2 mk0 false 0xFFC0) ∧ Issues (sV [] tL) u0 tL (.vst g 1 0 2 mk0 0xFFC0) ∧
    checkLocal (sV [] tL) eC tL (gr tL 0 + (0xFFC0 : BitVec 32).signExtend 64) 64 = .ok 0x2FFC0 ∧ anyOchre (sV [] tL) eC 0x2FFC0 64 = false :=
  ⟨issues_of rfl rfl (by decide), issues_of rfl rfl (by decide), ok_of (by decide), by decide⟩
abbrev tS : Thread := own (thr [(2, 8)])
/-- Eight doublewords with a stride of 8 lie in one row of banks: one pass. -/
abbrev row : List Elem := (List.range 8).map fun j => (j, BitVec.ofNat 64 (8 * j), 0x20000 + 8 * j)
theorem test_witness_vector_stride : Issues (sV [] tS) u0 tS (.vlds g 1 1 2 .df mk0 false) ∧ Issues (sV [] tS) u0 tS (.vsts g 1 1 2 .df mk0) ∧
    strideElems (sV [] tS) eC tS 1 2 8 mk0 = .ok row ∧ passCount (elemWords row) ≤ 4 ∧ tS.passes = 0 ∧
    (∀ x ∈ row, anyOchre (sV [] tS) eC x.2.2 8 = false) :=
  ⟨issues_of rfl rfl (by decide), issues_of rfl rfl (by decide), ok_of (by decide), by decide, rfl, by decide⟩

-- a package with tables, which its first memory core holds in its line buffer
/-- A second compute core. -/
abbrev eD : EP := mkEp 0 0 0 1 0
/-- A clean line of a line buffer. -/
def bufLine (a v : Nat) : BufLine := ⟨a, BitVec.ofNat 512 v, false, false, false, false, []⟩
/-- The record of context 0 (R246: V, PRIV, CHAN 4, VCLEN 4, its virtual-core map at 0x101000), a MODE 1 and a MODE 2 queue of one entry
(R261), a communicator of two (R132), the map entries (R22: a core, the bridge, the own core), two peers (R17) and the participants. -/
def tables : List BufLine :=
  [bufLine 0 (2 ^ 63 + 2 ^ 62 + 4 * 2 ^ 56 + 0x101 * 2 ^ 76 + 4 * 2 ^ 128), bufLine 0x40 (2 ^ 63 + 2 ^ 46 + 2 ^ 32), bufLine 0x80 (2 ^ 63 + 2 * 2 ^ 46 + 2 ^ 45 + 2 ^ 32),
   bufLine 0xC0 (2 ^ 63 + 2 ^ 32 + 0x080800 * 2 ^ 64), bufLine 0x080800 0x10000,
   bufLine 0x101000 (2 ^ 63 + 64 * 2 ^ 48 + 128 * 2 ^ 24 + eD + (2 ^ 63 + bridgeEp 0) * 2 ^ 64 + (2 ^ 63 + 64 * 2 ^ 48 + 128 * 2 ^ 24) * 2 ^ 128),
   bufLine 0x202000 (3 + (2 ^ 31 + 2 ^ 12 + 5) * 2 ^ 32)]
/-- The package of the tables, with a live handle 7 of context 0. -/
def pkg0 : Pkg := { Pkg.off 0 with
  powered := true, bridge := { Bridge.start with ctxbase := 0, qdbase := 0x40, commbase := 0xC0 },
  lapse := [(7, ⟨.request, false, false, 0, 0, -1, 1, 0, 0, 0, 0, [], false, [], false, 0, 0, none⟩)] }
/-- The memory core of the tables. -/
def tableCore : Core := { Core.start .memory with mem := ⟨tables, [], [], 0, 0⟩ }
/-- A thread in slot 0 of the first compute core of that package, on a core given. -/
abbrev wc (c : Core) (t : Thread) : State :=
  { State.reset with pkgs := [(0, pkg0)], cores := [(eC, { c with slots := [(0, t)] }), (eM, tableCore)], turn := some u0, nextUid := 9 }
abbrev wt (t : Thread) : State := wc (Core.start .compute) t
/-- A thread with the peer map, in its allotment. -/
abbrev tW (rs : List (Reg × Word)) : Thread := let t := thr rs; { t with sr := { t.sr with lbase := 128, lsize := 64, peermap := 0x202 } }

-- FabricAccesses: the last doubleword of another core's allotment, one past it, another package, and the bridge window
/-- g2 names the last doubleword of virtual core 0, g3 the one past it, g4 virtual core 0 of package 1, g5 the window, g6 the own core. -/
abbrev tP : Thread := tW [(2, 0x4000_0000_0000_FFF8), (3, 0x4000_0000_0001_0000), (4, 0x4000_0100_0000_0000), (5, 0x4000_0000_0100_0000), (6, 0x4000_0000_0200_0000)]
theorem test_witness_fabric_route : passesWith (checkFabric (wt tP) eC tP (gr tP 2) 8 0x13) ⟨eD, none, 0xFFF8, some 0x2FFF8, 3⟩ ∧
    passesWith (checkFabric (wt tP) eC tP (gr tP 3) 8 0x13) ⟨eD, none, 0x10000, none, 3⟩ ∧
    passesWith (checkFabric (wt tP) eC tP (gr tP 4) 8 0x13) ⟨gatewayEp 1 0 0 1, some 0, 0, none, 5⟩ ∧
    bridgeRoute (wt tP) eC tP (gr tP 2) = none ∧ bridgeRoute (wt tP) eC tP (gr tP 4) = none ∧ bridgeRoute (wt tP) eC tP (gr tP 5) = some (0, 3) := by
  and_intros <;> decide +kernel
abbrev limit (n m : Nat) (t : Thread) : Thread := { t with cnt := { t.cnt with ldc := n, stc := m } }
theorem test_witness_fabric_issues : Issues (wt tP) u0 tP (.ldf g 1 2 3 false false 0) ∧ Issues (wt tP) u0 tP (.stf g 1 2 3 false 0) ∧
    Issues (wt (limit 7 7 tP)) u0 (limit 7 7 tP) (.ldf g 1 2 3 false true 0) ∧ Issues (wt (limit 7 7 tP)) u0 (limit 7 7 tP) (.stf g 1 2 3 true 0) ∧
    Issues (wt (limit 8 8 tP)) u0 (limit 8 8 tP) (.ldf g 1 2 3 false true 0) ∧ Issues (wt (limit 8 8 tP)) u0 (limit 8 8 tP) (.stf g 1 2 3 true 0) := by
  exact ⟨issues_of rfl rfl (by decide), issues_of rfl rfl (by decide), issues_of rfl rfl (by decide), issues_of rfl rfl (by decide),
    issues_of rfl rfl (by decide), issues_of rfl rfl (by decide)⟩
-- Atomics, FullEmptyAccesses, BlockStates: a local operand and one of another core
theorem test_witness_places : passesWith (checkPlace (wt tP) eC tP 0xFFF8 8 0x13) (.local_ 0x2FFF8) ∧
    passesWith (checkPlace (wt tP) eC tP (gr tP 2) 8 0x13) (.fabric ⟨eD, none, 0xFFF8, some 0x2FFF8, 3⟩) ∧
    passesWith (checkPlace (wt tP) eC tP 0xFC00 1024 0x13) (.local_ 0x2FC00) ∧
    passesWith (checkPlace (wt tP) eC tP 0x4000_0000_0000_FC00 1024 0x13) (.fabric ⟨eD, none, 0xFC00, some 0x2FC00, 3⟩) := by
  and_intros <;> decide +kernel
theorem test_witness_atomics : ([.amo g 1 2 3 0 true false, .cas g 1 2 3 4 0 true false, .red g 2 3 0 true] : List Instr).all (canIssue u0 tP) = true ∧
    tP.cnt.ldc < 8 ∧ tP.cnt.stc < 8 ∧ 8 ∣ (gr tP 2).toNat := by decide
theorem test_witness_full_empty_local : checkPlace (sV [(0x2FFF, .full)] tL) eC tL (gr tL 0) 16 0x13 = .ok (.local_ 0x20000) ∧
    Plain (sV [(0x2000, .full)] tL) u0 tL (wordsOf 0x20000 16) ∧ queued (sV [(0x2000, .full)] tL) eC 0x20000 16 = false ∧
    (∀ st : GState, granAt (sV [(0x2000, st)] tL) eC 0x20000 = st) ∧ drainedMask (sV [] tL) eC tL 0x19 0 = true ∧
    locate (sV [] tL) eC tL.uid = .slot 0 ∧ tL.origin = none ∧ tL.park = none :=
  ⟨ok_of (by decide), plain_of rfl rfl rfl rfl, by decide, fun _ => rfl, by decide, rfl, rfl, rfl⟩
/-- A relaxed store of the thread is still on its way: CORE is not drained. -/
abbrev busy (t : Thread) : Thread := t.setSb 8 ⟨.sent, 2, 0, 0, 0, false⟩
theorem test_witness_put_waits : Issues (wt (busy tP)) u0 (busy tP) (.put g 1 2 0 3) ∧ drainedMask (wt (busy tP)) eC (busy tP) 0x19 0 = false ∧ gr (busy tP) 0 = 0 := by
  refine ⟨issues_of rfl rfl (by decide), by decide, by decide⟩
theorem test_witness_block : Issues (sV [] tL) u0 tL (.feset g 0 1 2) ∧ Issues (sV [] tL) u0 tL (.feget g 1 0 true) ∧ Plain (sV [] tL) u0 tL (wordsOf 0x20000 1024) ∧
    BitVec.ofNat 64 ((gr tL 0).toNat / 2 ^ 10 * 2 ^ 10) = 0 :=
  ⟨issues_of rfl rfl (by decide), issues_of rfl rfl (by decide), plain_of rfl rfl rfl rfl, by decide⟩
-- FenceInstruction, CounterWaitsAndCrossFence: drained and not, with a timeout, without, and at the end of a wait
abbrev tWait (l : Option Nat) : Thread := { busy tL with park := some ⟨.again (.drained 1 0), 0, l, 0x1004, 0, 0, 0⟩ }
theorem test_witness_fence : Issues (sV [] tL) u0 tL (.fence g 1 0 0xFF) ∧ drainedMask (sV [] tL) eC tL 0xFF 0 = true ∧
    Issues (sV [] (busy tL)) u0 (busy tL) (.fence g 1 0 1) ∧ drainedMask (sV [] (busy tL)) eC (busy tL) 1 0 = false ∧ gr (busy tL) 0 = 0 :=
  ⟨issues_of rfl rfl (by decide), by decide, issues_of rfl rfl (by decide), by decide, by decide⟩
theorem test_witness_fence_end : Issues (sV [] (tWait (some 0))) u0 (tWait (some 0)) (.fence g 1 0 1) ∧ (0 ≤ ((sV [] (tWait (some 0))).core eC).cycle) ∧
    drainedMask (sV [] (tWait (some 0))) eC (tWait (some 0)) 1 0 = false ∧ Issues (sV [] (tWait none)) u0 (tWait none) (.fence g 1 0 1) :=
  ⟨issues_of rfl rfl (by decide), by decide, by decide, issues_of rfl rfl (by decide)⟩
abbrev tVisit : Thread := { t0 with origin := some ⟨eC, 3, 5, 0⟩ }
theorem test_witness_fence_migrant : Issues (st eM 16 tVisit) (turn eM 16) tVisit (.fence g 1 0 0) ∧ drainedMask (st eM 16 tVisit) eM tVisit 0 0 = true ∧ tVisit.park = none :=
  ⟨issues_of rfl rfl (by decide), by decide, rfl⟩
theorem test_witness_waitc : Issues (sV [] (limit 1 0 tL)) u0 (limit 1 0 tL) (.waitc g 0 1) ∧ Issues (sV [] (limit 1 0 tL)) u0 (limit 1 0 tL) (.waitc g 0 0) ∧
    (limit 1 0 tL).cnt.ldc ≤ 1 ∧ ¬ (limit 1 0 tL).cnt.ldc ≤ 0 ∧ Issues (sV [] (limit 1 0 (own (tQ 1)))) u0 (limit 1 0 (own (tQ 1))) (.waitc g 2 0) ∧ gr (limit 1 0 (own (tQ 1))) 2 ≠ 0 :=
  ⟨issues_of rfl rfl (by decide), issues_of rfl rfl (by decide), by decide, by decide, issues_of rfl rfl (by decide), by decide⟩
theorem test_witness_xfence : Issues (sV [] tL) u0 tL (.xfence g 0 0xFF 0) ∧ drainedMask (sV [] tL) eC tL 0xFF 0 = true ∧ ((sV [] tL).core eC).destQ = [] ∧
    Issues (sV [] (busy (own (tQ 1)))) u0 (busy (own (tQ 1))) (.xfence g 2 1 0) ∧ drainedMask (sV [] (busy (own (tQ 1)))) eC (busy (own (tQ 1))) 1 0 = false ∧ gr (busy (own (tQ 1))) 2 ≠ 0 :=
  ⟨issues_of rfl rfl (by decide), by decide, rfl, issues_of rfl rfl (by decide), by decide, by decide⟩
-- TagTable: an entry within the allotment's slots, one outside, none, a full table
abbrev sTag (l : List TagEntry) (t : Thread) : State := stC eC 0 { Core.start .compute with tags := l } t
abbrev tTag : Thread := own (thr [(1, 0x400), (2, 63), (3, 64)])
theorem test_witness_tag_found : Issues (sTag [⟨0, 1, 191, true, false⟩] tTag) u0 tTag (.tlook g 4 1) ∧ (gr tTag 1).extractLsb' 10 46 = (1 : BitVec 46) ∧
    tTag.sr.lbase.toNat ≤ 191 ∧ 191 < tTag.sr.lbase.toNat + tTag.sr.lsize.toNat ∧ ¬ 192 < tTag.sr.lbase.toNat + tTag.sr.lsize.toNat :=
  ⟨issues_of rfl rfl (by decide), by decide, by decide, by decide, by decide⟩
theorem test_witness_tag_insert : ([.tins g 1 2 true false, .tins g 1 3 true false, .tdel g 1 false] : List Instr).all (canIssue u0 tTag) = true ∧
    (gr tTag 2).toNat < tTag.sr.lsize.toNat ∧ tTag.sr.lsize.toNat ≤ (gr tTag 3).toNat ∧ TakesTraps tTag := by
  refine ⟨by decide, by decide, by decide, ?_⟩
  and_intros <;> rfl
theorem test_witness_tag_full : ((sTag (List.replicate 512 ⟨1, 0, 0, false, false⟩) tTag).core eC).tags.length = 512 :=
  List.length_replicate ..
theorem test_witness_tag_delete_all : Issues (sTag [] (sup tTag)) u0 (sup tTag) (.tdel g 1 true) ∧ Issues (sTag [] tTag) u0 tTag (.tdel g 1 true) ∧
    (gr (sup tTag) 0).setWidth 12 = (sup tTag).ctx := ⟨issues_of rfl rfl (by decide), issues_of rfl rfl (by decide), by decide⟩
-- HomeMemoryAccesses: a page of 64 KiB at physical 0, read and written on its home, an address homed on another core, and pages without rights
abbrev page (rd wr : Bool) : TlbEntry := ⟨0, 0, 16, 0, 0, rd, wr, false, false⟩
abbrev tH : Thread := thr [(2, 0x8000_0000_0000_0000), (3, 0x8000_0000_0000_0100)]
abbrev sH (x : TlbEntry) (e : EP) : State := stC e 0 { Core.start (kindOf e) with tlb := [x] } tH
theorem test_witness_translated (rd wr : Bool) : Translated (sH (page rd wr) eM) (turn eM 0) tH (gr tH 2) (page rd wr)
    ((sH (page rd wr) eM).modCore eM fun c => { c with tlb := [page rd wr] }) := by
  cases rd <;> cases wr <;> exact ⟨[page _ _], ok_of (by decide), by decide, rfl⟩
theorem test_witness_home : (dramTarget (sH (page true true) eM) 0 (page true true) 0).1 = eM ∧ (dramTarget (sH (page true true) eM) 0 (page true true) 0x100).1 ≠ eM ∧
    ([.mld g 1 2 3 false 0, .mst g 1 2 3 0, .mamo g 1 2 3 0 0 true false, .mamo g 1 2 3 0 15 true true, .remup g 2 3 0 true] : List Instr).all
      (canIssue (turn eM 0) tH) = true ∧ (8 ∣ (gr tH 2).toNat) ∧ TakesTraps tH ∧ ebitOf (sH (page true true) eM) 0 tH.sr.peermap 0 = some 0 := by
  refine ⟨by decide, by decide, by decide, by decide, by and_intros <;> rfl, by decide +kernel⟩

-- LapseTest, HandleInstructions: the nanosecond of an instant and the one before, handles held, own, system and others'
theorem test_witness_lapse : (0 : Instant).toNat ≠ 0xFFFF_FFFF_FFFF ∧ (s0.die 0).now.toNat % 2 ^ 48 = (0 : Instant).toNat ∧
    (s0.die 0).now.toNat % 2 ^ 48 + 1 = (1 : Instant).toNat := by decide
/-- A state whose die knows union 9 with members 7, live, and 8, and in which handle 8 has lapsed. -/
abbrev wu (t : Thread) : State := { wt t with dies := [(0, { Die.start with replica := ⟨[8], [(9, [(7, true), (8, false)])], 0, []⟩ })] }
abbrev tHnd (h : Handle) : Thread := let t := tW [(1, 7), (2, 8), (3, 9)]; { t with sr := { t.sr with hnd := h } }
theorem test_witness_handles : Issues (wu (tHnd 9)) u0 (tHnd 9) (.hnd g 4 1 false) ∧ tget ((wu (tHnd 9)).die 0).replica.unions 9 = some [(7, true), (8, false)] ∧
    Issues (wu (tHnd 9)) u0 (tHnd 9) (.livemask g 4 3) ∧ mayCancel (wu (tHnd 9)) eC (tHnd 9) 7 = true ∧ mayCancel (wu (tHnd 9)) eC (tHnd 9) 6 = false ∧
    mayCancel (wu (sup (tHnd 0))) eC (sup (tHnd 0)) 0 = false :=
  ⟨issues_of rfl rfl (by decide), by decide, issues_of rfl rfl (by decide), by decide, by decide, by decide⟩
theorem test_witness_hnd_left : (tHnd 0).sr.inst = -1 ∧ lapsedAt ((wu (tHnd 0)).die 0).now 1 = false ∧ lapsedAt ((wu (tHnd 0)).die 0).now 0 = true := by decide
theorem test_witness_handle_requests : ([.cancel g 1, .cancel g 0, .adopt g 3, .union g 4 0 64] : List Instr).all (canIssue u0 (tHnd 7)) = true ∧
    isSystem (wu (sup (tHnd 0))) eC (sup (tHnd 0)) = true ∧ TakesTraps (tHnd 7) ∧
    tget ((wu (tHnd 7)).die 0).replica.unions 9 = some [((tHnd 7).sr.hnd.toNat, true), (8, false)] ∧ tget ((wu (tHnd 7)).die 0).replica.unions 7 = none := by
  refine ⟨by decide, by decide +kernel, ?_, by decide, by decide⟩
  and_intros <;> rfl
theorem test_witness_union : checkLocal (wu (tHnd 7)) eC (tHnd 7) (gr (tHnd 7) 0) (2 * 64) = .ok 0x20000 ∧ anyOchre (wu (tHnd 7)) eC 0x20000 128 = false ∧
    (tHnd 7).provisional = none ∧ isSystem (wu (tHnd 7)) eC (tHnd 7) = false ∧ ((wu (tHnd 7)).core eC).upsets = [] ∧ ((wu (tHnd 7)).core eC).vbuf = [] ∧
    ((wu (tHnd 7)).core eC).watches = [] ∧ localOut (wu (tHnd 7)) eC (tHnd 7) = false ∧ u0.lost = false := ⟨ok_of (by decide), by decide, rfl, by decide, rfl, rfl, rfl, by decide, rfl⟩

-- Regions
abbrev inReg (t : Thread) : Thread := { t with region := some ⟨5, none⟩ }
abbrev rec5 : Region := ⟨.opened, 1, reqOf eC 0 t0 0 0, ⟨-1, 0, 0⟩, 0, 0, 0, [], [eC], [], 0, false, 0, eC⟩
abbrev sR (t : Thread) : State := { st eC 0 t with dies := [(0, { Die.start with regions := [(5, rec5)] })] }
theorem test_witness_region_commit : Issues (sR (inReg t0)) u0 (inReg t0) (.rcommit g) ∧ drainedMask (sR (inReg t0)) eC (inReg t0) 0x09 0 = true ∧
    drainedMask (sR (busy (inReg t0))) eC (busy (inReg t0)) 0x09 0 = false ∧ Issues (sR (inReg t0)) u0 (inReg t0) (.rstat g 1) ∧ t0.region = none :=
  ⟨issues_of rfl rfl (by decide), by decide, by decide, issues_of rfl rfl (by decide), rfl⟩
theorem test_witness_region_abort : Issues (sR (inReg t0)) u0 (inReg t0) (.rabort g) ∧ Issues (sR (inReg t0)) u0 (inReg t0) (.take g 1 1 1 3 false) ∧
    tget ((sR (inReg t0)).die (regionDie (epPkg eC) 5)).regions (5 % 1024) = some rec5 ∧ rec5.state = .opened ∧ rec5.owners ≠ [] ∧
    (∀ x ∈ ((sR (inReg t0)).die 0).regions, 5 ∉ x.2.preds) ∧ (inReg t0).handler = false :=
  ⟨issues_of rfl rfl (by decide), issues_of rfl rfl (by decide), by decide, rfl, by decide, by decide, rfl⟩

-- MigrationAndShootdown
theorem test_witness_go : Issues (sH (page true true) eC) u0 tH (.go g 2) ∧ tH.origin = none ∧ tH.cnt.ldc = 0 ∧ tH.cnt.stc = 0 ∧
    Translated (sH (page true true) eC) u0 tH (gr tH 2) (page true true) ((sH (page true true) eC).modCore eC fun c => { c with tlb := [page true true] }) ∧
    epPkg (dramTarget (sH (page true true) eC) 0 (page true true) 0).1 = epPkg eC :=
  ⟨issues_of rfl rfl (by decide), rfl, rfl, rfl, ⟨[page _ _], ok_of (by decide), by decide, rfl⟩, by decide⟩
theorem test_witness_back : Issues (st eM 16 tVisit) (turn eM 16) tVisit (.back g) ∧ tVisit.cnt.cpc = 0 ∧ tVisit.qres.count = 0 ∧ tVisit.outbox = [] ∧
    tVisit.provisional = none ∧ epPkg eC = epPkg eM := ⟨issues_of rfl rfl (by decide), rfl, rfl, rfl, rfl, by decide⟩
/-- In an open region, for the page of a core of another die. -/
theorem test_witness_go_region : let t : Thread := { thr [(2, 0x8000_0000_0000_2000)] with region := some ⟨5, none⟩ }
    let s := stC eC 0 { Core.start .compute with tlb := [page true true] } t
    Issues s u0 t (.go g 2) ∧ dieKey (dramTarget s 0 (page true true) 0x2000).1 ≠ dieKey eC ∧
      Translated s u0 t (gr t 2) (page true true) (s.modCore eC fun c => { c with tlb := [page true true] }) :=
  ⟨issues_of rfl rfl (by decide), by decide, ⟨[page _ _], ok_of (by decide), by decide, rfl⟩⟩
abbrev tI : Thread := sup (tW [(2, 0x8000_0000_0000_0000)])
theorem test_witness_invtlb : (∀ sc ∈ [(0 : BitVec 2), 1, 2], sc ≠ 3 ∧ canIssue u0 tI (.invtlb g 0 2 sc) = true) ∧ isSystem (wt tI) eC tI = true ∧
    checkDv (gr tI 2) = .ok 0 ∧ (gr tI 0).setWidth 12 = tI.ctx ∧ isSystem (st eC 0 tI) eC tI = false := by
  refine ⟨by decide, by decide +kernel, ok_of (by decide), by decide, by decide +kernel⟩
theorem test_witness_invtlb_traps : (∀ va, checkDv (gr tI 0) ≠ .ok va) ∧ TakesTraps tI := by
  have h : checkDv (gr tI 0) = .error ⟨0x10, 0, 0⟩ := error_of (by decide)
  refine ⟨fun va => (by rw [h]; simp), ?_⟩
  and_intros <;> rfl

-- ContextSwaps: the last slot and image entry, and the first ones past them
abbrev tSw : Thread := sup (tW [(1, 0x7F0F), (2, 0x8000), (3, 0x7F), (4, 0x80), (5, 3)])
theorem test_witness_cswap : Issues (wt tSw) u0 tSw (.cswap g 1 0) ∧ (gr tSw 1).toNat < 2 ^ 15 ∧ (gr tSw 1).toNat / 2 ^ 4 % 2 ^ 4 = 0 ∧ (gr tSw 1).toNat % 2 ^ 4 ≠ 0 ∧
    (wt tSw).thr? eC 15 = none ∧ ¬ (gr tSw 2).toNat < 2 ^ 15 ∧ TakesTraps tSw := by
  refine ⟨issues_of rfl rfl (by decide), by decide, by decide, by decide, by decide, by decide, ?_⟩
  and_intros <;> rfl
abbrev sTwo (t x : Thread) : State := { wt t with cores := [(eC, { Core.start .compute with slots := [(0, t), (15, x)] }), (eM, tableCore)] }
theorem test_witness_cswap_leaves : (sTwo tSw tL).thr? eC 15 = some tL ∧ tL.ctx = tSw.ctx ∧ tL.pair = none ∧ (tL.park.map (·.why)) ≠ some .away ∧
    ((sTwo tSw tL).core eC).swaps = [] := ⟨rfl, rfl, rfl, by decide, rfl⟩
/-- An image of a thread of virtual core 2, the own core's, in entry 127. -/
abbrev image : Image := ⟨{ t0 with vcore := 2, uid := 6 }, eC, false, 0⟩
abbrev group2 : Group := ⟨0, 2, 128, 64, 2, 0, 0, false, [0, 1], [], 0, 0, 0, 0, false⟩
abbrev sI (t : Thread) : State := { wc { Core.start .compute with groups := [group2] } t with clusters := [(clusterKey eC, { Cluster.start with tcc := [(127, image)] })] }
theorem test_witness_resume : Issues (sI tSw) u0 tSw (.resume g 6 3 0 false) ∧ (gr tSw 3).toNat < 2 ^ 7 ∧ tget ((sI tSw).cluster (clusterKey eC)).tcc 127 = some image ∧
    vcOf (sI tSw) 0 tSw.ctx 2 = some (eC, 128, 64) ∧ groupOf (sI tSw) eC tSw.ctx 2 = some group2 ∧ group2.slots ≠ [] ∧ ((sI tSw).core eC).overflow = [] ∧ (sI tSw).thr? eC 1 = none ∧
    (∀ j < 1, (sI tSw).thr? eC j ≠ none) ∧
    expired (sI tSw) eC (carryOf eC image.thr) = false ∧ image.thr.pair = none ∧ image.thr.region = none ∧ image.thr.ctx = tSw.ctx ∧ image.ep = eC :=
  ⟨issues_of rfl rfl (by decide), by decide, rfl, by decide +kernel, rfl, by decide, rfl, rfl, by decide, by decide, rfl, rfl, rfl, rfl⟩
theorem test_witness_resume_none : tget ((sI tSw).cluster (clusterKey eC)).tcc 3 = none ∧ 2 ^ 7 ≤ (gr tSw 4).toNat ∧ vcOf (wt tSw) 0 tSw.ctx 4 = none ∧
    vcOf (wt tSw) 0 tSw.ctx 0 = some (eD, 128, 64) := ⟨by decide, by decide, by decide +kernel, by decide +kernel⟩

-- MatrixInstructions: a group with two operand slots and a tile of two; slot 31 is the last, tile name 0 is physical tile 3
abbrev grp0 (ops : Nat) : Group := ⟨0, 0, 128, 64, 2, ops, 1, false, [0], [3], 0, 0, 0, 0, false⟩
abbrev oA (ty : Ty) : OpSlot := ⟨(0, 0), some (ty, false), false⟩
abbrev oB (ty : Ty) : OpSlot := ⟨(0, 0), some (ty, true), false⟩
abbrev tile0 (k : TileKind) : Tile := ⟨(0, 0), 0, k, false, false, 0, none⟩
abbrev cM (ty : Ty) (k : TileKind) (jobs : List TileJob) : Core := { Core.start .compute with
  groups := [grp0 3], opslots := [(0, oA ty), (31, oB ty)], tiles := [(3, tile0 k)], jobs := jobs }
abbrev sM (ty : Ty) (k : TileKind) (jobs : List TileJob) (t : Thread) : State := stC eC 0 (cM ty k jobs) t
abbrev tM : Thread := own (thr [(1, 31), (2, 32), (3, 7), (4, 0x200), (5, 0x2000)])
/-- An operation of the tile path issued by the thread of slot 0, and an MMA under way. -/
abbrev jobOf (op : TileOp) : TileJob := ⟨op, reqOf eC 0 t0 16 0, 0, 0, false, false, false, 0, 0⟩
abbrev mmaOp (ty : Ty) : TileOp := .mma 0 31 3 ty ty false false (depthOf ty) 0 0 2
abbrev running (ty : Ty) : TileJob := { jobOf (mmaOp ty) with run := true }
abbrev oldJob : TileJob := jobOf (.old 31 0x20000 256 .sf true)
theorem test_witness_oclaim : Issues (sM .sf .none [] tM) u0 tM (.oclaim g 6) ∧ groupOf (sM .sf .none [] tM) eC 0 0 = some (grp0 3) ∧
    ((cM .sf .none []).opslots.filter fun x => decide (x.2.owner = (tM.ctx, tM.vcore))).length < 3 ∧ tget ((sM .sf .none [] tM).core eC).opslots 1 = none ∧
    ∀ m < 1, tget ((sM .sf .none [] tM).core eC).opslots m ≠ none :=
  ⟨issues_of rfl rfl (by decide), rfl, by decide, rfl, by decide⟩
theorem test_witness_oclaim_none : Issues s0 u0 t0 (.oclaim g 6) ∧ groupOf s0 eC 0 0 = none := ⟨issues_of rfl rfl (by decide), rfl⟩
theorem test_witness_orel : Issues (sM .sf .none [] tM) u0 tM (.orel g 1) ∧ (gr tM 1).toNat = 31 ∧ tget ((sM .sf .none [] tM).core eC).opslots 31 = some (oB .sf) ∧
    slotWriting (sM .sf .none [] tM) eC 31 = false ∧ slotReading (sM .sf .none [] tM) eC 31 = false ∧
    slotReading (sM .sf .none [running .sf] tM) eC 31 = true ∧ slotWriting (sM .sf .none [oldJob] tM) eC 31 = true ∧ slotWriting (sM .sf .none [running .sf] tM) eC 31 = false :=
  ⟨issues_of rfl rfl (by decide), by decide, rfl, by decide, by decide, by decide, by decide, by decide⟩
theorem test_witness_orel_traps : Issues (sM .sf .none [] tM) u0 tM (.orel g 2) ∧ 32 ≤ (gr tM 2).toNat ∧ tget ((sM .sf .none [] tM).core eC).opslots (gr tM 3).toNat = none ∧ TakesTraps tM := by
  refine ⟨issues_of rfl rfl (by decide), by decide, by decide, ?_⟩
  and_intros <;> rfl
theorem test_witness_tile_checks : checkSlot (sM .sf .none [] tM) eC tM (gr tM 1) = .ok (oB .sf) ∧ checkSlot (sM .sf .none [] tM) eC tM (gr tM 0) = .ok (oA .sf) ∧
    checkTile (sM .sf .none [] tM) eC tM (gr tM 0) = .ok (3, tile0 .none) ∧ checkTile (sM .sf .none [] tM) eC tM (gr tM 3) = .error ⟨0x1A, 0, 7⟩ ∧
    checkSlot (sM .sf .none [] tM) eC tM (gr tM 2) = .error ⟨0x19, 0, 0⟩ :=
  ⟨ok_of (by decide), ok_of (by decide), ok_of (by decide), error_of (by decide), error_of (by decide)⟩
theorem test_witness_tile_rows : checkLocal (sM .sf .none [] tM) eC tM (gr tM 0) (31 * 0x200 + 256) = .ok 0x20000 ∧ 8 ∣ (gr tM 4).toNat ∧ 256 ≤ (gr tM 4).toNat ∧
    checkLocal (sM .sf .none [] tM) eC tM (gr tM 5) (31 * 256 + 256) = .ok 0x22000 ∧ anyOchre (sM .sf .none [] tM) eC 0x20000 (31 * 0x200 + 256) = false ∧
    anyOchre (stC eC 0 { cM .sf .none [] with gran := [(0x2000 + 31 * 0x20 - 1, .ochre)] } tM) eC 0x20000 (31 * 0x200 + 256) = true :=
  ⟨ok_of (by decide), by decide, by decide, ok_of (by decide), by decide +kernel, by decide +kernel⟩
abbrev tlc (n : Nat) (t : Thread) : Thread := { t with cnt := { t.cnt with tlc := n } }
theorem test_witness_tile_issues : ([.old g 0 1 0 .sf true, .mma g 0 1 0 false false 64, .ard g 0 0 4 .sf, .awr g 0 0 4 .df, .aclr g 0 1] : List Instr).all (canIssue u0 (tlc 14 tM)) = true ∧
    (tlc 14 tM).cnt.tlc < 15 ∧ Issues (sM .sf .none [] (tlc 15 tM)) u0 (tlc 15 tM) (.old g 0 1 0 .sf true) ∧ depthOf .sf ≠ 0 ∧ (64 : BitVec 9).toNat ≤ depthOf .sf :=
  ⟨by decide, by decide, issues_of rfl rfl (by decide), by decide, by decide⟩
theorem test_witness_mma_formats : ((issuedFmt [] 0 (oA .lg).fmt).or (shadowFmt tM.sr.sfa)) = some (.lg, false) ∧ ((issuedFmt [] 31 (oB .lg).fmt).or (shadowFmt tM.sr.sfb)) = some (.lg, true) ∧
    pairKind .lg .lg = some .fp32 ∧ issuedKind [] 3 (tile0 .i32).kind = .i32 ∧ issuedKind [] 3 (tile0 .none).kind = .none ∧
    checkScales (sM .lg .none [] tM) eC tM 256 = .ok (0x20000, 0x20000) := ⟨by decide, by decide, rfl, rfl, rfl, ok_of (by decide)⟩
theorem test_witness_aclr : (∀ j ∈ [oldJob], blockedBy (.aclr 3 .fp64) j.op = false) ∧ blockedBy (.aclr 3 .fp64) (running .sf).op = true := by decide
theorem test_witness_mstat : Issues (sM .sf .none [] tM) u0 tM (.mstat g 6 0) ∧ (sM .sf .none [] tM).core eC = { cM .sf .none [] with slots := [(0, tM)] } ∧
    ([(3, tile0 .none)].find? fun x => decide (x.2.owner = (tM.ctx, tM.vcore) ∧ x.2.name = (gr tM 0).toNat)) = some (3, tile0 .none) ∧
    ∀ x ∈ [(3, tile0 .none)], ¬ (x.2.owner = (tM.ctx, tM.vcore) ∧ x.2.name = (gr tM 3).toNat) := ⟨issues_of rfl rfl (by decide), rfl, by decide, by decide⟩
theorem test_witness_tbld : Issues (sM .sf .none [] tM) u0 tM (.tbld g 5) ∧ ¬ (gr tM 5).toNat % 2 ^ 16 < 2 ^ 13 ∧ (∀ i < 4, (gr tM 4).toNat / 2 ^ (16 * i) % 2 ^ 16 < 2 ^ 13) ∧
    bankHeld (sM .sf .none [] tM) eC 1 = false ∧ bankHeld (sM .lg .none [{ running .lg with op := .mma 0 31 3 .lg .lg false false 256 0 0 1 }] tM) eC 1 = true ∧ Lg6.start.active < 2 ∧ Lg6.start.banks.length = 2 :=
  ⟨issues_of rfl rfl (by decide), by decide, by decide, by decide, by decide, by decide, rfl⟩

-- MatrixEvents: each unit's oldest operation, an error-free scratchpad, the thread in its slot
theorem test_witness_transfers : unitHead (sM .sf .none [oldJob] tM) eC TileOp.transfers = some (0, oldJob) ∧ ((sM .sf .none [oldJob] tM).core eC).upsets = [] ∧
    tget ((sM .sf .none [oldJob] tM).core eC).opslots 31 = some (oB .sf) ∧ Memory.wf ((sM .sf .none [oldJob] tM).core eC).opmem = true ∧ InSlot (sM .sf .none [oldJob] tM) eC oldJob.req.uid 0 tM ∧
    unitHead (sM .df .none [jobOf (.awr 3 0x20000 256 64 .fp64)] tM) eC TileOp.transfers = some (0, jobOf (.awr 3 0x20000 256 64 .fp64)) ∧
    unitHead (sM .sf .none [{ jobOf (.ard 3 0x20000 128 32) with step := 31 }] tM) eC TileOp.transfers = some (0, { jobOf (.ard 3 0x20000 128 32) with step := 31 }) :=
  ⟨rfl, rfl, rfl, rfl, ⟨rfl, rfl⟩, rfl, rfl⟩
theorem test_witness_transfers_clear : (∀ r < 32, anySealed (sM .sf .none [oldJob] tM) eC (0x20000 + r * 256) 256 = false) ∧
    TileJob.preempt { running .sf with stopReq := true, preempt := true } = true ∧ (Broken.acc 3) ∉ (cM .sf .none [oldJob]).broken ∧ (cM .sf .none [oldJob]).broken = [] := by decide
theorem test_witness_tile_write : ∃ s : State, (s.core eC).tileQ = [⟨0x20000, [1], 0⟩] ∧ Memory.wf (s.core eC).spad = true ∧ (s.core eC).watches = [] ∧ (s.core eC).overflow = [] ∧
    (s.core eC).dtl = [] ∧ ∀ a ∈ wordsOf 0x20000 1, stackOf s eC a = [] :=
  ⟨stC eC 0 { cM .sf .none [] with tileQ := [⟨0x20000, [1], 0⟩] } tM, rfl, rfl, rfl, rfl, rfl, fun _ _ => rfl⟩
/-- The thread that waits for its MMA. -/
abbrev tMma : Thread := { tM with park := some ⟨.mma, 0, none, 0x1004, 0, 0, 0⟩ }
theorem test_witness_mma_start : unitHead (sM .sf .none [jobOf (mmaOp .sf)] tMma) eC TileOp.isMma = some (0, jobOf (mmaOp .sf)) ∧ (jobOf (mmaOp .sf)).run = false ∧
    tget ((sM .sf .none [jobOf (mmaOp .sf)] tMma).core eC).tiles 3 = some (tile0 .none) ∧ (oA .sf).poison = false ∧ { oA .sf with poison := true }.poison = true ∧
    InSlot (sM .sf .none [jobOf (mmaOp .sf)] tMma) eC 1 0 tMma ∧ TakesTraps tMma ∧ rectOf (sM .sf .none [jobOf (mmaOp .sf)] tMma) eC = none := by
  refine ⟨rfl, rfl, rfl, rfl, rfl, ⟨rfl, rfl⟩, ?_, rfl⟩
  and_intros <;> rfl
theorem test_witness_aclr_apply : jobReady [jobOf (.aclr 3 .fp64)] 0 = true ∧ Memory.wf ((sM .sf .none [jobOf (.aclr 3 .fp64)] tMma).core eC).acc = true := ⟨by decide, rfl⟩
theorem test_witness_mma_step : unitHead (sM .sf .fp32 [running .sf] tMma) eC TileOp.isMma = some (0, running .sf) ∧ (running .sf).run = true ∧ (tile0 .fp32).prog < depthOf .sf ∧
    (∃ kind, pairKind .sf .sf = some kind) ∧ 63 < depthOf .sf ∧ { running .sf with stopReq := true }.stopReq = true := ⟨rfl, rfl, by decide, ⟨_, rfl⟩, by decide, rfl⟩

-- EnginePushes: a COPY of two doublewords with NOTIFY, one on the die's distributor, a FILL, a CODE of segment 1, a COLL
/-- A thread with a command's words in g8 to g15. -/
abbrev tCmd (w0 w1 w2 w4 w5 : Word) : Thread := tW [(8, w0), (9, w1), (10, w2), (12, w4), (13, w5)]
abbrev tCopy : Thread := tCmd 0x0301_0101 0 0xFFF0 2 0
abbrev tDist : Thread := tCmd 0x0301_0001 0x8000_0000_0000_0000 0xFFF0 2 0
abbrev tFill : Thread := tCmd 0x0301_0004 0 0xFFF0 2 0
abbrev tCode : Thread := tCmd 0x0301_0002 0x8000_0000_0000_0000 0x1000 512 0
abbrev tColl (comm : Word) : Thread := tCmd 0x0301_0103 0 0x100 (0xB000 + comm) 1
theorem test_witness_pushes : Issues (wt tCopy) u0 tCopy (.pushCopy g 8 false) ∧ Issues (wt tDist) u0 tDist (.pushCopy g 8 true) ∧ Issues (wt tFill) u0 tFill (.pushFill g 8) ∧
    Issues (wt tCode) u0 tCode (.pushCode g 8) :=
  ⟨issues_of rfl rfl (by decide), issues_of rfl rfl (by decide), issues_of rfl rfl (by decide), issues_of rfl rfl (by decide)⟩
theorem test_witness_push_checks : passesWith (checkCopy (wt tCopy) eC tCopy (wordsFrom tCopy 8) false false 0) [(2, 0, 0)] ∧
    passesWith (checkCopy (wt tDist) eC tDist (wordsFrom tDist 8) false true 0) [(2, 0, 0)] ∧ passesWith (checkCopy (wt tFill) eC tFill (wordsFrom tFill 8) true false 0) [(2, 0, 0)] ∧
    passesWith (checkCode (wt tCode) eC tCode (wordsFrom tCode 8) 0) [(512, 0, 0)] ∧ failsWith (checkCopy (wt tCopy) eC tCopy (wordsFrom tCopy 0) false false 7) ⟨2, 0, 7⟩ := by
  and_intros <;> decide +kernel
abbrev cpc (n p : Nat) (t : Thread) : Thread := { t with cnt := { t.cnt with cpc := n, code := n, places := p } }
theorem test_witness_push_limits : engineTakes (wt (cpc 14 15 tCopy)) eC (cpc 14 15 tCopy) 0 = true ∧ engineTakes (wt (cpc 15 0 tCopy)) eC (cpc 15 0 tCopy) 0 = false ∧
    engineTakes (wt (cpc 3 0 tCode)) eC (cpc 3 0 tCode) 2 = true ∧ engineTakes (wt (cpc 4 0 tCode)) eC (cpc 4 0 tCode) 2 = false ∧ (gr tCopy 8).getLsbD 8 = true ∧ (cpc 0 16 tCopy).cnt.places = 16 ∧
    TakesTraps tCopy := by
  refine ⟨by decide, by decide, by decide, by decide, by decide, rfl, ?_⟩
  and_intros <;> rfl
theorem test_witness_collective : Issues (wt (tColl 0)) u0 (tColl 0) (.pushColl g 8) ∧ checkColl (wt (tColl 0)) eC (tColl 0) (wordsFrom (tColl 0) 8) 0 = .ok () ∧
    engineTakes (wt (tColl 0)) eC (tColl 0) 3 = true ∧ commServes (wt (tColl 0)) 0 0 (tColl 0).ctx = true ∧ commServes (wt (tColl 0)) 0 255 (tColl 0).ctx = false :=
  ⟨issues_of rfl rfl (by decide), ok_of (by decide +kernel), by decide, by decide +kernel, by decide +kernel⟩
theorem test_witness_program : Issues (sH (page true true) eC) u0 tH (.pushProgram g 8 2) ∧
    ebitOf ((sH (page true true) eC).modCore eC fun c => { c with tlb := [page true true] }) 0 tH.sr.peermap (paPkg (dramTarget (sH (page true true) eC) 0 (page true true) 0).2.1) = some 0 ∧
    tH.cnt.cpc < 15 := ⟨issues_of rfl rfl (by decide), by decide +kernel, by decide⟩
theorem test_witness_records : Issues (st eC 0 { t0 with recs := [⟨1, 2⟩] }) u0 { t0 with recs := [⟨1, 2⟩] } (.popcRec g 30 0) ∧ Issues s0 u0 t0 (.popcRec g 30 0) ∧ t0.recs = [] ∧
    Issues (st eC 0 tFar) u0 tFar (.popcRec g 30 1) ∧ gr tFar 1 ≠ 0 := ⟨issues_of rfl rfl (by decide), issues_of rfl rfl (by decide), rfl, issues_of rfl rfl (by decide), by decide⟩

-- TaskInstructions: room for one arm and none, a counter of virtual core 0, the ends of a task, a frame, a tag table
abbrev tJ : Thread := tW [(2, 8), (3, 0x4000_0000_0000_0004), (4, 0x20_0000)]
abbrev sDeq (n : Nat) (t : Thread) : State := wc { Core.start .compute with deque := List.replicate n ⟨0, 0, []⟩ } t
theorem test_witness_fork : Issues (sDeq 63 tJ) u0 tJ (.fork g 1 0 4) ∧ ¬ 64 ≤ ((sDeq 63 tJ).core eC).deque.length + ((sDeq 63 tJ).core eC).reserved ∧
    64 ≤ ((sDeq 64 tJ).core eC).deque.length + ((sDeq 64 tJ).core eC).reserved ∧ (wt tJ).lapse? 0 7 = some ⟨.request, false, false, 0, 0, -1, 1, 0, 0, 0, 0, [], false, [], false, 0, 0, none⟩ ∧
    Issues (sDeq 63 tJ) u0 tJ (.fork g 1 2 4) ∧ gr tJ 2 ≠ 0 := ⟨issues_of rfl rfl (by decide), by decide, by decide, rfl, issues_of rfl rfl (by decide), by decide⟩
theorem test_witness_join : passesWith (joinRoute (wt tJ) eC tJ (gr tJ 2) false) (0x4000_0000_0000_0008, ⟨eD, none, 8, some 0x20008, 3⟩) ∧
    failsWith (joinRoute (wt tJ) eC tJ (gr tJ 3) true) ⟨0x08, 0x4000_0000_0000_0004, 8⟩ ∧ failsWith (joinRoute (wt tJ) eC tJ (gr tJ 4) true) ⟨0x13, 0x20_0000, 0⟩ := by
  and_intros <;> decide +kernel
theorem test_witness_join_issues : Issues (wt tJ) u0 tJ (.join g 2 0) ∧ Issues (wt tJ) u0 tJ (.join g 3 0) ∧ TakesTraps tJ :=
  ⟨issues_of rfl rfl (by decide), issues_of rfl rfl (by decide), by and_intros <;> rfl⟩
theorem test_witness_exit : Issues (wt tJ) u0 tJ (.exit g 0) ∧ Issues (wt tJ) u0 tJ (.exit g 2) ∧ drainedMask (wt tJ) eC tJ 0x19 0 = true ∧ drainedMask (wt (busy tJ)) eC (busy tJ) 0x19 0 = false :=
  ⟨issues_of rfl rfl (by decide), issues_of rfl rfl (by decide), by decide, by decide⟩
theorem test_witness_wfw : Issues (sTwo tJ tL) u0 tJ (.wfw g 8 2) ∧ (∃ k x, (k, x) ∈ ((sTwo tJ tL).core eC).slots ∧ k ≠ 0 ∧ x.inGroup tJ.ctx tJ.vcore = true ∧ x.park = none ∧ x.pair = none) ∧
    Issues (stC eC 0 { Core.start .compute with destQ := [⟨0x20000, [1], [], false, 0, 0⟩] } tJ) u0 tJ (.wfw g 24 0) ∧
    quiet (stC eC 0 { Core.start .compute with destQ := [⟨0x20000, [1], [], false, 0, 0⟩] } tJ) eC = false :=
  ⟨issues_of rfl rfl (by decide), ⟨15, tL, by simp [State.core, tget], by decide, rfl, rfl, rfl⟩, issues_of rfl rfl (by decide), by decide⟩
theorem test_witness_yield : Issues (sV [] (own (thr [(1, 0xFFC0)]))) u0 (own (thr [(1, 0xFFC0)])) (.yield g 1 0) ∧
    checkLocal (sV [] (own (thr [(1, 0xFFC0)]))) eC (own (thr [(1, 0xFFC0)])) (gr (own (thr [(1, 0xFFC0)])) 1) 64 = .ok 0x2FFC0 ∧ 16 ∣ (gr (own (thr [(1, 0xFFC0)])) 1).toNat ∧
    mread ((sV [] (own (thr [(1, 0xFFC0)]))).core eC).spad (0x2FFC0 + 12) 4 = 0 ∧ anyOchre (sV [] (own (thr [(1, 0xFFC0)]))) eC 0x2FFC0 16 = false ∧
    ((sV [] (own (thr [(1, 0xFFC0)]))).cluster (clusterKey eC)).frames.length < 256 :=
  ⟨issues_of rfl rfl (by decide), ok_of (by decide), by decide, by decide, by decide, by decide⟩
abbrev msg5 (n : Nat) : Msg := ⟨5, 0, 0, 0, List.replicate n 7⟩
abbrev tBox (n : Nat) : Thread := { own t0 with inbox := [msg5 n] }
/-- Two words of a tag table at the start of the allotment: tag 4 and tag 5, whose target is the head 0x1002. -/
abbrev sTags (t : Thread) : State := stC eC 0 { coreL .compute with spad := mputs 0x20000 (leBytes 16 (4 + 5 * 2 ^ 64 + 0x1002 * 2 ^ 96)) (coreL .compute).spad } t
theorem test_witness_tag_branch : Issues (sTags (tBox 0)) u0 (tBox 0) (.btag g 1 0 0 2) ∧ (tBox 0).inbox = [msg5 0] ∧
    checkLocal (sTags (tBox 0)) eC (tBox 0) (gr (tBox 0) 0 + BitVec.ofNat 64 (8 * 1)) 8 = .ok (0x20000 + 8 * 1) ∧ anyOchre (sTags (tBox 0)) eC (0x20000 + 8 * 1) 8 = false ∧
    mread ((sTags (tBox 0)).core eC).spad (0x20000 + 8 * 1) 8 % 2 ^ 32 = 5 ∧ mread ((sTags (tBox 0)).core eC).spad 0x20000 8 % 2 ^ 32 ≠ 5 ∧
    Lands (sTags (tBox 0)) eC 0x1002 ∧ HeadAt (sTags (tBox 0)) eC 0x1002 := by
  refine ⟨issues_of rfl rfl (by decide), rfl, ok_of (by decide), by decide, by decide +kernel, by decide +kernel, ?_, ?_⟩ <;> and_intros <;> decide +kernel

-- MessageInstructions: one place free and none, every kind of destination, no channel; sixteen words
abbrev outM : OutMsg := ⟨eD, 4, 0, 0, msg5 0, ⟨-1, 0, 0⟩, 3⟩
abbrev tSend (n : Nat) : Thread := { tW [(2, 0x4000_0000_0000_0000), (3, 0x4000_0100_0000_0000), (4, 0x4000_0000_0300_0000), (5, 1)] with outbox := List.replicate n outM }
theorem test_witness_send : Issues (wt (tSend 1)) u0 (tSend 1) (.send g 2 8 8 0xFFF) ∧ ctxChannel (wt (tSend 1)) 0 (tSend 1).ctx ≠ 0 ∧ (tSend 1).outbox.length < 2 ∧ 2 ≤ (tSend 2).outbox.length ∧
    (gr (tSend 1) 2).toNat / 2 ^ 62 = 1 ∧ peerOf (wt (tSend 1)) 0 (tSend 1).sr.peermap 0 = some (0, 3) ∧ vcOf (wt (tSend 1)) 0 (tSend 1).ctx 0 = some (eD, 128, 64) ∧
    peerOf (wt (tSend 1)) 0 (tSend 1).sr.peermap 1 = some (1, 5) ∧ vcOf (wt (tSend 1)) 0 (tSend 1).ctx 3 = none ∧ peerOf (wt (tSend 1)) 0 (tSend 1).sr.peermap 2 = none := by
  refine ⟨issues_of rfl rfl (by decide), by decide +kernel, by decide, by decide, by decide, ?_⟩
  and_intros <;> decide +kernel
/-- A migrant's SEND to an invalid virtual core of its own package. -/
theorem test_witness_send_migrant : let t : Thread := { tSend 0 with origin := some ⟨eC, 3, 5, 0⟩ }
    let s : State := { wt t with cores := [(eM, { tableCore with slots := [(16, t)] })], turn := some (turn eM 16) }
    Issues s (turn eM 16) t (.send g 4 8 0 1) ∧ vcOf s 0 t.ctx 3 = none ∧ t.outbox.length < 2 ∧ t.origin ≠ none :=
  ⟨issues_of rfl rfl (by decide), by decide +kernel, by decide, by decide⟩
theorem test_witness_send_traps : Issues (st eC 0 (tSend 0)) u0 (tSend 0) (.send g 2 8 0 1) ∧ ctxChannel (st eC 0 (tSend 0)) 0 (tSend 0).ctx = 0 ∧ TakesTraps (tSend 0) ∧
    ¬ (gr (tSend 0) 5).toNat / 2 ^ 62 = 1 := by
  refine ⟨issues_of rfl rfl (by decide), by decide +kernel, ?_, by decide⟩
  and_intros <;> rfl
theorem test_witness_recv : Issues (wt (tBox 16)) u0 (tBox 16) (.recv g 1 0 8) ∧ (msg5 16).words.length ≤ 16 ∧ ctxChannel (wt (tBox 16)) 0 (tBox 16).ctx ≠ 0 ∧
    Issues (wt (tSend 0)) u0 (tSend 0) (.recv g 1 2 8) ∧ (tSend 0).inbox = [] ∧ (tSend 0).park = none ∧ gr (tSend 0) 2 ≠ 0 ∧ gr (tSend 0) 0 = 0 :=
  ⟨issues_of rfl rfl (by decide), by decide, by decide +kernel, issues_of rfl rfl (by decide), rfl, rfl, by decide, by decide⟩
/-- g2 names queue 0, g3 queue 1, g4 queue 0 of package 1. -/
abbrev tQu (q : QRes) : Thread := { tW [(2, 0), (3, 1), (4, 0x1_0000), (5, 4096), (6, 4097)] with qres := q }
abbrev sQ (n : Nat) (t : Thread) : State := { wt t with pkgs := [(0, { pkg0 with queues := [(0, { QState.start with tail := n }), (1, { QState.start with tail := n })] })] }
theorem test_witness_queue_selectors : passesWith (checkSel (wt (tQu ⟨0, 0, false⟩)) eC (tQu ⟨0, 0, false⟩) 0 true) (0, 0, 3) ∧
    passesWith (checkSel (wt (tQu ⟨0, 0, false⟩)) eC (tQu ⟨0, 0, false⟩) 1 true) (1, 0, 3) ∧ passesWith (checkSel (wt (tQu ⟨0, 0, false⟩)) eC (tQu ⟨0, 0, false⟩) 0x1_0000 false) (0, 1, 5) := by
  and_intros <;> decide +kernel
theorem test_witness_queues : qServes (sQ 0 t0) 0 0 1 0 = true ∧ ringFull (sQ 0 t0) 0 0 = false ∧ ringFull (sQ 1 t0) 0 0 = true ∧ qServes (sQ 0 t0) 0 1 2 0 = true ∧ qServes (sQ 0 t0) 0 2 1 0 = false ∧
    qServes (sQ 0 t0) 0 2 2 0 = false ∧ qBw (qDesc (sQ 0 t0) 0 0) = false ∧ qBw (qDesc (sQ 0 t0) 0 1) = true ∧ takersOf (sQ 1 t0) 0 1 = [] ∧ ((sQ 1 t0).queue 0 1).head < ((sQ 1 t0).queue 0 1).tail := by
  and_intros <;> decide +kernel
/-- An item whose line can be read, and one whose line is being filled. -/
theorem test_witness_queue_head : (let s := { wt t0 with pkgs := [(0, { pkg0 with queues := [(1, { QState.start with tail := 1 })] })] };
    headThere s 0 1 = true ∧ headThere (s.modCore eM fun c => { c with mem := { c.mem with buf := { bufLine (lineOfPa (qRing (qDesc s 0 1))) 0 with filling := true } :: c.mem.buf } }) 0 1 = false) := by
  constructor <;> decide +kernel
theorem test_witness_queue_issues : ([.spawn g 28 2 false 0, .enq g 3 24 0 false, .enq g 4 8 0 true, .deq g 24 3 0, .qres g 1 4 5, .qres g 1 4 6, .qres g 1 4 0] : List Instr).all
    (canIssue u0 (tQu ⟨0x1_0000, 1, false⟩)) = true ∧ (tQu ⟨0x1_0000, 1, false⟩).qres.sel = gr (tQu ⟨0x1_0000, 1, false⟩) 4 ∧ (gr (tQu ⟨0x1_0000, 1, false⟩) 5).toNat ≤ 4096 ∧
    4096 < (gr (tQu ⟨0x1_0000, 1, false⟩) 6).toNat ∧ selPeer (gr (tQu ⟨0x1_0000, 1, false⟩) 4) ≠ 0 ∧ TakesTraps (tQu ⟨0, 0, false⟩) := by
  refine ⟨by decide, by decide, by decide, by decide, by decide, ?_⟩
  and_intros <;> rfl
abbrev tPr : Thread := tW [(2, 0x8000_0000_0000_0000), (3, 0x100)]
theorem test_witness_probe : Issues (wt tPr) u0 tPr (.qprobe g 1 2 0) ∧ probeDomain (wt tPr) eC tPr (gr tPr 2) = some (4096, [0, 1]) ∧ probing (wt tPr) 4096 = false ∧
    probing { wt tPr with pkgs := [(0, { pkg0 with probes := [⟨4096, [0, 1], none⟩] })] } 4096 = true ∧ probeDomain (wt tPr) eC tPr (gr tPr 3) = none ∧ tPr.park = none :=
  ⟨issues_of rfl rfl (by decide), by decide +kernel, by decide, by decide, by decide, rfl⟩

/-- The premises on what delays a thread's own local accesses (R46, R140, R189): none holds where no region and no queue stands. -/
theorem test_witness_own_accesses : shapeRecord (wt tCopy) eC tCopy (wordsFrom tCopy 8) = none ∧ ((wt tCopy).core eC).upsets = [] ∧
    localOut (wt tCopy) eC tCopy = false ∧ u0.lost = false ∧ (own (thr [(1, 0xFFC0)])).provisional = none ∧
    Plain (sV [] (own (thr [(1, 0xFFC0)]))) u0 (own (thr [(1, 0xFFC0)])) (wordsOf 0x2FFC0 64) ∧
    anySealed (sTags (tBox 0)) eC (0x20000 + 8 * 1) 8 = false ∧ localOut (sTags (tBox 0)) eC (tBox 0) = false ∧ ((sTags (tBox 0)).core eC).upsets = [] :=
  ⟨by decide, rfl, by decide, rfl, rfl, plain_of rfl rfl rfl rfl, by decide, by decide, rfl⟩

-- events: a package in boot state 5 with two compute cores, a link to package 1, and the memory core of the tables
/-- The window over the allotment, for context 0 with every right (R113). -/
abbrev window : CoreMgmt := { CoreMgmt.start with aw := CoreMgmt.start.aw.set 0 (BitVec.ofNat 64 (15 * 2 ^ 60 + 64 * 2 ^ 32 + 128)) }
abbrev cE : Core := { Core.start .compute with mgmt := window }
def pkgOn : Pkg := { pkg0 with bridge := { pkg0.bridge with bootState := 5 }, links := [(1, (0, 0))] }
abbrev ev (c : Core) (net : List Pkt) : State :=
  { State.reset with pkgs := [(0, pkgOn)], cores := [(eC, c), (eD, cE), (eM, tableCore)], net := net, nextUid := 9 }
/-- A packet for the first core, under the requester in slot 0 of the second. -/
abbrev pkt (src dst vc : Nat) (stage : Stage) (hnd : Handle) (entry : Nat) (b : Body) : Pkt :=
  ⟨src, dst, vc, stage, 0, reqOf eD 0 t0 entry 3, ⟨-1, hnd, 0⟩, b, 0, none⟩
abbrev to0 (b : Body) : Pkt := pkt eD eC 4 .arrived 0 16 b

-- TurnEvents: the owner of a cycle, a thread eight cycles ago eight positions ahead, nobody
abbrev cT (cycle n : Nat) (t : Thread) (turns : Table Nat) : Core := { cE with cycle := cycle, slots := [(n, t)], turns := turns }
theorem test_witness_turn_own : coreIssues (ev (cT 0 0 t0 []) []) eC = true ∧ (ev (cT 0 0 t0 []) []).turn = none ∧ tget (ev (cT 0 0 t0 []) []).cores eC = some (cT 0 0 t0 []) ∧
    expired (ev (cT 0 0 t0 []) []) eC ⟨t0.sr.inst, t0.sr.hnd, 0⟩ = false ∧ t0.stopped = false ∧ t0.region = none ∧ (cT 0 0 t0 []).swaps = [] :=
  ⟨by decide, rfl, rfl, by decide, rfl, rfl, rfl⟩
theorem test_witness_turn_other : 8 ≤ (15 + 16 - 7 % slotCount eC) % slotCount eC ∧ (tget (cT 7 15 t0 []).turns 15).getD 0 = 0 ∧
    (tget (cT 8 0 t0 [(0, 1)]).turns 0).getD 0 + 7 ≤ 8 ∧ 8 ≤ (0 + 16 - 8 % slotCount eC) % slotCount eC := by decide
/-- A memory core of 32 positions at cycle 64, whose own position 0 is empty: threads in positions 9 and 12 with their last turns, both eight or
more positions from it. -/
abbrev cSpare (a b : Nat) : Core := { Core.start .memory with cycle := 64, slots := [(9, t0), (12, t0)], turns := [(9, a), (12, b)] }
theorem test_witness_turn_choice : slotCount eM = 32 ∧ tget (cSpare 3 2).slots (64 % slotCount eM) = none ∧ coreIssues { ev cE [] with cores := [(eM, cSpare 3 2)] } eM = true ∧
    (∀ x ∈ (cSpare 3 2).slots, x.2.pair = none ∧ x.2.region = none ∧ x.2.stopped = false ∧ x.2.park = none ∧ x.1 < 32 ∧ 8 ≤ (0 + 32 - x.1) % 32 ∧ 8 ≤ (x.1 + 32 - 0) % 32) ∧
    (tget (cSpare 3 2).turns 12).getD 0 < (tget (cSpare 3 2).turns 9).getD 0 ∧ (tget (cSpare 3 2).turns 9).getD 0 + 7 ≤ 64 ∧
    (tget (cSpare 2 2).turns 9).getD 0 = (tget (cSpare 2 2).turns 12).getD 0 ∧ (cSpare 2 2).swaps = [] ∧ (cSpare 2 2).broken = [] := by decide
abbrev tEnd (why : Wait) (l : Option Nat) : Thread := { t0 with park := some ⟨why, 0, l, 0x1004, 0, 8, 5⟩ }
theorem test_witness_wait_ends : holds (ev (cT 4 0 (tEnd (.again .inbox) (some 4)) []) []) eC (tEnd (.again .inbox) (some 4)) .inbox = false ∧
    ((ev (cT 4 0 (tEnd .fullEmpty (some 4)) []) []).core eC).cycle = 4 ∧ (ev (cT 4 0 (tEnd .fullEmpty (some 4)) []) []).thr? eC 0 = some (tEnd .fullEmpty (some 4)) :=
  ⟨by decide, rfl, rfl⟩
abbrev tXf (step2 : Bool) (l : Option Nat) : Thread := { busy t0 with xf := some ⟨1, 0, 0x1002, l, step2, 0, 0, 0⟩ }
theorem test_witness_xfence_ends : (tXf true (some 4)).xf = some ⟨1, 0, 0x1002, some 4, true, 0, 0, 0⟩ ∧ (tXf true none).park = none ∧ ((ev (cT 4 0 (tXf true none) []) []).core eC).destQ = [] ∧
    drainedMask (ev (cT 4 0 (tXf false none) []) []) eC (tXf false none) 1 0 = false := ⟨rfl, rfl, rfl, by decide⟩
abbrev pairOf (lead : Bool) (other : Nat) : Thread := { tXf true (some 4) with pair := some ⟨lead, other, [], [], none, [], none⟩ }
theorem test_witness_pair_xfence : let c : Core := { cE with cycle := 5, slots := [(0, pairOf true 1), (1, pairOf false 0)] }
    (ev c []).thr? eC 0 = some (pairOf true 1) ∧ (ev c []).thr? eC 1 = some (pairOf false 0) ∧ 4 < ((ev c []).core eC).cycle ∧ (pairOf true 1).park = none := ⟨rfl, rfl, by decide, rfl⟩
abbrev tBusy : Thread := { tW [] with park := some ⟨.joinBusy 4, 0, none, 0x1004, 0, 8, 5⟩ }
theorem test_witness_join_busy : passesWith (joinRoute (ev (cT 4 0 tBusy []) []) eC tBusy (BitVec.ofNat 64 8) true) (0x4000_0000_0000_0008, ⟨eD, none, 8, some 0x20008, 3⟩) := by decide +kernel

-- BootOrder: each boot state (that an image passes its checks rests on Config.fuseKeyHash, which nothing can evaluate)
abbrev boot (n : BitVec 3) (f : Bridge → Bridge) : State :=
  { State.reset with pkgs := [(0, { pkgOn with flash := 2 ^ 20 - 1, bridge := f { Bridge.start with bootState := n } })] }
theorem test_witness_boot : hostReaches (boot 1 id) 0 = true ∧ hostReaches (boot 4 id) 0 = true ∧ hostReaches (boot 5 id) 0 = true ∧ (State.reset.pkg 0).powered = false ∧ ((boot 2 id).pkg 0).powered = true ∧
    mread ((boot 2 id).pkg 0).staging 0 4 ≠ 0x4B314E41 ∧ ((boot 3 fun b => { b with master := true }).pkg 0).bridge.master = true ∧ ((boot 2 id).pkg 0).flash < 2 ^ 20 ∧
    ((boot 2 fun b => { b with attState := 1 }).pkg 0).bridge.attState = 1 ∧ ((boot 2 id).pkg 0).bridge.attState ≠ 1 ∧ (1 : Word).getLsbD 0 = true := by decide
-- ManagementEvents: the event next in order and one ahead of it, a gap, a full log; a commit of each table; a counter; an island; a link
abbrev event (n : BitVec 32) : Event := ⟨0x30, 0, eC, 0, 0, 0, n⟩
abbrev log (es : List Event) (f : Bridge → Bridge) : State := boot 5 fun b => f { b with events := es }
theorem test_witness_event_log : ((log [event 0] id).pkg 0).bridge.events[0]? = some (event 0) ∧ (event 0).seq = ((log [event 0] id).pkg 0).bridge.evnext ∧ ((log [event 0] id).pkg 0).bridge.dropped = 0 ∧
    (∀ e ∈ ((log [event 1] id).pkg 0).bridge.events, e.seq ≠ 0) ∧ ((log [event 1] id).pkg 0).bridge.gap = none ∧
    128 ≤ (((log [event 128] fun b => { b with evnext := 128 }).pkg 0).bridge.evnext - ((log [event 128] fun b => { b with evnext := 128 }).pkg 0).bridge.evread).toNat := by
  and_intros <;> decide
theorem test_witness_event_gap : ((log [event 1] fun b => { b with gap := some 0 }).pkg 0).bridge.gap = some 0 ∧
    0 + 1000000 ≤ ({ log [event 1] (fun b => { b with gap := some 0 }) with dies := [(0, { Die.start with now := 1000000 })] }.pkgNow 0).toNat := by
  constructor <;> decide
theorem test_witness_management : (∀ w ∈ [(4095 : Word), 0x4000_0000_0000_3FFF, 0x8000_0000_0000_00FF], w.toNat / 2 ^ 14 % 2 ^ 48 = 0 ∧
      w.toNat % 2 ^ 14 < if w.toNat / 2 ^ 62 = 1 then 16384 else if w.toNat / 2 ^ 62 = 2 then 256 else 4096) ∧
    ((boot 5 fun b => { b with commit := some 0x4000_0000_0000_0000 }).pkg 0).bridge.commit = some 0x4000_0000_0000_0000 := ⟨by simp, rfl⟩
/-- COMMIT of the record of context 0, whose line is there and whose line is being filled. -/
theorem test_witness_commit_busy : let s := { ev cE [] with pkgs := [(0, { pkgOn with bridge := { pkgOn.bridge with commit := some 0 } })] }
    entryWaits (dropCopies s 0 (· == entryKey 0 0)) 0 0 0 = false ∧
    entryWaits (dropCopies (s.modCore eM fun c => { c with mem := { c.mem with buf := [{ bufLine 0 0 with filling := true }] } }) 0 (· == entryKey 0 0)) 0 0 0 = true ∧ hostReaches s 0 = true := by
  refine ⟨?_, ?_, ?_⟩ <;> decide +kernel
theorem test_witness_management_core : isCore eM = true ∧ epKind eM = 1 := ⟨rfl, rfl⟩
theorem test_witness_counter : ((boot 5 fun b => { b with mgaddr := BitVec.ofNat 64 (eC * 2 ^ 32 + 0x20) }).pkg 0).bridge.mgaddr.toNat = eC * 2 ^ 32 + 0x20 ∧ isCore eC = true ∧ (ev cE []).core? eC ≠ none := by
  and_intros <;> decide
theorem test_witness_island : ((ev cE []).island 0 0).stretched = false ∧ 10 + 5 * ((ev cE []).island 0 0).dth.toNat < 31 ∧ (0x8000_0000 : BitVec 32).getLsbD 31 = true ∧
    (∀ e ∈ islandCores 0 0, ((ev cE []).core e).groups = []) ∧ 4500 ≤ (pkgOn.bridge.plim).toNat := by decide
theorem test_witness_links : (tget pkgOn.replays 31).getD 0 + 1 < 8 ∧ (tget ({ pkgOn with replays := [(31, 7)] }).replays 31).getD 0 + 1 = 8 ∧ 31 ∉ pkgOn.portsDown ∧
    (∀ x ∈ pkgOn.links, x.2 ≠ (31 / 4, 31 % 4)) ∧ pkgOn.kblUp = true ∧ pkgOn.kblFails + 1 < 8 ∧ ({ pkgOn with kblFails := 7 }).kblFails + 1 = 8 ∧ pkgOn.bridge.bootState = 5 ∧ pkgOn.bridge.master = false ∧
    max 0 250 - min 0 250 ≤ 250 := by
  refine ⟨by decide, by decide, by decide, by decide, rfl, by decide, rfl, rfl, rfl, by decide⟩

-- PacketsCrossPackages: a message, an access and an answer on their way out and in; handles of each kind
abbrev eF : EP := mkEp 1 0 0 0 0
abbrev msgTo (dst : Nat) (stage : Stage) (hnd : Handle) : Pkt := pkt eC dst 4 stage hnd 17 (.message 0 0 (msg5 0))
abbrev handles (l : Table Lapse) (net : List Pkt) : State := { ev cE net with pkgs := [(0, { pkgOn with lapse := l })] }
abbrev lapse7 (k : HKind) (opkg : Nat) (ex : List Nat) : Lapse := { Lapse.start k opkg 4 (-1) 1 0 with exports := ex }
theorem test_witness_egress : waitsBehind (ev cE [msgTo eF .egress 7]) 0 (msgTo eF .egress 7) = false ∧ reachable (ev cE []) 0 1 = true ∧ reachable (ev cE []) 0 2 = false ∧ (msgTo eF .egress 7).ofColl = false ∧ bothLost (msgTo eF .egress 7) = none ∧
    expired (ev cE []) (egressOf (ev cE []) 0 1) ⟨-1, 7, 0⟩ = false ∧ expired (ev cE []) (egressOf (ev cE []) 0 1) ⟨0, 7, 0⟩ = true ∧ (pkt (ceEp 0) eF 0 .egress 0 16 (.pieceWrite 3 ⟨eF, 0, none, false, false, 0, none, false⟩ none 4 [] (ceEp 0))).ofColl = true ∧ isLost (ev cE []) 0 1 = false ∧ (lapse7 .request 0 []).l = false ∧ (pkgOn.handleWait = []) := by decide
theorem test_witness_egress_handles : (handles [(7, lapse7 .request 0 [])] []).lapse? 0 7 = some (lapse7 .request 0 []) ∧ 1 ∉ (lapse7 .request 0 []).exports ∧ 8 ≤ (lapse7 .union 0 [2, 3, 4, 5, 6, 7, 8, 9]).exports.length ∧
    1 ∈ (lapse7 .request 0 [1]).exports ∧ (lapse7 .proxy 1 []).kind = .proxy ∧ (lapse7 .proxy 2 []).opkg ≠ 0 := by and_intros <;> decide
abbrev inPkt (v : Nat) (c : Carry) (b : Body) : Pkt := ⟨eF, gatewayEp 0 0 0 1, 4, .link, 0, { reqOf eF 0 t0 16 3 with vcore := v }, c, b, 0, none⟩
abbrev ldBody (v : Nat) : Body := .access (some v) 0 none (.load 8 false) none false false
theorem test_witness_ingress : waitsBehind (ev cE [inPkt 0 ⟨-1, 0, 1⟩ (ldBody 0)]) 0 (inPkt 0 ⟨-1, 0, 1⟩ (ldBody 0)) = false ∧ vcOf (ev cE []) 0 0 0 = some (eD, 128, 64) ∧ vcOf (ev cE []) 0 0 3 = none ∧
    lapsedAt ((ev cE []).now (ingressGw (ev cE []) 0 1)) (-1) = false ∧ lapsedAt ((ev cE []).now (ingressGw (ev cE []) 0 1)) 0 = true ∧ 0 ∉ ((ev cE []).die (dieKey (ingressGw (ev cE []) 0 1))).replica.lapsed := by
  refine ⟨by decide, by decide +kernel, by decide +kernel, by decide, by decide, by decide⟩
/-- A reply to a request of a mirrored page, bound for a package that no port reaches. -/
theorem test_witness_egress_asked : ∃ a p, p = { pkt eM (mkEp 2 0 0 0 0) 0 .egress 0 16 (.answer (.ack 0)) with asked := some a } ∧ (ev cE [p]).net[0]? = some p ∧
    waitsBehind (ev cE [p]) 0 p = false ∧ reachable (ev cE [p]) (epPkg p.src) (epPkg p.dst) = false := ⟨⟨eC, eM, 4, 0, .qresReq 0 1⟩, _, rfl, rfl, by decide, by decide⟩
/-- A message for virtual core 0 under a handle of package 1 and under an own one. -/
abbrev inMsg (c : Carry) : Pkt := inPkt 0 c (.message 0 0 (msg5 0))
theorem test_witness_ingress_messages : resolveIngress (ev cE []) 0 (inMsg ⟨-1, 0, 1⟩) ≠ none ∧ (handles [(7, lapse7 .request 0 [])] []).lapse? 0 7 = some (lapse7 .request 0 []) ∧ (handles [] []).lapse? 0 7 = none ∧
    (∀ y ∈ ((handles [(7, lapse7 .proxy 1 [])] []).pkg 0).lapse, y.2.kind ≠ .union) ∧ (handles [] []).dies = [] ∧ (pkgOn.handleWait = []) ∧
    checkFails (handles [] []) (dieKey (ingressGw (handles [] []) 0 1)) (-1) 0 = false ∧ checkFails (handles [] []) (dieKey (ingressGw (handles [] []) 0 1)) 0 0 = true := by
  refine ⟨by decide +kernel, rfl, rfl, by decide, rfl, rfl, by decide, by decide⟩
/-- A package that has never freed a handle and used them all has none free. -/
theorem test_witness_ingress_no_handle : takeHandle { handles [] [] with pkgs := [(0, { pkgOn with lapse := [], fresh := 65536 })] } 0 = none := by decide
theorem test_witness_ingress_handles : proxyOf (handles [(7, lapse7 .proxy 1 [])] []) 0 1 4 = some 7 ∧ proxyOf (handles [] []) 0 1 4 = none ∧ ((handles [] []).pkg 0).fresh < 65536 ∧
    checkFails (handles [(7, lapse7 .proxy 1 [])] []) 0 (-1) 7 = false ∧ earlier (-1) 0 = false := by decide

-- AccessesAndReplies: an access that a window admits at its last bytes, one past them, a lapsed one, one behind a queued write; the window
abbrev acc0 (a : Nat) (acc : Access) : Pkt := to0 (.access none 0 (some a) acc none false false)
theorem test_witness_arrives : Arrives (ev cE [acc0 0x2FFF8 (.load 8 false)]) 0 (acc0 0x2FFF8 (.load 8 false)) ∧ Arrives (ev cE [acc0 0x20000 (.store 8 7)]) 0 (acc0 0x20000 (.store 8 7)) :=
  ⟨by rw [Arrives]; decide +kernel, by rw [Arrives]; decide +kernel⟩
theorem test_witness_admits : admits (ev cE []) eC 0 0x2FFF8 8 (Access.needs (.load 8 false)) = true ∧ admits (ev cE []) eC 0 0x2FFF9 8 (Access.needs (.store 8 0)) = false ∧
    expired (ev cE []) eC ⟨-1, 0, 0⟩ = false ∧ expired (ev cE []) eC ⟨0, 7, 0⟩ = true ∧ closedAt (ev cE []) eC = false ∧ wrongChannel (ev cE []) eC (acc0 0 (.load 8 false)) = false ∧
    wrongChannel (ev cE []) eC { acc0 0 (.load 8 false) with vc := 5 } = true ∧ Access.counts (.store 8 0) = true := by and_intros <;> decide +kernel
theorem test_witness_clear : anySealed (ev cE []) eC 0x20000 8 = false ∧ queued (ev cE []) eC 0x20000 8 = false ∧ queued (ev { cE with destQ := [⟨0x20007, [1], [], false, 0, 0⟩] } []) eC 0x20000 8 = true ∧
    anyOchre (ev { cE with gran := [(0x2000, .ochre)] } []) eC 0x20000 8 = true ∧ anyOchre (ev cE []) eC 0x20000 8 = false := by decide
theorem test_witness_window_access : Arrives (ev cE [to0 (.window 0x10 (.store 8 0x1000) true)]) 0 (to0 (.window 0x10 (.store 8 0x1000) true)) := by rw [Arrives]; decide +kernel
/-- A reply for the thread in slot 0 of the second core. -/
abbrev reply (entry : Nat) (a : Answer) : Pkt := pkt eC eD 0 .arrived 0 entry (.answer a)
abbrev rep (t : Thread) (p : Pkt) : State := { ev cE [p] with cores := [(eC, cE), (eD, { cE with slots := [(0, t)] }), (eM, tableCore)] }
theorem test_witness_reply : Arrives (rep (busy t0) (reply 8 (.ack 0))) 0 (reply 8 (.ack 0)) ∧ locate (rep (busy t0) (reply 8 (.ack 0))) eD 1 = .slot 0 ∧ ((busy t0).sbAt 8).state = .sent ∧ t0.origin = none :=
  ⟨by rw [Arrives]; decide +kernel, rfl, by decide, rfl⟩
abbrev tAns : Thread := { t0 with park := some ⟨.answer, 0, none, 0x1004, 1, 2 ^ 67, 5⟩ }
theorem test_witness_reply_parked : Arrives (rep tAns (reply (16 + 32 * 5) (.value 1 0))) 0 (reply (16 + 32 * 5) (.value 1 0)) ∧ (rep tAns (reply (16 + 32 * 5) (.value 1 0))).thr? eD 0 = some tAns ∧
    (⟨.answer, 0, none, 0x1004, 1, 2 ^ 67, 5⟩ : Park).size ≠ 16 ∧ TakesTraps tAns ∧ rectOf (rep tAns (reply 16 .refused)) eD = none := by
  refine ⟨by rw [Arrives]; decide +kernel, rfl, by decide, ?_, rfl⟩
  and_intros <;> rfl
theorem test_witness_reply_timed_out : Arrives (rep (busy t0) (reply 8 .timedOut)) 0 (reply 8 .timedOut) ∧ Arrives (rep tAns (reply (16 + 32 * 5) .timedOut)) 0 (reply (16 + 32 * 5) .timedOut) ∧
    expired (rep tAns (reply 8 .timedOut)) eD ⟨-1, 0, 0⟩ = false ∧ closedAt (rep tAns (reply 8 .timedOut)) eD = false := ⟨by rw [Arrives]; decide +kernel, by rw [Arrives]; decide +kernel, by decide, by decide⟩
theorem test_witness_reply_gone : (ev cE [reply 8 .refused]).thrWhere eD (locate (ev cE [reply 8 .refused]) eD 1) = none := rfl

-- MessageEvents: a message for a thread with three and with four in its inbox, behind another, swapped out, gone; queues; a list entry; a probe
abbrev toMsg (v : Nat) : Pkt := to0 (.message v 0 (msg5 0))
abbrev tIn (n : Nat) : Thread := { t0 with inbox := List.replicate n (msg5 0) }
abbrev sMsg (v : Nat) (t : Thread) : State := ev { cE with slots := [(0, t)] } [toMsg v]
theorem test_witness_injection : (outboxes (ev { cE with slots := [(0, tSend 2)] } []))[0]? = some (eC, 0, tSend 2) ∧ (tSend 2).outbox = outM :: [outM] := ⟨rfl, rfl⟩
theorem test_witness_delivery : Arrives (sMsg 0 (tIn 3)) 0 (toMsg 0) ∧ addressee (sMsg 0 (tIn 3)) eC 0 0 0 = .slot 0 ∧ (tIn 3).inbox.length < 4 ∧ 4 ≤ (tIn 4).inbox.length ∧ ((sMsg 0 (tIn 3)).core eC).held = [] ∧
    wrongChannel (sMsg 0 (tIn 3)) eC (toMsg 0) = false ∧ (sMsg 0 (tIn 3)).core? eC ≠ none :=
  ⟨by rw [Arrives]; decide +kernel, rfl, by decide, by decide, rfl, by decide +kernel, by simp [State.core?, tget]⟩
theorem test_witness_delivery_elsewhere : addressee { ev cE [toMsg 0] with clusters := [(clusterKey eC, { Cluster.start with tcc := [(5, ⟨t0, eC, false, 0⟩)] })] } eC 0 0 0 = .tcc 5 ∧
    addressee (ev cE [toMsg 0]) eC 0 0 0 = .gone ∧ vcOf (ev cE []) 0 0 0 = some (eD, 128, 64) ∧ vcOf (ev cE []) 0 0 2 = some (eC, 128, 64) ∧ vcOf (ev cE []) 0 0 3 = none := by and_intros <;> decide +kernel
abbrev held0 : HeldMsg := ⟨0, 0, 0, msg5 0, reqOf eD 0 t0 17 3, ⟨-1, 0, 0⟩, true⟩
theorem test_witness_held : ((ev { cE with slots := [(0, tIn 3)], held := [held0] } []).core eC).held = [held0] ∧ held0.isFor 0 0 0 = true ∧
    addressee (ev { cE with slots := [(0, tIn 3)], held := [held0] } []) eC 0 0 0 = .slot 0 := ⟨rfl, rfl, rfl⟩
abbrev toHost (b : Body) : Pkt := { to0 b with dst := hostGwEp 0, vc := 2 }
theorem test_witness_remote_queues : Arrives (ev cE [toHost (.enq 0 [] true)]) 0 (toHost (.enq 0 [] true)) ∧ takesEnq (ev cE []) 0 0 0 = true ∧ takesEnq (ev cE []) 0 2 0 = false ∧
    Arrives (ev cE [toHost (.qresReq 0 1)]) 0 (toHost (.qresReq 0 1)) ∧ Arrives (ev cE [toHost (.qresReturn 0 1)]) 0 (toHost (.qresReturn 0 1)) := by
  refine ⟨?_, by decide +kernel, by decide +kernel, ?_, ?_⟩ <;> rw [Arrives] <;> decide +kernel
theorem test_witness_grant : Arrives (rep (tQu ⟨0, 0, true⟩) (pkt eC eD 0 .arrived 0 17 (.qresGrant 0 1 false))) 0 (pkt eC eD 0 .arrived 0 17 (.qresGrant 0 1 false)) ∧
    locate (rep (tQu ⟨0, 0, true⟩) (pkt eC eD 0 .arrived 0 17 (.qresGrant 0 1 false))) eD 1 = .slot 0 ∧ asksQueue (rep (tQu ⟨0, 0, true⟩) (pkt eC eD 0 .arrived 0 17 (.qresGrant 0 1 false))) eD (tQu ⟨0, 0, true⟩) (epPkg eC) 0 = true ∧
    asksQueue (rep (tQu ⟨0, 0, true⟩) (pkt eC eD 0 .arrived 0 17 (.qresGrant 0 1 false))) eD (tQu ⟨0, 0, true⟩) (epPkg eC) 1 = false :=
  ⟨by rw [Arrives]; decide +kernel, rfl, by decide +kernel, by decide +kernel⟩
/-- A grant and a return that have lapsed on their way. -/
theorem test_witness_grant_lapsed : expired (ev cE []) eD ⟨0, 0, 0⟩ = true ∧ expired (ev cE []) (hostGwEp 0) ⟨0, 0, 0⟩ = true ∧
    Arrives (ev cE [{ pkt eC eD 0 .arrived 0 17 (.qresGrant 0 1 false) with carry := ⟨0, 0, 0⟩ }]) 0 { pkt eC eD 0 .arrived 0 17 (.qresGrant 0 1 false) with carry := ⟨0, 0, 0⟩ } ∧
    Arrives (ev cE [{ toHost (.qresReturn 0 1) with carry := ⟨0, 0, 0⟩ }]) 0 { toHost (.qresReturn 0 1) with carry := ⟨0, 0, 0⟩ } := by
  refine ⟨by decide, by decide, ?_, ?_⟩ <;> rw [Arrives] <;> decide +kernel
/-- A request on the channel of another context than its own (R111). -/
theorem test_witness_queue_channel : wrongChannel (ev cE []) (hostGwEp 0) (toHost (.qresReq 0 1)) = false ∧ wrongChannel (ev cE []) (hostGwEp 0) { toHost (.qresReq 0 1) with vc := 5 } = true ∧
    Arrives (ev cE [{ toHost (.qresReturn 0 1) with vc := 5 }]) 0 { toHost (.qresReturn 0 1) with vc := 5 } := by
  refine ⟨by decide +kernel, by decide +kernel, ?_⟩
  rw [Arrives]; decide +kernel
abbrev entry0 (l : Option Nat) : DtlEntry := ⟨.take 8 false 5, 0x20000, reqOf eD 0 t0 16 3, ⟨-1, 0, 0⟩, false, l⟩
theorem test_witness_list_timeout : ((ev { cE with cycle := 6, dtl := [entry0 (some 5)] } []).core eC).dtl = [entry0 (some 5)] ∧ 5 < ((ev { cE with cycle := 6, dtl := [entry0 (some 5)] } []).core eC).cycle ∧
    (∀ d, (entry0 none).deadline = some d → 6 ≤ d) := ⟨rfl, by decide, fun _ h => nomatch h⟩
abbrev tProbe : Thread := { t0 with park := some ⟨.probe, 0, none, 0x1004, 1, 0, 5⟩ }
abbrev sProbe : State := { rep tProbe (reply 8 .refused) with pkgs := [(0, { pkgOn with probes := [⟨4096, [0], some (reqOf eD 0 t0 (16 + 32 * 5) 0)⟩] })] }
theorem test_witness_probe_return : (sProbe.pkgs.flatMap fun (n, p) => p.probes.map fun x => (n, x))[0]? = some (0, ⟨4096, [0], some (reqOf eD 0 t0 (16 + 32 * 5) 0)⟩) ∧
    locate sProbe eD 1 = .slot 0 ∧ sProbe.thr? eD 0 = some tProbe := ⟨rfl, rfl, rfl⟩

-- EngineEvents: a COPY of 4112 bytes at its start, at a lapse, all cut; pieces at the edges of the scratchpad; queues full; landings; programs
abbrev cmd0 (done mark flying : Nat) (inst : Instant) : Cmd :=
  { id := 3, engine := 0, ep := eC, req := reqOf eC 0 t0 0 3, carry := ⟨inst, 7, 0⟩, words := [0x0301_0001, 0, 0x4000, 0, 514, 0, 0, 0], dims := [(514, 0, 0)], lbase := 128, peermap := 0,
    done := done, total := 4112, mark := mark, flying := flying, failed := 0, bytes := 0, fault := false, refused := false, annulled := false, asked := false, pattern := none, landing := false }
abbrev sCmd (c : Cmd) (net : List Pkt) : State := { ev { cE with slots := [(0, t0)] } net with cmds := [c] }
theorem test_witness_piece_leaves : (sCmd (cmd0 0 0 0 (-1)) []).cmds[0]? = some (cmd0 0 0 0 (-1)) ∧ ((sCmd (cmd0 0 0 0 (-1)) []).cmds.find? (·.id == 3)) = some (cmd0 0 0 0 (-1)) ∧ cKind (cmd0 0 0 0 (-1)).words ≠ 4 ∧
    ((cmd0 0 0 0 (-1)).side 0).toNat / 2 ^ 62 = 0 ∧ ((cmd0 0 0 0 (-1)).side 1).toNat / 2 ^ 62 = 0 ∧ expired (sCmd (cmd0 0 0 0 (-1)) []) eC ⟨-1, 7, 0⟩ = false ∧ expired (sCmd (cmd0 4096 4096 1 0) []) eC ⟨0, 7, 0⟩ = true :=
  ⟨rfl, rfl, by decide, by decide, by decide, by decide, by decide⟩
abbrev loc (a : Nat) (l : Bool) : PieceLoc := ⟨eC, a, none, false, l, 3, none, false⟩
theorem test_witness_pieces : ∀ b ∈ [Body.pieceRead 3 (loc 0x2FF00 false) 256 [loc 0x20000 true] [] eC, .pieceWrite 3 (loc 0x17FF00 true) (some [1]) 256 [] eC, .pieceWrite 3 (loc 0x2FF00 false) none 256 [] eC,
    .patternRead 3 (loc 0x20000 true) 8 eC, .pattern 3 (some [1]) false, .pieceEnd 3 256 .written], arrivedPkt (sCmd (cmd0 0 0 1 (-1)) [to0 b]) 0 = some (to0 b) := by decide +kernel
theorem test_witness_piece_windows : admits (ev cE []) eC 0 0x2FF00 256 (true, false, false) = true ∧ admits (ev cE []) eC 0 0x2FF00 257 (false, true, false) = false ∧
    anyOchre (ev { cE with gran := [(0x2FFF, .ochre)] } []) eC 0x2FF00 256 = true ∧ ((ev { cE with destQ := List.replicate 63 ⟨0, [], [], false, 0, 0⟩ } []).core eC).destQ.length < 64 ∧ epKind eD = 0 := by
  and_intros <;> decide +kernel
theorem test_witness_piece_report : (1 < (cmd0 4112 4112 2 (-1)).flying) ∧ (cmd0 4112 4112 1 (-1)).total ≤ (cmd0 4112 4112 1 (-1)).done ∧ (cmd0 4112 4112 1 (-1)).status = 0 ∧ cNote (cmd0 4112 4112 1 (-1)).words = false ∧
    noticesOut (sCmd (cmd0 4112 4112 1 (-1)) []) 1 = false ∧ locate (sCmd (cmd0 4112 4112 1 (-1)) []) eC 1 = .slot 0 := ⟨by decide, by decide, by decide, by decide, by decide, rfl⟩
theorem test_witness_dest_write : ∀ x ∈ [(⟨0x20000, [1], [], false, 3, 0⟩ : DestEntry), ⟨0x20000, [0], [], true, 3, 0⟩, ⟨0x20000, List.replicate 16 1, [2 ^ 16 - 1], false, 3, 0⟩],
    ((ev { cE with destQ := [x] } []).core eC).destQ = x :: [] ∧ anySealed (ev { cE with destQ := [x] } []) eC x.addr x.data.length = false ∧ granAt (ev { cE with destQ := [x] } []) eC x.addr = .empty ∧
    ((ev { cE with destQ := [x] } []).core eC).overflow = [] ∧ ((ev { cE with destQ := [x] } []).core eC).dtl = [] := by decide +kernel
theorem test_witness_dest_sealed : anySealed (ev { cE with vbuf := [⟨0x20000, 5, true, 1, 0, true, none, false⟩] } []) eC 0x20000 1 = true := by decide
/-- Pieces that have lapsed, and one of a collective, which cannot; a core that is not released. -/
theorem test_witness_piece_lapsed : let b := Body.pieceWrite 3 (loc 0x20000 true) (some [1]) 4 [] eC
    (to0 b).lapsed (ev cE []) eC = false ∧ { to0 b with carry := ⟨0, 7, 0⟩ }.lapsed (ev cE []) eC = true ∧
    { to0 (.pieceWrite 3 (loc 0x20000 true) (some [1]) 4 [] (ceEp 0)) with carry := ⟨0, 7, 0⟩ }.lapsed (ev cE []) eC = false ∧ closedAt (ev cE []) eC = false ∧
    wrongChannel (ev cE []) eC (to0 b) = false ∧ (ev cE []).core? (mkEp 0 0 0 2 0) = none ∧ isCore (mkEp 0 0 0 2 0) = true := by and_intros <;> decide +kernel
theorem test_witness_codeseg : (31 : Word).toNat % 512 * 4096 < xbBytes cE ∧ xbBytes cE ≤ (32 : Word).toNat % 512 * 4096 ∧ cE.mgmt.codeBusy = false ∧ (ev cE []).core? eC = some cE := ⟨by decide, by decide, rfl, rfl⟩
abbrev landing : Cmd := { cmd0 4096 0 0 (-1) with engine := 2, total := 4096, landing := true, words := [2, 0, 0x1000] }
theorem test_witness_landed : landing.status = 0 ∧ landing.flying = 0 ∧ landing.total ≤ landing.done ∧ landing.ep = landing.req.ep ∧ (∀ q ∈ cE.destQ, q.cmd ≠ landing.id) := ⟨by decide, rfl, by decide, rfl, fun _ h => nomatch h⟩
abbrev grpM : Group := ⟨0, 0, 0, 0, 1, 0, 0, false, [0], [], 0, 0, 0, 0, false⟩
abbrev toMem (b : Body) : Pkt := { to0 b with dst := eM }
abbrev sProg (progs : List (Ctx × Carry × Req × Packet)) (t : Thread) (net : List Pkt) : State :=
  { ev cE net with cores := [(eC, cE), (eM, { tableCore with groups := [grpM], slots := [(0, t)], mem := { tableCore.mem with progs := progs } })] }
abbrev prog0 : Ctx × Carry × Req × Packet := (0, ⟨-1, 0, 0⟩, reqOf eD 0 t0 16 0, [])
abbrev tWork : Thread := { t0 with park := some ⟨.work 8 false false, 0, none, 0x1004, 8, 0, 0⟩ }
theorem test_witness_programs : Arrives (sProg [] tWork [toMem (.program [])]) 0 (toMem (.program [])) ∧ hasProgram (sProg [] tWork []) eM 0 = true ∧ hasProgram (sProg [] tWork []) eM 1 = false ∧
    wrongChannel (sProg [] tWork []) eM (toMem (.program [])) = false := by
  refine ⟨?_, by decide +kernel, by decide +kernel, by decide +kernel⟩
  rw [Arrives]; decide +kernel
theorem test_witness_program_queue : (List.replicate 63 prog0).length < 64 ∧ ((sProg [prog0] tWork []).core eM).mem.progs = prog0 :: [] ∧ expired (sProg [prog0] tWork []) eM prog0.2.1 = false ∧
    quiet (sProg [prog0] tWork []) eM = true ∧ tWork.waitsWork = true ∧ ((sProg [prog0] tWork []).core eM).slots = [(0, tWork)] ∧ isVisitor eM 0 = false := ⟨by decide, rfl, by decide, rfl, rfl, rfl, by decide⟩

-- CollectiveEvents: a chunk for rank 1, a command at its end, stopped, lapsed; a chunk behind, ahead of, for and against its command; blocks
abbrev coll0 (out inn : List (Nat × Nat)) (st : Option Nat) : Coll :=
  { id := 3, req := reqOf eC 0 t0 0 3, carry := ⟨-1, 0, 0⟩, words := [0x0301_0003, 0, 0x100, 0, 0xB000, 1, 0, 0], lbase := 128, peermap := 0x202, comm := 0, num := 2,
    toSend := out, toCome := inn, since := 0, lastFrom := [], flying := 0, parts := [], bytes := 0, isOver := st }
abbrev pkgColl (c : Coll) : Pkg := { pkgOn with colls := [c], collNums := [(0, 3)] }
abbrev sColl (c : Coll) (net : List Pkt) : State := { ev { cE with slots := [(0, t0)] } net with pkgs := [(0, pkgColl c)] }
theorem test_witness_chunk : (sColl (coll0 [(1, 0)] [] none) []).pkg 0 = pkgColl (coll0 [(1, 0)] [] none) ∧ locate (sColl (coll0 [] [] (some 1)) []) eC 1 = .slot 0 ∧
    nextColl (sColl (coll0 [(1, 0)] [] none) []) 0 = some 0 ∧ (cw (coll0 [] [] none).words 1).toNat / 2 ^ 62 = 0 ∧ expired (sColl (coll0 [(1, 0)] [] none) []) (ceEp 0) ⟨-1, 0, 0⟩ = false ∧
    expired (sColl (coll0 [(1, 0)] [] none) []) (ceEp 0) ⟨0, 7, 0⟩ = true ∧ cNote (coll0 [] [] none).words = false ∧
    (coll0 [(1, 0)] [] none).ready = none ∧ reachable (sColl (coll0 [(1, 0)] [] none) []) 0 1 = true ∧ (pkgColl (coll0 [(1, 0)] [] none)).early = [] :=
  ⟨rfl, rfl, by decide +kernel, by decide, by decide, by decide, by decide, rfl, by decide +kernel, rfl⟩
theorem test_witness_chunk_rank : commRank (sColl (coll0 [(1, 0)] [] none) []) 0 0 = 0 ∧ commPkg (sColl (coll0 [(1, 0)] [] none) []) 0 0 1 0x202 = some 1 ∧ commSize (sColl (coll0 [(1, 0)] [] none) []) 0 0 = 2 ∧
    anySealed (sColl (coll0 [(1, 0)] [] none) []) eC 0x20000 4096 = false ∧ queued (sColl (coll0 [(1, 0)] [] none) []) eC 0x20000 4096 = false ∧
    anyOchre (sColl (coll0 [(1, 0)] [] none) []) eC 0x20000 4096 = false := by and_intros <;> decide +kernel
/-- Every buffer of package 1 holds a chunk, however many it has. -/
theorem test_witness_chunk_buffers : bufferFree { State.reset with pkgs := [(1, { Pkg.off 1 with early := List.replicate (1 + Config.chunkBuffers 1) (.chunk 0 2 0 0 [] [1]) })] } 1 0 2 = false ∧
    bufferFree State.reset 1 0 2 = true ∧ 65536 * 0 < colBytes (coll0 [] [] none).words := by
  refine ⟨?_, by decide, by decide⟩
  simp [bufferFree, State.pkg, tget, State.reset, List.countP_replicate]
/-- A stopped command with a piece, or a notice, on its way; a failure that came before the command. -/
theorem test_witness_chunk_waits : ({ coll0 [] [] (some 1) with flying := 1 }).flying ≠ 0 ∧ noticesOut (sColl (coll0 [] [] (some 1)) [pkt eC eC 0 .arrived 0 17 (.answer .refused)]) 1 = true ∧
    noticesOut (sColl (coll0 [] [] (some 1)) []) 1 = false ∧ (Early.partFail 0 2 1 true).isFor 0 2 = true := by decide
abbrev chunk (comm num no : Nat) (hdr : List Nat) : Pkt := ⟨ceEp 1, ceEp 0, 3, .arrived, 0, reqOf eF 0 t0 0 3, ⟨-1, 0, 0⟩, .chunk comm num 1 no hdr [1, 2], 0, none⟩
theorem test_witness_chunk_arrives : Arrives (sColl (coll0 [] [(1, 0)] none) [chunk 0 2 0 [5]]) 0 (chunk 0 2 0 [5]) ∧ findColl (sColl (coll0 [] [(1, 0)] none) []) 0 0 2 = some (coll0 [] [(1, 0)] none) ∧
    findColl (sColl (coll0 [] [(1, 0)] none) []) 0 0 1 = none ∧ findColl (sColl (coll0 [] [(1, 0)] none) []) 0 0 3 = none ∧ (tget ((sColl (coll0 [] [(1, 0)] none) []).pkg 0).collNums 0).getD 0 = 3 ∧
    (1, 0) ∈ (coll0 [] [(1, 0)] none).toCome ∧ (1, 1) ∉ (coll0 [] [(1, 0)] none).toCome ∧ [5] ≠ (coll0 [] [(1, 0)] none).hdr ∧ ((sColl (coll0 [] [(1, 0)] none) []).core? (gatewayEp 0 0 0 0)).isSome = false :=
  ⟨by rw [Arrives]; decide +kernel, by decide, by decide, by decide, by decide, by decide, by decide, by decide⟩
theorem test_witness_chunk_reduces : colReduces [0x0301_0003, 0, 0x100, 0, 0x0100, 1, 0, 0] = true ∧ ({ sColl (coll0 [] [(1, 0)] none) [] with cores := [(gatewayEp 0 0 0 0, Core.start .gateway)] }.core? (gatewayEp 0 0 0 0)).isSome := by
  and_intros <;> decide
abbrev failure0 (num : Nat) : Pkt := ⟨ceEp 1, ceEp 0, 1, .arrived, 0, reqOf eF 0 t0 0 3, ⟨-1, 0, 0⟩, .partFail 0 num 1 true, 0, none⟩
theorem test_witness_failure : Arrives (sColl (coll0 [] [(1, 0)] none) [failure0 2]) 0 (failure0 2) ∧ Arrives (sColl (coll0 [] [(1, 0)] none) [failure0 3]) 0 (failure0 3) := by
  constructor <;> rw [Arrives] <;> decide +kernel
/-- A piece of its own destination that was not written, of the first of two ranks, with nothing to come but from the other. -/
theorem test_witness_collective_piece : Arrives (sColl { coll0 [] [(1, 0)] none with flying := 1 } [pkt eC (ceEp 0) 0 .arrived 0 0 (.pieceEnd 3 4 .refused)]) 0 (pkt eC (ceEp 0) 0 .arrived 0 0 (.pieceEnd 3 4 .refused)) ∧
    (sColl { coll0 [] [(1, 0)] none with flying := 1 } []).cmds = [] ∧ (coll0 [] [(1, 0)] none).id = 3 := ⟨by rw [Arrives]; decide +kernel, rfl, rfl⟩
theorem test_witness_collective_timeout : (coll0 [] [(1, 0)] none).toCome = (1, 0) :: [] ∧ (tget (coll0 [] [(1, 0)] none).lastFrom 1).getD (coll0 [] [(1, 0)] none).since = 0 ∧
    ({ sColl (coll0 [] [(1, 0)] none) [] with dies := [(0, { Die.start with now := 5 })] }.pkgNow 0).toNat < 0 + pkgOn.bridge.commto.toNat * 1000 ∧
    0 + pkgOn.bridge.commto.toNat * 1000 ≤ ({ sColl (coll0 [] [(1, 0)] none) [] with dies := [(0, { Die.start with now := -1 })] }.pkgNow 0).toNat :=
  ⟨rfl, rfl, by decide, by decide⟩
abbrev block0 : RedBlock := ⟨0, ⟨-1, 0, 0⟩, 3, 0x1000, 0, [1, 2], 1, none⟩
abbrev tRed : Thread := { tW [] with park := some ⟨.work 8 false false, 0, none, 0x1004, 8, 0, 0⟩ }
abbrev sRed (t : Thread) : State := { sColl { coll0 [] [] none with parts := [(0, some [3, 4], 0)] } [] with cores := [(eG, { Core.start .gateway with reds := [block0], slots := [(0, t)] })] }
theorem test_witness_red_block : nextRed (sRed tRed) eG = some (0, block0, [3, 4]) ∧ (∀ z ∈ ((sRed t0).core eG).slots, z.2.waitsWork = false) ∧ ((sRed tRed).core eG).slots = [(0, tRed)] ∧
    quiet (sRed tRed) eG = true ∧ tRed.pair = none ∧ tRed.origin = none ∧ tRed.stopped = false ∧ Memory.wf ((sRed tRed).core eG).spad = true := by and_intros <;> decide +kernel
/-- A block whose thread has ended. -/
theorem test_witness_block_combined : combinedRed { sColl (coll0 [] [] none) [] with cores := [(eG, { Core.start .gateway with reds := [{ block0 with taken := some (0, 0x20000) }] })] } eG =
    some { block0 with taken := some (0, 0x20000) } ∧ combinedRed (sRed tRed) eG = none := by decide +kernel
theorem test_witness_block_places : ∃ x y, redPlaces tRed = some (x, y) := ⟨_, _, rfl⟩

-- MemoryEvents: a line of each state, in a failed channel and not; a packet for one; a mirror's write; a walk; a shootdown
abbrev bl (fi wr : Bool) (o : Bool) : BufLine := { bufLine 0x40 7 with filling := fi, writing := wr, ochre := o }
/-- The package with a copy of the record of context 0, whose channel is 4. -/
abbrev pkgK : Pkg := { pkgOn with copies := [(0, 2 ^ 63 + 4 * 2 ^ 56)] }
abbrev sLn (bs : List BufLine) (fa : Bool) (net : List Pkt) : State :=
  { State.reset with pkgs := [(0, pkgK)], net := net, cores := [(eM, { Core.start .memory with mem := ⟨bs, [], [], 0, 0⟩, mgmt := { CoreMgmt.start with failed := fa } })], nextUid := 9 }
theorem test_witness_lines : (∀ b ∈ [bl true false false, bl false true false, bl false false true], ((sLn [b] false []).core eM).mem.buf[0]? = some b) ∧ ((sLn [] false []).core? eM).isSome ∧
    ((sLn [] true []).core eM).mgmt.failed = true ∧ ((sLn [] false []).core eM).mgmt.failed = false ∧ 64 ∣ 0x40 ∧ populated 0x40 64 = true ∧ homeOf 0x40 = eM ∧
    ((sLn [bl false true false] false []).core eM).mem.buf.find? (·.line == 0x40) = some (bl false true false) ∧ (bl false true false).upsets = [] ∧
    bufLine? (sLn [bl false false false] false []) 0x40 ≠ none ∧ bufLine? (sLn [] false []) 0x40 = none := by and_intros <;> decide +kernel
/-- A line whose codeword has one wrong symbol, and two; a line of its set that is being written back keeps it out. -/
abbrev sUpset (bs : List BufLine) (m : Memory) : State := { sLn bs false [] with dram := m }
theorem test_witness_scrub : (readLine (sUpset [] [(0x40, 1)]) 0x40).fixed ≠ [] ∧ (readLine (sUpset [] [(0x40, 1)]) 0x40).bad = false ∧ (readLine (sUpset [] [(0x40, 1), (0x41, 1)]) 0x40).bad = true ∧
    (readLine (sUpset [] [(0x40, 1), (0x41, 1)]) 0x40).marker = false ∧ (readLine (sUpset [] []) 0x40).fixed = [] ∧ canEnter (sUpset [] [(0x40, 1)]) eM 0x40 = true ∧ wayFor (sUpset [] []) eM 0x40 = some none ∧
    (∃ b : BufLine, canEnter (sUpset [b] [(0x40, 1)]) eM 0x40 = false ∧ bufLine? (sUpset [b] []) 0x40 = none) := by
  refine ⟨?_, ?_, ?_, ?_, ?_, ?_, ?_, ⟨{ bufLine 0x1_0100_0040 7 with writing := true }, ?_, ?_⟩⟩ <;> decide +kernel
abbrev dramPkt (acc : Access) (c : Carry) : Pkt := { to0 (.dram 0x78 acc none false none false) with dst := eM, carry := c }
theorem test_witness_line_access : Arrives (sLn [bl false false false] false [dramPkt (.store 8 5) ⟨-1, 0, 0⟩]) 0 (dramPkt (.store 8 5) ⟨-1, 0, 0⟩) ∧ wrongChannel (sLn [bl false false false] false []) eM (dramPkt (.store 8 5) ⟨-1, 0, 0⟩) = false ∧
    ((sLn [bl false false false] false []).core eM).mem.buf.find? (·.line == lineOfPa 0x78) = some (bl false false false) ∧ ((sLn [] false []).core eM).mem.buf.find? (·.line == lineOfPa 0x78) = none ∧ (∀ y ∈ ([] : List BufLine), y.writing = false) ∧
    expired (sLn [] false []) eM ⟨-1, 0, 0⟩ = false ∧ expired (sLn [] false []) eM ⟨0, 7, 0⟩ = true ∧ Access.counts (.store 8 5) = true :=
  ⟨by rw [Arrives]; decide +kernel, by decide +kernel, by decide +kernel, by decide +kernel, by decide, by decide, by decide, by decide⟩
/-- A load whose line another access awaits at the port, by the order of arrival; nothing waits where no packet has a ticket. -/
theorem test_witness_port : portWaiters (sLn [bl false false false] false [dramPkt (.store 8 5) ⟨-1, 0, 0⟩]) eM = [] ∧
    portWaiters (sLn [] false [dramPkt (.store 8 5) ⟨-1, 0, 0⟩, { dramPkt (.load 8 false) ⟨-1, 0, 0⟩ with ticket := 1 }]) eM = [(1, [lineOfPa 0x78])] := by decide +kernel
abbrev mirPkt : Pkt := { pkt (mkEp 1 0 1 0 0) eM 4 .arrived 0 16 (.mirrorWrite 0x78 [1] (.answer (.ack 0)) ⟨-1, 0, 0⟩) with sent := 5 }
theorem test_witness_mirror : Arrives (sLn [bl false false false] false [mirPkt]) 0 mirPkt ∧ 0x78 % 64 + 1 ≤ 64 ∧ lineOfPa 0x78 = 0x40 ∧ mirPkt.req.ep ≠ eM ∧ wrongChannel (sLn [bl false false false] false [mirPkt]) eM mirPkt = false ∧
    portWaiters (sLn [bl false false false] false [mirPkt]) eM = [] := ⟨by rw [Arrives]; decide +kernel, by decide, by decide, by decide, by decide +kernel, by decide⟩
theorem test_witness_mirror_channel : Arrives (sLn [] false [{ mirPkt with vc := 5 }]) 0 { mirPkt with vc := 5 } ∧ wrongChannel (sLn [] false [{ mirPkt with vc := 5 }]) eM { mirPkt with vc := 5 } = true :=
  ⟨by rw [Arrives]; decide +kernel, by decide +kernel⟩
abbrev outMir : Pkt := { pkt eM (mkEp 1 0 1 0 0) 4 .egress 0 16 (.mirrorWrite 0x78 [1] (.answer (.ack 0)) ⟨-1, 0, 0⟩) with sent := 5 }
theorem test_witness_mirror_timeout : (sLn [] false [outMir]).net[0]? = some outMir ∧ epPkg outMir.src ≠ epPkg outMir.dst ∧ outMir.req.ep ≠ outMir.src ∧ 1 ∉ ((sLn [] false [outMir]).pkg 0).lost ∧
    ({ sLn [] false [outMir] with dies := [(0, { Die.start with now := -1 })] }).now eM = -1 ∧ outMir.sent + pkgOn.bridge.mirrto.toNat * 1000 ≤ (-1 : Word).toNat := ⟨rfl, by decide, by decide, by decide, by decide, by decide⟩
abbrev outDram : Pkt := { pkt eM (mkEp 1 0 1 0 0) 4 .egress 0 16 (.dram (2 ^ 46 + 0x78) (.load 8 false) none false (some 0) false) with sent := 5 }
theorem test_witness_failover : (sLn [] false [outDram]).net[0]? = some outDram ∧ epPkg outDram.src ≠ epPkg outDram.dst ∧ 1 ∉ ((sLn [] false [outDram]).pkg 0).lost ∧
    outDram.sent + pkgOn.bridge.mirrto.toNat * 1000 ≤ (-1 : Word).toNat := ⟨rfl, by decide, by decide, by decide⟩
/-- A reply that is late: its request left the first package's memory core at 5 for a page whose other home is package 0. -/
abbrev lateReply : Pkt := { pkt (mkEp 1 0 1 0 0) eM 0 .link 0 16 (.answer (.value 7 0)) with
  asked := some ⟨eM, mkEp 1 0 1 0 0, 4, 5, .dram (2 ^ 46 + 0x78) (.load 8 false) none false (some 0) false⟩ }
theorem test_witness_late_reply : (sLn [] false [lateReply]).net[0]? = some lateReply ∧ 1 ∉ ((sLn [] false [lateReply]).pkg 0).lost ∧ (5 + pkgOn.bridge.mirrto.toNat * 1000) ≤ (-1 : Word).toNat ∧
    ((sLn [] false [lateReply]).now eM).toNat < 5 + pkgOn.bridge.mirrto.toNat * 1000 ∧ ({ sLn [] false [lateReply] with dies := [(0, { Die.start with now := -1 })] }).now eM = -1 := by and_intros <;> decide
abbrev walk0 (st : Bool) (level : Nat) : Walk := ⟨0, 0, [(0, eC)], level, 0x40, st, false, none⟩
abbrev sWalk (w : Walk) (v : Nat) : State := { sLn [bufLine 0x40 v] false [] with dies := [(0, { Die.start with walks := [w] })] }
theorem test_witness_walk : (((sWalk (walk0 false 0) 0).die 0).walks.filter fun w => !w.ended).take 64 = [walk0 false 0] ∧ (walkRead (sWalk (walk0 false 0) 0) 0 0x40 0 0).1 = .absent ∧
    (∀ x ∈ (walk0 false 0).fill, x.1 ≠ 3) ∧ (walk0 true 0).stale = true := by and_intros <;> decide +kernel
theorem test_witness_walk_absent : (walkRead { State.reset with dies := [(0, { Die.start with walks := [walk0 false 0] })] } 0 0x40 0 0).1 = .absent := by decide +kernel
/-- A walk whose table's line is being filled, and one that has an entry there; one that has ended with a leaf for a command that waits. -/
theorem test_witness_walk_busy : paPkg 0x40 = 0 / 8 ∧ populated 0x40 8192 = true ∧ unitBusy (sLn [bl true false false] false []) 0x40 8 = true ∧ unitBusy (sWalk (walk0 true 0) 0) 0x40 8 = false ∧
    (∃ bits pa, (walkRead (sWalk (walk0 true 3) 0x13) 0 0x40 0 3).1 = .leaf bits pa) ∧ (∃ pa, (walkRead (sWalk (walk0 true 0) (1 + 2 * 2 ^ 18)) 0 0x40 0 0).1 = .table pa) ∧
    (4, 1) ∈ ({ walk0 true 0 with fill := [(4, 1)] }).fill ∧ (3, 3) ∈ ({ walk0 true 0 with fill := [(3, 3)] }).fill ∧
    Thread.awaits { t0 with park := some ⟨.again (.tlb 0), 0, none, 0x1004, 1, 0, 5⟩ } { walk0 true 0 with fill := [(4, 1)] } = true := by
  refine ⟨by decide, by decide +kernel, by decide +kernel, by decide +kernel, ⟨16, 0, by decide +kernel⟩, ⟨2 ^ 17, by decide +kernel⟩, by decide, by decide, by decide⟩
theorem test_witness_walk_found : let w : Walk := { walk0 true 3 with ended := true, found := some (page true true), fill := [(3, 3)] }
    ((sWalk w 0).die 0).walks = [w] ∧ tlbLook ((sWalk w 0).die 0).tlb 0 w.va = none ∧ dieKey eC = 0 ∧ w.ctx = 0 := ⟨rfl, rfl, rfl, rfl⟩
theorem test_witness_shootdown : ({ sWalk (walk0 false 0) 0 with pkgs := [(0, { pkgOn with invs := [⟨0, 0, 0, [0, 1], reqOf eC 0 t0 16 3⟩] })] }.pkg 0).invs = [⟨0, 0, 0, [0, 0 + 1], reqOf eC 0 t0 16 3⟩] ∧
    (⟨0, 0, 0, [0], reqOf eC 0 t0 16 3⟩ : Inv).todo = [0] ∧ ((sWalk (walk0 false 0) 0).core? eM).isSome := ⟨rfl, rfl, rfl⟩

-- RegionEvents: a begin with and without a free record, an access, its edges and grant, a commit, its seals and resolves, discards, a delivery, a
-- lapse, a timeout: each a packet of the region unit of die 0 or of an owner (R486)
abbrev tWaitR : Thread := { t0 with region := some ⟨5, none⟩, park := some ⟨.region, 0, none, 0x1004, 1, 0, 5⟩ }
abbrev tBegin : Thread := { t0 with park := some ⟨.region, 0, none, 0x1004, 1, 0, 5⟩ }
abbrev reqP : Req := reqOf eC 0 t0 (16 + 32 * 5) 0
abbrev relays (src dst vc : Nat) (m : RMsg) : Pkt := ⟨src, dst, vc, .arrived, 0, reqP, ⟨-1, 0, 0⟩, .region m, 0, none⟩
abbrev toUnit (vc : Nat) (m : RMsg) : Pkt := relays eC (unitEp 0) vc m
abbrev toOwner (vc : Nat) (m : RMsg) : Pkt := relays (unitEp 0) eC vc m
abbrev sReg (t : Thread) (r : List (Nat × Region)) (vb : List VEntry) (ra : List RAccess) (net : List Pkt) : State :=
  { st eC 0 t with
    cores := [(eC, { Core.start .compute with slots := [(0, t)], vbuf := vb })]
    dies := [(0, { Die.start with regions := r, raccs := ra })]
    net := net }
theorem test_witness_region_begin : regionPkt (sReg tBegin [] [] [] [toUnit 1 (.begin_ 0x8_0000 1 (-1))]) 0 0 = some (0, toUnit 1 (.begin_ 0x8_0000 1 (-1)), .begin_ 0x8_0000 1 (-1)) ∧
    awaits (sReg tBegin [] [] [] []) reqP = true ∧ tget ((sReg tBegin [] [] [] []).die 0).regions 0 = none ∧ locate (sReg tBegin [] [] [] []) eC 1 = .slot 0 ∧ reqP.entry = 16 + 32 * 5 := by
  refine ⟨?_, ?_, ?_, ?_, ?_⟩ <;> decide +kernel
theorem test_witness_region_opened : Arrives (sReg tBegin [] [] [] [toOwner 0 (.opened (some 5) 0x8_0000 1)]) 0 (toOwner 0 (.opened (some 5) 0x8_0000 1)) ∧
    Arrives (sReg tBegin [] [] [] [toOwner 0 (.opened none 0x8_0000 1)]) 0 (toOwner 0 (.opened none 0x8_0000 1)) ∧ fetchTraps (sReg tBegin [] [] [] []) eC 0x8_0000 = true := by
  refine ⟨?_, ?_, by decide +kernel⟩ <;> rw [Arrives] <;> decide +kernel
theorem tget_of_mem {α : Type} (r : α) (x : Nat) : ∀ l : List Nat, x ∈ l → tget (l.map fun i => (i, r)) x = some r
  | a :: l, h => by
    by_cases ha : a = x
    · simp [tget, ha]
    · simp [tget, ha, tget_of_mem r x l ((List.mem_cons.1 h).resolve_left fun e => ha e.symm)]
theorem test_witness_region_full : ∀ x < 1024, tget ((List.range 1024).map fun i => (i, rec5)) x ≠ none := fun x hx h =>
  nomatch (tget_of_mem rec5 x _ (List.mem_range.2 hx)).symm.trans h
abbrev rac (acc : Access) (c : Carry) (here : Bool) (ph : RPhase) : RAccess := ⟨5, eC, false, [(0x20000, acc)], [], none, reqP, c, false, here, 0, none, ph, 3, 0⟩
abbrev recI (st : RState) (i : Instant) (ps : List Nat) (wt : List EP) (sn : Nat) (tmo : Word) : Region := ⟨st, 1, reqOf eC 0 t0 0 0, ⟨i, 0, 0⟩, 0x1006, 1, tmo, ps, [eC], wt, 0, false, sn, eC⟩
abbrev open5 (i : Instant) : List (Nat × Region) := [(5, recI .opened i [] [] 0 (-1))]
abbrev sentAt (x : RAccess) (i : Instant) (vc : Nat) : Pkt := { toOwner vc (.access x) with carry := ⟨i, 0, 0⟩ }
abbrev sAt (x : RAccess) (i : Instant) (vc : Nat) : State := sReg tWaitR (open5 i) [] [] [sentAt x i vc]
theorem test_witness_region_arrival : (∀ h ∈ [true, false], regionPkt (sAt (rac (.load 8 false) ⟨-1, 0, 0⟩ h .waiting) (-1) 1) 0 0 =
      some (0, sentAt (rac (.load 8 false) ⟨-1, 0, 0⟩ h .waiting) (-1) 1, .access (rac (.load 8 false) ⟨-1, 0, 0⟩ h .waiting))) ∧
    accessRegion (sAt (rac (.load 8 false) ⟨-1, 0, 0⟩ true .waiting) (-1) 1) 0 (rac (.load 8 false) ⟨-1, 0, 0⟩ true .waiting) = some (recI .opened (-1) [] [] 0 (-1)) ∧
    accessCurrent (sAt (rac (.load 8 false) ⟨-1, 0, 0⟩ true .waiting) (-1) 1) (rac (.load 8 false) ⟨-1, 0, 0⟩ true .waiting) = true ∧
    expired (sAt (rac (.load 8 false) ⟨-1, 0, 0⟩ true .waiting) (-1) 1) eC ⟨-1, 0, 0⟩ = false ∧ closedAt (sReg tWaitR [] [] [] []) eC = false ∧
    admits (sReg tWaitR [] [] [] []) eC 0 0x20000 8 (Access.needs (.load 8 false)) = false := by
  refine ⟨?_, ?_, ?_, ?_, ?_, ?_⟩ <;> decide +kernel
/-- One that has lapsed on its way, and one that a window admits. -/
theorem test_witness_region_arrival_more : regionPkt (sAt (rac (.store 8 1) ⟨0, 0, 0⟩ true .waiting) 0 1) 0 0 = some (0, sentAt (rac (.store 8 1) ⟨0, 0, 0⟩ true .waiting) 0 1, .access (rac (.store 8 1) ⟨0, 0, 0⟩ true .waiting)) ∧
    accessRegion (sAt (rac (.store 8 1) ⟨0, 0, 0⟩ true .waiting) 0 1) 0 (rac (.store 8 1) ⟨0, 0, 0⟩ true .waiting) = some (recI .opened 0 [] [] 0 (-1)) ∧
    expired (sAt (rac (.store 8 1) ⟨0, 0, 0⟩ true .waiting) 0 1) eC ⟨0, 0, 0⟩ = true ∧
    admits (ev cE []) eC 0 0x20000 8 (Access.needs (.load 8 false)) = true ∧ wrongChannel (ev cE []) eC (sentAt (rac (.load 8 false) ⟨-1, 0, 0⟩ false .waiting) (-1) 4) = false ∧
    wrongChannel (ev cE []) eC (sentAt (rac (.load 8 false) ⟨-1, 0, 0⟩ false .waiting) (-1) 1) = true := by
  refine ⟨?_, ?_, ?_, ?_, ?_, ?_⟩ <;> decide +kernel
abbrev xr (acc : Access) (ph : RPhase) : RAccess := rac acc ⟨-1, 0, 0⟩ true ph
abbrev sX (acc : Access) (ph : RPhase) (rs : List (Nat × Region)) (vb : List VEntry) (net : List Pkt) : State := sReg tWaitR rs vb [xr acc ph] net
theorem test_witness_region_asks : (regionPkts (sX (.load 8 false) .waiting (open5 (-1)) [] []) 0).length = 0 ∧ (xr (.load 8 false) .waiting).phase = .waiting ∧
    (∀ y ∈ (xr (.load 8 false) .waiting).words, y.1 / 8 = 0x20000 / 8 → y.2.writes = false) ∧ (∃ y, (xr (.store 8 1) .waiting).words.head? = some y ∧ y.2.writes = true) :=
  ⟨by decide +kernel, rfl, by decide, ⟨_, rfl, rfl⟩⟩
theorem test_witness_region_edges : (∀ f ∈ [[], [6]], regionPkt (sX (.load 8 false) .asked (open5 (-1)) [] [toUnit 1 (.edges 5 3 f)]) 0 0 = some (0, toUnit 1 (.edges 5 3 f), .edges 5 3 f)) ∧
    (5 : Nat) ≠ 6 % 1024 ∧ (recI .opened (-1) [7, 8, 9, 10] [] 0 (-1)).preds.length = 4 ∧ 6 ∉ (recI .opened (-1) [7, 8, 9, 10] [] 0 (-1)).preds ∧ (recI .opened (-1) [5] [] 0 (-1)).preds = [5] ∧
    ((1 : BitVec 32) - 0).toNat < 2 ^ 31 ∧ 2 ^ 31 ≤ ((1 : BitVec 32) - 2).toNat ∧
    regionPkt (sX (.load 8 false) .asked (open5 (-1)) [] [toOwner 0 (.granted 5 3 [6])]) 0 0 = some (0, toOwner 0 (.granted 5 3 [6]), .granted 5 3 [6]) := by
  refine ⟨?_, ?_, ?_, ?_, ?_, ?_, ?_, ?_⟩ <;> decide +kernel
abbrev by6 : VEntry := ⟨0x20000, 6, true, 9, 0, false, none, false⟩
theorem test_witness_region_access : (regionPkts (sX (.load 8 false) (.granted []) (open5 (-1)) [] []) 0).length = 0 ∧ tget ((sX (.load 8 false) (.granted []) (open5 (-1)) [] []).die 0).regions (5 % 1024) = some (recI .opened (-1) [] [] 0 (-1)) ∧
    ((sX (.load 8 false) (.granted []) (open5 (-1)) [] []).core? eC).isSome ∧ anyOchre (sX (.load 8 false) (.granted []) (open5 (-1)) [] []) eC 0x20000 8 = false ∧
    anyOchre (stC eC 0 { Core.start .compute with gran := [(0x2000, .ochre)] } tWaitR) eC 0x20000 8 = true ∧ (0x20000 % 8 + 8 ≤ 8) ∧
    (by6.region ≠ (xr (.load 8 false) (.granted [6])).region) ∧ tget ((sX (.load 8 false) (.granted [6]) (open5 (-1) ++ [(6, recI .opened (-1) [] [] 0 (-1))]) [by6] []).die 0).regions (6 % 1024) = some (recI .opened (-1) [] [] 0 (-1)) := by
  refine ⟨?_, ?_, ?_, ?_, ?_, ?_, ?_, ?_⟩ <;> decide +kernel
theorem test_witness_region_size : (List.replicate 127 (⟨0, 9, true, 0, 0, false, none, false⟩ : VEntry)).length < 128 ∧ 128 ≤ (List.replicate 128 (⟨0, 9, true, 0, 0, false, none, false⟩ : VEntry)).length ∧
    (∀ x ∈ List.replicate 128 (⟨0, 9, true, 0, 0, false, none, false⟩ : VEntry), x.addr ≠ 0x20000) :=
  ⟨by simp, by simp, fun _ h => by rw [List.eq_of_mem_replicate h]; decide⟩
/-- An edge to region 6 by its key, and one to a region that has gone; a parked access with nothing to wait for; one of a region whose entry is doomed. -/
abbrev sKey : State := sX (.load 8 false) .asked (open5 (-1) ++ [(6, recI .opened (-1) [] [] 0 (-1))]) [] [toUnit 1 (.edges 5 3 [8198])]
theorem test_witness_region_keys : regionPkt sKey 0 0 = some (0, toUnit 1 (.edges 5 3 [8198]), .edges 5 3 [8198]) ∧ regionKey sKey 0 6 = 8198 ∧
    regionKey sKey 0 (16390 % 8192) ≠ 16390 ∧ (sKey.die 0).raccs = [xr (.load 8 false) .asked] := by
  refine ⟨by decide +kernel, by decide +kernel, by decide +kernel, rfl⟩
theorem test_witness_region_unparked : (regionPkts (sX (.load 8 false) (.parked []) (open5 (-1)) [] []) 0).length = 0 ∧ (xr (.load 8 false) (.parked [])).phase = .parked [] ∧
    ((sX (.load 8 false) (.parked []) (open5 (-1)) [] []).die 0).regions = [(5 % 1024, recI .opened (-1) [] [] 0 (-1))] ∧ (xr (.load 8 false) (.parked [])).parked = true := by decide
theorem test_witness_region_doomed : let v : VEntry := ⟨0x20000, 5, true, 9, 0, false, none, true⟩
    (∃ e ∈ ((sX (.load 8 false) (.granted []) (open5 (-1)) [v] []).core eC).vbuf, e.region = 5 ∧ e.doomed = true) ∧ by6.doomed = false := ⟨⟨_, List.mem_singleton.2 rfl, rfl, rfl⟩, rfl⟩
abbrev sM5 (r : Region) (vb : List VEntry) (p : Pkt) : State := sReg tWaitR [(5, r)] vb [] [p]
abbrev ve : VEntry := ⟨0x20000, 5, true, 9, 0, true, none, false⟩
theorem test_witness_region_requests : ∀ m ∈ [RMsg.commit 5, .stat 5], regionPkt (sM5 (recI .opened (-1) [] [] 0 (-1)) [] (toUnit 1 m)) 0 0 = some (0, toUnit 1 m, m) := by decide +kernel
theorem test_witness_region_owner : ∀ m ∈ [RMsg.seal_ 5, .resolve 5, .discard 5], regionPkt (sM5 (recI .sealing (-1) [] [eC] 0 (-1)) [ve] (toOwner 1 m)) 0 0 = some (0, toOwner 1 m, m) := by decide +kernel
theorem test_witness_region_acks : ∀ m ∈ [RMsg.sealAck 5 eC, .resolveAck 5 eC, .discardAck 5 eC], regionPkt (sM5 (recI .sealing (-1) [] [eC] 0 (-1)) [ve] (toUnit 0 m)) 0 0 = some (0, toUnit 0 m, m) := by decide +kernel
theorem test_witness_region_seal : (recI .opened (-1) [] [] 0 (-1)).owner.uid = reqP.uid ∧ awaits (sReg tWaitR [] [] [] []) reqP = true ∧ (recI .sealing (-1) [] [eC] 0 (-1)).waiting = [eC] ∧
    (recI .sealing (-1) [] [eC, eD] 0 (-1)).waiting.erase eC ≠ [] ∧ checkFails (sReg tWaitR [] [] [] []) 0 (-1) 0 = false ∧ checkFails (sReg tWaitR [] [] [] []) 0 0 0 = true ∧ (5 : Nat) = 0 % 8 * 1024 + 5 % 1024 := by
  refine ⟨?_, ?_, ?_, ?_, ?_, ?_, ?_⟩ <;> decide +kernel
abbrev tCommit : Thread := { t0.setSb 16 ⟨.sent, 9, 0, 0, 0, false⟩ with region := some ⟨5, none⟩, park := some ⟨.answer, 0, none, 0x1004, 1, 0, 5⟩ }
theorem test_witness_region_resolve : ((sM5 (recI .committed (-1) [] [eC] 0 (-1)) [ve] (toOwner 1 (.resolve 5))).core eC).vbuf = [ve] ∧ ve.write = true ∧ ve.addr + 8 ≤ 2 ^ 60 ∧
    ((sM5 (recI .committed (-1) [] [eC] 0 (-1)) [ve] (toOwner 1 (.resolve 5))).core eC).watches = [] ∧ Memory.wf ((sM5 (recI .committed (-1) [] [eC] 0 (-1)) [ve] (toOwner 1 (.resolve 5))).core eC).spad = true ∧
    committer (sReg tCommit [(5, recI .committed (-1) [] [eC] 0 (-1))] [] [] []) (recI .committed (-1) [] [eC] 0 (-1)) = some (eC, 0) := ⟨rfl, rfl, by decide, rfl, rfl, by decide⟩
theorem test_witness_region_release : Arrives (sReg tCommit [(5, recI .committed (-1) [] [] 0 (-1))] [] [] [toOwner 0 (.release 5)]) 0 (toOwner 0 (.release 5)) ∧ dieKey (toOwner 0 (.release 5)).src = 0 := by
  refine ⟨?_, by decide⟩
  rw [Arrives]; decide +kernel
theorem test_witness_region_end : regionPkt (sReg tWaitR [] [] [] [toOwner 0 (.deliver 5 4 0x8_0000 1)]) 0 0 = some (0, toOwner 0 (.deliver 5 4 0x8_0000 1), .deliver 5 4 0x8_0000 1) ∧
    findThread (sReg tWaitR [] [] [] []) 0 1 = some (eC, .slot 0) ∧ findThread (sReg tWaitR [] [] [] []) 0 2 = none ∧ visitorOf (sReg tWaitR [] [] [] []) 1 = none ∧
    (∃ h, tWaitR.region = some ⟨5, h⟩) ∧ tWaitR.handler = false ∧ tWaitR.pair = none ∧ tWaitR.waitsRegion = true ∧ (inReg t0).waitsRegion = false ∧
    Thread.waitsRegion { tWaitR with handler := true } = true ∧ fetchTraps (sReg tWaitR [] [] [] []) eC 0x8_0000 = true := by
  refine ⟨by decide +kernel, by decide +kernel, by decide +kernel, by decide +kernel, ⟨none, rfl⟩, rfl, rfl, rfl, rfl, rfl, by decide +kernel⟩
theorem test_witness_region_aborts : (∀ m ∈ [RMsg.abort 5 1 4, .abort 5 2 4], regionPkt (sM5 (recI .opened (-1) [] [] 0 (-1)) [] (toUnit 1 m)) 0 0 = some (0, toUnit 1 m, m)) ∧
    (recI .opened (-1) [] [] 0 (-1)).seq = 1 ∧ (recI .opened (-1) [] [] 0 (-1)).owners ≠ [] := by decide +kernel
theorem test_witness_region_parked_time : let x := { xr (.load 8 false) (.parked [6]) with since := 1 }
    x.parked = true ∧ x.since ≠ 0 ∧ x.since + (5 : Word).toNat ≤ ({ Core.start .compute with cycle := 5 }).cycle + 1 ∧ (5 : Word) ≠ -1 ∧ x.region = 5 := by decide
theorem test_witness_region_times : (recI .sealing (-1) [] [] 1 5).since + (5 : Word).toNat ≤ 5 + 1 ∧ ¬ (recI .sealing (-1) [] [] 1 5).since + (5 : Word).toNat ≤ 4 + 1 ∧ (recI .sealing (-1) [] [] 1 5).timeout ≠ -1 := by decide

-- VisitorsImagesAndContainment: a migrant for a free visitor slot, behind others, at a full queue; its way home; an image; a rectangle
abbrev origin0 : Origin := ⟨eD, 0, 1, 0⟩
abbrev mig (t : Thread) : Migrant := ⟨t, origin0, ⟨-1, 7, 0⟩, 0, 0x1006⟩
abbrev migPkt : Pkt := { pkt eD eM 4 .arrived 7 16 (.migrant (mig t0)) with carry := ⟨-1, 7, 0⟩ }
abbrev sMig (q : List Migrant) (vs : Table Thread) (net : List Pkt) : State :=
  { ev cE net with cores := [(eD, { cE with slots := [(0, t0)] }), (eM, { tableCore with mem := { tableCore.mem with migrants := q }, slots := vs })] }
theorem test_witness_migrant : Arrives (sMig [] [] [migPkt]) 0 migPkt ∧ expired (sMig [] [] []) eM ⟨-1, 7, 0⟩ = false ∧ wrongChannel (sMig [] [] []) eM migPkt = false ∧ freeVisitor (sMig [] [] []) eM = some 16 ∧
    freeVisitor (sMig [] ((List.range 16).map fun n => (n + 16, t0)) []) eM = none ∧ (List.replicate 31 (mig t0)).length < 32 ∧ 32 ≤ (List.replicate 32 (mig t0)).length ∧
    ((sMig [mig t0] [] []).core eM).mem.migrants = mig t0 :: [] :=
  ⟨by rw [Arrives]; decide +kernel, by decide, by decide +kernel, by decide, by decide, by simp, by simp, rfl⟩
abbrev homePkt (trap : Option (Nat × Word × Word)) (ended : Bool) : Pkt := { pkt eM eD 0 .arrived 7 16 (.comeBack (mig t0) trap ended) with carry := ⟨-1, 7, 0⟩ }
theorem test_witness_migrant_home : Arrives (sMig [] [] [homePkt none false]) 0 (homePkt none false) ∧ originSlot (sMig [] [] []) origin0 = some (0, t0) ∧ originSlot (sMig [] [] []) ⟨eD, 0, 9, 0⟩ = none ∧
    Arrives (sMig [] [] [homePkt (some (7, 0, 0)) true]) 0 (homePkt (some (7, 0, 0)) true) ∧ (mig t0).thr.lapsed = false ∧ t0.origin = none ∧ TakesTraps t0 ∧ rectOf (sMig [] [] []) eD = none := by
  refine ⟨by rw [Arrives]; decide +kernel, rfl, by decide, by rw [Arrives]; decide +kernel, by decide, rfl, ?_, rfl⟩
  and_intros <;> rfl
/-- One that has lapsed on its way, on VC0 as on its context's channel. -/
theorem test_witness_migrant_lapsed : expired (sMig [] [] []) eD ⟨0, 7, 0⟩ = true ∧ Arrives (sMig [] [] [{ homePkt none false with carry := ⟨0, 7, 0⟩ }]) 0 { homePkt none false with carry := ⟨0, 7, 0⟩ } ∧
    (homePkt none false).vc = 0 ∧ expired (sMig [] [] []) eD ⟨-1, 7, 0⟩ = false := ⟨by decide, by rw [Arrives]; decide +kernel, rfl, by decide⟩
abbrev tIssuer : Thread := { t0 with uid := 5, park := some ⟨.swap, 0, none, 0x1004, 1, 0, 5⟩ }
abbrev sImg (t : Table Thread) : State := ev { cE with slots := (0, tIssuer) :: t, swaps := [(15, 127, 5)] } []
theorem test_witness_image : ((sImg [(15, t0)]).core eC).swaps.find? (·.1 == 15) = some (15, 127, 5) ∧ ((sImg [(15, t0)]).core eC).slots.find? (fun (_, t) => t.uid == 5 && (t.park.map (·.why)) == some .swap) = some (0, tIssuer) ∧
    (sImg []).thr? eC 15 = none ∧ (sImg [(15, t0)]).thr? eC 15 = some t0 ∧ mmaBusy (sImg [(15, t0)]) eC t0 = false ∧ groupOf (sImg [(15, t0)]) eC t0.ctx t0.vcore = none ∧
    tget ((sImg [(15, t0)]).cluster (clusterKey eC)).tcc 127 = none ∧ expired (sImg [(15, t0)]) eC (carryOf eC { t0 with sr := { t0.sr with inst := 0, hnd := 7 } }) = true := by and_intros <;> decide +kernel
abbrev sRect (w : BitVec 32) (closed : Bool) : State :=
  { ev cE [] with dies := [(0, { Die.start with arec := Die.start.arec.set 0 w, closed := Die.start.closed.set 0 closed })] }
theorem test_witness_rectangle : arecState (sRect 0xA000_2200 false) 0 0 = 1 ∧ arecState (sRect 0xC000_2200 false) 0 0 = 2 ∧ arecState (sRect 0x8000_2200 false) 0 0 = 0 ∧
    ((sRect 0xA000_2200 true).die 0).closed.toList.getD 0 false = true ∧ ((sRect 0xA000_2200 false).die 0).regions = [] ∧ rectAligned 0x8000_2200 = true ∧ rectAligned 0x8000_0000 = false ∧
    rectsMeet 0x8000_2200 0x8000_0000 = true ∧ rectsMeet 0x8000_2200 0x8090_A400 = false ∧ (∀ p ∈ (sRect 0xA000_2200 false).net, p.probed = false ∧ ∀ m, p.body ≠ .migrant m) := by
  refine ⟨by decide, by decide, by decide, by decide, by decide, by decide, by decide, by decide, by decide, fun _ h => nomatch h⟩
/-- What the closing of a boundary asks of the rest: nothing under way through the rectangle, no command, frame, migrant or visitor. -/
theorem test_witness_rectangle_clear : (sRect 0xA000_2200 false).cmds = [] ∧ (∀ key, ((sRect 0xA000_2200 false).cluster key).frames = []) ∧ ((sRect 0xA000_2200 false).die 0).raccs = [] ∧
    (∀ c ∈ (sRect 0xA000_2200 false).cores, c.2.mem.migrants = [] ∧ c.2.overflow = [] ∧ ∀ x ∈ c.2.slots, x.2.origin = none) ∧
    (∀ p ∈ [pkt eC eC 0 .arrived 0 8 (.answer (.ack 0))], p.probed = false) ∧ rectCores (sRect 0xA000_2200 false) 0 0 0 ≠ [] :=
  ⟨rfl, fun _ => rfl, rfl, by decide, by decide, by decide +kernel⟩
theorem test_witness_rectangle_quiet : ∀ e ∈ rectCores (sRect 0xA000_2200 false) 0 0 0, ((sRect 0xA000_2200 false).core e).groups = [] ∧ ((sRect 0xA000_2200 false).core e).deque = [] ∧
    ((sRect 0xA000_2200 false).core e).slots = [] := by decide +kernel

-- HostAndDispatchEvents: an entry in the ring and past it, a cancel of an admitted and of a waiting request, each aperture; heads of queues
/-- Queue 2 is of MODE 0 with one entry, of context 0. -/
abbrev q2 (f : QState → QState) : State := { ev cE [] with pkgs := [(0, { pkgOn with queues := [(2, f QState.start)] })] }
theorem test_witness_host_entry : hostReaches (q2 id) 0 = true ∧ 64 ∣ 128 ∧ qMode (qDesc (q2 id) 0 (128 / 64)) = 0 ∧ ((0 : BitVec 32) - ((q2 id).queue 0 2).next).toNat < qEntries (qDesc (q2 id) 0 2) ∧
    qEntries (qDesc (q2 id) 0 2) ≤ ((1 : BitVec 32) - ((q2 id).queue 0 2).next).toNat ∧ qMode (qDesc (q2 id) 0 0) ≠ 0 := by and_intros <;> decide +kernel
theorem test_witness_host_cancel : ((q2 fun x => { x with admitted := [(0, 7)] }).queue 0 2).admitted.find? (·.1 == 0) = some (0, 7) ∧ (pkg0.lapse.map fun x => (x.2.kind, x.2.l, x.2.ref)) = [(.request, false, 1)] ∧
    ((q2 id).queue 0 2).admitted.find? (·.1 == 0) = none ∧ (∀ x ∈ ((q2 id).pkg 0).lapse, x.2.kind ≠ .union) ∧
    slotKept (qDesc (q2 id) 0 2) { QState.start with next := 1, records := 1 } 0 0 = true ∧ qEntries (qDesc (q2 id) 0 2) ≤ ((0 : BitVec 32) - 1).toNat ∧
    slotKept (qDesc (q2 id) 0 2) QState.start 0 0xFFFFFFFF = false ∧
    slotKept (qDesc (q2 id) 0 2) { QState.start with records := 1, admitted := [(0, 7)] } 2 0xFFFFFFFF = false := by and_intros <;> decide +kernel
/-- An admitted request of queue 2, and one whose handle another queue's request has now. -/
theorem test_witness_host_cancel_match : (q2 fun x => { x with admitted := [(0, 7)] }).lapse? 0 7 = some ⟨.request, false, false, 0, 0, -1, 1, 0, 0, 0, 0, [], false, [], false, 0, 0, none⟩ ∧
    (∃ e : Lapse, e = { Lapse.start .request 0 0 (-1) 1 0 with queue := 2 } ∧ e.queue = 2 ∧ e.seq = 0 ∧ e.exports = [] ∧ e.overflow = false ∧ e.l = false ∧ e.ref ≠ 0) ∧ (0 : Nat) ≠ 2 :=
  ⟨rfl, ⟨_, rfl, rfl, rfl, rfl, rfl, rfl, by decide⟩, by decide⟩
theorem test_witness_host_apertures : apertureOf (q2 id) 0 0x4000_0002_0000 256 = .spad eC 0x20000 ∧ apertureOf (q2 id) 0 0x80_0000 8 = .none ∧ 0x20000 % 256 + 256 ≤ 256 ∧
    hostWriteTo (q2 id) 0 eC = false ∧ anySealed (q2 id) eC 0x20000 8 = false ∧ queued (q2 id) eC 0x20000 8 = false ∧ closedAt (q2 id) eC = false ∧ anyOchre (q2 id) eC 0x20000 8 = false := by and_intros <;> decide +kernel
theorem test_witness_admission : admissible (q2 id) 0 2 = false ∧ admissible (q2 fun x => { x with waiting := [(0, 0)] }) 0 2 = true ∧ (0 : BitVec 32) ∈ ({ QState.start with cancels := [0] }).cancels ∧
    lapsedAt ((q2 id).pkgNow 0) ((ringEntry (q2 id) 0 2 0).extractLsb' 64 48) = true ∧ lapsedAt ((q2 id).pkgNow 0) (-1) = false ∧ ((q2 id).pkg 0).handleWait = [] ∧ ((q2 id).pkg 0).fresh < 65536 := by and_intros <;> decide +kernel
theorem test_witness_held_record : recordSlotFree (q2 id) 0 2 0 = true ∧ recordSlotFree { q2 id with host := [(24, 1)] } 0 2 0 = false ∧ ((q2 id).pkgNow 0).toNat < 0 + 1000000 ∧
    0 + 1000000 ≤ ({ q2 id with host := [(24, 1)], dies := [(0, { Die.start with now := 1000000 })] }.pkgNow 0).toNat := by and_intros <;> decide +kernel
/-- A header of one KiB and one thread. -/
abbrev head1 : BitVec 512 := BitVec.ofNat 512 (2 ^ 64)
abbrev ready1 (h : Option (Word × BitVec 512)) (c : Carry) : State := q2 fun x => { x with ready := [(0, 0, c)], header := h }
theorem test_witness_dispatch : nextQueue (q2 id) 0 = none ∧ nextQueue (ready1 none ⟨-1, 7, 0⟩) 0 = some 2 ∧ nextQueue (ready1 (some (0, head1)) ⟨-1, 7, 0⟩) 0 = some 2 ∧
    (headOf (ready1 none ⟨-1, 7, 0⟩) 0 2).map (fun x => (x.1.carry, x.2.1, x.2.2)) = some (⟨-1, 7, 0⟩, 0, 0) ∧ expired (ready1 none ⟨0, 7, 0⟩) 0 ⟨0, 7, 0⟩ = true := by and_intros <;> decide +kernel
theorem test_witness_dispatch_usable : headerOk head1 = true ∧ couldHold (q2 id) 0 (qDesc (q2 id) 0 2) (head1.toNat / 2 ^ 64 % 2 ^ 11) = true ∧ 0 < ctxVclen (q2 id) 0 0 ∧
    routeOf (q2 id) 0 (qDesc (q2 id) 0 2) 0 0 = some (0, false) ∧ readHeader (meetHeader (q2 id) 0 0 1) 0 0 1 = none := by and_intros <;> decide +kernel
/-- A header that the tables map: root at 0x10000, one table at 0x20000, a leaf at 0; the header at 0x30300. -/
abbrev headAt : Word := BitVec.ofNat 64 (2 ^ 63 + 32 * 2 ^ 46 + 64 * 2 ^ 36 + 0x30300)
abbrev sHead : State := { q2 id with
  cores := [(eC, cE), (eD, cE), (eM, { Core.start .memory with
    mem := ⟨bufLine 0 (2 ^ 63 + 2 ^ 62 + 2 ^ 16 + 4 * 2 ^ 56 + 0x101 * 2 ^ 76 + 4 * 2 ^ 128) :: tables.drop 1 ++
      [bufLine 0x10100 (1 + 2 * 2 ^ 18), bufLine 0x20200 0x13, bufLine 0x30300 (2 ^ 64)], [], [], 0, 0⟩ })] }
/-- A header entry that the queue keeps, and one whose line is busy. -/
theorem test_witness_header_kept : (∃ y, ((ready1 (some (0, head1)) ⟨-1, 7, 0⟩).queue 0 2).header = some ((0 : Word), y)) ∧ ¬ (∃ y, ((ready1 none ⟨-1, 7, 0⟩).queue 0 2).header = some ((0 : Word), y)) ∧
    walkBusy sHead 0 0 (headAt.toNat % 2 ^ 56) 64 = false ∧ walkBusy (sHead.modCore eM fun c => { c with mem := { c.mem with buf := c.mem.buf.map fun b => { b with filling := b.line == 0x30300 } } }) 0 0 (headAt.toNat % 2 ^ 56) 64 = true :=
  ⟨⟨head1, rfl⟩, (fun ⟨_, h⟩ => nomatch h : ¬ (∃ y, ((ready1 none ⟨-1, 7, 0⟩).queue 0 2).header = some ((0 : Word), y))), by decide +kernel, by decide +kernel⟩
theorem test_witness_header_read : readHeader (meetHeader sHead 0 0 headAt) 0 0 headAt = some head1 := by decide +kernel
abbrev dp0 (c : Carry) : DispPkt := ⟨[0x1000, 0, 0, 0, 0, 0, 0, 0], 0, 2, 0, head1, 0, 0, 0, c, true⟩
abbrev sDisp (t : Table Thread) : State := { q2 id with cores := [(eC, cE), (eD, { cE with slots := t }), (eM, tableCore)], clusters := [(0, { Cluster.start with packets := [dp0 ⟨-1, 7, 0⟩] })] }
theorem test_witness_dispenser : examOrder ((sDisp []).cluster 0).packets = dp0 ⟨-1, 7, 0⟩ :: [] ∧ examine (sDisp []) 0 0 [] (dp0 ⟨-1, 7, 0⟩) = .place eD 128 64 [0] [] false ∧
    examine (sDisp [(15, { t0 with park := some ⟨.work 8 false false, 0, none, 0x1004, 8, 0, 0⟩ })]) 0 0 [] (dp0 ⟨-1, 7, 0⟩) = .into eD 15 ∧ examine (sDisp []) 0 0 [] (dp0 ⟨0, 7, 0⟩) = .discard ∧
    examine { sDisp [] with cores := [(eD, { cE with groups := [⟨0, 0, 0, 0, 1, 0, 0, false, [0], [], 0, 0, 0, 0, false⟩] }), (eM, tableCore)] } 0 0 [] (dp0 ⟨-1, 7, 0⟩) = .pass ∧
    head1.toNat / 2 ^ 91 % 2 = 0 := by and_intros <;> decide +kernel
abbrev frame0 (r : Bool) : Frame := ⟨eC, 64, 0, 3, ⟨-1, 7, 0⟩, none, r⟩
abbrev tFrame : Thread := { tW [] with vcore := 3, park := some ⟨.work 8 false false, 0, none, 0x1004, 8, 0, 0⟩ }
abbrev sFrame (r : Bool) : State := { ev { cE with slots := [(15, tFrame)] } [] with clusters := [(0, { Cluster.start with frames := [frame0 r] })] }
theorem test_witness_frame : ((sFrame true).cluster 0).frames[0]? = some (frame0 true) ∧ ((waiters (sFrame true) 0).find? fun (_, _, t) => t.ctx == 0 && t.vcore == 3) = some (eC, 15, tFrame) ∧
    vcOf (sFrame true) 0 0 3 = none ∧ expired (sFrame true) eC ⟨-1, 7, 0⟩ = false := by and_intros <;> decide +kernel
/-- A frame of virtual core 2, whose allotment is that of the core, with a sealed word. -/
theorem test_witness_frame_mapped : vcOf (sFrame true) 0 0 2 = some (eC, 128, 64) ∧ frameSealed (sFrame true) eC { frame0 true with vcore := 2 } = false ∧ frameSealed (sFrame true) eC (frame0 true) = false ∧
    epPkg (frame0 true).ep = 0 := by and_intros <;> decide +kernel
theorem test_witness_frame_sealed : frameSealed { ev { cE with vbuf := [⟨0x20040, 5, true, 1, 0, true, none, false⟩] } [] with clusters := [(0, { Cluster.start with frames := [{ frame0 true with vcore := 2 }] })] } eC
    { frame0 true with vcore := 2 } = true := by decide +kernel

-- ExpiryEvents: a live handle on time and lapsed; a broadcast next and ahead; a settled request; each notice; each request of the unit
abbrev sLapse (l : Table Lapse) (ctl : List Ctl) (iu : List IuReq) (now : Word) : State :=
  { ev { cE with slots := [(0, tAsk)] } [] with pkgs := [(0, { pkgOn with lapse := l, iureqs := iu })], ctl := ctl, dies := [(0, { Die.start with now := now })] }
where
  /-- A thread that awaits an answer, under handle 8. -/
  tAsk : Thread := { t0 with sr := { t0.sr with hnd := 8 }, park := some ⟨.answer, 0, none, 0x1004, 1, 0, 5⟩ }
abbrev live (n : Nat) (i : Instant) : Lapse := Lapse.start .request 0 0 i n 0
theorem test_witness_instant : (sLapse [(7, live 1 5)] [] [] 5).lapse? 0 7 = some (live 1 5) ∧ lapsedAt ((sLapse [] [] [] 5).pkgNow 0) 5 = true ∧ lapsedAt ((sLapse [] [] [] 4).pkgNow 0) 5 = false ∧
    (sLapse [] [] [] 0).lapse? 0 7 = none ∧ (live 1 5).settle = none ∧ (∀ x ∈ ((sLapse [(7, live 1 5)] [] [] 5).pkg 0).lapse, x.2.kind ≠ .union) := ⟨rfl, by decide, by decide, rfl, rfl, by decide⟩
theorem test_witness_broadcast : ({ Die.start with replica := ⟨[], [], 3, [(4, .lapse 7), (3, .inst 7 9)]⟩ }).replica.coming[1]? = some (3, .inst 7 9) ∧ (4 : BitVec 16) ≠ 3 ∧ dieKey eC = 0 * 8 + 0 := by and_intros <;> decide
theorem test_witness_settle : ({ live 0 5 with l := true, settle := some 9 }).settle = some 9 ∧ 9 ≤ ((sLapse [] [] [] 9).pkgNow 0).toNat ∧ ((sLapse [] [] [] 8).pkgNow 0).toNat < 9 ∧
    recordSlotFree { q2 id with host := [(24, 1)] } 0 2 0 = false ∧ pkgOn.kblUp = true ∧ pkgOn.hostRecs = [] := by and_intros <;> decide +kernel
abbrev proxy7 (n : Nat) : Lapse := { Lapse.start .proxy 1 4 (-1) n 0 with exports := [] }
theorem test_witness_notices : (sLapse [(7, live 2 5)] [.dropAt 1 0 7 1 1 1] [] 0).ctl[0]? = some (.dropAt 1 0 7 1 1 1) ∧ proxyOf { State.reset with pkgs := [(1, { Pkg.off 1 with lapse := [(9, { proxy7 1 with opkg := 0, ohnd := 7 })] })] } 1 0 7 = some 9 ∧
    proxyOf (sLapse [(9, proxy7 1)] [] [] 0) 0 1 4 = some 9 ∧ proxyOf (sLapse [] [] [] 0) 0 1 4 = none ∧ 2 ∉ (live 1 5).exports ∧ 1 ∈ ({ live 2 5 with exports := [1] }).exports ∧ (proxy7 1).ref ≤ 1 := by and_intros <;> decide
/-- A proxy whose last report is on its way, and a union of which a proxy is the only live member. -/
theorem test_witness_notices_more : (sLapse [(9, proxy7 1)] [.noticeAck 0 9, .drop 0 9 1 0 0] [] 0).ctl[0]? = some (.noticeAck 0 9) ∧ (proxy7 1).kind = .proxy ∧ (proxy7 1).ref ≤ 1 ∧
    (let l : Table Lapse := [(9, proxy7 1), (10, { Lapse.start .union 0 0 (-1) 1 0 with members := [(9, true)] })];
      l.filter (·.2.kind == .union) = [(10, { Lapse.start .union 0 0 (-1) 1 0 with members := [(9, true)] })] ∧ tget l 10 ≠ none ∧ proxyOf (sLapse l [] [] 0) 0 1 4 = some 9) ∧
    (sLapse [(9, proxy7 1)] [.unionChange 0 1 4 5 false] [] 0).ctl[0]? = some (.unionChange 0 1 4 5 false) ∧ (sLapse [(7, live 1 5)] [.noticeAck 0 7] [] 0).ctl[0]? = some (.noticeAck 0 7) ∧ (live 1 5).ref ≤ 1 := by
  refine ⟨rfl, rfl, by decide, ⟨by decide, by decide, by decide⟩, rfl, rfl, by decide⟩
theorem test_witness_unit : locate (sLapse [(7, live 1 5), (8, live 2 6)] [] [.adopt (reqOf eC 0 t0 (16 + 32 * 5) 0) 7] 0) eC 1 = .slot 0 ∧ (∃ p, sLapse.tAsk.park = some p ∧ p.why = .answer ∧ 16 + 32 * 5 = 16 + 32 * p.ser) ∧
    (sLapse [(7, live 1 5), (8, live 2 6)] [] [] 0).lapse? 0 sLapse.tAsk.sr.hnd.toNat = some (live 2 6) ∧ 1 < (live 2 6).ref ∧ sLapse.tAsk.provisional = none ∧ ((sLapse [] [] [] 0).pkg 0).fresh ≠ 7 ∧ (live 2 6).l = false ∧
    ((sLapse [] [] [] 0).pkg 0).handleWait = [] :=
  ⟨rfl, ⟨_, rfl, rfl, rfl⟩, rfl, by decide, rfl, by decide, rfl, rfl⟩
/-- A queue that waits for a handle while a settle interval ends; the origin of a package without a proxy that told of a drop. -/
theorem test_witness_handle_wait : ({ sLapse [(7, { live 0 5 with l := true, settle := some 9 })] [] [] 9 with pkgs := [(0, { pkgOn with handleWait := [2] })] }.pkg 0).handleWait = [2] ∧
    proxyOf { State.reset with pkgs := [(1, Pkg.off 1)] } 1 0 7 = none ∧ 1 ∈ ({ live 2 5 with exports := [1] }).exports ∧ 1 < (live 2 5).ref := by decide

-- DecodeEncodeAgree, StepRunsDecodedInstruction: a well-formed instruction of each length; lines held, fetched, and turned away; the agenda
theorem test_witness_encodes : ([.rtt g, .add g 31 31 31, .trap g (-1), .ld g 31 31 4 true (-1), .li g 31 (-1), .pushFill g 24] : List Instr).all (·.wf) = true := by decide
/-- The line of an instruction, and a thread that has fetched it. -/
abbrev lineFor (i : Instr) : Line := oneHeadLine (encode i).1 (encode i).2
abbrev tLine (l : Line) (t : Thread) : Thread := { t with line := some (0x1000, l) }
theorem test_witness_line_held : fetchLine (st eC 0 (tLine (lineFor (.add g 1 2 3)) t0)) eC (tLine (lineFor (.add g 1 2 3)) t0) = (.ok (lineFor (.add g 1 2 3)), st eC 0 (tLine (lineFor (.add g 1 2 3)) t0)) ∧
    (0x1002 : Nat) / 64 * 64 = 0x1000 ∧ decodeAt (lineFor (.add g 1 2 3)) 1 = .ok (.add g 1 2 3) ∧ lacks (kindOf eC) (isVisitor eC 0) false (opOf (.add g 1 2 3)) (tailOf (lineFor (.add g 1 2 3)) 1) = false := ⟨rfl, rfl, rfl, by decide⟩
theorem test_witness_line_push : decodeAt (lineFor (.pushFill g 8)) 1 = .ok (.pushCopy g 8 false) ∧ (gr (thr [(8, 0x104)]) 8).toNat % 2 ^ 8 = 4 ∧ (gr (thr [(8, 0x101)]) 8).toNat % 2 ^ 8 ≠ 4 := ⟨rfl, by decide, by decide⟩
theorem test_witness_line_lacks : lacks (kindOf eM) (isVisitor eM 16) false 0x145 (tailOf (oneHeadLine 0x4145 0) 1) = true := by decide
theorem test_witness_line_opcode : decodeAt (oneHeadLine 0x202D 0) 1 = .error (.opcode 0x02D) ∧ lacks (kindOf eC) false false 0x02D 0 = false := ⟨rfl, by decide⟩
theorem test_witness_line_encoding : decodeAt (oneHeadLine 0x2001 0x8000) 1 = .error (.encoding 0x2001) ∧ lacks (kindOf eC) false false 0x001 0x8000 = false := ⟨rfl, by decide⟩
/-- A core whose scratchpad holds the line of ADD at 0x1000, with a landed page there and a thread that has just arrived. -/
abbrev cLine (l : Line) (landed : BitVec 384) (gran : Table GState) : Core :=
  { Core.start .compute with spad := mputs 0x1000 (l.flatMap fun h => leBytes 2 h.toNat) [], landed := landed, xb := 0x020, gran := gran }
abbrev tFresh (pc : CodeAddr) : Thread := { t0 with pc := pc, fresh := true }
abbrev sFetch (l : Line) (landed : BitVec 384) (gran : Table GState) (pc : CodeAddr) : State := stC eC 0 (cLine l landed gran) (tFresh pc)
theorem test_witness_fetch : let s := sFetch (lineFor (.add g 1 2 3)) 2 [] 0x1002
    0x1002 < xbBytes (s.core eC) ∧ (s.core eC).landed.getLsbD (0x1002 / 4096) = true ∧ anyOchre s eC 0x1000 64 = false ∧
    lineOk (lineOfBytes (mbytes (s.core eC).spad 0x1000 64)) = true ∧ isHead (lineOfBytes (mbytes (s.core eC).spad 0x1000 64)) 0x1002 = true ∧
    isHead (lineOfBytes (mbytes (s.core eC).spad 0x1000 64)) 0x1004 = false ∧ (s.core eC).upsets = [] := by and_intros <;> decide +kernel
theorem test_witness_fetch_traps : ¬ (0x20000 : Nat) < xbBytes ((sFetch [] 2 [] 0x20000).core eC) ∧ (0x1FFFE : Nat) < xbBytes ((sFetch [] 2 [] 0x1FFFE).core eC) ∧
    (cLine [] 2 []).landed.getLsbD (0x2002 / 4096) = false ∧ anyOchre (sFetch [] 2 [(0x103, .ochre)] 0x1002) eC 0x1000 64 = true ∧
    lineOk (lineOfBytes (mbytes ((sFetch (List.replicate 32 (-1)) 2 [] 0x1002).core eC).spad 0x1000 64)) = false := by and_intros <;> decide +kernel
/-- What a step uses: an entry with a copy, and one whose line is busy. -/
theorem test_witness_tables : (tget ((sLn [] false []).pkg 0).copies (entryKey 0 0)).isSome = true ∧
    readTables { ev cE [] with cores := [(eM, { Core.start .memory with mem := ⟨[{ bufLine 0 0 with filling := true }], [], [], 0, 0⟩ })] } ⟨[(0, 0, 0)], []⟩ = none ∧
    (readTables (sLn [] false []) ⟨[(0, 0, 0)], []⟩).isSome = true := by and_intros <;> decide +kernel
theorem test_witness_agenda : State.reset.turn = none ∧ State.reset.agenda = [] ∧ (∃ ev, evOf (.instantLapse 0 7) = some ev) ∧ evOf (.add g 1 2 3) = none := ⟨rfl, rfl, ⟨_, rfl⟩, rfl⟩

-- IssueAndFrame: a wrong guard form, a pending XFENCE with a guard on p7, a failing guard, a memory core's turn; NOP and ADD retire
theorem test_witness_guards : (⟨0, true⟩ : Guard).wf = false ∧ (⟨7, false⟩ : Guard).wf = true ∧ (tXf true none).xf ≠ none ∧ passes t0 ⟨1, false⟩ = false ∧ kindOf (turn eM 0).ep = .memory := ⟨rfl, rfl, nofun, rfl, rfl⟩
theorem test_witness_retires : ∃ s', Retires (.add g 1 2 3) s0 u0 (·.putG 1 (gr t0 2 + gr t0 3)) ∧ exec (.add g 1 2 3) s0 = .next s' ∧ s0.thr? u0.ep u0.slot = some t0 := ⟨_, rfl, rfl, rfl⟩

-- MemoryAndReset, StepKeepsInvariant, StepNeverStops: memories in canonical form, the invariant in a turn, at reset, and its next states
theorem test_witness_memory : Memory.wf [] = true ∧ Memory.wf [(0, 1), (63, 255)] = true ∧ Memory.wf [(1, 1), (0, 1)] = false ∧ Memory.wf [(0, 0)] = false := by decide
theorem test_witness_invariant : turnOk s0 = true ∧ memOk s0 = true ∧ turnOk State.reset = true ∧ memOk State.reset = true ∧ turnOk { State.reset with turn := some u0 } = false := by and_intros <;> decide
theorem test_witness_step : ∃ s', step (sFetch (lineFor (.add g 1 2 3)) 2 [] 0x1002) = .next s' := ⟨_, rfl⟩
theorem test_reset_begins_a_round : ∃ s', step State.reset = .next s' := ⟨_, rfl⟩
/-- The word of ADD g1, g2, g3, where withFetchWord puts it, is the next step. -/
theorem test_fetch_word : ∃ s', step (State.reset.withFetchWord 32 (0x2001 * 2 ^ 16 + tA 0 3 2 1)) = .next s' ∧ s'.turn = none := ⟨_, rfl, rfl⟩
/-- SHA-256 of "abc", from FIPS 180-4's examples: its first four bytes. -/
theorem test_sha256_abc : (shaBytes [0x61, 0x62, 0x63]).take 4 = [0xBA, 0x78, 0x16, 0xBF] := by decide +kernel

end Sys2Proof.Tests
end

section
/-! The byte memories hold little-endian numbers (R2): the digits of what is read, and O57. -/

namespace Sys2Proof.Machine

/-- R2: in a little-endian number, the byte at offset `k` has weight `256 ^ k`. -/
theorem toNat_mget_eq_mread_digit (m : Memory) (a : Nat) {k n : Nat} (h : k < n) :
    (mget m (a + k)).toNat = mread m a n / 256 ^ k % 256 := by
  induction n generalizing a k with
  | zero => exact absurd h (Nat.not_lt_zero k)
  | succ n ih =>
    have low : (mget m a).toNat < 256 := (mget m a).isLt
    simp only [mread]
    cases k with
    | zero => simp only [Nat.add_zero, pow_zero, Nat.div_one]; omega
    | succ k =>
      have rest : ((mget m a).toNat + 256 * mread m (a + 1) n) / 256 = mread m (a + 1) n := by omega
      calc (mget m (a + (k + 1))).toNat
          = (mget m (a + 1 + k)).toNat := by rw [Nat.add_right_comm, Nat.add_assoc]
        _ = mread m (a + 1) n / 256 ^ k % 256 := ih (a + 1) (Nat.lt_of_succ_lt_succ h)
        _ = ((mget m a).toNat + 256 * mread m (a + 1) n) / 256 ^ (k + 1) % 256 := by
          rw [Nat.pow_succ', ← Nat.div_div_eq_div_mul, rest]

/-- Settles O57: a write keeps the canonical form and the bytes outside it, by the laws of `mwrite`; what is read is the sum of the bytes
by their weights, where the powers of 256 are those of `2 ^ 8`. -/
theorem readAfterWrite : Obligations.ReadAfterWrite := by
  unfold Obligations.ReadAfterWrite
  intro m a n v hm
  have bytes (k : Nat) : 2 ^ (8 * k) = 256 ^ k := Nat.pow_mul 2 8 k
  refine ⟨?readBack, mwrite_wf a n v hm, fun k hk => mget_mwrite_other m n v hk, fun k hk => ?byteOf⟩
  case readBack => rw [bytes, mread_mwrite m a n v hm]
  case byteOf => rw [bytes]; exact toNat_mget_eq_mread_digit m a hk

end Sys2Proof.Machine
end

section
/-! How a trap of one slot, for its own sake, is taken (R280, R282). -/

namespace Sys2Proof.Machine

/-- Two changes of one table entry are one. -/
theorem tmod_tmod {α : Type} (k : Nat) (f g : α → α) (t : Table α) : tmod k g (tmod k f t) = tmod k (fun x => g (f x)) t := by
  induction t with
  | nil => rfl
  | cons x r ih =>
    obtain ⟨j, x⟩ := x
    by_cases h : (j == k) = true
    · simp only [tmod, h, if_true]
    · simp only [tmod, h, ih, if_false, Bool.false_eq_true]

theorem modThr_modThr (s : State) (e : EP) (n : Nat) (f g : Thread → Thread) :
    (s.modThr e n f).modThr e n g = s.modThr e n fun t => g (f t) := by
  simp only [State.modThr, State.modCore, tmod_tmod]

@[simp] theorem rectOf_modThr (s : State) (e i : EP) (n : Nat) (f : Thread → Thread) : rectOf (s.modThr e n f) i = rectOf s i := rfl

/-- NPEND once entry 16 is empty: the busy ones of entries 0 to 15 (log 53). -/
theorem npend_clear_sixteen (t : Thread) : { t with sb := t.sb.setIfInBounds 16 SbEntry.none }.npend =
    ((t.sb.toList.take 16).filter fun e => e.state != .empty).length := by
  have hl : t.sb.toList.length = 17 := by simp
  have hd : t.sb.toList.drop 17 = [] := List.drop_of_length_le (by omega)
  simp [Thread.npend, Vector.toList_setIfInBounds, List.set_eq_take_append_cons_drop, hl, hd, SbEntry.none]

theorem npend_clear_sixteen_le (t : Thread) : { t with sb := t.sb.setIfInBounds 16 SbEntry.none }.npend ≤ 16 := by
  rw [npend_clear_sixteen]
  exact (List.length_filter_le _ _).trans (List.length_take_le _ _)

/-- R282: the fields of the status word stand side by side. -/
theorem trapStatus_toNat (t : Thread) (info : Nat) (h : t.npend < 32) : (trapStatus t info).toNat =
    info % 2 ^ 32 + t.npend * 2 ^ 51 + t.pair.isSome.toNat * 2 ^ 61 + t.region.isSome.toNat * 2 ^ 62 + t.sup.toNat * 2 ^ 63 := by
  have hp := Bool.toNat_le t.pair.isSome
  have hr := Bool.toNat_le t.region.isSome
  have hs := Bool.toNat_le t.sup
  rw [trapStatus, BitVec.toNat_ofNat, Nat.mod_eq_of_lt]
  omega

/-- A bit of a word that is one digit of its number. -/
theorem getLsbD_eq_of_digit {w : Word} {k : Nat} {b : Bool} (h : w.toNat / 2 ^ k % 2 = b.toNat) : w.getLsbD k = b := by
  rw [← BitVec.testBit_toNat, Nat.testBit_eq_decide_div_mod_eq, h]
  cases b <;> rfl

/-- R280, R282: what `trapTo` makes of a slot that is no longer parked is the trap taken. -/
theorem trapTaken_trapTo (s : State) (u : Turn) (t : Thread) {cause info : Nat} (addr : Word) (back : CodeAddr) (hx : t.xf = none)
    (hc : cause < 256) (hi : info < 2 ^ 32) : TrapTaken s u t cause addr info back
      (s.modThr u.ep u.slot fun _ => t.unpark.trapTo cause addr info back).noTurn := by
  have hu : t.unpark = { t with park := none, sb := t.sb.setIfInBounds 16 SbEntry.none } := by simp [Thread.unpark, hx]
  have hn : t.unpark.npend = ((t.sb.toList.take 16).filter fun e => e.state != .empty).length := by
    rw [hu]; exact npend_clear_sixteen t
  have hle : t.unpark.npend ≤ 16 := by rw [hu]; exact npend_clear_sixteen_le t
  have hst : (trapStatus t.unpark info).toNat = info % 2 ^ 32 + t.unpark.npend * 2 ^ 51 + t.pair.isSome.toNat * 2 ^ 61
      + t.region.isSome.toNat * 2 ^ 62 + t.sup.toNat * 2 ^ 63 := trapStatus_toNat t.unpark info (by omega)
  have hp := Bool.toNat_le t.pair.isSome
  have hr := Bool.toNat_le t.region.isSome
  have hs := Bool.toNat_le t.sup
  refine ⟨t.unpark.trapTo cause addr info back, rfl, ?cause, rfl, rfl, ?pm, ?rg, ?pr, ?npend, ?info, ?zero, ?zero', rfl, rfl, ?pc,
    rfl, rfl, rfl, rfl, rfl, rfl, rfl, rfl, rfl⟩
  case cause => exact Nat.mod_eq_of_lt hc
  case pm => exact getLsbD_eq_of_digit (by simp only [Thread.trapTo, hst]; omega)
  case rg => exact getLsbD_eq_of_digit (by simp only [Thread.trapTo, hst]; omega)
  case pr => exact getLsbD_eq_of_digit (by simp only [Thread.trapTo, hst]; omega)
  case npend => rw [← hn]; simp only [Thread.trapTo, hst]; omega
  case info => simp only [Thread.trapTo, hst]; omega
  case zero => simp only [Thread.trapTo, hst]; omega
  case zero' => simp only [Thread.trapTo, hst]; omega
  case pc => exact BitVec.toNat_ofNat ..

/-- R280, R284, R285: a trap of a slot at home in which no handler runs is taken there. -/
theorem trapNow_eq_trapTo {s : State} {e : EP} {n cause : Nat} {t : Thread} (addr : Word) (info : Nat) (back : CodeAddr)
    (ht : s.thr? e n = some t) (hh : t.handler = false) (ho : t.origin = none) (hr : cause = 0x14 → rectOf s e = none) :
    s.trapNow e n cause addr info back = (s.modThr e n (·.trapTo cause addr info back)).noTurn := by
  have hrect : (if cause == 0x14 then rectOf s e else none) = none := by
    by_cases h : cause = 0x14
    · rw [hr h, ite_self]
    · rw [if_neg (by simpa using h)]
  simp only [State.trapNow, ht, hrect, ho, hh, Bool.false_eq_true, if_false]

/-- R280, R282: a raised trap of a thread that takes traps here and now is taken in the same cycle. -/
theorem raise_trapTaken {s : State} {u : Turn} {t : Thread} {cause info : Nat} (addr : Word) (ht : s.thr? u.ep u.slot = some t)
    (h : TakesTraps t) (hc : cause < 256) (hi : info < 2 ^ 32) (hr : cause = 0x14 → rectOf s u.ep = none) :
    TrapTaken s u t cause addr info (if cause = 0x21 then u.next else t.pc) (s.raise u cause addr info) := by
  obtain ⟨hh, hx, ho, hp⟩ := h
  have hu : (s.modThr u.ep u.slot Thread.unpark).thr? u.ep u.slot = some t.unpark := by rw [thr?_modThr, ht]; rfl
  have hraise : s.raise u cause addr info =
      (s.modThr u.ep u.slot fun _ => t.unpark.trapTo cause addr info (if cause = 0x21 then u.next else t.pc)).noTurn := by
    simp only [State.raise, ht, hx, hp, Option.isSome_none, Bool.false_eq_true, if_false]
    rw [trapNow_eq_trapTo addr info _ hu hh ho hr, modThr_modThr, modThr_congr ht (g := fun _ => t.unpark.trapTo cause addr info _) rfl]
    simp only [beq_iff_eq]
  rw [hraise]
  exact trapTaken_trapTo s u t addr _ hx hc hi

end Sys2Proof.Machine
end

section
/-! Local accesses (R7, R10, R361, R364): their checks and their traps, and O19. -/

namespace Sys2Proof.Machine

/-- R7: the access leaves the local space: its address is no local one, or it passes the end of the allotment or of the scratchpad. -/
def LeavesLocal (e : EP) (t : Thread) (a : Word) (n : Nat) : Prop :=
  2 ^ 21 ≤ a.toNat ∨ t.sr.lsize.toNat * 2 ^ 10 < a.toNat % 2 ^ 21 + n ∨ spadSize e < t.sr.lbase.toNat * 2 ^ 10 + a.toNat % 2 ^ 21 + n

/-- R7, R8: the scratchpad offset that a local address names. -/
def localOffset (t : Thread) (a : Word) : Nat := t.sr.lbase.toNat * 2 ^ 10 + a.toNat % 2 ^ 21

section checkLocal
variable {s : State} {e : EP} {t : Thread} {a : Word} {n : Nat}

/-- R7: the checks of the local space come first, and trap with cause 0x07. -/
theorem checkLocal_of_leaves (h : LeavesLocal e t a n) : checkLocal s e t a n = .error ⟨0x07, a, sizeInfo n⟩ := by
  simp only [checkLocal]
  by_cases hform : a.toNat / 2 ^ 21 = 0
  · by_cases hsize : t.sr.lsize.toNat * 1024 < a.toNat % 2 ^ 21 + n
    · simp only [hform, hsize, bne_self_eq_false, Bool.false_eq_true, if_true, if_false]
    · have hend : spadSize e < t.sr.lbase.toNat * 1024 + a.toNat % 2 ^ 21 + n := by
        rcases h with h | h | h <;> omega
      simp only [hform, hsize, hend, bne_self_eq_false, Bool.false_eq_true, if_true, if_false]
  · rw [if_pos (by simpa using hform)]

/-- R7, R10: what remains is the comparison with XB. -/
theorem checkLocal_of_not_leaves (h : ¬ LeavesLocal e t a n) : checkLocal s e t a n =
    if localOffset t a < xbBytes (s.core e) then .error ⟨0x05, a, 1⟩ else .ok (localOffset t a) := by
  simp only [LeavesLocal, not_or, Nat.reducePow] at h
  obtain ⟨hform, hsize, hend⟩ := h
  have hform : a.toNat / 2097152 = 0 := Nat.div_eq_of_lt (Nat.not_le.1 hform)
  simp only [checkLocal, localOffset, Nat.reducePow, hform, hsize, hend, bne_self_eq_false, Bool.false_eq_true, if_false]
  rfl

/-- R283: a failed check of a local address has cause 0x07 or 0x05, and an INFO of a few bits. -/
theorem checkLocal_error {x : Trap} (h : checkLocal s e t a n = .error x) : x.cause ∈ [0x05, 0x07] ∧ x.info < 16 := by
  by_cases hl : LeavesLocal e t a n
  · rw [checkLocal_of_leaves hl] at h
    cases h
    refine ⟨.tail _ (.head _), ?_⟩
    simp only [sizeInfo]
    split <;> omega
  · rw [checkLocal_of_not_leaves hl] at h
    split at h
    · cases h
      exact ⟨.head _, Nat.one_lt_succ_succ 14⟩
    · cases h

/-- R361: an aligned access passes. -/
theorem checkAligned_of_dvd (h : n ∣ a.toNat) : checkAligned a n = .ok () := if_pos (beq_iff_eq.2 (Nat.mod_eq_zero_of_dvd h))

/-- R361: a misaligned access traps with cause 0x08. -/
theorem checkAligned_of_not_dvd (h : ¬ n ∣ a.toNat) : checkAligned a n = .error ⟨0x08, a, sizeInfo n⟩ :=
  if_neg fun hm => h (Nat.dvd_of_mod_eq_zero (beq_iff_eq.1 hm))

theorem checkAligned_eq_ok_iff : checkAligned a n = .ok () ↔ n ∣ a.toNat := by
  refine ⟨fun h => ?_, checkAligned_of_dvd⟩
  by_contra hn
  rw [checkAligned_of_not_dvd hn] at h
  cases h

end checkLocal

/-- R7, R10, R361: the checks of a local address, in their order. -/
theorem localAddressing : LocalAddressing := by
  unfold LocalAddressing
  intro s e t a n _
  refine ⟨checkLocal_of_leaves, fun h hx => ?belowXb, fun h hx => ?passes, checkAligned_eq_ok_iff, checkAligned_of_not_dvd⟩
  case belowXb => rw [checkLocal_of_not_leaves h, localOffset, if_pos hx]
  case passes => rw [checkLocal_of_not_leaves h, localOffset, if_neg (Nat.not_lt.2 hx)]

section localAccess
variable {s : State} {u : Turn} {t : Thread} {ea : Word} {acc : Access} {d : Reg} {phys : Nat}

theorem localAccess_of_error {x : Trap} (h : checkLocal s u.ep t ea acc.size = .error x) :
    localAccess s u t ea acc d = s.raise u x.cause x.addr x.info := by
  simp only [localAccess, h, State.checked]

theorem localAccess_of_misaligned (h : checkLocal s u.ep t ea acc.size = .ok phys) (ha : ¬ acc.size ∣ ea.toNat) :
    localAccess s u t ea acc d = s.raise u 0x08 ea (sizeInfo acc.size) := by
  simp only [localAccess, h, State.checked, checkAligned_of_not_dvd ha]

/-- Words without version-buffer entries are not sealed (R189). -/
theorem anySealed_of_stackOf_nil {e : EP} {a n : Nat} (h : ∀ w ∈ wordsOf a n, stackOf s e w = []) : anySealed s e a n = false := by
  rw [anySealed, List.any_eq_false]
  intro w hw
  rw [h w hw]
  exact Bool.false_ne_true

/-- R51: a load that nothing delays is performed in its turn, and traps with cause 0x14 where a granule of it is ochre. -/
theorem localAccess_load_of_ochre {m : Nat} {sg : Bool} (h : checkLocal s u.ep t ea m = .ok phys) (ha : m ∣ ea.toNat)
    (hp : Plain s u t (wordsOf phys m)) (ho : anyOchre s u.ep phys m = true) :
    localAccess s u t ea (.load m sg) d = s.raise u 0x14 ea 0 := by
  obtain ⟨hregion, hordered, hgranted, herrors, hentries, -⟩ := hp
  have hr : inRegion t = false := by rw [inRegion, hregion]; rfl
  have hs : anySealed s u.ep phys m = false := anySealed_of_stackOf_nil hentries
  have hperform : perform s u.ep phys (.load m sg) (reqOf u.ep u.slot t 17 0) (carryOf u.ep t) true = (s, some (.ochre 0 0)) := by
    simp [perform, Access.writes, meetErrors, herrors, ho, reqOf]
  simp only [localAccess, Access.size, h, State.checked, checkAligned_of_dvd ha, hr, hs, withBanks, hordered, hgranted, Bool.false_and,
    Bool.or_self, Bool.false_eq_true, if_false, hperform]

/-- R364: where a local access of a thread that takes traps here and now traps. -/
theorem localAccess_traps {n : Nat} (ht : s.thr? u.ep u.slot = some t) (hk : TakesTraps t) (hs : acc.size = n) (hn : n < 16) :
    (∀ x, checkLocal s u.ep t ea n = .error x → TrapTaken s u t x.cause x.addr x.info t.pc (localAccess s u t ea acc d)) ∧
    (checkLocal s u.ep t ea n = .ok phys → ¬ n ∣ ea.toNat → TrapTaken s u t 0x08 ea n t.pc (localAccess s u t ea acc d)) ∧
    (∀ sg, acc = .load n sg → checkLocal s u.ep t ea n = .ok phys → n ∣ ea.toNat → Plain s u t (wordsOf phys n) →
      anyOchre s u.ep phys n = true → rectOf s u.ep = none → TrapTaken s u t 0x14 ea 0 t.pc (localAccess s u t ea acc d)) := by
  subst hs
  refine ⟨fun x hx => ?check, fun hc ha => ?misaligned, fun sg hl hc ha hp ho hr => ?ochre⟩
  case check =>
    obtain ⟨hcause, hinfo⟩ := checkLocal_error hx
    have hcause : x.cause = 0x05 ∨ x.cause = 0x07 := by simpa using hcause
    have := raise_trapTaken x.addr ht hk (cause := x.cause) (info := x.info) (by omega) (by omega) (by omega)
    rwa [if_neg (by omega), ← localAccess_of_error hx] at this
  case misaligned =>
    have hinfo : sizeInfo acc.size = acc.size := if_pos hn
    rw [localAccess_of_misaligned hc ha, hinfo]
    exact raise_trapTaken ea ht hk (by omega) (by omega) (by omega)
  case ochre =>
    rw [hl, localAccess_load_of_ochre hc ha hp ho]
    exact raise_trapTaken ea ht hk (by omega) (by omega) fun _ => hr

end localAccess

section issued
variable {s : State} {u : Turn} {t : Thread} {gd : Guard} {d a b : Reg} {sz sh : BitVec 2} {sgn : Bool} {imm : BitVec 32}

theorem exec_ld_of_issues (h : Issues s u t (.ld gd d a sz sgn imm)) :
    exec (.ld gd d a sz sgn imm) s = .next (localAccess s u t (dispAddr t a imm) (.load (sizeOf sz) sgn) d) := by
  rw [exec_ld, execLd, issue_next h rfl rfl (by decide) (by decide) (lacks_tail (by decide) · · · _ _) (.inr rfl)]

theorem exec_st_of_issues (h : Issues s u t (.st gd d a sz imm)) :
    exec (.st gd d a sz imm) s = .next (localAccess s u t (dispAddr t a imm) (.store (sizeOf sz) (gr t d).toNat) 0) := by
  rw [exec_st, execSt, issue_next h rfl rfl (by decide) (by decide) (lacks_tail (by decide) · · · _ _) (.inr rfl)]

theorem exec_ldx_of_issues (h : Issues s u t (.ldx gd d a b sz sgn sh)) :
    exec (.ldx gd d a b sz sgn sh) s = .next (localAccess s u t (idxAddr t a b sh) (.load (sizeOf sz) sgn) d) := by
  rw [exec_ldx, execLdx, issue_next h rfl rfl (by decide) (by decide) (lacks_tail (by decide) · · · _ _) (.inr rfl)]

theorem exec_stx_of_issues (h : Issues s u t (.stx gd d a b sz sh)) :
    exec (.stx gd d a b sz sh) s = .next (localAccess s u t (idxAddr t a b sh) (.store (sizeOf sz) (gr t d).toNat) 0) := by
  rw [exec_stx, execStx, issue_next h rfl rfl (by decide) (by decide) (lacks_tail (by decide) · · · _ _) (.inr rfl)]

end issued

/-- R364, R48, R51: the traps of LD, LDX, ST and STX are those of their local access. -/
theorem localAccessTraps : LocalAccessTraps := by
  unfold LocalAccessTraps
  intro s u t gd d a b sz sh sgn imm phys x n traps
  have hn : sizeOf sz < 16 := by
    have : 2 ^ sz.toNat ≤ 2 ^ 3 := Nat.pow_le_pow_right (by omega) (by omega)
    simp only [sizeOf]
    omega
  have shared {i ea acc r load} (hs : acc.size = n) (hl : load = true → acc = .load n sgn)
      (hexec : Issues s u t i → exec i s = .next (localAccess s u t ea acc r)) : traps i ea load := by
    intro h hk
    obtain ⟨hcheck, halign, hochre⟩ := localAccess_traps (ea := ea) (d := r) (phys := phys) h.thread hk hs hn
    exact ⟨fun hx => ⟨_, hexec h, hcheck x hx⟩, fun hc ha => ⟨_, hexec h, halign hc ha⟩,
      fun hload hc ha hp ho hr => ⟨_, hexec h, hochre sgn (hl hload) hc ha hp ho hr⟩⟩
  exact ⟨shared rfl (fun _ => rfl) exec_ld_of_issues, shared rfl nofun exec_st_of_issues,
    shared rfl (fun _ => rfl) exec_ldx_of_issues, shared rfl nofun exec_stx_of_issues⟩

/-- Settles O19: the checks of a local address by the two stages of `checkLocal`, and the traps by the one local access that the four
instructions share. -/
theorem localAccessChecks : Obligations.LocalAccessChecks := ⟨localAddressing, localAccessTraps⟩

end Sys2Proof.Machine
end

section
/-! Packets at their endpoint (R108, R110, R216, R278): what arrives is taken off the net, answered, refused or dropped. -/

namespace Sys2Proof.Machine

/-- The packet of an arrival stands in the net, and has arrived. -/
theorem mem_and_arrived_of_arrives {s : State} {k : Nat} {p : Pkt} (h : Arrives s k p) : p ∈ s.net ∧ p.stage = .arrived := by
  simp only [Arrives, arrivedPkt] at h
  cases hp : s.net[k]? with
  | none => rw [hp] at h; cases h
  | some q =>
    simp only [hp] at h
    split at h
    · next hq =>
      cases h
      simp only [Bool.and_eq_true, beq_iff_eq] at hq
      exact ⟨List.mem_of_getElem? hp, hq.1.1⟩
    · cases h

/-- What an arrival becomes: the effect of the arrived packet. -/
theorem onPacket_of_arrives {s : State} {k : Nat} {p : Pkt} (h : Arrives s k p) (f : Pkt → State) :
    onPacket s k f = reapProxy (s.noteReplies (f p) p) (epPkg p.dst) p.carry.hnd.toNat := by
  simp only [onPacket, show arrivedPkt s k = some p from h]

/-- R207, R209: a proxy is kept while a packet of its package carries it. -/
theorem reapProxy_of_carried {s : State} {p : Pkt} (hp : p ∈ s.net) (hs : p.stage = .arrived) :
    reapProxy s (epPkg p.dst) p.carry.hnd.toNat = s := by
  have hc : (s.net.any fun q => q.stage == .arrived && epPkg q.dst == epPkg p.dst && q.carry.hnd.toNat == p.carry.hnd.toNat) = true :=
    List.any_eq_true.2 ⟨p, hp, by simp [hs]⟩
  simp only [reapProxy, hc, Bool.not_true, Bool.and_false, Bool.false_eq_true, if_false]
  split <;> rfl

/-- What a change of one core keeps of it is kept of every core. -/
theorem core_modCore_of_keeps {α : Type} {g : Core → α} {f : Core → Core} (hf : ∀ c, g (f c) = g c) (s : State) (e i : EP) :
    g ((s.modCore e f).core i) = g (s.core i) := by
  simp only [State.core, State.modCore]
  by_cases h : i = e
  · subst h
    rw [tget_tmod_same]
    cases tget s.cores i with
    | none => rfl
    | some c => exact hf c
  · rw [tget_tmod_other _ _ h]

/-- R278: a packet taken at an interface changes nothing of a core but its probe counts. -/
theorem core_takePkt_of_keeps {α : Type} {g : Core → α} (hg : ∀ c l, g { c with ni := l } = g c) (s : State) (k : Nat) (e : EP) (p : Pkt)
    (i : EP) : g ((takePkt s k e p).core i) = g (s.core i) := by
  simp only [takePkt, countIn, modNi]
  split
  · split
    · rfl
    · split
      · rfl
      · exact core_modCore_of_keeps (fun c => hg c _) (s.dropPkt k) e i
  · rfl

@[simp] theorem core_takePkt_spad (s : State) (k : Nat) (e : EP) (p : Pkt) (i : EP) : ((takePkt s k e p).core i).spad = (s.core i).spad :=
  core_takePkt_of_keeps (g := Core.spad) (fun _ _ => rfl) ..
@[simp] theorem core_takePkt_gran (s : State) (k : Nat) (e : EP) (p : Pkt) (i : EP) : ((takePkt s k e p).core i).gran = (s.core i).gran :=
  core_takePkt_of_keeps (g := Core.gran) (fun _ _ => rfl) ..
@[simp] theorem core_takePkt_upsets (s : State) (k : Nat) (e : EP) (p : Pkt) (i : EP) :
    ((takePkt s k e p).core i).upsets = (s.core i).upsets := core_takePkt_of_keeps (g := Core.upsets) (fun _ _ => rfl) ..
@[simp] theorem core_takePkt_watches (s : State) (k : Nat) (e : EP) (p : Pkt) (i : EP) :
    ((takePkt s k e p).core i).watches = (s.core i).watches := core_takePkt_of_keeps (g := Core.watches) (fun _ _ => rfl) ..
@[simp] theorem core_takePkt_vbuf (s : State) (k : Nat) (e : EP) (p : Pkt) (i : EP) : ((takePkt s k e p).core i).vbuf = (s.core i).vbuf :=
  core_takePkt_of_keeps (g := Core.vbuf) (fun _ _ => rfl) ..
@[simp] theorem anyOchre_takePkt (s : State) (k : Nat) (e : EP) (p : Pkt) (i : EP) (a n : Nat) :
    anyOchre (takePkt s k e p) i a n = anyOchre s i a n := by simp only [anyOchre, granAt, core_takePkt_gran]
@[simp] theorem core_spadWrite_watches (s : State) (e i : EP) (a n v : Nat) :
    ((s.spadWrite e a n v).core i).watches = (s.core i).watches :=
  core_modCore_of_keeps (g := Core.watches)
    (f := fun c => { c with spad := mwrite c.spad a n v, upsets := clearErrors c.upsets a n }) (fun _ => rfl) s e i

/-- R15: an access to a scratchpad that is refused is answered so. -/
theorem refusePkt_of_access {p : Pkt} {vc : Option Nat} {off : Nat} {phys : Option Nat} {acc : Access} {r : Option Nat} {x l : Bool}
    (hb : p.body = .access vc off phys acc r x l) (s : State) (k : Nat) (e : EP) :
    refusePkt s k e p = (takePkt s k e p).answer e p.req p.carry .refused := by simp only [refusePkt, hb]

/-- R470: an access to the bridge window that is refused is answered so. -/
theorem refusePkt_of_window {p : Pkt} {off : Nat} {acc : Access} {priv : Bool} (hb : p.body = .window off acc priv) (s : State) (k : Nat)
    (e : EP) : refusePkt s k e p = (takePkt s k e p).answer e p.req p.carry .refused := by simp only [refusePkt, hb]

/-- R216, R218, R224: a lapsed store under a handle of its package is taken off the net and counted at the instant unit. -/
theorem dropLapsed_of_store {p : Pkt} {vc : Option Nat} {off : Nat} {phys : Option Nat} {acc : Access} {r : Option Nat} {x l : Bool} {e : EP}
    (hb : p.body = .access vc off phys acc r x l) (hc : acc.counts = true) (hh : p.carry.hnd ≠ 0) (hp : p.carry.opkg = epPkg e) (s : State)
    (k : Nat) : dropLapsed s k e p p.carry =
      { takePkt s k e p with ctl := (takePkt s k e p).ctl ++ [.drop (epPkg e) p.carry.hnd.toNat 0 0 1] } := by
  have hn : p.carry.hnd.toNat ≠ 0 := fun h => hh (BitVec.eq_of_toNat_eq h)
  simp only [dropLapsed, dropCounts, tellDropped, hb, hc, b2n, if_true, reportItem, State.report, hp, beq_self_eq_true, beq_iff_eq, hh, hn,
    if_false]

end Sys2Proof.Machine
end

section
/-! Accesses performed at their owner (R51, R174), where nothing else stands on their words. -/

namespace Sys2Proof.Machine

/-- Nothing stands on the words of the core but their bytes: no errors (R48), no watches (R347), no version-buffer entries (R179). -/
structure QuietAt (s : State) (e : EP) : Prop where
  errors : (s.core e).upsets = []
  watches : (s.core e).watches = []
  entries : (s.core e).vbuf = []

theorem QuietAt.takePkt {s : State} {e : EP} (h : QuietAt s e) (k : Nat) (p : Pkt) : QuietAt (takePkt s k e p) e := by
  obtain ⟨he, hw, hv⟩ := h
  exact ⟨by rw [core_takePkt_upsets, he], by rw [core_takePkt_watches, hw], by rw [core_takePkt_vbuf, hv]⟩

variable {s : State} {e : EP} {a n : Nat} {req : Req} {carry : Carry} {here : Bool}

theorem QuietAt.meetErrors (h : QuietAt s e) : meetErrors s e a n = s := by
  simp only [Machine.meetErrors, h.errors, List.isEmpty_nil, if_true]

theorem QuietAt.abortPlain (h : QuietAt s e) : abortPlain s e a n = s := by
  simp only [Machine.abortPlain, h.entries, List.filter_nil, List.isEmpty_nil, if_true]

theorem answerRange_of_watches_nil (h : (s.core e).watches = []) : answerRange s e a n = s := by
  simp only [answerRange, h, List.isEmpty_nil, if_true]

/-- R51: a load of granules that are not ochre reads its bytes. -/
theorem perform_load {m : Nat} {sg : Bool} (h : QuietAt s e) (ho : anyOchre s e a m = false) :
    perform s e a (.load m sg) req carry here = (s, some (.value (extend m sg (mread (s.core e).spad a m)) 0)) := by
  simp only [perform, Access.writes, h.meetErrors, ho, Bool.false_and, Bool.false_eq_true, if_false, spadRead]

/-- R51: a load that meets an ochre granule fails, here or at the far end. -/
theorem perform_load_of_ochre {m : Nat} {sg : Bool} (h : QuietAt s e) (ho : anyOchre s e a m = true) :
    perform s e a (.load m sg) req carry here = (s, some (.ochre (if here then 0 else 2) req.ebit)) := by
  simp only [perform, Access.writes, h.meetErrors, ho, Bool.false_and, Bool.false_eq_true, if_false, if_true]

/-- R51: a store writes its bytes, whatever the granules' states. -/
theorem perform_store {m v : Nat} (h : QuietAt s e) :
    perform s e a (.store m v) req carry here = (s.spadWrite e a m v, some (.ack 0)) := by
  simp only [perform, Access.writes, h.abortPlain, Bool.not_false, Bool.and_self, if_true]

/-- R174: an atomic with a result answers the old word and writes the new one. -/
theorem perform_atom {op : Nat} {dbl : Bool} {v cmp : Word} (h : QuietAt s e)
    (ho : anyOchre s e a (Access.atom op dbl v cmp true).size = false) :
    let m := (Access.atom op dbl v cmp true).size
    let old := mread (s.core e).spad a m
    perform s e a (.atom op dbl v cmp true) req carry here =
      (s.spadWrite e a m (atomNew op dbl old v.toNat cmp.toNat).1, some (.value old (atomNew op dbl old v.toNat cmp.toNat).2)) := by
  simp only [Access.size] at ho ⊢
  simp only [perform, Access.writes, h.abortPlain, h.meetErrors, Access.size, ho, Bool.not_false, Bool.and_self, Bool.false_eq_true,
    if_true, if_false, spadRead]

/-- A load, store or atomic: an access that changes no granule's state and never waits (R51). -/
def Access.plain : Access → Bool
  | .load .. | .store .. | .atom .. => true
  | _ => false

/-- A plain access that is performed is answered, and nothing else follows where no watch stands. -/
theorem ownerAccess_of_perform {s' : State} {acc : Access} {ans : Answer} (hp : perform s e a acc req carry here = (s', some ans))
    (hacc : acc.plain = true) (hw : (s'.core e).watches = []) :
    ownerAccess s e a acc req carry here = s'.respond e req carry here ans := by
  simp only [ownerAccess, hp, answerRange_of_watches_nil hw]
  cases acc with
  | load | store | atom => rfl
  | _ => exact absurd hacc Bool.false_ne_true

end Sys2Proof.Machine
end

section
/-! FABRIC_INGRESS (R14 step 4, R15, R113, R137, R189, R216, R470): what an access does at its owner. -/

namespace Sys2Proof.Machine

section access
variable {s : State} {k : Nat} {p : Pkt} {off : Nat} {phys : Option Nat} {acc : Access} {r : Option Nat} {x : Bool}

/-- R216: a lapsed access is dropped. -/
theorem becomes_dropLapsed (h : Arrives s k p) (hb : p.body = .access none off phys acc r x false) (he : expired s p.dst p.carry = true) :
    Becomes (.fabricIngress k) s p (dropLapsed s k p.dst p p.carry) := by
  simp only [Becomes, exec_fabricIngress, execFabricIngress, onPacket_of_arrives h, hb, he, Bool.false_and, Bool.not_false, Bool.and_self,
    if_true]

/-- R105, R110: an access that meets a closed boundary or comes on a wrong channel is refused. -/
theorem becomes_refused_of_barred (h : Arrives s k p) (hb : p.body = .access none off phys acc r x false)
    (he : expired s p.dst p.carry = false) (hc : closedAt s p.dst = true ∨ wrongChannel s p.dst p = true) :
    Becomes (.fabricIngress k) s p ((takePkt s k p.dst p).answer p.dst p.req p.carry .refused) := by
  have hbar : (closedAt s p.dst || wrongChannel s p.dst p) = true := by simpa using hc
  simp only [Becomes, exec_fabricIngress, execFabricIngress, onPacket_of_arrives h, hb, he, hbar, refusePkt_of_access hb, Bool.and_false,
    Bool.not_false, Bool.and_self, Bool.false_eq_true, if_false, if_true]

/-- R15: an access outside its allotment is refused. -/
theorem becomes_refused_of_unplaced (h : Arrives s k p) (hb : p.body = .access none off none acc r x false)
    (he : expired s p.dst p.carry = false) (hc : closedAt s p.dst = false) (hw : wrongChannel s p.dst p = false) :
    Becomes (.fabricIngress k) s p ((takePkt s k p.dst p).answer p.dst p.req p.carry .refused) := by
  simp only [Becomes, exec_fabricIngress, execFabricIngress, onPacket_of_arrives h, hb, he, hc, hw, refusePkt_of_access hb, Bool.and_false,
    Bool.or_self, Bool.false_eq_true, if_false]

variable {a : Nat}

/-- R113: an access that no window admits is refused. -/
theorem becomes_refused_of_unadmitted (h : Arrives s k p) (hb : p.body = .access none off (some a) acc r x false)
    (he : expired s p.dst p.carry = false) (hc : closedAt s p.dst = false) (hw : wrongChannel s p.dst p = false)
    (ha : admits s p.dst p.req.ctx a acc.size acc.needs = false) :
    Becomes (.fabricIngress k) s p ((takePkt s k p.dst p).answer p.dst p.req p.carry .refused) := by
  simp only [Becomes, exec_fabricIngress, execFabricIngress, onPacket_of_arrives h, hb, he, hc, hw, ha, refusePkt_of_access hb,
    Bool.and_false, Bool.or_self, Bool.not_false, Bool.and_self, Bool.false_eq_true, if_false, if_true]

/-- R137, R189: an access that a sealed entry or a queued write holds back stays where it is. -/
theorem exec_fabricIngress_of_held (h : Arrives s k p) (hb : p.body = .access none off (some a) acc r x false)
    (he : expired s p.dst p.carry = false) (hc : closedAt s p.dst = false) (hw : wrongChannel s p.dst p = false)
    (ha : admits s p.dst p.req.ctx a acc.size acc.needs = true)
    (hh : ¬ (anySealed s p.dst a acc.size = false ∧ queued s p.dst a acc.size = false)) :
    exec (.fabricIngress k) s = .next s := by
  have hheld : (anySealed s p.dst a acc.size || queued s p.dst a acc.size) = true := by
    simpa only [Bool.or_eq_true, not_and_or, Bool.not_eq_false] using hh
  have hask : p.asking = none := by simp only [Pkt.asking, hb]
  obtain ⟨hmem, hstage⟩ := mem_and_arrived_of_arrives h
  simp only [exec_fabricIngress, execFabricIngress, onPacket_of_arrives h, hb, he, hc, hw, ha, hheld, State.noteReplies, hask,
    reapProxy_of_carried hmem hstage, Bool.and_false, Bool.or_self, Bool.not_false, Bool.not_true, Bool.false_eq_true, if_false, if_true]

/-- R14 step 4: an access that a window admits and nothing holds back is performed at its owner. -/
theorem becomes_ownerAccess (h : Arrives s k p) (hb : p.body = .access none off (some a) acc r x false)
    (he : expired s p.dst p.carry = false) (hc : closedAt s p.dst = false) (hw : wrongChannel s p.dst p = false)
    (ha : admits s p.dst p.req.ctx a acc.size acc.needs = true) (hs : anySealed s p.dst a acc.size = false)
    (hq : queued s p.dst a acc.size = false) :
    Becomes (.fabricIngress k) s p (ownerAccess (takePkt s k p.dst p) p.dst a acc p.req p.carry false) := by
  simp only [Becomes, exec_fabricIngress, execFabricIngress, onPacket_of_arrives h, hb, he, hc, hw, ha, hs, hq, Bool.and_false,
    Bool.or_self, Bool.not_false, Bool.not_true, Bool.false_eq_true, if_false]

/-- R14 step 4, R51: a plain access that is performed where nothing else stands on the words is answered on VC0. -/
theorem becomes_answer_of_perform {s' : State} {ans : Answer}
    (h : Becomes (.fabricIngress k) s p (ownerAccess (takePkt s k p.dst p) p.dst a acc p.req p.carry false)) (hacc : acc.plain = true)
    (hp : perform (takePkt s k p.dst p) p.dst a acc p.req p.carry false = (s', some ans)) (hw : (s'.core p.dst).watches = []) :
    Becomes (.fabricIngress k) s p (s'.answer p.dst p.req p.carry ans) := by
  rwa [ownerAccess_of_perform hp hacc hw, State.respond, if_neg Bool.false_ne_true] at h

end access

section window
variable {s : State} {k : Nat} {p : Pkt} {off : Nat} {acc : Access} {priv : Bool}

/-- R470: a store to the bridge window writes its register. -/
theorem becomes_bridgeWrite {w : Nat} (h : Arrives s k p) (hb : p.body = .window off (.store 8 w) true)
    (he : expired s p.dst p.carry = false) (hw : wrongChannel s p.dst p = false) (ho : off < 0x10000) :
    Becomes (.fabricIngress k) s p
      ((bridgeWrite (takePkt s k p.dst p) (epPkg p.dst) off (BitVec.ofNat 64 w)).answer p.dst p.req p.carry (.ack 0)) := by
  have hform : (!true || (Access.store 8 w).size != 8 || decide (0x10000 ≤ off)) = false := by simpa [Access.size] using ho
  simp only [Becomes, exec_fabricIngress, execFabricIngress, onPacket_of_arrives h, hb, he, hw, windowAccess, hform, word,
    Bool.false_eq_true, if_false]

/-- R110, R470: an access to the bridge window on a wrong channel, of a context with PRIV = 0, or of another form is refused. -/
theorem becomes_refused_of_window (h : Arrives s k p) (hb : p.body = .window off acc priv) (he : expired s p.dst p.carry = false)
    (hc : wrongChannel s p.dst p = true ∨ priv = false ∨ acc.size ≠ 8 ∨ 0x10000 ≤ off) :
    Becomes (.fabricIngress k) s p ((takePkt s k p.dst p).answer p.dst p.req p.carry .refused) := by
  simp only [Becomes, exec_fabricIngress, execFabricIngress, onPacket_of_arrives h, hb, he, windowAccess, refusePkt_of_window hb,
    Bool.false_eq_true, if_false]
  by_cases hw : wrongChannel s p.dst p = true
  · rw [if_pos hw]
  · have hform : (!priv || acc.size != 8 || decide (0x10000 ≤ off)) = true := by simpa [hw, or_assoc] using hc
    rw [if_neg hw, if_pos hform]

end window

/-- R14, R15, R51, R113, R137, R174, R189, R216, R470: FABRIC_INGRESS. -/
theorem fabricArrival : FabricArrival := by
  unfold FabricArrival
  intro s k p off a acc r x h e n i taken open_ clear quiet
  refine ⟨fun hb => ⟨fun ⟨he, hc, hw⟩ ha ⟨hs, hq⟩ ⟨hu, hwa, hv⟩ => ?performed, fun ⟨he, hc, hw⟩ ha => ?unadmitted,
    fun he hc => becomes_refused_of_barred h hb he hc, fun he hcount hh hp => ?lapsed, fun ⟨he, hc, hw⟩ ha hh => ?held⟩,
    fun hb ⟨he, hc, hw⟩ => becomes_refused_of_unplaced h hb he hc hw, fun w hb he hw ho => becomes_bridgeWrite h hb he hw ho,
    fun priv hb he hc => becomes_refused_of_window h hb he hc⟩
  case unadmitted => exact becomes_refused_of_unadmitted h hb he hc hw ha
  case held => exact exec_fabricIngress_of_held h hb he hc hw ha hh
  case lapsed =>
    have := becomes_dropLapsed h hb he
    rwa [dropLapsed_of_store hb hcount hh hp] at this
  case performed =>
    have howner := becomes_ownerAccess h hb he hc hw ha hs hq
    have hquiet : QuietAt taken e := QuietAt.takePkt ⟨hu, hwa, hv⟩ k p
    have hspad : (taken.core e).spad = (s.core e).spad := core_takePkt_spad ..
    refine ⟨fun m sg hacc ho => ?load, fun m sg hacc ho => ?ochre, fun m v hacc => ?store, fun op dbl v cmp hacc ho => ?atom⟩
    case load =>
      subst hacc
      have hp := perform_load (sg := sg) (req := p.req) (carry := p.carry) (here := false) hquiet ((anyOchre_takePkt ..).trans ho)
      rw [hspad] at hp
      exact becomes_answer_of_perform howner rfl hp hquiet.watches
    case ochre =>
      subst hacc
      exact becomes_answer_of_perform howner rfl (perform_load_of_ochre hquiet ((anyOchre_takePkt ..).trans ho)) hquiet.watches
    case store =>
      subst hacc
      exact becomes_answer_of_perform howner rfl (perform_store hquiet) ((core_spadWrite_watches ..).trans hquiet.watches)
    case atom =>
      subst hacc
      have hp := perform_atom (req := p.req) (carry := p.carry) (here := false) hquiet ((anyOchre_takePkt ..).trans ho)
      simp only [hspad] at hp
      exact becomes_answer_of_perform howner rfl hp ((core_spadWrite_watches ..).trans hquiet.watches)

end Sys2Proof.Machine
end

section
/-! REPLY_ARRIVAL (R115, R117, R130, R292, R365): what an answer does to the thread that asked, and O44. -/

namespace Sys2Proof.Machine

/-- R117: the entry of a relaxed access is emptied and its counter drops. -/
def Thread.endRelaxed (t : Thread) (i : Nat) : Thread :=
  ({ t with cnt := if i < 8 then { t.cnt with ldc := t.cnt.ldc - 1 } else { t.cnt with stc := t.cnt.stc - 1 } }).setSb i SbEntry.none

@[simp] theorem Thread.setG_pair (t : Thread) (r : Reg) (v : Word) : (t.setG r v).pair = t.pair := by
  simp only [Thread.setG]
  split <;> rfl

/-- R294: a thread of no pair keeps no late value. -/
theorem Thread.lateVal_of_single {t : Thread} (h : t.pair = none) (r : Reg) (v : Word) : t.lateVal r v = t := by
  cases t
  cases h
  rfl

section relaxed
variable {t : Thread} {i : Nat} (h : (t.sbAt i).state = .sent)
include h

theorem settleRelaxed_value (hp : t.pair = none) (ebit v f : Nat) (bits : Word) : t.settleRelaxed i ebit true (.value v f) bits =
    ((t.endRelaxed i).setG (t.sbAt i).reg (BitVec.ofNat 64 v)).orFlags f := by
  have hlate : ((t.endRelaxed i).setG (t.sbAt i).reg (word v)).pair = none := by rw [Thread.setG_pair]; exact hp
  have := Thread.lateVal_of_single hlate (t.sbAt i).reg (word v)
  simp only [Thread.settleRelaxed, h, bne_self_eq_false, Bool.false_eq_true, if_false, if_true]
  exact congrArg (Thread.orFlags · f) this

theorem settleRelaxed_ack (ebit f : Nat) (bits : Word) :
    t.settleRelaxed i ebit true (.ack f) bits = (t.endRelaxed i).orFlags f := by
  simp only [Thread.settleRelaxed, h, bne_self_eq_false, Bool.false_eq_true, if_false, if_true, Thread.endRelaxed]

theorem settleRelaxed_of_failed {a : Answer} (ha : a = .refused ∨ a = .timedOut) (ebit : Nat) (bits : Word) :
    t.settleRelaxed i ebit true a bits = (t.endRelaxed i).stick ebit := by
  rcases ha with rfl | rfl <;>
    simp only [Thread.settleRelaxed, h, bne_self_eq_false, Bool.false_eq_true, if_false, if_true, Thread.endRelaxed]

theorem settleRelaxed_ochre (ebit x b : Nat) (bits : Word) :
    t.settleRelaxed i ebit true (.ochre x b) bits = (t.endRelaxed i).stick b := by
  simp only [Thread.settleRelaxed, h, bne_self_eq_false, Bool.false_eq_true, if_false, if_true, Thread.endRelaxed]

end relaxed

section plain
variable {s : State} {e : EP} {n : Nat} {t : Thread} {q : Park} (hw : q.why = .answer)
include hw

theorem settlePlain_value (hs : q.size ≠ 16) (v f : Nat) (bits : Word) : settlePlain s e (.slot n) t q (.value v f) bits =
    s.modThr e n fun t => ((t.putG q.dst (BitVec.ofNat 64 v)).orFlags f).goTo q.next := by
  have hput (t : Thread) : t.putWide q.dst q.size v = t.putG q.dst (BitVec.ofNat 64 v) := if_neg (by simpa using hs)
  simp only [← hput]
  unfold settlePlain
  rw [hw]
  rfl

theorem settlePlain_ack (f : Nat) (bits : Word) :
    settlePlain s e (.slot n) t q (.ack f) bits = s.modThr e n fun t => (t.orFlags f).goTo q.next := by
  unfold settlePlain
  rw [hw]
  rfl

/-- R281, R365: a trap that an answer raises is taken in the slot of a thread that takes traps there. -/
theorem trapAt_of_takesTraps {cause : Nat} (info : Nat) (ht : s.thr? e n = some t) (hk : TakesTraps t)
    (hr : cause = 0x14 → rectOf s e = none) :
    trapAt s e (.slot n) t q cause info = s.modThr e n (·.trapTo cause q.operand info t.pc) := by
  obtain ⟨hh, hx, ho, hp⟩ := hk
  simp only [trapAt, hw, hx, hp, Option.isSome_none, Bool.or_self, Bool.false_eq_true, if_false,
    trapNow_eq_trapTo q.operand info t.pc ht hh ho hr]
  rfl

end plain

theorem settlePlain_joined {s : State} {e : EP} {n : Nat} {t : Thread} {q : Park} (bits : Word) :
    settlePlain s e (.slot n) t q .joined bits = s.modThr e n fun t => (t.p7 true).goTo q.next := rfl

theorem settlePlain_timedOut {s : State} {e : EP} {n : Nat} {t : Thread} {q : Park} (bits : Word) :
    settlePlain s e (.slot n) t q .timedOut bits = s.modThr e n fun t => (t.p7 false).goTo q.next := rfl

section settle
variable {s : State} {req : Req} {a : Answer}

/-- R117: an answer for a thread that is no more is discarded. -/
theorem settle_of_gone (h : s.thrWhere req.ep (locate s req.ep req.uid) = none) : s.settle req a = s := by
  simp only [State.settle, h]

variable {n : Nat} {t : Thread} (hl : locate s req.ep req.uid = .slot n) (ht : s.thr? req.ep n = some t) (ho : t.origin = none)
include hl ht ho

/-- R286: entries 0 to 15 are those of relaxed accesses. -/
theorem settle_relaxed (hi : req.entry < 16) :
    ∃ bits, s.settle req a = s.modThr req.ep n (·.settleRelaxed req.entry req.ebit true a bits) := by
  have hthr : s.thrWhere req.ep (.slot n) = some t := ht
  refine ⟨if a == .notPlaced then 1#64 <<< (req.ebit % 64) else answerBits s (epPkg req.ep) t a, ?_⟩
  simp only [State.settle, hl, hthr, ho, Option.filter_none, hi, if_true]
  rfl

/-- R127, R130: entry 17 is that of what the thread does not wait for. -/
theorem settle_loose (hi : req.entry = 17) : ∃ bits, s.settle req a = s.modThr req.ep n (·.settleLoose req.ebit bits a) := by
  have hthr : s.thrWhere req.ep (.slot n) = some t := ht
  refine ⟨if a == .notPlaced then 1#64 <<< (req.ebit % 64) else answerBits s (epPkg req.ep) t a, ?_⟩
  simp only [State.settle, hl, hthr, ho, Option.filter_none, hi]
  rfl

/-- R286: entry 16 with the number of the request is the instruction that the thread is parked on. -/
theorem settle_parked {q : Park} (hp : t.park = some q) (hi : req.entry = 16 + 32 * q.ser) :
    ∃ bits, s.settle req a = settlePlain s req.ep (.slot n) t q a bits := by
  have hthr : s.thrWhere req.ep (.slot n) = some t := ht
  have hrelaxed : ¬ 16 + 32 * q.ser < 16 := by omega
  have hloose : (16 + 32 * q.ser == 17 || 16 + 32 * q.ser == 19) = false := by simp; omega
  have hengine : (16 + 32 * q.ser == 18) = false := by simp; omega
  refine ⟨if a == .notPlaced then 1#64 <<< (req.ebit % 64) else answerBits s (epPkg req.ep) t a, ?_⟩
  simp only [State.settle, hl, hthr, ho, Option.filter_none, hi, hrelaxed, hloose, hengine, hp, beq_self_eq_true, Bool.false_eq_true,
    if_false, if_true]

end settle

/-- R110, R216: an answer that has not lapsed and meets no closed boundary reaches its requester. -/
theorem becomes_settle {s : State} {k : Nat} {p : Pkt} {a : Answer} (h : Arrives s k p) (hb : p.body = .answer a)
    (hc : closedAt s p.dst = false) (he : expired s p.dst p.carry = false) :
    Becomes (.replyArrival k) s p ((s.dropPkt k).settle p.req a) := by
  simp only [Becomes, exec_replyArrival, execReplyArrival, onPacket_of_arrives h, hb, hc, he, Bool.false_eq_true, if_false]

/-- A thread that is nowhere is nowhere once a packet is gone. -/
theorem thrWhere_dropPkt_eq_none {s : State} {e : EP} {w : Whereabouts} (h : s.thrWhere e w = none) (k : Nat) :
    (s.dropPkt k).thrWhere e w = none := by
  cases w with
  | slot n => exact h
  | tcc n => exact h
  | spilled j => exact Option.map_eq_none_iff.2 (Option.map_eq_none_iff.1 h)
  | gone => rfl

/-- R99, R115, R117, R130, R292, R365: REPLY_ARRIVAL. -/
theorem replyArrival : ReplyArrival := by
  unfold ReplyArrival
  intro s k p a n t h hb hc he i e o en here tgt lower
  have settles : Becomes i s p ((s.dropPkt k).settle p.req a) := becomes_settle h hb hc he
  have changes {f g : Thread → Thread} (ht : s.thr? e n = some t) (hset : (s.dropPkt k).settle p.req a = (s.dropPkt k).modThr e n f)
      (hfg : f t = g t) : tgt g := by
    rw [hset, modThr_congr (s := s.dropPkt k) ht hfg] at settles
    exact settles
  refine ⟨fun ⟨hl, ht, ho⟩ hi hsent => ?relaxed, fun ⟨hl, ht, ho⟩ hi ha => ?loose, fun q ⟨hl, ht, ho⟩ hpark hi hwhy => ?parked,
    fun q ⟨hl, ht, ho⟩ hpark hi hwhy ha hk hr => ?trapped, fun hgone => ?gone⟩
  case relaxed =>
    obtain ⟨bits, hset⟩ := settle_relaxed (s := s.dropPkt k) (a := a) hl ht ho hi
    refine ⟨fun v f ha hp => changes ht hset ?_, fun f ha => changes ht hset ?_, fun ha => changes ht hset ?_,
      fun x b ha => changes ht hset ?_⟩
    · subst ha; exact settleRelaxed_value hsent hp ..
    · subst ha; exact settleRelaxed_ack hsent ..
    · exact settleRelaxed_of_failed hsent ha ..
    · subst ha; exact settleRelaxed_ochre hsent ..
  case loose =>
    obtain ⟨bits, hset⟩ := settle_loose (s := s.dropPkt k) (a := a) hl ht ho hi
    subst ha
    exact changes ht hset rfl
  case parked =>
    obtain ⟨bits, hset⟩ := settle_parked (s := s.dropPkt k) (a := a) hl ht ho hpark hi
    refine ⟨fun v f ha hs => ?_, fun f ha => ?_, fun ha => ?_, fun ha => ?_⟩ <;> subst ha
    · exact changes ht (hset.trans (settlePlain_value hwhy hs ..)) rfl
    · exact changes ht (hset.trans (settlePlain_ack hwhy ..)) rfl
    · exact changes ht (hset.trans (settlePlain_joined bits)) rfl
    · exact changes ht (hset.trans (settlePlain_timedOut bits)) rfl
  case trapped =>
    obtain ⟨bits, hset⟩ := settle_parked (s := s.dropPkt k) (a := a) hl ht ho hpark hi
    have traps {cause : Nat} {info : Nat} (hs : (s.dropPkt k).settle p.req a = trapAt (s.dropPkt k) e (.slot n) t q cause info)
        (hcause : cause < 256) : ∃ s' t', Becomes i s p s' ∧ s'.thr? e n = some t' ∧ t'.sr.tcause.toNat = cause ∧
          t'.sr.taddr = q.operand ∧ t'.sr.trappc = t.pc ∧ t'.handler = true ∧ t'.sup = true ∧ t'.regs = t.regs := by
      rw [hs, trapAt_of_takesTraps (s := s.dropPkt k) hwhy info ht hk fun _ => hr] at settles
      have ht' : (s.dropPkt k).thr? e n = some t := ht
      refine ⟨_, t.trapTo cause q.operand info t.pc, settles, ?_, Nat.mod_eq_of_lt hcause, rfl, rfl, rfl, rfl, rfl⟩
      rw [thr?_modThr, ht', Option.map_some]
    rcases ha with rfl | ⟨x, b, rfl, -⟩
    · exact traps (cause := 0x13) hset (by omega)
    · exact traps (cause := 0x14) hset (by omega)
  case gone =>
    rw [settle_of_gone (thrWhere_dropPkt_eq_none hgone k)] at settles
    exact settles

/-- Settles O44: what an arrived packet does is the effect of its arm on the state without it, for an access `ownerAccess` with one answer,
for an answer `State.settle` of its requester. -/
theorem accessesAndReplies : Obligations.AccessesAndReplies := ⟨fabricArrival, replyArrival⟩

end Sys2Proof.Machine
end

section
/-! What is shared by the statements about instructions of one core: traps that an instruction raises, and changes of its core. -/

namespace Sys2Proof.Machine

/-- R280, R282: an instruction that raises a trap at its own head takes it, where the thread takes traps here and now. -/
theorem trapTaken_of_exec_raise {i : Instr} {s : State} {u : Turn} {t : Thread} {cause info : Nat} {addr : Word}
    (he : exec i s = .next (s.raise u cause addr info)) (ht : s.thr? u.ep u.slot = some t) (hk : TakesTraps t) (hc : cause < 0x21)
    (hi : info < 2 ^ 32) (hr : cause = 0x14 → rectOf s u.ep = none) :
    ∃ s', exec i s = .next s' ∧ TrapTaken s u t cause addr info t.pc s' := by
  have h := raise_trapTaken addr ht hk (cause := cause) (info := info) (by omega) hi hr
  rw [if_neg (by omega)] at h
  exact ⟨_, he, h⟩

/-- A table without the key is left as it is. -/
theorem tmod_of_tget_eq_none {α : Type} {k : Nat} {t : Table α} (f : α → α) (h : tget t k = none) : tmod k f t = t := by
  induction t with
  | nil => rfl
  | cons x r ih =>
    obtain ⟨j, x⟩ := x
    by_cases hj : (j == k) = true
    · simp only [tget, hj, if_true, reduceCtorEq] at h
    · simp only [tget, hj, Bool.false_eq_true, if_false] at h
      simp only [tmod, hj, Bool.false_eq_true, if_false, ih h]

/-- A core changed by two functions that agree on it. -/
theorem modCore_congr {s : State} {e : EP} {f g : Core → Core} (h : f (s.core e) = g (s.core e)) : s.modCore e f = s.modCore e g := by
  simp only [State.modCore]
  cases hc : tget s.cores e with
  | none => rw [tmod_of_tget_eq_none f hc, tmod_of_tget_eq_none g hc]
  | some c =>
    rw [State.core, hc] at h
    rw [tmod_congr hc h]

section cores
variable {s : State} {e i : EP} {f : Core → Core}

/-- A slot with a thread is one of a core that the state lists. -/
theorem core_isSome_of_thr? {n : Nat} {t : Thread} (h : s.thr? e n = some t) : (tget s.cores e).isSome = true := by
  cases hc : tget s.cores e with
  | none => rw [State.thr?, hc] at h; cases h
  | some c => rfl

theorem core_modCore_same (h : (tget s.cores e).isSome = true) : (s.modCore e f).core e = f (s.core e) := by
  obtain ⟨c, hc⟩ := Option.isSome_iff_exists.1 h
  simp only [State.core, State.modCore, tget_tmod_same, hc, Option.map_some, Option.getD_some]

theorem core_modCore_other (h : i ≠ e) : (s.modCore e f).core i = s.core i := by
  simp only [State.core, State.modCore, tget_tmod_other _ _ h]

@[simp] theorem core_modCore_isSome : (tget (s.modCore e f).cores i).isSome = (tget s.cores i).isSome := by
  by_cases h : i = e
  · subst h; rw [State.modCore, tget_tmod_same, Option.isSome_map]
  · rw [State.modCore, tget_tmod_other _ _ h]

/-- A change of a core that leaves its slots leaves every thread. -/
theorem thr?_modCore_of_slots (hf : ∀ c, (f c).slots = c.slots) (n : Nat) : (s.modCore e f).thr? i n = s.thr? i n := by
  simp only [State.thr?, State.modCore]
  by_cases h : i = e
  · subst h
    rw [tget_tmod_same]
    cases tget s.cores i with
    | none => rfl
    | some c => simp only [Option.map_some, Option.bind_some, hf]
  · rw [tget_tmod_other _ _ h]

/-- What a core holds beside its slots is left as it is where a thread changes. -/
theorem core_modThr_of_keeps {α : Type} {g : Core → α} (hg : ∀ c l, g { c with slots := l } = g c) (s : State) (e i : EP) (n : Nat)
    (f : Thread → Thread) : g ((s.modThr e n f).core i) = g (s.core i) := core_modCore_of_keeps (fun c => hg c _) s e i

theorem core_retire_of_keeps {α : Type} {g : Core → α} (hg : ∀ c l, g { c with slots := l } = g c) (s : State) (u : Turn) (i : EP)
    (f : Thread → Thread) : g ((s.retire u f).core i) = g (s.core i) := core_modThr_of_keeps hg s u.ep i u.slot _

end cores

end Sys2Proof.Machine
end


section
/-! The turn of a slot (R72, R312 to R319, R332): its fetched line, its decoded instruction, and the step that runs it. -/

namespace Sys2Proof.Machine

/-- The slot of a turn holds the line that it has fetched (R72). -/
def holdLine (s : State) (u : Turn) (l : Line) : State :=
  s.modThr u.ep u.slot fun x => { x with fresh := false, line := some (x.pc.toNat / 64 * 64, l) }

/-- The turn knows the next head and the head halfword (R315, R332). -/
def Turn.atHead (u : Turn) (t : Thread) (l : Line) : Turn :=
  { u with next := nextHead l t.pc, head := BitVec.ofNat 16 (hw l (t.pc.toNat / 2 % 32)) }

section decode
variable {e : EP} {slot : Nat} {t : Thread} {l : Line}

/-- R281, R324: a head that the slot lacks. -/
theorem decodeTurn_of_lacks (h : lacks (kindOf e) (isVisitor e slot) t.pair.isSome (fld (hw l (t.pc.toNat / 2 % 32)) 0 9)
    (tailOf l (t.pc.toNat / 2 % 32)) = true) :
    decodeTurn e slot t l = .error ⟨0x01, 0, fld (hw l (t.pc.toNat / 2 % 32)) 0 9⟩ := by
  simp only [decodeTurn, h, if_true]

variable (h : lacks (kindOf e) (isVisitor e slot) t.pair.isSome (fld (hw l (t.pc.toNat / 2 % 32)) 0 9)
  (tailOf l (t.pc.toNat / 2 % 32)) = false)
include h

theorem decodeTurn_of_ok {i : Instr} (hd : decodeAt l (t.pc.toNat / 2 % 32) = .ok i) : decodeTurn e slot t l = .ok (refine t i) := by
  simp only [decodeTurn, h, hd, Bool.false_eq_true, if_false]

theorem decodeTurn_of_opcode {o : Nat} (hd : decodeAt l (t.pc.toNat / 2 % 32) = .error (.opcode o)) :
    decodeTurn e slot t l = .error ⟨0x01, 0, o⟩ := by
  simp only [decodeTurn, h, hd, Bool.false_eq_true, if_false]

theorem decodeTurn_of_encoding {w : Nat} (hd : decodeAt l (t.pc.toNat / 2 % 32) = .error (.encoding w)) :
    decodeTurn e slot t l = .error ⟨0x02, 0, w⟩ := by
  simp only [decodeTurn, h, hd, Bool.false_eq_true, if_false]

end decode

/-- R419: only a PUSH of engine 0 may stand for another instruction. -/
theorem refine_of_ne {i : Instr} (t : Thread) (h : ∀ gd a, i ≠ .pushCopy gd a false) : refine t i = i := by
  unfold refine
  split
  · exact absurd rfl (h _ _)
  · rfl

/-- R326, R419, R424: a PUSH of engine 0 whose command has KIND 4 is a FILL. -/
theorem refine_pushCopy (t : Thread) (gd : Guard) (a : Reg) :
    refine t (.pushCopy gd a false) = if (gr t a).toNat % 2 ^ 8 = 4 then .pushFill gd a else .pushCopy gd a false := by
  have hkind : cKind (cmdWords t a) = (gr t a).toNat % 2 ^ 8 := by
    show (gr t (a + 0#5)).toNat % 2 ^ 8 = _
    rw [BitVec.add_zero]
  simp only [refine, hkind, beq_iff_eq]

theorem runInstr_of_read {s x : State} {u : Turn} {i : Instr} (h : readTables s (usesOfInstr s u i) = some x) :
    runInstr s u i = exec i x := by
  simp only [runInstr, h]

/-- R82: where a read must wait, the turn passes. -/
theorem runInstr_of_waits {s : State} {u : Turn} {i : Instr} (h : readTables s (usesOfInstr s u i) = none) :
    runInstr s u i = .next s.noTurn := by
  simp only [runInstr, h]

section step
variable {s s' : State} {u : Turn} {t : Thread} {l : Line} (hu : s.turn = some u) (ht : s.thr? u.ep u.slot = some t)
include hu ht

/-- R72, R73, R51, R314, R316: a line that cannot be fetched traps. -/
theorem step_of_fetchLine_error {x : Trap} (hf : fetchLine s u.ep t = (.error x, s')) :
    step s = .next (s'.raise u x.cause x.addr x.info) := by
  simp only [step, hu, fetchTurn, ht, hf]

/-- R281: a head that names no instruction of the slot traps. -/
theorem step_of_decodeTurn_error {x : Trap} (hf : fetchLine s u.ep t = (.ok l, s')) (hd : decodeTurn u.ep u.slot t l = .error x) :
    step s = .next ((holdLine s' u l).raise (u.atHead t l) x.cause x.addr x.info) := by
  simp only [step, hu, fetchTurn, ht, hf, hd]
  rfl

/-- R332: the instruction at the head runs. -/
theorem step_of_decodeTurn_ok {i : Instr} (hf : fetchLine s u.ep t = (.ok l, s')) (hd : decodeTurn u.ep u.slot t l = .ok i) :
    step s = runInstr { holdLine s' u l with turn := some (u.atHead t l) } (u.atHead t l) i := by
  simp only [step, hu, fetchTurn, ht, hf, hd]
  rfl

end step

/-- R72, R312 to R319, R332: a step of a slot that has the turn and its line runs the decoded instruction. -/
theorem stepRunsDecoded : StepRunsDecoded := by
  unfold StepRunsDecoded
  intro s s' u t l h base op at_ u' lack m runs hu ht hf
  have decoded {i : Instr} (hd : decodeTurn u.ep u.slot t l = .ok i) : runs i :=
    ⟨fun x hx => (step_of_decodeTurn_ok hu ht hf hd).trans (runInstr_of_read hx),
      fun hx => (step_of_decodeTurn_ok hu ht hf hd).trans (runInstr_of_waits hx)⟩
  refine ⟨fun i hl hd hne => decoded ?_, fun gd a hl hd => decoded ?_, fun hl => ?_, fun o hl hd => ?_, fun w hl hd => ?_⟩
  · rw [decodeTurn_of_ok hl hd, refine_of_ne t hne]
  · rw [decodeTurn_of_ok hl hd, refine_pushCopy]
  · exact step_of_decodeTurn_error hu ht hf (decodeTurn_of_lacks hl)
  · exact step_of_decodeTurn_error hu ht hf (decodeTurn_of_opcode hl hd)
  · exact step_of_decodeTurn_error hu ht hf (decodeTurn_of_encoding hl hd)

end Sys2Proof.Machine
end

section
/-! The line of a turn (R72, R73, R51, R314, R316). -/

namespace Sys2Proof.Machine

section fetch
variable {s : State} {e : EP} {t : Thread}

/-- R72: a line that the slot has fetched is the one used. -/
theorem fetchLine_of_held {l : Line} (hfr : t.fresh = false) (hl : t.line = some (t.pc.toNat / 64 * 64, l)) :
    fetchLine s e t = (.ok l, s) := by
  simp only [fetchLine, hfr, hl, Option.filter_some, beq_self_eq_true, Bool.false_eq_true, if_false, if_true]

/-- No line is held that the turn could use: control has just arrived, or there is none. -/
theorem heldLine_eq_none (hn : t.fresh = true ∨ t.line = none) (n : Nat) :
    (if t.fresh then none else t.line.filter (·.1 == n)) = none := by
  rcases hn with hn | hn
  · rw [hn, if_pos rfl]
  · rw [hn, Option.filter_none, ite_self]

variable (hn : t.fresh = true ∨ t.line = none)
include hn

/-- R73: the fetch lies below XB. -/
theorem fetchLine_of_beyond (hx : ¬ t.pc.toNat < xbBytes (s.core e)) : fetchLine s e t = (.error ⟨0x05, t.pc.setWidth 64, 0⟩, s) := by
  simp only [fetchLine, heldLine_eq_none hn, Nat.not_lt.1 hx, if_true]

variable (hx : t.pc.toNat < xbBytes (s.core e))
include hx

/-- R72: the segment has landed. -/
theorem fetchLine_of_unlanded (hl : ¬ (s.core e).landed.getLsbD (t.pc.toNat / 4096) = true) :
    fetchLine s e t = (.error ⟨0x06, t.pc.setWidth 64, t.pc.toNat / 4096⟩, s) := by
  simp only [fetchLine, heldLine_eq_none hn, Nat.not_le.2 hx, landed, hl, Bool.not_false, if_true, if_false]

variable (hl : (s.core e).landed.getLsbD (t.pc.toNat / 4096) = true) (hup : (s.core e).upsets = [])
include hl hup

/-- R51, R316, R314: what is left, in a line without errors, is that it is not ochre, that control arrives at a head, and that it is
well-formed. -/
theorem fetchLine_of_landed : fetchLine s e t =
    if anyOchre s e (t.pc.toNat / 64 * 64) 64 then (.error ⟨0x14, t.pc.setWidth 64, 0⟩, s)
    else if t.fresh && !isHead (lineAt s e t.pc.toNat) t.pc.toNat then (.error ⟨0x03, t.pc.setWidth 64, 0⟩, s)
    else if !lineOk (lineAt s e t.pc.toNat) then (.error ⟨0x02, 0, hw (lineAt s e t.pc.toNat) 0⟩, s)
    else (.ok (lineAt s e t.pc.toNat), s) := by
  have herr : meetErrors s e (t.pc.toNat / 64 * 64) 64 = s := by simp only [meetErrors, hup, List.isEmpty_nil, if_true]
  simp only [fetchLine, heldLine_eq_none hn, Nat.not_le.2 hx, landed, hl, herr, Bool.not_true, Bool.false_eq_true, if_false]

end fetch

/-- R72, R73, R51, R314, R316: the line of the turn, and the traps of its fetch. -/
theorem linesAreFetched : LinesAreFetched := by
  unfold LinesAreFetched
  intro s u t pc l below there
  refine ⟨fun hfr k hk => fetchLine_of_held hfr hk, fun hn hup => ⟨fun hx hl ho hok hhead => ?fetched, fun hu ht => ?traps⟩⟩
  case fetched =>
    have hhead : (t.fresh && !isHead (lineAt s u.ep t.pc.toNat) t.pc.toNat) = false := by
      cases hfr : t.fresh with
      | false => rfl
      | true => rw [show isHead (lineAt s u.ep t.pc.toNat) t.pc.toNat = true from hhead hfr]; rfl
    have hok : lineOk (lineAt s u.ep t.pc.toNat) = true := hok
    rw [fetchLine_of_landed hn hx hl hup, if_neg (by rw [ho]; exact Bool.false_ne_true), hhead, hok]
    rfl
  case traps =>
    have traps (x : Trap) (hf : fetchLine s u.ep t = (.error x, s)) := step_of_fetchLine_error hu ht hf
    refine ⟨fun hx => traps _ (fetchLine_of_beyond hn hx), fun hx hl => traps _ (fetchLine_of_unlanded hn hx hl),
      fun hx hl ho => traps ⟨0x14, t.pc.setWidth 64, 0⟩ ?ochre, fun hx hl ho hfr hhead => traps ⟨0x03, t.pc.setWidth 64, 0⟩ ?noHead,
      fun hx hl ho hfr hok => traps ⟨0x02, 0, hw l 0⟩ ?illFormed⟩
    case ochre => rw [fetchLine_of_landed hn hx hl hup, if_pos ho]
    case noHead =>
      have hhead : isHead (lineAt s u.ep t.pc.toNat) t.pc.toNat = false := hhead
      rw [fetchLine_of_landed hn hx hl hup, if_neg (by rw [ho]; exact Bool.false_ne_true), hfr, hhead]
      rfl
    case illFormed =>
      have hok : lineOk (lineAt s u.ep t.pc.toNat) = false := hok
      rw [fetchLine_of_landed hn hx hl hup, if_neg (by rw [ho]; exact Bool.false_ne_true), hfr, hok]
      rfl

end Sys2Proof.Machine
end

section
/-! The reads of tables before a step (R80, R470): they touch no thread, no scratchpad and no packet; O55. -/

namespace Sys2Proof.Machine

/-- What the read of a table leaves as it is. -/
structure ReadOnly (s s' : State) : Prop where
  threads : ∀ e n, s'.thr? e n = s.thr? e n
  spads : ∀ e, (s'.core e).spad = (s.core e).spad
  net : s'.net = s.net
  turn : s'.turn = s.turn
  clusters : s'.clusters = s.clusters
  dies : s'.dies = s.dies

namespace ReadOnly

theorem refl (s : State) : ReadOnly s s := ⟨fun _ _ => rfl, fun _ => rfl, rfl, rfl, rfl, rfl⟩

theorem trans {a b c : State} (h : ReadOnly a b) (k : ReadOnly b c) : ReadOnly a c :=
  ⟨fun e n => (k.threads e n).trans (h.threads e n), fun e => (k.spads e).trans (h.spads e), k.net.trans h.net, k.turn.trans h.turn,
    k.clusters.trans h.clusters, k.dies.trans h.dies⟩

theorem foldl {α : Type} {f : State → α → State} (hf : ∀ s x, ReadOnly s (f s x)) (l : List α) (s : State) :
    ReadOnly s (l.foldl f s) := by
  induction l generalizing s with
  | nil => exact refl s
  | cons x l ih => exact (hf s x).trans (ih (f s x))

/-- What stands outside the cores may change with the memory of the package. -/
theorem of_cores {s s' : State} (hc : s'.cores = s.cores) (hn : s'.net = s.net) (ht : s'.turn = s.turn) (hcl : s'.clusters = s.clusters)
    (hd : s'.dies = s.dies) : ReadOnly s s' :=
  ⟨fun e n => by simp only [State.thr?, hc], fun e => by simp only [State.core, hc], hn, ht, hcl, hd⟩

/-- A change of a core that leaves its slots and its scratchpad. -/
theorem modCore (s : State) (e : EP) {f : Core → Core} (hs : ∀ c, (f c).slots = c.slots) (hp : ∀ c, (f c).spad = c.spad) :
    ReadOnly s (s.modCore e f) :=
  ⟨fun _ n => thr?_modCore_of_slots hs n, core_modCore_of_keeps (g := Core.spad) hp s e, rfl, rfl, rfl, rfl⟩

theorem modPkg (s : State) (i : Nat) (f : Pkg → Pkg) : ReadOnly s (s.modPkg i f) := of_cores rfl rfl rfl rfl rfl

theorem event (s : State) (p k a e n : Nat) (d : Word) : ReadOnly s (s.event p k a e n d) := of_cores rfl rfl rfl rfl rfl

theorem modBuf (s : State) (e : EP) (f : List BufLine → List BufLine) : ReadOnly s (s.modBuf e f) :=
  modCore s e (fun _ => rfl) fun _ => rfl

theorem modLine (s : State) (e : EP) (line : Nat) (f : BufLine → BufLine) : ReadOnly s (s.modLine e line f) := modBuf ..

theorem withDram (s : State) (d c : Memory) : ReadOnly s { s with dram := d, check := c } := of_cores rfl rfl rfl rfl rfl

theorem storeLine (s : State) (line data : Nat) : ReadOnly s (storeLine s line data) := by
  unfold Machine.storeLine
  exact withDram ..

theorem storeMarker (s : State) (line : Nat) : ReadOnly s (storeMarker s line) := by
  unfold Machine.storeMarker
  exact withDram ..

theorem makeOchre (s : State) (e : EP) (line kind : Nat) : ReadOnly s (makeOchre s e line kind) :=
  ((modLine s e line _).trans (storeMarker ..)).trans (event ..)

theorem countFixed (s : State) (e : EP) (l : List Nat) : ReadOnly s (countFixed s e l) := modCore s e (fun _ => rfl) fun _ => rfl

/-- R83: the errors of a line are met. -/
theorem meetLineErrors (s : State) (e : EP) (pa n : Nat) : ReadOnly s (meetLineErrors s e pa n) := by
  unfold Machine.meetLineErrors
  split
  · exact refl s
  · next b _ =>
    dsimp only
    split
    · exact refl s
    · split
      · exact makeOchre ..
      · exact (modLine s e b.line _).trans (modCore _ e (fun _ => rfl) fun _ => rfl)

/-- R81: a line comes into the buffer. -/
theorem enterLine (s : State) (e : EP) (b : BufLine) : ReadOnly s (enterLine s e b) := by
  unfold Machine.enterLine
  split
  · exact modBuf ..
  · next v _ =>
    dsimp only
    have met : ReadOnly s (if v.dirty then Machine.meetLineErrors s e v.line 64 else s) := by
      split
      · exact meetLineErrors ..
      · exact refl s
    generalize (if v.dirty then Machine.meetLineErrors s e v.line 64 else s) = s' at met ⊢
    refine (met.trans ?_).trans (modBuf ..)
    split
    · split
      · exact storeLine ..
      · exact refl _
    · exact refl _
  · exact refl s

/-- R93, R95: a line is read from DRAM. -/
theorem enterRead (s : State) (e : EP) (line : Nat) : ReadOnly s (enterRead s e line) := by
  unfold Machine.enterRead
  dsimp only
  split
  · exact enterLine ..
  · split
    · exact (enterLine s e _).trans (makeOchre ..)
    · exact (countFixed s e _).trans (enterLine ..)

theorem unitReadLine (s : State) (line pa n : Nat) : ReadOnly s (unitReadLine s line pa n) := by
  unfold Machine.unitReadLine
  dsimp only
  split
  · exact refl s
  · split
    · exact refl s
    · split
      · split
        · exact refl s
        · exact meetLineErrors ..
      · exact enterRead ..

theorem unitRead (s : State) (pa n : Nat) : ReadOnly s (unitRead s pa n) := foldl (fun _ _ => unitReadLine ..) _ s

theorem noteEntry (s : State) (pkg kind i : Nat) : ReadOnly s (noteEntry s pkg kind i) := by
  unfold Machine.noteEntry
  split
  · exact refl s
  · exact (unitRead ..).trans (modPkg ..)

theorem readTables {s s' : State} {x : Uses} (h : readTables s x = some s') : ReadOnly s s' := by
  simp only [Machine.readTables] at h
  split at h
  · cases h
  · cases h
    exact (foldl (fun _ _ => noteEntry ..) _ s).trans (foldl (fun _ _ => unitRead ..) _ _)

end ReadOnly

/-- R470: of an entry of which the units keep a copy nothing is read. -/
theorem noteEntry_of_copied {s : State} {pkg kind i : Nat} (h : (tget (s.pkg pkg).copies (entryKey kind i)).isSome = true) :
    noteEntry s pkg kind i = s := by
  simp only [noteEntry, h, Bool.or_true, if_true]

theorem entryWaits_of_copied {s : State} {pkg kind i : Nat} (h : (tget (s.pkg pkg).copies (entryKey kind i)).isSome = true) :
    entryWaits s pkg kind i = false := by
  rw [Option.isSome_iff_ne_none] at h
  simp only [entryWaits, Option.isNone_eq_false_iff.2 (Option.isSome_iff_ne_none.2 h), Bool.and_false, Bool.false_and]

/-- R470: with every entry held as a copy, and no map to look into, nothing is read. -/
theorem readTables_of_copied {s : State} {x : Uses}
    (h : ∀ y ∈ x.entries, (tget (s.pkg y.1).copies (entryKey y.2.1 y.2.2)).isSome = true) (hw : x.words = []) :
    readTables s x = some s := by
  have hwaits : (x.entries.any fun (y : Nat × Nat × Nat) => entryWaits s y.1 y.2.1 y.2.2) = false :=
    List.any_eq_false.2 fun y hy => by rw [entryWaits_of_copied (h y hy)]; exact Bool.false_ne_true
  have hnoted : x.entries.foldl (fun s (y : Nat × Nat × Nat) => noteEntry s y.1 y.2.1 y.2.2) s = s := by
    revert h
    induction x.entries with
    | nil => intro _; rfl
    | cons y l ih =>
      intro h
      rw [List.foldl_cons, noteEntry_of_copied (h y (.head _))]
      exact ih fun y hy => h y (.tail _ hy)
  simp only [readTables, hw, List.any_nil, Bool.or_false, List.foldl_nil]
  rw [if_neg (by rw [hwaits]; exact Bool.false_ne_true), hnoted]

/-- R80, R470: what a step has read before it. -/
theorem tablesAreRead : TablesAreRead := fun _ _ => ⟨readTables_of_copied, fun _ h =>
  have k := ReadOnly.readTables h
  ⟨k.threads, k.spads, k.net, k.turn, k.clusters, k.dies⟩⟩

/-- An event of the agenda is the hardware step of its name. -/
theorem runEv_of_evOf {i : Instr} {ev : Ev} (h : evOf i = some ev) (s : State) : runEv ev s = exec i s := by
  cases i <;> cases h <;> rfl

theorem happen_of_read {s x : State} {ev : Ev} (h : readTables s (usesOfEv s ev) = some x) : happen s ev = runEv ev x := by
  simp only [happen, h]

theorem happen_of_waits {s : State} {ev : Ev} (h : readTables s (usesOfEv s ev) = none) : happen s ev = .next s := by
  simp only [happen, h]

/-- Between turns, the first of the agenda happens (log 2). -/
theorem step_of_agenda {s : State} {o : Occ} {rest : List Occ} (h : s.turn = none) (ha : s.agenda = o :: rest) :
    step s = happen ({ s with agenda := rest }.advance o.dt) o.ev := by
  simp only [step, h, nextOcc, ha]

theorem step_of_agenda_nil {s : State} (h : s.turn = none) (ha : s.agenda = []) : step s = .next (startRound s) := by
  simp only [step, h, nextOcc, ha]

/-- A step where no turn is under way (log 2). -/
theorem stepRunsAgenda : StepRunsAgenda := fun s h =>
  ⟨fun _ _ ha => ⟨fun _ hx => (step_of_agenda h ha).trans (happen_of_read hx), fun hx => (step_of_agenda h ha).trans (happen_of_waits hx)⟩,
    step_of_agenda_nil h, fun _ _ he => runEv_of_evOf he s⟩

/-- Settles O55: a step of a turn is its fetch, its decoder and `runInstr`; a step between turns is the first of the agenda. -/
theorem stepRunsDecodedInstruction : Obligations.StepRunsDecodedInstruction :=
  ⟨stepRunsDecoded, tablesAreRead, linesAreFetched, stepRunsAgenda⟩

end Sys2Proof.Machine
end

section
/-! The tag table (R57 to R59, R381): TLOOK, TINS and TDEL, and O27. -/

namespace Sys2Proof.Machine

/-- R381: the key of a tag-table instruction is bits 55:10 of its operand. -/
theorem tagKey_eq_extract (w : Word) : tagKey w = w.extractLsb' 10 46 := by
  simp only [tagKey, BitVec.extractLsb', Nat.shiftRight_eq_div_pow]

theorem allOnes_eq_neg_one : allOnes = -1 := by decide

/-- R57: an entry is the thread's own for an operand: it has its context and the operand's key. -/
def ownTag (t : Thread) (w : Word) (x : TagEntry) : Bool := x.ctx == t.ctx && x.key == tagKey w

theorem ownTag_eq_decide (t : Thread) (w : Word) :
    ownTag t w = fun x => decide (x.ctx = t.ctx ∧ x.key = w.extractLsb' 10 46) := by
  funext x
  rw [ownTag, tagKey_eq_extract, Bool.decide_and]
  rfl

/-- R59: an entry within the thread's allotment is told by its local slot, F and D. -/
theorem tagWord_of_within {t : Thread} {x : TagEntry} (h : t.sr.lbase.toNat ≤ x.slot)
    (hx : x.slot < t.sr.lbase.toNat + t.sr.lsize.toNat) :
    (tagWord t x).toNat = (x.slot - t.sr.lbase.toNat + x.f.toNat * 2 ^ 12 + x.d.toNat * 2 ^ 13) % 2 ^ 64 := by
  have hin : (decide (t.sr.lbase.toNat ≤ x.slot) && decide (x.slot - t.sr.lbase.toNat < t.sr.lsize.toNat)) = true := by simp; omega
  have bit (b : Bool) : b2n b = b.toNat := by cases b <;> rfl
  simp only [tagWord, hin, if_true, bit, BitVec.toNat_ofNat]

/-- R59: an entry outside it is told by all ones. -/
theorem tagWord_of_outside {t : Thread} {x : TagEntry}
    (h : ¬ (t.sr.lbase.toNat ≤ x.slot ∧ x.slot < t.sr.lbase.toNat + t.sr.lsize.toNat)) : tagWord t x = -1 := by
  have hout : ¬ (decide (t.sr.lbase.toNat ≤ x.slot) && decide (x.slot - t.sr.lbase.toNat < t.sr.lsize.toNat)) = true := by simp; omega
  simp only [tagWord, if_neg hout, allOnes_eq_neg_one]

section
variable {s : State} {u : Turn} {t : Thread} {gd : Guard} {d a b : Reg} {fill dirty wide : Bool}

/-- R59: TLOOK tells the entry that is the thread's own, or all ones. -/
theorem writes_tlook (h : Issues s u t (.tlook gd d a)) :
    Writes (.tlook gd d a) s u d ((((s.core u.ep).tags.find? (ownTag t (gr t a))).map (tagWord t)).getD allOnes) := by
  rw [Writes, Retires, exec_tlook, execTlook, issue_next h rfl rfl (by decide) (by decide) (lacks_tail (by decide) · · · _ _) (.inr rfl)]
  change Host.Outcome.next (s.retire u (·.putG d (match (s.core u.ep).tags.find? (ownTag t (gr t a)) with
    | some x => tagWord t x
    | none => allOnes))) = _
  cases (s.core u.ep).tags.find? (ownTag t (gr t a)) <;> rfl

/-- R58: a local slot outside the thread's allotment traps with cause 0x07. -/
theorem exec_tins_of_outside (h : Issues s u t (.tins gd a b fill dirty)) (hb : t.sr.lsize.toNat ≤ (gr t b).toNat) :
    exec (.tins gd a b fill dirty) s = .next (s.raise u 0x07 (gr t b) 0) := by
  rw [exec_tins, execTins, issue_next h rfl rfl (by decide) (by decide) (lacks_tail (by decide) · · · _ _) (.inr rfl)]
  simp only [hb, if_true]

/-- R58: the entry of the key is overwritten, or a free place taken, or with 512 entries there is none. -/
theorem exec_tins_of_within (h : Issues s u t (.tins gd a b fill dirty)) (hb : (gr t b).toNat < t.sr.lsize.toNat) {new : TagEntry}
    (hn : new = ⟨t.ctx, tagKey (gr t a), (gr t b).toNat + t.sr.lbase.toNat, fill, dirty⟩) :
    exec (.tins gd a b fill dirty) s = .next (
      if (s.core u.ep).tags.any (ownTag t (gr t a)) then (s.modCore u.ep fun c => { c with
        tags := (s.core u.ep).tags.map fun x => if ownTag t (gr t a) x then new else x }).retire u (·.p7 true)
      else if (s.core u.ep).tags.length < 512 then
        (s.modCore u.ep fun c => { c with tags := (s.core u.ep).tags ++ [new] }).retire u (·.p7 true)
      else s.retire u (·.p7 false)) := by
  subst hn
  rw [exec_tins, execTins, issue_next h rfl rfl (by decide) (by decide) (lacks_tail (by decide) · · · _ _) (.inr rfl)]
  simp only [Nat.not_le.2 hb, if_false]
  refine congrArg Host.Outcome.next (ite_congr rfl (fun _ => ?_) fun _ => ite_congr rfl (fun _ => ?_) fun _ => rfl) <;>
    exact congrArg (State.retire · u _) (modCore_congr rfl)

/-- R58: TDEL removes what it names, and tells by p7 whether there was any. -/
theorem exec_tdel_of_allowed (h : Issues s u t (.tdel gd a wide)) {gone : TagEntry → Bool}
    (hw : wide = true → t.sup = true ∧ (gr t a).setWidth 12 = t.ctx)
    (hg : gone = if wide then fun x => decide (x.ctx = t.ctx) else ownTag t (gr t a)) :
    exec (.tdel gd a wide) s = .next ((s.modCore u.ep fun c => { c with tags := (s.core u.ep).tags.filter fun x => !gone x }).retire u
      (·.p7 ((s.core u.ep).tags.any gone))) := by
  rw [exec_tdel, execTdel, issue_next h rfl rfl (by decide) (by decide) (lacks_tail (by decide) · · · _ _) (.inr rfl)]
  cases wide with
  | false =>
    subst hg
    simp only [Bool.false_and, Bool.false_eq_true, if_false]
    exact congrArg (fun m => Host.Outcome.next (State.retire m u _)) (modCore_congr rfl)
  | true =>
    obtain ⟨hs, hc⟩ := hw rfl
    have hctx : BitVec.ofNat 12 (gr t a).toNat = t.ctx := by rw [BitVec.ofNat_toNat, hc]
    subst hg
    simp only [hs, hctx, bne_self_eq_false, Bool.not_true, Bool.false_and, Bool.or_self, Bool.and_false, Bool.false_eq_true, if_false, if_true]
    exact congrArg (fun m => Host.Outcome.next (State.retire m u _)) (modCore_congr rfl)

/-- R58: a context-wide TDEL in user mode traps with cause 0x04. -/
theorem exec_tdel_of_user (h : Issues s u t (.tdel gd a true)) (hs : t.sup = false) :
    exec (.tdel gd a true) s = .next (s.raise u 0x04 0 0x0CA) := by
  rw [exec_tdel, execTdel, issue_next h rfl rfl (by decide) (by decide) (lacks_tail (by decide) · · · _ _) (.inr rfl)]
  simp only [hs, Bool.not_false, Bool.true_or, Bool.and_true, if_true]

end

/-- Settles O27, by what TLOOK, TINS and TDEL do with the entries that are the thread's own. -/
theorem tagTable : Obligations.TagTable := by
  unfold Obligations.TagTable
  intro s u t gd d a b fill dirty tags key mine base sets
  have own : ownTag t (gr t a) = fun x => decide (mine x) := ownTag_eq_decide t (gr t a)
  have none_of (h : ∀ x ∈ tags, ¬ mine x) (x : TagEntry) (hx : x ∈ tags) : ¬ decide (mine x) = true := by
    rw [decide_eq_true_eq]; exact h x hx
  refine ⟨fun h => ⟨_, writes_tlook h, fun x hx hbase hsize => ?within, fun x hx hout => ?outside, fun hnone => ?absent⟩,
    fun h hb hk => trapTaken_of_exec_raise (exec_tins_of_outside h hb) h.thread hk (by decide) (by decide) nofun, fun h hb => ?insert,
    fun h => exec_tdel_of_allowed h nofun own.symm, fun h hs hc => exec_tdel_of_allowed h (fun _ => ⟨hs, hc⟩) rfl,
    fun h hs hk => trapTaken_of_exec_raise (exec_tdel_of_user h hs) h.thread hk (by decide) (by decide) nofun⟩
  case within => rw [own, hx]; exact tagWord_of_within hbase hsize
  case outside => rw [own, hx]; exact tagWord_of_outside hout
  case absent => rw [own, List.find?_eq_none.2 (none_of hnone)]; rfl
  case insert =>
    intro new
    have hnew : new = ⟨t.ctx, tagKey (gr t a), (gr t b).toNat + t.sr.lbase.toNat, fill, dirty⟩ := by rw [tagKey_eq_extract]
    have hexec := exec_tins_of_within h hb hnew
    rw [own] at hexec
    refine ⟨fun ⟨x, hx, hmine⟩ => ?overwrite, fun hnone hroom => ?add, fun hnone hroom => ?full⟩
    case overwrite =>
      rw [if_pos (List.any_eq_true.2 ⟨x, hx, decide_eq_true hmine⟩)] at hexec
      simpa only [decide_eq_true_eq] using hexec
    case add => rwa [if_neg (by simpa using hnone), if_pos hroom] at hexec
    case full => rwa [if_neg (by simpa using hnone), if_neg (Nat.not_lt.2 hroom)] at hexec

end Sys2Proof.Machine
end

section
/-! Granules and accesses (R50 to R54, R286, R363): a granule's state set, a requester answered in its slot, and an access sent. -/

namespace Sys2Proof.Machine

section tdelete
variable {α : Type}

@[simp] theorem tget_tdelete_same (k : Nat) (t : Table α) : tget (tdelete k t) k = none := by
  induction t with
  | nil => rfl
  | cons y r ih =>
    obtain ⟨j, y⟩ := y
    by_cases h : j = k
    · simpa [tdelete, h] using ih
    · have hj : (j == k) = false := beq_eq_false_iff_ne.2 h
      simpa [tdelete, tget, h, hj] using ih

theorem tget_tdelete_other {k i : Nat} (t : Table α) (h : i ≠ k) : tget (tdelete k t) i = tget t i := by
  induction t with
  | nil => rfl
  | cons y r ih =>
    obtain ⟨j, y⟩ := y
    by_cases hj : j = k
    · have hi : (k == i) = false := beq_eq_false_iff_ne.2 h.symm
      simpa [tdelete, tget, hj, hi] using ih
    · by_cases hji : j = i
      · simp [tdelete, tget, hji, h]
      · simpa [tdelete, tget, hj, hji] using ih

end tdelete

/-- The granules of a core with one in another state: an empty one is not listed. -/
def putGran (a : Nat) (st : GState) (g : Table GState) : Table GState := if st == .empty then tdelete (a / 16) g else tput (a / 16) st g

theorem getD_putGran (a k : Nat) (st : GState) (g : Table GState) :
    (tget (putGran a st g) k).getD .empty = if k = a / 16 then st else (tget g k).getD .empty := by
  unfold putGran
  by_cases hk : k = a / 16
  · subst hk
    by_cases he : st = .empty
    · subst he; simp
    · rw [if_neg (by simpa using he), tget_tput_same, if_pos rfl]; rfl
  · rw [if_neg hk]
    split
    · rw [tget_tdelete_other _ hk]
    · rw [tget_tput_other _ _ hk]

section setGran
variable (s : State) (e i : EP) (a : Nat) (st : GState)

/-- R275: frames are marked ready outside the cores. -/
theorem markFrames_of_keeps {α : Type} {g : State → α} (hg : ∀ s k f, g (s.modCluster k f) = g s) : g (markFrames s e a) = g s := by
  unfold markFrames
  split
  · rfl
  · exact hg ..

theorem setGran_of_keeps {α : Type} {g : State → α} (hg : ∀ s k f, g (s.modCluster k f) = g s) :
    g (s.setGran e a st) = g (s.modCore e fun c => { c with gran := putGran a st c.gran }) := by
  have hput : s.setGran e a st = if st == .full then markFrames (s.modCore e fun c => { c with gran := putGran a st c.gran }) e a
    else s.modCore e fun c => { c with gran := putGran a st c.gran } := rfl
  rw [hput]
  split
  · exact markFrames_of_keeps _ _ _ hg
  · rfl

theorem setGran_cores : (s.setGran e a st).cores = (s.modCore e fun c => { c with gran := putGran a st c.gran }).cores :=
  setGran_of_keeps s e a st (g := State.cores) fun _ _ _ => rfl
@[simp] theorem setGran_net : (s.setGran e a st).net = s.net := setGran_of_keeps s e a st (g := State.net) fun _ _ _ => rfl
@[simp] theorem setGran_dram : (s.setGran e a st).dram = s.dram := setGran_of_keeps s e a st (g := State.dram) fun _ _ _ => rfl

theorem core_setGran : (s.setGran e a st).core i = (s.modCore e fun c => { c with gran := putGran a st c.gran }).core i := by
  simp only [State.core, setGran_cores]

theorem core_setGran_of_keeps {α : Type} {g : Core → α} (hg : ∀ c l, g { c with gran := l } = g c) :
    g ((s.setGran e a st).core i) = g (s.core i) := by
  rw [core_setGran]; exact core_modCore_of_keeps (fun c => hg c _) s e i

@[simp] theorem thr?_setGran (n : Nat) : (s.setGran e a st).thr? i n = s.thr? i n :=
  (setGran_of_keeps s e a st (g := fun s => s.thr? i n) fun _ _ _ => rfl).trans
    (thr?_modCore_of_slots (f := fun c => { c with gran := putGran a st c.gran }) (fun _ => rfl) n)

@[simp] theorem core_setGran_isSome : (tget (s.setGran e a st).cores i).isSome = (tget s.cores i).isSome := by
  rw [setGran_cores, core_modCore_isSome]

/-- R50: a granule's state is what was set last. -/
theorem granAt_setGran (h : (tget s.cores e).isSome = true) (x : Nat) :
    granAt (s.setGran e a st) e x = if x / 16 = a / 16 then st else granAt s e x := by
  rw [granAt, core_setGran, core_modCore_same h, getD_putGran]
  rfl

end setGran

section quiet
variable {s : State} {u : Turn} {t : Thread} {a n : Nat}

/-- R189: a plain write to words without entries aborts no region. -/
theorem abortPlain_of_stackOf_nil {e : EP} (h : ∀ w ∈ wordsOf a n, stackOf s e w = []) : abortPlain s e a n = s := by
  have hmet : ((s.core e).vbuf.filter fun v => (wordsOf a n).contains v.addr && !v.doomed) = [] := by
    rw [List.filter_eq_nil_iff]
    intro v hv hc
    rw [Bool.and_eq_true, List.contains_iff_mem] at hc
    have hempty := h v.addr hc.1
    rw [stackOf, List.filter_eq_nil_iff] at hempty
    exact hempty v hv (beq_self_eq_true _)
  simp only [abortPlain, hmet, List.isEmpty_nil, if_true]

theorem meetErrors_of_upsets_nil {e : EP} (h : (s.core e).upsets = []) : meetErrors s e a n = s := by
  simp only [meetErrors, h, List.isEmpty_nil, if_true]

/-- R54, R56: where nothing waits nothing is served. -/
theorem serveRange_of_no_waiters {e : EP} (hd : (s.core e).dtl = []) (ho : (s.core e).overflow = []) : serveRange s e a n = s := by
  simp only [serveRange, hd, ho, List.isEmpty_nil, if_true, State.admitAll, List.length_nil, admitOverflow]

end quiet

section locate

/-- A table entry that keeps what is looked for is found where it was. -/
theorem find?_tmod {α : Type} {p : α → Bool} {f : α → α} (hf : ∀ x, p (f x) = p x) (k : Nat) (t : Table α) :
    ((tmod k f t).find? fun x => p x.2).map (·.1) = (t.find? fun x => p x.2).map (·.1) := by
  induction t with
  | nil => rfl
  | cons y r ih =>
    obtain ⟨j, y⟩ := y
    by_cases hj : (j == k) = true
    · simp only [tmod, hj, if_true, List.find?_cons, hf]
      split <;> rfl
    · simp only [tmod, hj, Bool.false_eq_true, if_false, List.find?_cons]
      split
      · rfl
      · exact ih

theorem locate_eq_slot_iff {s : State} {e : EP} {uid n : Nat} :
    locate s e uid = .slot n ↔ ((s.core e).slots.find? fun x => x.2.uid == uid).map (·.1) = some n := by
  unfold locate
  have hfind : ((s.core e).slots.find? fun (_, t) => t.uid == uid) = (s.core e).slots.find? fun x => x.2.uid == uid := rfl
  rw [hfind]
  split
  · next m _ h => rw [h]; simp
  · next h =>
    rw [h]
    split
    · simp
    · split <;> simp

theorem locate_of_slots_eq {s s' : State} {e : EP} {uid n : Nat} (h : (s'.core e).slots = (s.core e).slots)
    (hl : locate s e uid = .slot n) : locate s' e uid = .slot n := by
  rw [locate_eq_slot_iff] at hl ⊢
  rw [h, hl]

/-- A thread that keeps its identity is found where it was. -/
theorem locate_modThr {s : State} {e : EP} {uid m n : Nat} {f : Thread → Thread} (hf : ∀ t, (f t).uid = t.uid)
    (hl : locate s e uid = .slot n) : locate (s.modThr e m f) e uid = .slot n := by
  rw [locate_eq_slot_iff] at hl ⊢
  by_cases hc : (tget s.cores e).isSome = true
  · rw [State.modThr, core_modCore_same hc]
    exact (find?_tmod (p := fun t : Thread => t.uid == uid) (fun t => by rw [hf]) m _).trans hl
  · rw [Bool.not_eq_true, Option.isSome_eq_false_iff, Option.isNone_iff_eq_none] at hc
    rwa [State.modThr, State.modCore, tmod_of_tget_eq_none _ hc]

end locate

/-- A thread that has parked (R259): what it keeps. -/
structure ParkedFrom (t t' : Thread) (k : Park) : Prop where
  park : t'.park = some k
  regs : t'.regs = t.regs
  specials : t'.sr = t.sr
  counters : t'.cnt = t.cnt
  pc : t'.pc = t.pc
  xfence : t'.xf = t.xf
  origin : t'.origin = t.origin
  pair : t'.pair = t.pair
  uid : t'.uid = t.uid

/-- R259, R286: what a slot holds once its thread has parked. -/
theorem thr?_parkAt {s : State} {u : Turn} {t : Thread} (ht : s.thr? u.ep u.slot = some t) (why : Wait) (kind path : Nat) (sent : Bool)
    (limit : Option Nat) (d : Reg) (aux ser : Nat) :
    ∃ t' k, (s.parkAt u why kind path sent limit d aux ser).thr? u.ep u.slot = some t' ∧ ParkedFrom t t' k ∧
      k.why = why ∧ k.dst = d ∧ k.next = u.next ∧ k.aux = aux ∧ k.ser = ser := by
  rw [State.parkAt, thr?_noTurn, thr?_modThr, ht, Option.map_some]
  exact ⟨_, _, rfl, ⟨rfl, rfl, rfl, rfl, rfl, rfl, rfl, rfl, rfl⟩, rfl, rfl, rfl, rfl, rfl⟩

/-- R259: an instruction that waits for a condition leaves its thread parked. -/
theorem waits_of_exec_waitEver {i : Instr} {s : State} {u : Turn} {t : Thread} {c : Until} (he : exec i s = .next (s.waitEver u c))
    (ht : s.thr? u.ep u.slot = some t) : Waits i s u t c := by
  obtain ⟨t', k, hthr, hp, hwhy, -⟩ := thr?_parkAt ht (.again c) 7 0 false none 0 0 0
  exact ⟨_, t', k, he, hthr, hp.park, hwhy, hp.regs, hp.specials, hp.pc, rfl, rfl⟩

/-- R107, R286, R363: an access that is sent leaves its thread parked. -/
theorem asks_of_exec_ask {i : Instr} {s : State} {u : Turn} {t : Thread} {dst vc ebit kind path size : Nat} {why : Wait} {d : Reg}
    {operand : Word} {body : Body} (he : exec i s = .next (s.ask u t dst vc ebit why kind path d operand size body))
    (ht : s.thr? u.ep u.slot = some t) (hx : t.xf = none) : Asks i s u t dst ebit body why d := by
  simp only [State.ask, hx, Option.isSome_none, Bool.false_eq_true, if_false] at he
  obtain ⟨t', k, hthr, hp, hwhy, hdst, hnext, -, hser⟩ := thr?_parkAt (t := t)
    (s := { s with nextUid := s.nextUid + 1 }.send u.ep dst vc (reqOf u.ep u.slot t (16 + 32 * s.nextUid) ebit) (carryOf u.ep t) body)
    ht why kind path (kind ≤ 6) none d (operand.toNat + size * 2 ^ 64) s.nextUid
  have hstage : (if (epPkg u.ep == epPkg dst) = true then Stage.arrived else .egress) = if epPkg u.ep = epPkg dst then .arrived else .egress := by
    simp only [beq_iff_eq]
  exact ⟨_, _, t', k, he, rfl, rfl, rfl, rfl, hstage, rfl, rfl, rfl, rfl, rfl, rfl, by rw [hser]; rfl, hthr, hp.park, hwhy, hdst, hnext,
    hp.regs, hp.pc, hp.specials, hp.counters, rfl, rfl, fun e => core_modThr_spad ..⟩

end Sys2Proof.Machine
end

section
/-! The states of a block (R52, R368, R369): FESET and FEGET, and O24. -/

namespace Sys2Proof.Machine

/-- What each step of a fold keeps, the fold keeps. -/
theorem foldl_of_keeps {σ α β : Type} {g : σ → β} {f : σ → α → σ} (hf : ∀ s x, g (f s x) = g s) (l : List α) (s : σ) :
    g (l.foldl f s) = g s := by
  induction l generalizing s with
  | nil => rfl
  | cons x l ih => rw [List.foldl_cons, ih, hf]

/-- The state that FESET's code names (R368). -/
def blockState : Nat → GState
  | 0 => .empty
  | 1 => .full
  | _ => .ochre

/-- One granule of FESET's block. -/
def setBlockGran (e : EP) (a : Nat) (mask : Word) (st : Nat) (s : State) (i : Nat) : State :=
  if bitAt mask.toNat i then s.setGran e (a / 1024 * 1024 + 16 * i) (blockState st) else s

theorem setBlock_eq_foldl (s : State) (e : EP) (a : Nat) (mask : Word) (st : Nat) :
    setBlock s e a mask st = (List.range 64).foldl (setBlockGran e a mask st) s := rfl

section setBlock
variable (s : State) (e : EP) (a : Nat) (mask : Word) (st : Nat)

theorem setBlockGran_of_keeps {α : Type} {g : State → α} (hg : ∀ s a st, g (s.setGran e a st) = g s) (i : Nat) :
    g (setBlockGran e a mask st s i) = g s := by
  unfold setBlockGran
  split
  · exact hg ..
  · rfl

theorem setBlock_of_keeps {α : Type} {g : State → α} (hg : ∀ s a st, g (s.setGran e a st) = g s) :
    g (setBlock s e a mask st) = g s := by
  rw [setBlock_eq_foldl]
  exact foldl_of_keeps (fun s i => setBlockGran_of_keeps s e a mask st hg i) _ s

theorem core_setBlock_of_keeps {α : Type} {g : Core → α} (hg : ∀ c l, g { c with gran := l } = g c) (i : EP) :
    g ((setBlock s e a mask st).core i) = g (s.core i) :=
  setBlock_of_keeps s e a mask st (g := fun s => g (s.core i)) fun s a st => core_setGran_of_keeps s e i a st hg

@[simp] theorem setBlock_net : (setBlock s e a mask st).net = s.net := 
  setBlock_of_keeps s e a mask st (g := State.net) fun s a st => setGran_net s e a st

@[simp] theorem thr?_setBlock (i : EP) (n : Nat) : (setBlock s e a mask st).thr? i n = s.thr? i n :=
  setBlock_of_keeps s e a mask st (g := fun s => s.thr? i n) fun s a st => thr?_setGran s e i a st n

variable {s e}

/-- R52: of the block's first granules those that the mask names have the new state. -/
theorem granAt_foldl_setBlockGran (h : (tget s.cores e).isSome = true) (x : Nat) {n : Nat} (hn : n ≤ 64) :
    granAt ((List.range n).foldl (setBlockGran e a mask st) s) e x =
      if x / 1024 = a / 1024 ∧ x % 1024 / 16 < n ∧ bitAt mask.toNat (x % 1024 / 16) = true then blockState st else granAt s e x := by
  induction n with
  | zero => rw [if_neg (by omega)]; rfl
  | succ n ih =>
    have hcore : (tget ((List.range n).foldl (setBlockGran e a mask st) s).cores e).isSome = true := by
      rw [foldl_of_keeps (g := fun s => (tget s.cores e).isSome)
        (fun s i => setBlockGran_of_keeps s e a mask st (g := fun s => (tget s.cores e).isSome) (fun s a st => core_setGran_isSome s e e a st) i)]
      exact h
    rw [List.range_succ, List.foldl_append, List.foldl_cons, List.foldl_nil, setBlockGran]
    have hgran : x / 16 = (a / 1024 * 1024 + 16 * n) / 16 ↔ x / 1024 = a / 1024 ∧ x % 1024 / 16 = n := by omega
    by_cases hb : bitAt mask.toNat n = true
    · rw [if_pos hb, granAt_setGran _ _ _ _ hcore, ih (by omega)]
      by_cases hx : x / 1024 = a / 1024 ∧ x % 1024 / 16 = n
      · obtain ⟨hblock, rfl⟩ := hx
        rw [if_pos (hgran.2 ⟨hblock, rfl⟩), if_pos ⟨hblock, by omega, hb⟩]
      · rw [if_neg (mt hgran.1 hx)]
        refine if_congr ?_ rfl rfl
        exact and_congr_right fun hblock => and_congr_left fun _ => by
          have : x % 1024 / 16 ≠ n := fun hxn => hx ⟨hblock, hxn⟩
          omega
    · rw [if_neg hb, ih (by omega)]
      refine if_congr ?_ rfl rfl
      refine and_congr_right fun _ => and_congr_left fun hbit => ?_
      have : x % 1024 / 16 ≠ n := fun hxn => hb (hxn ▸ hbit)
      omega

/-- R52, R368: FESET sets the granules of the block that its mask names, and no other. -/
theorem granAt_setBlock (h : (tget s.cores e).isSome = true) (x : Nat) : granAt (setBlock s e a mask st) e x =
    if x / 1024 = a / 1024 ∧ bitAt mask.toNat (x % 1024 / 16) = true then blockState st else granAt s e x := by
  rw [setBlock_eq_foldl, granAt_foldl_setBlockGran a mask st h x (Nat.le_refl 64)]
  refine if_congr (and_congr_right fun _ => and_iff_right ?_) rfl rfl
  omega

end setBlock

/-- A sum of powers of two, each at most once, has the bits that it names. -/
theorem testBit_sum_two_pow (p : Nat → Bool) (n : Nat) :
    ((List.range n).map fun i => if p i then 2 ^ i else 0).sum < 2 ^ n ∧
    ∀ i < n, ((List.range n).map fun i => if p i then 2 ^ i else 0).sum.testBit i = p i := by
  induction n with
  | zero => exact ⟨Nat.one_pos, nofun⟩
  | succ n ih =>
    obtain ⟨hlt, hbits⟩ := ih
    rw [List.range_succ, List.map_append, List.sum_append, List.map_singleton, List.sum_singleton, Nat.add_comm _ (ite ..)]
    have hlow : (List.map (fun i => if p i then 2 ^ i else 0) (List.range n)).sum.testBit n = false := Nat.testBit_lt_two_pow hlt
    cases hp : p n with
    | false =>
      simp only [Bool.false_eq_true, if_false, Nat.zero_add]
      refine ⟨hlt.trans (Nat.pow_lt_pow_succ Nat.one_lt_two), fun i hi => ?_⟩
      rcases Nat.lt_succ_iff_lt_or_eq.1 hi with hi | rfl
      · exact hbits i hi
      · rw [hlow, hp]
    | true =>
      simp only [if_true]
      refine ⟨by rw [Nat.pow_succ]; omega, fun i hi => ?_⟩
      rcases Nat.lt_succ_iff_lt_or_eq.1 hi with hi | rfl
      · rw [Nat.testBit_two_pow_add_gt hi, hbits i hi]
      · rw [Nat.testBit_two_pow_add_eq, hlow, hp]; rfl

/-- R52, R369: FEGET's bitmap. -/
theorem getLsbD_granMap (s : State) (e : EP) (a : Nat) (o : Bool) {i : Nat} (hi : i < 64) : (word (granMap s e a o)).getLsbD i =
    decide (granAt s e (a / 1024 * 1024 + 16 * i) = if o = true then .ochre else .full) := by
  have hbit := (testBit_sum_two_pow (fun i => granAt s e (a / 1024 * 1024 + 16 * i) == if o then .ochre else .full) 64).2 i hi
  rw [word, BitVec.getLsbD_ofNat, decide_eq_true hi, Bool.true_and, granMap, hbit]
  rfl

section access
variable {s : State} {u : Turn} {t : Thread} {ea : Word} {acc : Access} {d : Reg}

theorem blockAccess_of_fabric {r : Route}
    (h : checkPlace s u.ep t (BitVec.ofNat 64 (ea.toNat / 1024 * 1024)) 1024 0x13 = .ok (.fabric r)) : blockAccess s u t ea acc d =
      s.ask u t r.dst (vcOfThread s u.ep t) r.ebit .answer 5 0 d ea 8 (.access r.vcore r.off r.phys acc none false false) := by
  simp only [blockAccess, h, State.checked]

variable {phys : Nat} (h : checkPlace s u.ep t (BitVec.ofNat 64 (ea.toNat / 1024 * 1024)) 1024 0x13 = .ok (.local_ phys))
  (hp : Plain s u t (wordsOf phys 1024))
include h hp

/-- R368: a local FESET sets its block where nobody waits. -/
theorem blockAccess_feset {mask : Word} {st : Nat} (hd : (s.core u.ep).dtl = []) (ho : (s.core u.ep).overflow = []) :
    blockAccess s u t ea (.feset mask st) d = (setBlock s u.ep phys mask st).retire u id := by
  have hsealed : anySealed s u.ep phys 1024 = false := anySealed_of_stackOf_nil hp.entries
  have hperform : perform s u.ep phys (.feset mask st) (reqOf u.ep u.slot t 17 0) (carryOf u.ep t) true =
      (setBlock s u.ep phys mask st, some (.ack 0)) := rfl
  simp only [blockAccess, h, State.checked, hsealed, hp.ordered, hperform, Bool.false_eq_true, if_false]
  have keeps {α : Type} {g : Core → α} (hg : ∀ c l, g { c with gran := l } = g c) (ht : ∀ c l, g { c with slots := l } = g c) :
      g (((setBlock s u.ep phys mask st).retire u id).core u.ep) = g (s.core u.ep) :=
    (core_retire_of_keeps ht ..).trans (core_setBlock_of_keeps _ _ _ _ _ hg _)
  exact serveRange_of_no_waiters ((keeps (g := Core.dtl) (fun _ _ => rfl) fun _ _ => rfl).trans hd)
    ((keeps (g := Core.overflow) (fun _ _ => rfl) fun _ _ => rfl).trans ho)

/-- R369: a local FEGET writes its bitmap. -/
theorem blockAccess_feget {o : Bool} :
    blockAccess s u t ea (.feget o) d = s.retire u (·.putG d (word (granMap s u.ep phys o))) := by
  have hsealed : anySealed s u.ep phys 1024 = false := anySealed_of_stackOf_nil hp.entries
  have hperform : perform s u.ep phys (.feget o) (reqOf u.ep u.slot t 17 0) (carryOf u.ep t) true =
      (s, some (.value (granMap s u.ep phys o) 0)) := rfl
  simp only [blockAccess, h, State.checked, hsealed, hp.ordered, hperform, Bool.false_eq_true, if_false]

end access

section issued
variable {s : State} {u : Turn} {t : Thread} {gd : Guard} {d a b : Reg} {st : BitVec 2} {o : Bool} (hr : t.region = none)
include hr

theorem exec_feset_of_issues (h : Issues s u t (.feset gd a b st)) :
    exec (.feset gd a b st) s = .next (blockAccess s u t (gr t a) (.feset (gr t b) st.toNat) 0) := by
  rw [exec_feset, execFeset, issue_next h rfl rfl (by decide) (by decide) (lacks_tail (by decide) · · · _ _) (.inl hr)]

theorem exec_feget_of_issues (h : Issues s u t (.feget gd d a o)) :
    exec (.feget gd d a o) s = .next (blockAccess s u t (gr t a) (.feget o) d) := by
  rw [exec_feget, execFeget, issue_next h rfl rfl (by decide) (by decide) (lacks_tail (by decide) · · · _ _) (.inl hr)]

end issued

/-- Settles O24: a local block by what `setBlock` does to each granule and by the bits of `granMap`, a block on another core by the access
that is sent. -/
theorem blockStates : Obligations.BlockStates := by
  unfold Obligations.BlockStates
  intro s u t gd d a b st o phys r base blk hr
  refine ⟨fun hl hp hd ho => ⟨fun h => ?set, fun h => ?get⟩, fun hf => ⟨fun h => ?askSet, fun h => ?askGet⟩⟩
  case set =>
    have hcore := core_isSome_of_thr? h.thread
    have bit (w : Word) (i : Nat) : bitAt w.toNat i = w.getLsbD i := by
      rw [← BitVec.testBit_toNat, Nat.testBit_eq_decide_div_mod_eq]; rfl
    have gran (x : Nat) : granAt ((setBlock s u.ep phys (gr t b) st.toNat).retire u id) u.ep x =
        granAt (setBlock s u.ep phys (gr t b) st.toNat) u.ep x := by
      simp only [granAt]
      rw [core_retire_of_keeps (g := Core.gran) fun _ _ => rfl]
    refine ⟨_, (exec_feset_of_issues hr h).trans (congrArg _ (blockAccess_feset hl hp hd ho)), ?spad, ?thread, ?net, fun i hi => ?inside,
      fun x hx => ?outside⟩
    case spad => rw [core_retire_spad]; exact core_setBlock_of_keeps (g := Core.spad) _ _ _ _ _ (fun _ _ => rfl) _
    case thread => rw [thr?_retire, thr?_setBlock, h.thread]; rfl
    case net => exact setBlock_net ..
    case inside =>
      have hblock : (blk + 16 * i) / 1024 = phys / 1024 := by omega
      have hindex : (blk + 16 * i) % 1024 / 16 = i := by omega
      rw [gran, granAt_setBlock _ _ _ hcore, hindex, bit]
      exact if_congr (and_iff_right hblock) rfl rfl
    case outside => rw [gran, granAt_setBlock _ _ _ hcore, if_neg (fun hc => hx hc.1)]
  case get => exact ⟨_, (exec_feget_of_issues hr h).trans (congrArg _ (blockAccess_feget hl hp)), fun i hi => getLsbD_granMap s u.ep phys o hi⟩
  case askSet => exact asks_of_exec_ask ((exec_feset_of_issues hr h).trans (congrArg _ (blockAccess_of_fabric hf))) h.thread h.calm
  case askGet => exact asks_of_exec_ask ((exec_feget_of_issues hr h).trans (congrArg _ (blockAccess_of_fabric hf))) h.thread h.calm

end Sys2Proof.Machine
end

section
/-! TAKE, PEEK and PUT (R51, R53, R54, R366, R367): performed at once in the own scratchpad, or sent to the owner. -/

namespace Sys2Proof.Machine

section regs
variable {t t' : Thread}

theorem Thread.setG_regs (t : Thread) (r : Reg) (v : Word) : (t.setG r v).regs =
    if r == 0 then t.regs else { t.regs with g := t.regs.g.set r.toFin.val v r.toFin.isLt } := by
  unfold Thread.setG
  split <;> rfl

theorem Thread.putP_regs (t : Thread) (p : Pred) (b : Bool) : (t.putP p b).regs = if p == 0 then t.regs else { t.regs with
    p := if b then t.regs.p ||| (1#8 <<< p.toNat) else t.regs.p &&& ~~~(1#8 <<< p.toNat) } := by
  unfold Thread.putP
  split <;> rfl

/-- R321: what a register write makes of the registers depends on them alone. -/
theorem Thread.putG_regs_congr (h : t.regs = t'.regs) (r : Reg) (v : Word) : (t.putG r v).regs = (t'.putG r v).regs := by
  rw [Thread.putG, Thread.putG, Thread.setG_regs, Thread.setG_regs]
  simp only [Thread.unpend, h]

theorem Thread.p7_regs_congr (h : t.regs = t'.regs) (b : Bool) : (t.p7 b).regs = (t'.p7 b).regs := by
  rw [Thread.p7, Thread.p7, Thread.putP_regs, Thread.putP_regs, h]

theorem Thread.putWide_regs_congr (h : t.regs = t'.regs) (d : Reg) (n v : Nat) : (t.putWide d n v).regs = (t'.putWide d n v).regs := by
  unfold Thread.putWide
  split
  · exact Thread.putG_regs_congr (Thread.putG_regs_congr h ..) ..
  · exact Thread.putG_regs_congr h ..

@[simp] theorem Thread.putG_sr (t : Thread) (r : Reg) (v : Word) : (t.putG r v).sr = t.sr := by
  unfold Thread.putG Thread.setG
  split <;> rfl

@[simp] theorem Thread.p7_sr (t : Thread) (b : Bool) : (t.p7 b).sr = t.sr := by
  unfold Thread.p7 Thread.putP
  split <;> rfl

@[simp] theorem Thread.putWide_sr (t : Thread) (d : Reg) (n v : Nat) : (t.putWide d n v).sr = t.sr := by
  unfold Thread.putWide
  split <;> simp

end regs

/-- An access has set the state of one granule and bytes of the scratchpad of its core, and nothing else that a later access looks at. -/
structure GranuleSet (s s' : State) (e : EP) (a : Nat) (m : Memory) (st : GState) : Prop where
  spad : (s'.core e).spad = m
  here : granAt s' e a = st
  others : ∀ x, x / 16 ≠ a / 16 → granAt s' e x = granAt s e x
  slots : (s'.core e).slots = (s.core e).slots
  waiters : (s'.core e).dtl = (s.core e).dtl
  overflow : (s'.core e).overflow = (s.core e).overflow
  watches : (s'.core e).watches = (s.core e).watches
  net : s'.net = s.net
  dram : s'.dram = s.dram
  threads : ∀ n, s'.thr? e n = s.thr? e n
  cores : ∀ i, i ≠ e → s'.core i = s.core i

section granuleSet
variable {s s' : State} {e : EP} {a : Nat} {m : Memory} {st : GState}

/-- A PEEK changes nothing. -/
theorem GranuleSet.refl (h : granAt s e a = st) : GranuleSet s s e a (s.core e).spad st :=
  ⟨rfl, h, fun _ _ => rfl, rfl, rfl, rfl, rfl, rfl, rfl, fun _ => rfl, fun _ _ => rfl⟩

theorem GranuleSet.setGran (h : (tget s.cores e).isSome = true) (a : Nat) (st : GState) :
    GranuleSet s (s.setGran e a st) e a (s.core e).spad st where
  spad := core_setGran_of_keeps s e e a st (g := Core.spad) fun _ _ => rfl
  here := by rw [granAt_setGran s e a st h, if_pos rfl]
  others x hx := by rw [granAt_setGran s e a st h, if_neg hx]
  slots := core_setGran_of_keeps s e e a st (g := Core.slots) fun _ _ => rfl
  waiters := core_setGran_of_keeps s e e a st (g := Core.dtl) fun _ _ => rfl
  overflow := core_setGran_of_keeps s e e a st (g := Core.overflow) fun _ _ => rfl
  watches := core_setGran_of_keeps s e e a st (g := Core.watches) fun _ _ => rfl
  net := setGran_net ..
  dram := setGran_dram ..
  threads n := thr?_setGran ..
  cores i hi := by rw [core_setGran, core_modCore_other hi]

/-- Bytes written before do not show in the granules. -/
theorem GranuleSet.of_spadWrite {b n v : Nat} (h : GranuleSet (s.spadWrite e b n v) s' e a m st) : GranuleSet s s' e a m st := by
  have keeps {α : Type} {g : Core → α} (hg : ∀ c l k, g { c with spad := l, upsets := k } = g c) (i : EP) :
      g ((s.spadWrite e b n v).core i) = g (s.core i) := core_modCore_of_keeps (fun c => hg c _ _) s e i
  exact {
    spad := h.spad
    here := h.here
    others := fun x hx => (h.others x hx).trans (by simp only [granAt]; rw [keeps (g := Core.gran) fun _ _ _ => rfl])
    slots := h.slots.trans (keeps (g := Core.slots) (fun _ _ _ => rfl) e)
    waiters := h.waiters.trans (keeps (g := Core.dtl) (fun _ _ _ => rfl) e)
    overflow := h.overflow.trans (keeps (g := Core.overflow) (fun _ _ _ => rfl) e)
    watches := h.watches.trans (keeps (g := Core.watches) (fun _ _ _ => rfl) e)
    net := h.net
    dram := h.dram
    threads := fun k => (h.threads k).trans (thr?_modCore_of_slots
      (f := fun c => { c with spad := mwrite c.spad b n v, upsets := clearErrors c.upsets b n }) (fun _ => rfl) k)
    cores := fun i hi => (h.cores i hi).trans (core_modCore_other hi) }

theorem core_spadWrite_spad (h : (tget s.cores e).isSome = true) (a n v : Nat) :
    ((s.spadWrite e a n v).core e).spad = mwrite (s.core e).spad a n v := by
  rw [State.spadWrite, core_modCore_same h]

end granuleSet

/-- An access is performed at its owner with an answer, and sets one granule (R51). -/
def PerformedAs (s : State) (e : EP) (a : Nat) (acc : Access) (ans : Answer) (m : Memory) (st : GState) : Prop :=
  ∃ s', (∀ req carry here, perform s e a acc req carry here = (s', some ans)) ∧ GranuleSet s s' e a m st

section perform
variable {s : State} {e : EP} {a n : Nat} {sg : Bool} {w : Word} {v : Nat} {m : Memory} (hm : (s.core e).spad = m)
include hm

/-- R51: a TAKE of a full granule reads it and empties it. -/
theorem performedAs_take (hc : (tget s.cores e).isSome = true) (hup : (s.core e).upsets = []) (hg : granAt s e a = .full) :
    PerformedAs s e a (.take n sg w) (.value (extend n sg (mread m a n)) 0) m .empty := by
  subst hm
  refine ⟨_, fun req carry here => ?_, GranuleSet.setGran hc a .empty⟩
  simp only [perform, Access.writes, hg, Access.size, meetErrors_of_upsets_nil hup, Bool.false_and, Bool.false_eq_true, beq_self_eq_true,
    if_false, if_true, spadRead]

/-- R51: a PEEK of a full granule reads it. -/
theorem performedAs_peek (hup : (s.core e).upsets = []) (hg : granAt s e a = .full) :
    PerformedAs s e a (.peek n sg w) (.value (extend n sg (mread m a n)) 0) m .full := by
  subst hm
  refine ⟨_, fun req carry here => ?_, GranuleSet.refl hg⟩
  simp only [perform, Access.writes, hg, Access.size, meetErrors_of_upsets_nil hup, Bool.false_and, Bool.false_eq_true, beq_self_eq_true,
    if_false, if_true, spadRead]

variable (hc : (tget s.cores e).isSome = true) (hab : abortPlain s e a n = s)
include hc hab

/-- R51: a PUT on an empty granule writes its bytes and fills it. -/
theorem performedAs_put_of_empty (hg : granAt s e a = .empty) : PerformedAs s e a (.put n v w) (.ack 0) (mwrite m a n v) .full := by
  subst hm
  have hset := GranuleSet.setGran (s := s.spadWrite e a n v) (e := e) (core_modCore_isSome.trans hc) a .full
  rw [core_spadWrite_spad hc] at hset
  refine ⟨_, fun req carry here => ?_, hset.of_spadWrite⟩
  have hfull : (GState.empty == GState.full) = false := rfl
  simp only [perform, Access.writes, hg, Access.size, hab, hfull, Bool.not_false, Bool.and_self, if_true]

/-- R51: a PUT on an ochre granule writes its bytes, the others become 0, and fills it. -/
theorem performedAs_put_of_ochre (hg : granAt s e a = .ochre) :
    PerformedAs s e a (.put n v w) (.ack 0) (mwrite (mwrite m (a / 16 * 16) 16 0) a n v) .full := by
  subst hm
  have hc' : (tget (s.spadWrite e (a / 16 * 16) 16 0).cores e).isSome = true := core_modCore_isSome.trans hc
  have hset := GranuleSet.setGran (s := (s.spadWrite e (a / 16 * 16) 16 0).spadWrite e a n v) (e := e)
    (core_modCore_isSome.trans hc') a .full
  rw [core_spadWrite_spad hc', core_spadWrite_spad hc] at hset
  refine ⟨_, fun req carry here => ?_, hset.of_spadWrite.of_spadWrite⟩
  have hfull : (GState.ochre == GState.full) = false := rfl
  simp only [perform, Access.writes, hg, Access.size, hab, hfull, Bool.not_false, Bool.and_self, if_true]

end perform

/-- The thread of a full/empty access on the own scratchpad has parked for its answer (R366). -/
def feParked (s : State) (u : Turn) (ea : Word) (n : Nat) (d : Reg) : State :=
  { s with nextUid := s.nextUid + 1 }.parkAt u .fullEmpty 6 0 false none d (ea.toNat + n * 2 ^ 64) s.nextUid

section feParked
variable {s : State} {u : Turn} {t : Thread} {ea : Word} {n : Nat} {d : Reg}

theorem core_feParked_of_keeps {α : Type} {g : Core → α} (hg : ∀ c l, g { c with slots := l } = g c) (e : EP) :
    g ((feParked s u ea n d).core e) = g (s.core e) := core_modThr_of_keeps hg { s with nextUid := s.nextUid + 1 } u.ep e u.slot _

theorem core_feParked_other {e : EP} (h : e ≠ u.ep) : (feParked s u ea n d).core e = s.core e := by
  rw [feParked, State.parkAt, core_noTurn, State.modThr, core_modCore_other h]
  rfl

theorem granAt_feParked (e : EP) (x : Nat) : granAt (feParked s u ea n d) e x = granAt s e x := by
  simp only [granAt]
  rw [core_feParked_of_keeps (g := Core.gran) fun _ _ => rfl]

theorem stackOf_feParked (e : EP) (w : Nat) : stackOf (feParked s u ea n d) e w = stackOf s e w := by
  simp only [stackOf]
  rw [core_feParked_of_keeps (g := Core.vbuf) fun _ _ => rfl]

theorem core_feParked_isSome (e : EP) : (tget (feParked s u ea n d).cores e).isSome = (tget s.cores e).isSome :=
  core_modCore_isSome (s := { s with nextUid := s.nextUid + 1 })

theorem locate_feParked {e : EP} {uid k : Nat} (h : locate s e uid = .slot k) (he : e = u.ep) :
    locate (feParked s u ea n d) e uid = .slot k := by
  subst he
  exact locate_modThr (s := { s with nextUid := s.nextUid + 1 }) (fun _ => rfl) h

/-- R286, R366: the parked thread waits for the answer with the number of its access, and keeps its operand's size. -/
theorem thr?_feParked (ht : s.thr? u.ep u.slot = some t) :
    ∃ t' k, (feParked s u ea n d).thr? u.ep u.slot = some t' ∧ ParkedFrom t t' k ∧ k.why = .fullEmpty ∧ k.dst = d ∧ k.next = u.next ∧
      k.size = n ∧ k.ser = s.nextUid := by
  obtain ⟨t', k, hthr, hfrom, hwhy, hdst, hnext, haux, hser⟩ := thr?_parkAt (s := { s with nextUid := s.nextUid + 1 }) (u := u) ht
    .fullEmpty 6 0 false none d (ea.toNat + n * 2 ^ 64) s.nextUid
  refine ⟨t', k, hthr, hfrom, hwhy, hdst, hnext, ?_, hser⟩
  have := ea.isLt
  simp only [Park.size, haux]
  omega

end feParked

/-- What full/empty accesses are (R366). -/
def Access.fullEmpty : Access → Bool
  | .take .. | .peek .. | .put .. => true
  | _ => false

section feAccess
variable {s : State} {u : Turn} {t : Thread} {ea : Word} {acc : Access} {d : Reg}

theorem feAccess_of_fabric {r : Route} (h : checkPlace s u.ep t ea acc.size 0x13 = .ok (.fabric r)) (ha : acc.size ∣ ea.toNat) :
    feAccess s u t ea acc d = s.ask u t r.dst (vcOfThread s u.ep t) r.ebit .fullEmpty 6 0 d ea acc.size
      (.access r.vcore r.off r.phys acc none false false) := by
  simp only [feAccess, h, State.checked, checkAligned_of_dvd ha]

theorem feAccess_of_local {phys : Nat} (h : checkPlace s u.ep t ea acc.size 0x13 = .ok (.local_ phys)) (ha : acc.size ∣ ea.toNat)
    (hp : Plain s u t (wordsOf phys acc.size)) : feAccess s u t ea acc d = ownerAccess (feParked s u ea acc.size d) u.ep phys acc
      (reqOf u.ep u.slot t (16 + 32 * s.nextUid) 0) (carryOf u.ep t) true := by
  have hsealed : anySealed s u.ep phys acc.size = false := anySealed_of_stackOf_nil hp.entries
  simp only [feAccess, h, State.checked, checkAligned_of_dvd ha, hsealed, hp.ordered, withBanks, hp.granted, Bool.false_and, Bool.or_self,
    Bool.false_eq_true, if_false, ite_self]
  rfl

/-- R54: a full/empty access that is performed is answered, and no more follows where nobody waits. -/
theorem ownerAccess_of_fullEmpty {e : EP} {a : Nat} {req : Req} {carry : Carry} {s' : State} {ans : Answer} (hacc : acc.fullEmpty = true)
    (hp : perform s e a acc req carry true = (s', some ans)) (hw : (s'.core e).watches = [])
    (hd : ((s'.settle req ans).core e).dtl = []) (ho : ((s'.settle req ans).core e).overflow = []) :
    ownerAccess s e a acc req carry true = s'.settle req ans := by
  simp only [ownerAccess, hp, answerRange_of_watches_nil hw, State.respond, if_true]
  cases acc with
  | take | put => exact serveRange_of_no_waiters hd ho
  | peek => rfl
  | _ => exact absurd hacc Bool.false_ne_true

end feAccess

/-- The value of an answer and p7, as a thread that waits for a full/empty access receives them (R360, R366). -/
def Thread.takeAnswer (t : Thread) (d : Reg) (n : Nat) : Answer → Thread
  | .value v _ => (t.putWide d n v).p7 true
  | _ => t.p7 true

theorem Thread.takeAnswer_regs_congr {t t' : Thread} (h : t.regs = t'.regs) (d : Reg) (n : Nat) (a : Answer) :
    (t.takeAnswer d n a).regs = (t'.takeAnswer d n a).regs := by
  cases a with
  | value v f => exact Thread.p7_regs_congr (Thread.putWide_regs_congr h ..) _
  | _ => exact Thread.p7_regs_congr h _

@[simp] theorem Thread.takeAnswer_sr (t : Thread) (d : Reg) (n : Nat) (a : Answer) : (t.takeAnswer d n a).sr = t.sr := by
  cases a <;> simp [Thread.takeAnswer]

/-- R366: an answer to a full/empty access of a thread in its slot lets it go on. -/
theorem settle_fullEmpty {s : State} {req : Req} {n : Nat} {t : Thread} {k : Park} {a : Answer}
    (hl : locate s req.ep req.uid = .slot n) (ht : s.thr? req.ep n = some t) (ho : t.origin = none) (hk : t.park = some k)
    (hi : req.entry = 16 + 32 * k.ser) (hw : k.why = .fullEmpty) (ha : (∃ v f, a = .value v f) ∨ ∃ f, a = .ack f) :
    s.settle req a = s.modThr req.ep n fun t => (t.takeAnswer k.dst k.size a).goTo k.next := by
  obtain ⟨bits, hset⟩ := settle_parked (a := a) hl ht ho hk hi
  rw [hset]
  rcases ha with ⟨v, f, rfl⟩ | ⟨f, rfl⟩ <;>
  · unfold settlePlain
    rw [hw]
    rfl

section ends
variable {s : State} {u : Turn} {t : Thread} {ea : Word} {acc : Access} {d : Reg} {phys n : Nat} {ans : Answer} {m : Memory}
  {st : GState}

/-- R366, R54: a full/empty access of the own core that is performed ends in its turn: its thread has the answer and goes on. -/
theorem fullEmpty_ends_of_perform (ht : s.thr? u.ep u.slot = some t) (hl : locate s u.ep t.uid = .slot u.slot) (ho : t.origin = none)
    (hpl : checkPlace s u.ep t ea n 0x13 = .ok (.local_ phys)) (ha : n ∣ ea.toNat) (hp : Plain s u t (wordsOf phys n))
    (hd : (s.core u.ep).dtl = []) (hov : (s.core u.ep).overflow = []) (hacc : acc.fullEmpty = true) (hn : acc.size = n)
    (hans : (∃ v f, ans = .value v f) ∨ ∃ f, ans = .ack f)
    (hperf : PerformedAs (feParked s u ea n d) u.ep phys acc ans m st) :
    ∃ s'' t', feAccess s u t ea acc d = s'' ∧ s''.thr? u.ep u.slot = some t' ∧ t'.regs = (t.takeAnswer d n ans).regs ∧ t'.sr = t.sr ∧
      t'.pc = u.next ∧ t'.park = none ∧ (s''.core u.ep).spad = m ∧ granAt s'' u.ep phys = st ∧
      (∀ x, x / 16 ≠ phys / 16 → granAt s'' u.ep x = granAt s u.ep x) ∧ s''.net = s.net ∧ s''.dram = s.dram ∧
      ∀ e ≠ u.ep, s''.core e = s.core e := by
  subst hn
  obtain ⟨s', hperf, hset⟩ := hperf
  obtain ⟨x, k, hx, hfrom, hwhy, hdst, hnext, hsize, hser⟩ := thr?_feParked (ea := ea) (n := acc.size) (d := d) ht
  have hx' : s'.thr? u.ep u.slot = some x := (hset.threads _).trans hx
  have hsettle : s'.settle (reqOf u.ep u.slot t (16 + 32 * s.nextUid) 0) ans =
      s'.modThr u.ep u.slot fun t => (t.takeAnswer d acc.size ans).goTo u.next := by
    rw [← hdst, ← hnext, ← hsize]
    exact settle_fullEmpty (locate_of_slots_eq hset.slots (locate_feParked hl rfl)) hx' (hfrom.origin.trans ho) hfrom.park
      (by rw [hser]; rfl) hwhy hans
  have kept {α : Type} {g : Core → α} (hg : ∀ c l, g { c with slots := l } = g c) (f : Thread → Thread) :
      g ((s'.modThr u.ep u.slot f).core u.ep) = g (s'.core u.ep) := core_modThr_of_keeps hg s' u.ep u.ep u.slot f
  have hw : (s'.core u.ep).watches = [] :=
    hset.watches.trans ((core_feParked_of_keeps (g := Core.watches) (fun _ _ => rfl) _).trans hp.watches)
  have hd' : (s'.core u.ep).dtl = [] := hset.waiters.trans ((core_feParked_of_keeps (g := Core.dtl) (fun _ _ => rfl) _).trans hd)
  have hov' : (s'.core u.ep).overflow = [] :=
    hset.overflow.trans ((core_feParked_of_keeps (g := Core.overflow) (fun _ _ => rfl) _).trans hov)
  refine ⟨s'.modThr u.ep u.slot fun t => (t.takeAnswer d acc.size ans).goTo u.next, (x.takeAnswer d acc.size ans).goTo u.next, ?access,
    ?thread, Thread.takeAnswer_regs_congr hfrom.regs .., (Thread.takeAnswer_sr ..).trans hfrom.specials, rfl, rfl,
    (kept (g := Core.spad) (fun _ _ => rfl) _).trans hset.spad, ?here, fun y hy => ?others, hset.net, hset.dram,
    fun e he => (core_modCore_other he).trans ((hset.cores e he).trans (core_feParked_other he))⟩
  case access =>
    rw [feAccess_of_local hpl ha hp, ← hsettle]
    refine ownerAccess_of_fullEmpty hacc (hperf ..) hw ?_ ?_ <;> rw [hsettle]
    · exact (kept (g := Core.dtl) (fun _ _ => rfl) _).trans hd'
    · exact (kept (g := Core.overflow) (fun _ _ => rfl) _).trans hov'
  case thread => rw [thr?_modThr, hx', Option.map_some]
  case here => rw [granAt, kept (g := Core.gran) fun _ _ => rfl]; exact hset.here
  case others =>
    rw [granAt, kept (g := Core.gran) fun _ _ => rfl]
    exact (hset.others y hy).trans (granAt_feParked ..)

end ends

section issued
variable {s : State} {u : Turn} {t : Thread} {gd : Guard} {d a b : Reg} {sz : BitVec 3} {sgn : Bool} (hr : t.region = none)
include hr

theorem exec_take_of_issues (h : Issues s u t (.take gd d a b sz sgn)) :
    exec (.take gd d a b sz sgn) s = .next (feAccess s u t (gr t a) (.take (sizeOf sz) sgn (gr t b)) d) := by
  rw [exec_take, execTake, issue_next h rfl rfl (by decide) (by decide) (lacks_tail (by decide) · · · _ _) (.inl hr)]

theorem exec_peek_of_issues (h : Issues s u t (.peek gd d a b sz sgn)) :
    exec (.peek gd d a b sz sgn) s = .next (feAccess s u t (gr t a) (.peek (sizeOf sz) sgn (gr t b)) d) := by
  rw [exec_peek, execPeek, issue_next h rfl rfl (by decide) (by decide) (lacks_tail (by decide) · · · _ _) (.inl hr)]

variable (h : Issues s u t (.put gd d a b sz)) {pl : Place} (hpl : checkPlace s u.ep t (gr t a) (sizeOf sz) 0x13 = .ok pl)
  (ha : sizeOf sz ∣ (gr t a).toNat) (hpark : t.park = none)
include h hpl ha hpark

/-- R367: a PUT whose paths are drained is performed with its whole timeout, where it has not waited before. -/
theorem exec_put_of_drained (hdr : drainedMask s u.ep t 0x19 0 = true) : exec (.put gd d a b sz) s =
    .next (feAccess s u t (gr t a) (.put (sizeOf sz) (wideReg t d (sizeOf sz)) (gr t b)) 0) := by
  have hleft : timeLeft s u.ep t (gr t b) = gr t b := by simp only [timeLeft, hpark, ite_self]
  rw [exec_put, execPut, issue_next h rfl rfl (by decide) (by decide) (lacks_tail (by decide) · · · _ _) (.inl hr)]
  simp only [hpl, State.checked, checkAligned_of_dvd ha, hdr, hleft, Bool.not_true, Bool.false_eq_true, if_false]

/-- R367, R260: a PUT whose paths are not drained waits for them, and with timeout 0 not at all. -/
theorem exec_put_of_undrained (hdr : drainedMask s u.ep t 0x19 0 = false) (hb : gr t b = 0) :
    exec (.put gd d a b sz) s = .next (s.retire u (·.p7 false)) := by
  have hover : waitedOut s u.ep t (deadline s u.ep (gr t b)) = true := by
    simp [waitedOut, hpark, deadline, hb, allOnes]
  rw [exec_put, execPut, issue_next h rfl rfl (by decide) (by decide) (lacks_tail (by decide) · · · _ _) (.inl hr)]
  simp only [hpl, State.checked, checkAligned_of_dvd ha, hdr, State.waitFor, hover, Bool.not_false, if_true]

end issued

/-- R51, R53, R54, R366: TAKE, PEEK and PUT of the own scratchpad. -/
theorem localFullEmpty : LocalFullEmpty := by
  unfold LocalFullEmpty
  intro s u t gd d a b sz sgn phys n c _ hpl ha hp hd hov _ hl ho hpark ends loaded
  have upsets (r : Reg) : ((feParked s u (gr t a) n r).core u.ep).upsets = [] :=
    (core_feParked_of_keeps (g := Core.upsets) (fun _ _ => rfl) _).trans hp.errors
  have spad (r : Reg) : ((feParked s u (gr t a) n r).core u.ep).spad = c.spad := core_feParked_of_keeps (g := Core.spad) (fun _ _ => rfl) _
  have core {i : Instr} (h : Issues s u t i) (r : Reg) : (tget (feParked s u (gr t a) n r).cores u.ep).isSome = true :=
    (core_feParked_isSome _).trans (core_isSome_of_thr? h.thread)
  have unmet (r : Reg) : abortPlain (feParked s u (gr t a) n r) u.ep phys n = feParked s u (gr t a) n r :=
    abortPlain_of_stackOf_nil fun w hw => (stackOf_feParked ..).trans (hp.entries w hw)
  have gran {st : GState} (hg : granAt s u.ep phys = st) (r : Reg) : granAt (feParked s u (gr t a) n r) u.ep phys = st :=
    (granAt_feParked ..).trans hg
  have finish {i : Instr} {acc : Access} {r : Reg} {ans : Answer} {m : Memory} {st : GState} (h : Issues s u t i)
      (he : exec i s = .next (feAccess s u t (gr t a) acc r)) (hacc : acc.fullEmpty = true) (hn : acc.size = n)
      (hans : (∃ v f, ans = .value v f) ∨ ∃ f, ans = .ack f) (hperf : PerformedAs (feParked s u (gr t a) n r) u.ep phys acc ans m st) :
      ends i (·.takeAnswer r n ans) m st := by
    obtain ⟨s', t', hfe, hrest⟩ := fullEmpty_ends_of_perform h.thread hl ho hpl ha hp hd hov hacc hn hans hperf
    exact ⟨s', t', he.trans (congrArg _ hfe), hrest⟩
  refine ⟨fun h hg => ?take, fun h hg => ?peek, fun h hdr hg => ?putEmpty, fun h hdr hg => ?putOchre⟩
  case take =>
    exact finish h (exec_take_of_issues hp.region h) rfl rfl (.inl ⟨_, _, rfl⟩) (performedAs_take (spad d) (core h d) (upsets d) (gran hg d))
  case peek =>
    exact finish h (exec_peek_of_issues hp.region h) rfl rfl (.inl ⟨_, _, rfl⟩) (performedAs_peek (spad d) (upsets d) (gran hg d))
  case putEmpty =>
    exact finish h (exec_put_of_drained hp.region h hpl ha hpark hdr) rfl rfl (.inr ⟨_, rfl⟩)
      (performedAs_put_of_empty (spad 0) (core h 0) (unmet 0) (gran hg 0))
  case putOchre =>
    exact finish h (exec_put_of_drained hp.region h hpl ha hpark hdr) rfl rfl (.inr ⟨_, rfl⟩)
      (performedAs_put_of_ochre (spad 0) (core h 0) (unmet 0) (gran hg 0))

/-- R366, R147, R367: TAKE, PEEK and PUT of another core's scratchpad. -/
theorem fabricFullEmpty : FabricFullEmpty := by
  unfold FabricFullEmpty
  intro s u t gd d a b sz sgn r n hpl ha hr hpark body
  refine ⟨fun h => ?take, fun h => ?peek, fun h hdr => ?put, fun h hdr hb => exec_put_of_undrained hr h hpl ha hpark hdr hb⟩
  case take => exact asks_of_exec_ask ((exec_take_of_issues hr h).trans (congrArg _ (feAccess_of_fabric hpl ha))) h.thread h.calm
  case peek => exact asks_of_exec_ask ((exec_peek_of_issues hr h).trans (congrArg _ (feAccess_of_fabric hpl ha))) h.thread h.calm
  case put =>
    exact asks_of_exec_ask ((exec_put_of_drained hr h hpl ha hpark hdr).trans (congrArg _ (feAccess_of_fabric hpl ha))) h.thread h.calm

/-- Settles O23: an access of the own core is performed by `perform` and its answer settled at once, one of another core is sent. -/
theorem fullEmptyAccesses : Obligations.FullEmptyAccesses := ⟨localFullEmpty, fabricFullEmpty⟩

end Sys2Proof.Machine
end

section
/-! Operand slots, the tile path, MSTAT and TBLD (R62 to R70, R407 to R418): their checks, what each instruction does where they pass, and
O35. -/

namespace Sys2Proof.Machine

section traps
variable {s : State} {u : Turn} {t : Thread} {cause info : Nat} {addr : Word}

/-- R283: INFO has 32 bits; a raised trap takes the low ones. -/
theorem raise_info_mod (ht : s.thr? u.ep u.slot = some t) (hk : TakesTraps t) (hr : cause = 0x14 → rectOf s u.ep = none) :
    s.raise u cause addr (info % 2 ^ 32) = s.raise u cause addr info := by
  obtain ⟨hh, hx, ho, hp⟩ := hk
  have hu : (s.modThr u.ep u.slot Thread.unpark).thr? u.ep u.slot = some t.unpark := by rw [thr?_modThr, ht]; rfl
  have hto (x : Thread) (back : CodeAddr) : x.trapTo cause addr (info % 2 ^ 32) back = x.trapTo cause addr info back := by
    simp only [Thread.trapTo, trapStatus, Nat.mod_mod]
  simp only [State.raise, ht, hx, hp, Option.isSome_none, Bool.false_eq_true, if_false]
  rw [trapNow_eq_trapTo addr _ _ hu hh ho hr, trapNow_eq_trapTo addr _ _ hu hh ho hr]
  simp only [hto]

/-- R280, R283: the trap of an instruction whose INFO may pass its 32 bits. -/
theorem trapTaken_mod_of_exec_raise {i : Instr} (he : exec i s = .next (s.raise u cause addr info)) (ht : s.thr? u.ep u.slot = some t)
    (hk : TakesTraps t) (hc : cause < 0x21) (hr : cause = 0x14 → rectOf s u.ep = none) :
    ∃ s', exec i s = .next s' ∧ TrapTaken s u t cause addr (info % 2 ^ 32) t.pc s' :=
  trapTaken_of_exec_raise (he.trans (congrArg _ (raise_info_mod ht hk hr).symm)) ht hk hc (Nat.mod_lt _ (by decide)) hr

end traps

section checks
variable {s : State} {e : EP} {t : Thread} {w : Word}

/-- R64: the slots that the thread's group claims. -/
theorem claimed_eq_some_iff {n : Nat} {o : OpSlot} :
    claimed s e t n = some o ↔ n < 32 ∧ tget (s.core e).opslots n = some o ∧ o.owner = (t.ctx, t.vcore) := by
  unfold claimed
  split
  · next h => simp only [Option.filter_eq_some_iff, beq_iff_eq, h, true_and]
  · next h => simp only [h, false_and, reduceCtorEq]

/-- R407: a claimed slot passes. -/
theorem checkSlot_of_claimed {o : OpSlot} (h : claimed s e t w.toNat = some o) : checkSlot s e t w = .ok o := by
  simp only [checkSlot, h]

/-- R407: a slot that is not claimed traps with cause 0x19. -/
theorem checkSlot_of_not_claimed (h : ∀ o, claimed s e t w.toNat ≠ some o) : checkSlot s e t w = .error ⟨0x19, 0, w.toNat % 32⟩ := by
  simp only [checkSlot, Option.eq_none_iff_forall_ne_some.2 h]

theorem checkSlot_of_ne_ok (h : ∀ o, checkSlot s e t w ≠ .ok o) : checkSlot s e t w = .error ⟨0x19, 0, w.toNat % 32⟩ :=
  checkSlot_of_not_claimed fun o ho => h o (checkSlot_of_claimed ho)

/-- R407: a tile that the group does not have traps with cause 0x1A. -/
theorem checkTile_of_ne_ok (h : ∀ x, checkTile s e t w ≠ .ok x) : checkTile s e t w = .error ⟨0x1A, 0, w.toNat % 32⟩ := by
  unfold checkTile at h ⊢
  split
  · next x hx => rw [hx] at h; exact absurd rfl (h x)
  · rfl

/-- R65: a tile belongs to the thread's group under the name that a register holds. -/
def namedTile (t : Thread) (w : Word) (x : Nat × Tile) : Bool := decide (x.2.owner = (t.ctx, t.vcore) ∧ x.2.name = w.toNat)

theorem checkTile_eq : checkTile s e t w = match (s.core e).tiles.find? (namedTile t w) with
    | some x => .ok x
    | none => .error ⟨0x1A, 0, w.toNat % 32⟩ := by
  have hname : namedTile t w = fun x => x.2.owner == (t.ctx, t.vcore) && x.2.name == w.toNat := by
    funext x
    simp only [namedTile, Bool.decide_and, Bool.beq_eq_decide_eq]
  rw [hname]
  rfl

/-- R66, R408: a tile of kind none takes any kind. -/
theorem kindClash_eq_decide (x y : TileKind) : kindClash x y = decide (x ≠ .none ∧ x ≠ y) := by
  cases x <;> cases y <;> rfl

/-- R411, R416: a row stride that passes its check. -/
theorem strideOf_eq_some {row stride : Nat} (h : if w = 0 then stride = row else stride = w.toNat ∧ 8 ∣ stride ∧ row ≤ stride) :
    strideOf w row = some stride := by
  by_cases hw : w = 0
  · rw [if_pos hw] at h
    simp only [strideOf, hw, beq_self_eq_true, if_true, h]
  · rw [if_neg hw] at h
    obtain ⟨rfl, hdvd, hrow⟩ := h
    simp only [strideOf, beq_iff_eq, hw, if_false, Nat.mod_eq_zero_of_dvd hdvd, beq_self_eq_true, decide_eq_true hrow, Bool.and_self, if_true]

/-- R411, R416: rows within the allotment, at an address that is a multiple of 8, pass. -/
theorem checkRows_of_ok {stride row phys : Nat} (h : checkLocal s e t w (31 * stride + row) = .ok phys) (hd : 8 ∣ w.toNat) :
    checkRows s e t w stride row = .ok phys := by
  have ha : checkAlignedOf w 8 row = .ok () := if_pos (beq_iff_eq.2 (Nat.mod_eq_zero_of_dvd hd))
  simp only [checkRows, h, ha]

/-- The rows that the register `c` strides from the address `a` pass the checks of OLD, ARD and AWR. -/
def RowsPass (s : State) (e : EP) (t : Thread) (a c : Word) (row stride phys : Nat) : Prop :=
  (if c = 0 then stride = row else stride = c.toNat ∧ 8 ∣ stride ∧ row ≤ stride) ∧
    checkLocal s e t a (31 * stride + row) = .ok phys ∧ 8 ∣ a.toNat

end checks

section slots
variable {s : State} {u : Turn} {t : Thread} {gd : Guard} {d a : Reg}

/-- R62: the group has operand slots left in its allotment. -/
def hasSlotRoom (s : State) (e : EP) (t : Thread) : Bool := match groupOf s e t.ctx t.vcore with
  | some g => decide (((s.core e).opslots.filter fun x => x.2.owner == (t.ctx, t.vcore)).length < g.ops)
  | none => false

theorem hasSlotRoom_iff {e : EP} : hasSlotRoom s e t = true ↔ ∃ g, groupOf s e t.ctx t.vcore = some g ∧
    ((s.core e).opslots.filter fun x => decide (x.2.owner = (t.ctx, t.vcore))).length < g.ops := by
  unfold hasSlotRoom
  cases groupOf s e t.ctx t.vcore with
  | none => simp only [Bool.false_eq_true, reduceCtorEq, false_and, exists_false]
  | some g => simp only [decide_eq_true_eq, beq_eq_decide, Option.some.injEq, exists_eq_left']

/-- R409: the slot that OCLAIM takes. -/
def freeSlot (s : State) (e : EP) (t : Thread) : Option Nat :=
  if hasSlotRoom s e t then (List.range 32).find? fun n => (tget (s.core e).opslots n).isNone else none

theorem freeSlot_eq_some {e : EP} {n : Nat} (hroom : hasSlotRoom s e t = true) (hn : n < 32) (hfree : tget (s.core e).opslots n = none)
    (hlow : ∀ m < n, tget (s.core e).opslots m ≠ none) : freeSlot s e t = some n := by
  rw [freeSlot, if_pos hroom, List.find?_range_eq_some]
  exact ⟨by rw [hfree]; rfl, List.mem_range.2 hn, fun m hm => by simpa [Option.isSome_iff_ne_none] using hlow m hm⟩

theorem freeSlot_eq_none {e : EP} (h : ¬ hasSlotRoom s e t = true ∨ ∀ m < 32, tget (s.core e).opslots m ≠ none) : freeSlot s e t = none := by
  unfold freeSlot
  split
  · next hroom =>
    rw [List.find?_range_eq_none]
    intro m hm
    simpa [Option.isSome_iff_ne_none] using h.resolve_left (not_not_intro hroom) m hm
  · rfl

/-- R409, R62: OCLAIM takes the free slot, cleared, or sets p7 = 0. -/
theorem exec_oclaim_of_issues (h : Issues s u t (.oclaim gd d)) : exec (.oclaim gd d) s = .next (match freeSlot s u.ep t with
    | none => s.retire u (·.p7 false)
    | some n => (s.modCore u.ep fun c => { c with
        opslots := tput n ⟨(t.ctx, t.vcore), none, false⟩ c.opslots, opmem := mclear c.opmem (n * 8192) 8192,
        broken := c.broken.filter (· != .operand n) }).retire u fun t => (t.putG d (word n)).p7 true) := by
  rw [exec_oclaim, execOclaim, issue_next h rfl rfl (by decide) (by decide) (lacks_tail (by decide) · · · _ _) (.inr rfl)]
  rfl

/-- R410, R64: OREL of a slot of the group. -/
theorem exec_orel_of_claimed (h : Issues s u t (.orel gd a)) {o : OpSlot} (ho : claimed s u.ep t (gr t a).toNat = some o) :
    exec (.orel gd a) s = .next (if slotWriting s u.ep (gr t a).toNat then s.raise u 0x19 0 (gr t a).toNat
      else if slotReading s u.ep (gr t a).toNat then s.waitEver u (.slotFree (gr t a).toNat)
      else (s.modCore u.ep fun c => { c with opslots := tdelete (gr t a).toNat c.opslots }).retire u id) := by
  rw [exec_orel, execOrel, issue_next h rfl rfl (by decide) (by decide) (lacks_tail (by decide) · · · _ _) (.inr rfl)]
  simp only [checkSlot_of_claimed ho, State.checked]

/-- R407: OREL of a slot that the group does not hold. -/
theorem exec_orel_of_not_claimed (h : Issues s u t (.orel gd a)) (ho : ∀ o, claimed s u.ep t (gr t a).toNat ≠ some o) :
    exec (.orel gd a) s = .next (s.raise u 0x19 0 ((gr t a).toNat % 32)) := by
  rw [exec_orel, execOrel, issue_next h rfl rfl (by decide) (by decide) (lacks_tail (by decide) · · · _ _) (.inr rfl)]
  simp only [checkSlot_of_not_claimed ho, State.checked]

end slots

/-- R62, R64, R409, R410: by the slot that is free for OCLAIM, and by whether the group holds the slot of OREL. -/
theorem operandSlots : OperandSlots := by
  unfold OperandSlots
  intro s u t gd d a n c owned room mine
  have hroom : room ↔ hasSlotRoom s u.ep t = true := hasSlotRoom_iff.symm
  have orel (h : Issues s u t (.orel gd a)) (hm : mine) : n < 32 ∧ exec (.orel gd a) s = .next (
      if slotWriting s u.ep n then s.raise u 0x19 0 n else if slotReading s u.ep n then s.waitEver u (.slotFree n)
      else (s.modCore u.ep fun c => { c with opslots := tdelete n c.opslots }).retire u id) := by
    obtain ⟨rfl, hn, o, ho, howned⟩ := hm
    exact ⟨hn, exec_orel_of_claimed h (claimed_eq_some_iff.2 ⟨hn, ho, howned⟩)⟩
  refine ⟨fun h hr hn hfree hlow => ?take, fun h hno => ?none, fun h hm hw hrd => ?free, fun h hm hw hrd => ?wait, fun h hm hw hk => ?write,
    fun h hno hk => ?other⟩
  case take => rw [exec_oclaim_of_issues h, freeSlot_eq_some (hroom.1 hr) hn hfree hlow]; rfl
  case none => rw [Retires, exec_oclaim_of_issues h, freeSlot_eq_none (by rwa [← hroom])]
  case free => simpa only [hw, hrd, Bool.false_eq_true, if_false] using (orel h hm).2
  case wait => exact waits_of_exec_waitEver (by simpa only [hw, hrd, Bool.false_eq_true, if_false, if_true] using (orel h hm).2) h.thread
  case write =>
    obtain ⟨hn, he⟩ := orel h hm
    exact trapTaken_of_exec_raise (by simpa only [hw, if_true] using he) h.thread hk (by decide) (by omega) nofun
  case other =>
    refine trapTaken_of_exec_raise (exec_orel_of_not_claimed h fun o ho => ?_) h.thread hk (by decide) (by omega) nofun
    obtain ⟨hn, ho, howned⟩ := claimed_eq_some_iff.1 ho
    exact hno.elim (fun hle => absurd hn (Nat.not_lt.2 hle)) fun hnot => hnot o ho howned

section status
variable {s : State} {u : Turn} {t : Thread} {gd : Guard} {d a : Reg}

/-- R417: MSTAT of a tile of the group writes its status word. -/
theorem writes_mstat_of_checkTile (h : Issues s u t (.mstat gd d a)) {x : Nat × Tile} (hx : checkTile s u.ep t (gr t a) = .ok x) :
    Writes (.mstat gd d a) s u d (mstatWord x.2) := by
  rw [Writes, Retires, exec_mstat, execMstat, issue_next h rfl rfl (by decide) (by decide) (lacks_tail (by decide) · · · _ _) (.inr rfl)]
  simp only [hx, State.checked]

/-- R407: MSTAT of a tile that the group does not have. -/
theorem exec_mstat_of_checkTile_error (h : Issues s u t (.mstat gd d a)) {x : Trap} (hx : checkTile s u.ep t (gr t a) = .error x) :
    exec (.mstat gd d a) s = .next (s.raise u x.cause x.addr x.info) := by
  rw [exec_mstat, execMstat, issue_next h rfl rfl (by decide) (by decide) (lacks_tail (by decide) · · · _ _) (.inr rfl)]
  simp only [hx, State.checked]

/-- R68: the fields of the tile status word stand side by side. -/
theorem mstatWord_toNat {x : Tile} (h : x.prog < 2 ^ 9) : (mstatWord x).toNat =
    x.prog + x.stop.toNat * 2 ^ 10 + x.busy.toNat * 2 ^ 11 +
      (match x.kind with | .none => 0 | .fp64 => 1 | .fp32 => 2 | .i32 => 3) * 2 ^ 12 := by
  have bit (b : Bool) : b2n b = b.toNat := by cases b <;> rfl
  have hkind : x.kind.code = match x.kind with | .none => 0 | .fp64 => 1 | .fp32 => 2 | .i32 => 3 := by cases x.kind <;> rfl
  have hcode : x.kind.code ≤ 3 := by cases x.kind <;> decide
  have hstop := Bool.toNat_le x.stop
  have hbusy := Bool.toNat_le x.busy
  rw [← hkind, mstatWord, word, BitVec.toNat_ofNat, bit, bit, Nat.mod_eq_of_lt (by omega)]
  omega

end status

/-- R417, R68: by whether the group has the tile. -/
theorem tileStatus : TileStatus := by
  unfold TileStatus
  intro s u t gd d a h named
  refine ⟨fun x hx hp => ?found, fun hno hk => ?absent⟩
  case found =>
    have hok : checkTile s u.ep t (gr t a) = .ok x := by
      rw [checkTile_eq, show namedTile t (gr t a) = fun x => decide (named x) from rfl, hx]
    exact ⟨_, writes_mstat_of_checkTile h hok, mstatWord_toNat hp⟩
  case absent =>
    have hnone : (s.core u.ep).tiles.find? (namedTile t (gr t a)) = none :=
      List.find?_eq_none.2 fun x hx hx' => hno x hx (of_decide_eq_true hx')
    have herr : checkTile s u.ep t (gr t a) = .error ⟨0x1A, 0, (gr t a).toNat % 32⟩ := by rw [checkTile_eq, hnone]
    exact trapTaken_of_exec_raise (exec_mstat_of_checkTile_error h herr) h.thread hk (by decide) (show _ % 32 < _ by omega) nofun

section table
variable {s : State} {u : Turn} {t : Thread} {gd : Guard} {a : Reg}

/-- R418: entry i of a word of TBLD, with what stands above it. -/
def codeEntry (w i : Nat) : Nat := w / 2 ^ (16 * i)

/-- R418: no entry has one of its bits 15:13 set. -/
def codesFit (w : Nat) : Prop := ∀ i < 4, codeEntry w i % 2 ^ 16 < 2 ^ 13

theorem reserved_bits_eq_zero_iff (w i : Nat) : bitsAt w (16 * i + 15) (16 * i + 13) = 0 ↔ codeEntry w i % 2 ^ 16 < 2 ^ 13 := by
  have hdiv : w / 2 ^ (16 * i + 13) = codeEntry w i / 2 ^ 13 := by rw [codeEntry, Nat.div_div_eq_div_mul, Nat.pow_add]
  have hlen : 16 * i + 15 + 1 - (16 * i + 13) = 3 := by omega
  rw [bitsAt, hdiv, hlen]
  omega

theorem code_bits_eq (w i : Nat) : bitsAt w (16 * i + 12) (16 * i) = codeEntry w i % 2 ^ 13 := by
  rw [bitsAt, show 16 * i + 12 + 1 - 16 * i = 13 by omega, codeEntry]

theorem any_reserved_iff (w : Nat) :
    ((List.range 4).any fun i => bitsAt w (16 * i + 15) (16 * i + 13) != 0) = true ↔ ¬ codesFit w := by
  simp only [List.any_eq_true, List.mem_range, bne_iff_ne, ne_eq, reserved_bits_eq_zero_iff, codesFit, not_forall, exists_prop]

/-- R418: the code table with the bank that is not active written, and active. -/
def Lg6.load (l : Lg6) (w : Nat) : Lg6 :=
  { banks := setAt (1 - l.active) ((List.range 4).map fun i => codeEntry w i % 2 ^ 13) l.banks, active := 1 - l.active, gen := l.gen + 1 }

/-- R70: of two banks the one that is not active is written, and the other left. -/
theorem Lg6.load_banks {l : Lg6} (w : Nat) (ha : l.active < 2) (hl : l.banks.length = 2) :
    (l.load w).banks[l.active]? = l.banks[l.active]? ∧
      (l.load w).banks[1 - l.active]? = some ((List.range 4).map fun i => codeEntry w i % 2 ^ 13) := by
  obtain ⟨x, y, hb⟩ := List.length_eq_two.1 hl
  have hcase : l.active = 0 ∨ l.active = 1 := by omega
  rcases hcase with h | h <;> simp only [Lg6.load, h, hb] <;> exact ⟨rfl, rfl⟩

/-- R418: TBLD of a word with reserved bits traps with cause 0x02. -/
theorem exec_tbld_of_reserved (h : Issues s u t (.tbld gd a)) (hr : t.region = none) (hw : ¬ codesFit (gr t a).toNat) :
    exec (.tbld gd a) s = .next (s.raise u 0x02 0 u.head.toNat) := by
  rw [exec_tbld, execTbld, issue_next h rfl rfl (by decide) (by decide) (lacks_tail (by decide) · · · _ _) (.inl hr)]
  simp only [(any_reserved_iff _).2 hw, if_true]

/-- R418, R70: TBLD waits for its bank, or loads it. -/
theorem exec_tbld_of_codesFit (h : Issues s u t (.tbld gd a)) (hr : t.region = none) (hw : codesFit (gr t a).toNat) :
    exec (.tbld gd a) s = .next (if bankHeld s u.ep (1 - (s.core u.ep).lg6.active) then s.waitEver u .bankFree
      else (s.modCore u.ep fun c => { c with lg6 := (s.core u.ep).lg6.load (gr t a).toNat }).retire u id) := by
  have hany := (not_congr (any_reserved_iff (gr t a).toNat)).2 (not_not_intro hw)
  rw [exec_tbld, execTbld, issue_next h rfl rfl (by decide) (by decide) (lacks_tail (by decide) · · · _ _) (.inl hr)]
  simp only [if_neg hany, code_bits_eq]
  refine congrArg Host.Outcome.next (ite_congr rfl (fun _ => rfl) fun _ => ?_)
  exact congrArg (State.retire · u _) (modCore_congr rfl)

end table

/-- R418, R70: by whether the word's codes fit. -/
theorem tableLoad : TableLoad := by
  unfold TableLoad
  intro s u t gd a h hr old entry ok
  refine ⟨fun hno hk => ?reserved, fun hok hb => ?wait, fun hok hb ha hl => ?load⟩
  case reserved => exact trapTaken_of_exec_raise (exec_tbld_of_reserved h hr hno) h.thread hk (by decide) (by omega) nofun
  case wait => exact waits_of_exec_waitEver ((exec_tbld_of_codesFit h hr hok).trans (congrArg _ (if_pos hb))) h.thread
  case load =>
    obtain ⟨hkept, hloaded⟩ := Lg6.load_banks (gr t a).toNat ha hl
    exact ⟨old.load (gr t a).toNat, (exec_tbld_of_codesFit h hr hok).trans (congrArg _ (if_neg (Bool.eq_false_iff.1 hb))),
      rfl, rfl, hkept, hloaded⟩

section path
variable {s : State} {u : Turn} {t : Thread} {i : Instr} {op : TileOp} {kind : Nat}

/-- R407, R259: an instruction that joins the tile path and parks until its operation ends. -/
theorem parksOn_of_exec (he : exec i s = .next ((addJob s u t op).parkAt u .mma kind 2 false none 0 0))
    (ht : s.thr? u.ep u.slot = some t) : ParksOn i s u t op := by
  have hthr : (addJob s u t op).thr? u.ep u.slot = some t := by
    rw [addJob, thr?_modCore_of_slots, ht]
    exact fun _ => rfl
  have hcore := core_isSome_of_thr? ht
  obtain ⟨t', k, ht', hk, hwhy, -, hnext, -⟩ := thr?_parkAt hthr .mma kind 2 false none 0 0 0
  refine ⟨_, t', k, he, ?jobs, ht', hk.park, hwhy, hnext, hk.regs, hk.specials, hk.counters, hk.pc, ?cells, rfl⟩
  case jobs =>
    refine (core_modThr_of_keeps (g := Core.jobs) (fun _ _ => rfl) ..).trans ?_
    rw [addJob, core_modCore_same hcore]
  case cells =>
    refine (core_modThr_of_keeps (g := Core.acc) (fun _ _ => rfl) ..).trans ?_
    rw [addJob, core_modCore_same hcore]

end path

section transfers
variable {s : State} {u : Turn} {t : Thread} {gd : Guard} {a b c : Reg} {ty : Ty} {lay : Bool} {stride phys : Nat}

/-- R411, R115: OLD with its checks passed waits for room in TLC, or joins the tile path. -/
theorem exec_old_of_checked (hr : t.region = none) (h : Issues s u t (.old gd a b c ty lay)) (hty : depthOf ty ≠ 0) {o : OpSlot}
    (ho : checkSlot s u.ep t (gr t b) = .ok o) (hrows : RowsPass s u.ep t (gr t a) (gr t c) 256 stride phys) :
    exec (.old gd a b c ty lay) s = .next (if 15 ≤ t.cnt.tlc then s.waitEver u .tlcRoom
      else (addJob s u t (.old (gr t b).toNat phys stride ty lay)).retire u (·.tlcUp)) := by
  obtain ⟨hstride, hlocal, hdvd⟩ := hrows
  rw [exec_old, execOld, issue_next h rfl rfl (by decide) (by decide) (lacks_tail (by decide) · · · _ _) (.inl hr)]
  simp only [beq_iff_eq, hty, if_false, ho, State.checked, strideOf_eq_some hstride, checkRows_of_ok hlocal hdvd]

/-- R416, R408, R115, R363: ARD or AWR with its checks passed. -/
theorem tileTransfer_of_checked {kind : TileKind} {w : Nat} {x : Nat × Tile} (write : Bool) (hty : cellKind ty = (kind, w))
    (hx : checkTile s u.ep t (gr t b) = .ok x) (hk : kindClash (issuedKind (s.core u.ep).jobs x.1 x.2.kind) kind = false)
    (hrows : RowsPass s u.ep t (gr t a) (gr t c) (4 * w) stride phys) (hroom : t.cnt.tlc < 15) :
    tileTransfer s u t a b c ty write =
      if write && anyOchre s u.ep phys (31 * stride + 4 * w) then s.raise u 0x14 (gr t a) 0
      else (addJob s u t (if write then .awr x.1 phys stride w kind else .ard x.1 phys stride w)).retire u (·.tlcUp) := by
  obtain ⟨hstride, hlocal, hdvd⟩ := hrows
  simp only [tileTransfer, hty, hx, State.checked, hk, Bool.false_eq_true, if_false, strideOf_eq_some hstride, checkRows_of_ok hlocal hdvd,
    if_neg (Nat.not_le.2 hroom)]

variable (hr : t.region = none)
include hr

theorem exec_ard_of_issues (h : Issues s u t (.ard gd a b c ty)) :
    exec (.ard gd a b c ty) s = .next (tileTransfer s u t a b c ty false) := by
  rw [exec_ard, execArd, issue_next h rfl rfl (by decide) (by decide) (lacks_tail (by decide) · · · _ _) (.inl hr)]

theorem exec_awr_of_issues (h : Issues s u t (.awr gd a b c ty)) :
    exec (.awr gd a b c ty) s = .next (tileTransfer s u t a b c ty true) := by
  rw [exec_awr, execAwr, issue_next h rfl rfl (by decide) (by decide) (lacks_tail (by decide) · · · _ _) (.inl hr)]

end transfers

section matrix
variable {s : State} {u : Turn} {t : Thread} {gd : Guard} {a b c : Reg} {zf sc : Bool} {k : BitVec 9} (hr : t.region = none)
  (h : Issues s u t (.mma gd a b c zf sc k))
include hr h

/-- R407: MMA's check of slot A is its first. -/
theorem exec_mma_of_checkSlot_error {x : Trap} (hx : checkSlot s u.ep t (gr t a) = .error x) :
    exec (.mma gd a b c zf sc k) s = .next (s.raise u x.cause x.addr x.info) := by
  rw [exec_mma, execMma, issue_next h rfl rfl (by decide) (by decide) (lacks_tail (by decide) · · · _ _) (.inl hr)]
  simp only [hx, State.checked]

/-- R412: MMA with slots, tile, formats and K checked: what is left is the tile's kind and the scale ranges. -/
theorem exec_mma_of_formats {oa ob : OpSlot} {x : Nat × Tile} {ta tb : Ty} {kind : TileKind} {kl : Nat}
    (hkl : kl = if k = 0 then depthOf ta else k.toNat)
    (ha : checkSlot s u.ep t (gr t a) = .ok oa) (hb : checkSlot s u.ep t (gr t b) = .ok ob) (hx : checkTile s u.ep t (gr t c) = .ok x)
    (hfa : (issuedFmt (s.core u.ep).jobs (gr t a).toNat oa.fmt).or (shadowFmt t.sr.sfa) = some (ta, false))
    (hfb : (issuedFmt (s.core u.ep).jobs (gr t b).toNat ob.fmt).or (shadowFmt t.sr.sfb) = some (tb, true))
    (hpair : pairKind ta tb = some kind) (hsc : sc = true → blockPair ta = true) (hdepth : kl ≤ depthOf ta) :
    exec (.mma gd a b c zf sc k) s = .next (
      if kindClash (issuedKind (s.core u.ep).jobs x.1 x.2.kind) kind then s.raise u 0x1A 0 x.2.name
      else
        let go := fun (p : Nat × Nat) => (addJob s u t
          (.mma (gr t a).toNat (gr t b).toNat x.1 ta tb zf sc kl p.1 p.2 2)).parkAt u .mma 8 2 false none 0 0
        if sc then s.checked u (checkScales s u.ep t kl) go else go (0, 0)) := by
  have hscale : (sc && !blockPair ta) = false := by
    cases sc with
    | false => rfl
    | true => rw [hsc rfl]; rfl
  rw [exec_mma, execMma, issue_next h rfl rfl (by decide) (by decide) (lacks_tail (by decide) · · · _ _) (.inl hr)]
  subst hkl
  simp only [ha, hb, hx, State.checked, hfa, hfb, hpair, hscale, beq_iff_eq, if_neg (Nat.not_lt.2 hdepth), Bool.false_eq_true, if_false]

end matrix

section clear
variable {s : State} {u : Turn} {t : Thread} {gd : Guard} {a : Reg} {kd : BitVec 2} (hr : t.region = none)
  (h : Issues s u t (.aclr gd a kd))

/-- R415, R66: what ACLR makes of its core. -/
theorem applyAclr_eq (s : State) (e : EP) (n : Nat) (kind : TileKind) : applyAclr s e n kind = s.modCore e fun c => { c with
    tiles := tmod n (fun y => { y with kind := kind, stop := false, prog := 0 }) c.tiles,
    acc := mclear c.acc (n * 8192) 8192, broken := c.broken.filter (· != .acc n) } := by
  simp only [applyAclr, State.modTile, State.modCore, tmod_tmod]

include hr h

/-- R407: ACLR of a tile that the group does not have. -/
theorem exec_aclr_of_checkTile_error {x : Trap} (hx : checkTile s u.ep t (gr t a) = .error x) :
    exec (.aclr gd a kd) s = .next (s.raise u x.cause x.addr x.info) := by
  rw [exec_aclr, execAclr, issue_next h rfl rfl (by decide) (by decide) (lacks_tail (by decide) · · · _ _) (.inl hr)]
  simp only [hx, State.checked]

/-- R415: ACLR of a tile of the group parks where an earlier operation holds the tile, else applies at once. -/
theorem exec_aclr_of_checkTile {x : Nat × Tile} (hx : checkTile s u.ep t (gr t a) = .ok x) : exec (.aclr gd a kd) s = .next (
      if (s.core u.ep).jobs.any (fun j => blockedBy (.aclr x.1 (kindOfCode kd.toNat)) j.op) then
        (addJob s u t (.aclr x.1 (kindOfCode kd.toNat))).parkAt u .mma 7 2 false none 0 0
      else (applyAclr s u.ep x.1 (kindOfCode kd.toNat)).retire u id) := by
  rw [exec_aclr, execAclr, issue_next h rfl rfl (by decide) (by decide) (lacks_tail (by decide) · · · _ _) (.inl hr)]
  simp only [hx, State.checked, h.calm, Option.isSome_none, Bool.and_false, Bool.false_eq_true, if_false]

end clear

/-- R407, R408, R411, R412, R415, R416, R115: each instruction by its checks in their order. -/
theorem tilePath : TilePath := by
  unfold TilePath
  intro s u t gd a b c ty lay zf sc k kd oa ob x ta tb kind phys stride pa pb jobs na nb w rowsOk clash up kl cellTy hr
  have hclash (want : TileKind) : kindClash (issuedKind jobs x.1 x.2.kind) want = decide (clash want) := kindClash_eq_decide _ _
  have hcell (hty : cellTy ty) : cellKind ty = (kind, w) := by rcases hty with ⟨rfl, rfl⟩ | ⟨rfl, rfl⟩ | ⟨rfl, rfl⟩ <;> rfl
  refine ⟨fun h hty ho hrows => ⟨fun hroom => ?old, fun hfull => ?oldWaits⟩,
    fun h ha hb hx hfa hfb hpair hsc hdepth => ?mma, fun h hno hk => ?mmaSlot, fun h hty hx hc hrows hroom => ?ard,
    fun h hty hx hc hrows hroom => ⟨fun ho => ?awr, fun ho hk hrect => ?awrOchre⟩,
    fun h hx => ⟨fun hfree => ?aclr, fun ⟨j, hj, hheld⟩ => ?aclrParks⟩, fun h hno hk => ?aclrTile⟩
  case old => exact (exec_old_of_checked hr h hty ho hrows).trans (congrArg _ (if_neg (Nat.not_le.2 hroom)))
  case oldWaits => exact waits_of_exec_waitEver ((exec_old_of_checked hr h hty ho hrows).trans (congrArg _ (if_pos hfull))) h.thread
  case mma =>
    have hblock : sc = true → blockPair ta = true := fun h => by
      have := hsc h
      simp only [List.mem_cons, List.not_mem_nil, or_false] at this
      rcases this with rfl | rfl | rfl <;> rfl
    have he := exec_mma_of_formats hr h rfl ha hb hx hfa hfb hpair hblock hdepth
    rw [hclash] at he
    refine ⟨fun hc hplain hscales => ?joins, fun hc hk => ?clashes⟩
    case joins =>
      rw [if_neg (by simpa using hc)] at he
      refine parksOn_of_exec (kind := 8) (he.trans ?_) h.thread
      cases sc with
      | false => obtain ⟨rfl, rfl⟩ := hplain rfl; rfl
      | true => rw [if_pos rfl, hscales rfl]; rfl
    case clashes =>
      rw [if_pos (decide_eq_true hc)] at he
      exact trapTaken_mod_of_exec_raise he h.thread hk (by decide) nofun
  case mmaSlot =>
    exact trapTaken_of_exec_raise (exec_mma_of_checkSlot_error hr h (checkSlot_of_ne_ok hno)) h.thread hk (by decide)
      (show _ % 32 < _ by omega) nofun
  case ard =>
    have hnc := (hclash kind).trans (decide_eq_false hc)
    exact (exec_ard_of_issues hr h).trans (congrArg _ (tileTransfer_of_checked false (hcell hty) hx hnc hrows hroom))
  case awr =>
    have hnc := (hclash kind).trans (decide_eq_false hc)
    rw [Joins, exec_awr_of_issues hr h, tileTransfer_of_checked true (hcell hty) hx hnc hrows hroom, ho]
    rfl
  case awrOchre =>
    have hnc := (hclash kind).trans (decide_eq_false hc)
    have htransfer := tileTransfer_of_checked true (hcell hty) hx hnc hrows hroom
    rw [ho] at htransfer
    exact trapTaken_of_exec_raise ((exec_awr_of_issues hr h).trans (congrArg _ htransfer)) h.thread hk (by decide) (by decide)
      fun _ => hrect
  case aclr =>
    have hany : jobs.any (fun j => blockedBy (.aclr x.1 (kindOfCode kd.toNat)) j.op) = false := List.any_eq_false.2 fun j hj =>
      Bool.eq_false_iff.1 (hfree j hj)
    have he := exec_aclr_of_checkTile hr h hx
    rw [applyAclr_eq] at he
    exact he.trans (congrArg _ (if_neg (Bool.eq_false_iff.1 hany)))
  case aclrParks =>
    have hany : jobs.any (fun j => blockedBy (.aclr x.1 (kindOfCode kd.toNat)) j.op) = true := List.any_eq_true.2 ⟨j, hj, hheld⟩
    exact parksOn_of_exec ((exec_aclr_of_checkTile hr h hx).trans (congrArg _ (if_pos hany))) h.thread
  case aclrTile =>
    exact trapTaken_of_exec_raise (exec_aclr_of_checkTile_error hr h (checkTile_of_ne_ok hno)) h.thread hk (by decide)
      (show _ % 32 < _ by omega) nofun

/-- Settles O35, by what each instruction does once its checks have passed, and by the trap of a check that fails. -/
theorem matrixInstructions : Obligations.MatrixInstructions := ⟨operandSlots, tilePath, tileStatus, tableLoad⟩

end Sys2Proof.Machine
end

section
/-! A victim at an address that is no line's (R81, R83): what its writeback does, and O48. -/

namespace Sys2Proof.Machine

/-- An ochre victim whose address is no multiple of 64. -/
def strayVictim : BufLine := ⟨65, 0, false, true, false, true, []⟩

/-- The line that the address lies in, with a single-bit error in its first word. -/
def upsetLine : BufLine := ⟨64, 0, false, false, false, false, [(0, 1)]⟩

/-- The home of both, whose buffer holds the two. -/
def strayState : State :=
  { State.reset with cores := [(homeOf 65, { Core.start .memory with mem := ⟨[strayVictim, upsetLine], [], [], 0, 0⟩ })] }

/-- R83: the corrected errors that a memory core has counted after a step. -/
def lineErrorsAfter (o : Host.Outcome State Fault Refusal) (e : EP) : Option Word := match o with
  | .next s => some (s.core e).mgmt.lbcnt
  | _ => none

/-- R83: the writeback of the victim reads the line of its address and corrects the error there. -/
theorem lineErrorsAfter_victimWriteback :
    lineErrorsAfter (exec (.victimWriteback (homeOf 65) 0 true true) strayState) (homeOf 65) = some 1 := by decide +kernel

/-- Refutes O48: LinesFilledAndScrubbed lets a line of the buffer have any address. The errors that a writeback meets are those of the line
that the address lies in, so for a victim at 65 it corrects and counts an error of the line at 64, where the statement says that an ochre
victim is dropped and nothing else changes. It lacks that the address of a line is a multiple of 64. -/
theorem not_memoryEvents : ¬ Obligations.MemoryEvents := by
  unfold Obligations.MemoryEvents
  rintro ⟨hlines, -, -⟩
  obtain ⟨hbuffered, -⟩ := hlines strayState (homeOf 65) 0 0 strayVictim true true rfl
  obtain ⟨-, -, -, -, -, -, hdropped, -⟩ := hbuffered rfl
  have hcount := lineErrorsAfter_victimWriteback
  rw [hdropped ⟨rfl, rfl, rfl, rfl⟩ rfl] at hcount
  exact absurd hcount (by decide +kernel)

end Sys2Proof.Machine
end

section
/-! What a core's TLB does not show in (R17, R38, R81): DRAM as it reads, and the tables there. -/

namespace Sys2Proof.Machine

section keeps
variable {s : State} {e : EP} {f : Core → Core}

/-- A line in its buffer, where a core keeps its buffer. -/
theorem bufLine?_modCore_of_keeps (hm : ∀ c, (f c).mem = c.mem) (line : Nat) : bufLine? (s.modCore e f) line = bufLine? s line := by
  simp only [bufLine?, State.core?, State.modCore]
  by_cases h : homeOf line = e
  · subst h
    rw [tget_tmod_same]
    cases tget s.cores (homeOf line) with
    | none => rfl
    | some c => simp only [Option.map_some, Option.bind_some, hm]
  · rw [tget_tmod_other _ _ h]

variable (hm : ∀ c, (f c).mem = c.mem) (hg : ∀ c, (f c).mgmt = c.mgmt)
include hm hg

/-- R81, R97: a line's value depends on DRAM, the buffer and whether the channel has failed. -/
theorem lineValue_modCore_of_keeps (line : Nat) : lineValue (s.modCore e f) line = lineValue s line := by
  have hf : ((s.modCore e f).core (homeOf line)).mgmt = (s.core (homeOf line)).mgmt := core_modCore_of_keeps hg s e _
  simp only [lineValue, hf, bufLine?_modCore_of_keeps hm]
  rfl

theorem physWord_modCore_of_keeps (pa n : Nat) : physWord (s.modCore e f) pa n = physWord s pa n := by
  unfold physWord wordBad
  rw [bufLine?_modCore_of_keeps hm, lineValue_modCore_of_keeps hm hg]

theorem ebitOf_modCore_of_keeps (own : Nat) (peermap : BitVec 44) (pkg : Nat) :
    ebitOf (s.modCore e f) own peermap pkg = ebitOf s own peermap pkg := by
  simp only [ebitOf, peerOf, physWord_modCore_of_keeps hm hg]

end keeps

end Sys2Proof.Machine
end

section
/-! Instructions whose access leaves once the state has been prepared for it (R40, R278): what has been sent, and what its thread does. -/

namespace Sys2Proof.Machine

/-- What an instruction has done before its access leaves shows in no thread of the core, no packet and no memory. -/
structure Prepared (s s0 : State) (e : EP) : Prop where
  threads : ∀ n, s0.thr? e n = s.thr? e n
  net : s0.net = s.net
  dram : s0.dram = s.dram
  spads : ∀ i, (s0.core i).spad = (s.core i).spad

theorem Prepared.refl (s : State) (e : EP) : Prepared s s e := ⟨fun _ => rfl, rfl, rfl, fun _ => rfl⟩

theorem Prepared.trans {s s0 s1 : State} {e : EP} (h : Prepared s s0 e) (h' : Prepared s0 s1 e) : Prepared s s1 e where
  threads n := (h'.threads n).trans (h.threads n)
  net := h'.net.trans h.net
  dram := h'.dram.trans h.dram
  spads i := (h'.spads i).trans (h.spads i)

/-- A core that keeps its slots and its scratchpad. -/
theorem Prepared.modCore (s : State) (e i : EP) {f : Core → Core} (hs : ∀ c, (f c).slots = c.slots) (hp : ∀ c, (f c).spad = c.spad) :
    Prepared s (s.modCore i f) e where
  threads := thr?_modCore_of_slots hs
  net := rfl
  dram := rfl
  spads := core_modCore_of_keeps hp s i

/-- R278: a packet counted at an interface. -/
theorem Prepared.countOut (s : State) (e i : EP) (ctx : Ctx) : Prepared s (countOut s i ctx) e := by
  simp only [Machine.countOut, modNi]
  split
  · exact .refl s e
  · split
    · exact ⟨fun _ => rfl, rfl, rfl, fun _ => rfl⟩
    · exact .modCore s e i (fun _ => rfl) fun _ => rfl

/-- R286: the scoreboard entry that a relaxed access takes. -/
def relaxedEntry (t : Thread) (load : Bool) : Nat := (t.freeSb (if load then 0 else 8) 8).getD (if load then 7 else 15)

/-- R286: entries 0 to 7 are those of relaxed loads, 8 to 15 those of relaxed stores. -/
theorem relaxedEntry_bounds (t : Thread) (load : Bool) :
    if load = true then relaxedEntry t load < 8 else 8 ≤ relaxedEntry t load ∧ relaxedEntry t load < 16 := by
  have found {lo n k : Nat} (h : t.freeSb lo n = some k) : lo ≤ k ∧ k < lo + n := by
    obtain ⟨j, hj, rfl⟩ := List.mem_map.1 (List.mem_of_find?_eq_some h)
    have := List.mem_range.1 hj
    omega
  unfold relaxedEntry
  cases load <;> simp only [Bool.false_eq_true, if_false, if_true]
  · cases h : t.freeSb 8 8 with
    | none => decide
    | some k => exact found h
  · cases h : t.freeSb 0 8 with
    | none => decide
    | some k => exact (found h).2

/-- R115, R117, R286: what a relaxed access leaves in its thread. -/
def Thread.sentRelaxed (t : Thread) (load : Bool) (kind path : Nat) (d : Reg) : Thread :=
  (if load then { t.unpend d with cnt := { t.cnt with ldc := t.cnt.ldc + 1 } }
    else { t with cnt := { t.cnt with stc := t.cnt.stc + 1 } }).setSb (relaxedEntry t load)
    ⟨.sent, kind, path, d, t.pc, t.region.isSome && !t.handler⟩

/-- R286: going on leaves the entries of relaxed accesses. -/
theorem sbAt_goTo_setSb {t : Thread} {n : Nat} (hn : n < 16) (x : SbEntry) (pc : CodeAddr) : ((t.setSb n x).goTo pc).sbAt n = x := by
  have h16 : (16 : Nat) ≠ n := by omega
  have hsb : ((t.setSb n x).goTo pc).sb =
      if t.xf.isSome then t.sb.setIfInBounds n x else (t.sb.setIfInBounds n x).setIfInBounds 16 SbEntry.none := rfl
  rw [Thread.sbAt, hsb]
  split
  · rw [Vector.getElem?_setIfInBounds_self_of_lt (by omega)]
    rfl
  · rw [Vector.getElem?_setIfInBounds_ne h16, Vector.getElem?_setIfInBounds_self_of_lt (by omega)]
    rfl

section leaves
variable {i : Instr} {s s0 : State} {u : Turn} {t : Thread} {dst vc ebit kind path : Nat} {d : Reg} {body : Body}
  (ht : s.thr? u.ep u.slot = some t) (hp : Prepared s s0 u.ep)
include ht hp

/-- R107, R286, R363: an access that is sent leaves its thread parked. -/
theorem asks_of_exec_ask_prepared (hx : t.xf = none) {why : Wait} {operand : Word} {size : Nat}
    (he : exec i s = .next (s0.ask u t dst vc ebit why kind path d operand size body)) : Asks i s u t dst ebit body why d := by
  have ht0 : s0.thr? u.ep u.slot = some t := (hp.threads _).trans ht
  simp only [State.ask, hx, Option.isSome_none, Bool.false_eq_true, if_false] at he
  obtain ⟨t', k, hthr, hfrom, hwhy, hdst, hnext, -, hser⟩ := thr?_parkAt (t := t)
    (s := { s0 with nextUid := s0.nextUid + 1 }.send u.ep dst vc (reqOf u.ep u.slot t (16 + 32 * s0.nextUid) ebit) (carryOf u.ep t) body)
    ht0 why kind path (kind ≤ 6) none d (operand.toNat + size * 2 ^ 64) s0.nextUid
  refine ⟨_, _, t', k, he, congrArg (· ++ [_]) hp.net, rfl, rfl, rfl, ?stage, rfl, rfl, rfl, rfl, rfl, rfl, by rw [hser]; rfl, hthr, hfrom.park, hwhy, hdst,
    hnext, hfrom.regs, hfrom.pc, hfrom.specials, hfrom.counters, rfl, hp.dram, fun e => (core_modThr_spad ..).trans (hp.spads e)⟩
  case stage => simp only [beq_iff_eq]

/-- R115, R286: a relaxed access that is sent leaves its thread to go on. -/
theorem sendsRelaxed_of_exec_askRelaxed {load : Bool} (hr : t.region = none)
    (he : exec i s = .next (s0.askRelaxed u t dst vc ebit load kind path d body)) : SendsRelaxed i s u t dst ebit body load kind path d := by
  have hbounds := relaxedEntry_bounds t load
  have ht0 : s0.thr? u.ep u.slot = some t := (hp.threads _).trans ht
  have hthr : (s0.askRelaxed u t dst vc ebit load kind path d body).thr? u.ep u.slot =
      some ((t.sentRelaxed load kind path d).goTo u.next) := by
    rw [State.askRelaxed, thr?_retire, show (State.send ..).thr? u.ep u.slot = some t from ht0]
    cases load <;> rfl
  refine ⟨_, _, _, relaxedEntry t load, he, congrArg (· ++ [_]) hp.net, rfl, rfl, rfl, rfl, rfl, rfl, rfl, rfl, rfl, rfl, hbounds, hthr,
    rfl, rfl, ?regs, ?specials, ?counters, ?entry, rfl, hp.dram, fun e => (core_retire_spad ..).trans (hp.spads e)⟩
  case regs => cases load <;> rfl
  case specials => cases load <;> rfl
  case counters => cases load <;> rfl
  case entry =>
    have hlow : relaxedEntry t load < 16 := by split at hbounds <;> omega
    rw [Thread.sentRelaxed, sbAt_goTo_setSb hlow, hr]
    rfl

end leaves

end Sys2Proof.Machine
end

section
/-! MLD, MST, MAMO and REMUP (R86, R375, R378 to R380): their translation, their home and their rights, and O28. -/

namespace Sys2Proof.Machine

section translated
variable {s s0 : State} {u : Turn} {t : Thread} {ea : Word} {x : TlbEntry} (h : Translated s u t ea x s0)
include h

theorem checkDv_of_translated : checkDv ea = .ok (ea.toNat % 2 ^ 56) := by
  obtain ⟨l, hc, -⟩ := h
  exact hc

/-- R38: the hit touches the core's own TLB alone. -/
theorem exists_modCore_of_translated : ∃ l, s0 = s.modCore u.ep fun c => { c with tlb := l } := by
  obtain ⟨l, -, -, rfl⟩ := h
  exact ⟨l, rfl⟩

theorem Prepared.of_translated : Prepared s s0 u.ep := by
  obtain ⟨l, rfl⟩ := exists_modCore_of_translated h
  exact .modCore s u.ep u.ep (fun _ => rfl) fun _ => rfl

theorem dramTarget_of_translated (own va : Nat) : dramTarget s0 own x va = dramTarget s own x va := by
  obtain ⟨l, rfl⟩ := exists_modCore_of_translated h
  rfl

theorem homesOf_of_translated (va : Nat) : t.homesOf s0 u.ep x va = t.homesOf s u.ep x va := by
  obtain ⟨l, rfl⟩ := exists_modCore_of_translated h
  rfl

theorem ebitOf_of_translated (own : Nat) (peermap : BitVec 44) (pkg : Nat) : ebitOf s0 own peermap pkg = ebitOf s own peermap pkg := by
  obtain ⟨l, rfl⟩ := exists_modCore_of_translated h
  exact ebitOf_modCore_of_keeps (f := fun c => { c with tlb := l }) (fun _ => rfl) (fun _ => rfl) own peermap pkg

theorem coreXlate_of_translated : coreXlate s u.ep t (ea.toNat % 2 ^ 56) = (.hit x, s0) := by
  obtain ⟨l, -, hlook, rfl⟩ := h
  simp only [coreXlate, hlook]

/-- R37, R38: an operand with the rights that it needs goes on with its leaf. -/
theorem withXlate_of_rights {rd wr : Bool} (hr : rightsTrap x ea rd wr = none) (body : State → TlbEntry → State) :
    withXlate s u t ea (ea.toNat % 2 ^ 56) rd wr body = body s0 x := by
  simp only [withXlate, coreXlate_of_translated h, hr]

/-- R37: one that lacks a right traps. -/
theorem withXlate_of_lacking {rd wr : Bool} {tr : Trap} (hr : rightsTrap x ea rd wr = some tr) (body : State → TlbEntry → State) :
    withXlate s u t ea (ea.toNat % 2 ^ 56) rd wr body = s0.raise u tr.cause tr.addr tr.info := by
  simp only [withXlate, coreXlate_of_translated h, hr]

/-- R280: an instruction that traps behind its translation. -/
theorem trapsMapped_of_exec_raise {i : Instr} {cause info : Nat} (he : exec i s = .next (s0.raise u cause ea info))
    (ht : s.thr? u.ep u.slot = some t) (hk : TakesTraps t) (hc : cause < 0x14) (hi : info < 2 ^ 32) : TrapsMapped i s u t ea x cause info := by
  have htaken := raise_trapTaken (s := s0) ea (((Prepared.of_translated h).threads _).trans ht) hk (cause := cause) (info := info)
    (by omega) hi (by omega)
  rw [if_neg (by omega)] at htaken
  exact ⟨s0, _, h, he, htaken⟩

end translated

/-- R37: a leaf that grants what an access needs. -/
theorem rightsTrap_eq_none {x : TlbEntry} {a : Word} {rd wr : Bool} (hr : rd = true → x.rd = true) (hw : wr = true → x.wr = true) :
    rightsTrap x a rd wr = none := by
  have hrd : (rd && !x.rd) = false := by simpa using hr
  have hwr : (wr && !x.wr) = false := by simpa using hw
  simp only [rightsTrap, hrd, hwr, Bool.or_self, Bool.false_eq_true, if_false]

/-- R32: a channel number is that of a die's channel and its die. -/
theorem channelOf_lt (pa : Nat) : channelOf pa < 2 ^ 32 := by
  have hbyte (n : Nat) : n % 256 < 2 ^ 32 := by omega
  exact Nat.xor_lt_two_pow (Nat.xor_lt_two_pow (Nat.xor_lt_two_pow (hbyte _) (hbyte _)) (hbyte _)) (hbyte _)

section homeAccess
variable {s s0 : State} {u : Turn} {t : Thread} {ea : Word} {x : TlbEntry} {acc : Access} {rd wr rlx : Bool} {kind : Nat} {d : Reg}
  (h : Translated s u t ea x s0) (ha : acc.size ∣ ea.toNat)
include h ha

/-- R378, R37: an access whose page does not grant its rights. -/
theorem homeAccess_of_lacking {tr : Trap} (hr : rightsTrap x ea rd wr = some tr) :
    homeAccess s u t ea acc rd wr rlx kind d = s0.raise u tr.cause tr.addr tr.info := by
  simp only [homeAccess, checkDv_of_translated h, State.checked, checkAligned_of_dvd ha, withXlate_of_lacking h hr]

variable (hr : rightsTrap x ea rd wr = none)
include hr

/-- R378: an access that is homed on another core traps with cause 0x12. -/
theorem homeAccess_of_other_home
    (hh : (dramTarget s (t.homesOf s u.ep x (ea.toNat % 2 ^ 56)) x (ea.toNat % 2 ^ 56)).1 ≠ u.ep) :
    homeAccess s u t ea acc rd wr rlx kind d = s0.raise u 0x12 ea (channelOf (x.addr (ea.toNat % 2 ^ 56))) := by
  have hne : ((dramTarget s (t.homesOf s u.ep x (ea.toNat % 2 ^ 56)) x (ea.toNat % 2 ^ 56)).1 != u.ep) = true := by simpa using hh
  simp only [homeAccess, checkDv_of_translated h, State.checked, checkAligned_of_dvd ha, withXlate_of_rights h hr,
    homesOf_of_translated h, dramTarget_of_translated h, hne, if_true]

/-- R86, R378: an access at its home asks the line buffer there. -/
theorem homeAccess_of_home {pa eb : Nat} {mpkg : Option Nat} {mir : Bool}
    (hh : dramTarget s (t.homesOf s u.ep x (ea.toNat % 2 ^ 56)) x (ea.toNat % 2 ^ 56) = (u.ep, pa, mpkg, mir))
    (hb : eb = (ebitOf s (epPkg u.ep) t.sr.peermap (paPkg pa)).getD 0) (hn : t.region = none) (hl : rlx = true → t.cnt.ldc < 8) :
    homeAccess s u t ea acc rd wr rlx kind d =
      if rlx then s0.askRelaxed u t u.ep (vcOfThread s0 u.ep t) eb true kind 3 d (.dram pa acc none rlx mpkg mir)
      else s0.ask u t u.ep (vcOfThread s0 u.ep t) eb .answer 5 3 d ea acc.size (.dram pa acc none rlx mpkg mir) := by
  have hout : inRegion t = false := by rw [inRegion, hn]; rfl
  have hroom : (rlx && atLimit t true) = false := by simpa [atLimit] using hl
  simp only [homeAccess, checkDv_of_translated h, State.checked, checkAligned_of_dvd ha, withXlate_of_rights h hr,
    homesOf_of_translated h, dramTarget_of_translated h, hh, bne_self_eq_false, hout, hroom, Bool.false_and, Bool.false_eq_true, if_false,
    ebitOf_of_translated h, hb]

end homeAccess

section issued
variable {s : State} {u : Turn} {t : Thread} {gd : Guard} {d a b c : Reg} {sz : BitVec 2} {sgn dbl rlx : Bool} {op : BitVec 4}
  {imm : BitVec 32}

theorem exec_mld_of_issues (h : Issues s u t (.mld gd d a sz sgn imm)) : exec (.mld gd d a sz sgn imm) s =
    .next (homeAccess s u t (gr t a + imm.signExtend 64) (.load (2 ^ sz.toNat) sgn) true false false 5 d) := by
  rw [exec_mld, execMld, issue_next h rfl rfl (by decide) (by decide) (lacks_tail (by decide) · · · _ _) (.inr rfl)]

theorem exec_mst_of_issues (h : Issues s u t (.mst gd d a sz imm)) : exec (.mst gd d a sz imm) s =
    .next (homeAccess s u t (gr t a + imm.signExtend 64) (.store (2 ^ sz.toNat) (gr t d).toNat) false true false 5 0) := by
  rw [exec_mst, execMst, issue_next h rfl rfl (by decide) (by decide) (lacks_tail (by decide) · · · _ _) (.inr rfl)]

/-- R379: code 15 compares with g[b] and stores g[c]. -/
def mamoAccess (t : Thread) (b c : Reg) (op : BitVec 4) (dbl : Bool) : Access :=
  if op = 15 then .atom 15 dbl (gr t c) (gr t b) true else .atom op.toNat dbl (gr t b) 0 true

theorem mamoAccess_size : (mamoAccess t b c op dbl).size = if dbl = true then 8 else 4 := by
  unfold mamoAccess
  split <;> rfl

theorem exec_mamo_of_issues (h : Issues s u t (.mamo gd d a b c op dbl rlx)) : exec (.mamo gd d a b c op dbl rlx) s =
    .next (homeAccess s u t (gr t a) (mamoAccess t b c op dbl) true true rlx 1 d) := by
  rw [exec_mamo, execMamo, issue_next h rfl rfl (by decide) (by decide) (lacks_tail (by decide) · · · _ _) (.inr rfl)]
  simp only [mamoAccess, beq_iff_eq]

section remup
variable {s0 : State} {x : TlbEntry} (hn : t.region = none) (hi : Issues s u t (.remup gd a b op dbl)) (h : Translated s u t (gr t a) x s0)
  (ha : (if dbl = true then 8 else 4) ∣ (gr t a).toNat) (hr : rightsTrap x (gr t a) true true = none)
include hn hi h ha hr

/-- R380: the update leaves for the home of its line, where the peer map names the home's package. -/
theorem exec_remup_of_peer {e : Nat}
    (hp : ebitOf s (epPkg u.ep) t.sr.peermap (paPkg (x.addr ((gr t a).toNat % 2 ^ 56))) = some e) (hl : t.cnt.stc < 8) :
    let tgt := dramTarget s (epPkg u.ep) x ((gr t a).toNat % 2 ^ 56)
    exec (.remup gd a b op dbl) s = .next ((countOut s0 u.ep t.ctx).askRelaxed u t tgt.1 (vcOfThread (countOut s0 u.ep t.ctx) u.ep t) e
      false 4 4 0 (.dram tgt.2.1 (.atom op.toNat dbl (gr t b) 0 false) none true tgt.2.2.1 tgt.2.2.2)) := by
  have hroom : atLimit t false = false := by simpa [atLimit] using hl
  rw [exec_remup, execRemup, issue_next hi rfl rfl (by decide) (by decide) (lacks_tail (by decide) · · · _ _) (.inl hn)]
  simp only [checkDv_of_translated h, State.checked, Access.size, checkAligned_of_dvd ha, withXlate_of_rights h hr,
    dramTarget_of_translated h, ebitOf_of_translated h, hp, hroom, Bool.false_eq_true, if_false]

/-- R380, R20: without a peer it traps. -/
theorem exec_remup_of_no_peer (hp : ebitOf s (epPkg u.ep) t.sr.peermap (paPkg (x.addr ((gr t a).toNat % 2 ^ 56))) = none) :
    exec (.remup gd a b op dbl) s = .next (s0.raise u 0x13 (gr t a) 0) := by
  rw [exec_remup, execRemup, issue_next hi rfl rfl (by decide) (by decide) (lacks_tail (by decide) · · · _ _) (.inl hn)]
  simp only [checkDv_of_translated h, State.checked, Access.size, checkAligned_of_dvd ha, withXlate_of_rights h hr,
    ebitOf_of_translated h, hp]

end remup

end issued

/-- R86, R375, R378, R379: MLD, MST and MAMO. -/
theorem homeAccesses : HomeAccesses := by
  unfold HomeAccesses
  intro s u t gd d a b c sz sgn dbl op imm x ea va tgt home pa body eb n w atom hr ⟨s0, h⟩
  have at_home (hh : home = u.ep) : tgt = (u.ep, pa, tgt.2.2.1, tgt.2.2.2) := Prod.ext hh rfl
  have asks {i : Instr} {acc : Access} {rd wr : Bool} {kind : Nat} {r : Reg} (hi : Issues s u t i)
      (he : exec i s = .next (homeAccess s u t ea acc rd wr false kind r)) (ha : acc.size ∣ ea.toNat)
      (hx : rightsTrap x ea rd wr = none) (hh : home = u.ep) : Asks i s u t u.ep eb (body acc false) .answer r :=
    asks_of_exec_ask_prepared hi.thread (.of_translated h) hi.calm
      (he.trans (congrArg _ (homeAccess_of_home h ha hx (at_home hh) rfl hr nofun)))
  have away {i : Instr} {acc : Access} {rd wr rlx : Bool} {kind : Nat} {r : Reg} (hi : Issues s u t i)
      (he : exec i s = .next (homeAccess s u t ea acc rd wr rlx kind r)) (ha : acc.size ∣ ea.toNat)
      (hx : rightsTrap x ea rd wr = none) (hh : home ≠ u.ep) (hk : TakesTraps t) :
      TrapsMapped i s u t ea x 0x12 (channelOf (x.addr va)) :=
    trapsMapped_of_exec_raise h (he.trans (congrArg _ (homeAccess_of_other_home h ha hx hh))) hi.thread hk (by decide) (channelOf_lt _)
  have lacking {i : Instr} {acc : Access} {rd wr rlx : Bool} {kind info : Nat} {r : Reg} (hi : Issues s u t i)
      (he : exec i s = .next (homeAccess s u t ea acc rd wr rlx kind r)) (ha : acc.size ∣ ea.toNat)
      (hx : rightsTrap x ea rd wr = some ⟨0x11, ea, info⟩) (hk : TakesTraps t) (hn : info < 2 ^ 32) : TrapsMapped i s u t ea x 0x11 info :=
    trapsMapped_of_exec_raise h (he.trans (congrArg _ (homeAccess_of_lacking h ha hx))) hi.thread hk (by decide) hn
  have reads (hrd : x.rd = true) : rightsTrap x ea true false = none := rightsTrap_eq_none (fun _ => hrd) nofun
  have writes (hwr : x.wr = true) : rightsTrap x ea false true = none := rightsTrap_eq_none nofun fun _ => hwr
  have both (hrd : x.rd = true) (hwr : x.wr = true) : rightsTrap x ea true true = none := rightsTrap_eq_none (fun _ => hrd) fun _ => hwr
  refine ⟨fun hi hea ha => ?mld, fun hi hea ha => ?mst, fun hi hea ha hrd hwr => ?mamo, fun hi hea ha hrd hwr hh hl => ?relaxed⟩ <;>
    subst hea
  case mld =>
    have he := exec_mld_of_issues hi
    exact ⟨fun hrd hh => asks hi he ha (reads hrd) hh, fun hrd hh hk => away hi he ha (reads hrd) hh hk,
      fun hrd hk => lacking hi he ha (by simp [rightsTrap, hrd]; rfl) hk (by decide)⟩
  case mst =>
    have he := exec_mst_of_issues hi
    exact ⟨fun hwr hh => asks hi he ha (writes hwr) hh, fun hwr hh hk => away hi he ha (writes hwr) hh hk,
      fun hwr hk => lacking hi he ha (by simp [rightsTrap, hwr]; rfl) hk (by decide)⟩
  case mamo =>
    have he := exec_mamo_of_issues hi
    have ha : (mamoAccess t b c op dbl).size ∣ (gr t a).toNat := by rw [mamoAccess_size]; exact ha
    exact ⟨fun hh => asks hi he ha (both hrd hwr) hh, fun hh hk => away hi he ha (both hrd hwr) hh hk⟩
  case relaxed =>
    have he := exec_mamo_of_issues hi
    have ha : (mamoAccess t b c op dbl).size ∣ (gr t a).toNat := by rw [mamoAccess_size]; exact ha
    exact sendsRelaxed_of_exec_askRelaxed hi.thread (.of_translated h) hr
      (he.trans (congrArg _ (homeAccess_of_home h ha (both hrd hwr) (at_home hh) rfl hr fun _ => hl)))

/-- R380: REMUP. -/
theorem remoteUpdates : RemoteUpdates := by
  unfold RemoteUpdates
  intro s u t gd a b op dbl x ea va tgt peer i hi hr ⟨s0, h⟩ ha hrd hwr
  have hx : rightsTrap x ea true true = none := rightsTrap_eq_none (fun _ => hrd) fun _ => hwr
  refine ⟨fun e hpeer hl => ?sent, fun hpeer hk => ?unnamed⟩
  case sent =>
    exact sendsRelaxed_of_exec_askRelaxed hi.thread ((Prepared.of_translated h).trans (.countOut s0 u.ep u.ep t.ctx)) hr
      (exec_remup_of_peer hr hi h ha hx hpeer hl)
  case unnamed =>
    exact trapsMapped_of_exec_raise h (exec_remup_of_no_peer hr hi h ha hx hpeer) hi.thread hk (by decide) (by decide)

/-- Settles O28: an access whose page is mapped behaves as on the state after its translation, which differs in the core's own TLB alone. -/
theorem homeMemoryAccesses : Obligations.HomeMemoryAccesses := ⟨homeAccesses, remoteUpdates⟩

end Sys2Proof.Machine
end

section
/-! What the units leave of a core (R80 to R82, R207, R254): its slots, its swaps under way, its held messages and its groups, with the clusters. -/

namespace Sys2Proof.Machine

/-- A table with every value changed. -/
theorem tget_map_snd {α : Type} (f : α → α) (t : Table α) (k : Nat) : tget (t.map fun x => (x.1, f x.2)) k = (tget t k).map f := by
  induction t with
  | nil => rfl
  | cons x l ih =>
    simp only [List.map_cons, tget, ih]
    split <;> rfl

/-- What a core holds of its threads and groups. -/
def Core.threadView (c : Core) : Table Thread × List (Nat × Nat × Nat) × List HeldMsg × List Group := (c.slots, c.swaps, c.held, c.groups)

/-- A step that leaves what a core holds of its threads and groups, and the clusters. -/
structure KeepsThreads (e : EP) (s s' : State) : Prop where
  view : (s'.core? e).map Core.threadView = (s.core? e).map Core.threadView
  clusters : s'.clusters = s.clusters

namespace KeepsThreads

section basic
variable {e : EP} {s s' : State}

theorem refl (e : EP) (s : State) : KeepsThreads e s s := ⟨rfl, rfl⟩

theorem trans {s'' : State} (h : KeepsThreads e s s') (h' : KeepsThreads e s' s'') : KeepsThreads e s s'' :=
  ⟨h'.view.trans h.view, h'.clusters.trans h.clusters⟩

theorem foldl {α : Type} {f : State → α → State} (hf : ∀ s x, KeepsThreads e s (f s x)) (l : List α) (s : State) :
    KeepsThreads e s (l.foldl f s) := by
  induction l generalizing s with
  | nil => exact refl e s
  | cons x l ih => exact (hf s x).trans (ih (f s x))

/-- Either of two. -/
theorem ite {c : Prop} [Decidable c] {a b : State} (ha : KeepsThreads e s a) (hb : KeepsThreads e s b) :
    KeepsThreads e s (if c then a else b) := by
  split
  · exact ha
  · exact hb

/-- What stands outside the cores and the clusters may change. -/
theorem of_cores (hc : s'.cores = s.cores) (hk : s'.clusters = s.clusters) : KeepsThreads e s s' :=
  ⟨by rw [State.core?, hc]; rfl, hk⟩

theorem modCore (s : State) (i : EP) {f : Core → Core} (hf : ∀ c, (f c).threadView = c.threadView) : KeepsThreads e s (s.modCore i f) := by
  refine ⟨?_, rfl⟩
  simp only [State.core?, State.modCore]
  by_cases h : e = i
  · subst h
    rw [tget_tmod_same, Option.map_map]
    exact congrArg (Option.map · _) (funext hf)
  · rw [tget_tmod_other _ _ h]

theorem modCore_other (s : State) {i : EP} (h : e ≠ i) (f : Core → Core) : KeepsThreads e s (s.modCore i f) :=
  ⟨by simp only [State.core?, State.modCore, tget_tmod_other _ _ h], rfl⟩

/-- Every core changes and keeps what it holds of its threads and groups. -/
theorem mapCores (s : State) {f : Core → Core} (hf : ∀ c, (f c).threadView = c.threadView) :
    KeepsThreads e s { s with cores := s.cores.map fun x => (x.1, f x.2) } := by
  refine ⟨?_, rfl⟩
  simp only [State.core?, tget_map_snd, Option.map_map]
  exact congrArg (Option.map · _) (funext hf)

theorem modPkg (s : State) (i : Nat) (f : Pkg → Pkg) : KeepsThreads e s (s.modPkg i f) := of_cores rfl rfl
theorem modDie (s : State) (k : Nat) (f : Die → Die) : KeepsThreads e s (s.modDie k f) := of_cores rfl rfl
theorem event (s : State) (p k a i n : Nat) (d : Word) : KeepsThreads e s (s.event p k a i n d) := of_cores rfl rfl
theorem send (s : State) (a b v : Nat) (r : Req) (c : Carry) (x : Body) : KeepsThreads e s (s.send a b v r c x) := of_cores rfl rfl

theorem report (s : State) (p h a b c : Nat) : KeepsThreads e s (s.report p h a b c) := of_cores (report_cores ..) (report_clusters ..)

theorem reportItem (s : State) (pkg : Nat) (c : Carry) (a b d : Nat) : KeepsThreads e s (reportItem s pkg c a b d) :=
  ite (refl e s) (ite (report ..) (of_cores rfl rfl))

end basic

section reads
variable {e : EP} {s s' : State} (h : KeepsThreads e s s')
include h

theorem thr? (n : Nat) : s'.thr? e n = s.thr? e n := by
  have hslots := congrArg (fun o => o.bind fun v => tget v.1 n) h.view
  simpa only [Option.bind_map, Function.comp_def, Core.threadView, State.core?, State.thr?] using hslots

theorem isSome : (tget s'.cores e).isSome = (tget s.cores e).isSome := by
  simpa only [Option.isSome_map, State.core?] using congrArg Option.isSome h.view

theorem core : (s'.core e).threadView = (s.core e).threadView := by
  have hview := h.view
  simp only [State.core?] at hview
  simp only [State.core]
  cases hc : tget s.cores e <;> cases hc' : tget s'.cores e <;> simp_all

theorem groupOf (c : Ctx) (v : Nat) : Machine.groupOf s' e c v = Machine.groupOf s e c v := by
  have hg : (s'.core e).groups = (s.core e).groups := congrArg (·.2.2.2) h.core
  rw [Machine.groupOf, hg, Machine.groupOf]

theorem cluster (k : Nat) : s'.cluster k = s.cluster k := by rw [State.cluster, h.clusters, State.cluster]

end reads

section memory
variable {e : EP}

theorem modBuf (s : State) (i : EP) (f : List BufLine → List BufLine) : KeepsThreads e s (s.modBuf i f) := modCore s i fun _ => rfl
theorem modLine (s : State) (i : EP) (line : Nat) (f : BufLine → BufLine) : KeepsThreads e s (s.modLine i line f) := modBuf ..
theorem withDram (s : State) (d c : Memory) : KeepsThreads e s { s with dram := d, check := c } := of_cores rfl rfl

theorem storeLine (s : State) (line data : Nat) : KeepsThreads e s (storeLine s line data) := by
  unfold Machine.storeLine
  exact withDram ..

theorem storeMarker (s : State) (line : Nat) : KeepsThreads e s (storeMarker s line) := by
  unfold Machine.storeMarker
  exact withDram ..

theorem makeOchre (s : State) (i : EP) (line kind : Nat) : KeepsThreads e s (makeOchre s i line kind) :=
  ((modLine s i line _).trans (storeMarker ..)).trans (event ..)

/-- R83: the errors of a line are met. -/
theorem meetLineErrors (s : State) (i : EP) (pa n : Nat) : KeepsThreads e s (meetLineErrors s i pa n) := by
  unfold Machine.meetLineErrors
  split
  · exact refl e s
  · next b _ =>
    dsimp only
    exact ite (refl e s) (ite (makeOchre ..) ((modLine s i b.line _).trans (modCore _ i fun _ => rfl)))

/-- R81: a line comes into the buffer. -/
theorem enterLine (s : State) (i : EP) (b : BufLine) : KeepsThreads e s (enterLine s i b) := by
  unfold Machine.enterLine
  split
  · exact modBuf ..
  · next v _ =>
    dsimp only
    have met : KeepsThreads e s (if v.dirty then Machine.meetLineErrors s i v.line 64 else s) := ite (meetLineErrors ..) (refl e s)
    generalize (if v.dirty then Machine.meetLineErrors s i v.line 64 else s) = s' at met ⊢
    refine (met.trans ?_).trans (modBuf ..)
    split
    · exact ite (storeLine ..) (refl e _)
    · exact refl e _
  · exact refl e s

/-- R93, R95: a line is read from DRAM. -/
theorem enterRead (s : State) (i : EP) (line : Nat) : KeepsThreads e s (enterRead s i line) := by
  have fixed (l : List Nat) : KeepsThreads e s (countFixed s i l) := modCore s i fun _ => rfl
  unfold Machine.enterRead
  exact ite (enterLine ..) (ite ((enterLine ..).trans (makeOchre ..)) ((fixed _).trans (enterLine ..)))

/-- R80: a unit reads a line. -/
theorem unitReadLine (s : State) (line pa n : Nat) : KeepsThreads e s (unitReadLine s line pa n) := by
  unfold Machine.unitReadLine
  dsimp only
  split
  · exact refl e s
  · refine ite (refl e s) ?_
    split
    · exact ite (refl e s) (meetLineErrors ..)
    · exact enterRead ..

theorem sendRegion (s : State) (src dst : EP) (req : Req) (carry : Carry) (m : RMsg) : KeepsThreads e s (s.sendRegion src dst req carry m) :=
  send ..

/-- R189: the units of the regions that a plain write meets are asked. -/
theorem abortPlain (s : State) (i : EP) (a n : Nat) : KeepsThreads e s (abortPlain s i a n) := by
  unfold Machine.abortPlain
  dsimp only
  refine ite (refl e s) ((modCore s i ?_).trans (foldl (fun s r => ?_) _ _))
  · exact fun _ => rfl
  unfold State.askAbort
  split
  · exact sendRegion ..
  · exact refl e s

theorem setLine (s : State) (line data : Nat) : KeepsThreads e s (setLine s line data) := by
  unfold Machine.setLine
  split
  · exact modCore s _ fun _ => rfl
  · exact storeLine ..

/-- R96: a part of a line is written. -/
theorem applyPart (s : State) (line off : Nat) (part : List (BitVec 8)) : KeepsThreads e s (applyPart s line off part) := by
  unfold Machine.applyPart
  dsimp only
  have plain := abortPlain (e := e) s (homeOf line) (dramKey (line + off)) part.length
  generalize Machine.abortPlain s (homeOf line) (dramKey (line + off)) part.length = s1 at plain ⊢
  have read : KeepsThreads e s1 (if part.length == 64 then s1 else Machine.unitReadLine s1 line (line + off) part.length) :=
    ite (refl e s1) (unitReadLine ..)
  generalize (if part.length == 64 then s1 else Machine.unitReadLine s1 line (line + off) part.length) = s2 at read ⊢
  refine (plain.trans read).trans ?_
  split
  · exact setLine ..
  · exact ite (setLine ..) (refl e _)

/-- R80, R82: a unit writes bytes. -/
theorem physWrite (s : State) (pa : Nat) (bs : List (BitVec 8)) : KeepsThreads e s (physWrite s pa bs) :=
  foldl (fun _ _ => ite (send ..) (applyPart ..)) _ s

end memory

section references
variable {e : EP}

theorem forget (s : State) (pkg h : Nat) : KeepsThreads e s (forget s pkg h) := foldl (fun _ _ => modDie ..) _ s
theorem broadcast (s : State) (pkg : Nat) (c : Change) : KeepsThreads e s (s.broadcast pkg c) :=
  (modPkg s pkg _).trans (foldl (fun _ _ => modDie ..) _ _)
theorem modLapse (s : State) (pkg h : Nat) (f : Lapse → Lapse) : KeepsThreads e s (s.modLapse pkg h f) := modPkg ..
theorem freeHandle (s : State) (pkg h : Nat) : KeepsThreads e s (freeHandle s pkg h) :=
  ((modPkg s pkg fun p => { p with lapse := tdelete h p.lapse, freed := p.freed ++ [h] }).trans (forget _ pkg h)).trans
    (of_cores (s' := Machine.freeHandle s pkg h) rfl rfl)

/-- R209: a proxy ends. -/
theorem endProxy (s : State) (pkg h : Nat) (x : Lapse) : KeepsThreads e s (endProxy s pkg h x) := by
  have ctl (l : List Ctl) : KeepsThreads e s { s with ctl := l } := of_cores rfl rfl
  unfold Machine.endProxy
  exact (ctl _).trans (freeHandle ..)

theorem refDecPlain (s : State) (pkg h : Nat) : KeepsThreads e s (refDecPlain s pkg h) := by
  unfold Machine.refDecPlain
  split
  · exact refl e s
  · exact ite (modLapse ..) (ite (endProxy ..) ((ite (broadcast ..) (refl e s)).trans (modLapse ..)))

/-- R207: a reference ends. -/
theorem refDec (s : State) (pkg h : Nat) : KeepsThreads e s (refDec s pkg h) := by
  unfold Machine.refDec
  refine ite (refl e s) ?_
  split
  · exact refl e s
  · refine ite (ite (modLapse ..) ?_) (refDecPlain ..)
    exact (modPkg s pkg _).trans ((freeHandle ..).trans (foldl (fun _ _ => ite (refDecPlain ..) (refl e _)) _ _))

end references

section regions
variable {e : EP}

theorem countIn (s : State) (i : EP) (c : Ctx) : KeepsThreads e s (countIn s i c) := by
  unfold Machine.countIn modNi
  exact ite (refl e s) (ite (modPkg ..) (modCore s i fun _ => rfl))

theorem endAccess (s : State) (dk : Nat) (a : RAccess) : KeepsThreads e s (endAccess s dk a) :=
  (modDie s dk _).trans (ite (countIn ..) (refl e _))

/-- R191, R192: one region aborts. -/
theorem abortOne (s : State) (dk id cause : Nat) (silent : Bool) : KeepsThreads e s (abortOne s dk id cause silent) := by
  unfold Machine.abortOne
  split
  · exact refl e s
  · refine ite (((ite (report ..) (refl e s)).trans (foldl (fun _ _ => ?_) _ _)).trans
      (ite ((modDie ..).trans (ite (refl e _) (sendRegion ..))) ((modDie ..).trans (foldl (fun _ _ => sendRegion ..) _ _)))) (refl e s)
    exact (endAccess ..).trans (ite (send ..) (refl e _))

theorem cascade (s : State) (dk : Nat) (ids : List Nat) (n : Nat) : KeepsThreads e s (cascade s dk ids n) := by
  induction n generalizing s ids with
  | zero => exact refl e s
  | succ n ih => exact ite (refl e s) ((foldl (fun _ _ => abortOne ..) _ s).trans (ih ..))

/-- R192: the region of a thread that ends aborts. -/
theorem endRegion (s : State) (pkg : Nat) (t : Thread) (cause : Nat) : KeepsThreads e s (s.endRegion pkg t cause) := by
  unfold State.endRegion
  split
  · exact ite ((abortOne ..).trans (cascade ..)) (refl e s)
  · exact refl e s

end regions

end KeepsThreads

end Sys2Proof.Machine
end

section
/-! The end of threads on a core (R217, R219, R254, R348): other cores keep what they hold, and a slot that is vacant stays so. -/

namespace Sys2Proof.Machine

@[simp] theorem thr?_vacate_same (s : State) (e : EP) (n : Nat) : (s.vacate e n).thr? e n = none := by
  simp only [State.thr?, State.vacate, State.modCore, tget_tmod_same]
  cases tget s.cores e with
  | none => rfl
  | some c => simp only [Option.map_some, Option.bind_some, tget_tdelete_same]

/-- What a table does not hold no part of it holds. -/
theorem tget_filter_eq_none {α : Type} (p : Nat × α → Bool) {n : Nat} {t : Table α} (h : tget t n = none) : tget (t.filter p) n = none := by
  induction t with
  | nil => rfl
  | cons x r ih =>
    obtain ⟨j, x⟩ := x
    simp only [tget] at h
    split at h
    · cases h
    · next hj =>
      rw [List.filter_cons]
      split
      · simp only [tget, hj, Bool.false_eq_true, if_false, ih h]
      · exact ih h

/-- A step of a core that leaves every other core, and fills no slot. -/
structure EndsThreads (e : EP) (s s' : State) : Prop where
  other : ∀ i, i ≠ e → KeepsThreads i s s'
  vacant : ∀ n, s.thr? e n = none → s'.thr? e n = none

namespace EndsThreads

variable {e : EP} {s s' : State}

theorem of_keeps (h : ∀ i, KeepsThreads i s s') : EndsThreads e s s' := ⟨fun i _ => h i, fun n hn => ((h e).thr? n).trans hn⟩

theorem refl (e : EP) (s : State) : EndsThreads e s s := of_keeps fun i => .refl i s

theorem trans {s'' : State} (h : EndsThreads e s s') (h' : EndsThreads e s' s'') : EndsThreads e s s'' :=
  ⟨fun i hi => (h.other i hi).trans (h'.other i hi), fun n hn => h'.vacant n (h.vacant n hn)⟩

theorem foldl {α : Type} {f : State → α → State} (hf : ∀ s x, EndsThreads e s (f s x)) (l : List α) (s : State) :
    EndsThreads e s (l.foldl f s) := by
  induction l generalizing s with
  | nil => exact refl e s
  | cons x l ih => exact (hf s x).trans (ih (f s x))

theorem modCore (s : State) {f : Core → Core} (hf : ∀ c n, tget c.slots n = none → tget (f c).slots n = none) :
    EndsThreads e s (s.modCore e f) := by
  refine ⟨fun i hi => .modCore_other s hi f, fun n hn => ?_⟩
  simp only [State.thr?, State.modCore, tget_tmod_same] at hn ⊢
  cases hc : tget s.cores e with
  | none => rfl
  | some c =>
    rw [hc] at hn
    exact hf c n hn

theorem modThr (s : State) (n : Nat) (f : Thread → Thread) : EndsThreads e s (s.modThr e n f) := by
  refine modCore s fun c m hm => ?_
  by_cases h : m = n
  · subst h; rw [tget_tmod_same, hm]; rfl
  · rw [tget_tmod_other _ _ h, hm]

theorem vacate (s : State) (n : Nat) : EndsThreads e s (s.vacate e n) := by
  refine modCore s fun c m hm => ?_
  by_cases h : m = n
  · subst h; exact tget_tdelete_same ..
  · rw [tget_tdelete_other _ h, hm]

theorem returnRes (s : State) (n : Nat) (t : Thread) : EndsThreads e s (returnRes s e n t) := by
  unfold Machine.returnRes
  split
  · exact refl e s
  · split
    · exact refl e s
    · exact of_keeps fun _ => .send ..

theorem flushOutbox (s : State) (n : Nat) : EndsThreads e s (flushOutbox s e n) := by
  unfold Machine.flushOutbox
  split
  · exact refl e s
  · exact (of_keeps fun _ => .foldl (fun _ _ => .send ..) _ s).trans (modThr ..)

theorem stopJobs (s : State) (uid : Nat) (b : Bool) : EndsThreads e s (stopJobs s e uid b) := of_keeps fun _ => .modCore s e fun _ => rfl

theorem releaseClaims (s : State) (c : Ctx) (v : Nat) : EndsThreads e s (releaseClaims s e c v) := of_keeps fun _ => .modCore s e fun _ => rfl

theorem modGroup (s : State) (c : Ctx) (v : Nat) (f : Group → Group) : EndsThreads e s (s.modGroup e c v f) := modCore s fun _ _ h => h

/-- R254: a group ends. -/
theorem endGroup (s : State) (g : Group) : EndsThreads e s (endGroup s e g) := by
  unfold Machine.endGroup
  dsimp only
  refine .trans ?map ((foldl (fun s x => ?thread) _ _).trans ((releaseClaims ..).trans ((modCore _ ?slots).trans (of_keeps fun _ => .modPkg ..))))
  case map =>
    split
    · exact of_keeps fun _ => .physWrite ..
    · exact refl e s
  case thread => exact ((returnRes ..).trans (flushOutbox ..)).trans (stopJobs ..)
  case slots => exact fun c n hn => tget_filter_eq_none _ hn

theorem checkGroup (s : State) (c : Ctx) (v : Nat) : EndsThreads e s (checkGroup s e c v) := by
  unfold Machine.checkGroup
  split
  · split
    · exact refl e s
    · exact endGroup ..
  · exact refl e s

/-- R260, R293: what a RESUME has reserved is released. -/
theorem leaveResume (s : State) (p : Park) : EndsThreads e s (leaveResume s e p) := by
  unfold Machine.leaveResume
  dsimp only
  split
  · split
    · unfold State.unreserve
      split
      · exact refl e s
      · split
        · exact refl e s
        · exact (releaseClaims ..).trans ((modGroup ..).trans (of_keeps fun _ => .modPkg ..))
    · exact refl e s
  · exact refl e s

end EndsThreads

/-- What a thread leaves with its slots: what it reserved for a RESUME, its references, and its group. -/
def leaveGroup (s : State) (e : EP) (t : Thread) : State :=
  let s := match t.park with
    | some p => leaveResume s e p
    | none => s
  if t.origin.isSome then s
  else
    let s := refDec s (epPkg e) t.sr.hnd.toNat
    let s := match t.provisional with
      | some h => refDec s (epPkg e) h.toNat
      | none => s
    checkGroup s e t.ctx t.vcore

theorem EndsThreads.leaveGroup {e : EP} (s : State) (t : Thread) : EndsThreads e s (leaveGroup s e t) := by
  unfold Machine.leaveGroup
  dsimp only
  have resume : EndsThreads e s (match t.park with
      | some p => Machine.leaveResume s e p
      | none => s) := by
    split
    · exact .leaveResume ..
    · exact .refl e s
  generalize (match t.park with
      | some p => Machine.leaveResume s e p
      | none => s) = s' at resume ⊢
  refine resume.trans ?_
  split
  · exact .refl e s'
  · refine .trans ?_ (.checkGroup ..)
    split
    · exact .of_keeps fun _ => (KeepsThreads.refDec ..).trans (.refDec ..)
    · exact .of_keeps fun _ => .refDec ..

/-- R348: a thread that ends leaves its slot, with a redundant pair both, and then its group. -/
theorem endThread_eq_leaveGroup {s : State} {e : EP} {n : Nat} {t : Thread} (ht : s.thr? e n = some t) :
    ∃ s0 s1 : State, EndsThreads e (s0.vacate e n) s1 ∧ endThread s e n = leaveGroup s1 e t := by
  unfold endThread
  rw [ht]
  dsimp only
  generalize stopJobs _ e t.uid false = s0
  cases t.pair with
  | none => exact ⟨s0, s0.vacate e n, .refl .., rfl⟩
  | some q => exact ⟨s0, (s0.vacate e n).vacate e q.other, .vacate .., rfl⟩

/-- R217, R348: the slot of a thread that has ended is vacant. -/
theorem thr?_endThread (s : State) (e : EP) (n : Nat) : (endThread s e n).thr? e n = none := by
  cases ht : s.thr? e n with
  | none => simp only [endThread, ht]
  | some t =>
    obtain ⟨s0, s1, hs, heq⟩ := endThread_eq_leaveGroup ht
    rw [heq]
    exact (hs.trans (.leaveGroup s1 t)).vacant n (thr?_vacate_same ..)

/-- R217, R219: so is that of one that has lapsed. -/
theorem thr?_freeLapsed {s : State} {e : EP} {n : Nat} {t : Thread} (ht : s.thr? e n = some t) (ho : t.origin = none) :
    (freeLapsed s e n).thr? e n = none := by
  have hr : (s.report (epPkg e) t.sr.hnd.toNat 1 0 0).thr? e n = some t := ((KeepsThreads.report ..).thr? n).trans ht
  simp only [freeLapsed, ht, ho, Option.isSome_none, Bool.false_eq_true, if_false, endVisitor, hr]
  exact thr?_endThread ..

end Sys2Proof.Machine
end

section
/-! Migrants (R80, R87, R89, R219, R285, R376): their arrival, their ingress queue and their way home. -/

namespace Sys2Proof.Machine

/-- R192, R289: a thread's region stands outside its image. -/
theorem region_ofImage (t : Thread) (w : Nat → Nat) : (t.ofImage w).region = t.region := by
  unfold Thread.ofImage
  dsimp only
  split
  · split <;> rfl
  · rfl

/-- R192: the region of a thread where it is does not depend on what is on the net. -/
theorem region_thrWhere_dropPkt (s : State) (k : Nat) (e : EP) (w : Whereabouts) :
    ((s.dropPkt k).thrWhere e w).bind (·.region) = (s.thrWhere e w).bind (·.region) := by
  cases w with
  | slot n => rfl
  | tcc n => rfl
  | gone => rfl
  | spilled j =>
    simp only [State.thrWhere, Option.bind_map, Function.comp_def, spillRead, region_ofImage]
    rfl

/-- A thread is where it was, and its region is the same. -/
theorem region_thrWhere_modMem (s : State) (i : EP) (f : MemCore → MemCore) (e : EP) (uid : Nat) :
    ((s.modMem i f).thrWhere e (locate (s.modMem i f) e uid)).bind (·.region) = (s.thrWhere e (locate s e uid)).bind (·.region) := by
  have hk : KeepsThreads e s (s.modMem i f) := .modCore s i fun _ => rfl
  have hl : locate (s.modMem i f) e uid = locate s e uid := by
    have hslots : ((s.modMem i f).core e).slots = (s.core e).slots := congrArg (·.1) hk.core
    unfold locate
    rw [hslots, hk.cluster]
    rfl
  rw [hl]
  cases locate s e uid with
  | slot n => exact congrArg (·.bind (·.region)) (hk.thr? n)
  | tcc n => rfl
  | gone => rfl
  | spilled j =>
    simp only [State.thrWhere, Option.bind_map, Function.comp_def, spillRead, region_ofImage]
    rfl

section place
variable {s : State} {e : EP} {n : Nat} {m : Migrant}

theorem core_placeMigrant_mem (i : EP) : ((placeMigrant s e n m).core i).mem = (s.core i).mem :=
  core_modCore_of_keeps (g := Core.mem) (f := fun c => { c with slots := tput n _ c.slots }) (fun _ => rfl) ..

/-- A slot filled. -/
theorem thr?_modCore_tput (hc : (tget s.cores e).isSome = true) (t : Thread) :
    (s.modCore e fun k => { k with slots := tput n t k.slots }).thr? e n = some t := by
  obtain ⟨c, hc⟩ := Option.isSome_iff_exists.1 hc
  simp only [State.thr?, State.modCore, tget_tmod_same, hc, Option.map_some, Option.bind_some, tget_tput_same]

/-- R87, R377, R444: a migrant that has taken a slot of a core on its origin's package runs there; `s0` is the state before. -/
theorem visits_placeMigrant {s0 : State} (hc : (tget s.cores e).isSome = true) (hp : epPkg m.origin.ep = epPkg e) (hu : s.nextUid = s0.nextUid)
    (hr : (s.thrWhere m.origin.ep (locate s m.origin.ep m.origin.uid)).bind (·.region) =
      (s0.thrWhere m.origin.ep (locate s0 m.origin.ep m.origin.uid)).bind (·.region)) :
    Visits s0 (placeMigrant s e n m) e n s0.nextUid m m.carry := by
  have hsame : (epPkg m.origin.ep == epPkg e) = true := beq_iff_eq.2 hp
  refine ⟨_, thr?_modCore_tput (s := { (s.draw 12).2 with nextUid := (s.draw 12).2.nextUid + 1 }) hc _, rfl, rfl, rfl, rfl, rfl, hu, rfl, rfl,
    ?sr, ?region⟩
  case sr => simp only [hsame, if_true]
  case region =>
    rw [hr]
    cases m.thr.region with
    | none => rfl
    | some r => cases (s0.thrWhere m.origin.ep (locate s0 m.origin.ep m.origin.uid)).bind (·.region) <;> rfl

end place

/-- R87: no slot is taken where one is queued or none is free. -/
theorem takes_no_slot {s : State} {p : Pkt} (hn : (s.core p.dst).mem.migrants ≠ [] ∨ freeVisitor s p.dst = none) :
    (if (s.core p.dst).mem.migrants.isEmpty then freeVisitor s p.dst else none) = none := by
  rcases hn with hn | hn
  · rw [if_neg (by simpa using hn)]
  · rw [hn, ite_self]

section arrival
variable {s : State} {k n : Nat} {p : Pkt} {m : Migrant} (h : Arrives s k p) (hb : p.body = .migrant m) (hx : expired s p.dst p.carry = false)
  (hw : wrongChannel s p.dst p = false)
include h hb hx hw

/-- R87: a migrant that meets a full queue stays where it is. -/
theorem exec_migrantArrival_of_full (hl : 32 ≤ (s.core p.dst).mem.migrants.length) : exec (.migrantArrival k) s = .next s := by
  have hn : (s.core p.dst).mem.migrants ≠ [] := fun hn => by rw [hn] at hl; exact absurd hl (by decide)
  have hask : p.asking = none := by simp only [Pkt.asking, hb]
  obtain ⟨hmem, hstage⟩ := mem_and_arrived_of_arrives h
  simp only [exec_migrantArrival, execMigrantArrival, onPacket_of_arrives h, hb, hx, hw, takes_no_slot (.inl hn), hl,
    State.noteReplies, hask, reapProxy_of_carried hmem hstage, Bool.false_eq_true, if_false, if_true]

variable (hp : epPkg m.origin.ep = epPkg p.dst)
include hp

/-- R87: with no migrant queued, a free visitor slot is taken. -/
theorem becomes_placeMigrant (hq : (s.core p.dst).mem.migrants = []) (hf : freeVisitor s p.dst = some n) :
    Becomes (.migrantArrival k) s p (placeMigrant (s.dropPkt k) p.dst n { m with carry := p.carry }) := by
  simp only [Becomes, exec_migrantArrival, execMigrantArrival, onPacket_of_arrives h, hb, hx, hw, hp, hq, hf, List.isEmpty_nil,
    beq_self_eq_true, Bool.false_eq_true, if_false, if_true]

/-- R87: behind others, or with no slot free, a migrant is queued. -/
theorem becomes_queued (hn : (s.core p.dst).mem.migrants ≠ [] ∨ freeVisitor s p.dst = none)
    (hl : (s.core p.dst).mem.migrants.length < 32) : Becomes (.migrantArrival k) s p
      ((s.dropPkt k).modCore p.dst fun c => { c with mem := { c.mem with migrants := c.mem.migrants ++ [{ m with carry := p.carry }] } }) := by
  simp only [Becomes, exec_migrantArrival, execMigrantArrival, onPacket_of_arrives h, hb, hx, hw, hp, takes_no_slot hn,
    Nat.not_le.2 hl, beq_self_eq_true, Bool.false_eq_true, if_false, if_true]
  rfl

end arrival

theorem originSlot_dropPkt (s : State) (k : Nat) (o : Origin) : originSlot (s.dropPkt k) o = originSlot s o := rfl

/-- R110, R111: what comes home on VC0, or on the channel of its context, is not refused. -/
theorem not_barred {s : State} {p : Pkt} (hw : p.vc = 0 ∨ wrongChannel s p.dst p = false) :
    (p.vc != 0 && wrongChannel s p.dst p) = false := by
  rcases hw with hw | hw
  · rw [hw]; rfl
  · rw [hw, Bool.and_false]

section returns
variable {s : State} {k n : Nat} {p : Pkt} {m : Migrant} {t : Thread} {trap : Option (Nat × Word × Word)} {ended : Bool}
  (h : Arrives s k p) (hb : p.body = .comeBack m trap ended)
include h hb

/-- R219: a migrant that has lapsed on its way home ends its origin. -/
theorem becomes_dropLapsed_of_comeBack (hx : expired s p.dst p.carry = true) :
    Becomes (.migrantReturn k) s p (dropLapsed s k p.dst p p.carry) := by
  simp only [Becomes, exec_migrantReturn, execMigrantReturn, onPacket_of_arrives h, hb, hx, if_true]

omit h in
/-- R218, R219: its origin's slot is vacant once the drop is reported. -/
theorem thr?_dropLapsed_of_comeBack (ho : originSlot s m.origin = some (n, t)) (hd : m.origin.ep = p.dst) (ht : s.thr? p.dst n = some t)
    (hto : t.origin = none) : (dropLapsed s k p.dst p p.carry).thr? p.dst n = none := by
  have htold : tellDropped (takePkt s k p.dst p) p.dst p = freeLapsed (s.dropPkt k) p.dst n := by
    simp only [tellDropped, takePkt, Pkt.probed, hb, originSlot_dropPkt, ho, hd, Bool.false_eq_true, if_false]
  rw [dropLapsed, htold, (KeepsThreads.reportItem ..).thr?]
  exact thr?_freeLapsed (s := s.dropPkt k) ht hto

variable (hx : expired s p.dst p.carry = false) (hw : p.vc = 0 ∨ wrongChannel s p.dst p = false)
include hx hw

/-- R89: with its origin gone, a migrant that comes back is dropped. -/
theorem becomes_dropPkt_of_gone (ho : originSlot s m.origin = none) : Becomes (.migrantReturn k) s p (s.dropPkt k) := by
  simp only [Becomes, exec_migrantReturn, execMigrantReturn, onPacket_of_arrives h, hb, hx, not_barred hw, originSlot_dropPkt, ho,
    Bool.false_eq_true, if_false]

variable (ho : originSlot s m.origin = some (n, t))
include ho

/-- R89: a migrant that has ended, and has not lapsed, ends its origin. -/
theorem becomes_endThread (he : ended = true) (hl : m.thr.lapsed = false) :
    Becomes (.migrantReturn k) s p (endThread (s.dropPkt k) p.dst n) := by
  simp only [Becomes, exec_migrantReturn, execMigrantReturn, onPacket_of_arrives h, hb, hx, not_barred hw, originSlot_dropPkt, ho, he, hl,
    Bool.false_eq_true, if_false, if_true]

/-- R89: a migrant of the same package re-enters its origin slot. -/
theorem becomes_comeHome (he : ended = false) (hp : epPkg p.src = epPkg p.dst) (ht : trap = none) :
    Becomes (.migrantReturn k) s p ((s.dropPkt k).modThr p.dst n (·.comeHome m p.carry)) := by
  subst ht
  simp only [Becomes, exec_migrantReturn, execMigrantReturn, onPacket_of_arrives h, hb, hx, not_barred hw, originSlot_dropPkt, ho, he, hp,
    beq_self_eq_true, Bool.or_true, Bool.false_eq_true, if_false, if_true]

/-- R285: it takes its trap there. -/
theorem becomes_trapNow {c : Nat} {a i : Word} (he : ended = false) (hp : epPkg p.src = epPkg p.dst) (ht : trap = some (c, a, i)) :
    let home := (s.dropPkt k).modThr p.dst n (·.comeHome m p.carry)
    Becomes (.migrantReturn k) s p { home.trapNow p.dst n c a i.toNat m.thr.pc with turn := home.turn } := by
  subst ht
  simp only [Becomes, exec_migrantReturn, execMigrantReturn, onPacket_of_arrives h, hb, hx, not_barred hw, originSlot_dropPkt, ho, he, hp,
    beq_self_eq_true, Bool.or_true, Bool.false_eq_true, if_false, if_true]

end returns

/-- R80, R87, R89, R219, R285, R376: migrants. -/
theorem migrantsTravel : MigrantsTravel := by
  unfold MigrantsTravel
  intro s k n e p m rest t queue
  refine ⟨fun h hb hx hw hp hc => ⟨fun hq hf => ?arrives, fun hn hl => ?queued, fun hl => ?full⟩, fun hq hp => ?admitted,
    ?returns, fun trap ended h hx hb ho hd ht hto => ?lapsed, fun trap h hx hw hb ho hd ht hl hto => ?ended,
    fun trap ended h hx hw hb ho => ?gone⟩
  case arrives =>
    refine ⟨_, becomes_placeMigrant h hb hx hw hp hq hf, rfl, ?_⟩
    exact visits_placeMigrant (s := s.dropPkt k) (m := { m with carry := p.carry }) hc hp rfl (region_thrWhere_dropPkt ..)
  case queued => exact becomes_queued h hb hx hw hp hn hl
  case full => exact exec_migrantArrival_of_full h hb hx hw hl
  case admitted =>
    have hq : (s.core e).mem.migrants = m :: rest := hq
    have hc : (tget s.cores e).isSome = true := by
      cases hc : tget s.cores e with
      | some c => rfl
      | none => rw [State.core, hc] at hq; cases hq
    refine ⟨fun hf => ⟨_, by simp only [exec_migrantQueueAdmit, execMigrantQueueAdmit, hq, hf]; rfl, ?_, ?_⟩, fun hf => ?_⟩
    · rw [core_placeMigrant_mem, State.modMem, core_modCore_same hc]
    · exact visits_placeMigrant (core_modCore_isSome.trans hc) hp rfl (region_thrWhere_modMem ..)
    · simp only [exec_migrantQueueAdmit, execMigrantQueueAdmit, hq, hf]
  case returns =>
    intro trap brought h hx hw hb ho hd ht hp
    have thr (f : Thread → Thread) : ((s.dropPkt k).modThr p.dst n f).thr? p.dst n = some (f t) := by
      rw [thr?_modThr, show (s.dropPkt k).thr? p.dst n = some t from ht, Option.map_some]
    refine ⟨fun htrap => ⟨_, t.comeHome m p.carry, becomes_comeHome h hb hx hw ho rfl hp htrap, rfl, thr _, rfl, rfl, rfl, rfl,
        rfl, rfl, rfl, ?region⟩,
      fun c a i htrap hh hto hc hr => ⟨_, (t.comeHome m p.carry).trapTo c a i.toNat m.thr.pc,
        becomes_trapNow h hb hx hw ho rfl hp htrap, ?taken, rfl, rfl, Nat.mod_eq_of_lt hc, rfl, rfl, rfl⟩⟩
    case region => simp only [Thread.comeHome, Bool.and_eq_true, Option.isSome_iff_ne_none]
    case taken =>
      rw [trapNow_eq_trapTo a i.toNat m.thr.pc (thr _) hh hto fun _ => hr, modThr_modThr]
      exact thr _
  case lapsed =>
    exact ⟨_, becomes_dropLapsed_of_comeBack h hb hx, thr?_dropLapsed_of_comeBack hb ho hd ht hto⟩
  case ended =>
    exact ⟨_, becomes_endThread h hb hx hw ho rfl hl, thr?_endThread ..⟩
  case gone => exact becomes_dropPkt_of_gone h hb hx hw ho

end Sys2Proof.Machine
end

section
/-! Swapped-out images (R219, R287, R289, R445): SWAP_IMAGE_WRITTEN. -/

namespace Sys2Proof.Machine

/-- A table with a value left as it is. -/
theorem tmod_id {α : Type} (k : Nat) (t : Table α) : tmod k (fun x => x) t = t := by
  induction t with
  | nil => rfl
  | cons y r ih =>
    simp only [tmod, ih]
    split <;> rfl

theorem modThr_of_id {s : State} {e : EP} {n : Nat} {t : Thread} {f : Thread → Thread} (ht : s.thr? e n = some t) (h : f t = t) :
    s.modThr e n f = s := by
  rw [modThr_congr ht (g := fun x => x) h]
  simp only [State.modThr, State.modCore, tmod_id]

theorem flushOutbox_of_nil {s : State} {e : EP} {n : Nat} {t : Thread} (ht : s.thr? e n = some t) (h : t.outbox = []) :
    flushOutbox s e n = s := by
  simp only [flushOutbox, ht, h, List.foldl_nil]
  exact modThr_of_id ht (by rw [← h])

theorem returnRes_of_none {s : State} {e : EP} {n : Nat} {t : Thread} (h : t.qres.count = 0) : returnRes s e n t = s := by
  simp only [returnRes, h, beq_self_eq_true, if_true]

/-- What is found in a table at another key is found once a key has gone. -/
theorem find?_tdelete {α : Type} {p : Nat × α → Bool} {t : Table α} {j k : Nat} {x : α} (h : t.find? p = some (j, x)) (hj : j ≠ k) :
    (tdelete k t).find? p = some (j, x) := by
  induction t with
  | nil => cases h
  | cons y r ih =>
    rw [List.find?_cons] at h
    rw [tdelete, List.filter_cons]
    split at h
    · next hp =>
      cases h
      rw [if_pos (by simpa using hj), List.find?_cons, hp]
    · next hp =>
      split
      · rw [List.find?_cons, hp]
        exact ih h
      · exact ih h

section expiry
variable {s : State} {e : EP} {c : Carry}

/-- R216: a lapse check looks at a die's NOW and its replica alone. -/
theorem expired_modDie (k : Nat) {f : Die → Die} (hn : ∀ d, (f d).now = d.now) (hr : ∀ d, (f d).replica = d.replica) :
    expired (s.modDie k f) e c = expired s e c := by
  have die {α : Type} {g : Die → α} (hg : ∀ d, g (f d) = g d) (i : Nat) : g ((s.modDie k f).die i) = g (s.die i) := by
    simp only [State.modDie, State.die]
    by_cases h : i = k
    · subst h; rw [tget_tput_same]; exact hg _
    · rw [tget_tput_other _ _ h]
  simp only [expired, checkFails, die hn, die (g := Die.replica) hr]

theorem expired_withdraw (pkg uid : Nat) : expired (withdraw s pkg uid) e c = expired s e c := by
  have access (s : State) (dk : Nat) (a : RAccess) : expired (endAccess s dk a) e c = expired s e c := by
    have hd : expired (s.modDie dk fun d => { d with raccs := d.raccs.filter (·.num != a.num) }) e c = expired s e c :=
      expired_modDie dk (fun _ => rfl) fun _ => rfl
    simp only [endAccess, countIn, modNi]
    split
    · split
      · exact hd
      · split <;> exact hd
    · exact hd
  have accesses (l : List (Nat × RAccess)) (s : State) : expired (l.foldl (fun s (dk, a) => endAccess s dk a) s) e c = expired s e c := by
    induction l generalizing s with
    | nil => rfl
    | cons y l ih => exact (ih _).trans (access ..)
  exact accesses _ _

end expiry

/-- R286, R293: a thread's requests are withdrawn. -/
theorem KeepsThreads.withdraw {e : EP} (s : State) (pkg uid : Nat) : KeepsThreads e s (withdraw s pkg uid) := by
  unfold Machine.withdraw
  have accesses (l : List (Nat × RAccess)) (s : State) : KeepsThreads e s (l.foldl (fun s (dk, a) => Machine.endAccess s dk a) s) :=
    foldl (fun _ _ => endAccess ..) l s
  exact ((modPkg s pkg _).trans (accesses _ _)).trans
    (mapCores _ (f := fun c => { c with watches := c.watches.filter fun w => !(w.2.1.uid == uid) }) fun _ => rfl)

/-- R219: a thread that lapses in its image. -/
theorem KeepsThreads.loseThread {e : EP} (s : State) (pkg : Nat) (t : Thread) : KeepsThreads e s (loseThread s pkg t false) := by
  unfold Machine.loseThread
  dsimp only
  have ended := (report (e := e) s pkg t.sr.hnd.toNat 1 0 0).trans (endRegion _ pkg t 4)
  cases t.provisional with
  | none => exact ended.trans (refDec ..)
  | some h => exact (ended.trans (refDec ..)).trans (refDec ..)

/-- R254, R289: a group that has nothing on a core ends elsewhere. -/
theorem KeepsThreads.checkAnywhere {e : EP} {s : State} {c : Ctx} {v : Nat} (h : Machine.groupOf s e c v = none) (pkg : Nat) :
    KeepsThreads e s (checkAnywhere s pkg c v) := by
  unfold Machine.checkAnywhere
  split
  · next i _ _ =>
    by_cases hi : e = i
    · subst hi
      simp only [checkGroup, h]
      exact refl e s
    · exact (EndsThreads.checkGroup ..).other e hi
  · exact refl e s

section killCached
variable {s : State} {e : EP} {key n : Nat} {g : Image} (hg : tget (s.cluster key).tcc n = some g) (hd : g.dead = false)
  (hp : g.thr.park = none) (hn : groupOf s e g.thr.ctx g.thr.vcore = none)
include hg hd hp hn

/-- R219, R289: an image of no FORK is marked dead; a core that knows nothing of its group keeps what it holds. -/
theorem killCached_keepsThreads :
    KeepsThreads e (s.modCluster key fun c => { c with tcc := tmod n (fun i => { i with dead := true }) c.tcc }) (killCached s key n false) := by
  simp only [killCached, hg, hd, releaseFork, hp, Bool.false_eq_true, if_false]
  have lost := KeepsThreads.loseThread (e := e)
    (s.modCluster key fun c => { c with tcc := tmod n (fun i => { i with dead := true }) c.tcc }) (key / 256) g.thr
  exact lost.trans (.checkAnywhere ((lost.groupOf ..).trans hn) _)

theorem tcc_killCached : tget ((killCached s key n false).cluster key).tcc n = some { g with dead := true } := by
  rw [(killCached_keepsThreads hg hd hp hn).cluster]
  simp only [State.cluster, State.modCluster, tget_tput_same, Option.getD_some, tget_tmod_same]
  rw [show tget ((tget s.clusters key).getD Cluster.start).tcc n = some g from hg, Option.map_some]

/-- R219: what the test of a thread that has just been swapped out leaves. -/
theorem image_of_expiry {b : Bool} {s' : State} (h : s' = if b then killCached s key n false else s) : (∀ m, s'.thr? e m = s.thr? e m) ∧
    (s'.core e).threadView = (s.core e).threadView ∧ tget (s'.cluster key).tcc n = some { g with dead := b } := by
  subst h
  cases b with
  | false =>
    refine ⟨fun _ => rfl, rfl, hg.trans ?_⟩
    rw [← hd]
  | true =>
    have hk := killCached_keepsThreads hg hd hp hn
    exact ⟨hk.thr?, hk.core, tcc_killCached hg hd hp hn⟩

end killCached

/-- R287: the messages in a slot's inbox as the held store keeps them. -/
def heldInbox (e : EP) (t : Thread) : List HeldMsg :=
  t.inbox.map fun m => ⟨t.ctx, t.vcore, t.vthr, m, ⟨e, 0, 0, t.ctx, 0, 0, 17, 0⟩, carryOf e t, false⟩

section written
variable (s : State) (e : EP) (slot entry j : Nat) (t x : Thread)

/-- R287, step 4: the inbox of the slot has gone to the held store, and what its thread asked for is withdrawn. -/
def swapWithdrawn : State :=
  withdraw (s.modCore e fun c => { c with held := heldInbox e t ++ c.held }) (epPkg e) t.uid

/-- R287, step 5: the image is in its entry, and the slot is vacant. -/
def swapWritten : State :=
  let s0 := swapWithdrawn s e t
  (s0.modCluster (clusterKey e) fun c => { c with tcc := tput entry ⟨t.forImage, e, false, (s0.now e).toNat⟩ c.tcc }).vacate e slot

/-- R287: the swap is over, and its issuer, in slot `j`, goes on. -/
def swapEnded (s : State) (ok : Bool) : State :=
  (s.modCore e fun c => { c with swaps := c.swaps.filter (·.1 != slot) }).modThr e j fun t => (t.p7 ok).goTo ((t.park.map (·.next)).getD t.pc)

variable {s e slot entry j t x}

theorem writeImage_eq_swapWritten (ht : s.thr? e slot = some t) (ho : t.outbox = []) (hq : t.qres.count = 0) (hp : t.pair = none)
    (hk : tget (s.cluster (clusterKey e)).tcc entry = none) : writeImage s e slot entry t = swapWritten s e slot entry t := by
  have hfree : tget ((swapWithdrawn s e t).cluster (clusterKey e)).tcc entry = none := by
    rw [swapWithdrawn, (KeepsThreads.withdraw (e := e) ..).cluster]
    exact hk
  have hspill : spillImage (swapWithdrawn s e t) (clusterKey e) entry = swapWithdrawn s e t := by simp only [spillImage, hfree]
  simp only [writeImage, returnRes_of_none hq, flushOutbox_of_nil ht ho, pairSlots, hp, List.foldl_cons, List.foldl_nil]
  exact congrArg (fun s0 : State => (s0.modCluster (clusterKey e) fun c =>
    { c with tcc := tput entry ⟨t.forImage, e, false, (s0.now e).toNat⟩ c.tcc }).vacate e slot) hspill

/-- The CSWAP of a slot ends (R287) where its issuer waits for it. -/
theorem endSwap_eq_swapEnded {issuer : Nat} {ok : Bool} (hc : (tget s.cores e).isSome = true)
    (h : (s.core e).slots.find? (fun (_, t) => t.uid == issuer && (t.park.map (·.why)) == some .swap) = some (j, x)) :
    endSwap s e slot issuer ok = swapEnded e slot j s ok := by
  simp only [endSwap, core_modCore_same hc, h]
  rfl

section views
variable (hc : (tget s.cores e).isSome = true)
include hc

theorem thr?_eq_tget_slots (n : Nat) : s.thr? e n = tget (s.core e).slots n := by
  obtain ⟨c, hc⟩ := Option.isSome_iff_exists.1 hc
  simp only [State.thr?, State.core, hc, Option.bind_some, Option.getD_some]

theorem isSome_swapWritten : (tget (swapWritten s e slot entry t).cores e).isSome = true :=
  core_modCore_isSome.trans ((KeepsThreads.withdraw ..).isSome.trans (core_modCore_isSome.trans hc))

theorem threadView_swapWritten : ((swapWritten s e slot entry t).core e).threadView = (tdelete slot (s.core e).slots, (s.core e).swaps,
    heldInbox e t ++ (s.core e).held,
    (s.core e).groups) := by
  have hw : ((swapWithdrawn s e t).core e).threadView = _ := (KeepsThreads.withdraw ..).core
  rw [core_modCore_same hc] at hw
  have hs : (tget (swapWithdrawn s e t).cores e).isSome = true := (KeepsThreads.withdraw ..).isSome.trans (core_modCore_isSome.trans hc)
  have hv (s0 : State) (h : (tget s0.cores e).isSome = true) : ((s0.vacate e slot).core e).threadView =
      (tdelete slot (s0.core e).threadView.1, (s0.core e).threadView.2) := by
    rw [State.vacate, core_modCore_same h]
    rfl
  exact (hv _ hs).trans (congrArg (fun v => (tdelete slot v.1, v.2)) hw)

theorem isSome_swapEnded {ok : Bool} : (tget (swapEnded e slot j s ok).cores e).isSome = true :=
  core_modCore_isSome.trans (core_modCore_isSome.trans hc)

theorem threadView_swapEnded {ok : Bool} : ((swapEnded e slot j s ok).core e).threadView =
    (tmod j (fun t => (t.p7 ok).goTo ((t.park.map (·.next)).getD t.pc)) (s.core e).slots, (s.core e).swaps.filter (·.1 != slot),
      (s.core e).held, (s.core e).groups) := by
  rw [swapEnded, State.modThr, core_modCore_same (core_modCore_isSome.trans hc), core_modCore_same hc]
  rfl

/-- R287: the issuer goes on with p7, and the swap is over. -/
theorem swapEnded_ends {ok : Bool} {p : Park} (hx : s.thr? e j = some x) (hp : x.park = some p) :
    (swapEnded e slot j s ok).thr? e j = some ((x.p7 ok).goTo p.next) ∧
      ((swapEnded e slot j s ok).core e).swaps = (s.core e).swaps.filter (·.1 != slot) := by
  have hv := threadView_swapEnded (slot := slot) (j := j) (ok := ok) hc
  refine ⟨?_, congrArg (·.2.1) hv⟩
  rw [thr?_eq_tget_slots (isSome_swapEnded hc), show (Core.slots _) = _ from congrArg (·.1) hv, tget_tmod_same, ← thr?_eq_tget_slots hc,
    hx, Option.map_some, hp]
  rfl

/-- R287: once the image is in its entry and the issuer goes on, the slot is vacant, and its inbox is in the held store. -/
theorem swapEnded_swapWritten {p : Park} (hx : s.thr? e j = some x) (hp : x.park = some p) (hj : j ≠ slot) :
    let s' := swapEnded e slot j (swapWritten s e slot entry t) true
    s'.thr? e j = some ((x.p7 true).goTo p.next) ∧ s'.thr? e slot = none ∧
      (s'.core e).swaps = (s.core e).swaps.filter (·.1 != slot) ∧
      (s'.core e).held = heldInbox e t ++ (s.core e).held ∧
      (s'.core e).groups = (s.core e).groups := by
  have hc1 := isSome_swapWritten (slot := slot) (entry := entry) (t := t) hc
  have hview1 := threadView_swapWritten (slot := slot) (entry := entry) (t := t) hc
  have hview2 := threadView_swapEnded (slot := slot) (j := j) (ok := true) hc1
  have hslots1 : ((swapWritten s e slot entry t).core e).slots = tdelete slot (s.core e).slots := congrArg (·.1) hview1
  have hswaps1 : ((swapWritten s e slot entry t).core e).swaps = (s.core e).swaps := congrArg (·.2.1) hview1
  have hx1 : (swapWritten s e slot entry t).thr? e j = some x := by
    rw [thr?_eq_tget_slots hc1, hslots1, tget_tdelete_other _ hj, ← thr?_eq_tget_slots hc, hx]
  obtain ⟨hthr, hswaps⟩ := swapEnded_ends (slot := slot) (ok := true) hc1 hx1 hp
  refine ⟨hthr, ?empty, by rw [hswaps, hswaps1], (congrArg (·.2.2.1) hview2).trans (congrArg (·.2.2.1) hview1),
    (congrArg (·.2.2.2) hview2).trans (congrArg (·.2.2.2) hview1)⟩
  case empty =>
    rw [thr?_eq_tget_slots (isSome_swapEnded hc1), show (Core.slots _) = _ from congrArg (·.1) hview2, tget_tmod_other _ _ hj.symm, hslots1,
      tget_tdelete_same]

/-- R287: the issuer waits where it did, while the image is written. -/
theorem find?_slots_swapWritten {q : Nat × Thread → Bool} (h : (s.core e).slots.find? q = some (j, x)) (hj : j ≠ slot) :
    ((swapWritten s e slot entry t).core e).slots.find? q = some (j, x) := by
  rw [show (Core.slots _) = _ from congrArg (·.1) (threadView_swapWritten (slot := slot) (entry := entry) (t := t) hc)]
  exact find?_tdelete h hj

end views

end written

/-- R289: the image stands in its entry. -/
theorem tcc_swapEnded_swapWritten (s : State) (e : EP) (slot entry j : Nat) (t : Thread) (ok : Bool) :
    tget ((swapEnded e slot j (swapWritten s e slot entry t) ok).cluster (clusterKey e)).tcc entry =
      some ⟨t.forImage, e, false, ((swapWithdrawn s e t).now e).toNat⟩ := by
  simp only [swapEnded, swapWritten, State.cluster, State.modThr, State.vacate, modCore_clusters, State.modCluster, tget_tput_same,
    Option.getD_some]

theorem expired_swapEnded_swapWritten (s : State) (e : EP) (slot entry j : Nat) (t : Thread) (ok : Bool) (c : Carry) :
    expired (swapEnded e slot j (swapWritten s e slot entry t) ok) e c = expired s e c :=
  expired_withdraw (s := s.modCore e fun c => { c with held := heldInbox e t ++ c.held }) (epPkg e) t.uid

/-- R287: a thread that is not parked is saved as it stands, but for its messages and its reservation. -/
theorem forImage_of_unparked {t : Thread} (h : t.park = none) :
    t.forImage = { t with inbox := [], outbox := [], qres := ⟨0, 0, false⟩, forfeits := 0, passes := 0 } := by
  simp only [Thread.forImage, h]

/-- R219, R287, R445: SWAP_IMAGE_WRITTEN. -/
theorem imagesWritten : ImagesWritten := by
  unfold ImagesWritten
  intro s e slot entry issuer j t x p hs i waits ends
  refine ⟨fun ht hbusy => ?busy, fun ht hw => ?empty, fun ht hw hxf htlc hmma hout hres hpair htcc hgroup hpark => ?written⟩
  case busy =>
    have hb : (t.xf.isSome || t.cnt.tlc != 0 || mmaBusy s e t) = true := by simpa [or_assoc] using hbusy
    simp only [i, exec_swapImageWritten, execSwapImageWritten, hs, ht, hb, if_true]
  case empty =>
    obtain ⟨hfind, hx, hp, hj⟩ := hw
    have hc := core_isSome_of_thr? hx
    obtain ⟨hthr, hswaps⟩ := swapEnded_ends (slot := slot) (ok := false) hc hx hp
    refine ⟨swapEnded e slot j s false, ?_, _, hthr, rfl, rfl, rfl, hswaps⟩
    simp only [i, exec_swapImageWritten, execSwapImageWritten, hs, ht, endSwap_eq_swapEnded hc hfind]
  case written =>
    obtain ⟨hfind, hx, hp, hj⟩ := hw
    have hc := core_isSome_of_thr? hx
    obtain ⟨hthr, hempty, hswaps, hheld, hgroups⟩ := swapEnded_swapWritten (entry := entry) (t := t) hc hx hp hj
    have hgroup2 : groupOf (swapEnded e slot j (swapWritten s e slot entry t) true) e t.ctx t.vcore = none := by
      rw [groupOf, hgroups]
      exact hgroup
    have hunparked := forImage_of_unparked hpark
    obtain ⟨hthr3, hview3, himage⟩ := image_of_expiry (e := e) (b := expired s e (carryOf e t))
      (tcc_swapEnded_swapWritten s e slot entry j t true) rfl (by rw [hunparked]; exact hpark) (by rw [hunparked]; exact hgroup2) rfl
    have hbusy : (t.xf.isSome || t.cnt.tlc != 0 || mmaBusy s e t) = false := by simp [hxf, htlc, hmma]
    refine ⟨_, _, ?exec, ⟨_, (hthr3 j).trans hthr, rfl, rfl, rfl, (congrArg (·.2.1) hview3).trans hswaps⟩, (hthr3 slot).trans hempty, himage,
      rfl, rfl, ?_, ?_, ?_, ?_, ?_, (congrArg (·.2.2.1) hview3).trans hheld⟩
    case exec =>
      simp only [i, exec_swapImageWritten, execSwapImageWritten, hs, ht, hbusy, writeImage_eq_swapWritten ht hout hres hpair htcc,
        endSwap_eq_swapEnded (isSome_swapWritten hc) (find?_slots_swapWritten hc hfind hj), hgroup2, expired_swapEnded_swapWritten,
        Bool.false_eq_true, if_false]
    all_goals rw [hunparked]

end Sys2Proof.Machine
end

section
/-! Containment descriptors (R102 to R104): AREC_WRITE, RECTANGLE_RESET_COMPLETE and CONTAINMENT_RELEASE. -/

namespace Sys2Proof.Machine

theorem modDie_die_same (s : State) (k : Nat) (f : Die → Die) : (s.modDie k f).die k = f (s.die k) := by
  simp only [State.modDie, State.die, tget_tput_same, Option.getD_some]

/-- The word of a containment descriptor (R102). -/
def arecWord (s : State) (dk r : Nat) : Nat := ((s.die dk).arec.toList.getD r 0).toNat

theorem arecState_eq (s : State) (dk r : Nat) : arecState s dk r = arecWord s dk r / 2 ^ 29 % 4 := rfl

theorem arecWord_lt (s : State) (dk r : Nat) : arecWord s dk r < 2 ^ 32 := BitVec.isLt _

/-- R102: V is the top bit. -/
theorem arecWord_valid_iff {s : State} {dk i : Nat} : bitAt (arecWord s dk i) 31 = true ↔ arecWord s dk i / 2 ^ 31 = 1 := by
  have := arecWord_lt s dk i
  simp only [bitAt, beq_iff_eq]
  omega

/-- R102: STATE and the rectangle of a descriptor are those of its word. -/
theorem arecState_of_arec {s s' : State} {dk r : Nat} (h : (s'.die dk).arec = (s.die dk).arec) : arecState s' dk r = arecState s dk r := by
  simp only [arecState, h]

theorem rectCores_of_arec {s s' : State} {dk r : Nat} (h : (s'.die dk).arec = (s.die dk).arec) :
    rectCores s' (dk / 8) (dk % 8) r = rectCores s (dk / 8) (dk % 8) r := by
  have hdk : dk / 8 * 8 + dk % 8 = dk := by omega
  simp only [rectCores, hdk, h]

section setArecState
variable {s : State} {dk r st : Nat} (hr : r < 16) (hst : st < 4)
include hr hst

/-- R104: another STATE leaves the other fields. -/
theorem arecWord_setArecState : arecWord (setArecState s dk r st) dk r =
    arecWord s dk r % 2 ^ 29 + st * 2 ^ 29 + arecWord s dk r / 2 ^ 31 * 2 ^ 31 := by
  have hlt := arecWord_lt s dk r
  have hset (l : List (BitVec 32)) (w : BitVec 32) (hl : l.length = 16) : (l.set r w).getD r 0 = w := by
    rw [List.getD_eq_getElem?_getD, List.getElem?_set_self (by omega), Option.getD_some]
  rw [arecWord, setArecState, modDie_die_same]
  simp only [Vector.toList_setIfInBounds]
  rw [hset _ _ (by simp), BitVec.toNat_ofNat]
  simp only [arecWord, bitsAt, Nat.reducePow, Nat.reduceAdd, Nat.reduceSub] at hlt ⊢
  omega

theorem arecState_setArecState : arecState (setArecState s dk r st) dk r = st := by
  have hlt := arecWord_lt s dk r
  rw [arecState_eq, arecWord_setArecState hr hst]
  omega

/-- R102, R104: nor does the rectangle change. -/
theorem rectCores_setArecState : rectCores (setArecState s dk r st) (dk / 8) (dk % 8) r = rectCores s (dk / 8) (dk % 8) r := by
  have hdk : dk / 8 * 8 + dk % 8 = dk := by omega
  have hword := arecWord_setArecState (s := s) (dk := dk) hr hst
  have fields : ∀ x ∈ [(26, 22), (21, 18), (17, 13), (12, 9)],
      bitsAt (arecWord (setArecState s dk r st) dk r) x.1 x.2 = bitsAt (arecWord s dk r) x.1 x.2 := by
    rw [hword]
    simp only [List.forall_mem_cons, bitsAt, Nat.reducePow, Nat.reduceAdd, Nat.reduceSub, List.not_mem_nil, false_implies, implies_true,
      and_true]
    omega
  simp only [List.forall_mem_cons, arecWord] at fields
  obtain ⟨h1, h2, h3, h4, -⟩ := fields
  simp only [rectCores, hdk, h1, h2, h3, h4]

end setArecState

/-- R102: what bars a word from a descriptor. -/
def arecBarred (s : State) (dk r v : Nat) : Bool :=
  !rectAligned v || (List.range 16).any fun i => i != r && bitAt (arecWord s dk i) 31 && rectsMeet v (arecWord s dk i)

/-- R103: it would move a rectangle that is not open. -/
def arecMoves (s : State) (dk r v : Nat) : Bool := bitsAt v 26 9 != bitsAt (arecWord s dk r) 26 9 && arecState s dk r != 0

theorem arecBarred_iff {s : State} {dk r v : Nat} : arecBarred s dk r v = true ↔
    rectAligned v = false ∨ ∃ i < 16, i ≠ r ∧ arecWord s dk i / 2 ^ 31 = 1 ∧ rectsMeet v (arecWord s dk i) = true := by
  simp only [arecBarred, Bool.or_eq_true, Bool.not_eq_true', List.any_eq_true, List.mem_range, Bool.and_eq_true, bne_iff_ne,
    arecWord_valid_iff, and_assoc]

theorem arecMoves_iff {s : State} {dk r v : Nat} : arecMoves s dk r v = true ↔
    v / 2 ^ 9 % 2 ^ 18 ≠ arecWord s dk r / 2 ^ 9 % 2 ^ 18 ∧ arecState s dk r ≠ 0 := by
  simp only [arecMoves, Bool.and_eq_true, bne_iff_ne]
  rfl

section arecWrite
variable {s : State} {dk r : Nat} {w : BitVec 32} (hr : r < 16)
include hr

/-- R102: a word that nothing bars, and that does not reopen its rectangle, is written but for its STATE. -/
theorem arecWrite_of_allowed (hb : arecBarred s dk r w.toNat = false) (hm : arecMoves s dk r w.toNat = false) (h0 : w.toNat % 2 = 0) :
    arecWrite s dk r w = s.modDie dk fun d => { d with
      arec := d.arec.setIfInBounds r (BitVec.ofNat 32 (w.toNat / 2 ^ 31 * 2 ^ 31 + arecState s dk r * 2 ^ 29 + w.toNat / 2 ^ 9 % 2 ^ 18 * 2 ^ 9)) } := by
  have hrel : bitAt w.toNat 0 = false := by simp [bitAt, h0]
  have htop : bitsAt w.toNat 31 31 = w.toNat / 2 ^ 31 := by
    have := w.isLt
    simp only [bitsAt]
    omega
  simp only [arecBarred, arecMoves, arecWord] at hb hm
  simp only [arecWrite, hb, hm, hrel, htop, Nat.not_le.2 hr, Bool.or_self, Bool.false_eq_true, if_false]
  rfl

/-- R102, R103: another word is ignored and logged. -/
theorem arecWrite_of_ignored (h : arecBarred s dk r w.toNat = true ∨ arecMoves s dk r w.toNat = true) :
    arecWrite s dk r w = s.event (dk / 8) 0x0021 r (bridgeEp (dk / 8)) 255 (word w.toNat) := by
  have hor : (arecBarred s dk r w.toNat || arecMoves s dk r w.toNat) = true := by simpa using h
  simp only [arecWrite, Nat.not_le.2 hr, if_false]
  exact if_pos hor

end arecWrite

section cores
variable {f : Core → Core}

/-- Cores changed one after another. -/
theorem core?_foldl_modCore (hf : ∀ c, f (f c) = f c) (l : List EP) (s : State) (e : EP) :
    (l.foldl (fun s e => s.modCore e f) s).core? e = if e ∈ l then (s.core? e).map f else s.core? e := by
  induction l generalizing s with
  | nil => rfl
  | cons i l ih =>
    rw [List.foldl_cons, ih]
    by_cases he : e = i
    · subst he
      have hmod : (s.modCore e f).core? e = (s.core? e).map f := by simp only [State.core?, State.modCore, tget_tmod_same]
      simp only [hmod, Option.map_map, Function.comp_def, hf, List.mem_cons, true_or, if_true, ite_self]
    · have hmod : (s.modCore i f).core? e = s.core? e := by simp only [State.core?, State.modCore, tget_tmod_other _ _ he]
      simp only [hmod, List.mem_cons, he, false_or]

theorem foldl_modCore_of_keeps {α : Type} {g : State → α} (hg : ∀ s e, g (s.modCore e f) = g s) (l : List EP) (s : State) :
    g (l.foldl (fun s e => s.modCore e f) s) = g s := by
  induction l generalizing s with
  | nil => rfl
  | cons i l ih => exact (ih _).trans (hg ..)

end cores

theorem closed_getD_default {s : State} {dk r : Nat} (hr : r < 16) :
    (s.die dk).closed.toList.getD r true = (s.die dk).closed.toList.getD r false := by
  have hl : r < (s.die dk).closed.toList.length := by simpa using hr
  rw [List.getD_eq_getElem _ _ hl, List.getD_eq_getElem _ _ hl]

section events
variable {s : State} {dk r : Nat}

theorem exec_boundaryClose_of_idle (h : arecState s dk r ≠ 1 ∨ (s.die dk).closed.toList.getD r false = true) (hr : r < 16) :
    exec (.boundaryClose dk r) s = .next s := by
  have hidle : (arecState s dk r != 1 || (s.die dk).closed.toList.getD r true) = true := by
    rw [closed_getD_default hr]
    simpa using h
  simp only [exec_boundaryClose, execBoundaryClose, hidle, if_true]

theorem exec_rectangleResetComplete_of_idle (h : arecState s dk r ≠ 1 ∨ (s.die dk).closed.toList.getD r false = false) :
    exec (.rectangleResetComplete dk r) s = .next s := by
  have hidle : (arecState s dk r != 1 || !(s.die dk).closed.toList.getD r false) = true := by simpa using h
  simp only [exec_rectangleResetComplete, execRectangleResetComplete, hidle, if_true]

theorem exec_containmentRelease_of_idle (h : arecState s dk r ≠ 2) : exec (.containmentRelease dk r) s = .next s := by
  simp only [exec_containmentRelease, execContainmentRelease, reopenRect, beq_iff_eq, h, if_false]

/-- R49, R104: the cores of a closed rectangle are reset. -/
theorem rectangleReset (hr : r < 16) (h1 : arecState s dk r = 1) (hc : (s.die dk).closed.toList.getD r false = true) :
    ∃ s', exec (.rectangleResetComplete dk r) s = .next s' ∧ arecState s' dk r = 2 ∧ s'.net = s.net ∧
      ∀ e, s'.core? e = if e ∈ rectCores s (dk / 8) (dk % 8) r then (s.core? e).map Core.contained else s.core? e := by
  have hgo : (arecState s dk r != 1 || !(s.die dk).closed.toList.getD r false) = false := by simp only [h1, hc]; rfl
  simp only [exec_rectangleResetComplete, execRectangleResetComplete, hgo, Bool.false_eq_true, if_false]
  refine ⟨_, rfl, ?state, ?net, fun e => ?cores⟩
  case state => exact arecState_setArecState hr (by decide)
  case net => exact foldl_modCore_of_keeps (g := State.net) (fun _ _ => rfl) ..
  case cores => exact core?_foldl_modCore (f := Core.contained) (fun _ => rfl) _ s e

/-- R104: a rectangle whose reset is complete opens again. -/
theorem containmentReleased (hr : r < 16) (h2 : arecState s dk r = 2) :
    ∃ s', exec (.containmentRelease dk r) s = .next s' ∧ arecState s' dk r = 0 ∧
      (s'.die dk).closed = (s.die dk).closed.setIfInBounds r false ∧
      ∀ e ∈ rectCores s (dk / 8) (dk % 8) r, s'.core? e = (s.core? e).map fun c => { c with halted := false } := by
  simp only [exec_containmentRelease, execContainmentRelease, reopenRect, h2, beq_self_eq_true, if_true]
  have hdies (s : State) (l : List EP) : (l.foldl (fun s e => s.modCore e fun c => { c with halted := false }) s).dies = s.dies :=
    foldl_modCore_of_keeps (g := State.dies) (fun _ _ => rfl) ..
  have hopened : (((setArecState s dk r 0).modDie dk fun d => { d with closed := d.closed.setIfInBounds r false }).die dk).arec =
      ((setArecState s dk r 0).die dk).arec := by rw [modDie_die_same]
  refine ⟨_, rfl, ?state, ?closed, fun e he => ?cores⟩
  case state =>
    rw [arecState_of_arec (.trans (by rw [State.die, hdies]; rfl) hopened), arecState_setArecState hr (by decide)]
  case closed =>
    rw [State.die, hdies]
    change ((State.modDie _ dk _).die dk).closed = _
    rw [modDie_die_same, setArecState, modDie_die_same]
  case cores =>
    rw [rectCores_of_arec hopened, rectCores_setArecState hr (by decide)]
    exact (core?_foldl_modCore (f := fun c => { c with halted := false }) (fun _ => rfl) _ _ e).trans (if_pos he)

end events

end Sys2Proof.Machine
end

section
/-! The closing of a boundary (R104 to R106), where nothing but plain threads and packets is inside. -/

namespace Sys2Proof.Machine

theorem modCore_of_id {s : State} {e : EP} {f : Core → Core} (h : f (s.core e) = s.core e) : s.modCore e f = s := by
  rw [modCore_congr (g := fun c => c) h]
  simp only [State.modCore, tmod_id]

/-- A step that takes threads off the cores of a list, and leaves everything else of the cores, the dies, the net and the frames. -/
structure LosesThreads (inside : List EP) (s s' : State) : Prop where
  cores : ∀ i, ∃ q : Nat × Thread → Bool, s'.core? i = (s.core? i).map fun c => { c with slots := c.slots.filter q }
  others : ∀ i, i ∉ inside → s'.core? i = s.core? i
  dies : s'.dies = s.dies
  net : s'.net = s.net
  frames : (∀ k, (s.cluster k).frames = []) → ∀ k, (s'.cluster k).frames = []

namespace LosesThreads

variable {inside : List EP} {s s' : State}

/-- What stands outside the cores may change. -/
theorem of_cores (hc : s'.cores = s.cores) (hd : s'.dies = s.dies) (hn : s'.net = s.net)
    (hf : (∀ k, (s.cluster k).frames = []) → ∀ k, (s'.cluster k).frames = []) : LosesThreads inside s s' where
  cores i := ⟨fun _ => true, by
    have hid : (fun c : Core => { c with slots := c.slots.filter fun _ => true }) = id := funext fun c => by simp
    rw [hid, Option.map_id, State.core?, State.core?, hc]
    rfl⟩
  others i _ := by rw [State.core?, State.core?, hc]
  dies := hd
  net := hn
  frames := hf

theorem refl (inside : List EP) (s : State) : LosesThreads inside s s := of_cores rfl rfl rfl id

theorem trans {s'' : State} (h : LosesThreads inside s s') (h' : LosesThreads inside s' s'') : LosesThreads inside s s'' where
  cores i := by
    obtain ⟨q, hq⟩ := h.cores i
    obtain ⟨q', hq'⟩ := h'.cores i
    refine ⟨fun x => q' x && q x, ?_⟩
    rw [hq', hq, Option.map_map]
    exact congrArg (Option.map · _) (funext fun c => by simp only [Function.comp_apply, List.filter_filter])
  others i hi := (h'.others i hi).trans (h.others i hi)
  dies := h'.dies.trans h.dies
  net := h'.net.trans h.net
  frames hf := h'.frames (h.frames hf)

theorem modPkg (s : State) (i : Nat) (f : Pkg → Pkg) : LosesThreads inside s (s.modPkg i f) := of_cores rfl rfl rfl id

/-- R207, R222: handle 0 counts no reference. -/
theorem loseHandle_zero (s : State) (pkg : Nat) : LosesThreads inside s (loseHandle s pkg 0) := by
  have hz : loseHandle s pkg 0 = markFault s pkg 0 := rfl
  rw [hz, markFault, State.modLapse]
  exact modPkg ..

theorem vacate (s : State) {e : EP} (he : e ∈ inside) (n : Nat) : LosesThreads inside s (s.vacate e n) where
  cores i := by
    by_cases hi : i = e
    · subst hi
      exact ⟨fun x => x.1 != n, by simp only [State.core?, State.vacate, State.modCore, tget_tmod_same]; rfl⟩
    · have hsame : (s.vacate e n).core? i = s.core? i := by simp only [State.core?, State.vacate, State.modCore, tget_tmod_other _ _ hi]
      rw [hsame]
      exact (refl inside s).cores i
  others i hi := by
    have hie : i ≠ e := fun h => hi (h ▸ he)
    simp only [State.core?, State.vacate, State.modCore, tget_tmod_other _ _ hie]
  dies := rfl
  net := rfl
  frames := id

section reads
variable (h : LosesThreads inside s s')
include h

theorem core (i : EP) : ∃ q, s'.core i = { s.core i with slots := (s.core i).slots.filter q } := by
  obtain ⟨q, hq⟩ := h.cores i
  refine ⟨q, ?_⟩
  simp only [State.core?] at hq
  simp only [State.core, hq]
  cases tget s.cores i <;> rfl

/-- A slot that is vacant stays so. -/
theorem vacant {i : EP} {n : Nat} (hn : s.thr? i n = none) : s'.thr? i n = none := by
  obtain ⟨q, hq⟩ := h.cores i
  simp only [State.core?] at hq
  simp only [State.thr?, hq] at hn ⊢
  cases hc : tget s.cores i with
  | none => rfl
  | some c =>
    rw [hc] at hn
    exact tget_filter_eq_none q hn

theorem thr?_other {i : EP} (hi : i ∉ inside) (n : Nat) : s'.thr? i n = s.thr? i n := by
  have ho := h.others i hi
  simp only [State.core?] at ho
  simp only [State.thr?, ho]

end reads

end LosesThreads

/-- A core whose loss only empties its slots: no groups, no arms, and threads that hold nothing. -/
structure HoldsLittle (c : Core) : Prop where
  groups : c.groups = []
  deque : c.deque = []
  threads : ∀ x ∈ c.slots, x.2.region = none ∧ x.2.provisional = none ∧ x.2.sr.hnd = 0 ∧ x.2.qres.count = 0

theorem HoldsLittle.of_loses {inside : List EP} {s s' : State} {i : EP} (hc : HoldsLittle (s.core i)) (h : LosesThreads inside s s') :
    HoldsLittle (s'.core i) := by
  obtain ⟨q, hq⟩ := h.core i
  rw [hq]
  exact ⟨hc.groups, hc.deque, fun x hx => hc.threads x (List.mem_filter.1 hx).1⟩

/-- A thread in a slot is in its core's list of them. -/
theorem mem_of_tget {α : Type} {t : Table α} {n : Nat} {x : α} (h : tget t n = some x) : (n, x) ∈ t := by
  induction t with
  | nil => cases h
  | cons y r ih =>
    obtain ⟨j, y⟩ := y
    simp only [tget] at h
    split at h
    · next hj =>
      cases h
      rw [beq_iff_eq] at hj
      exact hj ▸ .head _
    · exact .tail _ (ih h)

section lose
variable {inside : List EP} {s : State} {e : EP} (he : e ∈ inside) (hc : HoldsLittle (s.core e))
include he hc

/-- R106: a thread that holds nothing leaves its slot, and nothing else changes but the record of handle 0. -/
theorem loseInside_loses (n : Nat) : LosesThreads inside s (loseInside s e n) ∧ (loseInside s e n).thr? e n = none := by
  unfold loseInside
  split
  · next ht => exact ⟨.refl .., ht⟩
  · next t ht =>
    have hmem : (n, t) ∈ (s.core e).slots := by
      rw [thr?_eq_tget_slots (core_isSome_of_thr? ht)] at ht
      exact mem_of_tget ht
    obtain ⟨hr, hp, hh, hq⟩ : t.region = none ∧ t.provisional = none ∧ t.sr.hnd = 0 ∧ t.qres.count = 0 := hc.threads _ hmem
    split
    · exact ⟨.vacate s he n, thr?_vacate_same ..⟩
    · simp only [State.endRegion, hr, returnRes_of_none hq, hp, hh]
      exact ⟨(LosesThreads.vacate s he n).trans (.loseHandle_zero ..), thr?_vacate_same s e n⟩

omit hc in
/-- R106: every thread of a list of slots leaves. -/
theorem foldl_loseInside_loses {α : Type} (l : List (Nat × α)) (hc : HoldsLittle (s.core e)) :
    let s' := l.foldl (fun s (n, _) => loseInside s e n) s
    LosesThreads inside s s' ∧ ∀ x ∈ l, s'.thr? e x.1 = none := by
  induction l generalizing s with
  | nil => exact ⟨.refl .., nofun⟩
  | cons x l ih =>
    obtain ⟨hl, hx⟩ := loseInside_loses he hc x.1
    obtain ⟨hl', hx'⟩ := ih (hc.of_loses hl)
    refine ⟨hl.trans hl', List.forall_mem_cons.2 ⟨hl'.vacant hx, hx'⟩⟩

/-- R106: a core that holds little loses its threads. -/
theorem loseCore_loses (hf : ∀ k, (s.cluster k).frames = []) :
    LosesThreads inside s (loseCore s e) ∧ ∀ n, (loseCore s e).thr? e n = none := by
  obtain ⟨hl, hx⟩ := foldl_loseInside_loses he (s.core e).slots hc
  unfold loseCore
  simp only [hc.groups, hc.deque, List.foldl_nil]
  generalize (s.core e).slots.foldl (fun s (n, _) => loseInside s e n) s = s1 at hl hx ⊢
  have hdeque : (s1.modCore e fun c => { c with deque := [] }) = s1 := modCore_of_id (by rw [← (hc.of_loses hl).deque])
  have hframes := hl.frames hf
  rw [hdeque]
  simp only [hframes, List.filter_nil, List.foldl_nil]
  have hlast : LosesThreads inside s1 (s1.modCluster (clusterKey e) fun k => { k with frames := k.frames.filter fun f => f.ep != e }) := by
    refine .of_cores rfl rfl rfl fun h k => ?_
    simp only [State.cluster, State.modCluster] at h ⊢
    by_cases hk : k = clusterKey e
    · subst hk
      rw [tget_tput_same, Option.getD_some, h]
      rfl
    · rw [tget_tput_other _ _ hk, h]
  refine ⟨hl.trans hlast, fun n => hlast.vacant ?_⟩
  cases ht : s.thr? e n with
  | none => exact hl.vacant ht
  | some t =>
    rw [thr?_eq_tget_slots (core_isSome_of_thr? ht)] at ht
    exact hx _ (mem_of_tget ht)

end lose

/-- R106: every core of a list loses its threads. -/
theorem foldl_loseCore_loses {inside : List EP} (l : List EP) {s : State} (hl : ∀ e ∈ l, e ∈ inside) (hc : ∀ e ∈ l, HoldsLittle (s.core e))
    (hf : ∀ k, (s.cluster k).frames = []) : LosesThreads inside s (l.foldl loseCore s) ∧ ∀ e ∈ l, ∀ n, (l.foldl loseCore s).thr? e n = none := by
  induction l generalizing s with
  | nil => exact ⟨.refl .., nofun⟩
  | cons e l ih =>
    obtain ⟨he, hl⟩ := List.forall_mem_cons.1 hl
    obtain ⟨hce, hc⟩ := List.forall_mem_cons.1 hc
    obtain ⟨h1, hn1⟩ := loseCore_loses he hce hf
    obtain ⟨h2, hn2⟩ := ih hl (fun i hi => (hc i hi).of_loses h1) (h1.frames hf)
    exact ⟨h1.trans h2, List.forall_mem_cons.2 ⟨fun n => h2.vacant (hn1 n), hn2⟩⟩


section stages
variable {s : State} {inside : List EP}

/-- R105: the packets that a closing boundary catches, where those outside keep clear of it. -/
def caught (inside : List EP) (p : Pkt) : Bool := inside.contains p.src && inside.contains p.dst

/-- R105: a plain access or answer of a thread inside goes without a trace. -/
theorem discardInside_of_inside {p : Pkt} (hp : p.probed = false) (hr : p.req.ep ∈ inside)
    (hb : (∃ a, p.body = .answer a) ∨ ∃ a b c acc d f h, p.body = .access a b c acc d f h) : discardInside s inside p = s := by
  have hin : inside.contains p.req.ep = true := List.contains_iff_mem.2 hr
  rcases hb with ⟨a, hb⟩ | ⟨a, b, c, acc, d, f, h, hb⟩ <;>
    simp only [discardInside, hp, hb, hin, Bool.false_eq_true, if_false, if_true]

/-- R105, R106: packets of the region unit, of migrants and of mirrored writes stay but between two cores inside. -/
def staysInside (inside : List EP) (p : Pkt) : Bool := match p.body with
  | .region _ | .migrant _ | .comeBack .. | .mirrorWrite .. => !(inside.contains p.src && inside.contains p.dst)
  | _ => false

theorem filterMap_zipIdx_fst {α β : Type} (f : α → Option β) (l : List α) (n : Nat) : (l.zipIdx n).filterMap (fun x => f x.1) = l.filterMap f := by
  conv_rhs => rw [← List.zipIdx_map_fst n l, List.filterMap_map]
  rfl

section dropInside
variable (hplain : ∀ p ∈ s.net, p.probed = false ∧ ∀ m, p.body ≠ .migrant m)
  (hway : ∀ p ∈ s.net, p.dst ∉ inside → ∀ x ∈ wayOf s p, ∀ e ∈ inside, x ≠ (dieKey e, routerOf e))
  (hin : ∀ p ∈ s.net, p.src ∈ inside → p.dst ∈ inside → p.req.ep ∈ inside ∧
    ((∃ a, p.body = .answer a) ∨ ∃ a b c acc d' f h, p.body = .access a b c acc d' f h))
include hway hin

theorem catches_iff_caught (s' : State) (hs : wayOf s' = wayOf s) (n : Nat) {p : Pkt} (hp : p ∈ s.net) :
    (!staysInside inside p && standsInside s' inside n p) = caught inside p := by
  by_cases hd : p.dst ∈ inside
  · have hdst : inside.contains p.dst = true := List.contains_iff_mem.2 hd
    by_cases hsrc : p.src ∈ inside
    · have hstays : staysInside inside p = false := by
        obtain ⟨-, ⟨a, hb⟩ | ⟨a, b, c, acc, d, f, h, hb⟩⟩ := hin p hp hsrc hd <;> simp only [staysInside, hb]
      simp only [hstays, standsInside, hdst, caught, if_true, Bool.not_false, Bool.true_and, Bool.and_true]
    · have hsrc : inside.contains p.src = false := by simpa using hsrc
      simp only [standsInside, hdst, caught, hsrc, if_true, Bool.and_false, Bool.false_and]
  · have hdst : inside.contains p.dst = false := by simpa using hd
    have hclear : ((wayOf s p).any fun x => inside.any fun e => x == (dieKey e, routerOf e)) = false := by
      simpa using hway p hp hd
    simp only [standsInside, hdst, hs, hclear, caught, Bool.false_eq_true, if_false, Bool.and_false]

include hplain

/-- R105: the packets between two cores inside are discarded, and no others. -/
theorem dropInside_eq : dropInside s inside = { s with free := s.free + s.net.length, net := s.net.filter fun p => !caught inside p } := by
  let s' : State := { s with free := s.free + s.net.length }
  let catches := fun x : Pkt × Nat => !staysInside inside x.1 && standsInside s' inside (s.free + x.2) x.1
  have hcatches : ∀ x ∈ s.net.zipIdx, catches x = caught inside x.1 := fun x hx =>
    catches_iff_caught hway hin s' rfl _ (List.fst_mem_of_mem_zipIdx hx)
  have hgone : (s.net.zipIdx.filterMap fun x => if catches x then some x.1 else none) = s.net.filter (caught inside) := by
    rw [List.filterMap_congr (g := fun x => if caught inside x.1 then some x.1 else none) fun x hx => by rw [hcatches x hx],
      filterMap_zipIdx_fst fun p => if caught inside p then some p else none, ← List.filterMap_eq_filter]
    rfl
  have hleft : (s.net.zipIdx.filterMap fun x => if catches x then none else some x.1) = s.net.filter fun p => !caught inside p := by
    rw [List.filterMap_congr (g := fun x => if caught inside x.1 then none else some x.1) fun x hx => by rw [hcatches x hx],
      filterMap_zipIdx_fst fun p => if caught inside p then none else some p, ← List.filterMap_eq_filter]
    refine List.filterMap_congr fun p _ => ?_
    cases h : caught inside p <;> simp [Option.guard, h]
  have hdrop : dropInside s inside = (s.net.zipIdx.filterMap fun x => if catches x then some x.1 else none).foldl
      (fun s p => discardInside s inside p)
      { s' with net := s.net.zipIdx.filterMap fun x => if catches x then none else some x.1 } := rfl
  have hnothing (l : List Pkt) (hl : ∀ p ∈ l, p ∈ s.net ∧ caught inside p = true) (s : State) :
      l.foldl (fun s p => discardInside s inside p) s = s := by
    induction l generalizing s with
    | nil => rfl
    | cons p l ih =>
      obtain ⟨⟨hp, hcaught⟩, hl⟩ := List.forall_mem_cons.1 hl
      rw [caught, Bool.and_eq_true, List.contains_iff_mem, List.contains_iff_mem] at hcaught
      obtain ⟨hreq, hb⟩ := hin p hp hcaught.1 hcaught.2
      rw [List.foldl_cons, discardInside_of_inside (hplain p hp).1 hreq hb]
      exact ih hl s
  rw [hdrop, hgone, hleft]
  exact hnothing _ (fun p hp => List.mem_filter.1 hp) _

end dropInside

/-- R105: a migrant on its way whose origin lies inside. -/
def bringsHome (inside : List EP) (p : Pkt) : Bool := match p.body with
  | .migrant m => inside.contains m.origin.ep
  | _ => false

/-- R105: with no migrant about, none ends. -/
theorem endMigrants_eq (hc : ∀ c ∈ s.cores, c.2.mem.migrants = [] ∧ ∀ x ∈ c.2.slots, x.2.origin = none)
    (hn : ∀ p ∈ s.net, ∀ m, p.body ≠ .migrant m) : endMigrants s inside = s := by
  have hcores : (s.cores.map fun x => (x.1, { x.2 with mem := { x.2.mem with
      migrants := x.2.mem.migrants.filter fun m => !inside.contains m.origin.ep } })) = s.cores := by
    refine (List.map_congr_left fun x hx => ?_).trans (List.map_id s.cores)
    rw [(hc x hx).1, List.filter_nil, ← (hc x hx).1]
    rfl
  have hnone (p : Pkt) (hp : p ∈ s.net) : bringsHome inside p = false := by
    cases hb : p.body <;> simp only [bringsHome, hb]
    exact absurd hb (hn p hp _)
  have hflying : s.net.filter (bringsHome inside) = [] := List.filter_eq_nil_iff.2 fun p hp => by rw [hnone p hp]; exact Bool.false_ne_true
  have hstay : (s.net.filter fun p => !bringsHome inside p) = s.net := List.filter_eq_self.2 fun p hp => by rw [hnone p hp]; rfl
  unfold Machine.endMigrants
  dsimp only
  rw [(List.flatMap_eq_nil_iff (l := s.cores)).2 ?visitors, List.foldl_nil]
  rw [(List.flatMap_eq_nil_iff (l := s.cores)).2 ?queued, List.foldl_nil]
  case visitors =>
    refine fun c h => List.filterMap_eq_nil_iff.2 fun x hx => ?_
    simp only [(hc c h).2 x hx]
  case queued =>
    intro c h
    simp only [(hc c h).1, List.filter_nil, List.map_nil]
  change (s.net.filter (bringsHome inside)).foldl _ { s with
    cores := s.cores.map fun x => (x.1, { x.2 with mem := { x.2.mem with
      migrants := x.2.mem.migrants.filter fun m => !inside.contains m.origin.ep } })
    net := s.net.filter fun p => !bringsHome inside p } = s
  rw [hflying, hcores, hstay]
  rfl

/-- R105, R347: a core's waiters for cores inside go. -/
def Core.dropWaiters (inside : List EP) (c : Core) : Core :=
  let keep := fun (x : DtlEntry) => !inside.contains x.req.ep
  { c with dtl := c.dtl.filter keep, overflow := c.overflow.filter keep, watches := c.watches.filter fun w => !inside.contains w.2.1.ep }

/-- R56: with no overflow order, nothing takes the freed places. -/
theorem dropWaiters_eq (h : ∀ c ∈ s.cores, c.2.overflow = []) :
    dropWaiters s inside = { s with cores := s.cores.map fun x => (x.1, x.2.dropWaiters inside) } := by
  have hempty (e : EP) : (State.core { s with cores := s.cores.map fun x => (x.1, x.2.dropWaiters inside) } e).overflow = [] := by
    simp only [State.core, tget_map_snd]
    cases hc : tget s.cores e with
    | none => rfl
    | some c =>
      have : c.overflow = [] := h _ (mem_of_tget hc)
      simp only [Option.map_some, Option.getD_some, Core.dropWaiters, this, List.filter_nil]
  have hadmit (l : List EP) : l.foldl (fun s e => State.admitAll s e) { s with cores := s.cores.map fun x => (x.1, x.2.dropWaiters inside) } =
      { s with cores := s.cores.map fun x => (x.1, x.2.dropWaiters inside) } := by
    induction l with
    | nil => rfl
    | cons e l ih =>
      rw [List.foldl_cons, State.admitAll, hempty e]
      exact ih
  exact hadmit _

/-- R74, R105: with no copy command inside, the engines go on. -/
theorem dropEngines_eq (h : ∀ c ∈ s.cmds, c.ep ∉ inside) : dropEngines s inside = s := by
  have hout (c : Cmd) (hc : c ∈ s.cmds) : inside.contains c.ep = false := by simpa using h c hc
  have hland : (s.cmds.filter fun c => c.landing && inside.contains c.ep) = [] :=
    List.filter_eq_nil_iff.2 fun c hc => by rw [hout c hc, Bool.and_false]; exact Bool.false_ne_true
  have hkeep : (s.cmds.filter fun c => !inside.contains c.ep) = s.cmds := List.filter_eq_self.2 fun c hc => by rw [hout c hc]; rfl
  simp only [dropEngines, hland, hkeep, List.foldl_nil]

section regions
variable {dk : Nat}

theorem abortInside_eq (h : (s.die dk).regions = []) : abortInside s dk inside = s := by simp only [abortInside, h, List.filter_nil, List.foldl_nil]
theorem refuseAccesses_eq (h : (s.die dk).raccs = []) : refuseAccesses s dk inside = s := by
  simp only [refuseAccesses, h, List.filter_nil, List.foldl_nil]
theorem ackInside_eq (h : (s.die dk).regions = []) : ackInside s dk inside = s := by simp only [ackInside, h, List.flatMap_nil, List.foldl_nil]

end regions

end stages

/-- The waiters that go leave the threads, the groups and the arms of every core. -/
theorem holdsLittle_dropWaiters {s : State} {inside : List EP} {e : EP} (h : HoldsLittle (s.core e)) :
    HoldsLittle (State.core { s with cores := s.cores.map fun x => (x.1, x.2.dropWaiters inside) } e) := by
  obtain ⟨hg, hd, ht⟩ := h
  simp only [State.core] at hg hd ht
  simp only [State.core, tget_map_snd]
  cases hc : tget s.cores e with
  | none =>
    simp only [Option.map_none, Option.getD_none]
    exact ⟨rfl, rfl, fun _ hx => absurd hx List.not_mem_nil⟩
  | some c =>
    rw [hc] at hg hd ht
    exact ⟨hg, hd, ht⟩

/-- R104 to R106: the boundary of a resetting rectangle closes. -/
theorem boundaryCloses {s : State} {dk r : Nat} (hr : r < 16) (h1 : arecState s dk r = 1) (ho : (s.die dk).closed.toList.getD r false = false)
    (hreg : (s.die dk).regions = []) (hacc : (s.die dk).raccs = [])
    (hplain : ∀ p ∈ s.net, p.probed = false ∧ ∀ m, p.body ≠ .migrant m)
    (hway : ∀ p ∈ s.net, p.dst ∉ rectCores s (dk / 8) (dk % 8) r → ∀ x ∈ wayOf s p, ∀ e ∈ rectCores s (dk / 8) (dk % 8) r,
      x ≠ (dieKey e, routerOf e))
    (hin : ∀ p ∈ s.net, p.src ∈ rectCores s (dk / 8) (dk % 8) r → p.dst ∈ rectCores s (dk / 8) (dk % 8) r →
      p.req.ep ∈ rectCores s (dk / 8) (dk % 8) r ∧
      ((∃ a, p.body = .answer a) ∨ ∃ a b c acc d' f h, p.body = .access a b c acc d' f h))
    (hcmds : ∀ c ∈ s.cmds, c.ep ∉ rectCores s (dk / 8) (dk % 8) r) (hframes : ∀ key, (s.cluster key).frames = [])
    (hcores : ∀ c ∈ s.cores, c.2.mem.migrants = [] ∧ c.2.overflow = [] ∧ ∀ x ∈ c.2.slots, x.2.origin = none)
    (hlittle : ∀ e ∈ rectCores s (dk / 8) (dk % 8) r, HoldsLittle (s.core e)) :
    ∃ s', exec (.boundaryClose dk r) s = .next s' ∧ (s'.die dk).closed = (s.die dk).closed.setIfInBounds r true ∧
      (∀ e ∈ rectCores s (dk / 8) (dk % 8) r, ∀ n, s'.thr? e n = none) ∧
      (∀ e n, e ∉ rectCores s (dk / 8) (dk % 8) r → s'.thr? e n = s.thr? e n) ∧
      s'.net = s.net.filter fun p => !caught (rectCores s (dk / 8) (dk % 8) r) p := by
  generalize hinside : rectCores s (dk / 8) (dk % 8) r = inside at *
  have hgo : (arecState s dk r != 1 || (s.die dk).closed.toList.getD r true) = false := by rw [closed_getD_default hr, h1, ho]; rfl
  let s0 := s.modDie dk fun d => { d with closed := d.closed.setIfInBounds r true }
  have hdie : s0.die dk = { s.die dk with closed := (s.die dk).closed.setIfInBounds r true } := modDie_die_same ..
  let s1 : State := { s0 with free := s0.free + s0.net.length, net := s0.net.filter fun p => !caught inside p }
  have hdrop : dropInside s0 inside = s1 := dropInside_eq (s := s0) hplain hway hin
  have hmigrants : endMigrants s1 inside = s1 := endMigrants_eq (s := s1) (fun c hc => ⟨(hcores c hc).1, (hcores c hc).2.2⟩)
    fun p hp => (hplain p (List.mem_filter.1 hp).1).2
  let s2 : State := { s1 with cores := s1.cores.map fun x => (x.1, x.2.dropWaiters inside) }
  have hwaiters : dropWaiters s1 inside = s2 := dropWaiters_eq (s := s1) fun c hc => (hcores c hc).2.1
  have hengines : dropEngines s2 inside = s2 := dropEngines_eq (s := s2) hcmds
  obtain ⟨hloses, hempty⟩ := foldl_loseCore_loses (inside := inside) (s := s2) inside (fun _ he => he)
    (fun e he => holdsLittle_dropWaiters (s := s1) (hlittle e he)) hframes
  have hlost : (inside.foldl loseCore s2).die dk = { s.die dk with closed := (s.die dk).closed.setIfInBounds r true } := by
    rw [State.die, hloses.dies]
    exact hdie
  refine ⟨inside.foldl loseCore s2, ?exec, by rw [hlost], hempty, fun e n he => ?others, hloses.net⟩
  case exec =>
    simp only [exec_boundaryClose, execBoundaryClose, hgo, Bool.false_eq_true, if_false, hinside]
    change Host.Outcome.next (ackInside (refuseAccesses (abortInside (inside.foldl loseCore (dropEngines (dropWaiters
      (endMigrants (dropInside s0 inside) inside) inside) inside)) dk inside) dk inside) dk inside) = _
    rw [hdrop, hmigrants, hwaiters, hengines, abortInside_eq (by rw [hlost]; exact hreg), refuseAccesses_eq (by rw [hlost]; exact hacc),
      ackInside_eq (by rw [hlost]; exact hreg)]
  case others =>
    rw [hloses.thr?_other he]
    exact (KeepsThreads.mapCores (e := e) s1 (f := Core.dropWaiters inside) fun _ => rfl).thr? n

/-- R102 to R106: containment. -/
theorem containmentSteps : ContainmentSteps := by
  unfold ContainmentSteps
  intro s dk r w hr d old v inside closed state bad moves
  have hbad : arecBarred s dk r v = true ↔ bad := arecBarred_iff
  have hmoves : arecMoves s dk r v = true ↔ moves := arecMoves_iff
  refine ⟨fun hb hm h0 => ?written, fun h => ?ignored, fun h => exec_boundaryClose_of_idle h hr, fun h1 hc hreg hacc hplain hway hin hcmds hframes
    hcores hlittle => ?closes, fun h => exec_rectangleResetComplete_of_idle h, fun h1 hc => ?resets, fun h2 => ?released,
    exec_containmentRelease_of_idle⟩
  case written =>
    have hb : arecBarred s dk r v = false := Bool.eq_false_iff.2 (hbad.not.2 hb)
    have hm : arecMoves s dk r v = false := Bool.eq_false_iff.2 (hmoves.not.2 hm)
    exact congrArg Host.Outcome.next (arecWrite_of_allowed hr hb hm h0)
  case ignored => exact ⟨_, congrArg Host.Outcome.next (arecWrite_of_ignored hr (h.imp hbad.2 hmoves.2)), rfl, rfl⟩
  case closes =>
    exact boundaryCloses hr h1 hc hreg hacc hplain hway hin hcmds hframes hcores fun e he =>
      have ⟨hg, hd, ht⟩ := hlittle e he
      ⟨hg, hd, ht⟩
  case resets =>
    obtain ⟨s', he, hs, hn, hcores⟩ := rectangleReset hr h1 hc
    exact ⟨s', he, hs, hn, fun e c hin hc => by rw [hcores, if_pos hin, hc]; rfl, fun e hout => by rw [hcores, if_neg hout]⟩
  case released =>
    obtain ⟨s', he, hs, hc, hcores⟩ := containmentReleased hr h2
    exact ⟨s', he, hs, hc, fun e c hin hc => by rw [hcores e hin, hc]; rfl⟩

/-- Settles O50: migrants by what `placeMigrant` and `comeHome` leave, the end of a thread and an image by what its units leave of the core, and
a closing boundary by its stages, each of which leaves everything but what it takes away. -/
theorem visitorsImagesAndContainment : Obligations.VisitorsImagesAndContainment := ⟨migrantsTravel, imagesWritten, containmentSteps⟩

end Sys2Proof.Machine
end

section
/-! A release that overtakes an owner's acknowledgement (R178, R187): the region unit keeps the record, and O49. -/

namespace Sys2Proof.Machine

/-- A thread that waits in RCOMMIT. -/
def committingThread : Thread :=
  { Thread.start 7 0 0 0 0 with
    park := some ⟨.answer, 0, none, 4, 0, 0, 0⟩
    sb := (Vector.replicate 17 SbEntry.none).set 16 ⟨.sent, 9, 0, 0, 0, true⟩ }

/-- Its region, decided; the owner at endpoint 1 has not yet acknowledged the resolve. -/
def unresolvedRegion : Region :=
  ⟨.committed, 0, ⟨0, 0, 7, 0, 0, 0, 16, 0⟩, ⟨never, 0, 0⟩, 0, 0, 0, [], [1], [1], 0, false, 0, 0⟩

/-- The release of that region. -/
def earlyRelease : Pkt :=
  ⟨unitEp 0, 0, 0, .arrived, 0, ⟨0, 0, 7, 0, 0, 0, 16, 0⟩, ⟨never, 0, 0⟩, .region (.release 0), 0, none⟩

/-- The three together: the release has arrived while the region still waits for its owner. -/
def earlyReleaseState : State :=
  { State.reset with
    cores := [(0, { Core.start .compute with slots := [(0, committingThread)] })]
    dies := [(0, { Die.start with regions := [(0, unresolvedRegion)] })]
    net := [earlyRelease] }

theorem arrives_earlyRelease : Arrives earlyReleaseState 0 earlyRelease := by
  unfold Arrives
  decide +kernel

/-- The wait of the thread in a slot after a step. -/
def parkAfter (o : Host.Outcome State Fault Refusal) (e : EP) (n : Nat) : Option (Option Park) := match o with
  | .next s => (s.thr? e n).map (·.park)
  | _ => none

/-- R439: the thread still waits, since not every owner has acknowledged. -/
theorem parkAfter_earlyRelease :
    parkAfter (exec (.replyArrival 0) earlyReleaseState) 0 0 = some (some ⟨.answer, 0, none, 4, 0, 0, 0⟩) := by decide +kernel

/-- The end of a proxy leaves the threads of a core. -/
theorem KeepsThreads.reapProxy (e : EP) (s : State) (pkg h : Nat) : KeepsThreads e s (reapProxy s pkg h) := by
  unfold Machine.reapProxy
  split
  · exact ite (endProxy ..) (refl e s)
  · exact refl e s

/-- Refutes O49: the last clause of RegionCommits does not ask that the region waits for no owner. Here one still has to acknowledge the
resolve when a release arrives; the model then leaves the record and its thread as they are (R187: every owner acknowledges first), where the
statement says that the thread goes on. -/
theorem not_regionEvents : ¬ Obligations.RegionEvents := by
  unfold Obligations.RegionEvents
  rintro ⟨-, -, -, hcommits, -⟩
  obtain ⟨-, -, -, -, -, -, -, hreleased⟩ := hcommits earlyReleaseState 0 0 0 0 0 earlyRelease unresolvedRegion 0 0
    ⟨0, 0, false, 0, 0, false, none, false⟩ committingThread ⟨.answer, 0, none, 4, 0, 0, 0⟩ rfl rfl
  obtain ⟨s', t', hbecomes, -, -, hthread, -, -, -, -, hgone⟩ :=
    hreleased arrives_earlyRelease rfl (by decide +kernel) (by decide +kernel) rfl (by decide +kernel) rfl rfl
  have hpark := parkAfter_earlyRelease
  rw [hbecomes] at hpark
  change ((Machine.reapProxy s' _ _).thr? 0 0).map (·.park) = _ at hpark
  rw [(KeepsThreads.reapProxy ..).thr?, hthread, Option.map_some, hgone] at hpark
  exact absurd hpark (by decide)

end Sys2Proof.Machine
end

section
/-! A rank's failure that reaches a command whose thread stands in its save area (R80, R135, R289): the image is written there, and O47. -/

namespace Sys2Proof.Machine

/-- A command of collective 0 with nothing left to send. -/
def savedColl : Coll :=
  { id := 1, req := ⟨0, 0, 7, 0, 0, 0, 17, 0⟩, carry := ⟨never, 0, 0⟩, words := [], lbase := 0, peermap := 0, comm := 0, num := 0,
    toSend := [], toCome := [], since := 0, lastFrom := [], flying := 0, parts := [], bytes := 0, isOver := none }

/-- Its thread, not parked. -/
def savedThread : Thread := { Thread.start 7 0 0 0 0 with park := none }

/-- The home of four lines of the save area: a sealed word of each holds its line. -/
def sealedHome (line : Nat) : Core :=
  { Core.start .memory with
    vbuf := (List.range 4).map fun i => ⟨dramKey (line + 64 * i), 0, true, 0, 0, true, none, false⟩ }

/-- Package 0: the failure of rank 0 has come, the thread of the command stands in its save area, and the units hold the entries of its
context and its communicator. -/
def savedPkg : Pkg :=
  { Pkg.off 0 with
    colls := [savedColl]
    early := [.partFail 0 0 0 false]
    spilled := [⟨savedThread, 0, false⟩]
    copies := [(entryKey 0 0, 0), (entryKey 2 0, 0)] }

/-- The lines of the save area wait for regions that are sealed. -/
def savedState : State :=
  { State.reset with
    pkgs := [(0, savedPkg)]
    cores := (List.range 4).map fun i => (homeOf (256 * i), sealedHome (256 * i)) }

/-- How many packets are on their way after a step. -/
def packetsAfter (o : Host.Outcome State Fault Refusal) : Option Nat := match o with
  | .next s => some s.net.length
  | _ => none

/-- R289, R82: the image goes to its sixteen lines as packets of the package's units. -/
theorem packetsAfter_saved : packetsAfter (exec (.collChunkSend 0 0) savedState) = some 16 := by decide +kernel

/-- Refutes O47: where a failure has come, ChunksLeave lets the thread of the command be anywhere. Of a thread in a save area the sticky bit is
set in its image, and where the lines of that are busy the write leaves as packets, where the statement says that none does. It lacks that
the requester is in a slot. -/
theorem not_collectiveEvents : ¬ Obligations.CollectiveEvents := by
  unfold Obligations.CollectiveEvents
  rintro ⟨hleave, -, -⟩
  obtain ⟨-, -, -, hfailed, -⟩ := hleave savedState 0 0 0 savedColl savedThread rfl
  obtain ⟨s', -, hexec, -, -, -, -, -, -, hnet⟩ := hfailed 0 false rfl rfl
  have hcount := packetsAfter_saved
  rw [hexec, packetsAfter, hnet] at hcount
  exact absurd hcount (by decide)

end Sys2Proof.Machine
end

section
/-! Packages, queues and reports after a change (R121, R218). -/

namespace Sys2Proof.Machine

theorem pkg_modPkg_same (s : State) (i : Nat) (f : Pkg → Pkg) : (s.modPkg i f).pkg i = f (s.pkg i) := by
  simp only [State.modPkg, State.pkg, tget_tput_same, Option.getD_some]

theorem pkg_modPkg_other {i j : Nat} (h : j ≠ i) (s : State) (f : Pkg → Pkg) : (s.modPkg i f).pkg j = s.pkg j := by
  simp only [State.modPkg, State.pkg, tget_tput_other _ _ h]

/-- What a change of a package keeps of it, every package keeps. -/
theorem pkg_modPkg_of_keeps {α : Type} {g : Pkg → α} {f : Pkg → Pkg} (hf : ∀ p, g (f p) = g p) (s : State) (i j : Nat) :
    g ((s.modPkg i f).pkg j) = g (s.pkg j) := by
  by_cases h : j = i
  · rw [h, pkg_modPkg_same, hf]
  · rw [pkg_modPkg_other h]

theorem queue_modQueue_same (s : State) (pkg q : Nat) (f : QState → QState) : (s.modQueue pkg q f).queue pkg q = f (s.queue pkg q) := by
  simp only [State.modQueue, State.queue, pkg_modPkg_same, tget_tput_same, Option.getD_some]

theorem net_reportItem (s : State) (pkg : Nat) (c : Carry) (a b d : Nat) : (reportItem s pkg c a b d).net = s.net := by
  unfold reportItem
  split
  · rfl
  · split
    · exact report_net ..
    · rfl

theorem pkgs_reportItem (s : State) (pkg : Nat) (c : Carry) (a b d : Nat) : (reportItem s pkg c a b d).pkgs = s.pkgs := by
  unfold reportItem
  split
  · rfl
  · split
    · exact report_pkgs ..
    · rfl

theorem takePkt_of_not_probed {p : Pkt} (h : p.probed = false) (s : State) (k : Nat) (e : EP) : takePkt s k e p = s.dropPkt k := by
  simp only [takePkt, h, Bool.false_eq_true, if_false]

end Sys2Proof.Machine
end

section
/-! Messages on their way (R111, R118 to R120, R219): injection, the inbox, and what is held at an endpoint. -/

namespace Sys2Proof.Machine

/-- A message to an endpoint reaches what the endpoint does with it, once it has met no lapse, no closed boundary and no channel of another
context. -/
structure MessageArrives (s : State) (k v m : Nat) (msg : Msg) (p : Pkt) : Prop where
  arrives : Arrives s k p
  body : p.body = .message v m msg
  live : expired s p.dst p.carry = false
  openAt : closedAt s p.dst = false
  channel : wrongChannel s p.dst p = false

/-- A message as its endpoint holds it. -/
def heldFor (p : Pkt) (v m : Nat) (msg : Msg) : HeldMsg := ⟨p.req.ctx, v, m, msg, p.req, p.carry, true⟩

/-- The arrived packet is held at its endpoint. -/
def holdMessage (s : State) (k : Nat) (p : Pkt) (h : HeldMsg) : State :=
  (s.dropPkt k).modCore p.dst fun c => { c with held := c.held ++ [h] }

theorem refusePkt_of_message {p : Pkt} {v m : Nat} {msg : Msg} (hb : p.body = .message v m msg) (s : State) (k : Nat) (e : EP) :
    refusePkt s k e p = (takePkt s k e p).answer e p.req p.carry .refused := by simp only [refusePkt, hb]

section delivery
variable {s : State} {k v m n : Nat} {msg : Msg} {p : Pkt} {t : Thread} (h : MessageArrives s k v m msg p)
include h

theorem becomes_inbox (hw : addressee s p.dst p.req.ctx v m = .slot n) (ht : s.thr? p.dst n = some t) (hl : t.inbox.length < 4)
    (hf : (s.core p.dst).held.any (·.isFor p.req.ctx v m) = false) :
    Becomes (.messageDelivery k) s p ((takePkt s k p.dst p).modThr p.dst n fun t => { t with inbox := t.inbox ++ [msg] }) := by
  obtain ⟨ha, hb, hlive, hopen, hchan⟩ := h
  simp only [Becomes, exec_messageDelivery, execMessageDelivery, onPacket_of_arrives ha, hb, hlive, hopen, hchan, hw, ht, hf,
    Nat.not_le.2 hl, decide_false, Bool.or_self, Bool.false_eq_true, if_false]

theorem becomes_held_of_slot (hw : addressee s p.dst p.req.ctx v m = .slot n) (ht : s.thr? p.dst n = some t)
    (hf : 4 ≤ t.inbox.length ∨ (s.core p.dst).held.any (·.isFor p.req.ctx v m) = true) :
    Becomes (.messageDelivery k) s p (holdMessage s k p (heldFor p v m msg)) := by
  obtain ⟨ha, hb, hlive, hopen, hchan⟩ := h
  have hfull : (decide (4 ≤ t.inbox.length) || (s.core p.dst).held.any (·.isFor p.req.ctx v m)) = true := by simpa using hf
  simp only [Becomes, exec_messageDelivery, execMessageDelivery, onPacket_of_arrives ha, hb, hlive, hopen, hchan, hw, ht, hfull,
    Bool.or_self, Bool.false_eq_true, if_false, if_true, holdMessage, heldFor]

theorem becomes_held_of_tcc (hw : addressee s p.dst p.req.ctx v m = .tcc n) :
    Becomes (.messageDelivery k) s p (holdMessage s k p (heldFor p v m msg)) := by
  obtain ⟨ha, hb, hlive, hopen, hchan⟩ := h
  simp only [Becomes, exec_messageDelivery, execMessageDelivery, onPacket_of_arrives ha, hb, hlive, hopen, hchan, hw,
    Bool.or_self, Bool.false_eq_true, if_false, holdMessage, heldFor]

theorem becomes_refused_of_gone (hw : addressee s p.dst p.req.ctx v m = .gone) :
    Becomes (.messageDelivery k) s p ((takePkt s k p.dst p).answer p.dst p.req p.carry .refused) := by
  obtain ⟨ha, hb, hlive, hopen, hchan⟩ := h
  simp only [Becomes, exec_messageDelivery, execMessageDelivery, onPacket_of_arrives ha, hb, hlive, hopen, hchan, hw,
    Bool.or_self, Bool.false_eq_true, if_false, refusePkt_of_message hb]

end delivery

theorem core_holdMessage_held {s : State} {k : Nat} {p : Pkt} {h : HeldMsg} (hc : (s.core? p.dst).isSome = true) :
    ((holdMessage s k p h).core p.dst).held = (s.core p.dst).held ++ [h] := by
  rw [holdMessage, core_modCore_same (s := s.dropPkt k) hc]
  rfl

theorem thr?_holdMessage (s : State) (k : Nat) (p : Pkt) (h : HeldMsg) (n : Nat) : (holdMessage s k p h).thr? p.dst n = s.thr? p.dst n :=
  thr?_modCore_of_slots (s := s.dropPkt k) (f := fun c => { c with held := c.held ++ [h] }) (fun _ => rfl) n

/-- R119: a message leaves its place. -/
theorem exec_messageInjection_of_outbox {s : State} {j n : Nat} {e : EP} {t : Thread} {o : OutMsg} {rest : List OutMsg}
    (hj : (outboxes s)[j]? = some (e, n, t)) (ho : t.outbox = o :: rest) :
    exec (.messageInjection j) s = .next ((injectMsg s e n t o).modThr e n fun t => { t with outbox := rest }) := by
  simp only [exec_messageInjection, execMessageInjection, hj, ho]

theorem net_countIn (s : State) (e : EP) (ctx : Ctx) : (countIn s e ctx).net = s.net := by
  unfold countIn modNi
  split
  · rfl
  · split <;> rfl

theorem net_dropHeld (s : State) (e : EP) (k : Nat) (h : HeldMsg) : (dropHeld s e k h).net = s.net := by
  unfold dropHeld
  split
  · exact net_countIn ..
  · rfl

theorem thr?_dropHeld (s : State) (e : EP) (k : Nat) (h : HeldMsg) (n : Nat) : (dropHeld s e k h).thr? e n = s.thr? e n := by
  have hdrop : (s.modCore e fun c => { c with held := dropAt k c.held }).thr? e n = s.thr? e n :=
    thr?_modCore_of_slots (f := fun c => { c with held := dropAt k c.held }) (fun _ => rfl) n
  unfold dropHeld
  split
  · exact ((KeepsThreads.countIn _ e h.req.ctx).thr? n).trans hdrop
  · exact hdrop

theorem core_dropHeld_held {s : State} {e : EP} {k : Nat} {h : HeldMsg} (hc : (tget s.cores e).isSome = true) :
    ((dropHeld s e k h).core e).held = dropAt k (s.core e).held := by
  have hdrop : ((s.modCore e fun c => { c with held := dropAt k c.held }).core e).held = dropAt k (s.core e).held := by
    rw [core_modCore_same hc]
  unfold dropHeld
  split
  · exact (congrArg (·.2.2.1) (KeepsThreads.countIn _ e h.req.ctx).core).trans hdrop
  · exact hdrop

section release
variable {s : State} {e : EP} {n : Nat} {t : Thread} {h : HeldMsg} {rest : List HeldMsg}

theorem exec_heldMessageRelease_of_slot (hh : (s.core e).held = h :: rest) (he : expired s e h.carry = false)
    (hw : addressee s e h.ctx h.vcore h.vthr = .slot n) (ht : s.thr? e n = some t) :
    exec (.heldMessageRelease e 0) s = .next (if t.inbox.length < 4 then
      (dropHeld s e 0 h).modThr e n fun t => { t with inbox := t.inbox ++ [h.msg] } else s) := by
  simp only [exec_heldMessageRelease, execHeldMessageRelease, hh, he, hw, ht, List.getElem?_cons_zero, List.take_zero, List.any_nil,
    Bool.and_false, Bool.false_eq_true, if_false, decide_eq_true_eq]

end release

theorem messagesTravel : MessagesTravel := by
  intro s k j n v m e t p msg hold i taken arrives open_ who behind held
  have hfor : behind ↔ (s.core p.dst).held.any (·.isFor p.req.ctx v m) = true := List.any_eq_true.symm
  have arrived (ha : arrives) (ho : open_) : MessageArrives s k v m msg p := ⟨ha.1, ha.2, ho.1, ho.2.1, ho.2.2⟩
  have heldOf (hb : Becomes i s p (holdMessage s k p (heldFor p v m msg))) (hc : (s.core? p.dst).isSome = true) : held :=
    ⟨_, hb, rfl, core_holdMessage_held hc, fun _ => thr?_holdMessage ..⟩
  refine ⟨?_, ?_, ?_, ?_, ?_, ?_⟩
  · intro o rest hj ht ho
    refine ⟨_, _, { t with outbox := rest }, exec_messageInjection_of_outbox hj ho, rfl, rfl, rfl, rfl, rfl, rfl, rfl, ?_, rfl, rfl, rfl⟩
    rw [thr?_modThr]
    exact congrArg (Option.map _) ht
  · intro ha ho hw ht hl hnot
    exact becomes_inbox (arrived ha ho) hw ht hl (by rwa [hfor, Bool.not_eq_true] at hnot)
  · intro ha ho hw ht hf hc
    exact heldOf (becomes_held_of_slot (arrived ha ho) hw ht (hf.imp_right hfor.1)) hc
  · intro x ha ho hw hc
    exact heldOf (becomes_held_of_tcc (arrived ha ho) hw) hc
  · intro ha ho hw
    exact becomes_refused_of_gone (arrived ha ho) hw
  · intro h rest hh he hw ht
    have hexec := exec_heldMessageRelease_of_slot hh he hw ht
    refine ⟨fun hl => ?_, fun hl => by rw [hexec, if_neg (Nat.not_lt.2 hl)]⟩
    rw [hexec, if_pos hl]
    refine ⟨_, rfl, ?_, ?_, net_dropHeld ..⟩
    · rw [core_modThr_of_keeps (g := Core.held) fun _ _ => rfl, core_dropHeld_held (core_isSome_of_thr? ht), hh, dropAt]
    · rw [thr?_modThr, thr?_dropHeld, ht, Option.map_some]

end Sys2Proof.Machine
end

section
/-! Items, requests, grants and returns of remote queues (R111, R121, R122, R216, R355). -/

namespace Sys2Proof.Machine

section arrivals
variable {s : State} {k q n g : Nat} {p : Pkt} {item : Packet} {ack : Bool} {t : Thread} (ha : Arrives s k p)
include ha

theorem becomes_enq (hb : p.body = .enq q item ack) (he : expired s p.dst p.carry = false)
    (hs : takesEnq s (epPkg p.dst) q p.req.ctx = true) :
    let s' := pushItem (unreserve (takePkt s k p.dst p) (epPkg p.dst) q 1) (epPkg p.dst) q item p.carry
    Becomes (.remoteEnqArrival k) s p (if ack = true then s'.answer p.dst p.req p.carry .placed else s') := by
  simp only [Becomes, exec_remoteEnqArrival, execRemoteEnqArrival, onPacket_of_arrives ha, hb, he, hs, Bool.not_true, Bool.false_eq_true,
    if_false]

theorem becomes_enq_refused (hb : p.body = .enq q item ack) (he : expired s p.dst p.carry = false)
    (hs : takesEnq s (epPkg p.dst) q p.req.ctx = false) :
    Becomes (.remoteEnqArrival k) s p
      ((takePkt s k p.dst p).answer p.dst p.req p.carry (if ack = true then .notPlaced else .refused)) := by
  simp only [Becomes, exec_remoteEnqArrival, execRemoteEnqArrival, onPacket_of_arrives ha, hb, he, hs, Bool.not_false, Bool.false_eq_true,
    if_false, if_true, refusePkt]

theorem becomes_grant_sent (hb : p.body = .qresReq q n) (he : expired s p.dst p.carry = false) (hc : wrongChannel s p.dst p = false)
    (hs : takesEnq s (epPkg p.dst) q p.req.ctx = true) :
    let x := s.queue (epPkg p.dst) q
    let g := min n (qEntries (qDesc s (epPkg p.dst) q) - (x.tail - x.head) - x.reserved)
    Becomes (.qresRequestArrival k) s p (((s.dropPkt k).modQueue (epPkg p.dst) q fun x => { x with reserved := x.reserved + g }).send
      p.dst p.req.ep 0 p.req p.carry (.qresGrant q g false)) := by
  have hs' : takesEnq (s.dropPkt k) (epPkg p.dst) q p.req.ctx = true := hs
  simp only [Becomes, exec_qresRequestArrival, execQresRequestArrival, onPacket_of_arrives ha, hb, he, hc, hs', Bool.not_true,
    Bool.false_eq_true, if_false]
  rfl

theorem becomes_grant_of_nothing (hb : p.body = .qresReq q n) (he : expired s p.dst p.carry = false) (hc : wrongChannel s p.dst p = false)
    (hs : takesEnq s (epPkg p.dst) q p.req.ctx = false) :
    Becomes (.qresRequestArrival k) s p ((s.dropPkt k).send p.dst p.req.ep 0 p.req p.carry (.qresGrant q 0 true)) := by
  have hs' : takesEnq (s.dropPkt k) (epPkg p.dst) q p.req.ctx = false := hs
  simp only [Becomes, exec_qresRequestArrival, execQresRequestArrival, onPacket_of_arrives ha, hb, he, hc, hs', Bool.not_false,
    Bool.false_eq_true, if_false, if_true]

theorem becomes_granted (hb : p.body = .qresGrant q n false) (he : expired s p.dst p.carry = false)
    (hl : locate s p.dst p.req.uid = .slot g) (ht : s.thr? p.dst g = some t) (hq : asksQueue s p.dst t (epPkg p.src) q = true) :
    Becomes (.qresGrantArrival k) s p ((s.dropPkt k).modThr p.dst g fun t =>
      { t with qres := { t.qres with count := t.qres.count + n, outstanding := false } }) := by
  have hl' : locate (s.dropPkt k) p.dst p.req.uid = .slot g := hl
  have ht' : (s.dropPkt k).thr? p.dst g = some t := ht
  have hq' : asksQueue (s.dropPkt k) p.dst t (epPkg p.src) q = true := hq
  simp only [Becomes, exec_qresGrantArrival, execQresGrantArrival, onPacket_of_arrives ha, hb, he, hl', State.thrWhere, ht', hq',
    Bool.false_eq_true, if_false, if_true, State.modWhere]

theorem becomes_grant_returned (hb : p.body = .qresGrant q n false) (he : expired s p.dst p.carry = false)
    (hl : locate s p.dst p.req.uid = .slot g) (ht : s.thr? p.dst g = some t) (hq : asksQueue s p.dst t (epPkg p.src) q = false)
    (hn : n ≠ 0) :
    Becomes (.qresGrantArrival k) s p ((s.dropPkt k).send p.dst p.src (ctxVc s (epPkg p.dst) p.req.ctx) { p.req with entry := 17 } p.carry
      (.qresReturn q n)) := by
  have hl' : locate (s.dropPkt k) p.dst p.req.uid = .slot g := hl
  have ht' : (s.dropPkt k).thr? p.dst g = some t := ht
  have hq' : asksQueue (s.dropPkt k) p.dst t (epPkg p.src) q = false := hq
  simp only [Becomes, exec_qresGrantArrival, execQresGrantArrival, onPacket_of_arrives ha, hb, he, hl', State.thrWhere, ht', hq',
    Bool.false_eq_true, if_false, beq_iff_eq, hn]
  rfl

theorem becomes_returned (hb : p.body = .qresReturn q n) (he : expired s p.dst p.carry = false) (hc : wrongChannel s p.dst p = false) :
    Becomes (.reservationReturn k) s p (unreserve (s.dropPkt k) (epPkg p.dst) q n) := by
  simp only [Becomes, exec_reservationReturn, execReservationReturn, onPacket_of_arrives ha, hb, he, hc, Bool.false_eq_true, if_false]

theorem becomes_dropLapsed_of_grant (hb : p.body = .qresGrant q n false) (he : expired s p.dst p.carry = true) :
    Becomes (.qresGrantArrival k) s p (dropLapsed s k p.dst p p.carry) := by
  simp only [Becomes, exec_qresGrantArrival, execQresGrantArrival, onPacket_of_arrives ha, hb, he, if_true]

theorem becomes_dropLapsed_of_return (hb : p.body = .qresReturn q n) (he : expired s p.dst p.carry = true) :
    Becomes (.reservationReturn k) s p (dropLapsed s k p.dst p p.carry) := by
  simp only [Becomes, exec_reservationReturn, execReservationReturn, onPacket_of_arrives ha, hb, he, if_true]

theorem becomes_request_refused (hb : p.body = .qresReq q n) (he : expired s p.dst p.carry = false) (hc : wrongChannel s p.dst p = true) :
    Becomes (.qresRequestArrival k) s p ((s.dropPkt k).send p.dst p.req.ep 0 p.req p.carry (.qresGrant q 0 true)) := by
  have hp : p.probed = false := by rw [Pkt.probed, hb]
  simp only [Becomes, exec_qresRequestArrival, execQresRequestArrival, onPacket_of_arrives ha, hb, he, hc, Bool.false_eq_true, if_false,
    if_true, refusePkt, takePkt_of_not_probed hp]

theorem becomes_return_refused (hb : p.body = .qresReturn q n) (he : expired s p.dst p.carry = false) (hc : wrongChannel s p.dst p = true) :
    Becomes (.reservationReturn k) s p ((s.dropPkt k).answer p.dst { p.req with entry := 17 } p.carry .refused) := by
  have hp : p.probed = false := by rw [Pkt.probed, hb]
  simp only [Becomes, exec_reservationReturn, execReservationReturn, onPacket_of_arrives ha, hb, he, hc, Bool.false_eq_true, if_false,
    if_true, refusePkt, takePkt_of_not_probed hp]

end arrivals

/-- R216: a drop that frees reserved entries keeps every other packet, and frees what the packet carried. -/
theorem dropLapsed_of_unreserve {s : State} {k q n g : Nat} {e : EP} {p : Pkt} (hp : p.probed = false)
    (ht : tellDropped (s.dropPkt k) e p = unreserve (s.dropPkt k) g q n) :
    (dropLapsed s k e p p.carry).net = dropAt k s.net ∧
    ((dropLapsed s k e p p.carry).queue g q).reserved = (s.queue g q).reserved - n := by
  simp only [dropLapsed, takePkt_of_not_probed hp, ht, net_reportItem, State.queue, State.pkg, pkgs_reportItem]
  refine ⟨rfl, ?_⟩
  exact congrArg QState.reserved (queue_modQueue_same (s.dropPkt k) g q fun x => { x with reserved := x.reserved - n })

theorem remoteQueues : RemoteQueues := by
  intro s k q g n p item ack t i ha pkg e x free taken
  refine ⟨fun hb he => ⟨fun hs => becomes_enq ha hb he hs, fun hs => becomes_enq_refused ha hb he hs⟩,
    fun hb he hc => ⟨fun hs => becomes_grant_sent ha hb he hc hs, fun hs => becomes_grant_of_nothing ha hb he hc hs⟩,
    fun hb he hl ht => ⟨fun hq => becomes_granted ha hb he hl ht hq,
      fun hq hn => ⟨_, _, becomes_grant_returned ha hb he hl ht hq hn, rfl, rfl, rfl, rfl⟩⟩,
    fun hb he hc => becomes_returned ha hb he hc, ?_, ?_⟩
  · rintro he (⟨hb, rfl, rfl⟩ | ⟨hb, rfl, rfl⟩)
    · exact ⟨_, becomes_dropLapsed_of_grant ha hb he, dropLapsed_of_unreserve (by rw [Pkt.probed, hb]) (by rw [tellDropped, hb])⟩
    · exact ⟨_, becomes_dropLapsed_of_return ha hb he, dropLapsed_of_unreserve (by rw [Pkt.probed, hb]) (by rw [tellDropped, hb])⟩
  · rintro he (⟨hb, rfl⟩ | ⟨hb, rfl⟩) hc
    · exact ⟨_, _, becomes_request_refused ha hb he hc, rfl, rfl, rfl, rfl, rfl⟩
    · exact ⟨_, _, becomes_return_refused ha hb he hc, rfl, rfl, rfl, rfl, rfl⟩

end Sys2Proof.Machine
end

section
/-! The deferred-take list's timeouts (R55, R260). -/

namespace Sys2Proof.Machine

section list
variable {s : State} {e : EP} {x : DtlEntry} {rest : List DtlEntry}

/-- A core without the first access of its list. -/
def dropFirst (c : Core) : Core := { c with dtl := dropAt 0 c.dtl }

theorem core_isSome_of_dtl (h : (s.core e).dtl = x :: rest) : (tget s.cores e).isSome = true := by
  cases hc : tget s.cores e with
  | none => simp [State.core, hc, Core.start] at h
  | some c => rfl

theorem admitAll_of_overflow_nil (h : (s.core e).overflow = []) : s.admitAll e = s := by
  rw [State.admitAll, h, List.length_nil, admitOverflow]

/-- The first access of a list has waited its time: it leaves the list and is answered. -/
theorem exec_dtlEntryTimeout_of_late (hr : x.local_ = false) (hd : (s.core e).dtl = x :: rest) (ho : (s.core e).overflow = []) (hl : entryLate s e x = true) :
    exec (.dtlEntryTimeout e 0) s = .next ((s.modCore e dropFirst).answer e x.req x.carry .timedOut) := by
  have hpos : 0 < (s.core e).dtl.length := by rw [hd]; exact Nat.succ_pos _
  have hover : (((s.modCore e dropFirst).answer e x.req x.carry .timedOut).core e).overflow = [] :=
    (core_modCore_of_keeps (g := Core.overflow) (f := dropFirst) (fun _ => rfl) s e e).trans ho
  simp only [exec_dtlEntryTimeout, execDtlEntryTimeout, hd, List.cons_append, List.getElem?_cons_zero, hl, Bool.not_true, Bool.false_eq_true,
    if_false, List.length_cons, Nat.succ_pos, if_true, entryAnswer, State.respond, hr]
  exact congrArg _ (admitAll_of_overflow_nil hover)

theorem exec_dtlEntryTimeout_of_early (hd : (s.core e).dtl = x :: rest) (hl : entryLate s e x = false) :
    exec (.dtlEntryTimeout e 0) s = .next s := by
  simp only [exec_dtlEntryTimeout, execDtlEntryTimeout, hd, List.cons_append, List.getElem?_cons_zero, hl, Bool.not_false, if_true]

end list

theorem listTimeouts : ListTimeouts := by
  intro s e x rest hd ho
  refine ⟨fun d hx hlt hlocal => ?_, fun hearly => exec_dtlEntryTimeout_of_early hd ?_⟩
  · have hlate : entryLate s e x = true := by simpa only [entryLate, hx, limitOver, decide_eq_true_eq] using hlt
    have hcore : (s.modCore e dropFirst).core e = dropFirst (s.core e) := core_modCore_same (core_isSome_of_dtl hd)
    refine ⟨_, _, exec_dtlEntryTimeout_of_late hlocal hd ho hlate, ?_, rfl, rfl, rfl, rfl, rfl, rfl,
      (congrArg Core.gran hcore : _), (congrArg Core.spad hcore : _)⟩
    exact (congrArg Core.dtl hcore).trans (by rw [dropFirst, hd, dropAt])
  · unfold entryLate
    cases hx : x.deadline with
    | none => rfl
    | some d => simpa only [limitOver, decide_eq_false_iff_not, Nat.not_lt] using hearly d hx

end Sys2Proof.Machine
end

section
/-! A probe returns (R279, R358): what it sums at the interfaces, and its thread. -/

namespace Sys2Proof.Machine

/-- The interfaces of a package turn white for a domain. -/
def whiten (dom : Nat) (l : List (Nat × BitVec 32 × Bool)) : List (Nat × BitVec 32 × Bool) :=
  l.map fun (d, n, b) => if d == dom then (d, n, false) else (d, n, b)

theorem niAt_whiten (dom : Nat) (l : List (Nat × BitVec 32 × Bool)) : (niAt (whiten dom l) dom).2 = false := by
  induction l with
  | nil => rfl
  | cons x l ih =>
    obtain ⟨d, n, b⟩ := x
    by_cases h : (d == dom) = true
    · simp only [whiten, niAt, List.map_cons, h, if_true, List.find?_cons, Option.map_some, Option.getD_some]
    · simp only [whiten, niAt, List.map_cons, h, Bool.false_eq_true, if_false, List.find?_cons] at ih ⊢
      simpa [h] using ih

/-- The counts of a domain at the interfaces of a package. -/
def countsAt (s : State) (dom pkg : Nat) : List (Int × Bool) :=
  (s.cores.filter fun (e, _) => epPkg e == pkg).map (fun (_, c) => niAt c.ni dom) ++ [niAt (s.pkg pkg).ni dom]

theorem foldl_counts (l : List (Int × Bool)) (acc : Int × Bool) :
    l.foldl (fun (a : Int × Bool) x => (a.1 + x.1, a.2 || x.2)) acc = (acc.1 + (l.map (·.1)).sum, acc.2 || l.any (·.2)) := by
  induction l generalizing acc with
  | nil => simp
  | cons x l ih => simp only [List.foldl_cons, ih, List.map_cons, List.sum_cons, List.any_cons, Int.add_assoc, Bool.or_assoc]

/-- The state once the interfaces of a package are white. -/
def whitened (s : State) (dom pkg : Nat) : State :=
  { s with cores := s.cores.map fun (x : Nat × Core) => if epPkg x.1 == pkg then (x.1, { x.2 with ni := whiten dom x.2.ni }) else x }.modPkg pkg fun p =>
    { p with ni := whiten dom p.ni }

theorem visitPkg_eq (s : State) (dom pkg : Nat) :
    visitPkg s dom (0, false) pkg = ((((countsAt s dom pkg).map (·.1)).sum, (countsAt s dom pkg).any (·.2)), whitened s dom pkg) := by
  have hsum := foldl_counts (countsAt s dom pkg) (0, false)
  rw [Int.zero_add, Bool.false_or] at hsum
  rw [← hsum]
  rfl

/-- The cores of a package change by themselves. -/
theorem tget_map_if {α : Type} (c : Nat → Bool) (f : α → α) (t : Table α) (k : Nat) :
    tget (t.map fun x => if c x.1 then (x.1, f x.2) else x) k = (tget t k).map fun x => if c k then f x else x := by
  induction t with
  | nil => rfl
  | cons x l ih =>
    obtain ⟨j, x⟩ := x
    by_cases h : (j == k) = true
    · obtain rfl := beq_iff_eq.1 h
      cases hc : c j <;> simp [tget, hc]
    · cases hc : c j <;> simp only [List.map_cons, tget, hc, h, ih, Bool.false_eq_true, if_false, if_true]

theorem KeepsThreads.whitened (e : EP) (s : State) (dom pkg : Nat) : KeepsThreads e s (whitened s dom pkg) := by
  refine ⟨?_, rfl⟩
  simp only [Machine.whitened, State.core?, modPkg_cores, tget_map_if (fun e => epPkg e == pkg) fun c : Core => { c with ni := whiten dom c.ni }]
  cases tget s.cores e with
  | none => rfl
  | some c => simp only [Option.map_some]; split <;> rfl

/-- All interfaces were white, and their counts add up to 0. -/
def probeDone (l : List (Int × Bool)) : Bool := !l.any (·.2) && (l.map (·.1)).sum == 0

theorem probeDone_iff {l : List (Int × Bool)} : probeDone l = true ↔ (∀ y ∈ l, y.2 = false) ∧ (l.map (·.1)).sum = 0 := by
  simp only [probeDone, Bool.and_eq_true, Bool.not_eq_true', List.any_eq_false, beq_iff_eq, Bool.not_eq_true]

/-- The answer of a probe at its thread, from the counts that it has met. -/
def probeAnswer (l : List (Int × Bool)) (p : Park) (t : Thread) : Thread :=
  ((t.putG p.dst (if probeDone l then 0 else BitVec.ofInt 64 (l.map (·.1)).sum)).p7 (probeDone l)).goTo p.next

theorem exec_qprobeReturn_of_slot {s : State} {k n slot home : Nat} {x : Probe} {req : Req}
    (hk : (s.pkgs.flatMap fun (n, p) => p.probes.map fun x => (n, x))[k]? = some (n, x)) (hp : x.pkgs = [home]) (hr : x.req = some req)
    (hl : locate s req.ep req.uid = .slot slot) :
    exec (.qprobeReturn k) s = .next (((whitened s x.dom home).modPkg n fun p => { p with probes := p.probes.erase x }).modThr req.ep slot
      fun t => match t.park with
        | some p => if req.entry == 16 + 32 * p.ser then probeAnswer (countsAt s x.dom home) p t else t
        | none => t) := by
  have hw : locate ((whitened s x.dom home).modPkg n fun p => { p with probes := p.probes.erase x }) req.ep req.uid = .slot slot := by
    have hkeeps := (KeepsThreads.whitened req.ep s x.dom home).core
    exact locate_of_slots_eq (congrArg (·.1) hkeeps) hl
  simp only [exec_qprobeReturn, execQprobeReturn, hk, hp, List.foldl_cons, List.foldl_nil, visitPkg_eq, hr, hw, State.modWhere]
  rfl

theorem probeReturn : ProbeReturn := by
  intro s k n slot x req t p home hk hp hr hl ht hpark hentry counts sum done
  have hexec := exec_qprobeReturn_of_slot hk hp hr hl
  have hthr := ((KeepsThreads.whitened req.ep s x.dom home).trans (.modPkg _ n fun p => { p with probes := p.probes.erase x })).thr? slot
  refine ⟨_, probeAnswer counts p t, hexec, ?_, rfl, rfl, ?_, ?_, ?_, rfl⟩
  · rw [thr?_modThr, hthr, ht, Option.map_some]
    simp only [hpark, hentry, beq_self_eq_true, if_true]
    rfl
  · intro h
    rw [probeAnswer, probeDone_iff.2 h]
    rfl
  · intro h
    rw [probeAnswer, Bool.eq_false_iff.2 (mt probeDone_iff.1 h)]
    rfl
  · have hkeeps := pkg_modPkg_of_keeps (g := Pkg.ni) (f := fun p => { p with probes := p.probes.erase x }) (fun _ => rfl)
      (whitened s x.dom home) n home
    refine (congrArg (fun l => (niAt l x.dom).2) hkeeps).trans ?_
    rw [whitened, pkg_modPkg_same]
    exact niAt_whiten ..

/-- Settles O45, an arrival at a time: each packet's arrival is put as one equation of its state (`onPacket_of_arrives`), a timeout and a probe
as what they leave of a core and its threads. -/
theorem messageEvents : Obligations.MessageEvents := ⟨messagesTravel, remoteQueues, listTimeouts, probeReturn⟩

end Sys2Proof.Machine
end

section
/-! The tables of a package as its units see them (R17, R22, R246, R470), where the interfaces alone have changed (R278). -/

namespace Sys2Proof.Machine

/-- Two states in which the units of every package read the same of device memory and of their tables. -/
structure SameMaps (s s' : State) : Prop where
  word : ∀ pa n, physWord s' pa n = physWord s pa n
  entry : ∀ pkg kind i, tableEntry s' pkg kind i = tableEntry s pkg kind i

namespace SameMaps

theorem refl (s : State) : SameMaps s s := ⟨fun _ _ => rfl, fun _ _ _ => rfl⟩

theorem modCore (s : State) (e : EP) {f : Core → Core} (hm : ∀ c, (f c).mem = c.mem) (hg : ∀ c, (f c).mgmt = c.mgmt) :
    SameMaps s (s.modCore e f) where
  word := physWord_modCore_of_keeps hm hg
  entry pkg kind i := by
    simp only [tableEntry, physWord_modCore_of_keeps hm hg]
    rfl

theorem modPkg (s : State) (j : Nat) {f : Pkg → Pkg} (hc : ∀ p, (f p).copies = p.copies) (hb : ∀ p, (f p).bridge = p.bridge) :
    SameMaps s (s.modPkg j f) where
  word _ _ := rfl
  entry pkg kind i := by
    have hw (pa n : Nat) : physWord (s.modPkg j f) pa n = physWord s pa n := rfl
    simp only [tableEntry, entryAt, hw, pkg_modPkg_of_keeps (g := Pkg.copies) hc, pkg_modPkg_of_keeps (g := Pkg.bridge) hb]

theorem modNi (s : State) (e : EP) (dom : Nat) (f : BitVec 32 × Bool → BitVec 32 × Bool) : SameMaps s (modNi s e dom f) := by
  unfold Machine.modNi
  split
  · exact modPkg s _ (fun _ => rfl) fun _ => rfl
  · exact modCore s e (fun _ => rfl) fun _ => rfl

theorem countOut (s : State) (e : EP) (ctx : Ctx) : SameMaps s (countOut s e ctx) := by
  unfold Machine.countOut
  split
  · exact refl s
  · exact modNi ..

section reads
variable {s s' : State} (h : SameMaps s s')
include h

theorem ctxRecord (own : Nat) (ctx : Ctx) : Machine.ctxRecord s' own ctx = Machine.ctxRecord s own ctx := h.entry ..

theorem ctxVc (own : Nat) (ctx : Ctx) : Machine.ctxVc s' own ctx = Machine.ctxVc s own ctx := by
  unfold Machine.ctxVc ctxChannel
  rw [h.ctxRecord]

theorem vcOf (own : Nat) (ctx : Ctx) (v : Nat) : Machine.vcOf s' own ctx v = Machine.vcOf s own ctx v := by
  unfold Machine.vcOf ctxVclen vcAddr
  rw [h.ctxRecord, h.word]

end reads

end SameMaps

end Sys2Proof.Machine
end

section
/-! SEND and RECV (R118, R119, R356, R357, R377). -/

namespace Sys2Proof.Machine

/-- The form of the address of SEND (R356). -/
def SendForm (w : Nat) : Prop := w / 2 ^ 62 = 1 ∧ w / 2 ^ 50 % 2 ^ 12 = 0 ∧ w / 2 ^ 4 % 2 ^ 20 = 0

theorem sendForm_iff {w : Nat} :
    SendForm w ↔ (w / 2 ^ 62 != 1 || bitsAt w 61 50 != 0 || bitsAt w 23 4 != 0) = false := by
  simp only [SendForm, bitsAt, Bool.or_eq_false_iff, bne_eq_false_iff_eq, and_assoc]

section send
variable {s : State} {u : Turn} {t : Thread} {gd : Guard} {a b : Reg} {n : BitVec 5} {tag : BitVec 12} {k eb : Nat}

/-- The message of a SEND. -/
def msgOf (u : Turn) (t : Thread) (b : Reg) (n : BitVec 5) (tag : BitVec 12) : Msg :=
  ⟨tag, epPkg u.ep, t.vcore, t.vthr, (List.range n.toNat).map fun i => gr t (b + BitVec.ofNat 5 i)⟩

/-- The message as it waits for injection at the endpoint that it goes to. -/
def outMsgOf (s : State) (u : Turn) (t : Thread) (a b : Reg) (n : BitVec 5) (tag : BitVec 12) (eb : Nat) (e : EP) : OutMsg :=
  ⟨e, ctxVc s (epPkg u.ep) t.ctx, (gr t a).toNat / 2 ^ 24 % 2 ^ 16, (gr t a).toNat % 2 ^ 4, msgOf u t b n tag, carryOf u.ep t, eb⟩

/-- Where a SEND to a virtual core of a package goes: that core's endpoint, or the gateway. -/
def sendTarget (s : State) (u : Turn) (t : Thread) (a : Reg) (k : Nat) : Option EP :=
  if k = epPkg u.ep then (vcOf s (epPkg u.ep) t.ctx ((gr t a).toNat / 2 ^ 24 % 2 ^ 16)).map (·.1) else some (gatewayEp k 0 0 1)

variable (hr : t.region = none) (h : Issues s u t (.send gd a b n tag))
include hr h

theorem exec_send_of_bad
    (hb : ctxChannel s (epPkg u.ep) t.ctx = 0 ∨ ¬ SendForm (gr t a).toNat ∨ peerOf s (epPkg u.ep) t.sr.peermap (peerIndex (gr t a)) = none) :
    exec (.send gd a b n tag) s = .next (s.raise u 0x13 (gr t a) (peerIndex (gr t a))) := by
  rw [exec_send, execSend, issue_next h rfl rfl (by decide) (by decide) (lacks_tail (by decide) · · · _ _) (.inl hr)]
  by_cases hc : ctxChannel s (epPkg u.ep) t.ctx = 0
  · simp only [hc, beq_self_eq_true, if_true]
  · by_cases hf : SendForm (gr t a).toNat
    · have hp := (hb.resolve_left hc).resolve_left (not_not.2 hf)
      simp only [beq_iff_eq, hc, sendForm_iff.1 hf, hp, Bool.false_eq_true, if_false]
    · rw [sendForm_iff, Bool.not_eq_false] at hf
      simp only [beq_iff_eq, hc, hf, if_false, if_true]

variable (hc : ctxChannel s (epPkg u.ep) t.ctx ≠ 0) (hf : SendForm (gr t a).toNat)
  (hp : peerOf s (epPkg u.ep) t.sr.peermap (peerIndex (gr t a)) = some (k, eb))
include hc hf hp

/-- R119: both places are taken. -/
theorem retires_send_of_full (ho : 2 ≤ t.outbox.length) : Retires (.send gd a b n tag) s u (·.p7 false) := by
  rw [Retires, exec_send, execSend, issue_next h rfl rfl (by decide) (by decide) (lacks_tail (by decide) · · · _ _) (.inl hr)]
  simp only [beq_iff_eq, hc, sendForm_iff.1 hf, hp, ho, Bool.false_eq_true, if_false, if_true]

theorem exec_send_of_target {e : EP} (he : sendTarget s u t a k = some e) (ho : t.outbox.length < 2) :
    exec (.send gd a b n tag) s = .next ((countOut s u.ep t.ctx).retire u fun t' =>
      ({ t' with outbox := t'.outbox ++ [outMsgOf s u t a b n tag eb e] }).p7 true) := by
  rw [exec_send, execSend, issue_next h rfl rfl (by decide) (by decide) (lacks_tail (by decide) · · · _ _) (.inl hr)]
  have hmaps := SameMaps.countOut s u.ep t.ctx
  have hdst : (if k = epPkg u.ep then (vcOf s k t.ctx (bitsAt (gr t a).toNat 39 24)).map (·.1) else some (gatewayEp k 0 0 1)) = some e := by
    rw [← he, sendTarget]
    split
    · next hk => rw [hk]; rfl
    · rfl
  simp only [beq_iff_eq, hc, sendForm_iff.1 hf, hp, Nat.not_le.2 ho, hmaps.vcOf, hmaps.ctxVc, hdst, Bool.false_eq_true, if_false]
  rfl

/-- R119: no valid entry stands behind the virtual core. -/
theorem exec_send_of_no_target (he : sendTarget s u t a k = none) (ho : t.outbox.length < 2) :
    exec (.send gd a b n tag) s =
      .next (((countIn (countOut s u.ep t.ctx) u.ep t.ctx).stickSelf u t eb).retire u (·.p7 true)) := by
  rw [exec_send, execSend, issue_next h rfl rfl (by decide) (by decide) (lacks_tail (by decide) · · · _ _) (.inl hr)]
  have hmaps := SameMaps.countOut s u.ep t.ctx
  have hdst : (if k = epPkg u.ep then (vcOf s k t.ctx (bitsAt (gr t a).toNat 39 24)).map (·.1) else some (gatewayEp k 0 0 1)) = none := by
    rw [← he, sendTarget]
    split
    · next hk => rw [hk]; rfl
    · rfl
  simp only [beq_iff_eq, hc, sendForm_iff.1 hf, hp, Nat.not_le.2 ho, hmaps.vcOf, hdst, Bool.false_eq_true, if_false]

end send

section recv
variable {s : State} {u : Turn} {t : Thread} {gd : Guard} {d a : Reg} {n : BitVec 5} (hr : t.region = none) (h : Issues s u t (.recv gd d a n))
include hr h

theorem exec_recv_of_no_channel (hc : ctxChannel s (epPkg u.ep) t.ctx = 0) : exec (.recv gd d a n) s = .next (s.raise u 0x13 0 0) := by
  rw [exec_recv, execRecv, issue_next h rfl rfl (by decide) (by decide) (lacks_tail (by decide) · · · _ _) (.inl hr)]
  simp only [hc, beq_self_eq_true, if_true]

theorem retires_recv_of_message {m : Msg} {rest : List Msg} (hc : ctxChannel s (epPkg u.ep) t.ctx ≠ 0) (hi : t.inbox = m :: rest) :
    Retires (.recv gd d a n) s u fun t => ((m.words.take n.toNat).zipIdx.foldl
      (fun (t : Thread) (y, i) => t.putG (d + 1 + BitVec.ofNat 5 i) y) (({ t with inbox := rest }).putG d (msgWord m))).p7 true := by
  rw [Retires, exec_recv, execRecv, issue_next h rfl rfl (by decide) (by decide) (lacks_tail (by decide) · · · _ _) (.inl hr)]
  simp only [beq_iff_eq, hc, hi, if_false]

theorem exec_recv_of_empty (hc : ctxChannel s (epPkg u.ep) t.ctx ≠ 0) (hi : t.inbox = []) :
    exec (.recv gd d a n) s = .next (s.waitFor u t .inbox (gr t a)) := by
  rw [exec_recv, execRecv, issue_next h rfl rfl (by decide) (by decide) (lacks_tail (by decide) · · · _ _) (.inl hr)]
  simp only [beq_iff_eq, hc, hi, if_false]

end recv

/-- R357: the fields of the word that RECV writes. -/
theorem msgWord_fields {m : Msg} (hl : m.words.length ≤ 16) :
    let v := (msgWord m).toNat
    v % 2 ^ 12 = m.tag.toNat ∧ v / 2 ^ 12 % 2 ^ 14 = m.words.length ∧ v / 2 ^ 26 % 2 ^ 4 = m.vthr % 2 ^ 4 ∧
      v / 2 ^ 30 % 2 ^ 16 = m.vcore % 2 ^ 16 ∧ v / 2 ^ 46 = m.pkg % 2 ^ 10 := by
  have htag := m.tag.isLt
  simp only [msgWord, word, BitVec.toNat_ofNat]
  omega

/-- R260: a wait that begins ends at once with timeout 0, and else parks its thread. -/
theorem waitedOut_of_park_none {s : State} {e : EP} {t : Thread} {w : Word} (hp : t.park = none) :
    waitedOut s e t (deadline s e w) = true ↔ w = 0 := by
  have hones : allOnes ≠ 0 := by decide
  simp only [waitedOut, hp, Option.filter_none, deadline, beq_iff_eq]
  by_cases hw : w = allOnes
  · simp only [hw, if_true, Bool.false_eq_true, hones]
  · simp only [hw, if_false, decide_eq_true_eq]
    exact ⟨fun h => BitVec.eq_of_toNat_eq (by simpa using h), fun h => by simp [h]⟩

/-- R259: an instruction that parks again leaves its thread waiting. -/
theorem waits_of_exec_parkAt {i : Instr} {s s0 : State} {u : Turn} {t : Thread} {c : Until} {kind path : Nat} {sent : Bool} {limit : Option Nat}
    {d : Reg} {aux ser : Nat} (he : exec i s = .next (s0.parkAt u (.again c) kind path sent limit d aux ser))
    (ht : s0.thr? u.ep u.slot = some t) (hn : s0.net = s.net) : Waits i s u t c := by
  obtain ⟨t', k, hthr, hp, hwhy, -⟩ := thr?_parkAt ht (.again c) kind path sent limit d aux ser
  exact ⟨_, t', k, he, hthr, hp.park, hwhy, hp.regs, hp.specials, hp.pc, hn, rfl⟩

theorem sendAndReceive : SendAndReceive := by
  intro s u t gd d a b n tag w own form peer msg hr
  refine ⟨?send, ?invalid, ?full, ?badSend, ?message, ?empty, ?badRecv⟩
  case send =>
    intro k eb e base size h hc hf hp he ho
    refine exec_send_of_target hr h hc hf hp ?_ ho
    rw [sendTarget]
    split
    · next hk => rw [if_pos hk] at he; exact congrArg (Option.map _) he
    · next hk => rw [if_neg hk] at he; rw [he]
  case invalid =>
    intro eb h hc hf hp hv ho
    have hexec := exec_send_of_no_target hr h hc hf hp (by rw [sendTarget, if_pos rfl]; exact congrArg (Option.map _) hv) ho
    refine ⟨fun horigin => ?_, fun o horigin => ?_⟩
    · simp only [hexec, State.stickSelf, horigin, State.retire, modThr_modThr]
    · have hkept := (Prepared.countOut s u.ep u.ep t.ctx).threads u.slot
      have hthr := ((KeepsThreads.countIn (countOut s u.ep t.ctx) u.ep t.ctx).thr? u.slot).trans (hkept.trans h.thread)
      simp only [State.stickSelf, horigin] at hexec
      refine ⟨_, _, (t.p7 true).goTo u.next, hexec,
        congrArg (· ++ [_]) ((net_countIn ..).trans (Prepared.countOut s u.ep u.ep t.ctx).net), rfl, ⟨_, rfl⟩, ?thread, rfl, rfl, rfl, rfl⟩
      case thread => rw [thr?_retire]; exact congrArg (Option.map _) hthr
  case full => exact fun k eb h hc hf hp ho => retires_send_of_full hr h hc hf hp ho
  case badSend =>
    intro h hb hk
    refine trapTaken_of_exec_raise (exec_send_of_bad hr h hb) h.thread hk (by decide) ?_ (absurd · (by decide))
    exact Nat.lt_of_lt_of_le (Nat.mod_lt _ (by decide)) (by decide)
  case message => exact fun m rest h hc hi hl => ⟨msgWord m, retires_recv_of_message hr h hc hi, msgWord_fields hl⟩
  case empty =>
    intro h hc hi hpark
    have hexec := exec_recv_of_empty hr h hc hi
    rw [State.waitFor] at hexec
    refine ⟨fun hz => ?_, fun hz => ?_⟩
    · rw [Retires, hexec, if_pos ((waitedOut_of_park_none hpark).2 hz)]
    · rw [if_neg (mt (waitedOut_of_park_none hpark).1 hz)] at hexec
      exact waits_of_exec_parkAt hexec h.thread rfl
  case badRecv =>
    exact fun h hc hk => trapTaken_of_exec_raise (exec_recv_of_no_channel hr h hc) h.thread hk (by decide) (by decide)
      (absurd · (by decide))

end Sys2Proof.Machine
end

section
/-! What a unit's read of device memory leaves (R80, R83, R93, R95): every view of the state that looks at no line buffer, no counter of a core,
no DRAM and no bridge. -/

namespace Sys2Proof.Machine

/-- A view of the state that no read of a unit shows in. -/
structure Unread {α : Type} (g : State → α) : Prop where
  core : ∀ s e (m : Core → MemCore) (n : Core → CoreMgmt), g (s.modCore e fun c => { c with mem := m c, mgmt := n c }) = g s
  dram : ∀ s d c, g { s with dram := d, check := c } = g s
  bridge : ∀ s i f, g (State.modBridge s i f) = g s

namespace Unread

section reads
variable {α : Type} {g : State → α} (h : Unread g)
include h

theorem modBuf (s : State) (e : EP) (f : List BufLine → List BufLine) : g (s.modBuf e f) = g s :=
  h.core s e (fun c => { c.mem with buf := f c.mem.buf }) (·.mgmt)

theorem mgmt (s : State) (e : EP) (n : Core → CoreMgmt) : g (s.modCore e fun c => { c with mgmt := n c }) = g s := h.core s e (·.mem) n

theorem storeLine (s : State) (line data : Nat) : g (storeLine s line data) = g s := by
  unfold Machine.storeLine
  exact h.dram ..

theorem makeOchre (s : State) (e : EP) (line kind : Nat) : g (makeOchre s e line kind) = g s := by
  unfold Machine.makeOchre State.event storeMarker
  exact (h.bridge ..).trans ((h.dram ..).trans (h.modBuf s e _))

theorem meetLineErrors (s : State) (e : EP) (pa n : Nat) : g (meetLineErrors s e pa n) = g s := by
  unfold Machine.meetLineErrors
  split
  · rfl
  · dsimp only
    split
    · rfl
    · split
      · exact h.makeOchre ..
      · exact (h.mgmt ..).trans (h.modBuf ..)

theorem enterLine (s : State) (e : EP) (b : BufLine) : g (enterLine s e b) = g s := by
  unfold Machine.enterLine
  split
  · exact h.modBuf ..
  · next v _ =>
    dsimp only
    have met : g (if v.dirty then Machine.meetLineErrors s e v.line 64 else s) = g s := by
      split
      · exact h.meetLineErrors ..
      · rfl
    generalize (if v.dirty then Machine.meetLineErrors s e v.line 64 else s) = s' at met ⊢
    refine (h.modBuf ..).trans (Eq.trans ?_ met)
    split
    · split
      · exact h.storeLine ..
      · rfl
    · rfl
  · rfl

theorem enterRead (s : State) (e : EP) (line : Nat) : g (enterRead s e line) = g s := by
  unfold Machine.enterRead
  dsimp only
  split
  · exact h.enterLine ..
  · split
    · exact (h.makeOchre ..).trans (h.enterLine ..)
    · exact (h.enterLine ..).trans (h.mgmt ..)

theorem unitReadLine (s : State) (line pa n : Nat) : g (unitReadLine s line pa n) = g s := by
  unfold Machine.unitReadLine
  dsimp only
  split
  · rfl
  · split
    · rfl
    · split
      · split
        · rfl
        · exact h.meetLineErrors ..
      · exact h.enterRead ..

theorem unitRead (s : State) (pa n : Nat) : g (unitRead s pa n) = g s := by
  unfold Machine.unitRead
  generalize linesOf pa n = l
  induction l generalizing s with
  | nil => rfl
  | cons x l ih => exact (ih _).trans (h.unitReadLine ..)

end reads

/-- The queues of a package. -/
theorem queues (i : Nat) : Unread fun s => (s.pkg i).queues where
  core _ _ _ _ := rfl
  dram _ _ _ := rfl
  bridge s j f := pkg_modPkg_of_keeps (g := Pkg.queues) (f := fun p => { p with bridge := f p.bridge }) (fun _ => rfl) s j i

end Unread

end Sys2Proof.Machine
end

section
/-! SPAWN, ENQ, DEQ and QRES (R121, R276, R351 to R355). -/

namespace Sys2Proof.Machine

/-- R325: HANDLE holds the instant above the handle. -/
theorem handleWord_eq_append (i : Instant) (h : Handle) : handleWord i h = i ++ h := by
  have hi := i.isLt
  have hh := h.isLt
  apply BitVec.eq_of_toNat_eq
  rw [handleWord, BitVec.toNat_ofNat, BitVec.toNat_append, ← Nat.shiftLeft_add_eq_or_of_lt hh, Nat.shiftLeft_eq]
  omega

section spawn
variable {s : State} {u : Turn} {t : Thread} {gd : Guard} {a b : Reg} {sh : Bool} {imm : BitVec 32} {q eb : Nat}

/-- The packet of a SPAWN (R352). -/
def spawnPacket (s : State) (u : Turn) (t : Thread) (a : Reg) (sh : Bool) (imm : BitVec 32) (q : Nat) : Packet :=
  [word ((relTarget t imm.toInt).toNat + qPri (qDesc s (epPkg u.ep) q) * 2 ^ 32 + b2n sh * 2 ^ 36 + 2 ^ 37), gr t a,
    handleWord t.sr.inst t.sr.hnd, gr t (a + 1), word (if sh then t.sr.sfa.toNat + t.sr.sfb.toNat * 2 ^ 8 else 0),
    word (if sh then t.sr.ssa.toNat + t.sr.ssb.toNat * 2 ^ 32 else 0), gr t (a + 2), gr t (a + 3)]

/-- The first word of it holds the address where the task begins. -/
theorem spawnPacket_target : ((spawnPacket s u t a sh imm q).getD 0 0).toNat % 2 ^ 32 = (relTarget t imm.toInt).toNat := by
  have hlt := (relTarget t imm.toInt).isLt
  have hfirst : (spawnPacket s u t a sh imm q).getD 0 0 =
    word ((relTarget t imm.toInt).toNat + qPri (qDesc s (epPkg u.ep) q) * 2 ^ 32 + b2n sh * 2 ^ 36 + 2 ^ 37) := rfl
  rw [hfirst, word, BitVec.toNat_ofNat]
  omega

variable (hr : t.region = none) (h : Issues s u t (.spawn gd a b sh imm)) (hsel : checkSel s u.ep t (gr t b) true = .ok (q, epPkg u.ep, eb))
include hr h hsel

theorem exec_spawn_of_room (hs : qServes s (epPkg u.ep) q 1 t.ctx = true) (hf : ringFull s (epPkg u.ep) q = false) :
    exec (.spawn gd a b sh imm) s =
      .next ((pushItem s (epPkg u.ep) q (spawnPacket s u t a sh imm q) (carryOf u.ep t)).retire u (·.p7 true)) := by
  rw [exec_spawn, execSpawn, issue_next h rfl rfl (by decide) (by decide) (lacks_tail (by decide) · · · _ _) (.inl hr)]
  simp only [hsel, State.checked, hs, hf, Bool.not_true, Bool.or_self, Bool.false_eq_true, if_false]
  rfl

theorem retires_spawn_of_no_room (hs : qServes s (epPkg u.ep) q 1 t.ctx = false ∨ ringFull s (epPkg u.ep) q = true) :
    Retires (.spawn gd a b sh imm) s u (·.p7 false) := by
  have hno : (!qServes s (epPkg u.ep) q 1 t.ctx || ringFull s (epPkg u.ep) q) = true := by simpa using hs
  rw [Retires, exec_spawn, execSpawn, issue_next h rfl rfl (by decide) (by decide) (lacks_tail (by decide) · · · _ _) (.inl hr)]
  simp only [hsel, State.checked, hno, if_true]

end spawn

/-- A queue serves a context's ENQ (R353). -/
def servesEnq (s : State) (pkg q : Nat) (ctx : Ctx) : Bool := qServes s pkg q 1 ctx || qServes s pkg q 2 ctx

/-- R261: a queue that serves a context is valid and has entries. -/
theorem qEntries_pos_of_servesEnq {s : State} {pkg q : Nat} {ctx : Ctx} (h : servesEnq s pkg q ctx = true) : 0 < qEntries (qDesc s pkg q) := by
  have hmode : qMode (qDesc s pkg q) ≠ 3 := by
    simp only [servesEnq, qServes, Bool.or_eq_true, Bool.and_eq_true, beq_iff_eq] at h
    omega
  rw [Nat.pos_iff_ne_zero]
  intro hzero
  refine hmode ?_
  rw [qMode, if_neg]
  rw [show bitsAt (qDesc s pkg q) 44 32 = 0 from hzero]
  simp

section enq
variable {s : State} {u : Turn} {t : Thread} {gd : Guard} {a b c : Reg} {ack : Bool} {q pkg eb : Nat}

/-- The end of an ENQ's wait for room (R353). -/
def enqLimit (s : State) (u : Turn) (t : Thread) (c : Reg) : Option Nat :=
  some ((s.core u.ep).cycle + (if gr t c == allOnes then 2 ^ 24 else (gr t c).toNat))

theorem waitedOut_enqLimit (hp : t.park = none) : waitedOut s u.ep t (enqLimit s u t c) = true ↔ gr t c = 0 := by
  simp only [waitedOut, hp, Option.filter_none, enqLimit, beq_iff_eq, decide_eq_true_eq]
  by_cases hw : gr t c = allOnes
  · rw [if_pos hw, hw]
    simp [allOnes]
  · rw [if_neg hw]
    exact ⟨fun h => BitVec.eq_of_toNat_eq (by simpa using h), fun h => by simp [h]⟩

/-- The item of an ENQ to another package: under the thread's instant and handle. -/
def enqItem (t : Thread) (b : Reg) : Packet := (wordsFrom t b).set 2 (t.sr.inst ++ t.sr.hnd)

/-- A reservation has been used, and the item counted (R278, R353). -/
def spendReservation (s : State) (u : Turn) (t : Thread) : State :=
  (countOut s u.ep t.ctx).modThr u.ep u.slot fun t => { t with qres := { t.qres with count := t.qres.count - 1 } }

variable (hr : t.region = none) (h : Issues s u t (.enq gd a b c ack))
include hr h

section own
variable (hsel : checkSel s u.ep t (gr t a) false = .ok (q, epPkg u.ep, eb))
include hsel

theorem exec_enq_of_room (hs : servesEnq s (epPkg u.ep) q t.ctx = true) (hf : ringFull s (epPkg u.ep) q = false) :
    exec (.enq gd a b c ack) s = .next ((pushItem s (epPkg u.ep) q (wordsFrom t b) (carryOf u.ep t)).retire u (·.p7 true)) := by
  unfold servesEnq at hs
  rw [exec_enq, execEnq, issue_next h rfl rfl (by decide) (by decide) (lacks_tail (by decide) · · · _ _) (.inl hr)]
  simp only [hsel, State.checked, beq_self_eq_true, hs, hf, Bool.not_true, Bool.not_false, Bool.false_eq_true, if_false, if_true]
  rfl

theorem retires_enq_of_not_served (hs : servesEnq s (epPkg u.ep) q t.ctx = false) : Retires (.enq gd a b c ack) s u (·.p7 false) := by
  unfold servesEnq at hs
  rw [Retires, exec_enq, execEnq, issue_next h rfl rfl (by decide) (by decide) (lacks_tail (by decide) · · · _ _) (.inl hr)]
  simp only [hsel, State.checked, beq_self_eq_true, hs, Bool.not_false, if_true]

variable (hs : servesEnq s (epPkg u.ep) q t.ctx = true) (hf : ringFull s (epPkg u.ep) q = true)
include hs hf

theorem retires_enq_of_full (hb : qBw (qDesc s (epPkg u.ep) q) = false) : Retires (.enq gd a b c ack) s u (·.p7 false) := by
  unfold servesEnq at hs
  rw [Retires, exec_enq, execEnq, issue_next h rfl rfl (by decide) (by decide) (lacks_tail (by decide) · · · _ _) (.inl hr)]
  simp only [hsel, State.checked, beq_self_eq_true, hs, hf, hb, Bool.not_true, Bool.not_false, Bool.false_eq_true, if_false, if_true]

theorem exec_enq_of_full (hb : qBw (qDesc s (epPkg u.ep) q) = true) :
    let x := s.queue (epPkg u.ep) q
    let n := qEntries (qDesc s (epPkg u.ep) q)
    exec (.enq gd a b c ack) s = .next (if waitedOut s u.ep t (enqLimit s u t c) then
      s.raise u 0x18 (word q) (x.head % n + x.tail % n * 2 ^ 16) else s.parkAt u (.again (.queueRoom q)) 7 0 false (enqLimit s u t c) 0 0) := by
  unfold servesEnq at hs
  rw [exec_enq, execEnq, issue_next h rfl rfl (by decide) (by decide) (lacks_tail (by decide) · · · _ _) (.inl hr)]
  simp only [hsel, State.checked, beq_self_eq_true, hs, hf, hb, Bool.not_true, Bool.false_eq_true, if_false, if_true]
  rfl

end own

variable (hsel : checkSel s u.ep t (gr t a) false = .ok (q, pkg, eb)) (hp : pkg ≠ epPkg u.ep)
include hsel hp

theorem retires_enq_of_no_reservation (hq : t.qres.count = 0 ∨ t.qres.sel ≠ gr t a) : Retires (.enq gd a b c ack) s u (·.p7 false) := by
  have hno : (t.qres.count == 0 || t.qres.sel != gr t a) = true := by simpa using hq
  rw [Retires, exec_enq, execEnq, issue_next h rfl rfl (by decide) (by decide) (lacks_tail (by decide) · · · _ _) (.inl hr)]
  simp only [hsel, State.checked, beq_iff_eq, hp, hno, if_false, if_true]

theorem exec_enq_of_reservation (hq : t.qres.count ≠ 0) (hq' : t.qres.sel = gr t a) :
    exec (.enq gd a b c ack) s = .next (if ack then
      ((spendReservation s u t).ask u t (hostGwEp pkg) 2 eb .fullEmpty 7 5 0 (gr t a) 0 (.enq q (enqItem t b) true)).limitPark u (gr t c)
      else ((spendReservation s u t).send u.ep (hostGwEp pkg) 2 (reqOf u.ep u.slot t 19 eb) (carryOf u.ep t)
        (.enq q (enqItem t b) false)).retire u (·.p7 true)) := by
  have hyes : (t.qres.count == 0 || t.qres.sel != gr t a) = false := by simp [hq, hq']
  rw [exec_enq, execEnq, issue_next h rfl rfl (by decide) (by decide) (lacks_tail (by decide) · · · _ _) (.inl hr)]
  simp only [hsel, State.checked, beq_iff_eq, hp, hyes, Bool.false_eq_true, if_false, handleWord_eq_append]
  rfl

end enq

/-- R121: the slot has one reservation less. -/
theorem thr?_spendReservation {s : State} {u : Turn} {t : Thread} (ht : s.thr? u.ep u.slot = some t) :
    (spendReservation s u t).thr? u.ep u.slot = some { t with qres := { t.qres with count := t.qres.count - 1 } } := by
  rw [spendReservation, thr?_modThr, (Prepared.countOut s u.ep u.ep t.ctx).threads, ht, Option.map_some]

/-- R107, R260: an access leaves with a time limit on its thread's wait. -/
theorem asks_of_exec_limitPark {i : Instr} {s s0 : State} {u : Turn} {t t0 : Thread} {dst vc ebit kind path size : Nat} {why : Wait} {d : Reg}
    {operand w : Word} {body : Body}
    (he : exec i s = .next ((s0.ask u t dst vc ebit why kind path d operand size body).limitPark u w)) (hx : t.xf = none)
    (ht : s0.thr? u.ep u.slot = some t0) (h0 : t0.regs = t.regs ∧ t0.pc = t.pc ∧ t0.sr = t.sr ∧ t0.cnt = t.cnt) (hn : s0.net = s.net)
    (hd : s0.dram = s.dram) (hspad : ∀ e, (s0.core e).spad = (s.core e).spad) : Asks i s u t dst ebit body why d := by
  obtain ⟨hregs, hpc, hsr, hcnt⟩ := h0
  simp only [State.ask, hx, Option.isSome_none, Bool.false_eq_true, if_false] at he
  obtain ⟨t', k, hthr, hfrom, hwhy, hdst, hnext, -, hser⟩ := thr?_parkAt (t := t0)
    (s := { s0 with nextUid := s0.nextUid + 1 }.send u.ep dst vc (reqOf u.ep u.slot t (16 + 32 * s0.nextUid) ebit) (carryOf u.ep t) body)
    ht why kind path (kind ≤ 6) none d (operand.toNat + size * 2 ^ 64) s0.nextUid
  generalize hparked : State.parkAt _ u why kind path (decide (kind ≤ 6)) none d (operand.toNat + size * 2 ^ 64) s0.nextUid = s1 at he hthr
  have hnet : s1.net = s.net ++ [⟨u.ep, dst, vc, if epPkg u.ep == epPkg dst then .arrived else .egress, (s0.now u.ep).toNat,
      reqOf u.ep u.slot t (16 + 32 * s0.nextUid) ebit, carryOf u.ep t, body, 0, none⟩] := by rw [← hparked, ← hn]; rfl
  refine ⟨_, _, { t' with park := t'.park.map fun p => { p with limit := if w == 0 then none else deadline s1 u.ep w } },
    { k with limit := if w == 0 then none else deadline s1 u.ep w }, he, hnet, rfl, rfl, rfl, ?stage, rfl, rfl, rfl, rfl, rfl, rfl,
    by rw [hser]; rfl, ?thread, ?park, hwhy, hdst, hnext, hfrom.regs.trans hregs, hfrom.pc.trans hpc, hfrom.specials.trans hsr,
    hfrom.counters.trans hcnt, ?turn, ?dram, ?spad⟩
  case stage => simp only [beq_iff_eq]
  case thread => rw [State.limitPark, thr?_modThr, hthr, Option.map_some]
  case park => simp only [hfrom.park, Option.map_some]
  case turn => rw [← hparked]; rfl
  case dram => rw [← hd, ← hparked]; rfl
  case spad =>
    intro e
    rw [State.limitPark, core_modThr_spad, ← hparked]
    exact (core_modThr_spad ..).trans (hspad e)

section deq
variable {s : State} {u : Turn} {t : Thread} {gd : Guard} {d a c : Reg} {q eb : Nat} (hr : t.region = none) (h : Issues s u t (.deq gd d a c))
  (hsel : checkSel s u.ep t (gr t a) true = .ok (q, epPkg u.ep, eb))
include hr h hsel

theorem retires_deq_of_not_served (hs : qServes s (epPkg u.ep) q 2 t.ctx = false) : Retires (.deq gd d a c) s u (·.p7 false) := by
  rw [Retires, exec_deq, execDeq, issue_next h rfl rfl (by decide) (by decide) (lacks_tail (by decide) · · · _ _) (.inl hr)]
  simp only [hsel, State.checked, hs, Bool.not_false, if_true]

variable (hs : qServes s (epPkg u.ep) q 2 t.ctx = true) (ht : takersOf s (epPkg u.ep) q = [])
include hs ht

/-- R354: nobody is before the thread, and an item can be read. -/
theorem exec_deq_of_head (hh : headThere s (epPkg u.ep) q = true) :
    exec (.deq gd d a c) s = .next (((popItem s (epPkg u.ep) q).2.2.modQueue (epPkg u.ep) q fun x => { x with takers := [] }).retire u
      fun t => ((popItem s (epPkg u.ep) q).1.zipIdx.foldl (fun (t : Thread) (x, i) => t.putG (d + BitVec.ofNat 5 i) x) t).p7 true) := by
  rw [exec_deq, execDeq, issue_next h rfl rfl (by decide) (by decide) (lacks_tail (by decide) · · · _ _) (.inl hr)]
  simp only [hsel, State.checked, hs, ht, hh, findPos, Option.getD_none, List.length_nil, beq_self_eq_true, Bool.and_self, Bool.not_true,
    Bool.false_eq_true, if_false, if_true, List.filter_nil]

/-- R354: no item can be read; the thread waits, unless there is none and its time is over. -/
theorem exec_deq_of_no_head (hh : headThere s (epPkg u.ep) q = false) :
    exec (.deq gd d a c) s = .next
      (if (s.queue (epPkg u.ep) q).items = 0 ∧ waitedOut s u.ep t (deadline s u.ep (gr t c)) = true then
        (s.modQueue (epPkg u.ep) q fun x => { x with takers := [] }).retire u (·.p7 false)
      else (s.modQueue (epPkg u.ep) q fun x => { x with takers := addOnce t.uid [] }).parkAt u (.again (.queueItem q t.uid)) 7 5 false
        (deadline s u.ep (gr t c)) d 0) := by
  rw [exec_deq, execDeq, issue_next h rfl rfl (by decide) (by decide) (lacks_tail (by decide) · · · _ _) (.inl hr)]
  simp only [hsel, State.checked, hs, ht, hh, findPos, Option.getD_none, List.length_nil, Bool.and_false, Bool.not_true, Bool.false_eq_true,
    if_false, List.filter_nil, Nat.le_zero, Bool.and_eq_true, decide_eq_true_eq]

end deq

theorem items_of_head_eq_tail {x : QState} (h : x.head = x.tail) : x.items = 0 := by rw [QState.items, h, Nat.sub_self]

theorem headThere_of_empty {s : State} {pkg q : Nat} (h : (s.queue pkg q).items = 0) : headThere s pkg q = false := by
  simp only [headThere, h, bne_self_eq_false, Bool.false_and]

theorem thr?_popItem (s : State) (pkg q : Nat) (e : EP) (n : Nat) : (popItem s pkg q).2.2.thr? e n = s.thr? e n :=
  (ReadOnly.unitRead ..).threads e n

/-- R354: an item less stands in the ring. -/
theorem queue_popItem (s : State) (pkg q : Nat) : ((popItem s pkg q).2.2.queue pkg q).head = (s.queue pkg q).head + 1 ∧
    ((popItem s pkg q).2.2.queue pkg q).tail = (s.queue pkg q).tail := by
  have hread (pa n : Nat) : (unitRead s pa n).queue pkg q = s.queue pkg q :=
    congrArg (fun l => (tget l q).getD QState.start) ((Unread.queues pkg).unitRead s pa n)
  unfold popItem
  dsimp only
  rw [queue_modQueue_same, hread]
  exact ⟨rfl, rfl⟩

theorem Thread.putG_qres (t : Thread) (r : Reg) (v : Word) : (t.putG r v).qres = t.qres := by
  rw [Thread.putG, Thread.setG]
  split <;> rfl

section qres
variable {s : State} {u : Turn} {t : Thread} {gd : Guard} {d a b : Reg} {q pkg eb : Nat} (hr : t.region = none) (h : Issues s u t (.qres gd d a b))
  (hsel : checkSel s u.ep t (gr t a) false = .ok (q, pkg, eb))
include hr h hsel

/-- What QRES gives (R355): the reservations held, and whether an answer is outstanding. -/
def qresWord (t : Thread) : Word := word (t.qres.count + b2n t.qres.outstanding * 2 ^ 63)

theorem retires_qres_of_zero (hb : gr t b = 0) : Retires (.qres gd d a b) s u fun t' => (t'.putG d (qresWord t)).p7 true := by
  rw [Retires, exec_qres, execQres, issue_next h rfl rfl (by decide) (by decide) (lacks_tail (by decide) · · · _ _) (.inl hr)]
  simp only [hsel, State.checked, hb, beq_self_eq_true, if_true]
  rfl

theorem retires_qres_of_refused (hb : gr t b ≠ 0)
    (hno : selPeer (gr t a) = 0 ∨ 4096 < (gr t b).toNat ∨ t.qres.outstanding = true ∨ (t.qres.count ≠ 0 ∧ t.qres.sel ≠ gr t a)) :
    Retires (.qres gd d a b) s u fun t' => (t'.putG d (qresWord t)).p7 false := by
  rw [Retires, exec_qres, execQres, issue_next h rfl rfl (by decide) (by decide) (lacks_tail (by decide) · · · _ _) (.inl hr)]
  by_cases hform : (selPeer (gr t a) == 0 || decide (4096 < (gr t b).toNat)) = true
  · simp only [hsel, State.checked, beq_iff_eq, hb, hform, if_false, if_true]
    rfl
  · have hheld : (t.qres.outstanding || (t.qres.count != 0 && t.qres.sel != gr t a)) = true := by
      simp only [Bool.or_eq_true, beq_iff_eq, decide_eq_true_eq, not_or] at hform
      simpa using (hno.resolve_left hform.1).resolve_left hform.2
    simp only [hsel, State.checked, beq_iff_eq, hb, hform, hheld, Bool.false_eq_true, if_false, if_true]
    rfl

theorem exec_qres_of_asked (hb : gr t b ≠ 0) (hn : (gr t b).toNat ≤ 4096) (hpeer : selPeer (gr t a) ≠ 0) (ho : t.qres.outstanding = false)
    (hq : t.qres.count = 0 ∨ t.qres.sel = gr t a) :
    exec (.qres gd d a b) s = .next (((s.send u.ep (hostGwEp pkg) (vcOfThread s u.ep t) (reqOf u.ep u.slot t 17 eb) (carryOf u.ep t)
      (.qresReq q (gr t b).toNat)).modThr u.ep u.slot fun t' => { t' with qres := ⟨gr t' a, t.qres.count, true⟩ }).retire u
        fun t' => (t'.putG d (qresWord t)).p7 true) := by
  have hheld : (t.qres.outstanding || (t.qres.count != 0 && t.qres.sel != gr t a)) = false := by
    simpa [ho, ← or_iff_not_imp_left] using hq
  rw [exec_qres, execQres, issue_next h rfl rfl (by decide) (by decide) (lacks_tail (by decide) · · · _ _) (.inl hr)]
  simp only [hsel, State.checked, beq_iff_eq, hb, Nat.not_lt.2 hn, hheld, beq_eq_false_iff_ne.2 hpeer, decide_false, Bool.or_self,
    Bool.false_eq_true, if_false]
  rfl

end qres

theorem queueInstructions : QueueInstructions := by
  intro s u t gd d a b c sh ack imm q pkg eb own mine now hr
  have serves : qServes s own q 1 t.ctx = true ∨ qServes s own q 2 t.ctx = true ↔ servesEnq s own q t.ctx = true := by
    simp only [servesEnq, Bool.or_eq_true]
  have hbit : t.qres.outstanding.toNat = b2n t.qres.outstanding := by cases t.qres.outstanding <;> rfl
  have hnow : now = qresWord t := congrArg (fun n => BitVec.ofNat 64 (t.qres.count + n * 2 ^ 63)) hbit
  rw [hnow]
  clear_value now
  refine ⟨fun h hsel => ⟨fun hs hf => ?spawn, fun hno => retires_spawn_of_no_room hr h hsel hno⟩,
    fun h hsel => ⟨fun hs hf => exec_enq_of_room hr h hsel (serves.1 hs) hf,
      fun h1 h2 => retires_enq_of_not_served hr h hsel (by rw [servesEnq, h1, h2, Bool.or_self]),
      fun hs hf => ⟨fun hb => retires_enq_of_full hr h hsel (serves.1 hs) hf hb, fun hb hp hc => ?enqWaits, fun hb hp hc hk => ?enqTraps⟩⟩,
    fun h hsel hp => ⟨fun hq hq' => ?enqSends, fun hq => retires_enq_of_no_reservation hr h hsel hp hq⟩,
    fun h hsel hp hq hq' => ?enqAsks, fun h hsel => ⟨fun hs => retires_deq_of_not_served hr h hsel hs, fun hs hnone hh => ?deqTakes,
      fun hs hnone hlt hh => ?deqWaits, fun hs hnone hempty hp => ⟨fun hc => ?deqBegins, fun hc => ?deqEnds⟩⟩,
    fun h hsel => ⟨fun hb => retires_qres_of_zero hr h hsel (BitVec.eq_of_toNat_eq hb),
      fun hb hno => retires_qres_of_refused hr h hsel (fun hz => hb (congrArg BitVec.toNat hz)) hno, fun hb hn hpeer ho hq => ?qresAsks⟩⟩
  case spawn =>
    exact ⟨spawnPacket s u t a sh imm q, rfl, spawnPacket_target, rfl, handleWord_eq_append .., rfl, rfl, rfl, exec_spawn_of_room hr h hsel hs hf⟩
  case enqWaits =>
    have hexec := exec_enq_of_full hr h hsel (serves.1 hs) hf hb
    dsimp only at hexec
    rw [if_neg (mt (waitedOut_enqLimit hp).1 hc)] at hexec
    exact waits_of_exec_parkAt hexec h.thread rfl
  case enqTraps =>
    have hexec := exec_enq_of_full hr h hsel (serves.1 hs) hf hb
    dsimp only at hexec
    rw [if_pos ((waitedOut_enqLimit hp).2 hc)] at hexec
    refine trapTaken_of_exec_raise hexec h.thread hk (by decide) ?_ (absurd · (by decide))
    have hpos := qEntries_pos_of_servesEnq (serves.1 hs)
    have hsmall : qEntries (qDesc s own q) < 2 ^ 13 := Nat.mod_lt _ (by decide)
    have hhead := Nat.mod_lt (s.queue own q).head hpos
    have htail := Nat.mod_lt (s.queue own q).tail hpos
    dsimp only
    omega
  case enqSends =>
    have hexec := exec_enq_of_reservation hr h hsel hp hq hq'
    refine ⟨_, _, (({ t with qres := { t.qres with count := t.qres.count - 1 } }).p7 true).goTo u.next, hexec,
      congrArg (· ++ [_]) (Prepared.countOut s u.ep u.ep t.ctx).net, rfl, rfl, rfl, ?_, rfl, rfl, rfl⟩
    simp only [Bool.false_eq_true, if_false]
    rw [thr?_retire]
    exact congrArg (Option.map _) (thr?_spendReservation h.thread)
  case enqAsks =>
    have hprep := Prepared.countOut s u.ep u.ep t.ctx
    exact asks_of_exec_limitPark (exec_enq_of_reservation hr h hsel hp hq hq') h.calm (thr?_spendReservation h.thread) ⟨rfl, rfl, rfl, rfl⟩
      hprep.net hprep.dram fun e => (core_modThr_spad ..).trans (hprep.spads e)
  case deqTakes =>
    obtain ⟨hhead, htail⟩ := queue_popItem s own q
    have hthr := (thr?_popItem s own q u.ep u.slot).trans h.thread
    have hexec := exec_deq_of_head hr h hsel hs hnone hh
    generalize popItem s own q = item at hexec hhead htail hthr ⊢
    have hqueue := queue_modQueue_same item.2.2 own q fun x => { x with takers := [] }
    refine ⟨_, ((item.1.zipIdx.foldl (fun (t : Thread) (x, i) => t.putG (d + BitVec.ofNat 5 i) x) t).p7 true).goTo u.next, hexec, ?thread,
      rfl, rfl, rfl, (congrArg QState.head hqueue).trans hhead, (congrArg QState.tail hqueue).trans htail⟩
    rw [thr?_retire]
    exact congrArg (Option.map _) hthr
  case deqWaits =>
    have hexec := exec_deq_of_no_head hr h hsel hs hnone hh
    rw [if_neg (fun hz => absurd hz.1 (Nat.sub_ne_zero_of_lt hlt))] at hexec
    exact waits_of_exec_parkAt hexec h.thread rfl
  case deqBegins =>
    have hexec := exec_deq_of_no_head hr h hsel hs hnone (headThere_of_empty (items_of_head_eq_tail hempty))
    rw [if_neg (fun hz => hc ((waitedOut_of_park_none hp).1 hz.2))] at hexec
    exact waits_of_exec_parkAt hexec h.thread rfl
  case deqEnds =>
    have hitems := items_of_head_eq_tail hempty
    have hexec := exec_deq_of_no_head hr h hsel hs hnone (headThere_of_empty hitems)
    rw [if_pos ⟨hitems, (waitedOut_of_park_none hp).2 hc⟩] at hexec
    refine ⟨_, (t.p7 false).goTo u.next, hexec, ?_, rfl, rfl⟩
    rw [thr?_retire]
    exact congrArg (Option.map _) h.thread
  case qresAsks =>
    refine ⟨_, _, ((({ t with qres := ⟨gr t a, t.qres.count, true⟩ }).putG d (qresWord t)).p7 true).goTo u.next,
      exec_qres_of_asked hr h hsel (fun hz => hb (congrArg BitVec.toNat hz)) hn hpeer ho hq, rfl, rfl, rfl, ?_, ?_, ?_, rfl⟩
    · rw [thr?_retire, thr?_modThr]
      exact congrArg (Option.map _) (congrArg (Option.map _) h.thread)
    · exact Thread.putG_qres ..
    · exact Thread.p7_regs_congr (Thread.putG_regs_congr (t := { t with qres := ⟨gr t a, t.qres.count, true⟩ }) (t' := t) rfl ..) true

end Sys2Proof.Machine
end

section
/-! QPROBE (R279, R358), and O39. -/

namespace Sys2Proof.Machine

/-- A probe of a domain stands with its requester at the own package. -/
def beginProbe (s : State) (u : Turn) (t : Thread) (dom : Nat) (pkgs : List Nat) : State :=
  { s with nextUid := s.nextUid + 1 }.modPkg (epPkg u.ep) fun p =>
    { p with probes := p.probes ++ [Probe.mk dom pkgs (some (reqOf u.ep u.slot t (16 + 32 * s.nextUid) 0))] }

theorem probes_beginProbe (s : State) (u : Turn) (t : Thread) (dom : Nat) (pkgs : List Nat) :
    ((beginProbe s u t dom pkgs).pkg (epPkg u.ep)).probes =
      (s.pkg (epPkg u.ep)).probes ++ [⟨dom, pkgs, some (reqOf u.ep u.slot t (16 + 32 * s.nextUid) 0)⟩] :=
  congrArg Pkg.probes (pkg_modPkg_same ..)

section probe
variable {s : State} {u : Turn} {t : Thread} {gd : Guard} {d a b : Reg} {dom : Nat} {pkgs : List Nat} (h : Issues s u t (.qprobe gd d a b))
include h

theorem exec_qprobe_of_no_domain (hd : probeDomain s u.ep t (gr t a) = none) :
    exec (.qprobe gd d a b) s = .next (s.raise u 0x13 (gr t a) (peerIndex (gr t a))) := by
  rw [exec_qprobe, execQprobe, issue_next h rfl rfl (by decide) (by decide) (lacks_tail (by decide) · · · _ _) (.inr rfl)]
  simp only [hd]

variable (hd : probeDomain s u.ep t (gr t a) = some (dom, pkgs))
include hd

/-- R279: a probe of the domain begins. -/
theorem exec_qprobe_of_free (hp : probing s dom = false) :
    exec (.qprobe gd d a b) s = .next ((beginProbe s u t dom pkgs).parkAt u .probe 7 0 false
        (if gr t b == 0 then none else deadline s u.ep (gr t b)) d 0 s.nextUid) := by
  rw [exec_qprobe, execQprobe, issue_next h rfl rfl (by decide) (by decide) (lacks_tail (by decide) · · · _ _) (.inr rfl)]
  simp only [hd, hp, Bool.false_eq_true, if_false, beginProbe]

/-- R358: one of the domain is under way. -/
theorem exec_qprobe_of_probing (hp : probing s dom = true) :
    exec (.qprobe gd d a b) s = .next (if waitedOut s u.ep t (deadline s u.ep (gr t b)) then
        s.retire u fun t => (t.putG d (word (2 ^ 63))).p7 false
      else s.parkAt u (.again (.probeFree dom)) 7 0 false (deadline s u.ep (gr t b)) d 0) := by
  rw [exec_qprobe, execQprobe, issue_next h rfl rfl (by decide) (by decide) (lacks_tail (by decide) · · · _ _) (.inr rfl)]
  simp only [hd, hp, if_true]

end probe

theorem phaseProbe : PhaseProbe := by
  intro s u t gd d a b dom pkgs h probes
  refine ⟨fun hd hk => ?traps, fun hd hp => ?begins, fun hd hp hpark => ⟨fun hb => ?ends, fun hb => ?waits⟩⟩
  case traps =>
    refine trapTaken_of_exec_raise (exec_qprobe_of_no_domain h hd) h.thread hk (by decide) ?_ (absurd · (by decide))
    exact Nat.lt_of_lt_of_le (Nat.mod_lt _ (by decide)) (by decide)
  case begins =>
    obtain ⟨t', k, hthr, hfrom, hwhy, hdst, -⟩ := thr?_parkAt (s := beginProbe s u t dom pkgs) (u := u) h.thread .probe 7 0 false
        (if gr t b == 0 then none else deadline s u.ep (gr t b)) d 0 s.nextUid
    exact ⟨_, _, t', k, exec_qprobe_of_free h hd hp, probes_beginProbe .., rfl, hthr, hfrom.park, hwhy, hdst, hfrom.regs, rfl⟩
  case ends =>
    have hexec := exec_qprobe_of_probing h hd hp
    rwa [if_pos ((waitedOut_of_park_none hpark).2 hb)] at hexec
  case waits =>
    have hexec := exec_qprobe_of_probing h hd hp
    rw [if_neg (mt (waitedOut_of_park_none hpark).1 hb)] at hexec
    exact waits_of_exec_parkAt hexec h.thread rfl

/-- Settles O39, an instruction at a time: an equation of the next state for each of its cases, from which the registers, the packets and the
queues follow. -/
theorem messageInstructions : Obligations.MessageInstructions := ⟨sendAndReceive, queueInstructions, phaseProbe⟩

end Sys2Proof.Machine
end

section
/-! Commands of the engines by their identity (R127), and the pieces that leave (R123 to R125, R216, R219, R422). -/

namespace Sys2Proof.Machine

section commands
variable {s : State} {id : Nat} {c : Cmd} {f : Cmd → Cmd}

/-- A command that keeps its identity is found after its change. -/
theorem find?_modCmd (h : s.cmds.find? (·.id == id) = some c) (hf : ∀ c, (f c).id = c.id) :
    (s.modCmd id f).cmds.find? (·.id == id) = some (f c) := by
  refine Eq.trans ?_ (congrArg (Option.map f) h)
  simp only [State.modCmd]
  induction s.cmds with
  | nil => rfl
  | cons c l ih =>
    by_cases h : (c.id == id) = true
    · simp only [List.map_cons, h, if_true, List.find?_cons, hf, Option.map_some]
    · simp only [List.map_cons, h, Bool.false_eq_true, if_false, List.find?_cons, ih]

theorem getElem?_modCmd (s : State) (id : Nat) (f : Cmd → Cmd) (k : Nat) :
    (s.modCmd id f).cmds[k]? = (s.cmds[k]?).map fun c => if c.id == id then f c else c := List.getElem?_map ..

/-- The other commands stay once one that has changed is gone. -/
theorem filter_modCmd (hf : ∀ c, (f c).id = c.id) : (s.modCmd id f).cmds.filter (·.id != id) = s.cmds.filter (·.id != id) := by
  simp only [State.modCmd]
  induction s.cmds with
  | nil => rfl
  | cons c l ih =>
    by_cases h : c.id = id
    · simp only [List.map_cons, h, beq_self_eq_true, if_true, List.filter_cons, hf, bne_self_eq_false, Bool.false_eq_true, if_false, ih]
    · simp only [List.map_cons, beq_iff_eq, h, if_false, List.filter_cons, ← ih]

/-- R127: a command with pieces on their way, or with more to cut, is not complete. -/
theorem tryFinish_of_not_over (h : s.cmds.find? (·.id == id) = some c) (hc : c.done < c.total ∨ c.flying ≠ 0) : tryFinish s id = s := by
  have hopen : (decide (c.total ≤ c.done) && c.flying == 0) = false := by
    rcases hc with hc | hc
    · simp only [Nat.not_le.2 hc, decide_false, Bool.false_and]
    · simp only [beq_eq_false_iff_ne.2 hc, Bool.and_false]
  simp only [tryFinish, h, hopen, Bool.false_and, Bool.false_eq_true, if_false]

theorem tryFinish_modCmd_of_not_over (h : s.cmds.find? (·.id == id) = some c) (hf : ∀ c, (f c).id = c.id)
    (hc : (f c).done < (f c).total ∨ (f c).flying ≠ 0) : tryFinish (s.modCmd id f) id = s.modCmd id f :=
  tryFinish_of_not_over (find?_modCmd h hf) hc

end commands

/-- Where a piece lies on a side that is the requester's own scratchpad (R125). -/
def ownLoc (c : Cmd) (side x : Nat) : PieceLoc := ⟨c.req.ep, (c.at_ side x).toNat, none, false, true, c.req.ebit, none, false⟩

/-- The state before a piece leaves: at each 4 KiB the place of the next check is set (R124). -/
def marked (s : State) (c : Cmd) : State :=
  if c.mark ≤ c.done then s.modCmd c.id fun y => { y with mark := c.done / 4096 * 4096 + 4096 } else s

/-- A piece of a command leaves for the owner of its source (R124 to R126). -/
def sendRead (s : State) (c : Cmd) (len : Nat) : State :=
  (((marked s c).modCmd c.id fun y => { y with done := c.done + len }).send c.ep c.req.ep (ctxVc (marked s c) (epPkg c.ep) c.req.ctx) c.req
    c.carry (.pieceRead c.id (ownLoc c 0 c.done) len [ownLoc c 1 c.done] (c.need c.done len) c.ep)).modCmd c.id
      fun y => { y with flying := y.flying + 1 }

section leave
variable {s : State} {k : Nat} {c : Cmd}

theorem find?_marked (h : s.cmds.find? (·.id == c.id) = some c) :
    ∃ m, (marked s c).cmds.find? (·.id == c.id) = some { c with mark := m } := by
  unfold marked
  split
  · exact ⟨_, find?_modCmd h fun _ => rfl⟩
  · exact ⟨c.mark, h⟩

/-- The command once its piece has left. -/
theorem getElem?_sendRead (h : s.cmds[k]? = some c) (len : Nat) : (sendRead s c len).cmds[k]? = some { c with
    done := c.done + len, flying := c.flying + 1, mark := if c.mark ≤ c.done then c.done / 4096 * 4096 + 4096 else c.mark } := by
  have hmark : (marked s c).cmds[k]? = some { c with mark := if c.mark ≤ c.done then c.done / 4096 * 4096 + 4096 else c.mark } := by
    unfold marked
    split
    · rw [getElem?_modCmd, h, Option.map_some, beq_self_eq_true, if_pos rfl]
    · exact h
  rw [sendRead, getElem?_modCmd, State.send]
  dsimp only
  rw [getElem?_modCmd, hmark]
  simp only [Option.map_some, beq_self_eq_true, if_true]

theorem net_sendRead (s : State) (c : Cmd) (len : Nat) : (sendRead s c len).net = s.net ++
    [⟨c.ep, c.req.ep, ctxVc (marked s c) (epPkg c.ep) c.req.ctx, if epPkg c.ep == epPkg c.req.ep then .arrived else .egress,
      (s.now c.ep).toNat, c.req, c.carry,
      .pieceRead c.id (ownLoc c 0 c.done) len [ownLoc c 1 c.done] (c.need c.done len) c.ep, 0, none⟩] := by
  have hnet : (marked s c).net = s.net := by unfold marked; split <;> rfl
  have hnow : (marked s c).now c.ep = s.now c.ep := by unfold marked; split <;> rfl
  rw [← hnet, ← hnow]
  rfl

variable (hk : s.cmds[k]? = some c) (hf : s.cmds.find? (·.id == c.id) = some c)
include hk hf

/-- R127: all is cut, and reports are awaited. -/
theorem exec_copyPieceDispatch_of_cut (hd : c.total ≤ c.done) (hn : c.flying ≠ 0) : exec (.copyPieceDispatch k) s = .next s := by
  simp only [exec_copyPieceDispatch, execCopyPieceDispatch, hk, hd, if_true, tryFinish_of_not_over hf (.inr hn)]

variable (hd : c.done < c.total)
include hd

/-- R216, R219: at a 4 KiB check the command has lapsed. -/
theorem exec_copyPieceDispatch_of_lapsed (hm : c.mark ≤ c.done) (he : expired s c.ep c.carry = true) (hn : c.flying ≠ 0) :
    exec (.copyPieceDispatch k) s = .next ((reportItem s (epPkg c.ep) c.carry 0 0 (c.pieces c.done c.total)).modCmd c.id fun y =>
      { y.stop with failed := y.failed + c.pieces c.done c.total, annulled := true }) := by
  have hcmds : (reportItem s (epPkg c.ep) c.carry 0 0 (c.pieces c.done c.total)).cmds = s.cmds := by
    unfold reportItem
    split
    · rfl
    · split
      · exact report_cmds ..
      · rfl
  simp only [exec_copyPieceDispatch, execCopyPieceDispatch, hk, Nat.not_le.2 hd, hm, he, decide_true, Bool.and_self, if_false, if_true]
  exact congrArg _ (tryFinish_modCmd_of_not_over (hcmds.symm ▸ hf) (fun _ => rfl) (.inr hn))

/-- R124, R125: the next piece leaves. -/
theorem exec_copyPieceDispatch_of_own (hm : c.done < c.mark ∨ expired s c.ep c.carry = false) (hengine : c.engine = 0)
    (hland : c.landing = false) (hkind : cKind c.words ≠ 4) (h0 : (c.side 0).toNat / 2 ^ 62 = 0) (h1 : (c.side 1).toNat / 2 ^ 62 = 0) :
    exec (.copyPieceDispatch k) s = .next (sendRead s c (max 1 (c.pieceLen c.done))) := by
  have hlive : (decide (c.mark ≤ c.done) && expired s c.ep c.carry) = false := by
    rcases hm with hm | hm
    · simp only [Nat.not_le.2 hm, decide_false, Bool.false_and]
    · simp only [hm, Bool.and_false]
  have hkind' : (cKind c.words == 4) = false := beq_eq_false_iff_ne.2 hkind
  have hstart : startLanding s c = s := by simp only [startLanding, hengine, Nat.reduceBEq, Bool.false_and, Bool.false_eq_true, if_false]
  have hdst : dstLocs s c c.done (max 1 (c.pieceLen c.done)) = (some [.ok (ownLoc c 1 c.done)], s) := by
    simp only [dstLocs, hengine, Nat.reduceBEq, Bool.false_eq_true, if_false, h1, ownLoc]
  have hsrc : srcLoc s c c.done (max 1 (c.pieceLen c.done)) = (.ok (ownLoc c 0 c.done), s) := by
    simp only [srcLoc, hland, Bool.false_eq_true, if_false, h0, ownLoc]
  have hsend (s : State) (len : Nat) : sendPiece s c c.done len [.ok (ownLoc c 1 c.done)] (some (.ok (ownLoc c 0 c.done))) =
      ((s.modCmd c.id fun y => { y with done := c.done + len }).send c.ep c.req.ep (ctxVc s (epPkg c.ep) c.req.ctx) c.req c.carry
        (.pieceRead c.id (ownLoc c 0 c.done) len [ownLoc c 1 c.done] (c.need c.done len) c.ep)).modCmd c.id
          fun y => { y with flying := y.flying + 1 } := by
    have hmod : (fun y : Cmd => { y with
        done := c.done + len, failed := y.failed + 0 + 0, fault := y.fault || false, refused := y.refused || false }) =
        fun y => { y with done := c.done + len } := by
      funext y
      simp only [Nat.add_zero, Bool.or_false]
    rw [← hmod]
    rfl
  have hopen : tryFinish (sendRead s c (max 1 (c.pieceLen c.done))) c.id = sendRead s c (max 1 (c.pieceLen c.done)) := by
    obtain ⟨m, hmark⟩ := find?_marked hf
    refine tryFinish_modCmd_of_not_over (c := { c with mark := m, done := c.done + max 1 (c.pieceLen c.done) }) ?_ (fun _ => rfl)
      (.inr (Nat.succ_ne_zero _))
    exact find?_modCmd hmark fun _ => rfl
  simp only [exec_copyPieceDispatch, execCopyPieceDispatch, hk, Nat.not_le.2 hd, hlive, hkind', hstart, hdst, hsrc, Bool.false_and,
    Bool.false_eq_true, if_false]
  have hmiss : ([Found.ok (ownLoc c 1 c.done)].contains .miss) = false := rfl
  have hmiss' : (some (Found.ok (ownLoc c 0 c.done)) == some .miss) = false := rfl
  simp only [hmiss, hmiss', Bool.false_eq_true, if_false, hsend]
  exact congrArg _ hopen

end leave

theorem piecesLeave : PiecesLeave := by
  intro s k c hk hf _ hengine hland hkind h0 h1 x len loc i
  refine ⟨fun hd hm => ?leaves, fun hd hm he hn hh hp => ?annulled, fun hd hn => exec_copyPieceDispatch_of_cut hk hf hd hn⟩
  case leaves =>
    exact ⟨_, _, _, exec_copyPieceDispatch_of_own hk hf hd hm hengine hland hkind h0 h1, net_sendRead .., rfl, rfl, rfl, rfl, rfl,
      getElem?_sendRead hk len, rfl, rfl, rfl, rfl⟩
  case annulled =>
    have hhnd : (c.carry.hnd == 0) = false := beq_eq_false_iff_ne.2 hh
    have hnat : (c.carry.hnd.toNat == 0) = false := beq_eq_false_iff_ne.2 fun hz => hh (BitVec.eq_of_toNat_eq hz)
    have hreport : reportItem s (epPkg c.ep) c.carry 0 0 (c.pieces c.done c.total) =
        { s with ctl := s.ctl ++ [.drop (epPkg c.ep) c.carry.hnd.toNat 0 0 (c.pieces c.done c.total)] } := by
      simp only [reportItem, hhnd, hp, beq_self_eq_true, State.report, hnat, Bool.false_eq_true, if_false, if_true]
    have hexec := exec_copyPieceDispatch_of_lapsed hk hf hd hm he hn
    rw [hreport] at hexec
    refine ⟨_, { c.stop with failed := c.failed + c.pieces c.done c.total, annulled := true }, hexec, ?_, rfl, rfl, rfl, rfl, rfl⟩
    rw [getElem?_modCmd]
    exact (congrArg (Option.map _) hk).trans (by rw [Option.map_some, beq_self_eq_true, if_pos rfl])

end Sys2Proof.Machine
end

section
/-! Pieces at their owner and at their recipient, and the pattern of a FILL (R48, R51, R64, R113, R126, R136, R137, R216). -/

namespace Sys2Proof.Machine

/-- A packet that stays where it is leaves the state as it is (R108). -/
theorem onPacket_of_stays {s : State} {k : Nat} {p : Pkt} {f : Pkt → State} (ha : Arrives s k p) (hf : f p = s) : onPacket s k f = s := by
  obtain ⟨hmem, hstage⟩ := mem_and_arrived_of_arrives ha
  have hnote : s.noteReplies s p = s := by
    unfold State.noteReplies
    split
    · rfl
    · rw [if_neg (Nat.lt_irrefl _)]
  rw [onPacket_of_arrives ha, hf, hnote, reapProxy_of_carried hmem hstage]

/-- The outcome of a piece goes to its engine (R126). -/
def endPiece (s : State) (e engine : EP) (p : Pkt) (id len : Nat) (x : PieceEnd) : State :=
  s.send e engine 0 p.req p.carry (.pieceEnd id len x)

/-- A notice of a refusal or a fault goes to the requester (R126). -/
def noticeTo (s : State) (e : EP) (p : Pkt) (b : Nat) : State := s.answer e { p.req with entry := 17, ebit := b } p.carry .refused

/-- An owner can serve a request now (R105, R111, R216). -/
structure ServedAt (s : State) (p : Pkt) : Prop where
  live : expired s p.dst p.carry = false
  openAt : closedAt s p.dst = false
  channel : wrongChannel s p.dst p = false

/-- A source in a scratchpad that nothing holds back and whose reads meet no error (R48, R137, R189). -/
structure ClearSource (s : State) (e : EP) (src : PieceLoc) (len : Nat) : Prop where
  unsealed : anySealed s e src.addr len = false
  unqueued : queued s e src.addr len = false
  upsets : (s.core e).upsets = []

section owner
variable {s : State} {e : EP} {ctx : Ctx} {ticket len : Nat} {src : PieceLoc} (hd : src.dram = false)
include hd

theorem ownerRead_of_not_admitted (hl : src.local_ = false) (ha : admits s e ctx src.addr len (true, false, false) = false) :
    ownerRead s e ctx ticket src len = (.refused, s) := by
  simp only [ownerRead, hd, hl, ha, Bool.not_false, Bool.and_self, Bool.false_eq_true, if_false, if_true]

variable (ha : src.local_ = true ∨ admits s e ctx src.addr len (true, false, false) = true) (hc : ClearSource s e src len)
include ha hc

/-- R51, R113, R126: a source that may be read gives its bytes, or is ochre. -/
theorem ownerRead_of_clear : ownerRead s e ctx ticket src len =
    (if anyOchre s e src.addr len then (.ochre, s) else (.bytes (mbytes (s.core e).spad src.addr len), s)) := by
  have hok : (!src.local_ && !admits s e ctx src.addr len (true, false, false)) = false := by
    rcases ha with h | h <;> simp only [h, Bool.not_true, Bool.false_and, Bool.and_false]
  simp only [ownerRead, hd, hok, hc.unsealed, hc.unqueued, meetErrors_of_upsets_nil hc.upsets, Bool.or_self, Bool.false_eq_true, if_false]

end owner

/-- R125: a piece whose recipient is resolved leaves for it. -/
theorem toRecipient_of_resolved {dst : PieceLoc} (hv : dst.vcore = none) (s : State) (e : EP) (p : Pkt) (id len : Nat) (need : List Nat)
    (engine : EP) (data : Option (List (BitVec 8))) : toRecipient s e p id len need engine data dst =
      s.send e dst.ep p.vc p.req p.carry (.pieceWrite id dst data len need engine) := by
  simp only [toRecipient, hv, ite_self]

theorem logFailover_of_not_mirrored {src : PieceLoc} (hm : src.mpkg = none) (s : State) (e : EP) (p : Pkt) : logFailover s e p src = s := by
  simp only [logFailover, hm]

section read
variable {s : State} {k id len : Nat} {p : Pkt} {src dst : PieceLoc} {need : List Nat} {engine : EP} (ha : Arrives s k p) (ho : ServedAt s p)
  (hv : src.vcore = none) (hd : src.dram = false)
include ha ho hv hd

/-- R113, R126: the owner's window does not admit the read. -/
theorem becomes_read_refused (hb : p.body = .pieceRead id src len [dst] need engine) (hl : src.local_ = false)
    (hw : admits s p.dst p.req.ctx src.addr len (true, false, false) = false) :
    Becomes (.pieceAtOwner k) s p (endPiece (noticeTo (s.dropPkt k) p.dst p src.ebit) p.dst engine p id len .refused) := by
  simp only [Becomes, exec_pieceAtOwner, execPieceAtOwner, onPacket_of_arrives ha, hb, hv, ho.live, ho.openAt, ho.channel,
    ownerRead_of_not_admitted hd hl hw, Option.isSome_none, Bool.or_self, Bool.false_eq_true, if_false]
  rfl

variable (hm : src.mpkg = none) (hw : src.local_ = true ∨ admits s p.dst p.req.ctx src.addr len (true, false, false) = true)
  (hc : ClearSource s p.dst src len)
include hm hw hc

/-- R125: the bytes go on to the recipient. -/
theorem becomes_piece (hb : p.body = .pieceRead id src len [dst] need engine) (hv' : dst.vcore = none)
    (hg : anyOchre s p.dst src.addr len = false) : Becomes (.pieceAtOwner k) s p ((s.dropPkt k).send p.dst dst.ep p.vc p.req p.carry
      (.pieceWrite id dst (some (mbytes (s.core p.dst).spad src.addr len)) len need engine)) := by
  simp only [Becomes, exec_pieceAtOwner, execPieceAtOwner, onPacket_of_arrives ha, hb, hv, ho.live, ho.openAt, ho.channel,
    ownerRead_of_clear hd hw hc, hg, logFailover_of_not_mirrored hm, toRecipient_of_resolved hv', Option.isSome_none, Bool.or_self,
    Bool.false_eq_true, if_false, List.foldl_cons, List.foldl_nil]

omit hm in
/-- R126: an ochre source goes on as an error piece. -/
theorem becomes_error_piece (hb : p.body = .pieceRead id src len [dst] need engine) (hv' : dst.vcore = none) (hd' : dst.dram = false)
    (hg : anyOchre s p.dst src.addr len = true) : Becomes (.pieceAtOwner k) s p
      (endPiece (noticeTo ((s.dropPkt k).send p.dst dst.ep p.vc p.req p.carry (.pieceWrite id dst none len need engine)) p.dst p src.ebit)
        p.dst engine p id len .fault) := by
  simp only [Becomes, exec_pieceAtOwner, execPieceAtOwner, onPacket_of_arrives ha, hb, hv, ho.live, ho.openAt, ho.channel,
    ownerRead_of_clear hd hw hc, hg, toRecipient_of_resolved hv', hd', Option.isSome_none, Bool.or_self, Bool.false_eq_true, if_false, if_true,
    List.foldl_cons, List.foldl_nil]
  rfl

/-- R424: a pattern is read. -/
theorem becomes_pattern_sent (hb : p.body = .patternRead id src len engine) (hg : anyOchre s p.dst src.addr len = false) :
    Becomes (.fillPatternRead k) s p ((s.dropPkt k).send p.dst engine 0 p.req p.carry
      (.pattern id (some (mbytes (s.core p.dst).spad src.addr len)) false)) := by
  simp only [Becomes, exec_fillPatternRead, execFillPatternRead, onPacket_of_arrives ha, hb, hv, ho.live, ho.openAt, ho.channel,
    ownerRead_of_clear hd hw hc, hg, logFailover_of_not_mirrored hm, Option.isSome_none, Bool.or_self, Bool.false_eq_true, if_false]

end read

/-- R424: the pattern is known to its engine. -/
theorem becomes_pattern_known {s : State} {k id : Nat} {p : Pkt} {bs : List (BitVec 8)} {c : Cmd} (ha : Arrives s k p)
    (hb : p.body = .pattern id (some bs) false) (he : expired s p.dst p.carry = false) (hf : s.cmds.find? (·.id == id) = some c)
    (hd : c.done < c.total) : Becomes (.fillPatternRead k) s p ((s.dropPkt k).modCmd id fun c => { c with pattern := some bs }) := by
  have hf' : (s.dropPkt k).cmds.find? (·.id == id) = some c := hf
  have hopen := tryFinish_modCmd_of_not_over (f := fun c => { c with pattern := some bs }) hf' (fun _ => rfl) (.inl hd)
  simp only [Becomes, exec_fillPatternRead, execFillPatternRead, onPacket_of_arrives ha, hb, he, patternIn, hf', Option.isNone_some,
    Bool.false_and, Bool.false_eq_true, if_false, hopen]

section write
variable {s : State} {k id len : Nat} {p : Pkt} {dst : PieceLoc} {data : Option (List (BitVec 8))} {need : List Nat} {engine : EP}
  (ha : Arrives s k p) (hb : p.body = .pieceWrite id dst data len need engine) (hh : ¬ (epKind p.src = 3 ∧ epX p.src = 1)) (hv : dst.vcore = none)
include ha hb hh hv

/-- R216, R219: a piece that has lapsed is reported so. -/
theorem becomes_piece_annulled {bs : List (BitVec 8)} (hdata : data = some bs) (hl : p.lapsed s p.dst = true) :
    Becomes (.pieceAtRecipient k) s p
      (endPiece (lapseDrop ((s.leaveTile p).dropPkt k) p.dst p 1) p.dst engine p id len .annulled) := by
  have hhost : (epKind p.src == 3 && epX p.src == 1) = false := by simpa using hh
  simp only [Becomes, exec_pieceAtRecipient, execPieceAtRecipient, onPacket_of_arrives ha, hb, hdata, hv, hhost, hl, Bool.false_and,
    Option.isSome_none, Option.isNone_some, Bool.false_eq_true, if_false, if_true]
  rfl

variable (hl : p.lapsed s p.dst = false) (hc : closedAt s p.dst = false) (hw : wrongChannel s p.dst p = false) (hd : dst.dram = false)
  (hlow : dst.addr < 0x180000)
include hl hc hw hd hlow

/-- R113, R126: the recipient's window does not admit the write. -/
theorem becomes_write_refused {bs : List (BitVec 8)} (hdata : data = some bs) (hloc : dst.local_ = false)
    (hadm : admits s p.dst p.req.ctx dst.addr len (false, true, !need.isEmpty) = false) : Becomes (.pieceAtRecipient k) s p
      (endPiece (noticeTo ((s.leaveTile p).dropPkt k) p.dst p dst.ebit) p.dst engine p id len .refused) := by
  have hhost : (epKind p.src == 3 && epX p.src == 1) = false := by simpa using hh
  simp only [Becomes, exec_pieceAtRecipient, execPieceAtRecipient, onPacket_of_arrives ha, hb, hdata, hv, hhost, hl, hc, hw, hd, hloc, hadm,
    Nat.not_le.2 hlow, Bool.false_and, Bool.or_self, Bool.not_false, Bool.and_self, Option.isSome_none, Option.isNone_some, Bool.false_eq_true,
    if_false, if_true]
  rfl

variable (hadm : dst.local_ = true ∨ admits s p.dst p.req.ctx dst.addr len (false, true, !need.isEmpty) = true)
include hadm

/-- R137: a full queue holds the piece where it is. -/
theorem exec_pieceAtRecipient_of_full (hq : ¬ (s.core p.dst).destQ.length < destCap p.dst) : exec (.pieceAtRecipient k) s = .next s := by
  have hhost : (epKind p.src == 3 && epX p.src == 1) = false := by simpa using hh
  have hok : (!dst.local_ && !admits s p.dst p.req.ctx dst.addr len (false, true, !need.isEmpty)) = false := by
    rcases hadm with h | h <;> simp only [h, Bool.not_true, Bool.false_and, Bool.and_false]
  rw [exec_pieceAtRecipient, execPieceAtRecipient]
  refine congrArg _ (onPacket_of_stays ha ?_)
  simp only [hb, hv, hhost, hl, hc, hw, hd, hok, Nat.not_le.2 hlow, Nat.not_lt.1 hq, Bool.false_and, Bool.or_self, Option.isSome_none,
    Bool.false_eq_true, if_false, if_true]

/-- R136, R137: the piece joins the queue; one with bytes is reported. -/
theorem becomes_accepted (hq : (s.core p.dst).destQ.length < destCap p.dst) :
    let queued := (s.dropPkt k).modCore p.dst fun c => { c with
      destQ := c.destQ ++ [⟨dst.addr, data.getD (List.replicate len 0), need, data.isNone, id, c.destNum⟩], destNum := c.destNum + 1 }
    Becomes (.pieceAtRecipient k) s p (if data.isNone then queued else endPiece queued p.dst engine p id len .written) := by
  have hhost : (epKind p.src == 3 && epX p.src == 1) = false := by simpa using hh
  have hok : (!dst.local_ && !admits s p.dst p.req.ctx dst.addr len (false, true, !need.isEmpty)) = false := by
    rcases hadm with h | h <;> simp only [h, Bool.not_true, Bool.false_and, Bool.and_false]
  simp only [Becomes, exec_pieceAtRecipient, execPieceAtRecipient, onPacket_of_arrives ha, hb, hv, hhost, hl, hc, hw, hd, hok,
    Nat.not_le.2 hlow, Nat.not_le.2 hq, Bool.false_and, Bool.or_self, Option.isSome_none, Bool.false_eq_true, if_false]
  rfl

end write

theorem piecesArrive : PiecesArrive := by
  intro s k id len p src dst need engine bs ha e open_ clear readable writable fromHost landed dropped left ends notice room
  have served (h : open_) : ServedAt s p := ⟨h.1, h.2.1, h.2.2⟩
  have cleared (h : clear) : ClearSource s p.dst src len := ⟨h.1, h.2.1, h.2.2⟩
  have hroom : room ↔ (s.core e).destQ.length < destCap e := by
    simp only [room, destCap, beq_iff_eq]
  refine ⟨fun hb ho => ⟨?piece, ?errorPiece, fun hv hd hl hw => becomes_read_refused ha (served ho) hv hd hb hl hw⟩,
    fun hb hh hl => ⟨?queued, ?full, ?refused⟩, fun hb hh hv hl => becomes_piece_annulled ha hb hh hv rfl hl, ?error, ?pattern,
    fun c hb he hf hd => becomes_pattern_known ha hb he hf hd⟩
  case piece =>
    rintro ⟨hv, hm, hv', hd, hw⟩ hc hg
    exact becomes_piece ha (served ho) hv hd hm hw (cleared hc) hb hv' hg
  case errorPiece =>
    rintro ⟨hv, -, hv', hd, hw⟩ hc hg hd'
    exact becomes_error_piece ha (served ho) hv hd hw (cleared hc) hb hv' hd' hg
  case queued =>
    rintro ⟨hv, hd, hlow, hadm⟩ hq
    exact becomes_accepted ha hb hh hv hl.1 hl.2.1 hl.2.2 hd hlow hadm (hroom.1 hq)
  case full =>
    rintro ⟨hv, hd, hlow, hadm⟩ hq
    exact exec_pieceAtRecipient_of_full ha hb hh hv hl.1 hl.2.1 hl.2.2 hd hlow hadm (mt hroom.2 hq)
  case refused =>
    exact fun hv hd hlow hloc hadm => becomes_write_refused ha hb hh hv hl.1 hl.2.1 hl.2.2 hd hlow rfl hloc hadm
  case error =>
    rintro hb hh hl ⟨hv, hd, hlow, hadm⟩ hq
    exact becomes_accepted ha hb hh hv hl.1 hl.2.1 hl.2.2 hd hlow hadm (hroom.1 hq)
  case pattern =>
    rintro hb ho ⟨hv, hm, -, hd, hw⟩ hc hg
    exact becomes_pattern_sent ha (served ho) hv hd hm hw (cleared hc) hb hg

end Sys2Proof.Machine
end

section
/-! Reports of pieces and the ends of commands (R126, R127, R420). -/

namespace Sys2Proof.Machine

theorem modIssuer_of_slot {s : State} {e : EP} {uid n : Nat} {f : Thread → Thread} (h : locate s e uid = .slot n) :
    s.modIssuer e uid f = s.modThr e n f := by simp only [State.modIssuer, h, State.modWhere]

/-- What the end of a copy leaves in its requester (R127, R420). -/
def copyEnded (c : Cmd) (t : Thread) : Thread :=
  let t := { t with cnt := { t.cnt with cpc := t.cnt.cpc - 1 } }
  if cNotify c.words then { t with recs := t.recs ++ [recordOf c.words c.status c.failed c.bytes] } else t

/-- R127, R420: a copy without a notice add has ended. -/
theorem completeCmd_of_copy {s : State} {c : Cmd} {n : Nat} (hl : c.landing = false) (he : c.engine = 0) (hn : cNote c.words = false)
    (hloc : locate s c.req.ep c.req.uid = .slot n) : completeCmd s c =
      (unmarkWalks { s with cmds := s.cmds.filter (·.id != c.id) } (dieKey c.ep) c.id).modThr c.req.ep n (copyEnded c) := by
  have hloc' : locate (unmarkWalks { s with cmds := s.cmds.filter (·.id != c.id) } (dieKey c.ep) c.id) c.req.ep c.req.uid = .slot n := hloc
  simp only [completeCmd, hl, he, hn, modIssuer_of_slot hloc', Nat.reduceBEq, Bool.false_and, Bool.false_eq_true, if_false]
  rfl

/-- A command with a piece written (R126). -/
def pieceWritten (len : Nat) (c : Cmd) : Cmd := { c with flying := c.flying - 1, bytes := c.bytes + len }

section report
variable {s : State} {k id len n : Nat} {p : Pkt} {c : Cmd} (ha : Arrives s k p) (hb : p.body = .pieceEnd id len .written)
  (hl : p.lapsed s p.dst = false) (hf : s.cmds.find? (·.id == id) = some c)
include ha hb hl hf

theorem becomes_reported : Becomes (.pieceReport k) s p (tryFinish ((s.dropPkt k).modCmd id (pieceWritten len)) id) := by
  have hf' : (s.dropPkt k).cmds.find? (·.id == id) = some c := hf
  simp only [Becomes, exec_pieceReport, execPieceReport, onPacket_of_arrives ha, hb, hl, reportPiece, hf', Bool.false_eq_true, if_false]
  rfl

/-- R126: other reports are awaited. -/
theorem becomes_counted (hn : 1 < c.flying) : Becomes (.pieceReport k) s p ((s.dropPkt k).modCmd id (pieceWritten len)) := by
  have hopen := tryFinish_modCmd_of_not_over (s := s.dropPkt k) (f := pieceWritten len) hf (fun _ => rfl)
    (.inr (Nat.sub_ne_zero_of_lt hn))
  exact hopen ▸ becomes_reported ha hb hl hf

/-- R127: the last report ends the command. -/
theorem becomes_completed (hn : c.flying = 1) (hd : c.total ≤ c.done) (he : c.engine = 0) (ho : noticesOut (s.dropPkt k) c.req.uid = false) :
    Becomes (.pieceReport k) s p (completeCmd ((s.dropPkt k).modCmd id (pieceWritten len)) (pieceWritten len c)) := by
  have hfound := find?_modCmd (s := s.dropPkt k) (f := pieceWritten len) hf fun _ => rfl
  have hover : tryFinish ((s.dropPkt k).modCmd id (pieceWritten len)) id =
      completeCmd ((s.dropPkt k).modCmd id (pieceWritten len)) (pieceWritten len c) := by
    have hnone : noticesOut ((s.dropPkt k).modCmd id (pieceWritten len)) (pieceWritten len c).req.uid = false := ho
    have hcut : (pieceWritten len c).total ≤ (pieceWritten len c).done := hd
    have hlanded : (pieceWritten len c).flying = 0 := Nat.sub_eq_zero_of_le hn.le
    have hengine : ((pieceWritten len c).engine == 2) = false := beq_eq_false_iff_ne.2 (by rw [pieceWritten, he]; decide)
    simp only [tryFinish, hfound, hcut, hlanded, hnone, hengine, decide_true, beq_self_eq_true, Bool.false_and, Bool.not_false, Bool.and_self,
      if_true]
  exact hover ▸ becomes_reported ha hb hl hf

end report

end Sys2Proof.Machine
end

section
/-! The destination write queue (R51, R137, R148, R189). -/

namespace Sys2Proof.Machine

/-- A test that holds nowhere has no place. -/
theorem findPos_eq_none {α : Type} {p : α → Bool} {l : List α} (h : ∀ x ∈ l, p x = false) : findPos p l = none := by
  induction l with
  | nil => rfl
  | cons x l ih =>
    rw [findPos, h x List.mem_cons_self, if_neg Bool.false_ne_true, ih fun y hy => h y (List.mem_cons_of_mem _ hy), Option.map_none]

theorem foldl_fixed {α β : Type} {f : β → α → β} {b : β} {l : List α} (h : ∀ x ∈ l, f b x = b) : l.foldl f b = b := by
  induction l with
  | nil => rfl
  | cons x l ih => rw [List.foldl_cons, h x List.mem_cons_self, ih fun y hy => h y (List.mem_cons_of_mem _ hy)]

/-- The blocks of k bytes that a range of bytes touches. -/
theorem mem_blocks {a n k i : Nat} (hn : 0 < n) : i ∈ blocks a n k ↔ a / k ≤ i ∧ i ≤ (a + n - 1) / k := by
  have hle : a / k ≤ (a + n - 1) / k := Nat.div_le_div_right (by omega)
  rw [blocks, if_neg (by simpa using Nat.pos_iff_ne_zero.1 hn), List.mem_map]
  constructor
  · rintro ⟨j, hj, rfl⟩
    have := List.mem_range.1 hj
    omega
  · rintro ⟨hlo, hhi⟩
    exact ⟨i - a / k, List.mem_range.2 (by omega), by omega⟩

/-- Granules of a core set to a state, by their numbers. -/
def setGrans (s : State) (e : EP) (st : GState) (l : List Nat) : State := l.foldl (fun s g => s.setGran e (16 * g) st) s

section setGrans
variable {s : State} {e : EP} {st : GState}

theorem core_setGrans_of_keeps {α : Type} {g : Core → α} (hg : ∀ c l, g { c with gran := l } = g c) (l : List Nat) (i : EP) :
    g ((setGrans s e st l).core i) = g (s.core i) := by
  induction l generalizing s with
  | nil => rfl
  | cons x l ih => exact ih.trans (core_setGran_of_keeps (g := g) (hg := hg) ..)

theorem granAt_setGrans (h : (tget s.cores e).isSome = true) (l : List Nat) (a : Nat) :
    granAt (setGrans s e st l) e a = if a / 16 ∈ l then st else granAt s e a := by
  induction l generalizing s with
  | nil => simp only [setGrans, List.foldl_nil, List.not_mem_nil, if_false]
  | cons x l ih =>
    have hrest := ih (s := s.setGran e (16 * x) st) (by rwa [core_setGran_isSome])
    rw [granAt_setGran _ _ _ _ h, Nat.mul_div_cancel_left x (by decide)] at hrest
    refine hrest.trans ?_
    by_cases hl : a / 16 ∈ l
    · rw [if_pos hl, if_pos (List.mem_cons_of_mem _ hl)]
    · simp only [hl, if_false, List.mem_cons, or_false]

end setGrans

/-- R54: an ochre granule serves nobody. -/
theorem serve_of_ochre {s : State} {e : EP} {g : Nat} (h : granAt s e (16 * g) = .ochre) (n : Nat) : serve s e g n = s := by
  cases n with
  | zero => rfl
  | succ n =>
    rw [serve, findPos_eq_none]
    intro x _
    rw [h]
    cases x.acc <;> simp

/-- R54, R56: where the granules of a range are ochre, and nothing waits behind the list, nothing is served. -/
theorem serveRange_of_ochre {s : State} {e : EP} {a n : Nat} (h : ∀ g ∈ blocks a n 16, granAt s e (16 * g) = .ochre)
    (ho : (s.core e).overflow = []) : serveRange s e a n = s := by
  have hserve : (blocks a n 16).foldl (fun s g => serve s e g 130) s = s := foldl_fixed fun g hg => serve_of_ochre (h g hg) 130
  rw [serveRange, hserve, ite_self]
  exact admitAll_of_overflow_nil ho

/-- R51: a range without ochre granules has none to clear. -/
theorem clearOchre_of_no_ochre {s : State} {e : EP} (h : ∀ g, granAt s e (16 * g) ≠ .ochre) (a n : Nat) : clearOchre s e a n = s := by
  refine foldl_fixed fun g _ => ?_
  rw [beq_eq_false_iff_ne.2 (h g), Bool.and_false, if_neg Bool.false_ne_true]

/-- R51: the mask of a whole granule. -/
theorem maskIn_whole (g : Nat) : maskIn (16 * g) 16 g = 2 ^ 16 - 1 := by
  have hbits : (List.range 16).map (fun i => if 16 * g ≤ 16 * g + i && 16 * g + i < 16 * g + 16 then 2 ^ i else 0) =
      (List.range 16).map (2 ^ ·) := by
    refine List.map_congr_left fun i hi => ?_
    have := List.mem_range.1 hi
    rw [if_pos (by simpa using this)]
  rw [maskIn, hbits]
  decide

theorem mbytes_mputs_same {m : Memory} (hm : Memory.wf m = true) (a : Nat) (bs : List (BitVec 8)) : mbytes (mputs a bs m) a bs.length = bs := by
  induction bs generalizing a m with
  | nil => rfl
  | cons b bs ih =>
    have hfirst : mget (mputs (a + 1) bs (mput a b m)) a = b := by
      rw [mget_mputs_other _ _ (.inl (Nat.lt_succ_self a)), mget_mput_same a b hm]
    rw [List.length_cons, mbytes, mputs, hfirst, ih (mput_wf a b hm)]

/-- The oldest entry has left the queue. -/
def dequeued (s : State) (e : EP) (rest : List DestEntry) : State := s.modCore e fun c => { c with destQ := rest }

theorem core_dequeued_of_keeps {α : Type} {g : Core → α} (hg : ∀ c l, g { c with destQ := l } = g c) (s : State) (e i : EP)
    (rest : List DestEntry) : g ((dequeued s e rest).core i) = g (s.core i) := core_modCore_of_keeps (fun c => hg c _) s e i

/-- The bytes of the entry stand in the banks. -/
def written (s : State) (e : EP) (x : DestEntry) (rest : List DestEntry) : State := (dequeued s e rest).spadPut e x.addr x.data

theorem core_written_of_keeps {α : Type} {g : Core → α} (hg : ∀ c l m y, g { c with destQ := l, spad := m, upsets := y } = g c) (s : State)
    (e i : EP) (x : DestEntry) (rest : List DestEntry) : g ((written s e x rest).core i) = g (s.core i) :=
  (core_modCore_of_keeps (fun c => hg c c.destQ _ _) _ e i).trans (core_dequeued_of_keeps (fun c l => hg c l c.spad c.upsets) ..)

/-- What a core holds of waiters for its granules and of those that look at its words. -/
def Core.waitView (c : Core) : List VEntry × List (Nat × Req × Carry) × List DtlEntry × List DtlEntry := (c.vbuf, c.watches, c.dtl, c.overflow)

/-- Nothing waits at a core for granules of its, and nobody looks at its words. -/
structure Unwatched (c : Core) : Prop where
  entries : c.vbuf = []
  watches : c.watches = []
  list : c.dtl = []
  overflow : c.overflow = []

theorem Unwatched.congr {c d : Core} (h : Unwatched c) (hd : d.waitView = c.waitView) : Unwatched d where
  entries := (congrArg (·.1) hd).trans h.entries
  watches := (congrArg (·.2.1) hd).trans h.watches
  list := (congrArg (·.2.2.1) hd).trans h.list
  overflow := (congrArg (·.2.2.2) hd).trans h.overflow

section queue
variable {s : State} {e : EP} {x : DestEntry} {rest : List DestEntry}

/-- R189: a sealed entry holds the queue back. -/
theorem exec_destWriteQueueWrite_of_sealed (hq : (s.core e).destQ = x :: rest) (hs : anySealed s e x.addr x.data.length = true) :
    exec (.destWriteQueueWrite e) s = .next s := by
  simp only [exec_destWriteQueueWrite, execDestWriteQueueWrite, hq, hs, if_true]

variable (hq : (s.core e).destQ = x :: rest) (hs : anySealed s e x.addr x.data.length = false)
include hq hs

/-- R126: an error entry makes its granules ochre. -/
theorem exec_destWriteQueueWrite_of_error (hx : x.err = true) (ho : (s.core e).overflow = []) (hc : (tget s.cores e).isSome = true) :
    exec (.destWriteQueueWrite e) s = .next (setGrans (dequeued s e rest) e .ochre (blocks x.addr x.data.length 16)) := by
  have hover : ((setGrans (dequeued s e rest) e .ochre (blocks x.addr x.data.length 16)).core e).overflow = [] := by
    rw [core_setGrans_of_keeps (g := Core.overflow) fun _ _ => rfl]
    exact (core_modCore_of_keeps (g := Core.overflow) (f := fun c => { c with destQ := rest }) (fun _ => rfl) s e e).trans ho
  have hserve : serveRange (setGrans (dequeued s e rest) e .ochre (blocks x.addr x.data.length 16)) e x.addr x.data.length =
      setGrans (dequeued s e rest) e .ochre (blocks x.addr x.data.length 16) := by
    refine serveRange_of_ochre (fun g hg => ?_) hover
    rw [granAt_setGrans (s := dequeued s e rest) (core_modCore_isSome.trans hc), Nat.mul_div_cancel_left g (by decide), if_pos hg]
  simp only [exec_destWriteQueueWrite, execDestWriteQueueWrite, hq, hs, hx, Bool.false_eq_true, if_false, if_true]
  exact congrArg _ hserve

variable (hx : x.err = false) (hw : Unwatched (s.core e))
include hx hw

omit hq hs hx in
theorem abortPlain_of_unwatched (a n : Nat) : abortPlain s e a n = s := abortPlain_of_stackOf_nil fun w _ => by rw [stackOf, hw.entries]; rfl

omit hq hs hx in
theorem served_of_unwatched (a n b m : Nat) : serveRange (answerRange s e a n) e b m = s := by
  rw [answerRange_of_watches_nil hw.watches, serveRange_of_no_waiters hw.list hw.overflow]

/-- The entry's bytes stand in the banks; then its granules change, and who waits for them is served. -/
theorem exec_destWriteQueueWrite_of_unwatched : exec (.destWriteQueueWrite e) s =
    (let s1 := if x.need.isEmpty then clearOchre (written s e x rest) e x.addr x.data.length
      else ((blocks x.addr x.data.length 16).zip x.need).foldl (fun s (g, m) => setFull s e x g m) (written s e x rest)
     .next (serveRange (answerRange s1 e x.addr x.data.length) e x.addr x.data.length)) := by
  have hplain : abortPlain (dequeued s e rest) e x.addr x.data.length = dequeued s e rest :=
    abortPlain_of_unwatched (hw.congr (core_dequeued_of_keeps (fun _ _ => rfl) ..)) ..
  unfold dequeued at hplain
  simp only [exec_destWriteQueueWrite, execDestWriteQueueWrite, hq, hs, hx, hplain, Bool.false_eq_true, if_false]
  rfl

omit hq hs hx hw in
theorem granAt_written (a : Nat) : granAt (written s e x rest) e a = granAt s e a := by
  simp only [granAt, core_written_of_keeps (g := Core.gran) fun _ _ _ _ => rfl]

/-- R137: a plain entry is written, and no more follows. -/
theorem exec_destWriteQueueWrite_of_plain (hn : x.need = []) (hg : ∀ g, granAt s e (16 * g) ≠ .ochre) :
    exec (.destWriteQueueWrite e) s = .next (written s e x rest) := by
  have hw' : Unwatched ((written s e x rest).core e) := hw.congr (core_written_of_keeps (fun _ _ _ _ => rfl) ..)
  have hclear := clearOchre_of_no_ochre (s := written s e x rest) (fun g => granAt_written (16 * g) ▸ hg g) x.addr x.data.length
  rw [exec_destWriteQueueWrite_of_unwatched hq hs hx hw]
  simp only [hn, List.isEmpty_nil, if_true, hclear, served_of_unwatched hw']

omit hq hs hx hw in
theorem blocks_of_granule (ha : 16 ∣ x.addr) : blocks x.addr 16 16 = [x.addr / 16] := by
  obtain ⟨g, hg⟩ := ha
  have hone : (x.addr + 16 - 1) / 16 + 1 - x.addr / 16 = 1 := by omega
  rw [blocks, hone, if_neg (by decide)]
  simp

/-- Every byte of a granule is written, and the count of its bytes is dropped. -/
def filledBefore (s : State) (e : EP) (x : DestEntry) (rest : List DestEntry) : State :=
  dropFill (addFill (written s e x rest) e x.cmd (x.addr / 16) (2 ^ 16 - 1)).2 e x.cmd (x.addr / 16)

/-- The state of a core in which a command has written a granule whole: it is full (R148). -/
def filled (s : State) (e : EP) (x : DestEntry) (rest : List DestEntry) : State :=
  (filledBefore s e x rest).setGran e (16 * (x.addr / 16)) .full

omit hq hs hx hw in
theorem core_filled_of_keeps {α : Type} {g : Core → α} (hg : ∀ c l m, g { c with gran := l, fills := m } = g c) (i : EP) :
    g ((filled s e x rest).core i) = g ((written s e x rest).core i) :=
  (core_setGran_of_keeps (g := g) (hg := fun c l => hg c l c.fills) ..).trans
    ((core_modCore_of_keeps (fun c => hg c c.gran _) _ e i).trans (core_modCore_of_keeps (fun c => hg c c.gran _) _ e i))

omit hq hs hx in
/-- R51, R148: a granule that the entry writes whole turns full. -/
theorem setFull_of_whole (hlen : x.data.length = 16) (ha : 16 ∣ x.addr) (hg : granAt s e x.addr = .empty) (hf : (s.core e).fills = []) :
    setFull (written s e x rest) e x (x.addr / 16) (2 ^ 16 - 1) = filled s e x rest := by
  have haddr : 16 * (x.addr / 16) = x.addr := Nat.mul_div_cancel' ha
  have hempty : granAt (written s e x rest) e (16 * (x.addr / 16)) = .empty := by rw [granAt_written, haddr, hg]
  have hmask : maskIn x.addr x.data.length (x.addr / 16) = 2 ^ 16 - 1 := by
    have hwhole := maskIn_whole (x.addr / 16)
    rw [haddr] at hwhole
    rw [hlen, hwhole]
  have hfills : ((written s e x rest).core e).fills = [] :=
    (core_written_of_keeps (g := Core.fills) (fun _ _ _ _ => rfl) ..).trans hf
  have hadd : (addFill (written s e x rest) e x.cmd (x.addr / 16) (2 ^ 16 - 1)).1 = 2 ^ 16 - 1 := by
    simp only [addFill, hfills, List.find?_nil, Option.map_none, Option.getD_none, Nat.zero_or]
  have hw' : Unwatched ((filled s e x rest).core e) :=
    hw.congr ((core_filled_of_keeps (g := Core.waitView) (fun _ _ _ => rfl) e).trans (core_written_of_keeps (fun _ _ _ _ => rfl) ..))
  have hochre : (GState.empty == GState.ochre) = false := rfl
  simp only [setFull, hempty, hochre, hmask, Bool.false_eq_true, if_false, hadd, Nat.and_self, beq_self_eq_true, if_true]
  exact serveRange_of_no_waiters hw'.list hw'.overflow

/-- R51, R148: an entry that is a whole granule with set-full. -/
theorem exec_destWriteQueueWrite_of_whole (hlen : x.data.length = 16) (ha : 16 ∣ x.addr) (hn : x.need = [2 ^ 16 - 1])
    (hg : granAt s e x.addr = .empty) (hf : (s.core e).fills = []) : exec (.destWriteQueueWrite e) s = .next (filled s e x rest) := by
  have hw' : Unwatched ((filled s e x rest).core e) :=
    hw.congr ((core_filled_of_keeps (g := Core.waitView) (fun _ _ _ => rfl) e).trans (core_written_of_keeps (fun _ _ _ _ => rfl) ..))
  rw [exec_destWriteQueueWrite_of_unwatched hq hs hx hw]
  simp only [hlen, hn, blocks_of_granule ha, List.isEmpty_cons, Bool.false_eq_true, if_false, List.zip_cons_cons, List.zip_nil_right,
    List.foldl_cons, List.foldl_nil, setFull_of_whole hw hlen ha hg hf, served_of_unwatched hw']

end queue

/-- What the end of a copy leaves in its requester's slot. -/
theorem copyEnded_kept (c : Cmd) (t : Thread) : (copyEnded c t).cnt = { t.cnt with cpc := t.cnt.cpc - 1 } ∧
    (copyEnded c t).recs = (if cNotify c.words then t.recs ++ [recordOf c.words c.status c.failed c.bytes] else t.recs) ∧
    (copyEnded c t).regs = t.regs ∧ (copyEnded c t).pc = t.pc := by
  unfold copyEnded
  split
  · exact ⟨rfl, rfl, rfl, rfl⟩
  · exact ⟨rfl, rfl, rfl, rfl⟩

theorem piecesEnd : PiecesEnd := by
  intro s k id len n e p c t x rest c'
  refine ⟨fun ha hb hl hf => ⟨fun hn => becomes_counted ha hb hl hf hn, ?completes⟩,
    fun hq hc hs => ⟨fun hx hn hg hv hwa hd ho => exec_destWriteQueueWrite_of_plain hq hs hx ⟨hv, hwa, hd, ho⟩ hn hg, ?error, ?whole⟩,
    fun hq hs => exec_destWriteQueueWrite_of_sealed hq hs⟩
  case completes =>
    intro hn hd he hland hstatus hnote hout hloc ht _
    have hid : c.id = id := by simpa using List.find?_some hf
    have hdone := completeCmd_of_copy (s := (s.dropPkt k).modCmd id (pieceWritten len)) (c := pieceWritten len c) hland he hnote hloc
    obtain ⟨hcnt, hrecs, hregs, hpc⟩ := copyEnded_kept (pieceWritten len c) t
    have hstatus' : (pieceWritten len c).status = 0 := hstatus
    rw [hstatus'] at hrecs
    refine ⟨_, copyEnded (pieceWritten len c) t, hdone ▸ becomes_completed ha hb hl hf hn hd he hout, ?cmds, ?thread, hcnt, hrecs, hregs, hpc⟩
    case cmds =>
      have hcmds := filter_modCmd (s := s.dropPkt k) (id := id) (f := pieceWritten len) fun _ => rfl
      exact (congrArg (fun i => ((s.dropPkt k).modCmd id (pieceWritten len)).cmds.filter (·.id != i)) hid).trans hcmds
    case thread =>
      exact (thr?_modThr ..).trans (congrArg (Option.map _) ht)
  case error =>
    intro hx hdata ho
    have hlen : 0 < x.data.length := List.length_pos_iff.2 hdata
    refine ⟨_, exec_destWriteQueueWrite_of_error hq hs hx ho hc, ?queue, ?spad, fun a => ?gran⟩
    case queue =>
      rw [core_setGrans_of_keeps (g := Core.destQ) fun _ _ => rfl, dequeued, core_modCore_same hc]
    case spad =>
      rw [core_setGrans_of_keeps (g := Core.spad) fun _ _ => rfl, core_dequeued_of_keeps (g := Core.spad) fun _ _ => rfl]
    case gran =>
      have hkept : granAt (dequeued s e rest) e a = granAt s e a := by
        simp only [granAt, core_dequeued_of_keeps (g := Core.gran) fun _ _ => rfl]
      rw [granAt_setGrans (s := dequeued s e rest) (core_modCore_isSome.trans hc), hkept]
      simp only [mem_blocks hlen]
  case whole =>
    intro hx hlen ha hn hg hv hwa hd ho hf hwf
    have hspad : ((written s e x rest).core e).spad = mputs x.addr x.data (s.core e).spad := by
      rw [written, State.spadPut, core_modCore_same (s := dequeued s e rest) (core_modCore_isSome.trans hc),
        core_dequeued_of_keeps (g := Core.spad) fun _ _ => rfl]
    refine ⟨_, exec_destWriteQueueWrite_of_whole hq hs hx ⟨hv, hwa, hd, ho⟩ hlen ha hn hg hf, ?full, ?bytes, ?queue⟩
    case full =>
      have hsome : (tget (filledBefore s e x rest).cores e).isSome = true :=
        core_modCore_isSome.trans (core_modCore_isSome.trans (core_modCore_isSome.trans (core_modCore_isSome.trans hc)))
      rw [filled, granAt_setGran _ _ _ _ hsome, Nat.mul_div_cancel_left _ (by decide), if_pos rfl]
    case bytes =>
      rw [core_filled_of_keeps (g := Core.spad) fun _ _ _ => rfl, hspad, ← hlen, mbytes_mputs_same hwf]
    case queue =>
      rw [core_filled_of_keeps (g := Core.destQ) fun _ _ _ => rfl, written, State.spadPut,
        core_modCore_same (s := dequeued s e rest) (core_modCore_isSome.trans hc), dequeued, core_modCore_same hc]

end Sys2Proof.Machine
end

section
/-! Code segments (R71, R74, R471). -/

namespace Sys2Proof.Machine

/-- What the end of a landing leaves in the registers of its core (R471). -/
def landingEnded (fail : Bool) (c : Core) : Core := { c with mgmt := { c.mgmt with codeBusy := false, codeFail := fail } }

section landing
variable {s : State} {c : Cmd}

/-- R71, R74: the end of a landing changes its core and the list of commands. -/
theorem completeCmd_of_landing (hl : c.landing = true) : (completeCmd s c).cmds = s.cmds.filter (·.id != c.id) ∧
    (completeCmd s c).cores = (s.modCore c.ep (landingEnded (c.status != 0))).cores := by
  rw [completeCmd, if_pos hl]
  dsimp only
  split
  · exact ⟨rfl, rfl⟩
  · exact ⟨rfl, rfl⟩

theorem core_completeCmd_of_landing (hl : c.landing = true) (hc : (tget s.cores c.ep).isSome = true) :
    (completeCmd s c).core c.ep = landingEnded (c.status != 0) (s.core c.ep) :=
  (congrArg (fun t => (tget t c.ep).getD (Core.start (kindOf c.ep))) (completeCmd_of_landing hl).2).trans (core_modCore_same hc)

end landing

/-- The command of a landing (R71, R471). -/
def landingCmd (s : State) (e : EP) (src seg : Nat) : Cmd :=
  { id := s.nextUid, engine := 2, ep := e, req := ⟨e, 0, 0, 0, 0, 0, 17, 0⟩, carry := ⟨never, 0, epPkg e⟩,
    words := [word (2 + 2 ^ 16 + 3 * 2 ^ 24), word src, word (seg * 4096), 0, 512, 0, 0, 0], dims := [(512, 0, 0)], lbase := 0, peermap := 0,
    done := 0, total := 4096, mark := 0, flying := 0, failed := 0, bytes := 0, fault := false, refused := false, annulled := false,
    asked := false, pattern := none, landing := true }

/-- R71: a segment lands at its place in the scratchpad. -/
theorem landingCmd_base_one (s : State) (e : EP) (src seg : Nat) : (landingCmd s e src (seg % 512)).base 1 = seg % 512 * 4096 := by
  have hword : (word (seg % 512 * 4096)).toNat = seg % 512 * 4096 := by
    rw [word, BitVec.toNat_ofNat]
    omega
  exact hword

/-- R71, R471: a segment comes from the frame that CODESRC names. -/
theorem landingCmd_base_zero (s : State) (e : EP) (x seg : Nat) :
    (landingCmd s e (bitsAt x 55 12 * 4096) seg).base 0 = x / 2 ^ 12 % 2 ^ 44 * 4096 := by
  have hword : (word (bitsAt x 55 12 * 4096)).toNat = x / 2 ^ 12 % 2 ^ 44 * 4096 := by
    rw [word, BitVec.toNat_ofNat, bitsAt]
    omega
  exact hword

/-- A core whose landing has started. -/
def landingStarted (seg : Nat) (c : Core) : Core := { c with mgmt := { c.mgmt with codeSeg := seg, codeBusy := true, codeFail := false } }

section codeseg
variable {s : State} {e : EP} {w : Word} {c : Core} (hc : s.core? e = some c)
include hc

theorem core_of_core? : s.core e = c := congrArg (Option.getD · _) hc

omit hc in
theorem isSome_of_core? (hc : s.core? e = some c) : (tget s.cores e).isSome = true := Option.isSome_of_eq_some hc

theorem codesegWrite_of_busy (hb : c.mgmt.codeBusy = true) : codesegWrite s e w = s := by
  simp only [codesegWrite, hc, hb, if_true]

theorem codesegWrite_of_idle (hb : c.mgmt.codeBusy = false) : codesegWrite s e w =
    (let seg := w.toNat % 512
     let s1 := s.modCore e (landingStarted seg)
     let cmd := landingCmd s e (bitsAt c.mgmt.codesrc.toNat 55 12 * 4096) seg
     if xbBytes c ≤ seg * 4096 then completeCmd s1 { cmd with refused := true }
     else { s1 with cmds := s.cmds ++ [cmd], nextUid := s.nextUid + 1 }) := by
  simp only [codesegWrite, hc, hb, Bool.false_eq_true, if_false]
  rfl

end codeseg

/-- A segment as it has landed. -/
def segmentLanded (seg : Nat) (c : Core) : Core := { c with landed := c.landed ||| 1#384 <<< seg }

theorem segmentsLand : SegmentsLand := by
  intro s e w c k m
  refine ⟨fun hc hcore => ?unreleased, fun hc hb => ?busy, fun hc hb hx => ?starts, fun hc hb hx => ?above,
    fun hm heng hcut hfly hstatus hland hep hc => ⟨fun hq => ?lands, fun hq => ?waits⟩⟩
  case unreleased =>
    simp only [exec_codesegWrite, execCodesegWrite, codesegWrite, hc, hcore, if_true]
  case busy =>
    rw [exec_codesegWrite, execCodesegWrite, codesegWrite_of_busy hc hb]
  case starts =>
    refine ⟨{ s.modCore e (landingStarted (w.toNat % 512)) with
        cmds := s.cmds ++ [landingCmd s e (bitsAt c.mgmt.codesrc.toNat 55 12 * 4096) (w.toNat % 512)], nextUid := s.nextUid + 1 },
      landingCmd s e (bitsAt c.mgmt.codesrc.toNat 55 12 * 4096) (w.toNat % 512), ?next, rfl, rfl, rfl, rfl, rfl,
      landingCmd_base_one .., ?source, ?mgmt⟩
    case next =>
      rw [exec_codesegWrite, execCodesegWrite, codesegWrite_of_idle hc hb]
      simp only [Nat.not_le.2 hx, if_false]
    case source => exact landingCmd_base_zero ..
    case mgmt =>
      have hstarted := core_modCore_same (f := landingStarted (w.toNat % 512)) (isSome_of_core? hc)
      exact congrArg Core.mgmt (hstarted.trans (congrArg _ (core_of_core? hc)))
  case above =>
    refine ⟨completeCmd (s.modCore e (landingStarted (w.toNat % 512)))
        { landingCmd s e (bitsAt c.mgmt.codesrc.toNat 55 12 * 4096) (w.toNat % 512) with refused := true },
      ?next, (completeCmd_of_landing rfl).1, ?mgmt⟩
    case next =>
      rw [exec_codesegWrite, execCodesegWrite, codesegWrite_of_idle hc hb]
      simp only [hx, if_true]
    case mgmt =>
      have hended := core_completeCmd_of_landing (s := s.modCore e (landingStarted (w.toNat % 512)))
        (c := { landingCmd s e (bitsAt c.mgmt.codesrc.toNat 55 12 * 4096) (w.toNat % 512) with refused := true }) rfl
        (core_modCore_isSome.trans (isSome_of_core? hc))
      have hstarted := core_modCore_same (f := landingStarted (w.toNat % 512)) (isSome_of_core? hc)
      rw [core_of_core? hc] at hstarted
      exact congrArg Core.mgmt (hended.trans (congrArg _ hstarted))
  case lands =>
    have hfree : (s.core m.req.ep).destQ.any (fun q => q.cmd == m.id) = false := by
      rw [← hep, core_of_core? hc, List.any_eq_false]
      intro q hmem
      simpa using hq q hmem
    have hlanded := core_modCore_same (f := segmentLanded (cwn m.words 2 / 4096)) (isSome_of_core? hc)
    have hended := core_completeCmd_of_landing (s := s.modCore m.ep (segmentLanded (cwn m.words 2 / 4096))) hland
      (core_modCore_isSome.trans (isSome_of_core? hc))
    rw [hlanded, core_of_core? hc, hstatus] at hended
    refine ⟨completeCmd (s.modCore m.ep (segmentLanded (cwn m.words 2 / 4096))) m, ?next, (completeCmd_of_landing hland).1,
      congrArg Core.landed hended, congrArg Core.mgmt hended⟩
    case next =>
      simp only [exec_codeSegmentLanded, execCodeSegmentLanded, hm, heng, hcut, hfly, hstatus, hfree, beq_self_eq_true, decide_true, Bool.not_false,
        Bool.and_self, if_true, hep]
      rfl
  case waits =>
    have hheld : (s.core m.req.ep).destQ.any (fun q => q.cmd == m.id) = true := by
      rw [← hep, core_of_core? hc, List.any_eq_true]
      obtain ⟨q, hmem, hid⟩ := hq
      exact ⟨q, hmem, beq_iff_eq.2 hid⟩
    simp only [exec_codeSegmentLanded, execCodeSegmentLanded, hm, hheld, Bool.not_true, Bool.and_false, Bool.false_eq_true, if_false]

end Sys2Proof.Machine
end

section
/-! Program commands (R84, R85, R269, R420). -/

namespace Sys2Proof.Machine

section arrival
variable {s : State} {k : Nat} {p : Pkt} {ws : Packet} (ha : Arrives s k p) (hb : p.body = .program ws)
  (hx : expired s p.dst p.carry = false)
include ha hb hx

/-- R84, R420: the queue has room. -/
theorem becomes_program_queued (hw : wrongChannel s p.dst p = false) (hg : hasProgram s p.dst p.req.ctx = true)
    (hr : (s.core p.dst).mem.progs.length < 64) : Becomes (.programCommandArrival k) s p ((refInc ((s.dropPkt k).modCore p.dst fun c =>
      { c with mem := { c.mem with progs := c.mem.progs ++ [(p.req.ctx, p.carry, p.req, ws)] } }) (epPkg p.dst) p.carry.hnd.toNat).answer
        p.dst p.req p.carry .placed) := by
  simp only [Becomes, exec_programCommandArrival, execProgramCommandArrival, onPacket_of_arrives ha, hb, hx, hw, hg, Nat.not_le.2 hr,
    Bool.not_true, Bool.or_self, Bool.false_eq_true, if_false]
  rfl

/-- R84: the command waits for room. -/
theorem exec_programCommandArrival_of_full (hw : wrongChannel s p.dst p = false) (hg : hasProgram s p.dst p.req.ctx = true)
    (hr : 64 ≤ (s.core p.dst).mem.progs.length) : exec (.programCommandArrival k) s = .next s := by
  rw [exec_programCommandArrival, execProgramCommandArrival, onPacket_of_stays ha]
  simp only [hb, hx, hw, hg, hr, Bool.not_true, Bool.or_self, Bool.false_eq_true, if_false, if_true]

/-- R85, R111: the command is refused. -/
theorem becomes_program_refused (hn : wrongChannel s p.dst p = true ∨ hasProgram s p.dst p.req.ctx = false) :
    Becomes (.programCommandArrival k) s p ((s.dropPkt k).answer p.dst p.req p.carry .refused) := by
  have hno : (wrongChannel s p.dst p || !hasProgram s p.dst p.req.ctx) = true := by simpa using hn
  have hprobed : p.probed = false := by rw [Pkt.probed, hb]
  have hrefused : refusePkt s k p.dst p = (s.dropPkt k).answer p.dst p.req p.carry .refused := by
    simp only [refusePkt, hb, takePkt_of_not_probed hprobed]
  simp only [Becomes, exec_programCommandArrival, execProgramCommandArrival, onPacket_of_arrives ha, hb, hx, hno, hrefused, Bool.false_eq_true,
    if_false, if_true]

end arrival

section receive
variable {s : State} {e : EP} {t : Thread} {ws : Packet}

theorem Thread.putG_pair (t : Thread) (r : Reg) (v : Word) : (t.putG r v).pair = t.pair := by
  rw [Thread.putG, Thread.setG]
  split
  · rfl
  · rfl

theorem Thread.putP_pair (t : Thread) (q : Pred) (b : Bool) : (t.putP q b).pair = t.pair := by
  rw [Thread.putP]
  split
  · rfl
  · rfl

theorem foldl_putG_pair {α : Type} (r : α → Reg) (v : α → Word) (l : List α) (t : Thread) :
    (l.foldl (fun t x => t.putG (r x) (v x)) t).pair = t.pair := by
  induction l generalizing t with
  | nil => rfl
  | cons x l ih => exact (ih _).trans (t.putG_pair _ _)

/-- R269: a thread that received a packet waits no more, keeps its partner, and holds the packet's WID. -/
structure Received (t t' : Thread) (ws : Packet) : Prop where
  park : t'.park = none
  pair : t'.pair = t.pair
  wid : t'.sr.wid = ws.getD 1 0

theorem received : Received t (receive s e t ws) ws := by
  have hwid : word (ws.getD 1 0).toNat = ws.getD 1 0 := BitVec.ofNat_toNat ..
  unfold receive
  extract_lets w cleared record started regs specials woken
  have hcleared : cleared.pair = t.pair :=
    foldl_putG_pair (BitVec.ofNat 5) (fun i => if 1 ≤ i && i ≤ 8 then ws.getD (i - 1) 0 else 0) (List.range 32) t
  clear_value cleared
  have hpark : woken.park = none := by
    unfold woken
    split
    · rfl
    · rfl
  have hpair : woken.pair = t.pair := by
    unfold woken
    split
    next d _ _ _ _ _ _ _ =>
      exact (Thread.putP_pair ..).trans (foldl_putG_pair (fun x : Word × Nat => d + BitVec.ofNat 5 x.2) (·.1) ws.zipIdx t)
    next => exact hcleared
  clear_value woken
  split
  · exact ⟨hpark, hpair, hwid⟩
  · split
    · exact ⟨hpark, hpair, hwid⟩
    · exact ⟨hpark, hpair, hwid⟩

end receive

/-- R212, R325: HANDLE written with an instant and a handle holds both. -/
theorem setHandle_handleWord (t : Thread) (i : Instant) (h : Handle) :
    t.setHandle (handleWord i h) = { t with sr := { t.sr with inst := i, hnd := h } } := by
  have hi := i.isLt
  have hh := h.isLt
  have hword : (handleWord i h).toNat = i.toNat * 2 ^ 16 + h.toNat := by
    rw [handleWord, BitVec.toNat_ofNat]
    omega
  have hinst : BitVec.ofNat 48 ((i.toNat * 2 ^ 16 + h.toNat) / 2 ^ 16) = i := BitVec.eq_of_toNat_eq (by rw [BitVec.toNat_ofNat]; omega)
  have hhnd : BitVec.ofNat 16 (i.toNat * 2 ^ 16 + h.toNat) = h := BitVec.eq_of_toNat_eq (by rw [BitVec.toNat_ofNat]; omega)
  rw [Thread.setHandle, hword, hinst, hhnd]

theorem core_keepPri_of_keeps {α : Type} {g : Core → α} (hg : ∀ c l, g { c with pris := l } = g c) (s : State) (e i : EP) (l : List Nat)
    (p : BitVec 3) : g ((s.keepPri e l p).core i) = g (s.core i) := core_modCore_of_keeps (fun c => hg c _) s e i

theorem thr?_keepPri (s : State) (e i : EP) (l : List Nat) (p : BitVec 3) (n : Nat) : (s.keepPri e l p).thr? i n = s.thr? i n :=
  thr?_modCore_of_slots (f := fun c => { c with pris := l.foldl (fun m k => tput k p m) c.pris }) (fun _ => rfl) n

section delivery
variable {s : State} {e : EP} {n : Nat} {t : Thread} {ws : Packet} (ht : s.thr? e n = some t) (hp : t.pair = none)
include ht hp

theorem deliver_of_unpaired : deliver s e n ws =
    (s.modThr e n fun x => receive s e x ws).keepPri e [n] (BitVec.ofNat 3 ((ws.getD 0 0).toNat / 2 ^ 32)) := by
  simp only [deliver, ht, hp, pairSlots]

theorem thr?_deliver : (deliver s e n ws).thr? e n = some (receive s e t ws) := by
  rw [deliver_of_unpaired ht hp, thr?_keepPri, thr?_modThr, ht, Option.map_some]

/-- R84, R212, R269: a command delivered to a thread that has no partner. -/
theorem deliverCommand_of_unpaired (c : Carry) : deliverCommand s e n ws c =
    (deliver s e n ws).modThr e n (·.setHandle (handleWord c.inst c.hnd)) := by
  have hpair : (receive s e t ws).pair = none := received.pair.trans hp
  simp only [deliverCommand, thr?_deliver ht hp, hpair]

theorem mem_deliverCommand (c : Carry) : ((deliverCommand s e n ws c).core e).mem = (s.core e).mem := by
  rw [deliverCommand_of_unpaired ht hp, deliver_of_unpaired ht hp, core_modThr_of_keeps (g := Core.mem) fun _ _ => rfl,
    core_keepPri_of_keeps (g := Core.mem) fun _ _ => rfl, core_modThr_of_keeps (g := Core.mem) fun _ _ => rfl]

/-- R212, R269: what the thread holds after the delivery of a command. -/
theorem thr?_deliverCommand (c : Carry) : (deliverCommand s e n ws c).thr? e n =
    some { receive s e t ws with sr := { (receive s e t ws).sr with inst := c.inst, hnd := c.hnd } } := by
  rw [deliverCommand_of_unpaired ht hp, thr?_modThr, thr?_deliver ht hp, Option.map_some, setHandle_handleWord]

end delivery

/-- A thread that may take a command of a context (R84, R85, R269). -/
def takesCommand (e : EP) (ctx : Ctx) (x : Nat × Thread) : Bool :=
  x.2.waitsWork && !x.2.trails && !x.2.stopped && x.2.ctx == ctx && !isVisitor e x.1

/-- The oldest command has left its program queue. -/
def commandTaken (s : State) (e : EP) : State := s.modMem e fun m => { m with progs := dropAt 0 m.progs }

theorem thr?_commandTaken (s : State) (e i : EP) (n : Nat) : (commandTaken s e).thr? i n = s.thr? i n :=
  thr?_modCore_of_slots (f := fun c => { c with mem := { c.mem with progs := dropAt 0 c.mem.progs } }) (fun _ => rfl) n

/-- A thread in the table of a core's slots is the thread of that slot. -/
theorem thr?_of_slots {s : State} {e : EP} {n : Nat} {t : Thread} {l : Table Thread} (h : (s.core e).slots = (n, t) :: l) :
    s.thr? e n = some t := by
  rw [State.core] at h
  rw [State.thr?]
  cases hc : tget s.cores e with
  | none =>
    rw [hc] at h
    cases h
  | some c =>
    have hslots : c.slots = (n, t) :: l := by rwa [hc] at h
    rw [Option.bind_some, hslots, tget, beq_self_eq_true, if_pos rfl]

section take
variable {s : State} {e : EP} {n : Nat} {t : Thread} {x : Ctx × Carry × Req × Packet} {rest : List (Ctx × Carry × Req × Packet)}
  (hl : (s.core e).mem.progs = x :: rest) (hx : ∀ y ∈ x :: rest, expired s e y.2.1 = false) (hq : quiet s e = true)
  (hs : (s.core e).slots = [(n, t)])
include hl hx hq hs

/-- R84: a thread of the oldest command's context waits. -/
theorem exec_programCommandDelivery_of_takes (ht : takesCommand e x.1 (n, t) = true) :
    exec (.programCommandDelivery e) s = .next (deliverCommand (commandTaken s e) e n x.2.2.2 x.2.1) := by
  have hlive : findPos (fun y : Ctx × Carry × Req × Packet => expired s e y.2.1) (x :: rest) = none := findPos_eq_none hx
  have hfound : ([(n, t)].find? fun y => y.2.waitsWork && !y.2.trails && !y.2.stopped && y.2.ctx == x.1 && !isVisitor e y.1) = some (n, t) :=
    List.find?_cons_of_pos ht
  simp only [exec_programCommandDelivery, execProgramCommandDelivery, hl, hlive, hq, hs, findPos, hfound, Option.isSome_some, if_true,
    List.getElem?_cons_zero, Bool.not_true, Bool.false_eq_true, if_false, commandTaken]

/-- R84: the only command is of another context than the only thread. -/
theorem exec_programCommandDelivery_of_other_ctx (hc : t.ctx ≠ x.1) (hr : rest = []) : exec (.programCommandDelivery e) s = .next s := by
  subst hr
  have hlive : findPos (fun y : Ctx × Carry × Req × Packet => expired s e y.2.1) [x] = none := findPos_eq_none hx
  have hother : (t.ctx == x.1) = false := beq_eq_false_iff_ne.2 hc
  simp only [exec_programCommandDelivery, execProgramCommandDelivery, hl, hlive, hq, hs, findPos, List.find?_cons, List.find?_nil, hother,
    Bool.and_false, Bool.false_and, Option.isSome_none, Option.map_none, Bool.not_true, Bool.false_eq_true, if_false]

end take

theorem programCommands : ProgramCommands := by
  intro s k n p ws e t x rest
  refine ⟨fun ha hb hx => ⟨fun hw hg hr => becomes_program_queued ha hb hx hw hg hr,
      fun hw hg hr => exec_programCommandArrival_of_full ha hb hx hw hg hr, fun hn => becomes_program_refused ha hb hx hn⟩,
    fun hl hx hq hs hw hp hstop hv => ⟨fun hctx => ?taken, fun hctx hr => exec_programCommandDelivery_of_other_ctx hl hx hq hs hctx hr⟩⟩
  case taken =>
    have htakes : takesCommand e x.1 (n, t) = true := by
      simp only [takesCommand, Thread.trails, hw, hp, hstop, hv, hctx, beq_self_eq_true, Bool.not_false, Bool.and_self]
    have ht : s.thr? e n = some t := thr?_of_slots hs
    have ht' : (commandTaken s e).thr? e n = some t := (thr?_commandTaken ..).trans ht
    have hprogs : ((commandTaken s e).core e).mem.progs = rest := by
      rw [commandTaken, State.modMem, core_modCore_same (core_isSome_of_thr? ht), hl, dropAt]
    have hreceived : Received t (receive (commandTaken s e) e t x.2.2.2) x.2.2.2 := received
    exact ⟨_, _, exec_programCommandDelivery_of_takes hl hx hq hs htakes, (congrArg MemCore.progs (mem_deliverCommand ht' hp _)).trans hprogs,
      thr?_deliverCommand ht' hp _, hreceived.park, rfl, rfl, hreceived.wid⟩

/-- Settles O46, part by part: the packets and commands that arrive, the queues that they join and leave, and the ends of commands. -/
theorem engineEvents : Obligations.EngineEvents := ⟨piecesLeave, piecesArrive, piecesEnd, segmentsLand, programCommands⟩

end Sys2Proof.Machine
end

section
/-! Waits with a timeout (R259, R260) and the instructions that order a thread's accesses: FENCE, WAITC and XFENCE (R142 to R145). -/

namespace Sys2Proof.Machine

section waiting
variable {i : Instr} {s : State} {e : EP} {u : Turn} {t : Thread} {c : Until} {w : Word} {kind : Nat}

/-- R260: a wait of the instruction's own that has begun ends once the cycle of its end is over. -/
theorem waitedOut_of_begun {limit : Option Nat} {k : Park} (hk : t.park.filter (·.why.own) = some k) :
    waitedOut s e t limit = true ↔ ∃ n, k.limit = some n ∧ n < (s.core e).cycle := by
  simp only [waitedOut, hk]
  cases k.limit <;> simp [limitOver]

/-- R260: where no wait of the instruction's own has begun, timeout 0 alone ends it. -/
theorem waitedOut_of_not_begun (hk : t.park.filter (·.why.own) = none) : waitedOut s e t (deadline s e w) = true ↔ w = 0 := by
  have hsame : waitedOut s e t (deadline s e w) = waitedOut s e { t with park := none } (deadline s e w) := by
    simp only [waitedOut, hk, Option.filter_none]
  rw [hsame]
  exact waitedOut_of_park_none rfl

variable (he : exec i s = .next (s.waitFor u t c w kind))
include he

/-- R260: a wait that is over sets p7 = 0. -/
theorem retires_of_exec_waitFor (ho : waitedOut s u.ep t (deadline s u.ep w) = true) : Retires i s u (·.p7 false) := by
  rw [Retires, he, State.waitFor, if_pos ho]

/-- R259: a wait that is not over parks the thread. -/
theorem waits_of_exec_waitFor (ht : s.thr? u.ep u.slot = some t) (ho : ¬ waitedOut s u.ep t (deadline s u.ep w) = true) :
    Waits i s u t c := by
  rw [State.waitFor, if_neg ho] at he
  exact waits_of_exec_parkAt he ht rfl

end waiting

section fence
variable {s : State} {u : Turn} {t : Thread} {gd : Guard} {d a : Reg} {mask : BitVec 8} (h : Issues s u t (.fence gd d a mask))
include h

/-- R144: a FENCE of a thread at home whose paths are drained hands over the sticky bits. -/
theorem retires_fence_of_drained (hd : drainedMask s u.ep t mask (hostMark s u.ep t) = true) (ho : t.origin = none) :
    Retires (.fence gd d a mask) s u fun t => ({ t with sr := { t.sr with sticky := 0 } }.putG d t.sr.sticky).p7 true := by
  rw [Retires, exec_fence, execFence, issue_next h rfl rfl (by decide) (by decide) (lacks_tail (by decide) · · · _ _) (.inr rfl)]
  simp only [hd, ho, if_true]

/-- R377: a migrant's FENCE asks its origin for the sticky bits. -/
theorem exec_fence_of_migrant {o : Origin} (hd : drainedMask s u.ep t mask (hostMark s u.ep t) = true) (ho : t.origin = some o) :
    exec (.fence gd d a mask) s =
      .next (s.ask u t o.ep (vcOfThread s u.ep t) 0 .fullEmpty 7 0 d 0 8 (.sticky d)) := by
  rw [exec_fence, execFence, issue_next h rfl rfl (by decide) (by decide) (lacks_tail (by decide) · · · _ _) (.inr rfl)]
  simp only [hd, ho, if_true]

/-- R144: a FENCE whose paths are not drained waits for them. -/
theorem exec_fence_of_undrained (hd : drainedMask s u.ep t mask (hostMark s u.ep t) = false) :
    exec (.fence gd d a mask) s = .next (s.waitFor u t (.drained mask (hostMark s u.ep t)) (gr t a)) := by
  rw [exec_fence, execFence, issue_next h rfl rfl (by decide) (by decide) (lacks_tail (by decide) · · · _ _) (.inr rfl)]
  simp only [hd, Bool.false_eq_true, if_false]

end fence

/-- Settles O25: by whether the paths are drained, and then by whether the thread is a migrant or whether its wait is over. -/
theorem fenceInstruction : Obligations.FenceInstruction := by
  unfold Obligations.FenceInstruction
  intro s u t gd d a mask h begun drained isOver
  have hbegun : hostMark s u.ep t = begun := by
    simp only [hostMark, begun]
    rcases t.park with _ | ⟨why, _⟩
    · rfl
    · cases why with
      | again c => cases c <;> rfl
      | _ => rfl
  have hdrained : drainedMask s u.ep t mask (hostMark s u.ep t) = drained := by rw [hbegun]
  have hover : waitedOut s u.ep t (deadline s u.ep (gr t a)) = true ↔ isOver := by
    cases hk : t.park.filter (·.why.own) with
    | none => simpa only [isOver, hk] using waitedOut_of_not_begun hk
    | some k => simpa only [isOver, hk] using waitedOut_of_begun hk
  refine ⟨fun hd ho => ?home, fun hd _ o ho => ?migrant, fun hd ho => ?timedOut, fun hd ho => ?waits⟩
  case home => exact retires_fence_of_drained h (hdrained.trans hd) ho
  case migrant => exact asks_of_exec_ask (exec_fence_of_migrant h (hdrained.trans hd) ho) h.thread h.calm
  case timedOut => exact retires_of_exec_waitFor (exec_fence_of_undrained h (hdrained.trans hd)) (hover.2 ho)
  case waits =>
    rw [← hbegun]
    exact waits_of_exec_waitFor (exec_fence_of_undrained h (hdrained.trans hd)) h.thread (mt hover.1 ho)

theorem countersOk_iff {t : Thread} {ld st cp tl : Nat} :
    countersOk t ld st cp tl = true ↔ t.cnt.ldc ≤ ld ∧ t.cnt.stc ≤ st ∧ t.cnt.cpc ≤ cp ∧ t.cnt.tlc ≤ tl := by
  simp only [countersOk, Bool.and_eq_true, decide_eq_true_eq, and_assoc]

/-- Byte k of a number. -/
theorem bitsAt_byte (w k : Nat) : bitsAt w (8 * k + 7) (8 * k) = w / 2 ^ (8 * k) % 2 ^ 8 := by
  rw [bitsAt, show 8 * k + 7 + 1 - 8 * k = 8 by omega]

/-- R371: WAITC tests the counters against the bytes of its immediate. -/
theorem exec_waitc_of_issues {s : State} {u : Turn} {t : Thread} {gd : Guard} {a : Reg} {imm : BitVec 32}
    (h : Issues s u t (.waitc gd a imm)) : exec (.waitc gd a imm) s = .next (
      let lim := fun k => imm.toNat / 2 ^ (8 * k) % 2 ^ 8
      if countersOk t (lim 0) (lim 1) (lim 2) (lim 3) then s.retire u (·.p7 true)
      else s.waitFor u t (.counters (lim 0) (lim 1) (lim 2) (lim 3)) (gr t a)) := by
  rw [exec_waitc, execWaitc, issue_next h rfl rfl (by decide) (by decide) (lacks_tail (by decide) · · · _ _) (.inr rfl)]
  simp only [bitsAt_byte]

/-- R142, R371: by whether the counters stand within their limits, and then by the timeout. -/
theorem waitForCounters : WaitForCounters := by
  unfold WaitForCounters
  intro s u t gd a imm hpark h lim holds
  have hex := exec_waitc_of_issues h
  have hholds : countersOk t (lim 0) (lim 1) (lim 2) (lim 3) = true ↔ holds := countersOk_iff
  have hwait (hn : ¬ holds) : exec (.waitc gd a imm) s =
      .next (s.waitFor u t (.counters (lim 0) (lim 1) (lim 2) (lim 3)) (gr t a)) := hex.trans (congrArg _ (if_neg (mt hholds.1 hn)))
  refine ⟨fun hy => ?holds, fun hn ha => ?refused, fun hn ha => ?waits⟩
  case holds => exact hex.trans (congrArg _ (if_pos (hholds.2 hy)))
  case refused => exact retires_of_exec_waitFor (hwait hn) ((waitedOut_of_park_none hpark).2 ha)
  case waits => exact waits_of_exec_waitFor (hwait hn) h.thread (mt (waitedOut_of_park_none hpark).1 ha)

section xfAdvance
variable {s : State} {e : EP} {t : Thread} {x : XFence}

/-- R145: step 2 changes only what an XFENCE waits for. -/
theorem xfAdvance_keeps : (xfAdvance s e t x).frm = x.frm ∧ (xfAdvance s e t x).tgt = x.tgt ∧ (xfAdvance s e t x).pc = x.pc := by
  unfold xfAdvance
  split <;> exact ⟨rfl, rfl, rfl⟩

/-- R145: an XFENCE that begins has ended where its paths are drained and no entry of the queues of its paths is left. -/
theorem xfence_ended_iff (hx : x.step2 = false) : ((xfAdvance s e t x).step2 && xfWritten s e (xfAdvance s e t x)) = true ↔
    drainedMask s e t x.frm x.hostUpTo = true ∧
      (x.frm &&& 0xC2 ≠ 0 → ∀ q ∈ (s.core e).destQ, (s.core e).destNum ≤ q.num) ∧
      (x.frm &&& 0x04 ≠ 0 → ∀ q ∈ (s.core e).tileQ, (s.core e).tileNum ≤ q.num) := by
  have upTo (p : Prop) [Decidable p] (n m : Nat) : (if p then n else 0) ≤ m ↔ (p → n ≤ m) := by
    by_cases hp : p <;> simp [hp]
  cases hd : drainedMask s e t x.frm x.hostUpTo with
  | false => simp [xfAdvance, hd, hx]
  | true =>
    simp only [xfAdvance, hd, hx, xfWritten, Bool.not_true, Bool.or_self, Bool.false_eq_true, if_false, Bool.true_and, Bool.and_eq_true,
      List.all_eq_true, decide_eq_true_eq, upTo, bne_iff_ne, true_and]
    exact and_congr ⟨fun h hp q hq => h q hq hp, fun h q hq hp => h hp q hq⟩ ⟨fun h hp q hq => h q hq hp, fun h q hq hp => h hp q hq⟩

end xfAdvance

/-- The XFENCE of an instruction as it issues (R145, R373). -/
def issuedXfence (s : State) (u : Turn) (t : Thread) (a : Reg) (frm tgt : BitVec 8) : XFence :=
  ⟨frm, tgt, t.pc, deadline s u.ep (gr t a), false, 0, 0, (s.pkg (epPkg u.ep)).hostWrites⟩

/-- R373: XFENCE ends, is refused or is pending. -/
theorem exec_xfence_of_issues {s : State} {u : Turn} {t : Thread} {gd : Guard} {a : Reg} {frm tgt : BitVec 8}
    (h : Issues s u t (.xfence gd a frm tgt)) : exec (.xfence gd a frm tgt) s = .next (
      let x := xfAdvance s u.ep t (issuedXfence s u t a frm tgt)
      if frm == 0 || (x.step2 && xfWritten s u.ep x) then s.retire u (·.p7 true)
      else if gr t a == 0 then s.retire u (·.p7 false)
      else s.retire u fun t => { t with xf := some x, sb := t.sb.setIfInBounds 16 ⟨.sent, 7, 0, 0, t.pc, false⟩ }) := by
  rw [exec_xfence, execXfence, issue_next h rfl rfl (by decide) (by decide) (lacks_tail (by decide) · · · _ _) (.inr rfl)]
  rfl

/-- R145, R373, R485: by whether there is something to wait for, and then by the timeout. -/
theorem crossFence : CrossFence := by
  unfold CrossFence
  intro s u t gd a frm tgt h host done
  have hex := exec_xfence_of_issues h
  generalize hx : xfAdvance s u.ep t (issuedXfence s u t a frm tgt) = x at hex
  have hdone : (frm == 0 || (x.step2 && xfWritten s u.ep x)) = true ↔ frm = 0 ∨ done := by
    rw [Bool.or_eq_true, beq_iff_eq, ← hx]
    exact or_congr_right (xfence_ended_iff rfl)
  obtain ⟨hfrm, htgt, hpc⟩ : x.frm = frm ∧ x.tgt = tgt ∧ x.pc = t.pc := hx ▸ xfAdvance_keeps
  refine ⟨fun hy => ?ended, fun hf hn ha => ?refused, fun hf hn ha => ?pending⟩
  case ended => exact hex.trans (congrArg _ (if_pos (hdone.2 hy)))
  case refused =>
    exact hex.trans (congrArg _ ((if_neg (mt hdone.1 (not_or.2 ⟨hf, hn⟩))).trans (if_pos (beq_iff_eq.2 ha))))
  case pending =>
    have hpending := hex.trans (congrArg _ ((if_neg (mt hdone.1 (not_or.2 ⟨hf, hn⟩))).trans (if_neg (mt beq_iff_eq.1 ha))))
    exact ⟨_, _, x, hpending, (thr?_retire ..).trans (congrArg (Option.map _) h.thread), rfl, hfrm, htgt, hpc, rfl, rfl, rfl⟩

/-- Settles O26: WAITC ends, is refused or waits; XFENCE ends, is refused or is pending. -/
theorem counterWaitsAndCrossFence : Obligations.CounterWaitsAndCrossFence := ⟨waitForCounters, crossFence⟩

end Sys2Proof.Machine
end

section
/-! The lapse test and NARROW (R201, R202, R213, R216, R432): the instants compared modulo 2^48, and O29 and O30. -/

namespace Sys2Proof.Machine

/-- R201: the time from one instant to another, modulo 2^48, as a number. -/
theorem sub_toNat_eq_mod (now : Word) (inst : Instant) :
    (now.setWidth 48 - inst).toNat = (now.toNat % 2 ^ 48 + 2 ^ 48 - inst.toNat) % 2 ^ 48 := by
  have := inst.isLt
  simp only [BitVec.toNat_sub, BitVec.toNat_setWidth]
  omega

theorem eq_never_iff (inst : Instant) : inst = never ↔ inst.toNat = 0xFFFF_FFFF_FFFF := by
  rw [← BitVec.toNat_inj]
  rfl

/-- R201, R202: the instant never does not lapse, and any other lapses for half of the time that an instant can name. -/
theorem lapsedAt_iff {now : Word} {inst : Instant} : lapsedAt now inst = true ↔
    inst.toNat ≠ 0xFFFF_FFFF_FFFF ∧ (now.toNat % 2 ^ 48 + 2 ^ 48 - inst.toNat) % 2 ^ 48 < 2 ^ 47 := by
  simp only [lapsedAt, beq_iff_eq, eq_never_iff, sub_toNat_eq_mod]
  split
  · next h => simp [h]
  · next h => rw [decide_eq_true_iff]; exact (and_iff_right h).symm

/-- R216: a check fails by the carried instant or by the replica. -/
theorem checkFails_iff {s : State} {dk h : Nat} {inst : Instant} :
    checkFails s dk inst h = true ↔ lapsedAt (s.die dk).now inst = true ∨ h ∈ (s.die dk).replica.lapsed := by
  rw [checkFails, Bool.or_eq_true, List.contains_iff_mem]

/-- Settles O29: the lapse test is a comparison modulo 2^48; at the instant the time since it is 0, and one nanosecond before, 2^48 - 1. -/
theorem lapseTest : Obligations.LapseTest := by
  unfold Obligations.LapseTest
  intro s dk inst h now48
  have hlt := inst.isLt
  refine ⟨lapsedAt_iff, checkFails_iff, fun hn hat => lapsedAt_iff.2 ⟨hn, ?named⟩, fun _ hbefore => ?before⟩
  case named =>
    change (now48 + 2 ^ 48 - inst.toNat) % 2 ^ 48 < 2 ^ 47
    omega
  case before =>
    rw [Bool.eq_false_iff, ne_eq, lapsedAt_iff]
    rintro ⟨-, hsince⟩
    change (now48 + 2 ^ 48 - inst.toNat) % 2 ^ 48 < 2 ^ 47 at hsince
    omega

/-- R213: the earlier of an instant and the one that a slot holds. -/
def narrowed (i held : Instant) : Instant := if earlier i held then i else held

theorem retires_narrow {s : State} {u : Turn} {t : Thread} {gd : Guard} {a : Reg} (h : Issues s u t (.narrow gd a)) :
    Retires (.narrow gd a) s u fun x => { x with sr := { x.sr with inst := narrowed ((gr t a).setWidth 48) t.sr.inst } } := by
  rw [Retires, exec_narrow, execNarrow]
  refine pure_next h rfl rfl (by decide) (by decide) (lacks_tail (by decide) · · · _ _) rfl ?_
  simp only [narrowed]
  split <;> rfl

/-- Settles O30: NARROW's comparison is `earlier`, whose branches are the cases of the statement. -/
theorem narrowInstant : Obligations.NarrowInstant := by
  unfold Obligations.NarrowInstant
  intro s u t gd a h i
  have hnever : never = (-1 : Instant) := rfl
  refine ⟨narrowed i t.sr.inst, retires_narrow h, fun hi => ?never, fun hi => ?same, fun hi hheld => ?first, fun hi hheld hne => ?both⟩
  case never => simp only [narrowed, earlier, hnever, hi, beq_iff_eq, if_true, ite_self, Bool.false_eq_true, if_false]
  case same => simp only [narrowed, hi, ite_self]
  case first => simp only [narrowed, earlier, hnever, hi, hheld, beq_iff_eq, if_true, if_false]
  case both => simp only [narrowed, earlier, hnever, hi, hheld, hne, beq_iff_eq, if_false, decide_eq_true_eq]

end Sys2Proof.Machine
end

section
/-! A link table that names a die which no package has (R108, R218): the gateway that it gives, and O43. -/

namespace Sys2Proof.Machine

/-- Package 0, whose link table leads to package 1 by die 8. -/
def strayLinkPkg : Pkg := { Pkg.off 0 with links := [(1, (8, 0))] }

/-- A message of package 0 under handle 7, bound for package 1, whose instant has passed. -/
def lapsedMessage : Pkt :=
  { src := mkEp 0 0 0 0 0, dst := mkEp 1 0 0 0 0, vc := 3, stage := .egress, sent := 0, req := ⟨mkEp 0 0 0 0 0, 0, 1, 0, 0, 0, 19, 0⟩,
    carry := ⟨0, 7, 0⟩, body := .message 0 0 ⟨0, 0, 0, 0, []⟩, ticket := 0, asked := none }

def strayLinkState : State := { State.reset with pkgs := [(0, strayLinkPkg)], net := [lapsedMessage] }

/-- The control plane's messages after a step. -/
def ctlAfter (o : Host.Outcome State Fault Refusal) : Option (List Ctl) := match o with
  | .next s => some s.ctl
  | _ => none

/-- R218: the gateway's endpoint lies in package 1, so the drop is reported from there, by the origin identity. -/
theorem ctlAfter_strayLink : ctlAfter (exec (.gatewayEgress 0) strayLinkState) = some [.dropAt 1 0 7 0 1 0] := by decide +kernel

/-- Refutes O43: GatewayEgress lets a link table name any die. With die 8 the endpoint of the egress gateway is one of the next package, and the
drop of a lapsed message is reported as that package's, where the statement says that the own instant unit is told. It lacks that the link
tables name dies below 8 and ports below 4, as FIRMWARE_INIT_COMPLETE writes them. -/
theorem not_packetsCrossPackages : ¬ Obligations.PacketsCrossPackages := by
  unfold Obligations.PacketsCrossPackages
  rintro ⟨hegress, -, -⟩
  obtain ⟨-, -, -, hlapsed⟩ := hegress strayLinkState 0 lapsedMessage rfl rfl (by decide) (by decide) (by decide) (absurd rfl)
  obtain ⟨s', hexec, -, hctl⟩ := hlapsed 0 0 ⟨0, 0, 0, 0, []⟩ rfl (by decide) (by decide) rfl
  have hreport := ctlAfter_strayLink
  rw [hexec, ctlAfter, hctl] at hreport
  exact absurd hreport (by decide)

end Sys2Proof.Machine
end

section
/-! The lapse table and the broadcasts of the instant unit (R203 to R211): what stands at a handle after each operation. -/

namespace Sys2Proof.Machine

section table
variable {s s' : State} {pkg h : Nat} {e : Lapse} {f g : Lapse → Lapse}

theorem pkg_congr (hp : s'.pkgs = s.pkgs) (i : Nat) : s'.pkg i = s.pkg i := by simp only [State.pkg, hp]

theorem lapse?_congr (hp : s'.pkgs = s.pkgs) (i x : Nat) : s'.lapse? i x = s.lapse? i x := by
  rw [State.lapse?, pkg_congr hp, State.lapse?]

theorem lapse?_modPkg_of_keeps {f : Pkg → Pkg} (hf : ∀ p, (f p).lapse = p.lapse) (i x : Nat) :
    (s.modPkg pkg f).lapse? i x = s.lapse? i x := by
  rw [State.lapse?, pkg_modPkg_of_keeps (g := Pkg.lapse) hf, State.lapse?]

@[simp] theorem lapse?_modLapse_same : (s.modLapse pkg h f).lapse? pkg h = (s.lapse? pkg h).map f := by
  rw [State.lapse?, State.modLapse, pkg_modPkg_same, tget_tmod_same, State.lapse?]

theorem lapse?_modLapse_other {x : Nat} (hx : x ≠ h) : (s.modLapse pkg h f).lapse? pkg x = s.lapse? pkg x := by
  rw [State.lapse?, State.modLapse, pkg_modPkg_same, tget_tmod_other _ _ hx, State.lapse?]

/-- An entry changed by two functions that agree on it. -/
theorem modLapse_congr (he : s.lapse? pkg h = some e) (hfg : f e = g e) : s.modLapse pkg h f = s.modLapse pkg h g := by
  rw [State.modLapse, State.modLapse, State.modPkg, State.modPkg, tmod_congr he hfg]

/-- What a package holds beside its lapse table is left as it is where an entry changes. -/
theorem pkg_modLapse_of_keeps {α : Type} {k : Pkg → α} (hk : ∀ p l, k { p with lapse := l } = k p) (i : Nat) :
    k ((s.modLapse pkg h f).pkg i) = k (s.pkg i) := pkg_modPkg_of_keeps (fun p => hk p _) s pkg i

/-- R208: the proxy of an identity is found where it was, where an entry keeps its kind and its identity. -/
theorem proxyOf_modLapse (hf : ∀ e, (f e).kind = e.kind ∧ (f e).opkg = e.opkg ∧ (f e).ohnd = e.ohnd) (frm opkg : Nat) (oh : Handle) :
    proxyOf (s.modLapse pkg h f) frm opkg oh = proxyOf s frm opkg oh := by
  by_cases hi : frm = pkg
  · subst hi
    rw [proxyOf, State.modLapse, pkg_modPkg_same]
    refine find?_tmod (p := fun e : Lapse => e.kind == .proxy && e.opkg == opkg && e.ohnd == oh) (fun e => ?_) h _
    obtain ⟨hk, ho, hh⟩ := hf e
    rw [hk, ho, hh]
  · rw [proxyOf, State.modLapse, pkg_modPkg_other hi, proxyOf]

end table

section dies
variable {s : State} {pkg h : Nat} {c : Change}

/-- Every die of a package is changed. -/
def eachDie (s : State) (pkg : Nat) (f : Die → Die) : State := (List.range 8).foldl (fun s d => s.modDie (pkg * 8 + d) f) s

theorem eachDie_of_keeps {α : Type} {g : State → α} {f : Die → Die} (hg : ∀ s k, g (s.modDie k f) = g s) (s : State) (pkg : Nat) :
    g (eachDie s pkg f) = g s := foldl_of_keeps (fun _ _ => hg ..) ..

theorem modDie_die_other {i k : Nat} (hi : i ≠ k) (f : Die → Die) : (s.modDie k f).die i = s.die i := by
  simp only [State.modDie, State.die, tget_tput_other _ _ hi]

theorem die_modDie_of_keeps {α : Type} {g : Die → α} {f : Die → Die} (hf : ∀ d, g (f d) = g d) (s : State) (k i : Nat) :
    g ((s.modDie k f).die i) = g (s.die i) := by
  by_cases hi : i = k
  · rw [hi, modDie_die_same, hf]
  · rw [modDie_die_other hi]

theorem die_foldl_modDie (f : Die → Die) (n d : Nat) : ((List.range n).foldl (fun s d => s.modDie (pkg * 8 + d) f) s).die (pkg * 8 + d) =
    if d < n then f (s.die (pkg * 8 + d)) else s.die (pkg * 8 + d) := by
  induction n with
  | zero => rfl
  | succ n ih =>
    rw [List.range_succ, List.foldl_append, List.foldl_cons, List.foldl_nil]
    by_cases hd : d = n
    · subst hd
      rw [modDie_die_same, ih, if_neg (Nat.lt_irrefl d), if_pos (Nat.lt_succ_self d)]
    · rw [modDie_die_other (by omega), ih]
      simp only [show d < n + 1 ↔ d < n by omega]

theorem die_eachDie {d : Nat} (hd : d < 8) (f : Die → Die) : (eachDie s pkg f).die (pkg * 8 + d) = f (s.die (pkg * 8 + d)) :=
  (die_foldl_modDie f 8 d).trans (if_pos hd)

/-- A broadcast on its way to a die. -/
def Die.await (x : BitVec 16 × Change) (d : Die) : Die := { d with replica := { d.replica with coming := d.replica.coming ++ [x] } }

/-- R203: a broadcast takes the next sequence number and is on its way to every die. -/
theorem broadcast_eq (s : State) (pkg : Nat) (c : Change) : s.broadcast pkg c =
    eachDie (s.modPkg pkg fun p => { p with bseq := p.bseq + 1 }) pkg (Die.await ((s.pkg pkg).bseq, c)) := rfl

@[simp] theorem broadcast_ctl : (s.broadcast pkg c).ctl = s.ctl := eachDie_of_keeps (g := State.ctl) (fun _ _ => rfl) ..
@[simp] theorem broadcast_net : (s.broadcast pkg c).net = s.net := eachDie_of_keeps (g := State.net) (fun _ _ => rfl) ..
@[simp] theorem broadcast_cores : (s.broadcast pkg c).cores = s.cores := eachDie_of_keeps (g := State.cores) (fun _ _ => rfl) ..

theorem broadcast_pkgs : (s.broadcast pkg c).pkgs = (s.modPkg pkg fun p => { p with bseq := p.bseq + 1 }).pkgs :=
  eachDie_of_keeps (g := State.pkgs) (fun _ _ => rfl) ..

theorem pkg_broadcast_of_keeps {α : Type} {g : Pkg → α} (hg : ∀ p n, g { p with bseq := n } = g p) (i : Nat) :
    g ((s.broadcast pkg c).pkg i) = g (s.pkg i) := by
  rw [pkg_congr broadcast_pkgs]
  exact pkg_modPkg_of_keeps (fun p => hg p _) s pkg i

@[simp] theorem lapse?_broadcast (i x : Nat) : (s.broadcast pkg c).lapse? i x = s.lapse? i x :=
  congrArg (tget · x) (pkg_broadcast_of_keeps (g := Pkg.lapse) (fun _ _ => rfl) i)

theorem bseq_broadcast : ((s.broadcast pkg c).pkg pkg).bseq = (s.pkg pkg).bseq + 1 := by
  rw [pkg_congr broadcast_pkgs, pkg_modPkg_same]

theorem coming_broadcast {d : Nat} (hd : d < 8) : ((s.broadcast pkg c).die (pkg * 8 + d)).replica.coming =
    (s.die (pkg * 8 + d)).replica.coming ++ [((s.pkg pkg).bseq, c)] := by
  rw [broadcast_eq, die_eachDie hd]
  rfl

@[simp] theorem pkgNow_broadcast (i : Nat) : (s.broadcast pkg c).pkgNow i = s.pkgNow i :=
  eachDie_of_keeps (g := (·.pkgNow i)) (f := Die.await ((s.pkg pkg).bseq, c))
    (fun s' k => die_modDie_of_keeps (g := Die.now) (f := Die.await ((s.pkg pkg).bseq, c)) (fun _ => rfl) s' k (i * 8)) ..

/-- What a die's replica forgets of a handle that has been freed (R205). -/
def Die.forget (h : Nat) (d : Die) : Die := { d with replica := { d.replica with
  lapsed := d.replica.lapsed.filter (· != h)
  unions := tdelete h d.replica.unions
  coming := d.replica.coming.map fun (n, c) => (n, if c.names h then .none else c) } }

theorem forget_eq (s : State) (pkg h : Nat) : forget s pkg h = eachDie s pkg (Die.forget h) := rfl

theorem forget_of_keeps {α : Type} {g : State → α} (hg : ∀ s k f, g (s.modDie k f) = g s) : g (forget s pkg h) = g s := by
  rw [forget_eq]
  exact eachDie_of_keeps (fun s k => hg s k _) ..

theorem forget_pkgs : (forget s pkg h).pkgs = s.pkgs := forget_of_keeps (g := State.pkgs) fun _ _ _ => rfl
theorem forget_ctl : (forget s pkg h).ctl = s.ctl := forget_of_keeps (g := State.ctl) fun _ _ _ => rfl
theorem forget_agenda : (forget s pkg h).agenda = s.agenda := forget_of_keeps (g := State.agenda) fun _ _ _ => rfl
theorem forget_cores : (forget s pkg h).cores = s.cores := forget_of_keeps (g := State.cores) fun _ _ _ => rfl

end dies

section free
variable {s : State} {pkg h : Nat} {e : Lapse}

/-- A handle is the last of the free ones, without an entry. -/
def unlist (s : State) (pkg h : Nat) : State := s.modPkg pkg fun p => { p with lapse := tdelete h p.lapse, freed := p.freed ++ [h] }

/-- R205, R206: a handle is freed, the replicas forget it, and a queue that waits receives it. -/
theorem freeHandle_eq (s : State) (pkg h : Nat) : freeHandle s pkg h = grantHandle (forget (unlist s pkg h) pkg h) pkg := rfl

theorem grantHandle_pkgs : (grantHandle s pkg).pkgs = s.pkgs := rfl
theorem grantHandle_ctl : (grantHandle s pkg).ctl = s.ctl := rfl

theorem freeHandle_pkgs : (freeHandle s pkg h).pkgs = (unlist s pkg h).pkgs := by rw [freeHandle_eq, grantHandle_pkgs, forget_pkgs]

@[simp] theorem freeHandle_ctl : (freeHandle s pkg h).ctl = s.ctl := by rw [freeHandle_eq, grantHandle_ctl, forget_ctl]; rfl

theorem pkg_unlist : (unlist s pkg h).pkg pkg =
    { s.pkg pkg with lapse := tdelete h (s.pkg pkg).lapse, freed := (s.pkg pkg).freed ++ [h] } := pkg_modPkg_same ..

theorem pkg_freeHandle : (freeHandle s pkg h).pkg pkg =
    { s.pkg pkg with lapse := tdelete h (s.pkg pkg).lapse, freed := (s.pkg pkg).freed ++ [h] } :=
  (pkg_congr freeHandle_pkgs pkg).trans pkg_unlist

theorem lapse?_freeHandle_same : (freeHandle s pkg h).lapse? pkg h = none := by rw [State.lapse?, pkg_freeHandle, tget_tdelete_same]

/-- R206: the one queue that waits for a handle has its admission next. -/
theorem agenda_freeHandle_of_waiting {q : Nat} (hw : (s.pkg pkg).handleWait = [q]) :
    (freeHandle s pkg h).agenda = ⟨0, .entryAdmission pkg q⟩ :: s.agenda := by
  have hpkg : (forget (unlist s pkg h) pkg h).pkg pkg = _ := (pkg_congr forget_pkgs pkg).trans pkg_unlist
  obtain ⟨n, hn⟩ : ∃ n, ((forget (unlist s pkg h) pkg h).pkg pkg).handlesFree = n + 1 := by
    refine Nat.exists_eq_succ_of_ne_zero ?_
    rw [hpkg, Pkg.handlesFree, List.length_append, List.length_singleton]
    omega
  have hwait : ((forget (unlist s pkg h) pkg h).pkg pkg).handleWait = [q] := by rw [hpkg, hw]
  have hagenda : (forget (unlist s pkg h) pkg h).agenda = s.agenda := forget_agenda
  simp only [freeHandle_eq, grantHandle, hn, hwait, hagenda, List.take_succ_cons, List.take_nil, List.map_cons, List.map_nil, List.cons_append,
    List.nil_append]

/-- R209: with its last reference a proxy is free, and its counters go to its origin. -/
theorem endProxy_pkgs : (endProxy s pkg h e).pkgs = (freeHandle s pkg h).pkgs := by
  rw [endProxy, freeHandle_pkgs, freeHandle_pkgs]
  rfl

end free

section references
variable {s : State} {pkg h : Nat} {e : Lapse}

theorem refInc_of_ne_zero (h0 : h ≠ 0) : refInc s pkg h = s.modLapse pkg h fun e => { e with ref := e.ref + 1, settle := none } := by
  rw [refInc, if_neg (by simpa using h0)]

/-- R207: a reference that is not the last ends. -/
theorem refDec_of_more (h0 : h ≠ 0) (he : s.lapse? pkg h = some e) (hr : 1 < e.ref) :
    refDec s pkg h = s.modLapse pkg h fun e => { e with ref := e.ref - 1 } := by
  have hz : (h == 0) = false := beq_eq_false_iff_ne.2 h0
  simp only [refDec, refDecPlain, hz, he, hr, Bool.false_eq_true, if_false, if_true, ite_self]

/-- R209: the last reference of a proxy ends it. -/
theorem refDec_of_last_proxy (h0 : h ≠ 0) (he : s.lapse? pkg h = some e) (hr : e.ref ≤ 1) (hk : e.kind = .proxy) :
    refDec s pkg h = endProxy s pkg h e := by
  have hz : (h == 0) = false := beq_eq_false_iff_ne.2 h0
  have hu : (HKind.proxy == HKind.union) = false := rfl
  simp only [refDec, refDecPlain, hz, he, hk, hu, Nat.not_lt.2 hr, Bool.false_eq_true, if_false, beq_self_eq_true, if_true]

/-- R205, R222: with its last reference a request begins its settle interval, and has lapsed where its instant has passed by then. -/
theorem lapse?_refDec_of_last_request (h0 : h ≠ 0) (he : s.lapse? pkg h = some e) (hr : e.ref ≤ 1) (hk : e.kind = .request) :
    (refDec s pkg h).lapse? pkg h = some { e with
      ref := 0, l := e.l || lapsedAt (s.pkgNow pkg) e.inst, settle := some ((s.pkgNow pkg).toNat + (s.pkg pkg).bridge.settle.toNat * 1000) } := by
  have hz : (h == 0) = false := beq_eq_false_iff_ne.2 h0
  have hu : (e.kind == .union) = false := by rw [hk]; rfl
  have hp : (e.kind == .proxy) = false := by rw [hk]; rfl
  have hl : (e.l || (!e.l && lapsedAt (s.pkgNow pkg) e.inst)) = (e.l || lapsedAt (s.pkgNow pkg) e.inst) := by cases e.l <;> rfl
  simp only [refDec, refDecPlain, hz, he, hu, hp, Nat.not_lt.2 hr, Bool.false_eq_true, if_false, lapse?_modLapse_same, ← hl]
  cases (!e.l && lapsedAt (s.pkgNow pkg) e.inst)
  case false => simp only [Bool.false_eq_true, if_false, he, Option.map_some]
  case true =>
    simp only [if_true, lapse?_broadcast, he, Option.map_some, pkgNow_broadcast, pkg_broadcast_of_keeps (g := Pkg.bridge) fun _ _ => rfl]

/-- R209: a listed package's reference that is not the last ends. -/
theorem releaseExport_of_more {frm : Nat} (h0 : h ≠ 0) (he : s.lapse? pkg h = some e) (hr : 1 < e.ref) (hx : frm ∈ e.exports) :
    (releaseExport s pkg h frm).ctl = s.ctl ∧
    (releaseExport s pkg h frm).lapse? pkg h = some { e with exports := e.exports.filter (· != frm), ref := e.ref - 1 } := by
  have hx' : e.exports.contains frm = true := List.contains_iff_mem.2 hx
  have he' : (s.modLapse pkg h fun e => { e with exports := e.exports.filter (· != frm) }).lapse? pkg h =
      some { e with exports := e.exports.filter (· != frm) } := by rw [lapse?_modLapse_same, he]; rfl
  simp only [releaseExport, he, hx', if_true, refDec_of_more h0 he' hr]
  exact ⟨rfl, by rw [lapse?_modLapse_same, he']; rfl⟩

end references

section unions
variable {s s' : State} {pkg h : Nat} {e : Lapse}

theorem mem_tmod {α : Type} {k : Nat} {f : α → α} {t : Table α} {y : Nat × α} (hy : y ∈ tmod k f t) :
    ∃ x ∈ t, y = x ∨ y = (x.1, f x.2) := by
  induction t with
  | nil => cases hy
  | cons x r ih =>
    obtain ⟨j, x⟩ := x
    simp only [tmod] at hy
    split at hy <;> rcases List.mem_cons.1 hy with rfl | hy
    · exact ⟨(j, x), List.mem_cons_self, .inr rfl⟩
    · exact ⟨y, List.mem_cons_of_mem _ hy, .inl rfl⟩
    · exact ⟨(j, x), List.mem_cons_self, .inl rfl⟩
    · obtain ⟨z, hz, hyz⟩ := ih hy
      exact ⟨z, List.mem_cons_of_mem _ hz, hyz⟩

/-- A package holds no union. -/
def NoUnions (s : State) (pkg : Nat) : Prop := ∀ x ∈ (s.pkg pkg).lapse, x.2.kind ≠ .union

theorem NoUnions.congr (hu : NoUnions s pkg) (hl : (s'.pkg pkg).lapse = (s.pkg pkg).lapse) : NoUnions s' pkg := by
  rw [NoUnions, hl]
  exact hu

theorem NoUnions.modLapse (hu : NoUnions s pkg) {f : Lapse → Lapse} (hf : ∀ e, (f e).kind = e.kind) : NoUnions (s.modLapse pkg h f) pkg := by
  intro y hy
  rw [State.modLapse, pkg_modPkg_same] at hy
  obtain ⟨x, hx, rfl | rfl⟩ := mem_tmod hy
  · exact hu _ hx
  · exact (hf x.2).symm ▸ hu _ hx

theorem NoUnions.broadcast (hu : NoUnions s pkg) (c : Change) : NoUnions (s.broadcast pkg c) pkg :=
  hu.congr (pkg_broadcast_of_keeps (g := Pkg.lapse) (fun _ _ => rfl) pkg)

/-- R205: no union of a package changes where it holds none. -/
theorem unionsOf_eq_nil (hu : NoUnions s pkg) :
    ((s.pkg pkg).lapse.filterMap fun x => if x.2.kind == .union then some x.1 else none) = [] :=
  List.filterMap_eq_nil_iff.2 fun x hx => if_neg (by simpa using hu x hx)

/-- R210: nor does one take a member's instant. -/
theorem memberMoved_of_no_unions (hu : NoUnions s pkg) (h : Nat) : memberMoved s pkg h = s := by
  have hnil : ((s.pkg pkg).lapse.filter fun x => x.2.kind == .union && x.2.members.contains (h, true)) = [] :=
    List.filter_eq_nil_iff.2 fun x hx => by simp [hu x hx]
  exact congrArg (List.foldl _ s) hnil

end unions

section lapse
variable {s s' s'' : State} {pkg h : Nat} {e : Lapse} {cancel : Bool}

/-- R203, R205: an entry is marked lapsed, and the lapse is broadcast. -/
def markLapsed (s : State) (pkg h : Nat) (cancel : Bool) : State :=
  (s.modLapse pkg h fun e => { e with l := true, c := cancel }).broadcast pkg (.lapse h)

theorem lapses_markLapsed (he : s.lapse? pkg h = some e) (cancel : Bool) : Lapses s (markLapsed s pkg h cancel) pkg h e cancel := by
  have hseq : ((s.modLapse pkg h fun e => { e with l := true, c := cancel }).pkg pkg).bseq = (s.pkg pkg).bseq :=
    pkg_modLapse_of_keeps (k := Pkg.bseq) (fun _ _ => rfl) pkg
  refine ⟨?entry, by rw [markLapsed, bseq_broadcast, hseq], fun d hd => ?coming, fun x hx => ?others⟩
  case entry => rw [markLapsed, lapse?_broadcast, lapse?_modLapse_same, he]; rfl
  case coming => rw [markLapsed, coming_broadcast hd, hseq]; rfl
  case others => rw [markLapsed, lapse?_broadcast, lapse?_modLapse_other hx]

/-- What has lapsed has lapsed where messages, packets and cores change besides. -/
theorem lapses_congr (hl : Lapses s s' pkg h e cancel) (hp : s''.pkgs = s'.pkgs) (hd : s''.dies = s'.dies) :
    Lapses s s'' pkg h e cancel := by
  simpa only [Lapses, State.lapse?, State.pkg, State.die, hp, hd] using hl

theorem NoUnions.markLapsed (hu : NoUnions s pkg) : NoUnions (Machine.markLapsed s pkg h cancel) pkg := by
  rw [Machine.markLapsed]
  refine NoUnions.broadcast (hu.modLapse ?_) _
  exact fun _ => rfl

/-- R209: a proxy whose origin has lapsed is marked, and tells nobody. -/
theorem lapseProxy_of_no_unions (he : s.lapse? pkg h = some e) (hl : e.l = false) (hu : NoUnions s pkg) :
    lapseProxy s pkg h cancel = markLapsed s pkg h cancel := by
  simp only [lapseProxy, he, hl, Bool.false_eq_true, if_false]
  exact congrArg (List.foldl _ (markLapsed s pkg h cancel)) (unionsOf_eq_nil hu.markLapsed)

/-- R209: whom a lapse is told: nobody of one by its instant; of a CANCEL the origin of a proxy, or the packages that its entry lists. -/
def tellCancel (s : State) (pkg h : Nat) (e : Lapse) (cancel : Bool) : State :=
  if cancel then
    if e.kind == .proxy then { s with ctl := s.ctl ++ [.cancelOrigin e.opkg e.ohnd.toNat] }
    else propagate s pkg e fun p => .cancel p pkg h
  else s

theorem tellCancel_pkgs : (tellCancel s pkg h e cancel).pkgs = s.pkgs := by
  unfold tellCancel
  split
  · split <;> rfl
  · rfl

theorem tellCancel_dies : (tellCancel s pkg h e cancel).dies = s.dies := by
  unfold tellCancel
  split
  · split <;> rfl
  · rfl

theorem tellCancel_cores : (tellCancel s pkg h e cancel).cores = s.cores := by
  unfold tellCancel
  split
  · split <;> rfl
  · rfl

/-- R205, R209: a live handle of a package without unions lapses. -/
theorem lapseHandle_of_no_unions (he : s.lapse? pkg h = some e) (hl : e.l = false) (hu : NoUnions s pkg) :
    lapseHandle s pkg h cancel = tellCancel (markLapsed s pkg h cancel) pkg h e cancel := by
  have hnone : NoUnions (tellCancel (markLapsed s pkg h cancel) pkg h e cancel) pkg :=
    hu.markLapsed.congr (by rw [pkg_congr tellCancel_pkgs])
  simp only [lapseHandle, he, hl, Bool.false_eq_true, if_false]
  exact congrArg (List.foldl _ (tellCancel (markLapsed s pkg h cancel) pkg h e cancel)) (unionsOf_eq_nil hnone)

theorem lapses_lapseHandle (he : s.lapse? pkg h = some e) (hl : e.l = false) (hu : NoUnions s pkg) :
    Lapses s (lapseHandle s pkg h cancel) pkg h e cancel := by
  rw [lapseHandle_of_no_unions he hl hu]
  exact lapses_congr (lapses_markLapsed he cancel) tellCancel_pkgs tellCancel_dies

end lapse

end Sys2Proof.Machine
end

section
/-! Completion records (R270, R463, R467): what the sending of one leaves, and the record of a request that is held. -/

namespace Sys2Proof.Machine

/-- A view of the state that looks at no bridge, no queue's state, no held record and no memory of the host. -/
structure KeptByRecords {α : Type} (pkg : Nat) (g : State → α) : Prop where
  bridge : ∀ s f, g (s.modBridge pkg f) = g s
  queue : ∀ s q f, g (s.modQueue pkg q f) = g s
  recs : ∀ s (f : Pkg → List HostRec), g (s.modPkg pkg fun p => { p with hostRecs := f p }) = g s
  fails : ∀ s n, g (s.modPkg pkg fun p => { p with kblFails := n }) = g s
  host : ∀ s m, g { s with host := m } = g s

namespace KeptByRecords

variable {α : Type} {pkg : Nat} {g : State → α} (h : KeptByRecords pkg g)
include h

theorem event (s : State) (kind aux ep slot : Nat) (data : Word) : g (s.event pkg kind aux ep slot data) = g s := h.bridge ..

theorem logHeld (s : State) (q : Nat) : g (logHeld s pkg q) = g s :=
  foldl_of_keeps (fun s _ => (h.event ..).trans (h.recs s _)) ..

theorem noteDropped (s : State) : g (noteDropped s pkg) = g s := by
  unfold Machine.noteDropped
  dsimp only
  split
  · rfl
  · exact (h.event ..).trans (h.bridge ..)

theorem flushRecords (q n : Nat) (s : State) : g (flushRecords s pkg q n) = g s := by
  induction n generalizing s with
  | zero => rfl
  | succ n ih =>
    unfold Machine.flushRecords
    split
    · rfl
    · split
      · rw [ih, h.queue, h.noteDropped, h.recs, h.host, kblGood, h.fails, h.logHeld]
      · rfl

/-- R270, R467: whether a record is written, held or dropped. -/
theorem pushRecord (s : State) (q : Nat) (seq : BitVec 32) (x status tasks msgs stores : Nat) :
    g (pushRecord s pkg q seq x status tasks msgs stores) = g s := by
  unfold Machine.pushRecord
  dsimp only
  split
  · rw [h.queue, h.bridge, h.queue]
  · rw [h.flushRecords, h.recs, h.queue]

end KeptByRecords

theorem keptByRecords_agenda (pkg : Nat) : KeptByRecords pkg State.agenda :=
  ⟨fun _ _ => rfl, fun _ _ _ => rfl, fun _ _ => rfl, fun _ _ => rfl, fun _ _ => rfl⟩

/-- The queues that wait for a handle. -/
theorem keptByRecords_handleWait (pkg : Nat) : KeptByRecords pkg fun s => (s.pkg pkg).handleWait where
  bridge s f := by simp only [State.modBridge, pkg_modPkg_same]
  queue s q f := by simp only [State.modQueue, pkg_modPkg_same]
  recs s f := by simp only [pkg_modPkg_same]
  fails s n := by simp only [pkg_modPkg_same]
  host _ _ := rfl

section held
variable {s : State} {pkg q : Nat}

/-- R467: whether a record's slot is free rests on its queue's descriptor and on the host's memory. -/
theorem recordSlotFree_congr {s' : State} (hm : SameMaps s s') (hk : (s'.pkg pkg).kblUp = (s.pkg pkg).kblUp) (hh : s'.host = s.host)
    (r : Nat) : recordSlotFree s' pkg q r = recordSlotFree s pkg q r := by
  simp only [recordSlotFree, recordAddr, qDesc, hm.entry, hk, hh]

/-- The next record of a queue, held since now. -/
def nextRecord (s : State) (pkg q : Nat) (seq : BitVec 32) (h status tasks msgs stores : Nat) : HostRec :=
  ⟨q, (s.queue pkg q).records, recordBits seq.toNat h status tasks msgs stores q (s.pkgNow pkg).toNat, (s.pkgNow pkg).toNat, false⟩

/-- A record of a queue is counted and held in the store. -/
def holdRecord (s : State) (pkg q : Nat) (r : HostRec) : State :=
  (s.modQueue pkg q fun x => { x with records := x.records + 1 }).modPkg pkg fun p => { p with hostRecs := p.hostRecs ++ [r] }

theorem freed_holdRecord (r : HostRec) : ((holdRecord s pkg q r).pkg pkg).freed = (s.pkg pkg).freed := by
  rw [holdRecord, pkg_modPkg_same, State.modQueue, pkg_modPkg_same]

theorem hostRecs_holdRecord (r : HostRec) : ((holdRecord s pkg q r).pkg pkg).hostRecs = (s.pkg pkg).hostRecs ++ [r] := by
  rw [holdRecord, pkg_modPkg_same, State.modQueue, pkg_modPkg_same]

variable (hup : (s.pkg pkg).kblUp = true) (hnone : (s.pkg pkg).hostRecs = [])
  (hslot : recordSlotFree s pkg q (s.queue pkg q).records = false)
include hup hnone hslot

/-- R467: a record whose slot the host has not released is held. -/
theorem pushRecord_of_held (seq : BitVec 32) (h status tasks msgs stores : Nat) :
    pushRecord s pkg q seq h status tasks msgs stores = holdRecord s pkg q (nextRecord s pkg q seq h status tasks msgs stores) := by
  generalize hr : nextRecord s pkg q seq h status tasks msgs stores = r
  unfold nextRecord at hr
  generalize hs1 : s.modQueue pkg q (fun x => { x with records := x.records + 1 }) = s1
  have hmaps1 : SameMaps s s1 := hs1 ▸ SameMaps.modPkg s pkg (fun _ => rfl) fun _ => rfl
  have hup1 : (s1.pkg pkg).kblUp = true := by rw [← hs1, State.modQueue, pkg_modPkg_same, hup]
  have hnone1 : (s1.pkg pkg).hostRecs = [] := by rw [← hs1, State.modQueue, pkg_modPkg_same, hnone]
  have hslot1 : recordSlotFree s1 pkg q (s.queue pkg q).records = false := by
    rw [recordSlotFree_congr hmaps1 (hup1.trans hup.symm) (by rw [← hs1]; rfl), hslot]
  generalize hs2 : s1.modPkg pkg (fun p => { p with hostRecs := p.hostRecs ++ [r] }) = s2
  have hmaps2 : SameMaps s1 s2 := hs2 ▸ SameMaps.modPkg s1 pkg (fun _ => rfl) fun _ => rfl
  have hup2 : (s2.pkg pkg).kblUp = true := by rw [← hs2, pkg_modPkg_same, hup1]
  have hrecs2 : (s2.pkg pkg).hostRecs = [r] := by rw [← hs2, pkg_modPkg_same, hnone1]; rfl
  have hslot2 : recordSlotFree s2 pkg q r.idx = false := by
    rw [recordSlotFree_congr hmaps2 (hup2.trans hup1.symm) (by rw [← hs2]; rfl), ← hr, hslot1]
  have hkept : flushRecords s2 pkg q 1 = s2 := by
    have hq : (r.queue == q) = true := by rw [← hr]; exact beq_self_eq_true q
    simp only [flushRecords, hrecs2, List.find?_cons, hq, hslot2, Bool.false_eq_true, if_false]
  unfold pushRecord holdRecord
  simp only [hs1, hr, hslot1, hup1, hs2, hrecs2, List.length_singleton, hkept, Bool.false_and, Bool.not_true, Bool.not_false, Bool.and_false,
    Bool.false_eq_true, if_false]

end held

/-- R270: the fields of a record stand side by side. -/
theorem recordBits_toNat (seq h status tasks msgs stores q now : Nat) : (recordBits seq h status tasks msgs stores q now).toNat =
    seq % 2 ^ 32 + h % 2 ^ 16 * 2 ^ 32 + status % 8 * 2 ^ 48 + tasks % 2 ^ 32 * 2 ^ 64 + msgs % 2 ^ 32 * 2 ^ 96
    + stores % 2 ^ 32 * 2 ^ 128 + q % 2 ^ 14 * 2 ^ 160 + now % 2 ^ 64 * 2 ^ 192 := by
  rw [recordBits, BitVec.toNat_ofNat, Nat.mod_eq_of_lt]
  omega

/-- R270: what each field of a record reads. -/
theorem recordBits_fields (seq : BitVec 32) (now : Word) (h tasks msgs stores q : Nat) {status : Nat} (hs : status < 8) {x : BitVec 256}
    (hx : recordBits seq.toNat h status tasks msgs stores q now.toNat = x) :
    x.extractLsb' 0 32 = seq ∧ x.toNat / 2 ^ 32 % 2 ^ 16 = h % 2 ^ 16 ∧ x.toNat / 2 ^ 48 % 8 = status ∧
    x.toNat / 2 ^ 64 % 2 ^ 32 = tasks % 2 ^ 32 ∧ x.toNat / 2 ^ 96 % 2 ^ 32 = msgs % 2 ^ 32 ∧ x.toNat / 2 ^ 128 % 2 ^ 32 = stores % 2 ^ 32 ∧
    x.toNat / 2 ^ 192 = now.toNat := by
  have hn := recordBits_toNat seq.toNat h status tasks msgs stores q now.toNat
  rw [hx] at hn
  have hseq := seq.isLt
  have hnow := now.isLt
  refine ⟨BitVec.eq_of_toNat_eq ?_, ?_, ?_, ?_, ?_, ?_, ?_⟩
  · rw [BitVec.extractLsb'_toNat, Nat.shiftRight_zero]
    omega
  all_goals omega

end Sys2Proof.Machine
end

section
/-! The instant unit by itself (R203, R205, R206, R219, R222, R270): lapses, broadcasts at the replicas, and the settle interval. -/

namespace Sys2Proof.Machine

section instant
variable {s : State} {pkg h : Nat} {e : Lapse}

theorem exec_instantLapse_of_due (he : s.lapse? pkg h = some e) (hl : e.l = false) (hs : e.settle = none)
    (hd : lapsedAt (s.pkgNow pkg) e.inst = true) : exec (.instantLapse pkg h) s = .next (lapseHandle s pkg h false) := by
  simp only [exec_instantLapse, execInstantLapse, usable, he, hl, hs, hd, Option.isNone_none, Bool.not_false, Bool.and_self, if_true]

theorem exec_instantLapse_of_early (he : s.lapse? pkg h = some e) (hd : lapsedAt (s.pkgNow pkg) e.inst = false) :
    exec (.instantLapse pkg h) s = .next s := by
  simp only [exec_instantLapse, execInstantLapse, he, hd, Bool.and_false, Bool.false_eq_true, if_false]

theorem exec_instantLapse_of_none (he : s.lapse? pkg h = none) : exec (.instantLapse pkg h) s = .next s := by
  simp only [exec_instantLapse, execInstantLapse, he]

theorem exec_instantLapse_of_lapsed (he : s.lapse? pkg h = some e) (hl : e.l = true) : exec (.instantLapse pkg h) s = .next s := by
  simp only [exec_instantLapse, execInstantLapse, usable, he, hl, Bool.not_true, Bool.false_and, Bool.false_eq_true, if_false]

end instant

section apply
variable {s : State} {pkg die k : Nat}

/-- R203: the broadcast at a place has been taken off the way to a die's replica, which waits for the next number. -/
def broadcastTaken (k : Nat) (d : Die) : Die :=
  { d with replica := { d.replica with next := d.replica.next + 1, coming := dropAt k d.replica.coming } }

theorem exec_lapseBroadcastApply_of_early {seq : BitVec 16} {c : Change} (hc : (s.die (pkg * 8 + die)).replica.coming[k]? = some (seq, c))
    (hn : seq ≠ (s.die (pkg * 8 + die)).replica.next) : exec (.lapseBroadcastApply pkg die k) s = .next s := by
  have hn' : (seq != (s.die (pkg * 8 + die)).replica.next) = true := bne_iff_ne.2 hn
  simp only [exec_lapseBroadcastApply, execLapseBroadcastApply, hc, hn', if_true]

theorem answerUnions_of_no_requests (hq : (s.pkg pkg).iureqs = []) : answerUnions s pkg = s := by rw [answerUnions, hq, List.foldl_nil]

/-- R203: the broadcast that is next in sequence is applied. -/
theorem exec_lapseBroadcastApply_of_next {c : Change}
    (hc : (s.die (pkg * 8 + die)).replica.coming[k]? = some ((s.die (pkg * 8 + die)).replica.next, c))
    (hq : ((applyChange (s.modDie (pkg * 8 + die) (broadcastTaken k)) pkg die c).pkg pkg).iureqs = []) :
    exec (.lapseBroadcastApply pkg die k) s = .next (applyChange (s.modDie (pkg * 8 + die) (broadcastTaken k)) pkg die c) := by
  simp only [exec_lapseBroadcastApply, execLapseBroadcastApply, hc, bne_self_eq_false, Bool.false_eq_true, if_false]
  exact congrArg Host.Outcome.next (answerUnions_of_no_requests hq)

/-- R219: no image is marked where there is none. -/
theorem killHolders_of_no_images (hc : ∀ x ∈ s.clusters, x.2.tcc = []) (hs : (s.pkg pkg).spilled = []) (h : Nat) :
    killHolders s pkg die h = s := by
  have hcached {g : Nat × Cluster → List (Nat × Nat)} (hg : ∀ x ∈ s.clusters, g x = []) : s.clusters.flatMap g = [] :=
    List.flatMap_eq_nil_iff.2 hg
  rw [killHolders, hcached fun x hx => by simp only [hc x hx, List.filterMap_nil, ite_self], List.foldl_nil]
  simp only [hs, List.zipIdx_nil, List.filterMap_nil, List.foldl_nil, ite_self]

/-- R437: the slots of the die that hold the handle take its new instant. -/
theorem thr?_rewriteSlots {dk h : Nat} {inst : Instant} {ep n : Nat} {t : Thread} (hd : dieKey ep = dk) (ht : s.thr? ep n = some t) :
    (rewriteSlots s dk h inst).thr? ep n = some (if t.sr.hnd.toNat = h then { t with sr := { t.sr with inst := inst } } else t) := by
  obtain ⟨c, hc, hn⟩ := Option.bind_eq_some_iff.1 ht
  have hmap := tget_map_if (fun e => dieKey e == dk) (fun c : Core => { c with slots := c.slots.map fun (y : Nat × Thread) =>
    (y.1, if y.2.sr.hnd.toNat == h then { y.2 with sr := { y.2.sr with inst := inst } } else y.2) }) s.cores ep
  rw [hc, Option.map_some, if_pos (by rw [hd, beq_self_eq_true])] at hmap
  have hslot := tget_map_snd (fun y : Thread => if y.sr.hnd.toNat == h then { y with sr := { y.sr with inst := inst } } else y) c.slots n
  rw [hn, Option.map_some] at hslot
  refine Option.bind_eq_some_iff.2 ⟨_, hmap, hslot.trans ?_⟩
  simp only [beq_iff_eq]

end apply

section settle
variable {s : State} {pkg h at_ : Nat} {e : Lapse}

theorem exec_settleExpiry_of_early (he : s.lapse? pkg h = some e) (hs : e.settle = some at_) (hn : (s.pkgNow pkg).toNat < at_) :
    exec (.settleExpiry pkg h) s = .next s := by
  simp only [exec_settleExpiry, execSettleExpiry, he, hs, hn, decide_true, Bool.or_true, if_true]

/-- The status of a request's record (R222). -/
def Lapse.status (e : Lapse) : Nat := if e.fault = true then 2 else if e.l = true ∧ e.c = true then 3 else if e.l = true then 1 else 0

theorem exec_settleExpiry_of_over (he : s.lapse? pkg h = some e) (hs : e.settle = some at_) (hk : e.kind = .request) (hr : e.ref = 0)
    (hn : at_ ≤ (s.pkgNow pkg).toNat) : exec (.settleExpiry pkg h) s =
      .next (freeHandle (pushRecord s pkg e.queue e.seq h e.status e.tasks.toNat e.msgs.toNat e.stores.toNat) pkg h) := by
  have hstatus : (if e.fault then 2 else if e.l && e.c then 3 else if e.l then 1 else 0) = e.status := by
    simp only [Lapse.status, Bool.and_eq_true]
  have hwait : (e.kind != .request || e.ref != 0 || decide ((s.pkgNow pkg).toNat < at_)) = false := by
    rw [hk, hr, decide_eq_false (Nat.not_lt.2 hn)]
    rfl
  simp only [exec_settleExpiry, execSettleExpiry, he, hs, hwait, hstatus, Bool.false_eq_true, if_false]

theorem Lapse.status_lt (e : Lapse) : e.status < 8 := by
  rw [status]
  split_ifs <;> omega

end settle

end Sys2Proof.Machine
end

section
/-! The instant unit by itself: INSTANT_LAPSE, LAPSE_BROADCAST_APPLY and SETTLE_EXPIRY as O52 states them. -/

namespace Sys2Proof.Machine

section steps
variable {s : State} {pkg h die k n q at_ : Nat} {e : Lapse}

/-- R203, R205: what INSTANT_LAPSE leaves of a package without unions. -/
theorem lapses_of_exec_instantLapse (he : s.lapse? pkg h = some e) (hl : e.l = false) (hs : e.settle = none)
    (hd : lapsedAt (s.pkgNow pkg) e.inst = true) (hu : NoUnions s pkg) :
    ∃ s', exec (.instantLapse pkg h) s = .next s' ∧ Lapses s s' pkg h e false ∧ s'.ctl = s.ctl ∧ s'.net = s.net := by
  have hexec := exec_instantLapse_of_due he hl hs hd
  rw [lapseHandle_of_no_unions he hl hu] at hexec
  exact ⟨_, hexec, lapses_markLapsed he false, broadcast_ctl, broadcast_net⟩

/-- A die's replica has applied the broadcast at a place. -/
def Applied (s s' : State) (dk k : Nat) : Prop :=
  (s'.die dk).replica.next = (s.die dk).replica.next + 1 ∧ (s'.die dk).replica.coming = dropAt k (s.die dk).replica.coming

theorem mem_addOnce {α : Type} [BEq α] [LawfulBEq α] {x y : α} {l : List α} : y ∈ addOnce x l ↔ y = x ∨ y ∈ l := by
  unfold addOnce
  split
  · next hx =>
    refine (or_iff_right_of_imp fun hy => ?_).symm
    rw [hy]
    exact List.contains_iff_mem.1 hx
  · rw [List.mem_append, List.mem_singleton, or_comm]

/-- R203: a lapsed handle is shown by the replica. -/
def showLapsed (h : Nat) (d : Die) : Die := { d with replica := { d.replica with lapsed := addOnce h d.replica.lapsed } }

/-- R203, R219: a lapse reaches a replica, where no image holds the handle. -/
theorem lapseBroadcastApply_lapse (hc : (s.die (pkg * 8 + die)).replica.coming[k]? = some ((s.die (pkg * 8 + die)).replica.next, .lapse h))
    (hq : (s.pkg pkg).iureqs = []) (ht : ∀ x ∈ s.clusters, x.2.tcc = []) (hs : (s.pkg pkg).spilled = []) :
    ∃ s', exec (.lapseBroadcastApply pkg die k) s = .next s' ∧ Applied s s' (pkg * 8 + die) k ∧
      h ∈ (s'.die (pkg * 8 + die)).replica.lapsed ∧
      (∀ x, x ∈ (s'.die (pkg * 8 + die)).replica.lapsed ↔ x = h ∨ x ∈ (s.die (pkg * 8 + die)).replica.lapsed) ∧ s'.cores = s.cores := by
  have happly : applyChange (s.modDie (pkg * 8 + die) (broadcastTaken k)) pkg die (.lapse h) =
      (s.modDie (pkg * 8 + die) (broadcastTaken k)).modDie (pkg * 8 + die) (showLapsed h) :=
    killHolders_of_no_images (s := (s.modDie _ (broadcastTaken k)).modDie _ (showLapsed h)) ht hs h
  have hexec := exec_lapseBroadcastApply_of_next hc (by rw [happly]; exact hq)
  rw [happly] at hexec
  have hdie : (((s.modDie (pkg * 8 + die) (broadcastTaken k)).modDie (pkg * 8 + die) (showLapsed h)).die (pkg * 8 + die)) =
      showLapsed h (broadcastTaken k (s.die (pkg * 8 + die))) := by rw [modDie_die_same, modDie_die_same]
  refine ⟨_, hexec, ?_⟩
  rw [Applied, hdie]
  exact ⟨⟨rfl, rfl⟩, mem_addOnce.2 (.inl rfl), fun x => mem_addOnce, rfl⟩

/-- R203, R437: a proxy's or union's new instant reaches a replica, and the slots of its die that hold the handle. -/
theorem lapseBroadcastApply_inst {inst : Instant} {ep : EP} {t : Thread}
    (hc : (s.die (pkg * 8 + die)).replica.coming[k]? = some ((s.die (pkg * 8 + die)).replica.next, .inst h inst))
    (hq : (s.pkg pkg).iureqs = []) (hd : dieKey ep = pkg * 8 + die) (ht : s.thr? ep n = some t) :
    ∃ s', exec (.lapseBroadcastApply pkg die k) s = .next s' ∧ Applied s s' (pkg * 8 + die) k ∧
      s'.thr? ep n = some (if t.sr.hnd.toNat = h then { t with sr := { t.sr with inst := inst } } else t) := by
  have hdie : (applyChange (s.modDie (pkg * 8 + die) (broadcastTaken k)) pkg die (.inst h inst)).die (pkg * 8 + die) =
      broadcastTaken k (s.die (pkg * 8 + die)) := modDie_die_same ..
  refine ⟨_, exec_lapseBroadcastApply_of_next hc hq, ?_, thr?_rewriteSlots hd ht⟩
  rw [Applied, hdie]
  exact ⟨rfl, rfl⟩

/-- R206, R222: a request's settle interval is over, and the queue that waits has its handle. -/
theorem settleExpiry_with_queue (he : s.lapse? pkg h = some e) (hs : e.settle = some at_) (hk : e.kind = .request) (hr : e.ref = 0)
    (hn : at_ ≤ (s.pkgNow pkg).toNat) (hw : (s.pkg pkg).handleWait = [q]) :
    ∃ s', exec (.settleExpiry pkg h) s = .next s' ∧ s'.lapse? pkg h = none ∧ s'.agenda = ⟨0, .entryAdmission pkg q⟩ :: s.agenda := by
  refine ⟨_, exec_settleExpiry_of_over he hs hk hr hn, lapse?_freeHandle_same, ?_⟩
  rw [agenda_freeHandle_of_waiting (((keptByRecords_handleWait pkg).pushRecord ..).trans hw), (keptByRecords_agenda pkg).pushRecord]

/-- R222, R270: a request's record is held, and its handle is free. -/
theorem settleExpiry_with_record (he : s.lapse? pkg h = some e) (hs : e.settle = some at_) (hk : e.kind = .request) (hr : e.ref = 0)
    (hn : at_ ≤ (s.pkgNow pkg).toNat) (hrecs : (s.pkg pkg).hostRecs = [])
    (hslot : recordSlotFree s pkg e.queue (s.queue pkg e.queue).records = false) (hup : (s.pkg pkg).kblUp = true) :
    ∃ s', exec (.settleExpiry pkg h) s = .next s' ∧ s'.lapse? pkg h = none ∧ (s'.pkg pkg).freed = (s.pkg pkg).freed ++ [h] ∧
      (s'.pkg pkg).hostRecs = [nextRecord s pkg e.queue e.seq h e.status e.tasks.toNat e.msgs.toNat e.stores.toNat] := by
  have hexec := exec_settleExpiry_of_over he hs hk hr hn
  rw [pushRecord_of_held hup hrecs hslot] at hexec
  refine ⟨_, hexec, lapse?_freeHandle_same, ?freed, ?recs⟩
  case freed => rw [pkg_freeHandle, freed_holdRecord]
  case recs => rw [pkg_freeHandle, hostRecs_holdRecord, hrecs, List.nil_append]

end steps

/-- R203, R205, R206, R219, R222, R270: INSTANT_LAPSE, LAPSE_BROADCAST_APPLY and SETTLE_EXPIRY. -/
theorem instantUnit : InstantUnit := by
  unfold InstantUnit
  intro s pkg h die k n q e at_ inst ep t seq r noUnions applied apply
  refine ⟨fun he hl hs => ⟨?due, ?early⟩, fun hno => ?gone, fun c hc hne => ?waits, fun hc hq ht hs => ?lapse, fun hc hq hd ht => ?inst,
    fun he hs hk hr => ⟨?unsettled, ?queue, ?record⟩⟩
  case due => exact fun hd hu => lapses_of_exec_instantLapse he hl hs hd hu
  case early => exact fun hd => exec_instantLapse_of_early he hd
  case gone =>
    rcases hno with he | ⟨he, hl⟩
    · exact exec_instantLapse_of_none he
    · exact exec_instantLapse_of_lapsed he hl
  case waits => exact exec_lapseBroadcastApply_of_early hc hne
  case lapse => exact lapseBroadcastApply_lapse hc hq ht hs
  case inst => exact lapseBroadcastApply_inst hc hq hd ht
  case unsettled => exact fun hn => exec_settleExpiry_of_early he hs hn
  case queue => exact fun hn hw => settleExpiry_with_queue he hs hk hr hn hw
  case record =>
    intro hn _ hrecs hslot hup
    obtain ⟨s', hexec, hfree, hfreed, hheld⟩ := settleExpiry_with_record he hs hk hr hn hrecs hslot hup
    exact ⟨s', _, hexec, hfree, hfreed, hheld, rfl, rfl, recordBits_fields e.seq (s.pkgNow pkg) h e.tasks.toNat e.msgs.toNat e.stores.toNat
      e.queue e.status_lt rfl⟩

end Sys2Proof.Machine
end

section
/-! What the instant units of the packages tell each other (R207 to R211, R218, R224). -/

namespace Sys2Proof.Machine

section reports
variable {s : State} {k pkg h frm a b c : Nat} {e : Lapse}

/-- R218, R224: a report is counted at the handle. -/
def Lapse.count (a b c : Nat) (e : Lapse) : Lapse :=
  { e with tasks := satAdd e.tasks a, msgs := satAdd e.msgs b, stores := satAdd e.stores c }

theorem addCounts_of_some (he : s.lapse? pkg h = some e) : addCounts s pkg h a b c = s.modLapse pkg h (Lapse.count a b c) := by
  simp only [addCounts, he]
  rfl

theorem addCounts_of_none (he : s.lapse? pkg h = none) : addCounts s pkg h a b c = addPkgCounts s pkg a b c := by simp only [addCounts, he]

theorem lapse?_addPkgCounts (i x : Nat) : (addPkgCounts s pkg a b c).lapse? i x = s.lapse? i x := by
  rw [addPkgCounts, State.modBridge, lapse?_modPkg_of_keeps]
  exact fun _ => rfl

theorem releaseExport_of_none (he : s.lapse? pkg h = none) : releaseExport s pkg h frm = s := by simp only [releaseExport, he]

theorem exec_dropReport_of_own (hm : s.ctl[k]? = some (.drop pkg h a b c)) :
    exec (.dropReport k) s = .next (addCounts (dropCtl s k) pkg h a b c) := by simp only [exec_dropReport, execDropReport, hm]

/-- R209, R218, R459: a report by the origin identity also ends the reference of a package that holds no proxy. -/
theorem exec_dropReport_of_origin (hm : s.ctl[k]? = some (.dropAt frm pkg h a b c)) (he : s.lapse? pkg h = some e) :
    exec (.dropReport k) s = .next (if (proxyOf s frm pkg (BitVec.ofNat 16 h)).isSome then (dropCtl s k).modLapse pkg h (Lapse.count a b c)
      else releaseExport ((dropCtl s k).modLapse pkg h (Lapse.count a b c)) pkg h frm) := by
  have he' : (dropCtl s k).lapse? pkg h = some e := he
  have hproxy : proxyOf ((dropCtl s k).modLapse pkg h (Lapse.count a b c)) frm pkg (BitVec.ofNat 16 h) =
      proxyOf s frm pkg (BitVec.ofNat 16 h) := proxyOf_modLapse (f := Lapse.count a b c) (fun _ => ⟨rfl, rfl, rfl⟩) ..
  simp only [exec_dropReport, execDropReport, hm, addCounts_of_some he', hproxy]

/-- R209: what is counted at a handle ends a listed package's reference there. -/
theorem released_of_counted {f : Lapse → Lapse} (he : s.lapse? pkg h = some e) (h0 : h ≠ 0) (hr : 1 < (f e).ref) (hx : frm ∈ (f e).exports) :
    (releaseExport ((dropCtl s k).modLapse pkg h f) pkg h frm).ctl = dropAt k s.ctl ∧
    (releaseExport ((dropCtl s k).modLapse pkg h f) pkg h frm).lapse? pkg h =
      some { f e with exports := (f e).exports.filter (· != frm), ref := (f e).ref - 1 } := by
  have he' : ((dropCtl s k).modLapse pkg h f).lapse? pkg h = some (f e) := by
    rw [lapse?_modLapse_same, show (dropCtl s k).lapse? pkg h = some e from he, Option.map_some]
  exact releaseExport_of_more h0 he' hr hx

/-- R209, R224: a proxy's report is counted at its origin's handle, with the fault that it tells. -/
theorem exec_proxyReport_of_some {fault : Bool} (hm : s.ctl[k]? = some (.proxyReport frm pkg h a b c fault)) (he : s.lapse? pkg h = some e) :
    ∃ s', exec (.proxyReport k) s = .next (releaseExport s' pkg h frm) ∧ s'.ctl = dropAt k s.ctl ∧
      s'.lapse? pkg h = some { Lapse.count a b c e with fault := e.fault || fault } := by
  have he' : (dropCtl s k).lapse? pkg h = some e := he
  have hexec : exec (.proxyReport k) s = .next (releaseExport (if fault then markFault ((dropCtl s k).modLapse pkg h (Lapse.count a b c)) pkg h
      else (dropCtl s k).modLapse pkg h (Lapse.count a b c)) pkg h frm) := by
    simp only [exec_proxyReport, execProxyReport, hm, addCounts_of_some he']
  refine ⟨_, hexec, ?_, ?_⟩
  · cases fault <;> rfl
  · cases fault
    case false => simp only [Bool.false_eq_true, if_false, lapse?_modLapse_same, he', Option.map_some, Bool.or_false]; rfl
    case true => simp only [if_true, markFault, lapse?_modLapse_same, he', Option.map_some, Bool.or_true]

theorem exec_proxyReport_of_none (hm : s.ctl[k]? = some (.proxyReport frm pkg h a b c false)) (he : s.lapse? pkg h = none) :
    exec (.proxyReport k) s = .next (addPkgCounts (dropCtl s k) pkg a b c) := by
  have he' : (dropCtl s k).lapse? pkg h = none := he
  simp only [exec_proxyReport, execProxyReport, hm, addCounts_of_none he', Bool.false_eq_true, if_false]
  rw [releaseExport_of_none ((lapse?_addPkgCounts ..).trans he')]

end reports

section notices
variable {s : State} {k pkg h frm third proxy : Nat} {e : Lapse}

/-- R209: a package that a handle's entry has room to list takes a reference there. -/
theorem addExport_of_room (he : s.lapse? pkg h = some e) (hx : third ∉ e.exports) (hl : e.exports.length < 8) (hlive : e.l = false) :
    addExport s pkg h third = s.modLapse pkg h fun e => { e with exports := e.exports ++ [third], ref := e.ref + 1, settle := none } := by
  have hx' : e.exports.contains third = false := by simpa using hx
  simp only [addExport, he, hx', hlive, Bool.false_and, Bool.false_eq_true, if_false]
  exact modLapse_congr he (if_pos hl)

theorem exec_exportNotice_of_room (hm : s.ctl[k]? = some (.exportNotice frm pkg h third proxy)) (he : s.lapse? pkg h = some e)
    (hx : third ∉ e.exports) (hl : e.exports.length < 8) (hlive : e.l = false) : exec (.exportNotice k) s =
      .next { (dropCtl s k).modLapse pkg h fun e => { e with exports := e.exports ++ [third], ref := e.ref + 1, settle := none } with
        ctl := dropAt k s.ctl ++ [.noticeAck frm proxy] } := by
  have he' : (dropCtl s k).lapse? pkg h = some e := he
  simp only [exec_exportNotice, execExportNotice, hm, addExport_of_room he' hx hl hlive]
  rfl

theorem exec_exportNoticeAck_of_ack (hm : s.ctl[k]? = some (.noticeAck pkg h)) :
    exec (.exportNoticeAck k) s = .next (refDec (dropCtl s k) pkg h) := by simp only [exec_exportNoticeAck, execExportNoticeAck, hm]

/-- R209, R218: the reports of a proxy's last drops are taken, and its counters go to its origin. -/
theorem endProxy_ctl (s : State) (pkg h : Nat) (e : Lapse) : (endProxy s pkg h e).ctl = (s.ctl.filter fun m => match m with
      | .drop p x _ _ _ => !(p == pkg && x == h)
      | _ => true) ++ [.proxyReport pkg e.opkg e.ohnd.toNat (satAdd e.tasks (comingDrops s pkg h).1).toNat
        (satAdd e.msgs (comingDrops s pkg h).2.1).toNat (satAdd e.stores (comingDrops s pkg h).2.2).toNat e.fault] := freeHandle_ctl

end notices

section changes
variable {s : State} {k pkg h opkg proxy u : Nat} {e x : Lapse} {inst : Instant} {fault : Bool}

theorem exec_cancelPropagation_of_proxy (hm : s.ctl[k]? = some (.cancel pkg opkg proxy))
    (hp : proxyOf s pkg opkg (BitVec.ofNat 16 proxy) = some h) : exec (.cancelPropagation k) s = .next (lapseProxy (dropCtl s k) pkg h true) := by
  simp only [exec_cancelPropagation, execCancelPropagation, hm, hp]

theorem exec_cancelPropagation_of_no_proxy (hm : s.ctl[k]? = some (.cancel pkg opkg proxy))
    (hp : proxyOf s pkg opkg (BitVec.ofNat 16 proxy) = none) : exec (.cancelPropagation k) s = .next (dropCtl s k) := by
  simp only [exec_cancelPropagation, execCancelPropagation, hm, hp]

theorem exec_cancelPropagation_of_origin (hm : s.ctl[k]? = some (.cancelOrigin pkg h)) (hu : usable s pkg h = true) :
    exec (.cancelPropagation k) s = .next (lapseHandle (dropCtl s k) pkg h true) := by
  simp only [exec_cancelPropagation, execCancelPropagation, hm, hu, if_true]

theorem usable_of_live (he : s.lapse? pkg h = some e) (hl : e.l = false) (hs : e.settle = none) : usable s pkg h = true := by
  simp only [usable, he, hl, hs, Option.isNone_none, Bool.not_false, Bool.and_self]

/-- R209: the packages that an entry lists are told of a CANCEL. -/
theorem tellCancel_of_listed (hk : e.kind ≠ .proxy) (ho : e.overflow = false) :
    (tellCancel s pkg h e true).ctl = s.ctl ++ e.exports.map fun p => .cancel p pkg h := by
  have hk' : (e.kind == .proxy) = false := beq_eq_false_iff_ne.2 hk
  simp only [tellCancel, propagate, hk', ho, Bool.false_eq_true, if_false, if_true]

/-- R208, R210: a handle takes a new instant, and every replica is told. -/
def takeInst (s : State) (pkg h : Nat) (inst : Instant) : State :=
  (s.modLapse pkg h fun e => { e with inst := inst }).broadcast pkg (.inst h inst)

theorem exec_unionChangePropagation_of_proxy (hm : s.ctl[k]? = some (.unionChange pkg opkg proxy inst false))
    (hp : proxyOf s pkg opkg (BitVec.ofNat 16 proxy) = some h) :
    exec (.unionChangePropagation k) s = .next (memberMoved (takeInst (dropCtl s k) pkg h inst) pkg h) := by
  simp only [exec_unionChangePropagation, execUnionChangePropagation, hm, hp, Bool.false_eq_true, if_false]
  rfl

theorem exec_unionChangePropagation_of_no_proxy (hm : s.ctl[k]? = some (.unionChange pkg opkg proxy inst fault))
    (hp : proxyOf s pkg opkg (BitVec.ofNat 16 proxy) = none) : exec (.unionChangePropagation k) s = .next (dropCtl s k) := by
  simp only [exec_unionChangePropagation, execUnionChangePropagation, hm, hp]

theorem lapse?_takeInst_same (he : s.lapse? pkg h = some e) : (takeInst s pkg h inst).lapse? pkg h = some { e with inst := inst } := by
  rw [takeInst, lapse?_broadcast, lapse?_modLapse_same, he, Option.map_some]

theorem NoUnions.takeInst (hu : NoUnions s pkg) : NoUnions (Machine.takeInst s pkg h inst) pkg := by
  rw [Machine.takeInst]
  refine NoUnions.broadcast (hu.modLapse ?_) _
  exact fun _ => rfl

theorem coming_takeInst {d : Nat} (hd : d < 8) : ((takeInst s pkg h inst).die (pkg * 8 + d)).replica.coming =
    (s.die (pkg * 8 + d)).replica.coming ++ [((s.pkg pkg).bseq, .inst h inst)] := by
  rw [takeInst, coming_broadcast hd, pkg_modLapse_of_keeps (k := Pkg.bseq) fun _ _ => rfl]
  rfl

/-- A changed entry that a filter leaves out before and after changes nothing of what it keeps. -/
theorem filter_tmod_of_left_out {α : Type} {p : α → Bool} {f : α → α} {k : Nat} {t : Table α} {x : α} (hx : tget t k = some x)
    (hp : p x = false) (hf : p (f x) = false) : (tmod k f t).filter (fun y => p y.2) = t.filter fun y => p y.2 := by
  induction t with
  | nil => rfl
  | cons y r ih =>
    obtain ⟨j, y⟩ := y
    by_cases hj : (j == k) = true
    · simp only [tget, hj, if_true, Option.some.injEq] at hx
      subst hx
      simp only [tmod, hj, if_true, List.filter_cons, hp, hf, Bool.false_eq_true, if_false]
    · simp only [tget, hj, Bool.false_eq_true, if_false] at hx
      simp only [tmod, hj, Bool.false_eq_true, if_false, List.filter_cons, ih hx]

theorem propagate_pkgs (f : Nat → Ctl) : (propagate s pkg e f).pkgs = s.pkgs := rfl

/-- A union holds a member live. -/
def unionHolds (h : Nat) (x : Lapse) : Bool := x.kind == .union && x.members.contains (h, true)

/-- R210: a sole union takes the instant that its live members give. -/
theorem lapse?_memberMoved_of_sole (hf : (s.pkg pkg).lapse.filter (fun y => unionHolds h y.2) = [(u, x)])
    (hi : unionInst s pkg x.members = some inst) (hx : s.lapse? pkg u = some x) :
    (memberMoved s pkg h).lapse? pkg u = some { x with inst := inst } := by
  have hmoved : memberMoved s pkg h = if inst == x.inst then s
      else propagate ((s.modLapse pkg u fun e => { e with inst := inst }).broadcast pkg (.union u x.members inst)) pkg x
        fun p => .unionChange p pkg u inst false := by
    change (List.filter (fun y => unionHolds h y.2) (s.pkg pkg).lapse).foldl _ s = _
    rw [hf, List.foldl_cons, List.foldl_nil]
    simp only [hi]
  rw [hmoved]
  split
  · next hsame =>
    obtain rfl := beq_iff_eq.1 hsame
    exact hx
  · rw [lapse?_congr (propagate_pkgs _), lapse?_broadcast, lapse?_modLapse_same, hx, Option.map_some]

/-- R208, R210: a union whose only live member is a proxy takes the proxy's new instant. -/
theorem lapse?_memberMoved_takeInst (he : s.lapse? pkg h = some e) (hne : u ≠ h)
    (hsole : (s.pkg pkg).lapse.filter (·.2.kind == .union) = [(u, x)]) (hx : s.lapse? pkg u = some x) (hms : x.members = [(h, true)]) :
    (memberMoved (takeInst s pkg h inst) pkg h).lapse? pkg u = some { x with inst := inst } := by
  have hkind : (e.kind == .union) = false := by
    rw [Bool.eq_false_iff]
    intro hk
    have hmem : (h, e) ∈ (s.pkg pkg).lapse.filter (·.2.kind == .union) := List.mem_filter.2 ⟨mem_of_tget he, hk⟩
    rw [hsole, List.mem_singleton] at hmem
    exact hne (congrArg Prod.fst hmem).symm
  have hheld : (s.pkg pkg).lapse.filter (fun y => unionHolds h y.2) = [(u, x)] := by
    have hsplit : (s.pkg pkg).lapse.filter (fun y => unionHolds h y.2) =
        ((s.pkg pkg).lapse.filter (·.2.kind == .union)).filter fun y => y.2.members.contains (h, true) := by
      rw [List.filter_filter]
      simp only [unionHolds, Bool.and_comm]
    rw [hsplit, hsole, List.filter_cons, hms]
    simp
  have hlapse : ((takeInst s pkg h inst).pkg pkg).lapse = tmod h (fun e => { e with inst := inst }) (s.pkg pkg).lapse := by
    rw [takeInst, pkg_broadcast_of_keeps (g := Pkg.lapse) fun _ _ => rfl, State.modLapse, pkg_modPkg_same]
  refine lapse?_memberMoved_of_sole ?_ ?_ ?_
  · rw [hlapse, filter_tmod_of_left_out (p := unionHolds h) (x := e) he (by simp only [unionHolds, hkind, Bool.false_and])
      (by simp only [unionHolds, hkind, Bool.false_and]), hheld]
  · simp only [unionInst, hms, List.foldl_cons, List.foldl_nil, if_true, lapse?_takeInst_same he]
  · rw [takeInst, lapse?_broadcast, lapse?_modLapse_other hne, hx]

end changes

/-- R207, R209, R211, R218, R224: reports, notices, cancellations and new instants between the packages. -/
theorem packagesTell : PackagesTell := by
  unfold PackagesTell
  intro s k pkg h frm third proxy a b c opkg e inst fault m rest took counts entry
  refine ⟨fun hm => ⟨fun he => ?counted, fun he => ?packageCounted⟩, fun hm hp he => ?atOrigin, fun hm hp he h0 hk hx hr => ?released,
    fun hm he hx hl hlive => ?listed, fun hm he h0 hr => ?acked, fun hm he h0 hr hk => ?proxyEnds, fun hm he h0 hr hk => ?settles,
    fun hm he h0 hk hx hr => ?reported, fun hm he => ?reportedFree, fun hm hp he hl hu => ?cancelled, fun hm hp => ?noProxy,
    fun hm he hl hs hk ho hu => ?atItsOrigin, fun u x hm hp he hne hsole hx hms => ?union, fun hm hp he hu => ?newInst, fun hm hp => ?noUnionProxy⟩
  case counted => rw [exec_dropReport_of_own hm, addCounts_of_some (s := dropCtl s k) he]; rfl
  case packageCounted => rw [exec_dropReport_of_own hm, addCounts_of_none (s := dropCtl s k) he]; rfl
  case atOrigin => rw [exec_dropReport_of_origin hm he, if_pos hp]; rfl
  case released =>
    refine ⟨_, exec_dropReport_of_origin hm he, ?_⟩
    rw [hp]
    exact released_of_counted he h0 hr hx
  case listed => exact exec_exportNotice_of_room hm he hx hl hlive
  case acked => rw [exec_exportNoticeAck_of_ack hm, refDec_of_more (s := dropCtl s k) h0 he hr]; rfl
  case proxyEnds =>
    have hexec := exec_exportNoticeAck_of_ack hm
    rw [refDec_of_last_proxy (s := dropCtl s k) h0 he hr hk] at hexec
    refine ⟨_, hexec, ?_, ?_, endProxy_ctl ..⟩
    · rw [lapse?_congr endProxy_pkgs, lapse?_freeHandle_same]
    · rw [pkg_congr endProxy_pkgs, pkg_freeHandle]; rfl
  case settles => exact ⟨_, exec_exportNoticeAck_of_ack hm, lapse?_refDec_of_last_request (s := dropCtl s k) h0 he hr hk⟩
  case reported =>
    obtain ⟨s', hexec, hctl, he'⟩ := exec_proxyReport_of_some hm he
    obtain ⟨hctl', hentry⟩ := releaseExport_of_more h0 he' hr hx
    exact ⟨_, hexec, hctl'.trans hctl, hentry⟩
  case reportedFree => exact exec_proxyReport_of_none hm he
  case cancelled =>
    have hexec := exec_cancelPropagation_of_proxy hm hp
    rw [lapseProxy_of_no_unions (s := dropCtl s k) he hl hu] at hexec
    exact ⟨_, hexec, lapses_markLapsed (s := dropCtl s k) he true, broadcast_ctl⟩
  case noProxy => exact exec_cancelPropagation_of_no_proxy hm hp
  case atItsOrigin =>
    have hexec := exec_cancelPropagation_of_origin hm (usable_of_live he hl hs)
    have hlapses := lapses_lapseHandle (s := dropCtl s k) (cancel := true) he hl hu
    rw [lapseHandle_of_no_unions (s := dropCtl s k) he hl hu] at hexec hlapses
    refine ⟨_, hexec, hlapses, (tellCancel_of_listed (by rw [hk]; decide) ho).trans ?_⟩
    rw [markLapsed, broadcast_ctl]
    rfl
  case union =>
    exact ⟨_, exec_unionChangePropagation_of_proxy hm hp, lapse?_memberMoved_takeInst (s := dropCtl s k) he hne hsole hx hms⟩
  case newInst =>
    have hexec := exec_unionChangePropagation_of_proxy hm hp
    rw [memberMoved_of_no_unions (NoUnions.takeInst (s := dropCtl s k) hu)] at hexec
    exact ⟨_, hexec, lapse?_takeInst_same (s := dropCtl s k) he, broadcast_ctl, fun d hd => coming_takeInst (s := dropCtl s k) hd⟩
  case noUnionProxy => exact exec_unionChangePropagation_of_no_proxy hm hp

end Sys2Proof.Machine
end

section
/-! The instant unit's answers (R205, R210, R214, R433, R435, R436), and O52. -/

namespace Sys2Proof.Machine

section waits
variable {s s' : State} {req : Req} {n : Nat} {t : Thread} {p : Park}

/-- The thread of a request at the instant unit stands in its slot, at home, and waits for the answer. -/
structure AwaitsAt (s : State) (req : Req) (n : Nat) (t : Thread) (p : Park) : Prop where
  located : locate s req.ep req.uid = .slot n
  thread : s.thr? req.ep n = some t
  parked : t.park = some p
  entry : req.entry = 16 + 32 * p.ser
  home : t.origin = none

theorem AwaitsAt.congr (h : AwaitsAt s req n t p) (hc : s'.cores = s.cores) : AwaitsAt s' req n t p where
  located := locate_of_slots_eq (by rw [State.core, hc, State.core]) h.located
  thread := by rw [State.thr?, hc]; exact h.thread
  parked := h.parked
  entry := h.entry
  home := h.home

theorem AwaitsAt.thrWhere (h : AwaitsAt s req n t p) : s.thrWhere req.ep (locate s req.ep req.uid) = some t := by
  rw [h.located]
  exact h.thread

theorem AwaitsAt.awaits (h : AwaitsAt s req n t p) : awaits s req = true := by
  simp only [Machine.awaits, h.thrWhere, h.parked, h.entry, beq_self_eq_true]

/-- A thread that has its answer goes on behind its instruction, with p7 as answered. -/
def Answered (s : State) (ep : EP) (n : Nat) (t : Thread) (p : Park) (ok : Bool) (sr : Specials) : Prop :=
  ∃ t', s.thr? ep n = some t' ∧ t'.park = none ∧ t'.pc = p.next ∧ t'.regs = (t.p7 ok).regs ∧ t'.sr = sr

/-- The unit's answer: p7 = 1, or p7 = 0. -/
def verdict (ok : Bool) : Answer := if ok then .joined else .timedOut

theorem settle_verdict (h : AwaitsAt s req n t p) (ok : Bool) :
    s.settle req (verdict ok) = s.modThr req.ep n fun t => (t.p7 ok).goTo p.next := by
  obtain ⟨bits, hset⟩ := settle_parked (a := verdict ok) h.located h.thread h.home h.parked h.entry
  rw [hset]
  cases ok
  · exact settlePlain_timedOut bits
  · exact settlePlain_joined bits

theorem answered_settle (h : AwaitsAt s req n t p) (ok : Bool) : Answered (s.settle req (verdict ok)) req.ep n t p ok t.sr := by
  rw [settle_verdict h]
  exact ⟨_, (thr?_modThr ..).trans (congrArg _ h.thread), rfl, rfl, rfl, Thread.p7_sr t ok⟩

theorem settle_verdict_pkgs (h : AwaitsAt s req n t p) (ok : Bool) : (s.settle req (verdict ok)).pkgs = s.pkgs := by
  rw [settle_verdict h]
  rfl

theorem settle_verdict_dies (h : AwaitsAt s req n t p) (ok : Bool) : (s.settle req (verdict ok)).dies = s.dies := by
  rw [settle_verdict h]
  rfl

end waits

section requests
variable {s : State} {pkg h : Nat} {req : Req} {r : IuReq}

/-- A request has been taken from those that wait at the instant unit. -/
def unitTook (s : State) (pkg : Nat) (r : IuReq) : State := s.modPkg pkg fun p => { p with iureqs := p.iureqs.erase r }

@[simp] theorem lapse?_unitTook (i x : Nat) : (unitTook s pkg r).lapse? i x = s.lapse? i x := by
  rw [unitTook, lapse?_modPkg_of_keeps]
  exact fun _ => rfl

theorem pkg_unitTook (hq : (s.pkg pkg).iureqs = [r]) : (unitTook s pkg r).pkg pkg = { s.pkg pkg with iureqs := [] } := by
  rw [unitTook, pkg_modPkg_same, hq, List.erase_cons_head]

theorem exec_instantUnitRequest_of_none (hq : (s.pkg pkg).iureqs = []) : exec (.instantUnitRequest pkg) s = .next s := by
  simp only [exec_instantUnitRequest, execInstantUnitRequest, hq, List.find?_nil]

theorem exec_instantUnitRequest_of_cancel (hq : (s.pkg pkg).iureqs = [.cancel req h]) : exec (.instantUnitRequest pkg) s =
    .next (if usable (unitTook s pkg (.cancel req h)) pkg h then (lapseHandle (unitTook s pkg (.cancel req h)) pkg h true).settle req (verdict true)
      else (unitTook s pkg (.cancel req h)).settle req (verdict false)) := by
  simp only [exec_instantUnitRequest, execInstantUnitRequest, hq, List.find?_cons]
  rfl

theorem exec_instantUnitRequest_of_adopt (hq : (s.pkg pkg).iureqs = [.adopt req h]) (ha : awaits (unitTook s pkg (.adopt req h)) req = true) :
    exec (.instantUnitRequest pkg) s = .next (adoptHandle (unitTook s pkg (.adopt req h)) pkg req h) := by
  simp only [exec_instantUnitRequest, execInstantUnitRequest, hq, List.find?_cons]
  exact congrArg Host.Outcome.next (if_pos ha)

theorem exec_instantUnitRequest_of_union {ctx : Ctx} {hs : List Nat} {d : Reg} (hq : (s.pkg pkg).iureqs = [.union req ctx hs d])
    (ha : awaits (unitTook s pkg (.union req ctx hs d)) req = true) :
    exec (.instantUnitRequest pkg) s = .next (makeUnion (unitTook s pkg (.union req ctx hs d)) pkg req ctx hs d) := by
  simp only [exec_instantUnitRequest, execInstantUnitRequest, hq, List.find?_cons]
  exact congrArg Host.Outcome.next (if_pos ha)

end requests

section cancel
variable {s : State} {pkg h n : Nat} {req : Req} {t : Thread} {p : Park} {e : Lapse}

theorem lapses_of_unitTook {r : IuReq} {s' : State} (hl : Lapses (unitTook s pkg r) s' pkg h e true) : Lapses s s' pkg h e true := by
  have hseq : ((unitTook s pkg r).pkg pkg).bseq = (s.pkg pkg).bseq := by rw [unitTook, pkg_modPkg_same]
  obtain ⟨hentry, hbseq, hcoming, hothers⟩ := hl
  rw [hseq] at hbseq hcoming
  exact ⟨hentry, hbseq, hcoming, fun x hx => (hothers x hx).trans (lapse?_unitTook pkg x)⟩

/-- R205, R435: CANCEL of a live handle lapses it. -/
theorem instantUnitRequest_cancels (hq : (s.pkg pkg).iureqs = [.cancel req h]) (hw : AwaitsAt s req n t p) (he : s.lapse? pkg h = some e)
    (hl : e.l = false) (hs : e.settle = none) (hu : NoUnions s pkg) : ∃ s', exec (.instantUnitRequest pkg) s = .next s' ∧
      (s'.pkg pkg).iureqs = [] ∧ Lapses s s' pkg h e true ∧ Answered s' req.ep n t p true t.sr := by
  generalize hs0 : unitTook s pkg (.cancel req h) = s0
  have he0 : s0.lapse? pkg h = some e := by rw [← hs0, lapse?_unitTook, he]
  have hpkg0 := pkg_unitTook hq
  rw [hs0] at hpkg0
  have hu0 : NoUnions s0 pkg := hu.congr (by rw [hpkg0])
  have hlapse := lapseHandle_of_no_unions (cancel := true) he0 hl hu0
  have hw1 : AwaitsAt (lapseHandle s0 pkg h true) req n t p := by
    refine hw.congr ?_
    rw [hlapse, tellCancel_cores, markLapsed, broadcast_cores, ← hs0]
    rfl
  have hexec := exec_instantUnitRequest_of_cancel hq
  rw [hs0, if_pos (usable_of_live he0 hl hs)] at hexec
  refine ⟨_, hexec, ?reqs, ?lapses, answered_settle hw1 true⟩
  case reqs =>
    rw [pkg_congr (settle_verdict_pkgs hw1 true), hlapse, pkg_congr tellCancel_pkgs, markLapsed,
      pkg_broadcast_of_keeps (g := Pkg.iureqs) (fun _ _ => rfl), pkg_modLapse_of_keeps (k := Pkg.iureqs) (fun _ _ => rfl), hpkg0]
  case lapses =>
    have hlapses := lapses_congr (lapses_lapseHandle (cancel := true) he0 hl hu0) (settle_verdict_pkgs hw1 true) (settle_verdict_dies hw1 true)
    exact lapses_of_unitTook (r := .cancel req h) (hs0 ▸ hlapses)

/-- R433, R435, R436: a request that the unit refuses changes no handle. -/
theorem instantUnitRequest_refuses {r : IuReq} (hq : (s.pkg pkg).iureqs = [r]) (hw : AwaitsAt s req n t p)
    (hexec : exec (.instantUnitRequest pkg) s = .next ((unitTook s pkg r).settle req (verdict false))) :
    ∃ s', exec (.instantUnitRequest pkg) s = .next s' ∧ (s'.pkg pkg).iureqs = [] ∧ (s'.pkg pkg).lapse = (s.pkg pkg).lapse ∧
      Answered s' req.ep n t p false t.sr := by
  have hw0 : AwaitsAt (unitTook s pkg r) req n t p := hw.congr rfl
  have hpkg : ((unitTook s pkg r).settle req (verdict false)).pkg pkg = { s.pkg pkg with iureqs := [] } := by
    rw [pkg_congr (settle_verdict_pkgs hw0 false), pkg_unitTook hq]
  exact ⟨_, hexec, by rw [hpkg], by rw [hpkg], answered_settle hw0 false⟩

theorem usable_eq_false (hno : ∀ e, s.lapse? pkg h = some e → e.l = true ∨ e.settle ≠ none) : usable s pkg h = false := by
  unfold usable
  split
  · next e he =>
    rcases hno e he with hl | hs
    · rw [hl]; rfl
    · rw [Option.isNone_eq_false_iff.2 (Option.isSome_iff_ne_none.2 hs), Bool.and_false]
  · rfl

theorem exec_cancel_of_not_usable (hq : (s.pkg pkg).iureqs = [.cancel req h])
    (hno : ∀ e, s.lapse? pkg h = some e → e.l = true ∨ e.settle ≠ none) :
    exec (.instantUnitRequest pkg) s = .next ((unitTook s pkg (.cancel req h)).settle req (verdict false)) := by
  have hu := usable_eq_false (s := unitTook s pkg (.cancel req h)) (pkg := pkg) (h := h) (by simpa only [lapse?_unitTook] using hno)
  rw [exec_instantUnitRequest_of_cancel hq, hu]
  rfl

end cancel

section adopt
variable {s : State} {pkg h n : Nat} {req : Req} {t : Thread} {p : Park} {e old : Lapse}

/-- R214, R436: a slot holds a handle with its instant. -/
def Thread.hold (inst : Instant) (h : Nat) (t : Thread) : Thread :=
  { t with sr := { t.sr with inst := inst, hnd := BitVec.ofNat 16 h } }

theorem AwaitsAt.hold (hw : AwaitsAt s req n t p) (inst : Instant) (h : Nat) :
    AwaitsAt (s.modThr req.ep n (Thread.hold inst h)) req n (t.hold inst h) p where
  located := locate_modThr (fun _ => rfl) hw.located
  thread := by rw [thr?_modThr, hw.thread, Option.map_some]
  parked := hw.parked
  entry := hw.entry
  home := hw.home

/-- R436: the reference moves from the old handle to the target, and the slot holds that. -/
theorem adoptHandle_of_live (hw : AwaitsAt s req n t p) (hprov : t.provisional = none) (h0 : h ≠ 0) (he : s.lapse? pkg h = some e)
    (hl : e.l = false) : adoptHandle s pkg req h = ((refDec (refInc s pkg h) pkg t.sr.hnd.toNat).modThr req.ep n
      (Thread.hold e.inst h)).settle req (verdict true) := by
  have hlive : s.live pkg h = true := by simp only [State.live, he, hl, Bool.not_false]
  have hgoes : (h != 0 && !s.live pkg h) = false := by rw [hlive, Bool.not_true, Bool.and_false]
  have hz : (h == 0) = false := beq_eq_false_iff_ne.2 h0
  have hmine : (t.provisional == some (BitVec.ofNat 16 h) && h != 0) = false := by rw [hprov]; rfl
  have hthread : s.thrWhere req.ep (.slot n) = some t := hw.thread
  simp only [adoptHandle, hw.located, hthread, hgoes, he, hz, hmine, hw.home, Bool.false_eq_true, if_false]
  rfl

theorem adoptHandle_of_lapsed (hw : AwaitsAt s req n t p) (h0 : h ≠ 0) (hno : ∀ e, s.lapse? pkg h = some e → e.l = true) :
    adoptHandle s pkg req h = s.settle req (verdict false) := by
  have hlive : s.live pkg h = false := by
    unfold State.live
    split
    · next e he => rw [hno e he]; rfl
    · rfl
  have hrefused : (h != 0 && !s.live pkg h) = true := by rw [hlive, bne_iff_ne.2 h0]; rfl
  simp only [adoptHandle, hw.thrWhere, hrefused, if_true]
  rfl

/-- R214, R436: ADOPT of a live handle. -/
theorem instantUnitRequest_adopts (hq : (s.pkg pkg).iureqs = [.adopt req h]) (hw : AwaitsAt s req n t p) (hprov : t.provisional = none)
    (he : s.lapse? pkg h = some e) (hl : e.l = false) (h0 : h ≠ 0) (hne : t.sr.hnd.toNat ≠ h) (hold0 : t.sr.hnd ≠ 0)
    (hold : s.lapse? pkg t.sr.hnd.toNat = some old) (hr : 1 < old.ref) :
    ∃ s', exec (.instantUnitRequest pkg) s = .next s' ∧ (s'.pkg pkg).iureqs = [] ∧
      s'.lapse? pkg h = some { e with ref := e.ref + 1, settle := none } ∧
      s'.lapse? pkg t.sr.hnd.toNat = some { old with ref := old.ref - 1 } ∧
      Answered s' req.ep n t p true { t.sr with inst := e.inst, hnd := BitVec.ofNat 16 h } := by
  have hw0 : AwaitsAt (unitTook s pkg (.adopt req h)) req n t p := hw.congr rfl
  have hexec := exec_instantUnitRequest_of_adopt hq hw0.awaits
  have he0 : (unitTook s pkg (.adopt req h)).lapse? pkg h = some e := (lapse?_unitTook ..).trans he
  have hold0' : (unitTook s pkg (.adopt req h)).lapse? pkg t.sr.hnd.toNat = some old := (lapse?_unitTook ..).trans hold
  have hreqs : ((unitTook s pkg (.adopt req h)).pkg pkg).iureqs = [] := by rw [pkg_unitTook hq]
  generalize unitTook s pkg (.adopt req h) = s0 at hw0 hexec he0 hold0' hreqs
  have hn0 : t.sr.hnd.toNat ≠ 0 := fun hz => hold0 (BitVec.eq_of_toNat_eq hz)
  have hold1 : (refInc s0 pkg h).lapse? pkg t.sr.hnd.toNat = some old := by
    rw [refInc_of_ne_zero h0, lapse?_modLapse_other hne, hold0']
  have hmoved : refDec (refInc s0 pkg h) pkg t.sr.hnd.toNat =
      (refInc s0 pkg h).modLapse pkg t.sr.hnd.toNat fun e => { e with ref := e.ref - 1 } := refDec_of_more hn0 hold1 hr
  have hw1 : AwaitsAt (refDec (refInc s0 pkg h) pkg t.sr.hnd.toNat) req n t p := by
    rw [hmoved, refInc_of_ne_zero h0]
    exact hw0.congr rfl
  have hw2 := hw1.hold e.inst h
  rw [adoptHandle_of_live hw0 hprov h0 he0 hl] at hexec
  refine ⟨_, hexec, ?reqs, ?target, ?old, answered_settle hw2 true⟩
  case reqs =>
    rw [pkg_congr (settle_verdict_pkgs hw2 true)]
    change ((refDec (refInc s0 pkg h) pkg t.sr.hnd.toNat).pkg pkg).iureqs = []
    rw [hmoved, pkg_modLapse_of_keeps (k := Pkg.iureqs) fun _ _ => rfl, refInc_of_ne_zero h0,
      pkg_modLapse_of_keeps (k := Pkg.iureqs) fun _ _ => rfl, hreqs]
  case target =>
    rw [lapse?_congr (settle_verdict_pkgs hw2 true)]
    change (refDec (refInc s0 pkg h) pkg t.sr.hnd.toNat).lapse? pkg h = _
    rw [hmoved, lapse?_modLapse_other hne.symm, refInc_of_ne_zero h0, lapse?_modLapse_same, he0, Option.map_some]
  case old =>
    rw [lapse?_congr (settle_verdict_pkgs hw2 true)]
    change (refDec (refInc s0 pkg h) pkg t.sr.hnd.toNat).lapse? pkg t.sr.hnd.toNat = _
    rw [hmoved, lapse?_modLapse_same, hold1, Option.map_some]

end adopt

section union
variable {s : State} {pkg h n : Nat} {req : Req} {t : Thread} {p : Park} {e : Lapse} {d : Reg} {ctx : Ctx}

/-- R206: a handle never used before is taken, where no queue waits for one. -/
theorem takeHandle_of_fresh (hf : (s.pkg pkg).fresh < 65536) (hw : (s.pkg pkg).handleWait = []) :
    takeHandle s pkg = some ((s.pkg pkg).fresh, s.modPkg pkg fun p => { p with fresh := p.fresh + 1 }) := by
  have hfree : ¬ (s.pkg pkg).handlesFree ≤ 0 := by
    rw [Pkg.handlesFree]
    omega
  simp only [takeHandle, takeHandleBehind, hw, List.length_nil, hfree, hf, if_false, if_true]

theorem makeHandle_pkgs : (makeHandle s pkg h e).pkgs = (s.modPkg pkg fun p => { p with lapse := tput h e p.lapse }).pkgs := forget_pkgs
theorem makeHandle_cores : (makeHandle s pkg h e).cores = s.cores := forget_cores

/-- R210, R433: a union of one live member. -/
def unionOf (pkg u h : Nat) (inst : Instant) (ctx : Ctx) : Lapse :=
  { Lapse.start .union pkg (BitVec.ofNat 16 u) inst 1 ctx with members := [(h, true)] }

/-- R433: the first handle never used is a union of one live member, on which it holds a reference. -/
def unionListed (s : State) (pkg h : Nat) (inst : Instant) (ctx : Ctx) : State :=
  refInc (makeHandle (s.modPkg pkg fun p => { p with fresh := p.fresh + 1 }) pkg (s.pkg pkg).fresh
    (unionOf pkg (s.pkg pkg).fresh h inst ctx)) pkg h

theorem lapse_unionListed (h0 : h ≠ 0) (inst : Instant) (ctx : Ctx) : ((unionListed s pkg h inst ctx).pkg pkg).lapse =
    tmod h (fun e => { e with ref := e.ref + 1, settle := none })
      (tput (s.pkg pkg).fresh (unionOf pkg (s.pkg pkg).fresh h inst ctx) (s.pkg pkg).lapse) := by
  rw [unionListed, refInc_of_ne_zero h0, State.modLapse, pkg_modPkg_same, pkg_congr makeHandle_pkgs, pkg_modPkg_same, pkg_modPkg_same]

theorem pkg_unionListed_of_keeps {α : Type} {g : Pkg → α} (hg : ∀ p l n, g { p with lapse := l, fresh := n } = g p) (h0 : h ≠ 0)
    (inst : Instant) (ctx : Ctx) : g ((unionListed s pkg h inst ctx).pkg pkg) = g (s.pkg pkg) := by
  rw [unionListed, refInc_of_ne_zero h0, State.modLapse, pkg_modPkg_same, pkg_congr makeHandle_pkgs, pkg_modPkg_same, pkg_modPkg_same]
  exact hg (s.pkg pkg) _ _

theorem cores_unionListed (h0 : h ≠ 0) (inst : Instant) (ctx : Ctx) : (unionListed s pkg h inst ctx).cores = s.cores := by
  rw [unionListed, refInc_of_ne_zero h0, State.modLapse, modPkg_cores, makeHandle_cores, modPkg_cores]

/-- R433: the union is broadcast, and its answer waits for the replicas. -/
def announceUnion (s : State) (pkg h : Nat) (inst : Instant) (ctx : Ctx) (req : Req) (d : Reg) : State :=
  ((unionListed s pkg h inst ctx).broadcast pkg (.union (s.pkg pkg).fresh [(h, true)] inst)).modPkg pkg fun p =>
    { p with iureqs := p.iureqs ++ [.unionMade req (s.pkg pkg).fresh d (s.pkg pkg).bseq] }

theorem iureqs_announceUnion (h0 : h ≠ 0) (inst : Instant) (ctx : Ctx) (req : Req) (d : Reg) :
    ((announceUnion s pkg h inst ctx req d).pkg pkg).iureqs =
      (s.pkg pkg).iureqs ++ [.unionMade req (s.pkg pkg).fresh d (s.pkg pkg).bseq] := by
  rw [announceUnion, pkg_modPkg_same, pkg_broadcast_of_keeps (g := Pkg.iureqs) fun _ _ => rfl,
    pkg_unionListed_of_keeps (g := Pkg.iureqs) (fun _ _ _ => rfl) h0]

theorem lapse?_announceUnion (h0 : h ≠ 0) (inst : Instant) (ctx : Ctx) (req : Req) (d : Reg) (x : Nat) :
    (announceUnion s pkg h inst ctx req d).lapse? pkg x = tget (tmod h (fun e => { e with ref := e.ref + 1, settle := none })
      (tput (s.pkg pkg).fresh (unionOf pkg (s.pkg pkg).fresh h inst ctx) (s.pkg pkg).lapse)) x := by
  rw [State.lapse?, announceUnion, pkg_modPkg_same, pkg_broadcast_of_keeps (g := Pkg.lapse) fun _ _ => rfl, lapse_unionListed h0]

theorem coming_announceUnion (h0 : h ≠ 0) (inst : Instant) (ctx : Ctx) (req : Req) (d : Reg) {n : Nat} (hn : n < 8) :
    ((s.pkg pkg).bseq, Change.union (s.pkg pkg).fresh [(h, true)] inst) ∈
      ((announceUnion s pkg h inst ctx req d).die (pkg * 8 + n)).replica.coming := by
  have hdies : (announceUnion s pkg h inst ctx req d).dies =
      ((unionListed s pkg h inst ctx).broadcast pkg (.union (s.pkg pkg).fresh [(h, true)] inst)).dies := rfl
  rw [State.die, hdies, ← State.die, coming_broadcast hn, pkg_unionListed_of_keeps (g := Pkg.bseq) (fun _ _ _ => rfl) h0]
  exact List.mem_append_right _ List.mem_cons_self

theorem cores_announceUnion (h0 : h ≠ 0) (inst : Instant) (ctx : Ctx) (req : Req) (d : Reg) :
    (announceUnion s pkg h inst ctx req d).cores = s.cores := by
  rw [announceUnion, modPkg_cores, broadcast_cores, cores_unionListed h0]

/-- R433: a union of one live member is made. -/
theorem makeUnion_of_live (hf : (s.pkg pkg).fresh < 65536) (hw : (s.pkg pkg).handleWait = []) (he : s.lapse? pkg h = some e)
    (hl : e.l = false) (h0 : h ≠ 0) (hu : NoUnions s pkg) (hk : e.kind ≠ .union) :
    makeUnion s pkg req ctx [h] d = announceUnion s pkg h e.inst ctx req d := by
  have hlive : s.live pkg h = true := by simp only [State.live, he, hl, Bool.not_false]
  have hkind : (e.kind != .union) = true := bne_iff_ne.2 hk
  have hz : (h != 0) = true := bne_iff_ne.2 h0
  have hnone : ((s.pkg pkg).lapse.filter fun x => x.2.kind == .union) = [] := List.filter_eq_nil_iff.2 fun x hx => by simp [hu x hx]
  have hok : unionOk s pkg [h] = true := by
    have hroom : ((s.pkg pkg).lapse.filter fun x => x.2.kind == .union).length < 4096 := by rw [hnone]; decide
    refine Bool.and_eq_true_iff.2 ⟨?_, decide_eq_true hroom⟩
    simp [he, hkind, hz, hlive]
  generalize hs1 : s.modPkg pkg (fun p => { p with fresh := p.fresh + 1 }) = s1
  have he1 : s1.lapse? pkg h = some e := by
    rw [← hs1, lapse?_modPkg_of_keeps, he]
    exact fun _ => rfl
  have hlive1 : s1.live pkg h = true := by simp only [State.live, he1, hl, Bool.not_false]
  have hinst : (unionInst s1 pkg [(h, true)]).getD never = e.inst := by
    simp only [unionInst, List.foldl_cons, List.foldl_nil, if_true, he1, Option.getD_some]
  have hseq := pkg_unionListed_of_keeps (s := s) (pkg := pkg) (g := Pkg.bseq) (fun _ _ _ => rfl) h0 e.inst ctx
  rw [unionListed, hs1] at hseq
  simp only [makeUnion, hok, takeHandle_of_fresh hf hw, hs1, List.map_cons, List.map_nil, hlive1, hinst, announceUnion, unionListed, List.foldl_cons,
    List.foldl_nil, if_true, Bool.not_true, Bool.false_eq_true, if_false, ← hseq]
  rfl

theorem makeUnion_of_no_entry (hno : h = 0 ∨ s.lapse? pkg h = none) : makeUnion s pkg req ctx [h] d = s.settle req (verdict false) := by
  have hok : unionOk s pkg [h] = false := by
    rcases hno with rfl | he
    · rfl
    · simp only [unionOk, List.all_cons, he, Bool.and_false, Bool.false_and]
  simp only [makeUnion, hok, Bool.not_false, if_true]
  rfl

/-- R210, R433: UNION of one live member. -/
theorem instantUnitRequest_unites (hq : (s.pkg pkg).iureqs = [.union req ctx [h] d]) (hw : AwaitsAt s req n t p) (hf : (s.pkg pkg).fresh < 65536)
    (hwait : (s.pkg pkg).handleWait = []) (hne : (s.pkg pkg).fresh ≠ h) (he : s.lapse? pkg h = some e) (hl : e.l = false) (h0 : h ≠ 0)
    (hu : NoUnions s pkg) (hk : e.kind ≠ .union) : ∃ s', exec (.instantUnitRequest pkg) s = .next s' ∧
      (s'.pkg pkg).iureqs = [.unionMade req (s.pkg pkg).fresh d (s.pkg pkg).bseq] ∧
      s'.lapse? pkg (s.pkg pkg).fresh = some (unionOf pkg (s.pkg pkg).fresh h e.inst ctx) ∧
      s'.lapse? pkg h = some { e with ref := e.ref + 1, settle := none } ∧
      (∀ d < 8, ((s.pkg pkg).bseq, Change.union (s.pkg pkg).fresh [(h, true)] e.inst) ∈ (s'.die (pkg * 8 + d)).replica.coming) ∧
      s'.cores = s.cores := by
  generalize hs0 : unitTook s pkg (.union req ctx [h] d) = s0
  have hcores0 : s0.cores = s.cores := by rw [← hs0]; rfl
  have hpkg0 := pkg_unitTook hq
  rw [hs0] at hpkg0
  have hfresh : (s0.pkg pkg).fresh = (s.pkg pkg).fresh := by rw [hpkg0]
  have hbseq : (s0.pkg pkg).bseq = (s.pkg pkg).bseq := by rw [hpkg0]
  have hlapse : (s0.pkg pkg).lapse = (s.pkg pkg).lapse := by rw [hpkg0]
  have hreqs : (s0.pkg pkg).iureqs = [] := by rw [hpkg0]
  have he0 : s0.lapse? pkg h = some e := by rw [State.lapse?, hlapse]; exact he
  have hexec := exec_instantUnitRequest_of_union hq (hw.congr (hs0 ▸ hcores0)).awaits
  rw [hs0, makeUnion_of_live (hfresh ▸ hf) (by rw [hpkg0]; exact hwait) he0 hl h0 (hu.congr hlapse) hk] at hexec
  refine ⟨_, hexec, ?reqs, ?made, ?member, fun d hd => ?told, (cores_announceUnion h0 ..).trans hcores0⟩
  case reqs => rw [iureqs_announceUnion h0, hreqs, hfresh, hbseq, List.nil_append]
  case made => rw [lapse?_announceUnion h0, hfresh, tget_tmod_other _ _ hne, tget_tput_same]
  case member =>
    rw [State.lapse?] at he0
    rw [lapse?_announceUnion h0, tget_tmod_same, hfresh, tget_tput_other _ _ hne.symm, he0, Option.map_some]
  case told =>
    rw [← hbseq, ← hfresh]
    exact coming_announceUnion h0 _ _ _ _ hd

end union

/-- R205, R210, R214, R433, R435, R436: CANCEL, ADOPT and UNION at the instant unit. -/
theorem unitAnswers : UnitAnswers := by
  unfold UnitAnswers
  intro s pkg h slot req t p e old d i answered live hloc ht hp hentry _ hhome _
  have hw : AwaitsAt s req slot t p := ⟨hloc, ht, hp, hentry, hhome⟩
  have tells {s' : State} {ok : Bool} {f : Thread → Thread} (ha : Answered s' req.ep slot t p ok (f t).sr) : answered s' ok f := ha
  refine ⟨exec_instantUnitRequest_of_none, fun hq => ⟨?cancel, ?cancelRefused⟩, fun hq hprov => ⟨?adopt, ?adoptRefused⟩,
    fun hq hf hwait hne => ⟨?union, ?unionRefused⟩⟩
  case cancel => exact fun ⟨he, hl⟩ hs hu => instantUnitRequest_cancels hq hw he hl hs hu
  case cancelRefused => exact fun hno => instantUnitRequest_refuses hq hw (exec_cancel_of_not_usable hq hno)
  case adopt => exact fun ⟨he, hl⟩ h0 _ hne hold0 hold hr => instantUnitRequest_adopts hq hw hprov he hl h0 hne hold0 hold hr
  case adoptRefused =>
    intro hno h0
    have hw0 : AwaitsAt (unitTook s pkg (.adopt req h)) req slot t p := hw.congr rfl
    refine instantUnitRequest_refuses hq hw ((exec_instantUnitRequest_of_adopt hq hw0.awaits).trans ?_)
    rw [adoptHandle_of_lapsed hw0 h0 (by simpa only [lapse?_unitTook] using hno)]
  case union =>
    intro ⟨he, hl⟩ h0 hu hk
    obtain ⟨s', hexec, hreqs, hmade, hmember, htold, hcores⟩ := instantUnitRequest_unites hq hw hf hwait hne he hl h0 hu hk
    exact ⟨s', _, hexec, hreqs, hmade, rfl, rfl, rfl, rfl, rfl, hmember, htold, hcores⟩
  case unionRefused =>
    intro hno
    have hw0 : AwaitsAt (unitTook s pkg (.union req t.ctx [h] d)) req slot t p := hw.congr rfl
    have hexec := exec_instantUnitRequest_of_union hq hw0.awaits
    rw [makeUnion_of_no_entry (by simpa only [lapse?_unitTook] using hno)] at hexec
    obtain ⟨s', hexec', hreqs, -, hanswered⟩ := instantUnitRequest_refuses hq hw hexec
    exact ⟨s', hexec', hreqs, hanswered⟩

/-- Settles O52: every step of the unit is a change of the lapse table, of the replicas' broadcasts and of the control plane's messages, told
by the rules of `modLapse`, `broadcast`, `freeHandle` and `settle`. -/
theorem expiryEvents : Obligations.ExpiryEvents := ⟨instantUnit, packagesTell, unitAnswers⟩

end Sys2Proof.Machine
end

section
/-! The formats of R226 by their fields: what the bits of a format hold, and the bits that hold a value. -/

namespace Sys2Proof.Machine

/-- What the formats of R226 share: a sign, an exponent and a fraction fill the width; the least subnormal is no less than 2^−1074; one of
them alone has neither infinities nor more than one NaN of each sign. -/
structure Fmt.Regular (f : Fmt) : Prop where
  width : f.w = f.eb + f.mb + 1
  fraction : 1 ≤ f.mb
  exponent : 2 ≤ f.eb
  lowest : f.bias + f.mb ≤ 1075
  e4m3 : f.e4 = true → f = fmtE4

theorem regular_of_mem {f : Fmt} (h : f ∈ [fmt64, fmt32, fmt16, fmtBf, fmtE4, fmtE5]) : f.Regular := by
  simp only [List.mem_cons, List.not_mem_nil, or_false] at h
  rcases h with rfl | rfl | rfl | rfl | rfl | rfl <;> exact ⟨by decide, by decide, by decide, by decide, by decide⟩

/-- The exponent and the fraction of an infinity or a NaN. -/
def Fmt.Special (f : Fmt) (ex m : Nat) : Prop := ex = 2 ^ f.eb - 1 ∧ (f.e4 = true → m = 2 ^ f.mb - 1)

/-- The finite value of a sign, an exponent and a fraction: a subnormal has the exponent of the least normal (R226). -/
def Fmt.value (f : Fmt) (s : Bool) (ex m : Nat) : FVal :=
  .num s (if ex = 0 then m else m + 2 ^ f.mb) ((max ex 1 : Nat) - (f.bias : Int) - f.mb)

theorem value_zero (f : Fmt) (s : Bool) (m : Nat) : f.value s 0 m = .num s m (1 - (f.bias : Int) - f.mb) := rfl

theorem value_pos (f : Fmt) (s : Bool) {ex : Nat} (m : Nat) (h : ex ≠ 0) :
    f.value s ex m = .num s (m + 2 ^ f.mb) ((ex : Int) - f.bias - f.mb) := by
  rw [Fmt.value, if_neg h, Nat.max_eq_left (Nat.pos_of_ne_zero h)]

section unpack
variable {f : Fmt} {x : Nat}

theorem unpack_of_not_special (h : ¬ f.Special (x / 2 ^ f.mb % 2 ^ f.eb) (x % 2 ^ f.mb)) :
    unpack f x = f.value (bitAt x (f.w - 1)) (x / 2 ^ f.mb % 2 ^ f.eb) (x % 2 ^ f.mb) := by
  simp only [Fmt.Special] at h
  simp only [unpack]
  by_cases h0 : x / 2 ^ f.mb % 2 ^ f.eb = 0
  · rw [h0] at h ⊢
    rw [value_zero]
    cases he : f.e4 <;> simp_all
  · rw [value_pos _ _ _ h0]
    cases he : f.e4 <;> simp_all

theorem not_finite_unpack_of_special (h : f.Special (x / 2 ^ f.mb % 2 ^ f.eb) (x % 2 ^ f.mb)) : ¬ Finite (unpack f x) := by
  obtain ⟨hex, hm⟩ := h
  rintro ⟨hnan, hinf⟩
  cases he : f.e4 with
  | true => simp [unpack, he, hex, hm he, FVal.isNan] at hnan
  | false =>
    by_cases h0 : x % 2 ^ f.mb = 0
    · exact hinf (bitAt x (f.w - 1)) (by simp [unpack, he, hex, h0])
    · simp [unpack, he, hex, h0, FVal.isNan] at hnan

/-- The finite values of a format (R226). -/
theorem unpack_of_finite (h : Finite (unpack f x)) :
    unpack f x = f.value (bitAt x (f.w - 1)) (x / 2 ^ f.mb % 2 ^ f.eb) (x % 2 ^ f.mb) :=
  unpack_of_not_special fun hs => not_finite_unpack_of_special hs h

/-- A finite value has one bit more than the fraction at most, and no lower exponent than a subnormal. -/
theorem exists_num_of_finite (h : Finite (unpack f x)) :
    ∃ s m e, unpack f x = .num s m e ∧ m < 2 * 2 ^ f.mb ∧ 1 - (f.bias : Int) - f.mb ≤ e := by
  have hm : x % 2 ^ f.mb < 2 ^ f.mb := Nat.mod_lt _ (by positivity)
  refine ⟨_, _, _, unpack_of_finite h, ?_, ?_⟩
  · split <;> omega
  · omega

end unpack

theorem scaled_num (n : Nat) (s : Bool) (m : Nat) (e : Int) : scaled n (.num s m e) = sgnOf s (m * 2 ^ (e + n).toNat) := by
  cases s <;> simp [scaled, sgnOf]

theorem sgnOf_inj {s : Bool} {m k : Nat} : sgnOf s m = sgnOf s k ↔ m = k := by
  cases s <;> simp [sgnOf]

@[simp] theorem natAbs_sgnOf (s : Bool) (m : Nat) : (sgnOf s m).natAbs = m := by
  cases s <;> simp [sgnOf]

section code
variable {f : Fmt} {s : Bool} {ex m : Nat}

/-- The bits of a sign, an exponent and a fraction. -/
def Fmt.code (f : Fmt) (s : Bool) (ex m : Nat) : Nat := b2n s * 2 ^ (f.w - 1) + (ex * 2 ^ f.mb + m)

theorem code_lt (h : f.Regular) (hex : ex < 2 ^ f.eb) (hm : m < 2 ^ f.mb) : ex * 2 ^ f.mb + m < 2 ^ (f.w - 1) := by
  rw [h.width, Nat.add_sub_cancel, pow_add]
  calc ex * 2 ^ f.mb + m < (ex + 1) * 2 ^ f.mb := by rw [Nat.add_mul]; omega
    _ ≤ 2 ^ f.eb * 2 ^ f.mb := Nat.mul_le_mul_right _ hex

theorem code_lt_two_pow (h : f.Regular) (hex : ex < 2 ^ f.eb) (hm : m < 2 ^ f.mb) : f.code s ex m < 2 ^ f.w := by
  have hlow := code_lt h hex hm
  have hw : 2 ^ f.w = 2 * 2 ^ (f.w - 1) := by rw [h.width, Nat.add_sub_cancel, pow_succ, Nat.mul_comm]
  rw [Fmt.code, hw]
  cases s <;> simp only [b2n, Bool.false_eq_true, if_true, if_false] <;> omega

/-- A code of R226 holds the value of its fields. -/
theorem unpack_code (h : f.Regular) (hex : ex < 2 ^ f.eb) (hm : m < 2 ^ f.mb) (hs : ¬ f.Special ex m) :
    unpack f (f.code s ex m) = f.value s ex m := by
  have hlow := code_lt h hex hm
  have hsign : b2n s * 2 ^ (f.w - 1) = b2n s * 2 ^ f.eb * 2 ^ f.mb := by
    rw [h.width, Nat.add_sub_cancel, pow_add, Nat.mul_assoc]
  have hfrac : f.code s ex m % 2 ^ f.mb = m := by
    rw [Fmt.code, hsign, ← Nat.add_assoc, ← Nat.add_mul, Nat.mul_add_mod_self_right, Nat.mod_eq_of_lt hm]
  have hexp : f.code s ex m / 2 ^ f.mb % 2 ^ f.eb = ex := by
    rw [Fmt.code, hsign, ← Nat.add_assoc, ← Nat.add_mul, Nat.add_div_of_dvd_right (Dvd.intro_left _ rfl),
      Nat.mul_div_cancel _ (by positivity), Nat.div_eq_of_lt hm, Nat.add_zero, Nat.mul_add_mod_self_right, Nat.mod_eq_of_lt hex]
  have htop : bitAt (f.code s ex m) (f.w - 1) = s := by
    rw [bitAt, Fmt.code, Nat.add_div_of_dvd_right (Dvd.intro_left _ rfl), Nat.mul_div_cancel _ (by positivity), Nat.div_eq_of_lt hlow]
    cases s <;> rfl
  have := unpack_of_not_special (f := f) (x := f.code s ex m) (by rwa [hexp, hfrac])
  rwa [hexp, hfrac, htop] at this

theorem code_mod_two (h : f.Regular) : f.code s ex m % 2 = m % 2 := by
  have even {k : Nat} (c : Nat) (hk : 1 ≤ k) : c * 2 ^ k % 2 = 0 := by
    rw [← Nat.sub_add_cancel hk, pow_succ, ← Nat.mul_assoc, Nat.mul_mod_left]
  have hsign := even (b2n s) (k := f.w - 1) (by rw [h.width, Nat.add_sub_cancel]; exact h.fraction.trans (Nat.le_add_left _ _))
  have hexp := even ex h.fraction
  rw [Fmt.code]
  omega

end code

end Sys2Proof.Machine
end

section
/-! The rounding of an exact magnitude to a multiple of a power of two (R230), and of a value into a format (R231, R233); O10. -/

namespace Sys2Proof.Machine

section magnitude
variable {rm : Rnd} {s : Bool} {v u : Nat}

/-- A magnitude of `v` units rounded to a multiple of `u` of them: the multiple. -/
def roundMag (rm : Rnd) (s : Bool) (v u : Nat) : Nat :=
  if roundsUp rm s (v / u % 2 == 1) (2 * (v % u)) u then v / u + 1 else v / u

theorem roundsUp_mul (rm : Rnd) (s odd : Bool) (rem half : Nat) {c : Nat} (hc : 0 < c) :
    roundsUp rm s odd (c * rem) (c * half) = roundsUp rm s odd rem half := by
  cases rm <;> simp [roundsUp, hc, hc.ne', Bool.beq_eq_decide_eq]

/-- Smaller units change no rounding. -/
theorem roundMag_mul (rm : Rnd) (s : Bool) (v u : Nat) {c : Nat} (hc : 0 < c) : roundMag rm s (c * v) (c * u) = roundMag rm s v u := by
  rw [roundMag, roundMag, Nat.mul_div_mul_left _ _ hc, Nat.mul_mod_mul_left, Nat.mul_left_comm, roundsUp_mul _ _ _ _ _ hc]

theorem roundMag_of_mod_eq_zero (h : v % u = 0) : roundMag rm s v u = v / u := by
  simp [roundMag, roundsUp, h]

theorem roundMag_mul_eq_iff : roundMag rm s v u * u = v ↔ v % u = 0 := by
  constructor
  · intro h
    rw [← h, Nat.mul_mod_left]
  · intro h
    rw [roundMag_of_mod_eq_zero h, Nat.div_mul_cancel (Nat.dvd_of_mod_eq_zero h)]

/-- A value `v` rounded to `x` in a mode stands to another value `y` as the mode says (R230): `even` is that the last bit of `x` is 0. -/
def Rounds (rm : Rnd) (v x y : Int) (even : Prop) : Prop :=
  match rm with
  | .rne => (x - v).natAbs ≤ (y - v).natAbs ∧ (y ≠ x → (y - v).natAbs = (x - v).natAbs → even)
  | .rna => (x - v).natAbs ≤ (y - v).natAbs ∧ ((y - v).natAbs = (x - v).natAbs → y.natAbs ≤ x.natAbs)
  | .rz => x.natAbs ≤ v.natAbs ∧ (y.natAbs ≤ v.natAbs → y.natAbs ≤ x.natAbs)
  | .rd => x ≤ v ∧ (y ≤ v → y ≤ x)
  | .ru => v ≤ x ∧ (v ≤ y → x ≤ y)

/-- An exact result is as every mode says. -/
theorem rounds_self (rm : Rnd) (v y : Int) (even : Prop) : Rounds rm v v y even := by
  cases rm <;> simp only [Rounds] <;> omega

/-- The two candidates of a rounding, and which of them the mode takes. -/
theorem roundMag_cases :
    (roundMag rm s v u = v / u ∧ roundMag rm s v u * u = v / u * u ∧ roundsUp rm s (v / u % 2 == 1) (2 * (v % u)) u = false) ∨
    (roundMag rm s v u = v / u + 1 ∧ roundMag rm s v u * u = v / u * u + u ∧
      roundsUp rm s (v / u % 2 == 1) (2 * (v % u)) u = true) := by
  rw [roundMag]
  split
  next h => exact .inr ⟨rfl, by rw [Nat.add_mul, Nat.one_mul], h⟩
  next h => exact .inl ⟨rfl, rfl, Bool.eq_false_iff.2 h⟩

/-- A magnitude is rounded as its mode says among all values with none between the multiples on either side of it. -/
theorem rounds_roundMag (hu : 0 < u) {y : Int} (hy : y.natAbs ≤ v / u * u ∨ (v / u + 1) * u ≤ y.natAbs) :
    Rounds rm (sgnOf s v) (sgnOf s (roundMag rm s v u * u)) y (roundMag rm s v u % 2 = 0) := by
  have hv : v / u * u + v % u = v := Nat.div_add_mod' v u
  have hd : v % u < u := Nat.mod_lt _ hu
  have hx := roundMag_cases (rm := rm) (s := s) (v := v) (u := u)
  rw [Nat.add_mul, Nat.one_mul] at hy
  generalize roundMag rm s v u * u = x at hx ⊢
  generalize roundMag rm s v u = r at hx ⊢
  generalize v / u * u = lo at *
  generalize v % u = d at *
  -- v = lo + d with d < u, x is lo or lo + u, and |y| ≤ lo or lo + u ≤ |y|: in each mode the rest is linear
  cases rm <;> cases s <;> simp [roundsUp] at hx <;> simp only [Rounds, sgnOf, Bool.false_eq_true, if_true, if_false] <;> omega

end magnitude

section units
variable {rm : Rnd} {s : Bool} {m n : Nat} {e q : Int}

/-- 2^q in units of 2^−n is a multiple of 2^e in them. -/
theorem two_pow_units (h : -(n : Int) ≤ e) (hq : e ≤ q) : 2 ^ (q + n).toNat = 2 ^ (q - e).toNat * 2 ^ (e + n).toNat := by
  rw [← pow_add]
  congr 1
  omega

/-- R230: a rounding to a multiple of 2^q, in units of 2^−n. -/
theorem roundAt_eq_roundMag (he : -(n : Int) ≤ e) (hq : -(n : Int) ≤ q) :
    roundAt rm s m e q = (roundMag rm s (m * 2 ^ (e + n).toNat) (2 ^ (q + n).toNat), m * 2 ^ (e + n).toNat % 2 ^ (q + n).toNat != 0) := by
  rw [roundAt]
  split
  next hqe =>
    have hmul : m * 2 ^ (e + n).toNat = m * 2 ^ (e - q).toNat * 2 ^ (q + n).toNat := by rw [two_pow_units hq hqe, Nat.mul_assoc]
    rw [hmul, roundMag_of_mod_eq_zero (Nat.mul_mod_left ..), Nat.mul_mod_left, Nat.mul_div_cancel _ (by positivity)]
    rfl
  next hqe =>
    obtain ⟨k, hk⟩ : ∃ k, (q - e).toNat = k + 1 := ⟨(q - e).toNat - 1, by omega⟩
    have hc : 0 < 2 ^ (e + n).toNat := by positivity
    have hhalf : roundMag rm s m (2 ^ (k + 1)) =
        if roundsUp rm s (m / 2 ^ (k + 1) % 2 == 1) (m % 2 ^ (k + 1)) (2 ^ k) then m / 2 ^ (k + 1) + 1 else m / 2 ^ (k + 1) := by
      rw [roundMag, ← roundsUp_mul rm s _ (m % 2 ^ (k + 1)) (2 ^ k) two_pos, ← pow_succ']
    rw [two_pow_units he (by omega : e ≤ q), hk, Nat.mul_comm m, Nat.mul_comm (2 ^ (k + 1)), roundMag_mul _ _ _ _ hc, hhalf, Nat.mul_mod_mul_left]
    simp [bne]

end units

section roundTo
variable {f : Fmt} {rm : Rnd} {sat s : Bool} {m n : Nat} {e q : Int} {r : Nat}

theorem bitLen_four_mul (hm : m ≠ 0) : bitLen (4 * m) = bitLen m + 2 := by
  have h : Nat.log2 (4 * m) = Nat.log2 m + 2 := by
    rw [show 4 * m = 2 * (2 * m) by omega, Nat.log2_two_mul (by omega), Nat.log2_two_mul hm]
  simp [bitLen, hm, h]

/-- The exponent of the last place to which a format rounds m · 2^e: that of its precision, or of the subnormals (R231). -/
def Fmt.quantum (f : Fmt) (m : Nat) (e : Int) : Int := max (e + bitLen m - 1 - f.mb) (1 - (f.bias : Int) - f.mb)

/-- The greatest exponent of a format's finite values. -/
def Fmt.maxE (f : Fmt) : Int := if f.e4 then 8 else (2 ^ f.eb - 2 : Nat) - (f.bias : Int)

/-- The greatest significand of a format's finite values at that exponent. -/
def Fmt.maxM (f : Fmt) : Nat := if f.e4 then 14 else 2 ^ (f.mb + 1) - 1

/-- R233: r · 2^q lies above every finite value of the format. -/
def Fmt.over (f : Fmt) (q : Int) (r : Nat) : Bool :=
  decide (f.maxE - f.mb < q) && decide (f.maxM < r * 2 ^ (q - (f.maxE - f.mb)).toNat) || decide (q = f.maxE - f.mb) && decide (f.maxM < r)

/-- The exponent and fraction of r · 2^q. -/
def Fmt.magnitude (f : Fmt) (q : Int) (r : Nat) : Nat :=
  if r < 2 ^ f.mb then r
  else if r == 2 ^ (f.mb + 1) then ((q + 1 + f.mb + f.bias).toNat) * 2 ^ f.mb
  else (q + f.mb + f.bias).toNat * 2 ^ f.mb + (r - 2 ^ f.mb)

/-- What a format gives beyond its finite values (R233). -/
def Fmt.overflow (f : Fmt) (rm : Rnd) (sat s : Bool) : Nat × Nat :=
  if sat then (maxOf f s, fOF + fNX)
  else if f.e4 then (infOf f s, fOF + fNX)
  else match rm with
    | .rz => (maxOf f s, fOF + fNX)
    | .rd => (if s then infOf f s else maxOf f s, fOF + fNX)
    | .ru => (if s then maxOf f s else infOf f s, fOF + fNX)
    | _ => (infOf f s, fOF + fNX)

theorem overflow_flags (f : Fmt) (rm : Rnd) (sat s : Bool) : (f.overflow rm sat s).2 = fOF + fNX := by
  cases rm <;> simp only [Fmt.overflow, apply_ite Prod.snd, ite_self]

/-- R231: a magnitude rounded as with an unbounded exponent is below 2^emin. -/
def Fmt.tiny (f : Fmt) (rm : Rnd) (s : Bool) (m : Nat) (e : Int) : Bool :=
  let top : Int := e + bitLen m - 1
  let emin : Int := 1 - (f.bias : Int)
  decide (top < emin) && !(decide (top = emin - 1) && (roundAt rm s (4 * m) (e - 2) (top - f.mb)).1 == 2 ^ (f.mb + 1))

/-- R231, R233: what is in range is the rounded magnitude with its sign. -/
theorem roundTo_eq (f : Fmt) (rm : Rnd) (sat s : Bool) (e : Int) (hm : m ≠ 0) :
    roundTo f rm sat s m e false =
      let r := roundAt rm s (4 * m) (e - 2) (f.quantum m e)
      if f.over (f.quantum m e) r.1 then f.overflow rm sat s
      else (b2n s * 2 ^ (f.w - 1) + f.magnitude (f.quantum m e) r.1,
        (if r.2 then fNX else 0) + (if r.2 && f.tiny rm s m e then fUF else 0)) := by
  have hzero : (m == 0 && !false) = false := by simp [hm]
  have htop : e - 2 + ((bitLen m + 2 : Nat) : Int) - 1 = e + bitLen m - 1 := by omega
  simp only [roundTo, hzero, b2n, Bool.false_eq_true, if_false, Nat.add_zero, Nat.mul_one, bitLen_four_mul hm, htop]
  rfl

/-- R231, R233: a result that raises no OF is in range, and NX says whether its rounding was inexact. -/
theorem roundTo_of_no_overflow (hm : m ≠ 0) (h : (roundTo f rm sat s m e false).2.testBit 2 = false) :
    let r := roundAt rm s (4 * m) (e - 2) (f.quantum m e)
    f.over (f.quantum m e) r.1 = false ∧ (roundTo f rm sat s m e false).1 = b2n s * 2 ^ (f.w - 1) + f.magnitude (f.quantum m e) r.1 ∧
      (roundTo f rm sat s m e false).2.testBit 0 = r.2 := by
  intro r
  rw [roundTo_eq f rm sat s e hm] at h ⊢
  cases hover : f.over (f.quantum m e) r.1 with
  | true =>
    rw [if_pos hover, overflow_flags] at h
    exact absurd h (by decide)
  | false =>
    rw [if_neg (by simp [r, hover])]
    refine ⟨rfl, rfl, ?_⟩
    change (_ + _ : Nat).testBit 0 = r.2
    cases r.2 <;> cases f.tiny rm s m e <;> rfl

/-- r · 2^q is a finite value of a format, where a carry of r out of its place is one to the next power of two. -/
structure Fmt.InRange (f : Fmt) (q : Int) (r : Nat) : Prop where
  low : 1 - (f.bias : Int) - f.mb ≤ q
  subnormal : r < 2 ^ f.mb → q = 1 - (f.bias : Int) - f.mb
  high : r ≤ 2 * 2 ^ f.mb
  top : q ≤ f.maxE - f.mb
  most : q = f.maxE - f.mb → r ≤ f.maxM

/-- The greatest finite value has all ones but for an exponent, in E4M3 a fraction, one less. -/
theorem maxE_maxM (h : f.Regular) :
    (f.e4 = false ∧ f.maxE = (2 ^ f.eb : Nat) - 2 - f.bias ∧ f.maxM = 2 * 2 ^ f.mb - 1) ∨
      (f.e4 = true ∧ f.maxE = (2 ^ f.eb : Nat) - 1 - f.bias ∧ f.maxM = 2 * 2 ^ f.mb - 2) := by
  cases he : f.e4 with
  | true =>
    obtain rfl := h.e4m3 he
    exact .inr ⟨rfl, rfl, rfl⟩
  | false =>
    have hE : 2 ≤ 2 ^ f.eb := Nat.le_self_pow (by have := h.exponent; omega) 2
    refine .inl ⟨rfl, ?_, ?_⟩
    · rw [Fmt.maxE, he, if_neg Bool.false_ne_true, Nat.cast_sub hE]
      rfl
    · rw [Fmt.maxM, he, if_neg Bool.false_ne_true, pow_succ, Nat.mul_comm]

theorem four_le_two_pow_eb (h : f.Regular) : 4 ≤ 2 ^ f.eb := Nat.pow_le_pow_right two_pos h.exponent

theorem two_pow_mb_even (h : f.Regular) : 2 ^ f.mb % 2 = 0 := by rw [← Nat.sub_add_cancel h.fraction, pow_succ, Nat.mul_mod_left]

/-- A code of a format that holds r · 2^q with a sign. -/
structure Fmt.Codes (f : Fmt) (c : Nat) (s : Bool) (q : Int) (r : Nat) : Prop where
  width : c < 2 ^ f.w
  parity : c % 2 = r % 2
  value : ∃ r' q', q ≤ q' ∧ unpack f c = .num s r' q' ∧ r = r' * 2 ^ (q' - q).toNat

theorem codes_subnormal (h : f.Regular) (hr : r < 2 ^ f.mb) : f.Codes (f.code s 0 r) s (1 - (f.bias : Int) - f.mb) r := by
  have hE := four_le_two_pow_eb h
  have hs : ¬ f.Special 0 r := fun hs => by have := hs.1; omega
  refine ⟨code_lt_two_pow h (by positivity) hr, code_mod_two h, r, _, le_rfl, unpack_code h (by positivity) hr hs, ?_⟩
  simp

theorem codes_normal (h : f.Regular) (hq : f.InRange q r) (hlow : 2 ^ f.mb ≤ r) (hhigh : r < 2 * 2 ^ f.mb) :
    f.Codes (f.code s (q + f.mb + f.bias).toNat (r - 2 ^ f.mb)) s q r := by
  obtain ⟨low, -, -, top, most⟩ := hq
  have hE := four_le_two_pow_eb h
  have hP := two_pow_mb_even h
  have hmax := maxE_maxM h
  have hm : r - 2 ^ f.mb < 2 ^ f.mb := by omega
  have hex : (q + f.mb + f.bias).toNat < 2 ^ f.eb := by
    generalize 2 ^ f.eb = E at *
    omega
  have hs : ¬ f.Special (q + f.mb + f.bias).toNat (r - 2 ^ f.mb) := by
    rintro ⟨htop, hfr⟩
    generalize 2 ^ f.eb = E at *
    obtain ⟨-, hE', -⟩ | ⟨he, hE', hM'⟩ := hmax
    · omega
    · have := hfr he
      omega
  refine ⟨code_lt_two_pow h hex hm, ?_, r, q, le_rfl, ?_, ?_⟩
  · rw [code_mod_two h]
    omega
  · rw [unpack_code h hex hm hs, value_pos _ _ _ (by omega), Nat.sub_add_cancel hlow]
    congr 1
    omega
  · simp

/-- The code of a rounded magnitude in range holds it. -/
theorem codes_magnitude (h : f.Regular) (hq : f.InRange q r) : f.Codes (b2n s * 2 ^ (f.w - 1) + f.magnitude q r) s q r := by
  obtain ⟨low, subnormal, high, top, most⟩ := hq
  have hdouble : 2 ^ (f.mb + 1) = 2 * 2 ^ f.mb := by rw [pow_succ, Nat.mul_comm]
  rw [Fmt.magnitude, hdouble]
  split
  next hsub =>
    have := codes_subnormal (s := s) h hsub
    rwa [← subnormal hsub, Fmt.code, Nat.zero_mul, Nat.zero_add] at this
  next hsub =>
    split
    next hcarry =>
      obtain rfl : r = 2 * 2 ^ f.mb := by simpa using hcarry
      have hmax := maxE_maxM h
      have hP : 0 < 2 ^ f.mb := by positivity
      have heven := two_pow_mb_even h
      have hnext : f.InRange (q + 1) (2 ^ f.mb) := ⟨by omega, by omega, by omega, by omega, by omega⟩
      obtain ⟨width, parity, r', q', hq', hval, hr'⟩ := codes_normal (s := s) h hnext le_rfl (by omega)
      rw [Fmt.code, Nat.sub_self, Nat.add_zero] at *
      refine ⟨width, ?_, r', q', by omega, hval, ?_⟩
      · rw [parity, heven, Nat.mul_mod_right]
      · have hstep : (q' - q).toNat = (q' - (q + 1)).toNat + 1 := by omega
        rw [hstep, pow_succ, ← Nat.mul_assoc, ← hr', Nat.mul_comm]
    next hcarry =>
      exact codes_normal h ⟨low, subnormal, high, top, most⟩ (by omega) (by simp at hcarry; omega)

theorem two_pow_bitLen_le (hm : m ≠ 0) : 2 ^ (bitLen m - 1) ≤ m := by
  simp only [bitLen, beq_eq_false_iff_ne.2 hm, Bool.false_eq_true, if_false, Nat.add_sub_cancel]
  exact Nat.log2_self_le hm

theorem lt_two_pow_bitLen (m : Nat) : m < 2 ^ bitLen m := by
  by_cases hm : m = 0
  · simp [hm, bitLen]
  · simp only [bitLen, beq_eq_false_iff_ne.2 hm, Bool.false_eq_true, if_false]
    exact Nat.lt_log2_self

theorem bitLen_pos (hm : m ≠ 0) : 1 ≤ bitLen m := by
  simp [bitLen, hm]

section quantum
variable (h : f.Regular) (hn : 1074 ≤ n) (he : -(n : Int) ≤ e)
include h hn

theorem neg_le_quantum : -(n : Int) ≤ f.quantum m e := by
  have := h.lowest
  rw [Fmt.quantum]
  omega

include he

/-- The multiple of the last place below a value has no more bits than the format keeps. -/
theorem div_quantum_lt : m * 2 ^ (e + n).toNat / 2 ^ (f.quantum m e + n).toNat < 2 * 2 ^ f.mb := by
  have hq := neg_le_quantum (m := m) (e := e) h hn
  have hle : bitLen m + (e + n).toNat ≤ 1 + f.mb + (f.quantum m e + n).toNat := by
    rw [Fmt.quantum] at *
    omega
  rw [Nat.div_lt_iff_lt_mul (by positivity)]
  calc m * 2 ^ (e + n).toNat < 2 ^ bitLen m * 2 ^ (e + n).toNat := Nat.mul_lt_mul_of_pos_right (lt_two_pow_bitLen m) (by positivity)
    _ = 2 ^ (bitLen m + (e + n).toNat) := (pow_add ..).symm
    _ ≤ 2 ^ (1 + f.mb + (f.quantum m e + n).toNat) := Nat.pow_le_pow_right two_pos hle
    _ = 2 * 2 ^ f.mb * 2 ^ (f.quantum m e + n).toNat := by rw [pow_add, pow_add, pow_one]

/-- Above the subnormals it has all of them. -/
theorem le_div_quantum (hm : m ≠ 0) (hq : f.quantum m e ≠ 1 - (f.bias : Int) - f.mb) :
    2 ^ f.mb ≤ m * 2 ^ (e + n).toNat / 2 ^ (f.quantum m e + n).toNat := by
  have hlow := neg_le_quantum (m := m) (e := e) h hn
  have hlen := bitLen_pos hm
  have hle : f.mb + (f.quantum m e + n).toNat ≤ bitLen m - 1 + (e + n).toNat := by
    rw [Fmt.quantum] at *
    omega
  rw [Nat.le_div_iff_mul_le (by positivity)]
  calc 2 ^ f.mb * 2 ^ (f.quantum m e + n).toNat = 2 ^ (f.mb + (f.quantum m e + n).toNat) := (pow_add ..).symm
    _ ≤ 2 ^ (bitLen m - 1 + (e + n).toNat) := Nat.pow_le_pow_right two_pos hle
    _ = 2 ^ (bitLen m - 1) * 2 ^ (e + n).toNat := pow_add ..
    _ ≤ m * 2 ^ (e + n).toNat := Nat.mul_le_mul_right _ (two_pow_bitLen_le hm)

/-- No finite value of the format lies between the multiples of the last place on either side of a value. -/
theorem value_outside_gap (hm : m ≠ 0) {k : Nat} (hk : Finite (unpack f k)) :
    let u := 2 ^ (f.quantum m e + n).toNat
    let y := (scaled n (unpack f k)).natAbs
    y ≤ m * 2 ^ (e + n).toNat / u * u ∨ (m * 2 ^ (e + n).toNat / u + 1) * u ≤ y := by
  intro u y
  have hq := neg_le_quantum (m := m) (e := e) h hn
  obtain ⟨s, c, g, hk, hc, hg⟩ := exists_num_of_finite hk
  have hy : y = c * 2 ^ (g + n).toNat := by rw [← natAbs_sgnOf s (c * _), ← scaled_num, ← hk]
  have := h.lowest
  by_cases hgq : f.quantum m e ≤ g
  · have hmul : y = c * 2 ^ (g - f.quantum m e).toNat * u := by rw [hy, two_pow_units hq hgq, Nat.mul_assoc]
    rcases Nat.lt_or_ge (m * 2 ^ (e + n).toNat / u) (c * 2 ^ (g - f.quantum m e).toNat) with hlt | hge
    · exact .inr (hmul ▸ Nat.mul_le_mul_right u hlt)
    · exact .inl (hmul ▸ Nat.mul_le_mul_right u hge)
  · have hdiv : 2 ^ f.mb ≤ m * 2 ^ (e + n).toNat / u := le_div_quantum h hn he hm (by omega)
    have hunit : 2 * 2 ^ (g + n).toNat ≤ u := by
      rw [← pow_succ']
      exact Nat.pow_le_pow_right two_pos (by omega)
    refine .inl ?_
    calc y = c * 2 ^ (g + n).toNat := hy
      _ ≤ 2 * 2 ^ f.mb * 2 ^ (g + n).toNat := Nat.mul_le_mul_right _ hc.le
      _ = 2 ^ f.mb * (2 * 2 ^ (g + n).toNat) := by ring
      _ ≤ m * 2 ^ (e + n).toNat / u * u := Nat.mul_le_mul hdiv hunit

/-- R233: where a rounded magnitude is not above the finite values, it is one of them. -/
theorem inRange_of_not_over (hm : m ≠ 0) (hr : r = roundMag rm s (m * 2 ^ (e + n).toNat) (2 ^ (f.quantum m e + n).toNat))
    (hover : f.over (f.quantum m e) r = false) : f.InRange (f.quantum m e) r := by
  have hhigh := div_quantum_lt (m := m) h hn he
  have hlow := le_div_quantum h hn he hm
  have hle : 1 - (f.bias : Int) - f.mb ≤ f.quantum m e := le_max_right _ _
  have hround : r = m * 2 ^ (e + n).toNat / 2 ^ (f.quantum m e + n).toNat ∨ r = m * 2 ^ (e + n).toNat / 2 ^ (f.quantum m e + n).toNat + 1 :=
    hr ▸ roundMag_cases.imp And.left And.left
  have hmax := maxE_maxM h
  have hE := four_le_two_pow_eb h
  have htop : f.quantum m e ≤ f.maxE - f.mb := by
    by_contra hq
    have hbits : 2 ^ f.mb ≤ r := by have := hlow (by omega); omega
    have hshift : 2 ≤ 2 ^ (f.quantum m e - (f.maxE - f.mb)).toNat := Nat.le_self_pow (by omega) 2
    have habove : f.maxM < r * 2 ^ (f.quantum m e - (f.maxE - f.mb)).toNat := by
      have := Nat.mul_le_mul hbits hshift
      have : 0 < 2 ^ f.mb := by positivity
      omega
    simp [Fmt.over, habove, not_le.1 hq] at hover
  refine ⟨hle, ?_, by omega, htop, ?_⟩
  · intro hlt
    by_contra hne
    have := hlow hne
    omega
  · intro hq
    rw [Fmt.over] at hover
    simp [hq] at hover
    omega

end quantum

/-- The rounding of an exact value that raises no OF: its code, and what it holds in units of 2^−n. -/
theorem roundTo_codes (h : f.Regular) (hn : 1074 ≤ n) (he : -(n : Int) ≤ e) (hm : m ≠ 0)
    (hof : (roundTo f rm sat s m e false).2.testBit 2 = false) :
    let v := m * 2 ^ (e + n).toNat
    let u := 2 ^ (f.quantum m e + n).toNat
    f.Codes (roundTo f rm sat s m e false).1 s (f.quantum m e) (roundMag rm s v u) ∧
      (roundTo f rm sat s m e false).2.testBit 0 = (v % u != 0) := by
  intro v u
  have hq := neg_le_quantum (m := m) (e := e) h hn
  have hround : roundAt rm s (4 * m) (e - 2) (f.quantum m e) = (roundMag rm s v u, v % u != 0) := by
    have hv : 4 * m * 2 ^ (e - 2 + (n + 2 : Nat)).toNat = 4 * v := by
      rw [Nat.mul_assoc]
      congr 3
      omega
    have hu : 2 ^ (f.quantum m e + (n + 2 : Nat)).toNat = 4 * u := by
      rw [show (f.quantum m e + (n + 2 : Nat)).toNat = 2 + (f.quantum m e + n).toNat by omega, pow_add]
      rfl
    rw [roundAt_eq_roundMag (n := n + 2) (by omega) (by omega), hv, hu, roundMag_mul _ _ _ _ four_pos, Nat.mul_mod_mul_left]
    simp [bne]
  obtain ⟨hover, hcode, hnx⟩ := roundTo_of_no_overflow hm hof
  rw [hround] at hover hcode hnx
  exact ⟨hcode ▸ codes_magnitude h (inRange_of_not_over h hn he hm rfl hover), hnx⟩

/-- What a code holds in units of 2^−n. -/
theorem scaled_of_codes {c : Nat} (hc : f.Codes c s q r) (hq : -(n : Int) ≤ q) :
    Finite (unpack f c) ∧ scaled n (unpack f c) = sgnOf s (r * 2 ^ (q + n).toNat) := by
  obtain ⟨-, -, r', q', hle, hval, rfl⟩ := hc
  rw [hval, scaled_num, two_pow_units hq hle, Nat.mul_assoc]
  exact ⟨⟨rfl, fun _ => by simp⟩, rfl⟩

end roundTo

theorem roundTo_zero (f : Fmt) (rm : Rnd) (sat s : Bool) (e : Int) : roundTo f rm sat s 0 e false = (zeroOf f s, 0) := rfl

theorem zeroOf_eq_code (f : Fmt) (s : Bool) : zeroOf f s = f.code s 0 0 := by
  rw [Fmt.code, Nat.zero_mul]
  rfl

/-- Settles O10. Zero is exact. Otherwise the code holds the rounded magnitude, a multiple of the last place next to the value, and no finite
value lies between the two multiples beside it. -/
theorem roundingIsCorrect : Obligations.RoundingIsCorrect := by
  unfold Obligations.RoundingIsCorrect
  intro f rm sat s m n e hf hn he r v x hof
  have h := regular_of_mem hf
  have hlow := h.lowest
  have hv : v = sgnOf s (m * 2 ^ (e + n).toNat) := scaled_num ..
  by_cases hm : m = 0
  · subst hm
    have hr : r = (f.code s 0 0, 0) := by rw [← zeroOf_eq_code]; exact roundTo_zero ..
    have hcodes := codes_subnormal (s := s) h (r := 0) (by positivity)
    obtain ⟨hfin, hzero⟩ := scaled_of_codes (n := n) hcodes (by omega)
    have hexact : x = v := by
      have hx : x = scaled n (unpack f (f.code s 0 0)) := congrArg (fun r => scaled n (unpack f r.1)) hr
      rw [hx, hzero, hv, Nat.zero_mul, Nat.zero_mul]
    rw [hexact, hr]
    exact ⟨hcodes.width, hfin, by simp, fun k _ _ => rounds_self ..⟩
  · obtain ⟨hcodes, hnx⟩ := roundTo_codes h hn he hm hof
    obtain ⟨hfin, hx⟩ := scaled_of_codes hcodes (neg_le_quantum h hn)
    change x = _ at hx
    refine ⟨hcodes.width, hfin, ?_, fun k _ hk => ?_⟩
    · rw [hnx, bne_iff_ne, hv, hx, ne_eq, ne_eq, sgnOf_inj, roundMag_mul_eq_iff]
    · have := rounds_roundMag (rm := rm) (s := s) (by positivity) (value_outside_gap h hn he hm hk)
      rw [← hv, ← hx, ← hcodes.parity] at this
      exact this

end Sys2Proof.Machine
end

section
/-! The lanes of a vector value (R384), and what the scalar and the lane-wise instructions do with the results of their operation (R387, R399). -/

namespace Sys2Proof.Machine

theorem width_mul_lanes (ty : Ty) : ty.width * ty.lanes = 512 := by cases ty <;> rfl

/-- Lanes of w bits beside each other fill no more than their width, and each reads as what was put there. -/
theorem lanes_sum (w : Nat) (f : Nat → Nat) (n : Nat) :
    ((List.range n).map fun j => f j % 2 ^ w * 2 ^ (w * j)).sum < 2 ^ (w * n) ∧
    ∀ j < n, ((List.range n).map fun j => f j % 2 ^ w * 2 ^ (w * j)).sum / 2 ^ (w * j) % 2 ^ w = f j % 2 ^ w := by
  induction n with
  | zero => exact ⟨by simp, nofun⟩
  | succ n ih =>
    obtain ⟨hlt, hlanes⟩ := ih
    rw [List.range_succ, List.map_append, List.sum_append, List.map_singleton, List.sum_singleton]
    generalize ((List.range n).map fun j => f j % 2 ^ w * 2 ^ (w * j)).sum = x at hlt hlanes ⊢
    have htop : f n % 2 ^ w < 2 ^ w := Nat.mod_lt _ (by positivity)
    refine ⟨?_, fun j hj => ?_⟩
    · calc x + f n % 2 ^ w * 2 ^ (w * n) < (f n % 2 ^ w + 1) * 2 ^ (w * n) := by rw [Nat.add_mul]; omega
        _ ≤ 2 ^ w * 2 ^ (w * n) := Nat.mul_le_mul_right _ htop
        _ = 2 ^ (w * (n + 1)) := by rw [Nat.mul_add, Nat.mul_one, pow_add, Nat.mul_comm]
    · rcases Nat.lt_succ_iff_lt_or_eq.1 hj with hj | rfl
      · obtain ⟨k, rfl⟩ := Nat.exists_eq_add_of_lt hj
        have hsplit : f (j + k + 1) % 2 ^ w * 2 ^ (w * (j + k + 1)) = f (j + k + 1) % 2 ^ w * 2 ^ (w * k) * 2 ^ w * 2 ^ (w * j) := by ring
        rw [hsplit, Nat.add_mul_div_right _ _ (by positivity), Nat.add_mul_mod_self_right, hlanes j hj]
      · rw [Nat.add_mul_div_right _ _ (by positivity), Nat.div_eq_of_lt hlt, Nat.zero_add, Nat.mod_mod]

/-- R384: a lane of a value that is given by its lanes. -/
theorem lane_ofLanes {w n : Nat} (hw : w * n = 512) (f : Nat → Nat) {j : Nat} (hj : j < n) : lane w (ofLanes w n f) j = f j % 2 ^ w := by
  obtain ⟨hlt, hlanes⟩ := lanes_sum w f n
  rw [lane, ofLanes, BitVec.toNat_ofNat, ← hw, Nat.mod_eq_of_lt hlt, hlanes j hj]

/-- A lane has no more bits than its type. -/
theorem lane_mod (w : Nat) (x : BitVec 512) (j : Nat) : lane w x j % 2 ^ w = lane w x j := Nat.mod_mod ..

/-- R399: the flags of a lane-wise instruction are those of its active lanes. -/
theorem testBit_foldl_flags (p : Nat → Bool) (g : Nat → Nat) (n k : Nat) :
    ((List.range n).foldl (fun fl j => if p j then fl ||| g j else fl) 0).testBit k = true ↔ ∃ j < n, p j = true ∧ (g j).testBit k = true := by
  induction n with
  | zero => simp
  | succ n ih =>
    rw [List.range_succ, List.foldl_append, List.foldl_cons, List.foldl_nil]
    cases hp : p n with
    | false =>
      rw [if_neg Bool.false_ne_true, ih]
      constructor
      · rintro ⟨j, hj, h⟩
        exact ⟨j, by omega, h⟩
      · rintro ⟨j, hj, h⟩
        have : j ≠ n := fun e => by simp [e, hp] at h
        exact ⟨j, by omega, h⟩
    | true =>
      rw [if_pos rfl, Nat.testBit_or, Bool.or_eq_true, ih]
      constructor
      · rintro (⟨j, hj, h⟩ | h)
        · exact ⟨j, by omega, h⟩
        · exact ⟨n, by omega, hp, h⟩
      · rintro ⟨j, hj, hact, h⟩
        rcases Nat.lt_succ_iff_lt_or_eq.1 hj with hj | rfl
        · exact .inl ⟨j, hj, hact, h⟩
        · exact .inr h

section issued
variable {s : State} {u : Turn} {t : Thread} {gd : Guard} {i : Instr} {tl op T : Nat} {ty : Ty}

/-- R387, R389: a scalar floating instruction writes the result of its operation and ORs its flags. -/
theorem retires_of_scalarF {d : Reg} {f : Thread → Nat × Nat} (h : Issues s u t i) (hx : exec i s = scalarF op gd d ty s f)
    (he : encode i = (hd tl gd op, T)) (ho : op < 512) (ht : tl < 8) (hl : ∀ k v p, lacks k v p op T = lacks k v p op 0) :
    Retires i s u (FResult d ty (f t)) := by
  rw [Retires, hx, scalarF, issue_next (m := { op := op }) h he rfl ho ht hl (.inr rfl)]
  rfl

/-- R399: what a lane-wise instruction does, for the operation of each lane. -/
theorem laneWise_of_vecOp {d : VReg} {mk : Mask} {z : Bool} {f : Thread → Nat → Nat × Nat} (h : Issues s u t i)
    (hx : exec i s = vecOp op gd d ty mk z s f) (he : encode i = (hd tl gd op, T)) (ho : op < 512) (ht : tl < 8)
    (hl : ∀ k v p, lacks k v p op T = lacks k v p op 0) : LaneWise i s u t d ty mk z (f t) := by
  refine ⟨(laneWise t d ty mk z (f t)).1, (laneWise t d ty mk z (f t)).2, ?_, fun j hj => ?_, fun k => testBit_foldl_flags ..⟩
  · rw [Retires, hx, vecOp, issue_next (m := { op := op }) h he rfl ho ht hl (.inr rfl)]
  · rw [laneWise, lane_ofLanes (width_mul_lanes ty) _ hj]
    split
    · rfl
    · split
      · exact Nat.zero_mod _
      · exact lane_mod ..

end issued

end Sys2Proof.Machine
end

section
/-! The order of floating values (R244), and O11. -/

namespace Sys2Proof.Machine

theorem sgnOf_mul (s : Bool) (m c : Nat) : sgnOf s (m * c) = sgnOf s m * c := by
  cases s <;> simp [sgnOf]

theorem exists_eq_num {v : FVal} (h : Finite v) : ∃ s m e, v = .num s m e := by
  obtain ⟨hnan, hinf⟩ := h
  cases v with
  | nan => cases hnan
  | inf s => exact absurd rfl (hinf s)
  | num s m e => exact ⟨s, m, e, rfl⟩

/-- Finite values that are not both zero are in the order of their units. -/
theorem ltVal_num {s t : Bool} {m k n : Nat} {e g : Int} (z : Bool) (he : -(n : Int) ≤ e) (hg : -(n : Int) ≤ g) (h0 : ¬ (m = 0 ∧ k = 0)) :
    ltVal z (.num s m e) (.num t k g) = decide (scaled n (.num s m e) < scaled n (.num t k g)) := by
  have hzero : (m == 0 && k == 0) = false := by simpa using h0
  have hmin : -(n : Int) ≤ min e g := le_min he hg
  have hpos : (0 : Int) < (2 ^ (min e g + n).toNat : Nat) := by positivity
  have hiff : scaled n (.num s m e) < scaled n (.num t k g) ↔
      sgnOf s m * 2 ^ (e - min e g).toNat < sgnOf t k * 2 ^ (g - min e g).toNat := by
    rw [scaled_num, scaled_num, two_pow_units hmin (min_le_left e g), two_pow_units hmin (min_le_right e g), ← Nat.mul_assoc, ← Nat.mul_assoc,
      sgnOf_mul, sgnOf_mul, sgnOf_mul, sgnOf_mul, mul_lt_mul_iff_of_pos_right hpos]
    push_cast
    rfl
  simp only [ltVal, hzero, Bool.false_eq_true, if_false, hiff]

/-- Finite values of a format that differ are in the order of their units. -/
theorem ltVal_unpack {f : Fmt} {x y : Nat} (z : Bool) (h : f.Regular) (hv : Finite (unpack f x)) (hw : Finite (unpack f y))
    (hne : scaled 1074 (unpack f x) ≠ scaled 1074 (unpack f y)) :
    ltVal z (unpack f x) (unpack f y) = decide (scaled 1074 (unpack f x) < scaled 1074 (unpack f y)) := by
  have hlow := h.lowest
  obtain ⟨s, m, e, hx, -, he⟩ := exists_num_of_finite hv
  obtain ⟨t, k, g, hy, -, hg⟩ := exists_num_of_finite hw
  rw [hx, hy] at hne ⊢
  have h0 : ¬ (m = 0 ∧ k = 0) := by
    rintro ⟨rfl, rfl⟩
    cases s <;> cases t <;> simp [scaled, sgnOf] at hne
  exact ltVal_num z (by omega) (by omega) h0

/-- The class F types have formats of R226 (R385). -/
theorem regular_fmtOf {ty : Ty} (h : ty ∈ [Ty.bf, .hf, .sf, .df]) : (fmtOf ty).Regular ∧ ty.isF = true := by
  simp only [List.mem_cons, List.not_mem_nil, or_false] at h
  rcases h with rfl | rfl | rfl | rfl <;> exact ⟨regular_of_mem (by decide), rfl⟩

section minMax
variable {f : Fmt} {mx : Bool} {x y : Nat}

theorem nvOf_eq (v : FVal) : nvOf v = if v = .nan true then fNV else 0 := by
  unfold nvOf
  split
  · rfl
  next h => rw [if_neg h]

/-- R227: NV is raised where one of two operands signals. -/
theorem nvOf_or_nvOf (v w : FVal) : nvOf v ||| nvOf w = if v = .nan true ∨ w = .nan true then fNV else 0 := by
  rw [nvOf_eq, nvOf_eq]
  by_cases hv : v = .nan true <;> by_cases hw : w = .nan true <;> simp [hv, hw]

theorem snd_fMinMax : (fMinMax f mx x y).2 = nvOf (unpack f x) ||| nvOf (unpack f y) := by
  simp only [fMinMax]
  split <;> rfl

theorem fMinMax_of_nan_of_nan (hv : (unpack f x).isNan = true) (hw : (unpack f y).isNan = true) : (fMinMax f mx x y).1 = canonNan f := by
  simp only [fMinMax, hv, hw]

theorem fMinMax_of_nan_left (hv : (unpack f x).isNan = true) (hw : (unpack f y).isNan = false) : (fMinMax f mx x y).1 = y := by
  simp only [fMinMax, hv, hw]

theorem fMinMax_of_nan_right (hv : (unpack f x).isNan = false) (hw : (unpack f y).isNan = true) : (fMinMax f mx x y).1 = x := by
  simp only [fMinMax, hv, hw]

/-- R244: of two numbers the one that the order names. -/
theorem fMinMax_of_numbers (hv : (unpack f x).isNan = false) (hw : (unpack f y).isNan = false) :
    (fMinMax f mx x y).1 = if ltVal true (unpack f x) (unpack f y) = mx then y else x := by
  simp only [fMinMax, hv, hw]
  cases ltVal true (unpack f x) (unpack f y) <;> cases mx <;> rfl

/-- R244: what FMIN, or with `mx` FMAX, gives of two operands: a result with its flags. -/
def IsMinMax (f : Fmt) (x y : Nat) (r : Nat × Nat) (mx : Bool) : Prop :=
  let v := unpack f x
  let w := unpack f y
  (r.2 = if v = .nan true ∨ w = .nan true then fNV else 0) ∧
  (v.isNan = true → w.isNan = true → r.1 = canonNan f) ∧ (v.isNan = true → w.isNan = false → r.1 = y) ∧
  (v.isNan = false → w.isNan = true → r.1 = x) ∧ (v.isNan = false → w.isNan = false → r.1 = x ∨ r.1 = y) ∧
  (∀ p, v = .inf p → Finite w → r.1 = if p = mx then y else x) ∧
  (∀ p q, v = .inf p → w = .inf q → p ≠ q → r.1 = if p = mx then y else x) ∧
  (∀ p, Finite v → w = .inf p → r.1 = if p = mx then x else y) ∧
  (Finite v → Finite w → scaled 1074 v < scaled 1074 w → r.1 = if mx = true then y else x) ∧
  (Finite v → Finite w → scaled 1074 w < scaled 1074 v → r.1 = if mx = true then x else y) ∧
  (∀ e g, v = .num true 0 e → w = .num false 0 g → r.1 = if mx = true then y else x) ∧
  (∀ e g, v = .num false 0 e → w = .num true 0 g → r.1 = if mx = true then x else y)

theorem isMinMax_fMinMax (h : f.Regular) : IsMinMax f x y (fMinMax f mx x y) mx := by
  refine ⟨snd_fMinMax.trans (nvOf_or_nvOf ..), fMinMax_of_nan_of_nan, fMinMax_of_nan_left, fMinMax_of_nan_right, ?oneOfThem, ?infLeft, ?infBoth,
    ?infRight, fun hv hw hlt => ?less, fun hv hw hlt => ?greater, ?zeros, ?zeros'⟩
  case oneOfThem =>
    intro hv hw
    rw [fMinMax_of_numbers hv hw]
    split
    · exact .inr rfl
    · exact .inl rfl
  case infLeft =>
    intro p hv hw
    obtain ⟨s, m, e, hnum⟩ := exists_eq_num hw
    rw [fMinMax_of_numbers (by rw [hv]; rfl) hw.1, hv, hnum, ltVal]
  case infBoth =>
    intro p q hv hw hne
    obtain rfl : q = !p := by cases p <;> cases q <;> simp_all
    rw [fMinMax_of_numbers (by rw [hv]; rfl) (by rw [hw]; rfl), hv, hw, ltVal, Bool.not_not, Bool.and_self]
  case infRight =>
    intro p hv hw
    obtain ⟨s, m, e, hnum⟩ := exists_eq_num hv
    rw [fMinMax_of_numbers hv.1 (by rw [hw]; rfl), hw, hnum, ltVal]
    cases p <;> cases mx <;> rfl
  case less =>
    rw [fMinMax_of_numbers hv.1 hw.1, ltVal_unpack _ h hv hw hlt.ne, decide_eq_true hlt]
    simp only [eq_comm]
  case greater =>
    rw [fMinMax_of_numbers hv.1 hw.1, ltVal_unpack _ h hv hw hlt.ne', decide_eq_false hlt.not_gt]
    cases mx <;> rfl
  case zeros =>
    intro e g hv hw
    rw [fMinMax_of_numbers (by rw [hv]; rfl) (by rw [hw]; rfl), hv, hw]
    cases mx <;> rfl
  case zeros' =>
    intro e g hv hw
    rw [fMinMax_of_numbers (by rw [hv]; rfl) (by rw [hw]; rfl), hv, hw]
    cases mx <;> rfl

end minMax

section issued
variable {s : State} {u : Turn} {t : Thread} {gd : Guard} {ty : Ty}

theorem retires_fmin {d a b : Reg} (h : Issues s u t (.fmin gd d a b ty)) :
    Retires (.fmin gd d a b ty) s u (FResult d ty (fMinMax (fmtOf ty) false (lowTy t a ty) (lowTy t b ty))) :=
  retires_of_scalarF (f := fun t => fMinMax (fmtOf ty) false (lowTy t a ty) (lowTy t b ty)) h (exec_fmin ..) rfl (by decide) (by decide)
    (lacks_tail (by decide) · · · _ _)

theorem retires_fmax {d a b : Reg} (h : Issues s u t (.fmax gd d a b ty)) :
    Retires (.fmax gd d a b ty) s u (FResult d ty (fMinMax (fmtOf ty) true (lowTy t a ty) (lowTy t b ty))) :=
  retires_of_scalarF (f := fun t => fMinMax (fmtOf ty) true (lowTy t a ty) (lowTy t b ty)) h (exec_fmax ..) rfl (by decide) (by decide)
    (lacks_tail (by decide) · · · _ _)

theorem laneWise_vmin {d a : VReg} {b : BOp} {mk : Mask} {z : Bool} (h : Issues s u t (.vmin gd d a b ty mk z)) :
    LaneWise (.vmin gd d a b ty mk z) s u t d ty mk z fun j => minMaxTy ty false (lane ty.width (vr t a) j) (laneB t b ty j) :=
  laneWise_of_vecOp (f := fun t j => minMaxTy ty false (lane ty.width (vr t a) j) (laneB t b ty j)) h (exec_vmin ..) rfl (by decide)
    (by decide) (lacks_tail (by decide) · · · _ _)

theorem laneWise_vmax {d a : VReg} {b : BOp} {mk : Mask} {z : Bool} (h : Issues s u t (.vmax gd d a b ty mk z)) :
    LaneWise (.vmax gd d a b ty mk z) s u t d ty mk z fun j => minMaxTy ty true (lane ty.width (vr t a) j) (laneB t b ty j) :=
  laneWise_of_vecOp (f := fun t j => minMaxTy ty true (lane ty.width (vr t a) j) (laneB t b ty j)) h (exec_vmax ..) rfl (by decide)
    (by decide) (lacks_tail (by decide) · · · _ _)

end issued

/-- Settles O11: in a register and in each lane the result is `fMinMax`'s, which orders −0 below +0 and all else by value. -/
theorem minAndMax : Obligations.MinAndMax := by
  unfold Obligations.MinAndMax
  intro s u t gd ty hty f isMin
  obtain ⟨h, hF⟩ := regular_fmtOf hty
  have spec (x y : Nat) (mx : Bool) : isMin x y (fMinMax f mx x y) mx := isMinMax_fMinMax h
  have laneSpec (x y : Nat) (mx : Bool) : isMin x y (minMaxTy ty mx x y) mx := by
    rw [minMaxTy, if_pos hF]
    exact spec x y mx
  exact ⟨fun d a b => ⟨_, _, spec _ _ _, spec _ _ _, retires_fmin, retires_fmax⟩,
    fun d a b mk z => ⟨_, _, fun j => ⟨laneSpec _ _ _, laneSpec _ _ _⟩, laneWise_vmin, laneWise_vmax⟩⟩

end Sys2Proof.Machine
end

section
/-! Conversion to LG6 (R234): the code nearest to 4·log2|x| + 16, and O14. -/

namespace Sys2Proof.Machine

theorem bitLen_two_pow (j : Nat) : bitLen (2 ^ j) = j + 1 := by
  simp [bitLen, Nat.log2_two_pow]

/-- R234: the greatest m with 2^(2m) ≤ (n · 2^e)^8 · 2^33. -/
def lgNearest (n : Nat) (e : Int) : Int := ((bitLen (n ^ 8) : Int) - 1 + 8 * e + 33) / 2

/-- R234: n · 2^e is a power of two whose logarithm times four, plus 16, is the code. -/
def LgExact (n : Nat) (e : Int) : Prop := n = 2 ^ (bitLen n - 1) ∧ lgNearest n e = 4 * ((bitLen n : Int) - 1 + e) + 16

section nearest
variable {n k : Nat} {e : Int}

theorem two_pow_lgNearest_le (hn : n ≠ 0) (hm : 0 ≤ 2 * lgNearest n e + k) (he : 0 ≤ 8 * e + 33 + k) :
    2 ^ (2 * lgNearest n e + k).toNat ≤ n ^ 8 * 2 ^ (8 * e + 33 + k).toNat := by
  have hpow : n ^ 8 ≠ 0 := pow_ne_zero 8 hn
  have hlen := bitLen_pos hpow
  have hle : (2 * lgNearest n e + k).toNat ≤ bitLen (n ^ 8) - 1 + (8 * e + 33 + k).toNat := by
    rw [lgNearest] at *
    omega
  calc 2 ^ (2 * lgNearest n e + k).toNat ≤ 2 ^ (bitLen (n ^ 8) - 1 + (8 * e + 33 + k).toNat) := Nat.pow_le_pow_right two_pos hle
    _ = 2 ^ (bitLen (n ^ 8) - 1) * 2 ^ (8 * e + 33 + k).toNat := pow_add ..
    _ ≤ n ^ 8 * 2 ^ (8 * e + 33 + k).toNat := Nat.mul_le_mul_right _ (two_pow_bitLen_le hpow)

theorem lt_two_pow_lgNearest (he : 0 ≤ 8 * e + 33 + k) :
    n ^ 8 * 2 ^ (8 * e + 33 + k).toNat < 2 ^ (2 * lgNearest n e + 2 + k).toNat := by
  have hle : bitLen (n ^ 8) + (8 * e + 33 + k).toNat ≤ (2 * lgNearest n e + 2 + k).toNat := by
    rw [lgNearest]
    omega
  calc n ^ 8 * 2 ^ (8 * e + 33 + k).toNat < 2 ^ bitLen (n ^ 8) * 2 ^ (8 * e + 33 + k).toNat :=
        Nat.mul_lt_mul_of_pos_right (lt_two_pow_bitLen _) (by positivity)
    _ = 2 ^ (bitLen (n ^ 8) + (8 * e + 33 + k).toNat) := (pow_add ..).symm
    _ ≤ 2 ^ (2 * lgNearest n e + 2 + k).toNat := Nat.pow_le_pow_right two_pos hle

theorem pow_eight_mul_eq_iff {j a b : Nat} : (2 ^ j) ^ 8 * 2 ^ a = 2 ^ b ↔ 8 * j + a = b := by
  rw [← pow_mul, ← pow_add, Nat.pow_right_inj one_lt_two, Nat.mul_comm j]

/-- R234: the code is exact where the eighth power is one of two, of odd exponent as 2^33 is. -/
theorem lgExact_iff (hm : 0 ≤ 2 * lgNearest n e + k) (he : 0 ≤ 8 * e + 33 + k) :
    LgExact n e ↔ n ^ 8 * 2 ^ (8 * e + 33 + k).toNat = 2 ^ (2 * lgNearest n e + 1 + k).toNat := by
  constructor
  · rintro ⟨hn, hcode⟩
    have hlen : 1 ≤ bitLen n := bitLen_pos (by rw [hn]; positivity)
    rw [congrArg (· ^ 8) hn, pow_eight_mul_eq_iff]
    omega
  · intro h
    obtain ⟨j, -, rfl⟩ := (Nat.dvd_prime_pow Nat.prime_two).1 ((dvd_pow_self n (by decide : 8 ≠ 0)).trans (Dvd.intro _ h))
    rw [pow_eight_mul_eq_iff] at h
    rw [LgExact, bitLen_two_pow]
    exact ⟨rfl, by push_cast; omega⟩

end nearest

section toLg
variable {s : Bool} {n : Nat} {e : Int}

theorem toLg_of_low (hn : n ≠ 0) (hm : lgNearest n e < 1) : toLg (.num s n e) = (0, fUF ||| fNX) := by
  simp only [toLg, beq_eq_false_iff_ne.2 hn, Bool.false_eq_true, if_false]
  exact if_pos hm

theorem toLg_of_high (hn : n ≠ 0) (hm : 31 < lgNearest n e) : toLg (.num s n e) = (b2n s * 32 + 31, fOF ||| fNX) := by
  simp only [toLg, beq_eq_false_iff_ne.2 hn, Bool.false_eq_true, if_false]
  rw [if_neg (by rw [← lgNearest]; omega), if_pos (by rwa [← lgNearest])]
  split <;> rfl

theorem toLg_of_inside (hn : n ≠ 0) (hlow : 1 ≤ lgNearest n e) (hhigh : lgNearest n e ≤ 31) :
    toLg (.num s n e) = (b2n s * 32 + (lgNearest n e).toNat,
      if n == 2 ^ (bitLen n - 1) && lgNearest n e == 4 * ((bitLen n : Int) - 1 + e) + 16 then 0 else fNX) := by
  simp only [toLg, beq_eq_false_iff_ne.2 hn, Bool.false_eq_true, if_false]
  rw [if_neg (by rw [← lgNearest]; omega), if_neg (by rw [← lgNearest]; omega)]
  rfl

theorem lgExact_iff_test : (n == 2 ^ (bitLen n - 1) && lgNearest n e == 4 * ((bitLen n : Int) - 1 + e) + 16) = true ↔ LgExact n e := by
  rw [LgExact, Bool.and_eq_true, beq_iff_eq, beq_iff_eq]

end toLg

/-- R234: every source becomes its code by its value alone. -/
theorem convert_lg (tab : List Nat) (frm : Ty) (rm : Rnd) (sat : Bool) (x : Nat) :
    convert tab .lg frm rm sat x =
      toLg (if frm.isI = true then .num (decide (intOf frm x < 0)) (intOf frm x).natAbs 0 else tyVal tab frm x) := by
  rw [convert]
  split <;> rfl

/-- Settles O14: the model's code is the greatest whose power is no greater than the source's, and each range of codes has its result. -/
theorem conversionToLg : Obligations.ConversionToLg := by
  unfold Obligations.ConversionToLg
  intro tab frm rm sat x v r
  have hr : r = toLg v := convert_lg ..
  have sign (p : Bool) : b2n p * 32 = if p = true then 2 ^ 5 else 0 := by cases p <;> rfl
  refine ⟨fun h => ?nan, fun p h => ?inf, fun p e h => ?zero, fun p n e h hn => ?finite⟩
  case nan =>
    rw [hr]
    cases hv : v with
    | nan => rfl
    | inf | num => rw [hv] at h; cases h
  case inf => rw [hr, h, ← sign]; rfl
  case zero => rw [hr, h]; rfl
  case finite =>
    rw [h] at hr
    refine ⟨lgNearest n e, LgExact n e, fun k hm he => ⟨two_pow_lgNearest_le hn hm he, lt_two_pow_lgNearest he, lgExact_iff hm he⟩, ?_⟩
    intro signBit
    refine ⟨fun hm => hr.trans (toLg_of_low hn hm), fun hm => ?_, fun hlow hhigh => ?_⟩
    · rw [hr, toLg_of_high hn hm, sign]
    · rw [hr, toLg_of_inside hn hlow hhigh, sign]
      exact ⟨rfl, fun hexact => if_pos (lgExact_iff_test.2 hexact), fun hno => if_neg fun htest => hno (lgExact_iff_test.1 htest)⟩

end Sys2Proof.Machine
end

section
/-! No step stops (R256, R332): every meaning answers a next state where the turn belongs to a thread, and O60. -/

namespace Sys2Proof.Machine

/-- The outcome is a next state. -/
def IsNext (o : Host.Outcome State Fault Refusal) : Prop := ∃ s, o = .next s

theorem IsNext.ite {c : Prop} [Decidable c] {a b : Host.Outcome State Fault Refusal} (ha : IsNext a) (hb : IsNext b) :
    IsNext (if c then a else b) := by
  split
  · exact ha
  · exact hb

/-- R281: the issue of an instruction stops only without a turn, or where the slot of the turn is vacant. -/
theorem issue_isNext {s : State} {u : Turn} {t : Thread} (hu : s.turn = some u) (ht : s.thr? u.ep u.slot = some t) (m : Meta) (gd : Guard)
    (body : Turn → Thread → State → State) : IsNext (issue m gd s body) := by
  simp only [issue, hu, ht]
  exact ⟨_, rfl⟩

/-- R464: a write of the host answers a next state at each aperture. -/
theorem execHostDataWrite_isNext (pkg off n data : Nat) (s : State) : IsNext (execHostDataWrite pkg off n data s) := by
  refine IsNext.ite ⟨_, rfl⟩ ?_
  dsimp only
  cases apertureOf (kblGood s pkg) pkg off n with
  | _ => exact ⟨_, rfl⟩

/-- What the hardware does by itself stops nothing. -/
theorem runEv_isNext (ev : Ev) (s : State) : IsNext (runEv ev s) := by
  cases ev with
  | hostDataWrite pkg off n data => exact execHostDataWrite_isNext pkg off n data s
  | _ => exact ⟨_, rfl⟩

/-- R281, R332: an instruction that is no step of the hardware is an issue of a body. -/
theorem exec_eq_issue {i : Instr} (h : evOf i = none) : ∃ m gd body, ∀ s, exec i s = issue m gd s body := by
  cases i with
  | issueTurn | waitTimeout | hostQueueEntryWrite | entryAdmission | hostCancelWrite | hostDataWrite | hostDataRead | dispatchEntry
  | launchHeaderRead | dispenserExamine | frameReentry | instantLapse | lapseBroadcastApply | settleExpiry | heldRecordRetry | dropReport
  | gatewayEgress | gatewayIngress | exportNotice | proxyReport | cancelPropagation | unionChangePropagation | fabricIngress
  | replyArrival | messageInjection | messageDelivery | heldMessageRelease | remoteEnqArrival | qresRequestArrival | qresGrantArrival
  | dtlEntryTimeout | destWriteQueueWrite | tileWriteQueueWrite | copyPieceDispatch | fillPatternRead | pieceAtOwner | pieceAtRecipient
  | pieceReport | codeSegmentLanded | codesegWrite | programCommandArrival | programCommandDelivery | collChunkSend | collChunkArrival
  | reductionBlockDelivery | collParticipantFailure | collTimeout | qprobeReturn | lineBufferAccess | lineFillComplete | victimWriteback
  | patrolScrubRead | mirrorWriteApply | mirrorTimeout | joinBusyRetry | migrantArrival | migrantQueueAdmit | migrantReturn
  | pageWalkStep | invtlbApply | regionBeginRequest | regionAccessEdges | regionCommitRequest | sealAtOwner | sealAck | resolveAtOwner
  | resolveAck | discardAtOwner | abortDelivery | regionInstantTest | regionWaitTimeout | boundaryClose | rectangleResetComplete
  | containmentRelease | arecWrite | oldComplete | ardComplete | awrComplete | mmaStart | mmaKStep | aclrApply | xfenceComplete
  | linkFlitCrcFail | kblFlitCrcFail | timeSyncFlit | powerGood | kblTrained | bootGo | bootVerify | firmwareInitComplete
  | attestationRequest | attestationDone | commitWrite | commitComplete | lostclrWrite | chstatWrite | islctlWrite | counterReadClear
  | evreadWrite | managementRegisterWrite | eventLogPlace | eventGapTimeout | telemetrySample | droopStretchStart | droopStretchEnd
  | instantUnitRequest | exportNoticeAck | reservationReturn | swapImageWritten | timeSyncLost | powerLoss => cases h
  | _ => exact ⟨_, _, _, fun _ => rfl⟩

/-- R332: an instruction whose turn belongs to a thread answers a next state. -/
theorem exec_isNext (i : Instr) {s : State} {u : Turn} {t : Thread} (hu : s.turn = some u) (ht : s.thr? u.ep u.slot = some t) :
    IsNext (exec i s) := by
  cases hev : evOf i with
  | some ev => exact runEv_of_evOf hev s ▸ runEv_isNext ev s
  | none =>
    obtain ⟨m, gd, body, hissue⟩ := exec_eq_issue hev
    exact hissue s ▸ issue_isNext hu ht m gd body

namespace ReadOnly

/-- A granule that becomes ochre wakes no frame (R275). -/
theorem setGran_ochre (s : State) (e : EP) (a : Nat) : ReadOnly s (s.setGran e a .ochre) := modCore s e (fun _ => rfl) fun _ => rfl

/-- R48: the errors of a scratchpad's words are met. -/
theorem meetErrors (s : State) (e : EP) (a n : Nat) : ReadOnly s (meetErrors s e a n) := by
  unfold Machine.meetErrors
  split
  · exact refl s
  · refine foldl (fun s w => ?_) _ s
    split
    · exact refl s
    · dsimp only
      split
      · exact modCore s e (fun _ => rfl) fun _ => rfl
      · exact ((modCore s e (by intro _; rfl) (by intro _; rfl)).trans (setGran_ochre ..)).trans (event ..)

/-- R72, R73: the fetch of a line. -/
theorem fetchLine {s s' : State} {e : EP} {t : Thread} {r : Checked Line} (h : fetchLine s e t = (r, s')) : ReadOnly s s' := by
  have met := meetErrors s e (t.pc.toNat / 64 * 64) 64
  suffices ReadOnly s (Machine.fetchLine s e t).2 by rwa [h] at this
  unfold Machine.fetchLine
  dsimp only
  split
  · exact refl s
  · split
    · exact refl s
    · split
      · exact refl s
      · split
        · exact met
        · split
          · exact met
          · split
            · exact met
            · exact met

end ReadOnly

/-- R72, R256: what a turn fetches runs in a turn of a slot that holds a thread. -/
theorem fetchTurn_run {s s' : State} {u : Turn} {i : Instr} (h : fetchTurn s u = .run i s') :
    ∃ u' t, s'.turn = some u' ∧ s'.thr? u'.ep u'.slot = some t := by
  simp only [fetchTurn] at h
  split at h
  · cases h
  next t ht =>
    split at h
    · cases h
    next l s1 hf =>
      split at h
      · cases h
      next i _ =>
        cases h
        have ht1 : s1.thr? u.ep u.slot = some t := ((ReadOnly.fetchLine hf).threads ..).trans ht
        exact ⟨_, _, rfl, (thr?_modThr ..).trans (congrArg (Option.map _) ht1)⟩

/-- R470: the instruction of a turn answers a next state once what it uses has been read, and where that must wait the turn passes. -/
theorem runInstr_isNext (i : Instr) {s : State} {u v : Turn} {t : Thread} (hu : s.turn = some u) (ht : s.thr? u.ep u.slot = some t) :
    IsNext (runInstr s v i) := by
  cases hx : readTables s (usesOfInstr s v i) with
  | none => exact ⟨_, runInstr_of_waits hx⟩
  | some x =>
    have kept := ReadOnly.readTables hx
    rw [runInstr_of_read hx]
    exact exec_isNext i (kept.turn.trans hu) ((kept.threads ..).trans ht)

theorem happen_isNext (s : State) (ev : Ev) : IsNext (happen s ev) := by
  cases hx : readTables s (usesOfEv s ev) with
  | none => exact ⟨_, happen_of_waits hx⟩
  | some x => exact happen_of_read hx ▸ runEv_isNext ev x

/-- Settles O60: a turn of a slot that holds a thread traps at its fetch or runs its instruction, and without a turn the next of the agenda happens
or a round begins. -/
theorem stepNeverStops : Obligations.StepNeverStops := by
  unfold Obligations.StepNeverStops
  intro s _
  cases hturn : s.turn with
  | some u =>
    simp only [step, hturn]
    split
    · exact ⟨_, rfl⟩
    next i s1 hrun =>
      obtain ⟨u', t, hu, ht⟩ := fetchTurn_run hrun
      exact runInstr_isNext i hu ht
  | none =>
    cases hocc : s.agenda with
    | nil => exact ⟨_, step_of_agenda_nil hturn hocc⟩
    | cons o rest => exact step_of_agenda hturn hocc ▸ happen_isNext _ _

end Sys2Proof.Machine
end

section
/-! What keeps the turn and the memories, said once for each way in which a state changes (O59). -/

namespace Sys2Proof.Machine

set_option Elab.async false

variable {τ : Option Turn} {s : State}

/-- The outcome is a next state without a turn, every memory canonical. -/
def NextOk (o : Host.Outcome State Fault Refusal) : Prop := ∀ t, o = .next t → Ok none t

theorem NextOk.next {t : State} (h : Ok none t) : NextOk (.next t) := by
  intro u e
  cases e
  exact h

/-- The memories of a core. -/
def Core.mems (c : Core) : Memory × Memory × Memory := (c.spad, c.opmem, c.acc)

/-- A core changes and its memories do not. -/
theorem Ok.sameMems {e : EP} {f : Core → Core} (h : Ok τ s) (hf : ∀ c, (f c).mems = c.mems := by exact fun _ => rfl) :
    Ok τ (s.modCore e f) := by
  refine h.modCore fun c hc => ?_
  have hm := hf c
  simp only [Core.mems, Prod.mk.injEq] at hm
  simpa only [coreMemOk, hm] using hc

/-- A package changes and its staging memory does not. -/
theorem Ok.sameStaging {i : Nat} {f : Pkg → Pkg} (h : Ok τ s) (hf : ∀ p, (f p).staging = p.staging := by exact fun _ => rfl) :
    Ok τ (s.modPkg i f) :=
  h.modPkgSame hf

/-- A core changes and, of its memories, its operand memory alone. -/
theorem Ok.opmemChange {e : EP} {f : Core → Core} (h : Ok τ s) (ho : ∀ c, Memory.wf c.opmem = true → Memory.wf (f c).opmem = true)
    (hs : ∀ c, (f c).spad = c.spad := by exact fun _ => rfl) (ha : ∀ c, (f c).acc = c.acc := by exact fun _ => rfl) :
    Ok τ (s.modCore e f) :=
  h.modKeep fun c => ⟨by rw [hs]; exact id, ho c, by rw [ha]; exact id⟩

/-- A core changes and, of its memories, its accumulator memory alone. -/
theorem Ok.accChange {e : EP} {f : Core → Core} (h : Ok τ s) (ha : ∀ c, Memory.wf c.acc = true → Memory.wf (f c).acc = true)
    (hs : ∀ c, (f c).spad = c.spad := by exact fun _ => rfl) (ho : ∀ c, (f c).opmem = c.opmem := by exact fun _ => rfl) :
    Ok τ (s.modCore e f) :=
  h.modKeep fun c => ⟨by rw [hs]; exact id, by rw [ho]; exact id, ha c⟩

/-- A core changes and, of its memories, its scratchpad alone. -/
theorem Ok.spadChange {e : EP} {f : Core → Core} (h : Ok τ s) (hs : ∀ c, Memory.wf c.spad = true → Memory.wf (f c).spad = true)
    (ho : ∀ c, (f c).opmem = c.opmem := by exact fun _ => rfl) (ha : ∀ c, (f c).acc = c.acc := by exact fun _ => rfl) :
    Ok τ (s.modCore e f) :=
  h.modKeep fun c => ⟨hs c, by rw [ho]; exact id, by rw [ha]; exact id⟩

/-- The state that comes with an optional value. -/
theorem Ok.optMapSnd {α β : Type} {o : Option β} {f : β → α × State} {x : α} {t : State} (e : o.map f = some (x, t))
    (hf : ∀ b, Ok τ (f b).2) : Ok τ t := by
  cases o with
  | none => cases e
  | some b =>
    have h := hf b
    rw [Option.some.inj e] at h
    exact h

/-- A state that an optional value gives, else a given one. -/
theorem Ok.getD {o : Option State} (ho : ∀ {t}, o = some t → Ok τ t) (h : Ok τ s) : Ok τ (o.getD s) := by
  cases o with
  | none => exact h
  | some t => exact ho rfl

/-- What an access's first half may answer: the end of the turn, or a state that keeps it. -/
def ActOk (τ : Option Turn) (r : Except State State) : Prop := (∀ {t}, r = .error t → Ok none t) ∧ ∀ {t}, r = .ok t → Ok τ t

theorem ActOk.error {t : State} (h : Ok none t) : ActOk τ (.error t) := ⟨fun e => Except.error.inj e ▸ h, nofun⟩

theorem ActOk.ok {t : State} (h : Ok τ t) : ActOk τ (.ok t) := ⟨nofun, fun e => Except.ok.inj e ▸ h⟩

theorem above_lt {m : Memory} {lo : Nat} (hm : Memory.above (some lo) m = true) : ∀ x ∈ m, lo < x.1 := by
  induction m generalizing lo with
  | nil => exact fun _ hx => nomatch hx
  | cons y r ih =>
    simp only [Memory.above, Bool.and_eq_true, decide_eq_true_eq] at hm
    obtain ⟨⟨hj, -⟩, hr⟩ := hm
    intro x hx
    rcases List.mem_cons.1 hx with rfl | hx
    · exact hj
    · exact hj.trans (ih hr x hx)

/-- A canonical memory without a range of addresses stays canonical. -/
theorem above_tdrop {m : Memory} {o : Option Nat} {lo n : Nat} (hm : Memory.above o m = true) : Memory.above o (tdrop m lo n) = true := by
  induction m generalizing o with
  | nil => rfl
  | cons x r ih =>
    obtain ⟨j, c⟩ := x
    have hr := hm
    simp only [Memory.above, Bool.and_eq_true] at hr
    obtain ⟨hj, hr⟩ := hr
    by_cases hlt : j < lo
    · have hcons : tdrop ((j, c) :: r) lo n = (j, c) :: tdrop r lo n := by
        have : ¬ lo + n ≤ j := by omega
        simp [tdrop, outside, hlt, this]
      simp only [hcons, Memory.above, ih hr, Bool.and_true, Bool.and_eq_true]
      exact hj
    · have hnone : r.filter (fun x => x.1 < lo) = [] := List.filter_eq_nil_iff.2 fun y hy => by
        have := above_lt hr y hy
        simp only [decide_eq_true_eq]
        omega
      have hdrop : tdrop ((j, c) :: r) lo n = ((j, c) :: r).filter fun x => lo + n ≤ x.1 := by
        simp only [tdrop, outside, List.filter_cons, decide_eq_true_eq, hlt, if_false, hnone, List.nil_append]
      rw [hdrop]
      exact filter_above _ _ hm

theorem tdrop_wf {m : Memory} {lo n : Nat} (hm : Memory.wf m = true) : Memory.wf (tdrop m lo n) = true := above_tdrop hm

theorem all_filter {α : Type} {p q : α → Bool} {l : List α} (h : l.all p = true) : (l.filter q).all p = true :=
  List.all_eq_true.2 fun x hx => List.all_eq_true.1 h x (List.mem_of_mem_filter hx)

theorem all_tdrop {α : Type} {p : Nat × α → Bool} {t : Table α} {lo n : Nat} (h : t.all p = true) : (tdrop t lo n).all p = true := by
  rw [tdrop, outside, List.all_append, all_filter h, all_filter h]
  rfl

end Sys2Proof.Machine
end

section
/-! What the operations of Machine/Topology.lean keep (O59). -/

namespace Sys2Proof.Machine

set_option Elab.async false

variable {τ : Option Turn} {s : State}

theorem Ok.modMgmt {e : EP} {f : CoreMgmt → CoreMgmt} (h : Ok τ s) : Ok τ (s.modMgmt e f) := by
  unfold Machine.State.modMgmt
  split
  · exact h.sameMems
  · exact h.sameStaging

end Sys2Proof.Machine
end

section
/-! What the operations of Machine/Dram.lean keep (O59). -/

namespace Sys2Proof.Machine

set_option Elab.async false

variable {τ : Option Turn} {s : State}

theorem Ok.storeLine {line data : Nat} (h : Ok τ s) : Ok τ (storeLine s line data) :=
  h.setDram (mwrite_wf _ _ _ h.dram) (mputs_wf _ _ h.check)

theorem Ok.storeMarker {line : Nat} (h : Ok τ s) : Ok τ (storeMarker s line) := h.setDram (mwrite_wf _ _ _ h.dram) (mputs_wf _ _ h.check)

theorem Ok.setLine {line data : Nat} (h : Ok τ s) : Ok τ (setLine s line data) := by
  unfold Machine.setLine
  split
  · exact h.sameMems
  · exact h.storeLine

end Sys2Proof.Machine
end

section
/-! What the operations of Machine/Thread.lean keep (O59). -/

namespace Sys2Proof.Machine

set_option Elab.async false

variable {τ : Option Turn} {s : State}

theorem Ok.event {pkg kind aux ep slot : Nat} {data : Word} (h : Ok τ s) : Ok τ (s.event pkg kind aux ep slot data) := h.modBridge

theorem Ok.send {src dst vc : Nat} {req : Req} {carry : Carry} {body : Body} (h : Ok τ s) : Ok τ (s.send src dst vc req carry body) := h.upd

theorem Ok.answer {src : EP} {req : Req} {carry : Carry} {a : Answer} (h : Ok τ s) : Ok τ (s.answer src req carry a) := h.send

theorem Ok.report {pkg h tasks msgs stores : Nat} (hs : Ok τ s) : Ok τ (s.report pkg h tasks msgs stores) := Ok.ite hs hs.upd

theorem Ok.retire {u : Turn} {f : Thread → Thread} (h : Ok τ s) : Ok none (s.retire u f) := h.modThr.noTurn

theorem Ok.jump {u : Turn} {pc : CodeAddr} {f : Thread → Thread} (h : Ok τ s) : Ok none (s.jump u pc f) := h.modThr.noTurn

theorem Ok.parkAt {u : Turn} {why : Wait} {kind path : Nat} {sent : Bool} {limit : Option Nat} {d : Reg} {aux ser : Nat} (h : Ok τ s) :
    Ok none (s.parkAt u why kind path sent limit d aux ser) := h.modThr.noTurn

theorem Ok.waitFor {u : Turn} {t : Thread} {c : Until} {w : Word} {kind : Nat} (h : Ok τ s) : Ok none (s.waitFor u t c w kind) :=
  Ok.ite h.retire h.parkAt

theorem Ok.waitEver {u : Turn} {c : Until} (h : Ok τ s) : Ok none (s.waitEver u c) := h.parkAt

end Sys2Proof.Machine
end

section
/-! What the operations of Machine/Buffer.lean keep (O59). -/

namespace Sys2Proof.Machine

set_option Elab.async false

variable {τ : Option Turn} {s : State}

theorem Ok.sendRegion {src dst : EP} {req : Req} {carry : Carry} {m : RMsg} (h : Ok τ s) : Ok τ (s.sendRegion src dst req carry m) := h.send

theorem Ok.askAbort {src : EP} {dk id cause : Nat} (h : Ok τ s) : Ok τ (s.askAbort src dk id cause) := by
  unfold Machine.State.askAbort
  split
  · exact h.sendRegion
  · exact h

theorem Ok.abortPlain {e : EP} {a n : Nat} (h : Ok τ s) : Ok τ (abortPlain s e a n) := Ok.ite h (h.sameMems.foldl fun _ _ h1 => h1.askAbort)

theorem Ok.modBuf {e : EP} {f : List BufLine → List BufLine} (h : Ok τ s) : Ok τ (s.modBuf e f) := h.sameMems

theorem Ok.modLine {e : EP} {line : Nat} {f : BufLine → BufLine} (h : Ok τ s) : Ok τ (s.modLine e line f) := h.modBuf

theorem Ok.needLine {e : EP} {ticket line : Nat} (h : Ok τ s) : Ok τ (needLine s e ticket line).2 := by
  unfold Machine.needLine
  dsimp only
  split
  · exact h
  · split
    · split
      · exact h
      · exact h.modBuf
    · split
      · exact h
      · split
        · exact h.modBuf
        · split
          · exact h.modLine
          · exact h.modBuf
        · exact h

theorem Ok.needLines {e : EP} {ticket : Nat} {l : List Nat} (h : Ok τ s) : Ok τ (needLines s e ticket l).2 :=
  h.foldlSnd fun _ _ h1 => h1.needLine

theorem Ok.modPkt {k : Nat} {f : Pkt → Pkt} (h : Ok τ s) : Ok τ (s.modPkt k f) := h.upd

theorem Ok.nextTicket {e : EP} (h : Ok τ s) : Ok τ (nextTicket s e).2 := h.sameMems

theorem Ok.heldAtPort {k : Nat} {p : Pkt} (h : Ok τ s) : Ok τ (s.heldAtPort k p) := Ok.ite h h.nextTicket.modPkt

theorem Ok.atPort {k : Nat} {p : Pkt} {lines : List Nat} {f : State → State} (h : Ok τ s) (hf : ∀ (s' : State), Ok τ s' → Ok τ (f s')) :
    Ok τ (atPort s k p lines f) := by
  unfold Machine.atPort
  split
  · next he => exact hf _ (Ok.ofSnd he h.needLines)
  · next he => exact (Ok.ofSnd he h.needLines).heldAtPort

theorem Ok.offPort {k : Nat} (h : Ok τ s) : Ok τ (s.offPort k) := h.modPkt

theorem Ok.makeOchre {e : EP} {line kind : Nat} (h : Ok τ s) : Ok τ (makeOchre s e line kind) := h.modLine.storeMarker.event

theorem Ok.meetLineErrors {e : EP} {pa n : Nat} (h : Ok τ s) : Ok τ (meetLineErrors s e pa n) := by
  unfold Machine.meetLineErrors
  split
  · exact h
  · exact Ok.ite h (Ok.ite h.makeOchre h.modLine.sameMems)

theorem Ok.countFixed {e : EP} {l : List Nat} (h : Ok τ s) : Ok τ (countFixed s e l) := h.sameMems

theorem Ok.enterLine {e : EP} {b : BufLine} (h : Ok τ s) : Ok τ (enterLine s e b) := by
  unfold Machine.enterLine
  split
  · exact h.modBuf
  · extract_lets s1 s2
    have h1 : Ok τ s1 := Ok.ite h.meetLineErrors h
    have h2 : Ok τ s2 := by
      unfold s2
      split
      · exact Ok.ite h1.storeLine h1
      · exact h1
    exact h2.modBuf
  · exact h

theorem Ok.enterRead {e : EP} {line : Nat} (h : Ok τ s) : Ok τ (enterRead s e line) :=
  Ok.ite h.enterLine (Ok.ite h.enterLine.makeOchre h.countFixed.enterLine)

theorem Ok.unitReadLine {line pa n : Nat} (h : Ok τ s) : Ok τ (unitReadLine s line pa n) := by
  unfold Machine.unitReadLine
  dsimp only
  split
  · exact h
  · split
    · exact h
    · split
      · exact Ok.ite h h.meetLineErrors
      · exact h.enterRead

theorem Ok.unitRead {pa n : Nat} (h : Ok τ s) : Ok τ (unitRead s pa n) := h.foldl fun _ _ h1 => h1.unitReadLine

theorem Ok.applyPart {line off : Nat} {part : List (BitVec 8)} (h : Ok τ s) : Ok τ (applyPart s line off part) := by
  unfold Machine.applyPart
  dsimp only
  split
  · exact (Ok.ite h.abortPlain h.abortPlain.unitReadLine).setLine
  · exact Ok.ite ((Ok.ite h.abortPlain h.abortPlain.unitReadLine).setLine) (Ok.ite h.abortPlain h.abortPlain.unitReadLine)

theorem Ok.physWrite {pa : Nat} {bs : List (BitVec 8)} (h : Ok τ s) : Ok τ (physWrite s pa bs) :=
  h.foldl fun _ _ h1 => Ok.ite h1.send h1.applyPart

theorem Ok.noteEntry {pkg kind i : Nat} (h : Ok τ s) : Ok τ (noteEntry s pkg kind i) := Ok.ite h h.unitRead.sameStaging

theorem Ok.dropCopies {pkg : Nat} {f : Nat → Bool} (h : Ok τ s) : Ok τ (dropCopies s pkg f) := h.sameStaging

theorem Ok.dropTable {pkg kind : Nat} (h : Ok τ s) : Ok τ (dropTable s pkg kind) := h.dropCopies

end Sys2Proof.Machine
end

section
/-! What the operations of Machine/Expiry.lean keep (O59). -/

namespace Sys2Proof.Machine

set_option Elab.async false

variable {τ : Option Turn} {s : State}

theorem Ok.modLapse {pkg h : Nat} {f : Lapse → Lapse} (hs : Ok τ s) : Ok τ (s.modLapse pkg h f) := hs.sameStaging

theorem Ok.broadcast {pkg : Nat} {c : Change} (h : Ok τ s) : Ok τ (s.broadcast pkg c) := h.sameStaging.foldl fun _ _ h1 => h1.modDie

theorem Ok.forget {pkg h : Nat} (hs : Ok τ s) : Ok τ (forget s pkg h) := hs.foldl fun _ _ h1 => h1.modDie

theorem Ok.takeHandleBehind {x : Nat} {t : State} {pkg n : Nat} (h : Ok τ s) (e : takeHandleBehind s pkg n = some (x, t)) : Ok τ t := by
  simp only [Machine.takeHandleBehind] at e
  split at e
  · cases e
  · split at e
    · cases e
      exact h.sameStaging
    · split at e
      · cases e
        exact h.sameStaging
      · cases e

theorem Ok.takeHandle {x : Nat} {t : State} {pkg : Nat} (h : Ok τ s) (e : takeHandle s pkg = some (x, t)) : Ok τ t := h.takeHandleBehind e

theorem Ok.grantHandle {pkg : Nat} (h : Ok τ s) : Ok τ (grantHandle s pkg) := h.upd

theorem Ok.makeHandle {pkg h : Nat} {e : Lapse} (hs : Ok τ s) : Ok τ (makeHandle s pkg h e) := hs.sameStaging.forget

theorem Ok.addPkgCounts {pkg tasks msgs stores : Nat} (h : Ok τ s) : Ok τ (addPkgCounts s pkg tasks msgs stores) := h.modBridge

theorem Ok.freeHandle {pkg h : Nat} (hs : Ok τ s) : Ok τ (freeHandle s pkg h) := hs.sameStaging.forget.grantHandle

theorem Ok.endProxy {pkg h : Nat} {e : Lapse} (hs : Ok τ s) : Ok τ (endProxy s pkg h e) := hs.upd.freeHandle

theorem Ok.refInc {pkg h : Nat} (hs : Ok τ s) : Ok τ (refInc s pkg h) := Ok.ite hs hs.modLapse

theorem Ok.refDecPlain {pkg h : Nat} (hs : Ok τ s) : Ok τ (refDecPlain s pkg h) := by
  unfold Machine.refDecPlain
  split
  · exact hs
  · exact Ok.ite hs.modLapse (Ok.ite hs.endProxy ((Ok.ite hs.broadcast hs).modLapse))

theorem Ok.endUnion {pkg h : Nat} {e : Lapse} (hs : Ok τ s) : Ok τ (endUnion s pkg h e) :=
  hs.addPkgCounts.freeHandle.foldl fun _ _ h1 => Ok.ite h1.refDecPlain h1

theorem Ok.refDec {pkg h : Nat} (hs : Ok τ s) : Ok τ (refDec s pkg h) := by
  unfold Machine.refDec
  split
  · exact hs
  · split
    · exact hs
    · exact Ok.ite (Ok.ite hs.modLapse hs.endUnion) hs.refDecPlain

theorem Ok.propagate {pkg : Nat} {e : Lapse} {f : Nat → Ctl} (h : Ok τ s) : Ok τ (propagate s pkg e f) := h.upd

theorem Ok.memberMoved {pkg h : Nat} (hs : Ok τ s) : Ok τ (memberMoved s pkg h) := by
  unfold Machine.memberMoved
  refine Ok.foldl hs fun s1 _ h1 => ?_
  split
  · split
    · exact Ok.ite h1 h1.modLapse.broadcast.propagate
    · exact h1

theorem Ok.unionChanged {pkg u h : Nat} (hs : Ok τ s) : Ok τ (unionChanged s pkg u h) := by
  unfold Machine.unionChanged
  split
  · exact hs
  · split
    · dsimp only
      split
      · exact hs.modLapse.refDecPlain.modLapse.broadcast.propagate
      · exact Ok.ite hs.modLapse.refDecPlain.broadcast hs.modLapse.refDecPlain.modLapse.broadcast.broadcast.propagate
    · exact hs

theorem Ok.lapseHandle {pkg h : Nat} {cancel : Bool} (hs : Ok τ s) : Ok τ (lapseHandle s pkg h cancel) := by
  unfold Machine.lapseHandle
  split
  · exact hs
  · exact Ok.ite hs ((Ok.ite (Ok.ite hs.modLapse.broadcast.upd hs.modLapse.broadcast.propagate) hs.modLapse.broadcast).foldl fun _ _ h1
        => h1.unionChanged)

theorem Ok.addCounts {pkg h tasks msgs stores : Nat} (hs : Ok τ s) : Ok τ (addCounts s pkg h tasks msgs stores) := by
  unfold Machine.addCounts
  split
  · exact hs.addPkgCounts
  · exact hs.modLapse

theorem Ok.markFault {pkg h : Nat} (hs : Ok τ s) : Ok τ (markFault s pkg h) := hs.modLapse

theorem Ok.addExport {pkg h third : Nat} (hs : Ok τ s) : Ok τ (addExport s pkg h third) := by
  unfold Machine.addExport
  split
  · exact hs
  · exact Ok.ite hs (Ok.ite hs.modLapse.upd hs.modLapse)

theorem Ok.reportItem {pkg : Nat} {c : Carry} {tasks msgs stores : Nat} (h : Ok τ s) : Ok τ (reportItem s pkg c tasks msgs stores) :=
  Ok.ite h (Ok.ite h.report h.upd)

end Sys2Proof.Machine
end

section
/-! What the operations of Machine/Maps.lean keep (O59). -/

namespace Sys2Proof.Machine

set_option Elab.async false

variable {τ : Option Turn} {s : State}

theorem Ok.unitWalk {pkg : Nat} {ctx : Ctx} {va : Nat} (h : Ok τ s) : Ok τ (unitWalk s pkg ctx va) := h.foldl fun _ _ h1 => h1.unitRead

theorem Ok.startWalk {dk : Nat} {ctx : Ctx} {va : Nat} {fill : List (Nat × Nat)} (h : Ok τ s) : Ok τ (startWalk s dk ctx va fill) :=
  Ok.ite h.modDie h.modDie

theorem Ok.coreXlate {e : EP} {t : Thread} {va : Nat} (h : Ok τ s) : Ok τ (coreXlate s e t va).2 := by
  unfold Machine.coreXlate
  split
  · exact h.sameMems
  · split
    · exact h.modCluster.sameMems
    · split
      · exact h
      · split
        · exact h
        · exact h.startWalk

theorem Ok.returnRes {e : EP} {slot : Nat} {t : Thread} (h : Ok τ s) : Ok τ (returnRes s e slot t) := by
  unfold Machine.returnRes
  split
  · exact h
  · split
    · exact h
    · exact h.send

theorem Ok.injectMsg {e : EP} {slot : Nat} {t : Thread} {o : OutMsg} (h : Ok τ s) : Ok τ (injectMsg s e slot t o) := h.send

theorem Ok.flushOutbox {e : EP} {slot : Nat} (h : Ok τ s) : Ok τ (flushOutbox s e slot) := by
  unfold Machine.flushOutbox
  split
  · exact h
  · exact (h.foldl fun _ _ h1 => h1.injectMsg).modThr

theorem Ok.leaveVisitor {e : EP} {slot : Nat} {t : Thread} {o : Origin} (h : Ok τ s) : Ok τ (leaveVisitor s e slot t o) := by
  unfold Machine.leaveVisitor
  extract_lets s1 s2 s3
  have h1 : Ok τ s1 := h.returnRes.flushOutbox
  have h2 : Ok τ s2 := Ok.ite h1 h1.refDec
  have h3 : Ok τ s3 := by
    unfold s3
    split
    · exact h2.refDec
    · exact h2
  exact h3.vacate

end Sys2Proof.Machine
end

section
/-! What the operations of Machine/Ops.lean keep (O59). -/

namespace Sys2Proof.Machine

set_option Elab.async false

variable {τ : Option Turn} {s : State}

theorem Ok.setArecState {dk r st : Nat} (h : Ok τ s) : Ok τ (setArecState s dk r st) := h.modDie

theorem Ok.consume {e : EP} {r : Nat} {addr : Word} (h : Ok τ s) : Ok none (consume s e r addr) :=
  (h.setArecState.modDie.foldl fun _ _ h1 => h1.sameMems).setTurn

theorem Ok.trapNow {e : EP} {slot cause : Nat} {addr : Word} {info : Nat} {trappc : CodeAddr} (h : Ok τ s) :
    Ok none (s.trapNow e slot cause addr info trappc) := by
  unfold Machine.State.trapNow
  split
  · exact h.noTurn
  · split
    · exact Ok.ite h.consume h.noTurn
    · split
      · exact h.send.leaveVisitor.noTurn
      · exact Ok.ite h.modThr.event.noTurn h.modThr.noTurn

theorem Ok.pairMismatch {e : EP} {slot kind : Nat} {addr : Word} (h : Ok τ s) : Ok none (pairMismatch s e slot kind addr) := by
  unfold Machine.pairMismatch
  split
  · exact h.noTurn
  next t ht =>
    split
    · exact h.noTurn
    next q _ =>
      extract_lets clear s1 leadSlot
      have h1 : Ok τ s1 := h.modThr.modThr
      have hslot : (s1.thr? e slot).isSome := by simp [s1, ht]
      split
      · exact h1.noTurn
      · extract_lets kind one
        have hone {s : State} {k : Nat} (h : Ok none s) : Ok none (one s k) := by
          unfold one
          split
          · exact h.trapNow
          · exact h
        refine hone ?_
        unfold one
        split
        · exact h1.trapNow
        next hnone => rw [hnone] at hslot; cases hslot

theorem Ok.flushLead {e : EP} {slot : Nat} {t : Thread} (h : Ok τ s) : Ok τ (flushLead s e slot t) := by
  unfold Machine.flushLead
  split
  · split
    · exact Ok.ite h h.modThr
    · exact h
  · exact h

theorem Ok.raise {u : Turn} {cause : Nat} {addr : Word} {info : Nat} (h : Ok τ s) : Ok none (s.raise u cause addr info) := by
  unfold Machine.State.raise
  split
  · exact h.noTurn
  · split
    · exact h.parkAt
    · dsimp only
      split
      · exact h.modThr.trapNow
      · split
        · exact h.modThr.trapNow
        · split
          · exact Ok.ite h.modThr.trapNow.modThr.trapNow h.pairMismatch
          · exact h.flushLead.modThr.waitEver

theorem Ok.reportRegs {u : Turn} (h : Ok τ s) : Ok none (s.reportRegs u) := h.draw2.sameMems.raise

theorem Ok.modRegion {dk r : Nat} {f : Region → Region} (h : Ok τ s) : Ok τ (modRegion s dk r f) := h.modDie

theorem Ok.modNi {e : EP} {dom : Nat} {f : BitVec 32 × Bool → BitVec 32 × Bool} (h : Ok τ s) : Ok τ (modNi s e dom f) :=
  Ok.ite h.sameStaging h.sameMems

theorem Ok.countOut {e : EP} {ctx : Ctx} (h : Ok τ s) : Ok τ (countOut s e ctx) := Ok.ite h h.modNi

theorem Ok.countIn {e : EP} {ctx : Ctx} (h : Ok τ s) : Ok τ (countIn s e ctx) := Ok.ite h h.modNi

theorem Ok.endAccess {dk : Nat} {a : RAccess} (h : Ok τ s) : Ok τ (endAccess s dk a) := Ok.ite h.modDie.countIn h.modDie

theorem Ok.abortOne {dk id cause : Nat} {silent : Bool} (h : Ok τ s) : Ok τ (abortOne s dk id cause silent) := by
  unfold Machine.abortOne
  split
  · exact h
  · exact Ok.ite (Ok.ite (Ok.ite (((Ok.ite h.report h).foldl fun _ _ h1 => Ok.ite h1.endAccess.answer h1.endAccess).modDie) ((((Ok.ite
        h.report h).foldl fun _ _ h1 => Ok.ite h1.endAccess.answer h1.endAccess).modDie).sendRegion)) ((((Ok.ite h.report h).foldl fun _ _
            h1 => Ok.ite h1.endAccess.answer h1.endAccess).modRegion).foldl fun _ _ h1 => h1.sendRegion)) h

theorem Ok.cascade {dk : Nat} {ids : List Nat} {n : Nat} (h : Ok τ s) : Ok τ (cascade s dk ids n) := by
  induction n generalizing s ids with
  | zero => exact h
  | succ n ih => exact Ok.ite h (ih (h.foldl fun _ _ h1 => h1.abortOne))

theorem Ok.abortRegion {dk id cause : Nat} {silent : Bool} (h : Ok τ s) : Ok τ (abortRegion s dk id cause silent) := h.abortOne.cascade

theorem Ok.endRegion {pkg : Nat} {t : Thread} {cause : Nat} (h : Ok τ s) : Ok τ (s.endRegion pkg t cause) := by
  unfold Machine.State.endRegion
  split
  · exact Ok.ite h.abortRegion h
  · exact h

theorem Ok.abortOwn {u : Turn} {t : Thread} {cause : Nat} (h : Ok τ s) : Ok none (s.abortOwn u t cause) := by
  unfold Machine.State.abortOwn
  split
  · exact h.retire
  · exact Ok.ite h.retire ((Ok.ite h.askAbort h).parkAt)

theorem Ok.withXlate {u : Turn} {t : Thread} {a : Word} {va : Nat} {rd wr : Bool} {body : State → TlbEntry → State} (h : Ok τ s)
    (hbody : ∀ (s' : State) (x1 : TlbEntry), Ok τ s' → Ok none (body s' x1)) : Ok none (withXlate s u t a va rd wr body) := by
  unfold Machine.withXlate
  split
  · next he =>
      split
      · exact (Ok.ofSnd he h.coreXlate).raise
      · exact hbody _ _ (Ok.ofSnd he h.coreXlate)
  · next he => exact (Ok.ofSnd he h.coreXlate).raise
  · next he => exact (Ok.ofSnd he h.coreXlate).waitEver

theorem Ok.checked {α : Type} {u : Turn} {c : Checked α} {body : α → State} (h : Ok τ s) (hbody : ∀ (x0 : α), Ok none (body x0)) :
    Ok none (s.checked u c body) := by
  unfold Machine.State.checked
  split
  · exact h.raise
  · exact hbody _

theorem Ok.pairLead {m : Meta} {u : Turn} {q : PairRef} {body : Turn → Thread → State → State} (h : Ok τ s)
    (hbody : ∀ (x0 : Turn) (x1 : Thread) (s' : State), Ok τ s' → Ok none (body x0 x1 s')) : Ok none (pairLead m s u q body) := by
  unfold Machine.pairLead
  split
  · dsimp only
    split
    · split
      · split
        · exact hbody _ _ _ h.modThr
        · exact h.modThr.noTurn
      · exact h.waitEver
    · split
      · split
        · split
          · exact hbody _ _ _ h.modThr.modThr
          · exact h.modThr.modThr.noTurn
        · exact h.pairMismatch
      · exact Ok.ite (Ok.ite h.waitEver h.retire) (Ok.ite h.modThr.waitEver h.waitEver)
  · exact h.noTurn

theorem Ok.forLeader {u : Turn} {t o : Thread} {q : PairRef} {body : Turn → Thread → State → State} (h : Ok τ s)
    (hbody : ∀ (x0 : Turn) (x1 : Thread) (s' : State), Ok τ s' → Ok none (body x0 x1 s')) : Ok none (forLeader s u t o q body) := by
  unfold Machine.forLeader
  dsimp only
  split
  · exact h.noTurn
  · exact Ok.ite ((((hbody _ _ _ h.modThr).modThr).modThr).retire) (Ok.ite ((((hbody _ _ _ h.modThr).modThr).modThr).noTurn) h.pairMismatch)

theorem Ok.pairTrail {m : Meta} {u : Turn} {t o : Thread} {q oq : PairRef} {body : Turn → Thread → State → State} (h : Ok τ s)
    (hbody : ∀ (x0 : Turn) (x1 : Thread) (s' : State), Ok τ s' → Ok none (body x0 x1 s')) : Ok none (pairTrail m s u t o q oq body) := by
  unfold Machine.pairTrail
  dsimp only
  split
  · exact Ok.ite h.modThr.modThr.noTurn h.pairMismatch
  · exact Ok.ite (h.forLeader hbody) h.pairMismatch
  · split
    · exact h.trapNow.trapNow
    · split
      · split
        · exact Ok.ite h.raise h.pairMismatch
        · exact Ok.ite h.pairMismatch h.modThr.waitEver
      · exact h.modThr.waitEver

theorem Ok.flushDone {q : PairRef} {u : Turn} {t : Thread} (h : Ok τ s) : Ok τ (pairIssue.flushDone q s u t) := by
  unfold Machine.pairIssue.flushDone
  split
  · exact h.modThr
  · exact h.flushLead

theorem Ok.pairIssue {m : Meta} {u : Turn} {t : Thread} {q : PairRef} {body : Turn → Thread → State → State} (h : Ok τ s)
    (hbody : ∀ (x0 : Turn) (x1 : Thread) (s' : State), Ok τ s' → Ok none (body x0 x1 s')) : Ok none (pairIssue m s u t q body) := by
  unfold Machine.pairIssue
  split
  · exact hbody _ _ _ h
  · split
    · exact hbody _ _ _ h
    · split
      · exact h.pairTrail hbody
      · split
        · exact Ok.ite (hbody _ _ _ h) (Ok.ite h.waitEver (h.flushDone.pairLead hbody))
        · exact Ok.ite h.waitEver (h.pairLead hbody)

theorem Ok.issue {m : Meta} {gd : Guard} {body : Turn → Thread → State → State} (h : Ok τ s)
    (hbody : ∀ u t s', Ok τ s' → Ok none (body u t s')) : NextOk (issue m gd s body) := by
  unfold Machine.issue
  split
  · exact nofun
  · split
    · exact nofun
    · next u _ _ t _ =>
      refine NextOk.next (Ok.ite h.raise (Ok.ite h.raise (Ok.ite h.waitEver (Ok.ite h.retire (Ok.ite h.waitEver ?_)))))
      have hlegal (p : Prop) [Decidable p] u t {s'} (h : Ok τ s') :
          Ok none ((if p then fun u t s => s.abortOwn u t 9 else body) u t s') := by
        split
        · exact h.abortOwn
        · exact hbody u t _ h
      dsimp only
      split
      · exact hlegal _ _ _ h
      · split
        · exact h.pairIssue fun _ _ _ => hlegal _ _ _
        · exact hlegal _ _ _ (Ok.ite h.flushLead h)

theorem Ok.pure_ {m : Meta} {gd : Guard} {f : Thread → Thread} (h : Ok τ s) : NextOk (pure_ m gd s f) := h.issue fun _ _ _ h1 => h1.retire

end Sys2Proof.Machine
end

section
/-! What the operations of Machine/Image.lean keep (O59). -/

namespace Sys2Proof.Machine

set_option Elab.async false

variable {τ : Option Turn} {s : State}

theorem Ok.spillWrite {pkg : Nat} {r : SpillRef} (h : Ok τ s) : Ok τ (spillWrite s pkg r) := h.physWrite

theorem Ok.modWhere {e : EP} {w : Whereabouts} {f : Thread → Thread} (h : Ok τ s) : Ok τ (s.modWhere e w f) := by
  unfold Machine.State.modWhere
  split
  · exact h.modThr
  · exact h.modCluster
  · split
    · exact h
    · exact h.sameStaging.spillWrite
  · exact h

end Sys2Proof.Machine
end

section
/-! What the operations of Machine/Groups.lean keep (O59). -/

namespace Sys2Proof.Machine

set_option Elab.async false

variable {τ : Option Turn} {s : State}

theorem Ok.modGroup {e : EP} {ctx : Ctx} {vcore : Nat} {f : Group → Group} (h : Ok τ s) : Ok τ (s.modGroup e ctx vcore f) := h.sameMems

theorem Ok.keepPri {e : EP} {slots : List Nat} {p : BitVec 3} (h : Ok τ s) : Ok τ (s.keepPri e slots p) := h.sameMems

theorem Ok.releaseClaims {e : EP} {ctx : Ctx} {vcore : Nat} (h : Ok τ s) : Ok τ (releaseClaims s e ctx vcore) := h.sameMems

theorem Ok.stopJobs {e : EP} {uid : Nat} {preempt : Bool} (h : Ok τ s) : Ok τ (stopJobs s e uid preempt) := h.sameMems

theorem Ok.unreserve {e : EP} {ctx : Ctx} {vcore : Nat} (h : Ok τ s) : Ok τ (s.unreserve e ctx vcore) := by
  unfold Machine.State.unreserve
  split
  · exact h
  · exact Ok.ite h h.releaseClaims.modGroup.sameStaging

theorem Ok.leaveResume {e : EP} {p : Park} (h : Ok τ s) : Ok τ (leaveResume s e p) := by
  unfold Machine.leaveResume
  split
  · dsimp only
    split
    · exact h.unreserve
    · exact h
  · exact h

theorem Ok.endGroup {e : EP} {g : Group} (h : Ok τ s) : Ok τ (endGroup s e g) :=
  ((((Ok.ite h.physWrite h).foldl fun _ _ h1 => h1.returnRes.flushOutbox.stopJobs).releaseClaims).sameMems).sameStaging

theorem Ok.checkGroup {e : EP} {ctx : Ctx} {vcore : Nat} (h : Ok τ s) : Ok τ (checkGroup s e ctx vcore) := by
  unfold Machine.checkGroup
  split
  · exact Ok.ite h h.endGroup
  · exact h

theorem Ok.endThread {e : EP} {slot : Nat} (h : Ok τ s) : Ok τ (endThread s e slot) := by
  unfold Machine.endThread
  split
  · exact h
  · extract_lets s1 s2 s3 s4 s5 s6 s7 s8 s9
    have h1 : Ok τ s1 := h.endRegion
    have h2 : Ok τ s2 := h1.returnRes.flushOutbox
    have h3 : Ok τ s3 := by
      unfold s3
      split
      · split
        · exact h2.sameMems
        · exact h2
      · exact h2
    have h4 : Ok τ s4 := h3.stopJobs
    have h5 : Ok τ s5 := h4.vacate
    have h6 : Ok τ s6 := by
      unfold s6
      split
      · exact h5.vacate
      · exact h5
    have h7 : Ok τ s7 := by
      unfold s7
      split
      · exact h6.leaveResume
      · exact h6
    have h8 : Ok τ s8 := h7.refDec
    have h9 : Ok τ s9 := by
      unfold s9
      split
      · exact h8.refDec
      · exact h8
    exact Ok.ite h7 h9.checkGroup

theorem Ok.endVisitor {e : EP} {slot : Nat} (h : Ok τ s) : Ok τ (endVisitor s e slot) := by
  unfold Machine.endVisitor
  split
  · exact h
  · split
    · exact h.endThread
    · exact h.endRegion.leaveVisitor.send

theorem Ok.redRead {e : EP} {b : RedBlock} (h : Ok τ s) : Ok τ (redRead s e b) := h.sameMems.sameStaging

theorem Ok.redCombined {e : EP} {uid : Nat} (h : Ok τ s) : Ok τ (redCombined s e uid) := by
  unfold Machine.redCombined
  split
  · exact h
  · exact Ok.ite h.sameMems h.redRead

theorem Ok.exitThread {e : EP} {slot : Nat} (h : Ok τ s) : Ok τ (exitThread s e slot) := by
  unfold Machine.exitThread
  split
  · exact h.redCombined.endVisitor
  · exact h

theorem Ok.freeLapsed {e : EP} {slot : Nat} (h : Ok τ s) : Ok τ (freeLapsed s e slot) := by
  unfold Machine.freeLapsed
  split
  · exact h
  · exact Ok.ite h.modThr.endVisitor h.report.endVisitor

end Sys2Proof.Machine
end

section
/-! What the operations of Machine/Settle.lean keep (O59). -/

namespace Sys2Proof.Machine

set_option Elab.async false

variable {τ : Option Turn} {s : State}

theorem Ok.stickSelf {u : Turn} {t : Thread} {bit : Nat} (h : Ok τ s) : Ok τ (s.stickSelf u t bit) := by
  unfold Machine.State.stickSelf
  split
  · exact h.modThr
  · exact h.send

theorem Ok.endImage {e : EP} {w : Whereabouts} (h : Ok τ s) : Ok τ (endImage s e w) := by
  unfold Machine.endImage
  split
  · exact h
  · extract_lets s1 s2 s3
    have h1 : Ok τ s1 := by
      unfold s1
      split
      · exact h.modCluster
      · exact h.sameStaging
      · exact h
    have h2 : Ok τ s2 := h1.refDec
    have h3 : Ok τ s3 := by
      unfold s3
      split
      · exact h2.refDec
      · exact h2
    exact h3.checkGroup

theorem Ok.trapAt {e : EP} {w : Whereabouts} {t : Thread} {p : Park} {cause info : Nat} (h : Ok τ s) : Ok τ (trapAt s e w t p cause info) :=
  by
  unfold Machine.trapAt
  extract_lets s1
  have h1 : Ok τ s1 := by
    unfold s1
    split
    · exact h.sameMems
    · exact h
  split
  · exact Ok.ite h1.modThr (h1.keep h1.trapNow)
  · exact Ok.ite h1.modWhere.event h1.modWhere

theorem Ok.pushArm {e : EP} {t : Thread} {arg join : Word} {target : CodeAddr} (h : Ok τ s) : Ok τ (pushArm s e t arg join target) :=
  h.sameMems.refInc

theorem Ok.settlePlain {e : EP} {w : Whereabouts} {t : Thread} {p : Park} {a : Answer} {bits : Word} (h : Ok τ s) :
    Ok τ (settlePlain s e w t p a bits) := by
  unfold Machine.settlePlain
  extract_lets resident finish
  have hfinish {s : State} {f : Thread → Thread} (h : Ok τ s) : Ok τ (finish s f) := h.modWhere
  cases a with
  | refused => exact h.trapAt
  | ochre => exact h.trapAt
  | busy => exact Ok.ite h.modWhere h
  | value v f =>
    cases p.why with
    | joinWatch => exact hfinish h
    | fork => exact hfinish h.pushArm
    | exit =>
      cases w with
      | slot => exact h.keep h.exitThread
      | _ => exact h.endImage
    | fullEmpty => exact hfinish h
    | _ => exact hfinish h
  | ack f =>
    cases p.why with
    | fullEmpty => exact hfinish h
    | _ => exact hfinish h
  | _ => exact hfinish h

theorem Ok.settle {req : Req} {a : Answer} (h : Ok τ s) : Ok τ (s.settle req a) := by
  unfold Machine.State.settle
  dsimp only
  split
  · exact h
  · split
    · exact h.send
    · split
      · exact h.modWhere
      · split
        · exact h.modWhere
        · split
          · exact h.modWhere
          · split
            · exact Ok.ite h.settlePlain (Ok.ite h.modWhere h)
            · exact Ok.ite h.modWhere h

theorem Ok.respond {src : EP} {req : Req} {carry : Carry} {here : Bool} {a : Answer} (h : Ok τ s) : Ok τ (s.respond src req carry here a) :=
  Ok.ite h.settle h.answer

theorem Ok.ask {u : Turn} {t : Thread} {dst vc ebit : Nat} {why : Wait} {kind path : Nat} {d : Reg} {operand : Word} {size : Nat}
    {body : Body} (h : Ok τ s) : Ok none (s.ask u t dst vc ebit why kind path d operand size body) := Ok.ite h.waitEver h.upd.send.parkAt

theorem Ok.limitPark {u : Turn} {w : Word} (h : Ok τ s) : Ok τ (s.limitPark u w) := h.modThr

theorem Ok.askRelaxed {u : Turn} {t : Thread} {dst vc ebit : Nat} {isLoad : Bool} {kind path : Nat} {d : Reg} {body : Body} (h : Ok τ s) :
    Ok none (s.askRelaxed u t dst vc ebit isLoad kind path d body) := h.send.retire

end Sys2Proof.Machine
end

section
/-! What the operations of Machine/Owner.lean keep (O59). -/

namespace Sys2Proof.Machine

set_option Elab.async false

variable {τ : Option Turn} {s : State}

theorem Ok.markFrames {e : EP} {a : Nat} (h : Ok τ s) : Ok τ (markFrames s e a) := Ok.ite h h.modCluster

theorem Ok.setGran {e : EP} {a : Nat} {st : GState} (h : Ok τ s) : Ok τ (s.setGran e a st) := Ok.ite h.sameMems.markFrames h.sameMems

theorem Ok.meetErrors {e : EP} {a n : Nat} (h : Ok τ s) : Ok τ (meetErrors s e a n) := by
  unfold Machine.meetErrors
  split
  · exact h
  · refine Ok.foldl h fun s1 _ h1 => ?_
    split
    · exact h1
    · exact Ok.ite h1.sameMems h1.sameMems.setGran.event

theorem Ok.spadWrite {e : EP} {a n v : Nat} (h : Ok τ s) : Ok τ (s.spadWrite e a n v) := h.modKeep fun _ => ⟨mwrite_wf _ _ _, id, id⟩

theorem Ok.spadPut {e : EP} {a : Nat} {bs : List (BitVec 8)} (h : Ok τ s) : Ok τ (s.spadPut e a bs) :=
  h.modKeep fun _ => ⟨mputs_wf _ _, id, id⟩

theorem Ok.answerWatches {e : EP} {w : Nat} (h : Ok τ s) : Ok τ (answerWatches s e w) :=
  Ok.ite h (h.sameMems.foldl fun _ _ h1 => h1.respond)

theorem Ok.answerRange {e : EP} {a n : Nat} (h : Ok τ s) : Ok τ (answerRange s e a n) := Ok.ite h (h.foldl fun _ _ h1 => h1.answerWatches)

theorem Ok.setBlock {e : EP} {a : Nat} {mask : Word} {st : Nat} (h : Ok τ s) : Ok τ (setBlock s e a mask st) :=
  h.foldl fun _ _ h1 => Ok.ite h1.setGran h1

theorem Ok.perform {e : EP} {a : Nat} {acc : Access} {req : Req} {carry : Carry} {here : Bool} (h : Ok τ s) :
    Ok τ (perform s e a acc req carry here).1 := by
  unfold Machine.perform
  extract_lets s1 s2 bad s3
  have h1 : Ok τ s1 := Ok.ite h.abortPlain h
  have h2 : Ok τ s2 := by
    unfold s2
    split
    · exact h1
    · exact h1
    · exact h1
    · exact h1
    · exact Ok.ite h1.meetErrors h1
    · exact Ok.ite h1.meetErrors h1
    · exact h1.meetErrors
  have h3 : Ok τ s3 := h2.sameMems
  split
  · split
    · exact h2
    · exact h2
  · exact h2.spadWrite
  · dsimp only
    split
    · split
      · exact h2
      · exact h2.spadWrite
    · split
      · exact h2
      · exact h2.spadWrite
  · split
    · exact h2
    · exact h2.spadWrite
  · split
    · exact h2.setGran
    · exact h2
  · split
    · exact h2
    · exact h2
  · split
    · exact h2
    · exact h2.spadWrite.setGran
    · exact h2.spadWrite.spadWrite.setGran
  · exact h2.setBlock
  · exact h2
  · split
    · exact h2
    · split
      · exact h2
      · split
        · exact h3.sameMems
        · exact h3

theorem Ok.entryAnswer {e : EP} {x : DtlEntry} {a : Answer} (h : Ok τ s) : Ok τ (entryAnswer s e x a) := h.respond

theorem Ok.dropEntry {e : EP} {k : Nat} (h : Ok τ s) : Ok τ (dropEntry s e k) := h.sameMems

theorem Ok.serve {e : EP} {g n : Nat} (h : Ok τ s) : Ok τ (serve s e g n) := by
  induction n generalizing s with
  | zero => exact h
  | succ n ih =>
    unfold Machine.serve
    dsimp only
    split
    · exact h
    · split
      · exact h
      · split
        · exact ih h.dropEntry.entryAnswer
        · split
          · exact h
          · split
            · next he => exact ih (Ok.ofFst he h.perform).dropEntry.answerRange.entryAnswer
            · next he => exact Ok.ofFst he h.perform

theorem Ok.admitOverflow {e : EP} {n : Nat} (h : Ok τ s) : Ok τ (admitOverflow s e n) := by
  induction n generalizing s with
  | zero => exact h
  | succ n ih =>
    unfold Machine.admitOverflow
    split
    · exact h
    · split
      · exact h
      next x rest _ =>
        have hrest : Ok τ (s.modCore e fun c => { c with overflow := rest }) := h.sameMems
        dsimp only
        split
        · exact ih hrest.entryAnswer
        · split
          · exact ih hrest.sameMems
          · split
            · next he => exact ih (Ok.ofFst he hrest.perform).answerRange.entryAnswer.serve
            · next he => exact ih (Ok.ofFst he hrest.perform).sameMems

theorem Ok.admitAll {e : EP} (h : Ok τ s) : Ok τ (s.admitAll e) := h.admitOverflow

theorem Ok.serveRange {e : EP} {a n : Nat} (h : Ok τ s) : Ok τ (serveRange s e a n) := (Ok.ite h (h.foldl fun _ _ h1 => h1.serve)).admitAll

theorem Ok.enlist {e : EP} {x : DtlEntry} (h : Ok τ s) : Ok τ (enlist s e x) := Ok.ite h.sameMems h.sameMems

theorem Ok.ownerAccess {e : EP} {a : Nat} {acc : Access} {req : Req} {carry : Carry} {here : Bool} (h : Ok τ s) :
    Ok τ (ownerAccess s e a acc req carry here) := by
  unfold Machine.ownerAccess
  split
  · next he =>
      dsimp only
      split
      · exact (((Ok.ofFst he h.perform).answerRange).respond).serveRange
      · exact (((Ok.ofFst he h.perform).answerRange).respond).serveRange
      · exact (((Ok.ofFst he h.perform).answerRange).respond).serveRange
      · exact ((Ok.ofFst he h.perform).answerRange).respond
  · next he =>
      split
      · exact Ok.ofFst he h.perform
      · exact Ok.ite ((Ok.ofFst he h.perform).respond) ((Ok.ofFst he h.perform).enlist)

end Sys2Proof.Machine
end

section
/-! What the operations of Machine/Access.lean keep (O59). -/

namespace Sys2Proof.Machine

set_option Elab.async false

variable {τ : Option Turn} {s : State}

theorem Ok.forfeit {u : Turn} (h : Ok τ s) : Ok none (s.forfeit u) := h.modThr.noTurn

theorem Ok.withBanks {u : Turn} {t : Thread} {body : State → State} (h : Ok τ s) (hbody : ∀ (s' : State), Ok τ s' → Ok none (body s')) :
    Ok none (withBanks s u t body) := Ok.ite h.forfeit (hbody _ h)

theorem Ok.passesWon {u : Turn} {t : Thread} {tried : Nat} (h : Ok τ s) : Ok τ (passesWon s u t tried).2 := by
  unfold Machine.passesWon
  dsimp only
  split
  · split
    · exact h.draw2
    · exact h
  · split
    · exact h.draw2
    · exact h

theorem Ok.regionAccess {u : Turn} {t : Thread} {home : EP} {dram : Bool} {words : List (Nat × Access)} {relaxed : Bool} {path ebit : Nat}
    {d : Reg} {operand : Word} {vec : Option VecFill} {here : Bool} {mpkg : Option (Nat × Bool)} (h : Ok τ s) :
    Ok none (regionAccess s u t home dram words relaxed path ebit d operand vec here mpkg) := by
  unfold Machine.regionAccess
  split
  · exact h.retire
  · exact Ok.ite h.forfeit (Ok.ite h.waitEver (Ok.ite (((Ok.ite h.upd.countOut h.upd).send).retire) (((Ok.ite h.upd.countOut
        h.upd).send).parkAt)))

theorem Ok.localAccess {u : Turn} {t : Thread} {ea : Word} {acc : Access} {d : Reg} (h : Ok τ s) : Ok none (localAccess s u t ea acc d) :=
  by
  unfold Machine.localAccess
  refine Ok.checked h fun _ => ?_
  refine Ok.checked h fun _ => ?_
  split
  · exact h.regionAccess
  · split
    · exact h.waitEver
    · refine Ok.withBanks h fun _ h1 => ?_
      split
      · next he3 => exact (Ok.ofFst he3 h1.perform).retire
      · next he3 => exact ((Ok.ofFst he3 h1.perform).answerRange).retire
      · next he3 => exact (Ok.ofFst he3 h1.perform).raise
      · next he6 => exact (Ok.ofFst he6 h1.perform).retire

theorem Ok.fabricAccess {u : Turn} {t : Thread} {r : Route} {ea : Word} {acc : Access} {relaxed isLoad : Bool} {kind path : Nat} {d : Reg}
    (h : Ok τ s) : Ok none (fabricAccess s u t r ea acc relaxed isLoad kind path d) := Ok.ite h.abortOwn (Ok.ite h.waitEver (Ok.ite
        h.regionAccess (Ok.ite ((Ok.ite h.countOut h).askRelaxed) ((Ok.ite h.countOut h).ask))))

theorem Ok.localAtomic {u : Turn} {t : Thread} {phys : Nat} {ea : Word} {acc : Access} {relaxed isLoad : Bool} {kind path : Nat} {d : Reg}
    (h : Ok τ s) : Ok none (localAtomic s u t phys ea acc relaxed isLoad kind path d) := Ok.ite h.waitEver (Ok.ite h.regionAccess (Ok.ite
        h.askRelaxed h.ask))

theorem Ok.scratchAtomic {u : Turn} {t : Thread} {ea : Word} {acc : Access} {relaxed isLoad : Bool} {kind path : Nat} {d : Reg}
    (h : Ok τ s) : Ok none (scratchAtomic s u t ea acc relaxed isLoad kind path d) := by
  unfold Machine.scratchAtomic
  refine Ok.checked h fun _ => ?_
  refine Ok.checked h fun _ => ?_
  split
  · exact h.localAtomic
  · exact h.fabricAccess

theorem Ok.feAccess {u : Turn} {t : Thread} {ea : Word} {acc : Access} {d : Reg} (h : Ok τ s) : Ok none (feAccess s u t ea acc d) := by
  unfold Machine.feAccess
  refine Ok.checked h fun _ => ?_
  refine Ok.checked h fun _ => ?_
  split
  · exact h.ask
  · exact Ok.ite h.parkAt (Ok.ite h.forfeit (Ok.ite (h.withBanks fun _ h1 => h1.upd.parkAt.ownerAccess) h.upd.parkAt.ownerAccess))

theorem Ok.blockAccess {u : Turn} {t : Thread} {ea : Word} {acc : Access} {d : Reg} (h : Ok τ s) : Ok none (blockAccess s u t ea acc d) :=
  by
  unfold Machine.blockAccess
  dsimp only
  refine Ok.checked h fun _ => ?_
  split
  · exact h.ask
  · split
    · exact h.waitEver
    · split
      · exact h.forfeit
      · split
        · next he3 => exact (Ok.ofFst he3 h.perform).retire
        · next he4 => exact ((Ok.ofFst he4 h.perform).retire).serveRange

end Sys2Proof.Machine
end

section
/-! What the operations of Machine/Migrate.lean keep (O59). -/

namespace Sys2Proof.Machine

set_option Elab.async false

variable {τ : Option Turn} {s : State}

theorem Ok.execGo {gd : Guard} {a : Reg} (h : Ok τ s) : NextOk (execGo gd a s) := by
  unfold Machine.execGo
  refine Ok.issue h fun _ _ _ h1 => ?_
  dsimp only
  refine Ok.checked h1 fun _ => ?_
  refine Ok.withXlate h1 fun _ _ h2 => ?_
  split
  · exact h2.abortOwn
  · split
    · exact h2.raise
    · split
      · exact h2.waitEver
      · split
        · exact Ok.ite h2.retire ((((Ok.ite h2.event h2).send).leaveVisitor).noTurn)
        · exact ((Ok.ite h2.event h2).send).parkAt

theorem Ok.execBack {gd : Guard} (h : Ok τ s) : NextOk (execBack gd s) := by
  unfold Machine.execBack
  refine Ok.issue h fun _ _ _ h1 => ?_
  split
  · exact h1.waitEver
  · split
    · exact h1.raise
    · exact h1.send.leaveVisitor.noTurn

theorem Ok.homeAccess {u : Turn} {t : Thread} {ea : Word} {acc : Access} {rd wr relaxed : Bool} {kind : Nat} {d : Reg} (h : Ok τ s) :
    Ok none (homeAccess s u t ea acc rd wr relaxed kind d) := h.checked fun _ => h.checked fun _ => h.withXlate fun _ _ h1 => Ok.ite
        h1.raise (Ok.ite h1.abortOwn (Ok.ite h1.waitEver (Ok.ite h1.regionAccess (Ok.ite h1.askRelaxed h1.ask))))

theorem Ok.execMld {gd : Guard} {d a : Reg} {sz : BitVec 2} {sgn : Bool} {imm : BitVec 32} (h : Ok τ s) :
    NextOk (execMld gd d a sz sgn imm s) := h.issue fun _ _ _ h1 => h1.homeAccess

theorem Ok.execMst {gd : Guard} {d a : Reg} {sz : BitVec 2} {imm : BitVec 32} (h : Ok τ s) : NextOk (execMst gd d a sz imm s) :=
  h.issue fun _ _ _ h1 => h1.homeAccess

theorem Ok.execMamo {gd : Guard} {d a b c : Reg} {op : BitVec 4} {dbl rlx : Bool} (h : Ok τ s) :
    NextOk (execMamo gd d a b c op dbl rlx s) := h.issue fun _ _ _ h1 => h1.homeAccess

theorem Ok.execRemup {gd : Guard} {a b : Reg} {op : BitVec 4} {dbl : Bool} (h : Ok τ s) : NextOk (execRemup gd a b op dbl s) := by
  unfold Machine.execRemup
  refine Ok.issue h fun _ _ _ h1 => ?_
  dsimp only
  refine Ok.checked h1 fun _ => ?_
  refine Ok.checked h1 fun _ => ?_
  refine Ok.withXlate h1 fun _ _ h2 => ?_
  split
  · exact h2.raise
  · exact Ok.ite h2.waitEver h2.countOut.askRelaxed

end Sys2Proof.Machine
end

section
/-! What the operations of Machine/Engines.lean keep (O59). -/

namespace Sys2Proof.Machine

set_option Elab.async false

variable {τ : Option Turn} {s : State}

theorem Ok.pushGate {u : Turn} {t : Thread} {engine : Nat} {w : List Word} {go : State → State} (h : Ok τ s)
    (hgo : ∀ (s' : State), Ok τ s' → Ok none (go s')) :
    Ok none (pushGate s u t engine w go) := Ok.ite h.waitEver (Ok.ite h.waitEver (hgo _ h))

theorem Ok.newCmd {u : Turn} {t : Thread} {engine : Nat} {w : List Word} {dims : List (Nat × Int × Int)} (h : Ok τ s) :
    Ok τ (newCmd s u t engine w dims) := h.upd

theorem Ok.pushCopyOn {u : Turn} {t : Thread} {a : Reg} {fill dist : Bool} (h : Ok τ s) : Ok none (pushCopyOn s u t a fill dist) := by
  unfold Machine.pushCopyOn
  dsimp only
  refine Ok.checked h fun _ => ?_
  split
  · exact h.checked fun _ => (Ok.ite h.coreXlate h).pushGate fun _ h1 => h1.newCmd.retire
  · exact Ok.ite h.waitEver (h.withBanks fun _ h1 => h1.meetErrors.checked fun _ => (Ok.ite h1.meetErrors.coreXlate h1.meetErrors).pushGate
        fun _ h2 => h2.newCmd.retire)

theorem Ok.execPushCopy {gd : Guard} {a : Reg} {dist : Bool} (h : Ok τ s) : NextOk (execPushCopy gd a dist s) :=
  h.issue fun _ _ _ h1 => h1.pushCopyOn

theorem Ok.execPushFill {gd : Guard} {a : Reg} (h : Ok τ s) : NextOk (execPushFill gd a s) := h.issue fun _ _ _ h1 => h1.pushCopyOn

theorem Ok.execPushCode {gd : Guard} {a : Reg} (h : Ok τ s) : NextOk (execPushCode gd a s) :=
  h.issue fun _ _ _ h1 => h1.checked fun _ => h1.pushGate fun _ h2 => h2.newCmd.retire

theorem Ok.newColl {u : Turn} {t : Thread} {w : List Word} (h : Ok τ s) : Ok τ (newColl s u t w) := h.upd.sameStaging

theorem Ok.execPushColl {gd : Guard} {a : Reg} (h : Ok τ s) : NextOk (execPushColl gd a s) :=
  h.issue fun _ _ _ h1 => h1.checked fun _ => h1.pushGate fun _ h2 => Ok.ite h2.newColl.retire h2.retire

theorem Ok.execPushProgram {gd : Guard} {a b : Reg} (h : Ok τ s) : NextOk (execPushProgram gd a b s) := by
  unfold Machine.execPushProgram
  refine Ok.issue h fun _ _ _ h1 => ?_
  dsimp only
  refine Ok.checked h1 fun _ => ?_
  refine Ok.withXlate h1 fun _ _ h2 => ?_
  split
  · exact h2.raise
  · exact Ok.ite h2.waitEver h2.send.retire

theorem Ok.execPopcRec {gd : Guard} {d a : Reg} (h : Ok τ s) : NextOk (execPopcRec gd d a s) := by
  unfold Machine.execPopcRec
  refine Ok.issue h fun _ _ _ h1 => ?_
  split
  · exact h1.retire
  · exact h1.waitFor

end Sys2Proof.Machine
end

section
/-! What the operations of Machine/Lines.lean keep (O59). -/

namespace Sys2Proof.Machine

set_option Elab.async false

variable {τ : Option Turn} {s : State}

theorem Ok.dropPkt {k : Nat} (h : Ok τ s) : Ok τ (s.dropPkt k) := h.upd

theorem Ok.reapProxy {pkg h : Nat} (hs : Ok τ s) : Ok τ (reapProxy s pkg h) := by
  unfold Machine.reapProxy
  split
  · exact Ok.ite hs.endProxy hs
  · exact hs

theorem Ok.noteReplies {s s' : State} {p : Pkt} (h : Ok τ s') : Ok τ (s.noteReplies s' p) := by
  unfold Machine.State.noteReplies
  split
  · exact h
  · exact Ok.ite h.upd h

theorem Ok.onPacket {k : Nat} {f : Pkt → State} (h : Ok τ s) (hf : ∀ (x0 : Pkt), Ok τ (f x0)) : Ok τ (onPacket s k f) := by
  unfold Machine.onPacket
  split
  · exact ((hf _).noteReplies).reapProxy
  · exact h

theorem Ok.takePkt {k : Nat} {e : EP} {p : Pkt} (h : Ok τ s) : Ok τ (takePkt s k e p) := Ok.ite h.dropPkt.countIn h.dropPkt

theorem Ok.putLine {e : EP} {pa : Nat} {bs : List (BitVec 8)} (h : Ok τ s) : Ok τ (putLine s e pa bs) := h.modLine

theorem Ok.lineApply {e : EP} {pa : Nat} {acc : Access} {ebit : Nat} (h : Ok τ s) : Ok τ (lineApply s e pa acc ebit).1 := by
  unfold Machine.lineApply
  extract_lets s1
  have h1 : Ok τ s1 := by
    unfold s1
    split
    · exact h
    · exact h.meetLineErrors
  dsimp only
  split
  · exact h1
  · split
    · exact h1
    · split
      · exact h1
      · exact h1.putLine
      · exact h1.putLine
      · exact h1

theorem Ok.mirrorTell {src : EP} {req : Req} {carry : Carry} {fin : MirrorEnd} (h : Ok τ s) : Ok τ (mirrorTell s src req carry fin) := by
  unfold Machine.mirrorTell
  split
  · exact h.respond
  · exact h.send
  · exact h.sendRegion

theorem Ok.mirrorTellLost {src : EP} {req : Req} {carry : Carry} {fin : MirrorEnd} {lost other : Nat} (h : Ok τ s) :
    Ok τ (mirrorTellLost s src req carry fin lost other) := by
  unfold Machine.mirrorTellLost
  split
  · exact h.respond
  · exact h.answer.send
  · exact h.answer.sendRegion

theorem Ok.mirrorOchre {src : EP} {req : Req} {carry : Carry} {fin : MirrorEnd} (h : Ok τ s) : Ok τ (mirrorOchre s src req carry fin) := by
  unfold Machine.mirrorOchre
  dsimp only
  split
  · exact h.respond
  · exact h.answer.send
  · exact h.answer.sendRegion

theorem Ok.mirrorOn {e : EP} {pa : Nat} {data : List (BitVec 8)} {mpkg : Option Nat} {mir : Bool} {vc : Nat} {req : Req} {carry : Carry}
    {fin : MirrorEnd} (h : Ok τ s) : Ok τ (mirrorOn s e pa data mpkg mir vc req carry fin) := by
  unfold Machine.mirrorOn
  split
  · exact h.mirrorTell
  · exact Ok.ite h.mirrorTellLost (Ok.ite h.mirrorTellLost h.send)

theorem Ok.lapseDrop {e : EP} {p : Pkt} {stores : Nat} (h : Ok τ s) : Ok τ (lapseDrop s e p stores) := h.reportItem

theorem Ok.execLineBufferAccess {k : Nat} (h : Ok none s) : NextOk (execLineBufferAccess k s) := by
  unfold Machine.execLineBufferAccess
  refine NextOk.next (h.onPacket fun p => ?_)
  split
  · refine Ok.ite h.takePkt.lapseDrop (Ok.ite h.takePkt.answer (h.atPort fun s1 h1 => Ok.ite h1.offPort ?_))
    extract_lets s2 s3 reads s4
    have h3 : Ok none s3 := Ok.ite h1.takePkt.abortPlain h1.takePkt
    have h4 : Ok none s4 := by
      unfold s4
      split
      · exact Ok.ite h3.event h3
      · exact h3
    split
    · next he => exact (Ok.ofFst he h4.lineApply).respond
    · next he => exact Ok.ite (Ok.ofFst he h4.lineApply).mirrorOn (Ok.ofFst he h4.lineApply).respond
  · exact h

theorem Ok.execLineFillComplete {e k : Nat} (h : Ok none s) : NextOk (execLineFillComplete e k s) := by
  unfold Machine.execLineFillComplete
  refine NextOk.next ?_
  split
  · exact h
  · exact Ok.ite h (Ok.ite h.modLine (Ok.ite h.makeOchre h.countFixed.modLine))

theorem Ok.execVictimWriteback {e k : Nat} {ok markOk : Bool} (h : Ok none s) : NextOk (execVictimWriteback e k ok markOk s) := by
  unfold Machine.execVictimWriteback
  refine NextOk.next ?_
  split
  · exact h
  · exact Ok.ite h (Ok.ite h.meetLineErrors.modBuf (Ok.ite h.meetLineErrors.storeLine.modBuf (Ok.ite
        h.meetLineErrors.event.modBuf.storeMarker h.meetLineErrors.event.modBuf.sameMems.event)))

theorem Ok.execPatrolScrubRead {e line : Nat} (h : Ok none s) : NextOk (execPatrolScrubRead e line s) :=
  NextOk.next (Ok.ite h (Ok.ite h (Ok.ite h.sameMems h.sameMems.enterRead)))

theorem Ok.putParts {e : EP} {pa : Nat} {bs : List (BitVec 8)} (h : Ok τ s) : Ok τ (putParts s e pa bs) := by
  unfold Machine.putParts
  refine Ok.foldl h fun s1 _ h1 => ?_
  split
  · split
    · exact Ok.ite h1 h1.putLine
    · exact h1

theorem Ok.execMirrorWriteApply {k : Nat} (h : Ok none s) : NextOk (execMirrorWriteApply k s) := by
  unfold Machine.execMirrorWriteApply
  refine NextOk.next (Ok.onPacket h fun _ => ?_)
  split
  · exact Ok.ite h.dropPkt.mirrorTellLost (h.atPort fun _ h1 => Ok.ite h1.offPort (Ok.ite h1.abortPlain.dropPkt.mirrorOchre
        h1.abortPlain.dropPkt.putParts.mirrorTell))
  · exact h

theorem Ok.declareLost {own pkg : Nat} (h : Ok τ s) : Ok τ (declareLost s own pkg) := Ok.ite h h.sameStaging.event

end Sys2Proof.Machine
end

section
/-! What the operations of Machine/Matrix.lean keep (O59). -/

namespace Sys2Proof.Machine

set_option Elab.async false

variable {τ : Option Turn} {s : State}

theorem Ok.addJob {u : Turn} {t : Thread} {op : TileOp} (h : Ok τ s) : Ok τ (addJob s u t op) := h.sameMems

theorem Ok.execOclaim {gd : Guard} {d : Reg} (h : Ok τ s) : NextOk (execOclaim gd d s) := by
  unfold Machine.execOclaim
  refine Ok.issue h fun _ _ _ h1 => ?_
  dsimp only
  split
  · exact h1.retire
  · exact (h1.opmemChange fun _ => mclear_wf _ _).retire

theorem Ok.execOrel {gd : Guard} {a : Reg} (h : Ok τ s) : NextOk (execOrel gd a s) :=
  h.issue fun _ _ _ h1 => h1.checked fun _ => Ok.ite h1.raise (Ok.ite h1.waitEver h1.sameMems.retire)

theorem Ok.execOld {gd : Guard} {a b c : Reg} {ty : Ty} {layB : Bool} (h : Ok τ s) : NextOk (execOld gd a b c ty layB s) := by
  unfold Machine.execOld
  refine Ok.issue h fun _ _ _ h1 => ?_
  dsimp only
  split
  · exact h1.raise
  · refine Ok.checked h1 fun _ => ?_
    split
    · exact h1.raise
    · exact h1.checked fun _ => Ok.ite h1.waitEver h1.addJob.retire

theorem Ok.meetRows {e : EP} {phys stride row : Nat} (h : Ok τ s) : Ok τ (meetRows s e phys stride row) :=
  h.foldl fun _ _ h1 => h1.meetErrors

theorem Ok.execMma {gd : Guard} {a b c : Reg} {zf sc : Bool} {k : BitVec 9} (h : Ok τ s) : NextOk (execMma gd a b c zf sc k s) := by
  unfold Machine.execMma
  refine Ok.issue h fun _ _ _ h1 => ?_
  dsimp only
  refine Ok.checked h1 fun _ => ?_
  refine Ok.checked h1 fun _ => ?_
  refine Ok.checked h1 fun _ => ?_
  split
  · split
    · exact h1.raise
    · exact Ok.ite h1.raise (Ok.ite h1.raise (Ok.ite h1.raise (Ok.ite (h1.checked fun _ => h1.addJob.parkAt) h1.addJob.parkAt)))
  · exact h1.raise

theorem Ok.tileTransfer {u : Turn} {t : Thread} {a b c : Reg} {ty : Ty} {write : Bool} (h : Ok τ s) :
    Ok none (tileTransfer s u t a b c ty write) := by
  unfold Machine.tileTransfer
  split
  · refine Ok.checked h fun _ => ?_
    split
    · exact h.raise
    · split
      · exact h.raise
      · exact h.checked fun _ => Ok.ite h.waitEver (Ok.ite h.raise h.addJob.retire)

theorem Ok.execArd {gd : Guard} {a b c : Reg} {ty : Ty} (h : Ok τ s) : NextOk (execArd gd a b c ty s) :=
  h.issue fun _ _ _ h1 => h1.tileTransfer

theorem Ok.execAwr {gd : Guard} {a b c : Reg} {ty : Ty} (h : Ok τ s) : NextOk (execAwr gd a b c ty s) :=
  h.issue fun _ _ _ h1 => h1.tileTransfer

theorem Ok.modTile {e : EP} {n : Nat} {f : Tile → Tile} (h : Ok τ s) : Ok τ (s.modTile e n f) := h.sameMems

theorem Ok.applyAclr {e : EP} {n : Nat} {kind : TileKind} (h : Ok τ s) : Ok τ (applyAclr s e n kind) :=
  h.modTile.accChange fun _ => mclear_wf _ _

theorem Ok.execAclr {gd : Guard} {a : Reg} {kind : BitVec 2} (h : Ok τ s) : NextOk (execAclr gd a kind s) :=
  h.issue fun _ _ _ h1 => h1.checked fun _ => Ok.ite h1.waitEver (Ok.ite h1.addJob.parkAt h1.applyAclr.retire)

theorem Ok.execMstat {gd : Guard} {d a : Reg} (h : Ok τ s) : NextOk (execMstat gd d a s) :=
  h.issue fun _ _ _ h1 => h1.checked fun _ => h1.retire

theorem Ok.execTbld {gd : Guard} {a : Reg} (h : Ok τ s) : NextOk (execTbld gd a s) :=
  h.issue fun _ _ _ h1 => Ok.ite h1.raise (Ok.ite h1.waitEver h1.sameMems.retire)

theorem Ok.dropJob {e : EP} {k : Nat} (h : Ok τ s) : Ok τ (dropJob s e k) := h.sameMems

theorem Ok.modIssuer {e : EP} {uid : Nat} {f : Thread → Thread} (h : Ok τ s) : Ok τ (s.modIssuer e uid f) := by
  unfold Machine.State.modIssuer
  split
  · split
    · exact h.modThr
    · exact h
  · exact h.modWhere

theorem Ok.endWait {e : EP} {uid : Nat} {f : Thread → Thread} (h : Ok τ s) : Ok τ (endWait s e uid f) := by
  unfold Machine.endWait
  dsimp only
  split
  · split
    · exact Ok.ite h.modThr h
    · exact h
  · exact h.modWhere

theorem Ok.mendPart {e : EP} {x : Broken} (h : Ok τ s) : Ok τ (mendPart s e x) := h.sameMems

theorem Ok.ardBroken {e : EP} {tile uid : Nat} (h : Ok τ s) : Ok τ (ardBroken s e tile uid) := by
  unfold Machine.ardBroken
  split
  · next he =>
      split
      · exact Ok.ite ((Ok.ofSnd he h.mendPart.draw2).keep ((Ok.ofSnd he h.mendPart.draw2).consume)) (Ok.ofSnd he h.mendPart.draw2)
      · exact (Ok.ofSnd he h.mendPart.draw2).sameMems
      · exact Ok.ofSnd he h.mendPart.draw2

theorem Ok.execOldComplete {e : Nat} (h : Ok none s) : NextOk (execOldComplete e s) := by
  unfold Machine.execOldComplete
  refine NextOk.next ?_
  split
  · split
    · split
      · exact h
      · refine (Ok.mendPart (Ok.opmemChange h.meetRows fun c hc => ?_)).dropJob.modIssuer
        dsimp only
        exact mputs_wf _ _ hc
    · exact h
  · exact h

theorem Ok.ardRows {e : EP} {tile phys stride w i n : Nat} {x : Bool} (h : Ok τ s) : Ok τ (ardRows s e tile phys stride w x i n).2 := by
  induction n generalizing s i with
  | zero => exact h
  | succ n ih =>
    unfold Machine.ardRows
    dsimp only
    split
    · exact ih (h.foldl fun _ _ h1 => h1.sameMems)
    · exact h

theorem Ok.execArdComplete {e : Nat} (h : Ok none s) : NextOk (execArdComplete e s) := by
  unfold Machine.execArdComplete
  refine NextOk.next ?_
  split
  · split
    · exact Ok.ite h.dropJob.ardBroken.modIssuer (Ok.ite h.ardRows.dropJob.modIssuer h.ardRows.sameMems)
    · exact h
  · exact h

theorem Ok.execAwrComplete {e : Nat} (h : Ok none s) : NextOk (execAwrComplete e s) := by
  unfold Machine.execAwrComplete
  refine NextOk.next ?_
  split
  · split
    · split
      · exact h
      · refine (Ok.mendPart (Ok.accChange h.meetRows.modTile fun c hc => ?_)).dropJob.modIssuer
        dsimp only
        exact mputs_wf _ _ hc
    · exact h
  · exact h

theorem Ok.tileStep {e : EP} {tile a b : Nat} {ta tb : Ty} {sc : Bool} {ssa ssb k0 k1 : Nat} (h : Ok τ s) :
    Ok τ (tileStep s e tile a b ta tb sc ssa ssb k0 k1).1 := by
  unfold Machine.tileStep
  refine h.accChange fun c hc => ?_
  dsimp only
  exact mputs_wf _ _ hc

theorem Ok.execMmaStart {e : Nat} (h : Ok none s) : NextOk (execMmaStart e s) := by
  unfold Machine.execMmaStart
  refine NextOk.next ?_
  split
  · split
    · exact h
    · split
      · dsimp only
        split
        · split
          · split
            · exact h.dropJob.trapAt
            · exact h.dropJob
          · exact h.dropJob
        · split
          · split
            · split
              · split
                · exact ((h.dropJob.foldl fun _ _ h1 => h1.mendPart).draw2).trapAt
                · exact (h.dropJob.foldl fun _ _ h1 => h1.mendPart).draw2
              · exact (h.dropJob.foldl fun _ _ h1 => h1.mendPart).draw2
            · exact Ok.ite ((((Ok.ite (h.accChange fun _ => mclear_wf _ _) h).modTile).dropJob).endWait) (((Ok.ite (h.accChange fun _
                  => mclear_wf _ _) h).modTile).sameMems)
          · split
            · split
              · split
                · exact ((h.dropJob.foldl fun _ _ h1 => h1.mendPart).draw2).trapAt
                · exact (h.dropJob.foldl fun _ _ h1 => h1.mendPart).draw2
              · exact (h.dropJob.foldl fun _ _ h1 => h1.mendPart).draw2
            · exact Ok.ite ((((Ok.ite (h.accChange fun _ => mclear_wf _ _) h).modTile).dropJob).endWait) (((Ok.ite (h.accChange fun _
                  => mclear_wf _ _) h).modTile).sameMems)
      · exact h
  · exact h

theorem Ok.execMmaKStep {e : Nat} (h : Ok none s) : NextOk (execMmaKStep e s) := by
  unfold Machine.execMmaKStep
  refine NextOk.next ?_
  split
  · split
    · exact h
    · split
      · exact Ok.ite h (Ok.ite ((((((Ok.ite h.meetRows.meetRows h).tileStep).modTile).dropJob).modTile).modIssuer) (Ok.ite ((((((Ok.ite
            h.meetRows.meetRows h).tileStep).modTile).dropJob).modTile).endWait) ((((Ok.ite h.meetRows.meetRows
                h).tileStep).modTile).sameMems)))
      · exact h
  · exact h

theorem Ok.execAclrApply {e k : Nat} (h : Ok none s) : NextOk (execAclrApply e k s) := by
  unfold Machine.execAclrApply
  refine NextOk.next ?_
  split
  · split
    · exact Ok.ite h.applyAclr.dropJob.endWait h
    · exact h
  · exact h

theorem Ok.clearOchre {e : EP} {a n : Nat} (h : Ok τ s) : Ok τ (clearOchre s e a n) := h.foldl fun _ _ h1 => Ok.ite h1.setGran h1

theorem Ok.execTileWriteQueueWrite {e : Nat} (h : Ok none s) : NextOk (execTileWriteQueueWrite e s) := by
  unfold Machine.execTileWriteQueueWrite
  refine NextOk.next ?_
  split
  · exact Ok.ite h h.sameMems.abortPlain.spadPut.clearOchre.answerRange.serveRange
  · exact h

end Sys2Proof.Machine
end

section
/-! What the operations of Machine/Copy.lean keep (O59). -/

namespace Sys2Proof.Machine

set_option Elab.async false

variable {τ : Option Turn} {s : State}

theorem Ok.unmarkWalks {dk id : Nat} (h : Ok τ s) : Ok τ (unmarkWalks s dk id) := h.modDie

theorem Ok.engineXlate {c : Cmd} {va : Nat} (h : Ok τ s) : Ok τ (engineXlate s c va).2 := by
  unfold Machine.engineXlate
  extract_lets dk ctx cl own look
  have hown {x : TlbEntry} {s' : State} (he : own = some (x, s')) : Ok τ s' := by
    unfold own at he
    split at he
    · exact Ok.optMapSnd he fun _ => h.sameMems
    · cases he
  have hlook {x : TlbEntry} {s' : State} (he : look = some (x, s')) : Ok τ s' := by
    unfold look at he
    split at he
    · exact Ok.optMapSnd he fun _ => h.modDie
    · rcases Option.or_eq_some_iff.1 he with he | ⟨-, he⟩
      · exact hown he
      · split at he
        · cases he
        · exact Ok.optMapSnd he fun _ => h.modCluster
  rcases hl : look with _ | ⟨x, s'⟩
  · dsimp only
    split
    · exact h.unmarkWalks
    · exact h.startWalk
  · exact hlook hl

theorem Ok.dramLoc {c : Cmd} {va : Int} {write mirr : Bool} (h : Ok τ s) : Ok τ (dramLoc s c va write mirr).2 := by
  unfold Machine.dramLoc
  dsimp only
  split
  · exact h
  · split
    · next he2 => exact Ok.ofSnd he2 h.engineXlate
    · next he2 => exact Ok.ofSnd he2 h.engineXlate
    · next he2 =>
        split
        · exact Ok.ofSnd he2 h.engineXlate
        · split
          · exact Ok.ofSnd he2 h.engineXlate
          · split
            · exact Ok.ofSnd he2 h.engineXlate
            · exact Ok.ofSnd he2 h.engineXlate

theorem Ok.srcLoc {c : Cmd} {x len : Nat} (h : Ok τ s) : Ok τ (srcLoc s c x len).2 := by
  unfold Machine.srcLoc
  dsimp only
  split
  · split
    · exact h
    · exact h
  · split
    · exact h
    · exact h
    · exact h.dramLoc

theorem Ok.dstLocs {c : Cmd} {x len : Nat} (h : Ok τ s) : Ok τ (dstLocs s c x len).2 := by
  unfold Machine.dstLocs
  dsimp only
  split
  · exact h
  · split
    · exact h
    · exact h
    · exact h.dramLoc
    · exact h

theorem Ok.modCmd {id : Nat} {f : Cmd → Cmd} (h : Ok τ s) : Ok τ (s.modCmd id f) := h.upd

theorem Ok.stickNotice {src : EP} {req : Req} {carry : Carry} {bit : Option Nat} (h : Ok τ s) : Ok τ (stickNotice s src req carry bit) := by
  unfold Machine.stickNotice
  split
  · exact h.answer
  · exact h

theorem Ok.sendNotice {c : Cmd} (h : Ok τ s) : Ok τ (sendNotice s c) := by
  unfold Machine.sendNotice
  dsimp only
  split
  · exact h.send
  · split
    · exact h.send
    · exact h.stickNotice
    · exact h.stickNotice
    · exact h

theorem Ok.completeCmd {c : Cmd} (h : Ok τ s) :
    Ok τ (completeCmd s c) := Ok.ite (Ok.ite h.upd.unmarkWalks.sameMems.event h.upd.unmarkWalks.sameMems) (Ok.ite
        h.upd.unmarkWalks.modIssuer.sendNotice h.upd.unmarkWalks.modIssuer)

theorem Ok.tryFinish {id : Nat} (h : Ok τ s) : Ok τ (tryFinish s id) := by
  unfold Machine.tryFinish
  split
  · exact Ok.ite h.completeCmd h
  · exact h

theorem Ok.startLanding {c : Cmd} (h : Ok τ s) : Ok τ (startLanding s c) := Ok.ite h.sameMems h

theorem Ok.sendPiece {c : Cmd} {x len : Nat} {dsts : List Found} {src : Option Found} (h : Ok τ s) : Ok τ (sendPiece s c x len dsts src) :=
  by
  unfold Machine.sendPiece
  dsimp only
  split
  · refine Ok.modCmd (Ok.foldl ?_ fun _ _ h1 => h1.send)
    refine Ok.modCmd (Ok.foldl h fun s1 a h1 => ?_)
    split
    · exact h1.stickNotice
    · exact h1.stickNotice
    · exact h1
  · split
    · refine Ok.modCmd (Ok.foldl h fun s1 a h1 => ?_)
      split
      · exact h1.stickNotice
      · exact h1.stickNotice
      · exact h1
    · refine Ok.modCmd (Ok.send (Ok.modCmd (Ok.foldl h fun s1 a h1 => ?_)))
      split
      · exact h1.stickNotice
      · exact h1.stickNotice
      · exact h1
  · refine Ok.modCmd (Ok.foldl ?_ fun _ _ h1 => Ok.ite h1 h1.send)
    refine Ok.stickNotice (Ok.modCmd (Ok.foldl h fun s1 a h1 => ?_))
    split
    · exact h1.stickNotice
    · exact h1.stickNotice
    · exact h1
  · refine Ok.modCmd (Ok.stickNotice (Ok.modCmd (Ok.foldl h fun s1 a h1 => ?_)))
    split
    · exact h1.stickNotice
    · exact h1.stickNotice
    · exact h1
  · refine Ok.modCmd (Ok.foldl h fun s1 _ h1 => ?_)
    split
    · exact h1.stickNotice
    · exact h1.stickNotice
    · exact h1

theorem Ok.execCopyPieceDispatch {k : Nat} (h : Ok none s) : NextOk (execCopyPieceDispatch k s) := by
  unfold Machine.execCopyPieceDispatch
  refine NextOk.next ?_
  split
  · exact h
  · split
    · exact h.tryFinish
    · split
      · exact h.reportItem.modCmd.tryFinish
      · split
        · split
          · exact h
          · dsimp only
            split
            · next he6 => exact ((Ok.ofSnd he6 h.srcLoc).send).modCmd
            · next he6 => exact ((Ok.ofSnd he6 h.srcLoc).stickNotice).modCmd
            · next he6 => exact ((Ok.ofSnd he6 h.srcLoc).stickNotice).modCmd
            · next he6 => exact Ok.ofSnd he6 h.srcLoc
        · dsimp only
          split
          · next he5 => exact ((Ok.ofSnd he5 h.startLanding.dstLocs).modCmd).tryFinish
          · next he5 =>
              split
              · exact Ok.ofSnd he5 h.startLanding.dstLocs
              · split
                · exact Ok.ite (Ok.ofSnd he5 h.startLanding.dstLocs) (((Ok.ite ((Ok.ofSnd he5 h.startLanding.dstLocs).modCmd) (Ok.ofSnd he5
                      h.startLanding.dstLocs)).sendPiece).tryFinish)
                · exact Ok.ite ((Ok.ofSnd he5 h.startLanding.dstLocs).srcLoc) (((Ok.ite (((Ok.ofSnd he5
                      h.startLanding.dstLocs).srcLoc).modCmd) ((Ok.ofSnd he5 h.startLanding.dstLocs).srcLoc)).sendPiece).tryFinish)

theorem Ok.tellRanks {pkg : Nat} {c : Coll} {ranks : List Nat} {rank : Nat} {lapse : Bool} (h : Ok τ s) :
    Ok τ (tellRanks s pkg c ranks rank lapse) := by
  unfold Machine.tellRanks
  refine Ok.foldl h fun s1 _ h1 => ?_
  split
  · exact h1.send
  · exact h1

theorem Ok.modColl {pkg id : Nat} {f : Coll → Coll} (h : Ok τ s) : Ok τ (modColl s pkg id f) := h.sameStaging

theorem Ok.tellParticipants {pkg : Nat} {c : Coll} {rank : Nat} {lapse : Bool} (h : Ok τ s) : Ok τ (tellParticipants s pkg c rank lapse) :=
  h.tellRanks

theorem Ok.dropEarly {pkg : Nat} {c : Coll} (h : Ok τ s) : Ok τ (dropEarly s pkg c) := h.sameStaging

theorem Ok.stopColl {pkg : Nat} {c : Coll} {rank : Nat} {lapse : Bool} (h : Ok τ s) : Ok τ (stopColl s pkg c rank lapse) := by
  unfold Machine.stopColl
  split
  · exact h
  · dsimp only
    split
    · refine Ok.mapCores h.modColl.dropEarly fun _ => ⟨id, id, id⟩
    · split
      · refine Ok.modIssuer (Ok.mapCores h.modColl.dropEarly fun _ => ⟨id, id, id⟩)
      · refine Ok.mapCores h.modColl.dropEarly fun _ => ⟨id, id, id⟩

theorem Ok.failColl {pkg : Nat} {c : Coll} {rank : Nat} {lapse : Bool} (h : Ok τ s) : Ok τ (failColl s pkg c rank lapse) :=
  Ok.ite h h.tellParticipants.stopColl

theorem Ok.reportPiece {pkg id len : Nat} {e : PieceEnd} (h : Ok τ s) : Ok τ (reportPiece s pkg id len e) := by
  unfold Machine.reportPiece
  split
  · exact h.modCmd.tryFinish
  · extract_lets s1
    have h1 : Ok τ s1 := by
      unfold s1
      split
      · exact h.failColl
      · exact h
    exact h1.modColl

theorem Ok.execPieceReport {k : Nat} (h : Ok none s) : NextOk (execPieceReport k s) := by
  unfold Machine.execPieceReport
  refine NextOk.next (Ok.onPacket h fun _ => ?_)
  split
  · exact ((Ok.ite h.lapseDrop h).dropPkt).reportPiece
  · exact h

theorem Ok.tellEngine {src engine : EP} {p : Pkt} {id len n : Nat} {e : PieceEnd} (h : Ok τ s) :
    Ok τ (tellEngine s src engine p id len n e) := h.foldl fun _ _ h1 => h1.send

theorem Ok.ownerRead {e : EP} {ctx : Ctx} {ticket : Nat} {src : PieceLoc} {n : Nat} (h : Ok τ s) :
    Ok τ (ownerRead s e ctx ticket src n).2 := by
  unfold Machine.ownerRead
  split
  · split
    · next he2 => exact Ok.ofSnd he2 h.needLines
    · next he2 =>
        split
        · exact Ok.ofSnd he2 h.needLines
        · dsimp only
          split
          · exact (Ok.ofSnd he2 h.needLines).foldl fun _ _ h1 => h1.meetLineErrors
          · exact (Ok.ofSnd he2 h.needLines).foldl fun _ _ h1 => h1.meetLineErrors
  · split
    · exact h
    · split
      · exact h
      · dsimp only
        split
        · exact h.meetErrors
        · exact h.meetErrors

theorem Ok.toRecipient {e : EP} {p : Pkt} {id len : Nat} {need : List Nat} {engine : EP} {data : Option (List (BitVec 8))} {d : PieceLoc}
    (h : Ok τ s) : Ok τ (toRecipient s e p id len need engine data d) := by
  unfold Machine.toRecipient
  dsimp only
  split
  · exact h.send
  · split
    · exact h.send
    · exact Ok.ite h h.stickNotice.tellEngine

theorem Ok.logFailover {e : EP} {p : Pkt} {src : PieceLoc} (h : Ok τ s) : Ok τ (logFailover s e p src) := by
  unfold Machine.logFailover
  split
  · exact Ok.ite h.event h
  · exact h

theorem Ok.execPieceAtOwner {k : Nat} (h : Ok none s) : NextOk (execPieceAtOwner k s) := by
  unfold Machine.execPieceAtOwner
  refine NextOk.next (h.onPacket fun p => ?_)
  split
  · next id src len dsts need engine _ =>
    dsimp only
    have hread : Ok none (if closedAt s p.dst || wrongChannel s p.dst p then (SrcRead.refused, s)
        else Machine.ownerRead s p.dst p.req.ctx p.ticket src len).2 := Ok.iteSnd h h.ownerRead
    refine Ok.ite h (Ok.ite h.dropPkt.lapseDrop.tellEngine ?_)
    split
    · next he => exact (Ok.ofSnd he hread).offPort
    · next he => exact (Ok.ofSnd he hread).heldAtPort
    · next he => exact (Ok.ofSnd he hread).dropPkt.stickNotice.tellEngine
    · next he =>
      have hsent := ((Ok.ofSnd he hread).dropPkt (k := k)).foldl (l := dsts)
        (f := fun s d => if d.dram then s else Machine.toRecipient s p.dst p id len need engine none d) fun _ _ h1 => Ok.ite h1
            h1.toRecipient
      exact hsent.stickNotice.tellEngine
    · next he => exact (Ok.ofSnd he hread).dropPkt.logFailover.foldl fun _ _ h1 => h1.toRecipient
  · exact h

theorem Ok.patternIn {id : Nat} {data : Option (List (BitVec 8))} {annulled : Bool} (h : Ok τ s) : Ok τ (patternIn s id data annulled) := by
  unfold Machine.patternIn
  split
  · exact h
  · exact ((Ok.ite h.reportItem h).modCmd).tryFinish

theorem Ok.execFillPatternRead {k : Nat} (h : Ok none s) : NextOk (execFillPatternRead k s) := by
  unfold Machine.execFillPatternRead
  refine NextOk.next (h.onPacket fun p => ?_)
  split
  · next id src len engine _ =>
    dsimp only
    have hread : Ok none (if closedAt s p.dst || wrongChannel s p.dst p then (SrcRead.refused, s)
        else Machine.ownerRead s p.dst p.req.ctx p.ticket src len).2 := Ok.iteSnd h h.ownerRead
    refine Ok.ite h (Ok.ite h.dropPkt.lapseDrop.send ?_)
    split
    · next he => exact (Ok.ofSnd he hread).offPort
    · next he => exact (Ok.ofSnd he hread).heldAtPort
    · next he => exact (Ok.ofSnd he hread).dropPkt.logFailover.send
    · next he => exact (Ok.ofSnd he hread).dropPkt.stickNotice.send
  · exact Ok.ite h.dropPkt.lapseDrop.patternIn h.dropPkt.patternIn
  · exact h

theorem Ok.enqueueDest {e : EP} {a : Nat} {data : List (BitVec 8)} {need : List Nat} {err : Bool} {id : Nat} (h : Ok τ s) :
    Ok τ (enqueueDest s e a data need err id) := h.sameMems

theorem Ok.addFill {e : EP} {id key mask : Nat} (h : Ok τ s) : Ok τ (addFill s e id key mask).2 := h.sameMems

theorem Ok.dropFill {e : EP} {id key : Nat} (h : Ok τ s) : Ok τ (dropFill s e id key) := h.sameMems

theorem Ok.joinTile {k : Nat} {p : Pkt} {n : Nat} (h : Ok τ s) : Ok τ (s.joinTile k p n) := Ok.ite h h.nextTicket.modPkt.sameMems

theorem Ok.leaveTile {p : Pkt} (h : Ok τ s) : Ok τ (s.leaveTile p) := Ok.ite h h.sameMems

theorem Ok.operandWrite {s' : State} {e : EP} {ctx : Ctx} {id a ticket : Nat} {data : Option (List (BitVec 8))} {need : List Nat} {b : Bool}
    (h : Ok τ s) (he : operandWrite s e ctx id a ticket data need = some (b, s')) : Ok τ s' := by
  unfold Machine.operandWrite at he
  dsimp only at he
  split at he
  · cases he
    exact h
  · split at he
    · cases he
      exact h
    · split at he
      · cases he
      · split at he
        · cases he
          exact h.sameMems
        · next bs =>
          have hfill := h.addFill (e := e) (id := id) (key := 2 ^ 20 + (a / 8192 - 192)) (mask := ones bs.length * 2 ^ (a % 8192))
          cases he
          refine Ok.opmemChange (Ok.ite hfill.dropFill hfill) fun c hc => ?_
          dsimp only
          exact mputs_wf _ _ hc

theorem Ok.dramPiece {e : EP} {p : Pkt} {k id len : Nat} {dst : PieceLoc} {bs : List (BitVec 8)} {engine : EP} (h : Ok τ s) :
    Ok τ (dramPiece s e p k id len dst bs engine) := h.atPort fun _ h1 => Ok.ite h1.offPort (Ok.ite h1.dropPkt.stickNotice.tellEngine
        h1.dropPkt.abortPlain.putParts.mirrorOn)

theorem Ok.execPieceAtRecipient {k : Nat} (h : Ok none s) : NextOk (execPieceAtRecipient k s) := by
  unfold Machine.execPieceAtRecipient
  refine NextOk.next (Ok.onPacket h fun _ => ?_)
  split
  · dsimp only
    split
    · exact h
    · split
      · exact h
      · split
        · exact Ok.ite h.leaveTile.dropPkt h.leaveTile.dropPkt.lapseDrop.tellEngine
        · split
          · exact Ok.ite h.leaveTile.dropPkt h.leaveTile.dropPkt.stickNotice.tellEngine
          · split
            · split
              · exact h.dramPiece
              · exact h.dropPkt
            · split
              · split
                · exact h.joinTile
                · next he8 => exact Ok.ite (((h.operandWrite he8).leaveTile).dropPkt) (((((h.operandWrite
                      he8).leaveTile).dropPkt).stickNotice).tellEngine)
                · next he8 => exact Ok.ite (((h.operandWrite he8).leaveTile).dropPkt) ((((h.operandWrite
                      he8).leaveTile).dropPkt).tellEngine)
              · exact Ok.ite (Ok.ite h.leaveTile.dropPkt h.leaveTile.dropPkt.stickNotice.tellEngine) (Ok.ite h (Ok.ite
                    h.dropPkt.enqueueDest h.dropPkt.enqueueDest.tellEngine))
  · exact h

theorem Ok.setFull {e : EP} {x : DestEntry} {g need : Nat} (h : Ok τ s) :
    Ok τ (setFull s e x g need) := Ok.ite (((((Ok.ite ((h.foldl fun _ _ h1 => Ok.ite h1 h1.spadWrite).setGran)
        h).addFill).dropFill).setGran).serveRange) ((Ok.ite ((h.foldl fun _ _ h1 => Ok.ite h1 h1.spadWrite).setGran) h).addFill)

theorem Ok.execDestWriteQueueWrite {e : Nat} (h : Ok none s) : NextOk (execDestWriteQueueWrite e s) := by
  unfold Machine.execDestWriteQueueWrite
  refine NextOk.next ?_
  split
  · exact Ok.ite h (Ok.ite ((h.sameMems.foldl fun _ _ h1 => h1.setGran).serveRange) (((Ok.ite h.sameMems.abortPlain.spadPut.clearOchre
        (h.sameMems.abortPlain.spadPut.foldl fun _ _ h1 => h1.setFull)).answerRange).serveRange))
  · exact h

theorem Ok.execCodeSegmentLanded {k : Nat} (h : Ok none s) : NextOk (execCodeSegmentLanded k s) := by
  unfold Machine.execCodeSegmentLanded
  refine NextOk.next ?_
  split
  · exact h
  · exact Ok.ite h.sameMems.completeCmd h

theorem Ok.mgDiscard {pkg : Nat} {data : Word} (h : Ok τ s) : Ok τ (mgDiscard s pkg data) := h.event

theorem Ok.codesegWrite {ep : EP} {w : Word} (h : Ok τ s) : Ok τ (codesegWrite s ep w) := by
  unfold Machine.codesegWrite
  split
  · exact Ok.ite h.modMgmt h.mgDiscard
  · exact Ok.ite h (Ok.ite h.sameMems.completeCmd h.sameMems.upd)

theorem Ok.execCodesegWrite {ep : Nat} {w : BitVec 64} (h : Ok none s) : NextOk (execCodesegWrite ep w s) := NextOk.next h.codesegWrite

end Sys2Proof.Machine
end

section
/-! What the operations of Machine/Queues.lean keep (O59). -/

namespace Sys2Proof.Machine

set_option Elab.async false

variable {τ : Option Turn} {s : State}

theorem Ok.pushItem {pkg q : Nat} {item : Packet} {c : Carry} (h : Ok τ s) : Ok τ (pushItem s pkg q item c) :=
  (Ok.ite h.physWrite.refInc h.physWrite).modQueue

theorem Ok.popItem {pkg q : Nat} (h : Ok τ s) : Ok τ (popItem s pkg q).2.2 := h.unitRead.modQueue

theorem Ok.kblGood {pkg : Nat} (h : Ok τ s) : Ok τ (kblGood s pkg) := h.sameStaging

theorem Ok.noteDropped {pkg : Nat} (h : Ok τ s) : Ok τ (noteDropped s pkg) := Ok.ite h h.modBridge.event

theorem Ok.logHeld {pkg q : Nat} (h : Ok τ s) : Ok τ (logHeld s pkg q) := h.foldl fun _ _ h1 => h1.sameStaging.event

theorem Ok.flushRecords {pkg q n : Nat} (h : Ok τ s) : Ok τ (flushRecords s pkg q n) := by
  induction n generalizing s with
  | zero => exact h
  | succ n ih =>
    unfold Machine.flushRecords
    split
    · exact h
    · split
      · have hgood := (h.logHeld (pkg := pkg) (q := q)).kblGood (pkg := pkg)
        exact ih (hgood.setHost (mwrite_wf _ _ _ hgood.host)).sameStaging.noteDropped.modQueue
      · exact h

theorem Ok.pushRecord {pkg q : Nat} {seq : BitVec 32} {h status tasks msgs stores : Nat} (hs : Ok τ s) :
    Ok τ (pushRecord s pkg q seq h status tasks msgs stores) := Ok.ite hs.modQueue.modBridge.modQueue hs.modQueue.sameStaging.flushRecords

theorem Ok.admitEntry {pkg q : Nat} (h : Ok τ s) : Ok τ (admitEntry s pkg q) := by
  unfold Machine.admitEntry
  split
  · exact h
  · dsimp only
    split
    · exact h.unitRead.modQueue.modQueue.pushRecord.sameStaging
    · split
      · exact h.unitRead.modQueue.modQueue.pushRecord.sameStaging
      · split
        · exact h.unitRead.sameStaging
        · next he4 => exact ((((h.unitRead.takeHandleBehind he4).modQueue).makeHandle).sameStaging).modQueue

theorem Ok.hostDiscard {pkg off : Nat} (h : Ok τ s) : Ok τ (hostDiscard s pkg off) := h.event

theorem Ok.execHostQueueEntryWrite {pkg off n : Nat} {entry : BitVec 512} (h : Ok none s) :
    NextOk (execHostQueueEntryWrite pkg off n entry s) := NextOk.next (Ok.ite h (Ok.ite h.kblGood.hostDiscard (Ok.ite h.kblGood.event
        h.kblGood.physWrite.modQueue)))

theorem Ok.execEntryAdmission {pkg q : Nat} (h : Ok none s) : NextOk (execEntryAdmission pkg q s) := NextOk.next h.admitEntry

theorem Ok.execHostCancelWrite {pkg off n : Nat} {w : BitVec 64} (h : Ok none s) : NextOk (execHostCancelWrite pkg off n w s) := by
  unfold Machine.execHostCancelWrite
  refine NextOk.next ?_
  dsimp only
  split
  · exact h
  · split
    · exact h.kblGood.hostDiscard
    · split
      · split
        · exact Ok.ite h.kblGood.lapseHandle h.kblGood
        · exact h.kblGood
      · exact Ok.ite h.kblGood.modQueue (Ok.ite h.kblGood h.kblGood.hostDiscard)

theorem Ok.execHeldRecordRetry {pkg q : Nat} (h : Ok none s) : NextOk (execHeldRecordRetry pkg q s) := NextOk.next h.logHeld.flushRecords

end Sys2Proof.Machine
end

section
/-! What the operations of Machine/Sched.lean keep (O59). -/

namespace Sys2Proof.Machine

set_option Elab.async false

variable {τ : Option Turn} {s : State}

theorem Ok.checkHome {pkg : Nat} {ctx : Ctx} {g : Nat} (h : Ok τ s) : Ok τ (checkHome s pkg ctx g) := by
  unfold Machine.checkHome
  split
  · exact h.checkGroup
  · exact h

theorem Ok.discardPacket {pkg : Nat} {c : Carry} (h : Ok τ s) : Ok τ (discardPacket s pkg c) := h.report.refDec

theorem Ok.rejectPacket {pkg : Nat} {p : DispPkt} (h : Ok τ s) : Ok τ (rejectPacket s pkg p) :=
  Ok.ite h.pushRecord.freeHandle h.discardPacket

theorem Ok.routePacket {s' : State} {pkg : Nat} {p : DispPkt} {hdr : BitVec 512} (h : Ok τ s) (he : routePacket s pkg p hdr = some s') :
    Ok τ s' := by
  unfold Machine.routePacket at he
  dsimp only at he
  split at he
  · cases he
    exact h.rejectPacket
  · split at he
    · cases he
      exact h.rejectPacket
    · exact Ok.optMap he fun _ => Ok.modCluster (Ok.ite h.sameStaging h)

theorem Ok.meetHeader {pkg : Nat} {ctx : Ctx} {a : Word} (h : Ok τ s) : Ok τ (meetHeader s pkg ctx a) := by
  unfold Machine.meetHeader
  dsimp only
  split
  · exact Ok.ite h.unitWalk.unitRead h.unitWalk
  · exact h.unitWalk

theorem Ok.dropHead {pkg q : Nat} (h : Ok τ s) : Ok τ (dropHead s pkg q) := Ok.ite h.modQueue h.popItem

theorem Ok.execDispatchEntry {pkg : Nat} (h : Ok none s) : NextOk (execDispatchEntry pkg s) := by
  unfold Machine.execDispatchEntry
  refine NextOk.next ?_
  split
  · exact h
  · split
    · exact h
    · dsimp only
      split
      · exact h.sameStaging.dropHead.discardPacket
      · split
        · split
          · split
            · next he6 => exact h.sameStaging.dropHead.routePacket he6
            · exact h.sameStaging
          · exact h.sameStaging.dropHead.sameStaging
        · exact h.sameStaging.dropHead.sameStaging

theorem Ok.execLaunchHeaderRead {pkg k : Nat} (h : Ok none s) : NextOk (execLaunchHeaderRead pkg k s) := by
  unfold Machine.execLaunchHeaderRead
  refine NextOk.next ?_
  split
  · exact h
  · dsimp only
    split
    · split
      · next he3 => exact h.sameStaging.routePacket he3
      · exact h
    · split
      · exact h
      · split
        · exact h.meetHeader.sameStaging.rejectPacket
        · split
          · next he5 => exact h.meetHeader.modQueue.sameStaging.routePacket he5
          · exact h.meetHeader.modQueue

theorem Ok.deliver {e : EP} {slot : Nat} {ws : Packet} (h : Ok τ s) : Ok τ (deliver s e slot ws) := by
  unfold Machine.deliver
  split
  · exact h
  · extract_lets both s1 s2
    have h1 : Ok τ s1 := h.modThr
    have h2 : Ok τ s2 := by
      unfold s2
      split
      · exact Ok.ite h1.modThr h1
      · exact h1
    exact h2.keepPri

theorem Ok.dropPacket {key : Nat} {p : DispPkt} (h : Ok τ s) : Ok τ (dropPacket s key p) := h.modCluster

theorem Ok.createThreads {e : EP} {ctx : Ctx} {g t : Nat} {pair : Bool} {l : List Nat} (h : Ok τ s) :
    Ok τ (createThreads s e ctx g pair l t) := by
  induction l generalizing s t with
  | nil => exact h
  | cons k rest ih =>
    unfold Machine.createThreads
    split
    next he =>
    exact ih (Ok.ite (Ok.sameMems (Ok.ofSnd he h.draw2).upd.sameMems) (Ok.ofSnd he h.draw2).upd.sameMems)

theorem Ok.placeGroup {e : EP} {p : DispPkt} {base spad : Nat} {slots tiles : List Nat} {wrote : Bool} (h : Ok τ s) :
    Ok τ (placeGroup s e p base spad slots tiles wrote) := by
  unfold Machine.placeGroup
  dsimp only
  refine Ok.createThreads (Ok.foldl (Ok.sameMems (Ok.sameStaging (Ok.ite h.physWrite h))) fun _ _ h1 => ?_)
  exact h1.accChange fun _ => mclear_wf _ _

theorem Ok.takeArm {s' : State} {e : EP} {slot : Nat} {t : Thread} (h : Ok τ s) (he : takeArm s e slot t = some s') : Ok τ s' :=
  Ok.optMap he fun _ => (Ok.ite h.sameMems.discardPacket h.sameMems.deliver).checkHome

theorem Ok.execDispenserExamine {pkg cl k : Nat} (h : Ok none s) : NextOk (execDispenserExamine pkg cl k s) := by
  unfold Machine.execDispenserExamine
  refine NextOk.next ?_
  dsimp only
  split
  · split
    · exact h.dropPacket.discardPacket.checkHome
    · exact h.dropPacket.rejectPacket
    · exact Ok.ite h.dropPacket.deliver h
    · exact Ok.ite h.dropPacket.placeGroup.deliver h
    · exact h
  · split
    · exact Ok.getD (fun he => h.takeArm he) h
    · exact h

theorem Ok.reenter {e : EP} {slot : Nat} {f : Frame} (h : Ok τ s) : Ok τ (reenter s e slot f) := by
  unfold Machine.reenter
  split
  · exact h
  · exact h.draw2.keepPri.modThr

theorem Ok.dropFrame {key k : Nat} (h : Ok τ s) : Ok τ (dropFrame s key k) := h.modCluster

theorem Ok.execFrameReentry {pkg cl k : Nat} (h : Ok none s) : NextOk (execFrameReentry pkg cl k s) := by
  unfold Machine.execFrameReentry
  refine NextOk.next ?_
  dsimp only
  split
  · exact h
  · split
    · exact h
    · split
      · exact h.dropFrame.discardPacket.checkHome
      · split
        · exact h
        · exact Ok.ite h h.dropFrame.reenter

theorem Ok.workNow {s' : State} {e : EP} {slot : Nat} {t : Thread} (h : Ok τ s) (he : workNow s e slot t = some s') : Ok τ s' := by
  unfold Machine.workNow at he
  dsimp only at he
  split at he
  · cases he
  · split at he
    · cases he
      exact h.dropPacket.deliver
    · split at he
      · exact h.takeArm he
      · split at he
        · exact Ok.optMap he fun _ => h.dropFrame.reenter
        · cases he

end Sys2Proof.Machine
end

section
/-! What the operations of Machine/Integer.lean keep (O59). -/

namespace Sys2Proof.Machine

set_option Elab.async false

variable {τ : Option Turn} {s : State}

theorem Ok.arith {op : Nat} {gd : Guard} {d a b : Reg} {f : Word → Word → Word} (h : Ok τ s) : NextOk (arith op gd d a b f s) := h.pure_

theorem Ok.execNop {gd : Guard} (h : Ok τ s) : NextOk (execNop gd s) := h.pure_

theorem Ok.execAdd {gd : Guard} {d a b : Reg} (h : Ok τ s) : NextOk (execAdd gd d a b s) := h.arith

theorem Ok.execSub {gd : Guard} {d a b : Reg} (h : Ok τ s) : NextOk (execSub gd d a b s) := h.arith

theorem Ok.execMul {gd : Guard} {d a b : Reg} (h : Ok τ s) : NextOk (execMul gd d a b s) := h.arith

theorem Ok.execMulh {gd : Guard} {d a b : Reg} (h : Ok τ s) : NextOk (execMulh gd d a b s) := h.arith

theorem Ok.execMulhn {gd : Guard} {d a b : Reg} (h : Ok τ s) : NextOk (execMulhn gd d a b s) := h.arith

theorem Ok.execDiv {gd : Guard} {d a b : Reg} (h : Ok τ s) : NextOk (execDiv gd d a b s) := h.arith

theorem Ok.execDivn {gd : Guard} {d a b : Reg} (h : Ok τ s) : NextOk (execDivn gd d a b s) := h.arith

theorem Ok.execRem {gd : Guard} {d a b : Reg} (h : Ok τ s) : NextOk (execRem gd d a b s) := h.arith

theorem Ok.execRemn {gd : Guard} {d a b : Reg} (h : Ok τ s) : NextOk (execRemn gd d a b s) := h.arith

theorem Ok.execAnd {gd : Guard} {d a b : Reg} (h : Ok τ s) : NextOk (execAnd gd d a b s) := h.arith

theorem Ok.execOr {gd : Guard} {d a b : Reg} (h : Ok τ s) : NextOk (execOr gd d a b s) := h.arith

theorem Ok.execXor {gd : Guard} {d a b : Reg} (h : Ok τ s) : NextOk (execXor gd d a b s) := h.arith

theorem Ok.execAndn {gd : Guard} {d a b : Reg} (h : Ok τ s) : NextOk (execAndn gd d a b s) := h.arith

theorem Ok.execShl {gd : Guard} {d a b : Reg} (h : Ok τ s) : NextOk (execShl gd d a b s) := h.arith

theorem Ok.execShr {gd : Guard} {d a b : Reg} (h : Ok τ s) : NextOk (execShr gd d a b s) := h.arith

theorem Ok.execSra {gd : Guard} {d a b : Reg} (h : Ok τ s) : NextOk (execSra gd d a b s) := h.arith

theorem Ok.execMin {gd : Guard} {d a b : Reg} (h : Ok τ s) : NextOk (execMin gd d a b s) := h.arith

theorem Ok.execMax {gd : Guard} {d a b : Reg} (h : Ok τ s) : NextOk (execMax gd d a b s) := h.arith

theorem Ok.execMinn {gd : Guard} {d a b : Reg} (h : Ok τ s) : NextOk (execMinn gd d a b s) := h.arith

theorem Ok.execMaxn {gd : Guard} {d a b : Reg} (h : Ok τ s) : NextOk (execMaxn gd d a b s) := h.arith

theorem Ok.unary {op : Nat} {gd : Guard} {d a : Reg} {f : Word → Word} (h : Ok τ s) : NextOk (unary op gd d a f s) := h.pure_

theorem Ok.execShli {gd : Guard} {d a : Reg} {n : BitVec 6} (h : Ok τ s) : NextOk (execShli gd d a n s) := h.unary

theorem Ok.execShri {gd : Guard} {d a : Reg} {n : BitVec 6} (h : Ok τ s) : NextOk (execShri gd d a n s) := h.unary

theorem Ok.execSrai {gd : Guard} {d a : Reg} {n : BitVec 6} (h : Ok τ s) : NextOk (execSrai gd d a n s) := h.unary

theorem Ok.execClz {gd : Guard} {d a : Reg} (h : Ok τ s) : NextOk (execClz gd d a s) := h.unary

theorem Ok.execCtz {gd : Guard} {d a : Reg} (h : Ok τ s) : NextOk (execCtz gd d a s) := h.unary

theorem Ok.execPopc {gd : Guard} {d a : Reg} (h : Ok τ s) : NextOk (execPopc gd d a s) := h.unary

theorem Ok.execSext {gd : Guard} {d a : Reg} {n : BitVec 6} (h : Ok τ s) : NextOk (execSext gd d a n s) := h.unary

theorem Ok.execZext {gd : Guard} {d a : Reg} {n : BitVec 6} (h : Ok τ s) : NextOk (execZext gd d a n s) := h.unary

theorem Ok.execAddi {gd : Guard} {d a : Reg} {imm : BitVec 22} (h : Ok τ s) : NextOk (execAddi gd d a imm s) := h.unary

theorem Ok.execAndi {gd : Guard} {d a : Reg} {imm : BitVec 22} (h : Ok τ s) : NextOk (execAndi gd d a imm s) := h.unary

theorem Ok.execOri {gd : Guard} {d a : Reg} {imm : BitVec 22} (h : Ok τ s) : NextOk (execOri gd d a imm s) := h.unary

theorem Ok.execXori {gd : Guard} {d a : Reg} {imm : BitVec 22} (h : Ok τ s) : NextOk (execXori gd d a imm s) := h.unary

theorem Ok.execLi {gd : Guard} {d : Reg} {imm : BitVec 48} (h : Ok τ s) : NextOk (execLi gd d imm s) := h.pure_

theorem Ok.execLih {gd : Guard} {d a : Reg} {imm : BitVec 16} (h : Ok τ s) : NextOk (execLih gd d a imm s) := h.unary

theorem Ok.execBfx {gd : Guard} {d a : Reg} {pos len1 : BitVec 6} (h : Ok τ s) : NextOk (execBfx gd d a pos len1 s) := h.unary

theorem Ok.execBfxs {gd : Guard} {d a : Reg} {pos len1 : BitVec 6} (h : Ok τ s) : NextOk (execBfxs gd d a pos len1 s) := h.unary

theorem Ok.execBfi {gd : Guard} {d a b : Reg} {pos len1 : BitVec 6} (h : Ok τ s) : NextOk (execBfi gd d a b pos len1 s) := h.arith

theorem Ok.execLea {gd : Guard} {d a b : Reg} {sh : BitVec 2} {disp : BitVec 10} (h : Ok τ s) : NextOk (execLea gd d a b sh disp s) :=
  h.arith

theorem Ok.execCmp {gd : Guard} {d : Pred} {a b : Reg} {cc : Cond} (h : Ok τ s) : NextOk (execCmp gd d a b cc s) := h.pure_

theorem Ok.execCmpi {gd : Guard} {d : Pred} {a : Reg} {cc : Cond} {imm : BitVec 32} (h : Ok τ s) : NextOk (execCmpi gd d a cc imm s) :=
  h.pure_

theorem Ok.execPlog {gd : Guard} {d a b : Pred} {table : BitVec 4} (h : Ok τ s) : NextOk (execPlog gd d a b table s) := h.pure_

theorem Ok.execSel {gd : Guard} {d a b : Reg} {c : Pred} (h : Ok τ s) : NextOk (execSel gd d a b c s) := h.pure_

theorem Ok.execPset {gd : Guard} {a : Reg} (h : Ok τ s) : NextOk (execPset gd a s) := h.pure_

theorem Ok.execPget {gd : Guard} {d : Reg} (h : Ok τ s) : NextOk (execPget gd d s) := h.pure_

end Sys2Proof.Machine
end

section
/-! What the operations of Machine/Control.lean keep (O59). -/

namespace Sys2Proof.Machine

set_option Elab.async false

variable {τ : Option Turn} {s : State}

theorem Ok.branchTo {u : Turn} {target : CodeAddr} {f : Thread → Thread} (h : Ok τ s) : Ok none (branchTo s u target f) :=
  Ok.ite h.jump.modThr (Ok.ite h.jump h.modThr.raise)

theorem Ok.execBr {gd : Guard} {imm : BitVec 22} (h : Ok τ s) : NextOk (execBr gd imm s) := h.issue fun _ _ _ h1 => h1.branchTo

theorem Ok.regBranch {u : Turn} {w : Word} {f : Thread → Thread} (h : Ok τ s) : Ok none (regBranch s u w f) :=
  Ok.ite h.modThr.raise h.branchTo

theorem Ok.execBrr {gd : Guard} {a : Reg} (h : Ok τ s) : NextOk (execBrr gd a s) := h.issue fun _ _ _ h1 => h1.regBranch

theorem Ok.execCall {gd : Guard} {d : Reg} {imm : BitVec 22} (h : Ok τ s) : NextOk (execCall gd d imm s) :=
  h.issue fun _ _ _ h1 => h1.branchTo

theorem Ok.execCallr {gd : Guard} {d a : Reg} (h : Ok τ s) : NextOk (execCallr gd d a s) := h.issue fun _ _ _ h1 => h1.regBranch

theorem Ok.execJseg {gd : Guard} {imm : BitVec 22} (h : Ok τ s) : NextOk (execJseg gd imm s) :=
  h.issue fun _ _ _ h1 => Ok.ite h1.raise h1.branchTo

theorem Ok.btagScan {u : Turn} {t : Thread} {tag n : Nat} {a : Word} (h : Ok τ s) : Ok τ (btagScan s u t tag a n).1 := by
  induction n generalizing s a with
  | zero => exact h
  | succ n ih =>
    unfold Machine.btagScan
    split
    · exact h
    · exact h
    · exact Ok.iteFst h (Ok.iteFst h.meetErrors (Ok.iteFst h.meetErrors (ih h.meetErrors)))

theorem Ok.execBtag {gd : Guard} {d a b : Reg} {count : BitVec 12} (h : Ok τ s) : NextOk (execBtag gd d a b count s) := by
  unfold Machine.execBtag
  refine Ok.issue h fun _ _ _ h1 => ?_
  split
  · exact h1.waitFor
  · refine Ok.withBanks h1 fun _ h2 => ?_
    dsimp only
    split
    · next he2 => exact (Ok.ofFst he2 h2.btagScan).raise
    · next he2 => exact (Ok.ofFst he2 h2.btagScan).waitEver
    · next he2 => exact (Ok.ofFst he2 h2.btagScan).retire
    · next he2 => exact Ok.ite ((Ok.ofFst he2 h2.btagScan).raise) ((Ok.ofFst he2 h2.btagScan).branchTo)

end Sys2Proof.Machine
end

section
/-! What the operations of Machine/System.lean keep (O59). -/

namespace Sys2Proof.Machine

set_option Elab.async false

variable {τ : Option Turn} {s : State}

theorem Ok.execHnd {gd : Guard} {d a : Reg} {left : Bool} (h : Ok τ s) : NextOk (execHnd gd d a left s) :=
  h.issue fun _ _ _ h1 => Ok.ite h1.retire h1.retire

theorem Ok.execNarrow {gd : Guard} {a : Reg} (h : Ok τ s) : NextOk (execNarrow gd a s) := h.pure_

theorem Ok.askUnit {u : Turn} {t : Thread} {d : Reg} {r : Req → IuReq} (h : Ok τ s) : Ok none (s.askUnit u t d r) :=
  h.upd.sameStaging.parkAt

theorem Ok.execUnion {gd : Guard} {d a : Reg} {n : BitVec 7} (h : Ok τ s) : NextOk (execUnion gd d a n s) := by
  unfold Machine.execUnion
  refine Ok.issue h fun _ _ _ h1 => ?_
  dsimp only
  refine Ok.checked h1 fun _ => ?_
  refine Ok.checked h1 fun _ => ?_
  split
  · exact h1.waitEver
  · refine Ok.withBanks h1 fun _ h2 => ?_
    split
    · exact h2.meetErrors.raise
    · split
      · exact h2.meetErrors.raise
      · refine Ok.askUnit (τ := τ) ?_
        split
        · exact h2.meetErrors.refDec.modThr
        · exact h2.meetErrors

theorem Ok.execLivemask {gd : Guard} {d a : Reg} (h : Ok τ s) : NextOk (execLivemask gd d a s) := by
  unfold Machine.execLivemask
  refine Ok.issue h fun _ _ _ h1 => ?_
  split
  · exact h1.retire
  · exact h1.retire

theorem Ok.execCancel {gd : Guard} {a : Reg} (h : Ok τ s) : NextOk (execCancel gd a s) := h.issue fun _ _ _ h1 => Ok.ite h1.raise h1.askUnit

theorem Ok.execAdopt {gd : Guard} {a : Reg} (h : Ok τ s) : NextOk (execAdopt gd a s) := h.issue fun _ _ _ h1 => Ok.ite h1.raise h1.askUnit

theorem Ok.askRegion {u : Turn} {t : Thread} {kind : Nat} {d : Reg} {dk : Nat} {m : RMsg} (h : Ok τ s) :
    Ok none (s.askRegion u t kind d dk m) := h.upd.sendRegion.parkAt

theorem Ok.execRbegin {gd : Guard} {d a : Reg} {imm : BitVec 22} (h : Ok τ s) : NextOk (execRbegin gd d a imm s) :=
  h.issue fun _ _ _ h1 => h1.askRegion

theorem Ok.execRcommit {gd : Guard} (h : Ok τ s) : NextOk (execRcommit gd s) := by
  unfold Machine.execRcommit
  refine Ok.issue h fun _ _ _ h1 => ?_
  split
  · exact h1.retire
  · exact Ok.ite h1.waitEver h1.askRegion

theorem Ok.execRabort {gd : Guard} (h : Ok τ s) : NextOk (execRabort gd s) := by
  unfold Machine.execRabort
  refine Ok.issue h fun _ _ _ h1 => ?_
  split
  · exact h1.retire
  · exact h1.abortOwn

theorem Ok.execRstat {gd : Guard} {d : Reg} (h : Ok τ s) : NextOk (execRstat gd d s) := by
  unfold Machine.execRstat
  refine Ok.issue h fun _ _ _ h1 => ?_
  split
  · exact h1.retire
  · exact h1.askRegion

theorem Ok.execTrap {gd : Guard} {imm : BitVec 22} (h : Ok τ s) : NextOk (execTrap gd imm s) := h.issue fun _ _ _ h1 => h1.raise

theorem Ok.deliverAbort {e : EP} {slot cause : Nat} {target : CodeAddr} {reg : Reg} (h : Ok τ s) :
    Ok τ (deliverAbort s e slot cause target reg) := Ok.ite (h.modThr.keep h.modThr.trapNow) h.modThr

theorem Ok.deliverHeld {s' : State} {e : EP} {slot : Nat} {t : Thread} (h : Ok τ s) (he : deliverHeld s e slot t = some s') : Ok τ s' := by
  unfold Machine.deliverHeld at he
  split at he
  · cases he
  · refine Ok.optMap he fun x => ?_
    obtain ⟨c, target, reg⟩ := x
    dsimp only
    split
    · exact h.deliverAbort
    · split
      · exact Ok.ite h.flushLead.modThr.modThr.deliverAbort.deliverAbort h.flushLead
      · exact h.flushLead

theorem Ok.execRtt {gd : Guard} (h : Ok τ s) : NextOk (execRtt gd s) := by
  unfold Machine.execRtt
  refine Ok.issue h fun _ _ _ h1 => ?_
  split
  · exact h1.raise
  · split
    · exact h1.freeLapsed.noTurn
    · dsimp only
      split
      · exact h1.modThr.deliverAbort.noTurn
      · exact Ok.ite h1.jump.modThr (Ok.ite h1.jump h1.raise)

theorem Ok.execMfs {gd : Guard} {d a : Reg} {n : BitVec 8} (h : Ok τ s) : NextOk (execMfs gd d a n s) :=
  h.issue fun _ _ _ h1 => Ok.ite h1.raise h1.retire

theorem Ok.execMts {gd : Guard} {a : Reg} {n : BitVec 8} (h : Ok τ s) : NextOk (execMts gd a n s) :=
  h.issue fun _ _ _ h1 => Ok.ite h1.raise (Ok.ite h1.raise (Ok.ite h1.raise (Ok.ite h1.sameMems.retire h1.retire)))

theorem Ok.execInvtlb {gd : Guard} {a b : Reg} {scope : BitVec 2} (h : Ok τ s) : NextOk (execInvtlb gd a b scope s) := by
  unfold Machine.execInvtlb
  refine Ok.issue h fun _ _ _ h1 => ?_
  dsimp only
  split
  · exact h1.raise
  · split
    · exact h1.raise
    · exact h1.upd.sameStaging.parkAt

theorem Ok.execInvtlbApply {pkg die : Nat} (h : Ok none s) : NextOk (execInvtlbApply pkg die s) := by
  unfold Machine.execInvtlbApply
  refine NextOk.next ?_
  split
  · exact h
  · extract_lets dk keep met s1 inDie cls crs s2 todo put s3 s4
    have h1 : Ok none s1 := h.modDie
    have h2 : Ok none s2 := by
      refine Ok.mapCores (s := { s1 with clusters := cls }) h1.upd fun _ => ?_
      exact KeepMem.ite ⟨id, id, id⟩ ⟨id, id, id⟩
    have h3 : Ok none s3 := h2.sameStaging
    have h4 : Ok none s4 := h3.foldl fun _ _ h1 => Ok.ite h1.modQueue h1
    exact Ok.ite h4.settle h2.sameStaging

end Sys2Proof.Machine
end

section
/-! What the operations of Machine/Swap.lean keep (O59). -/

namespace Sys2Proof.Machine

set_option Elab.async false

variable {τ : Option Turn} {s : State}

theorem Ok.withdraw {pkg uid : Nat} (h : Ok τ s) : Ok τ (withdraw s pkg uid) := by
  unfold Machine.withdraw
  dsimp only
  refine Ok.mapCores (h.sameStaging.foldl fun _ _ h1 => h1.endAccess) fun _ => ⟨id, id, id⟩

theorem Ok.loseThread {pkg : Nat} {t : Thread} {fault : Bool} (h : Ok τ s) : Ok τ (loseThread s pkg t fault) := by
  unfold Machine.loseThread
  extract_lets h2 s1 s2 s3 s4
  have h1 : Ok τ s1 := h.report
  have h3 : Ok τ s3 := (Ok.ite h1.markFault h1).endRegion
  have h4 : Ok τ s4 := by
    unfold s4
    split
    · exact h3.refDec
    · exact h3
  exact h4.refDec

theorem Ok.checkAnywhere {pkg : Nat} {ctx : Ctx} {vcore : Nat} (h : Ok τ s) : Ok τ (checkAnywhere s pkg ctx vcore) := by
  unfold Machine.checkAnywhere
  split
  · exact h.checkGroup
  · exact h

theorem Ok.releaseFork {e : EP} {t : Thread} (h : Ok τ s) : Ok τ (releaseFork s e t) := by
  unfold Machine.releaseFork
  split
  · split
    · exact h.sameMems
    · exact h
  · exact h

theorem Ok.killCached {key n : Nat} {fault : Bool} (h : Ok τ s) : Ok τ (killCached s key n fault) := by
  unfold Machine.killCached
  split
  · exact Ok.ite h h.modCluster.releaseFork.loseThread.checkAnywhere
  · exact h

theorem Ok.killSpilled {pkg k : Nat} {fault : Bool} (h : Ok τ s) : Ok τ (killSpilled s pkg k fault) := by
  unfold Machine.killSpilled
  split
  · exact Ok.ite h h.sameStaging.spillWrite.releaseFork.loseThread.checkAnywhere
  · exact h

theorem Ok.killImages {pkg : Nat} {p : Thread → Bool} {fault : Bool} (h : Ok τ s) : Ok τ (killImages s pkg p fault) :=
  (h.foldl fun _ _ h1 => h1.killCached).foldl fun _ _ h1 => h1.killSpilled

theorem Ok.spillImage {key n : Nat} (h : Ok τ s) : Ok τ (spillImage s key n) := by
  unfold Machine.spillImage
  split
  · exact (Ok.ite h.sameStaging.spillWrite h.killCached.event).modCluster
  · exact h

theorem Ok.saveGroup {e : EP} {g : Group} (h : Ok τ s) : Ok τ (saveGroup s e g) := by
  unfold Machine.saveGroup
  dsimp only
  refine Ok.foldl ?_ fun _ _ h1 => h1.physWrite
  refine Ok.foldl h.physWrite.physWrite fun s1 _ h1 => ?_
  split
  · exact h1.physWrite
  · exact h1

theorem Ok.groupLeaves {e : EP} {g : Group} (h : Ok τ s) :
    Ok τ (groupLeaves s e g) := Ok.ite (((Ok.ite h.saveGroup.sameStaging h.event).releaseClaims).modGroup) ((((Ok.ite
        h.saveGroup.sameStaging h.event).releaseClaims).modGroup).killImages)

theorem Ok.flushPair {e : EP} {slot : Nat} (h : Ok τ s) : Ok τ (flushPair s e slot) := by
  unfold Machine.flushPair
  split
  · split
    · dsimp only
      split
      · exact h.flushLead
      · exact h
    · exact h
  · exact h

theorem Ok.execCswap {gd : Guard} {a b : Reg} (h : Ok τ s) : NextOk (execCswap gd a b s) := by
  unfold Machine.execCswap
  refine Ok.issue h fun _ _ _ h1 => ?_
  dsimp only
  split
  · exact h1.raise
  · split
    · exact h1.raise
    · split
      · exact h1.retire
      · exact Ok.ite h1.flushPair.waitFor h1.flushPair.stopJobs.sameMems.parkAt

theorem Ok.endSwap {e : EP} {slot issuer : Nat} {ok : Bool} (h : Ok τ s) : Ok τ (endSwap s e slot issuer ok) := by
  unfold Machine.endSwap
  dsimp only
  split
  · exact h.sameMems.modThr
  · exact h.sameMems

theorem Ok.writeImage {e : EP} {slot entry : Nat} {t : Thread} (h : Ok τ s) : Ok τ (writeImage s e slot entry t) :=
  h.returnRes.flushOutbox.sameMems.withdraw.spillImage.modCluster.foldl fun _ _ h1 => h1.vacate

theorem Ok.execSwapImageWritten {e slot : Nat} (h : Ok none s) : NextOk (execSwapImageWritten e slot s) := by
  unfold Machine.execSwapImageWritten
  refine NextOk.next ?_
  split
  · exact h
  · split
    · exact h.endSwap
    · split
      · exact h
      · extract_lets s1 s2
        have h1 : Ok none s1 := h.writeImage.endSwap
        have h2 : Ok none s2 := by
          unfold s2
          split
          · exact Ok.ite h1 h1.groupLeaves
          · exact h1
        exact Ok.ite h2.killCached h2

theorem Ok.imageOf {e : EP} {w : Nat} (h : Ok τ s) : Ok τ (imageOf s e w).2 := by
  unfold Machine.imageOf
  split
  · exact h
  · extract_lets other s1
    clear_value other
    have h1 : Ok τ s1 := by
      unfold s1
      split
      · exact h.spillImage
      · exact h
    split
    · split
      · exact Ok.ite h1 h1.unitRead
      · exact h1
    · exact h1

theorem Ok.dropImage {e : EP} {w : Whereabouts} (h : Ok τ s) : Ok τ (dropImage s e w) := by
  cases w with
  | tcc => exact h.modCluster
  | spilled => exact h.sameStaging
  | _ => exact h

theorem Ok.reserveGroupGo {s' : State} {e : EP} {x : Thread} {base size : Nat} (h : Ok τ s)
    (he : reserveGroup.go e x base size s = some s') : Ok τ s' := by
  unfold Machine.reserveGroup.go at he
  extract_lets pkg a s1 w owner tiles old shadows same away cs s2 s3 at he
  have h2 : Ok τ s2 := h.unitRead.mapCores fun x => KeepMem.ite ⟨id, id, id⟩ ⟨id, id, id⟩
  split at he
  · cases he
  · refine Ok.optMap he fun sl => ?_
    extract_lets g s4 s5
    have h4 : Ok τ s4 := h2.sameStaging.sameMems
    have h5 : Ok τ s5 := by
      refine h4.foldl fun s x h => ?_
      obtain ⟨k, n⟩ := x
      refine h.unitRead.accChange fun c hc => ?_
      dsimp only
      exact mputs_wf _ _ hc
    refine h5.foldl fun s n h => ?_
    refine h.unitRead.opmemChange fun c hc => ?_
    dsimp only
    exact mputs_wf _ _ hc

theorem Ok.reserveGroup {s' : State} {e : EP} {x : Thread} {base size : Nat} (h : Ok τ s) (he : reserveGroup s e x base size = some s') :
    Ok τ s' := by
  unfold Machine.reserveGroup at he
  split at he
  · split at he
    · cases he
      exact h
    · exact h.reserveGroupGo he
  · exact h.reserveGroupGo he

theorem Ok.exchangeSlot {e : EP} {x : Thread} {k : Nat} (h : Ok τ s) : Ok τ (exchangeSlot s e x k) := by
  unfold Machine.exchangeSlot
  split
  · exact h
  · split
    · exact h
    · split
      · exact h
      · exact h.sameMems

theorem Ok.dropWaits {e : EP} {uid : Nat} (h : Ok τ s) : Ok τ (dropWaits s e uid) := h.sameMems.admitAll

theorem Ok.moveHeld {frm tgt : EP} {x : Thread} (h : Ok τ s) : Ok τ (moveHeld s frm tgt x) := Ok.ite h h.sameMems.sameMems

theorem Ok.moveRegion {dk id : Nat} {e : EP} {uid : Nat} (h : Ok τ s) : Ok τ (moveRegion s dk id e uid) := h.modRegion

theorem Ok.makeRoom {key : Nat} (h : Ok τ s) : Ok τ (makeRoom s key) := by
  unfold Machine.makeRoom
  split
  · exact h
  · split
    · exact h.spillImage
    · exact h

theorem Ok.placeImage {e : EP} {f : ImageFound} {k base size : Nat} (h : Ok τ s) : Ok τ (placeImage s e f k base size) := by
  unfold Machine.placeImage
  extract_lets x sr x2 s1 s2 s3 s4 s5 ref before s6 y s7
  have h1 : Ok τ s1 := by
    unfold s1
    split
    · exact h.makeRoom
    · exact h
  have h3 : Ok τ s3 := Ok.ite h1.dropImage.dropWaits h1.dropImage
  have h6 : Ok τ s6 := h3.exchangeSlot.moveHeld.sameMems
  have h7 : Ok τ s7 := Ok.ite h6.sameMems h6
  clear_value x2 s7
  split
  · exact Ok.ite h7.moveRegion.askAbort h7.moveRegion
  · exact h7

theorem Ok.resumeImage {u : Turn} {t : Thread} {d b : Reg} {f : ImageFound} (h : Ok τ s) : Ok none (resumeImage s u t d b f) := by
  unfold Machine.resumeImage
  extract_lets pkg x no
  have hno {s : State} (h : Ok τ s) : Ok none (no s) := h.retire.unreserve
  split
  · exact hno h.dropImage
  · split
    · exact hno h.loseThread.dropImage.checkAnywhere
    · split
      · exact hno h
      · split
        · exact h.forfeit
        · exact hno h
        · next s1 he =>
          have h1 : Ok τ s1 := by
            split at he
            · cases he
            · exact h.reserveGroup (Option.some.inj he)
          split
          · exact hno h1
          · exact Ok.ite (Ok.ite (hno h1) h1.waitFor) h1.placeImage.retire

theorem Ok.execResume {gd : Guard} {d a b : Reg} {key : Bool} (h : Ok τ s) : NextOk (execResume gd d a b key s) := by
  unfold Machine.execResume
  refine Ok.issue h fun _ _ _ h1 => ?_
  dsimp only
  split
  · split
    · exact h1.raise
    · split
      · exact h1.raise
      · split
        · exact Ok.ite h1.imageOf.forfeit h1.imageOf.resumeImage
        · exact h1.imageOf.retire
  · split
    · exact h1.raise
    · split
      · exact h1.raise
      · split
        · exact Ok.ite h1.forfeit h1.resumeImage
        · exact h1.retire

end Sys2Proof.Machine
end

section
/-! What the operations of Machine/Lapses.lean keep (O59). -/

namespace Sys2Proof.Machine

set_option Elab.async false

variable {τ : Option Turn} {s : State}

theorem Ok.execInstantLapse {pkg h : Nat} (hs : Ok none s) : NextOk (execInstantLapse pkg h s) := by
  unfold Machine.execInstantLapse
  refine NextOk.next ?_
  split
  · exact Ok.ite hs.lapseHandle hs
  · exact hs

theorem Ok.rewriteSlots {dk n : Nat} {inst : Instant} (h : Ok τ s) : Ok τ (rewriteSlots s dk n inst) :=
  h.mapCores fun _ => KeepMem.ite ⟨id, id, id⟩ ⟨id, id, id⟩

theorem Ok.killHolders {pkg die h : Nat} (hs : Ok τ s) : Ok τ (killHolders s pkg die h) :=
  Ok.ite ((hs.foldl fun _ _ h1 => h1.killCached).foldl fun _ _ h1 => h1.killSpilled) (hs.foldl fun _ _ h1 => h1.killCached)

theorem Ok.applyChange {pkg die : Nat} {c : Change} (h : Ok τ s) : Ok τ (applyChange s pkg die c) := by
  unfold Machine.applyChange
  dsimp only
  split
  · exact h
  · exact h.modDie.killHolders
  · exact h.modDie.rewriteSlots
  · exact h.rewriteSlots

theorem Ok.answerUnion {pkg : Nat} {req : Req} {h : Nat} {d : Reg} (hs : Ok τ s) : Ok τ (answerUnion s pkg req h d) := by
  unfold Machine.answerUnion
  dsimp only
  split
  · exact hs.refDec
  · split
    · exact Ok.ite hs.refDec.modWhere.modWhere.settle hs.refDec.modWhere
    · exact Ok.ite hs.modWhere.modWhere.settle hs.modWhere

theorem Ok.answerUnions {pkg : Nat} (h : Ok τ s) : Ok τ (answerUnions s pkg) := by
  unfold Machine.answerUnions
  refine Ok.foldl h fun s1 _ h1 => ?_
  split
  · exact Ok.ite h1.sameStaging.answerUnion h1
  · exact h1

theorem Ok.execLapseBroadcastApply {pkg die k : Nat} (h : Ok none s) : NextOk (execLapseBroadcastApply pkg die k s) := by
  unfold Machine.execLapseBroadcastApply
  refine NextOk.next ?_
  dsimp only
  split
  · exact Ok.ite h h.modDie.applyChange.answerUnions
  · exact h

theorem Ok.execSettleExpiry {pkg h : Nat} (hs : Ok none s) : NextOk (execSettleExpiry pkg h s) := by
  unfold Machine.execSettleExpiry
  refine NextOk.next ?_
  split
  · split
    · exact Ok.ite hs hs.pushRecord.freeHandle
    · exact hs
  · exact hs

theorem Ok.makeUnion {pkg : Nat} {req : Req} {ctx : Ctx} {hs : List Nat} {d : Reg} (h : Ok τ s) : Ok τ (makeUnion s pkg req ctx hs d) := by
  unfold Machine.makeUnion
  dsimp only
  split
  · exact h.settle
  · split
    · exact h.settle
    · next he2 => exact ((((h.takeHandle he2).makeHandle).foldl fun _ _ h1 => Ok.ite h1.refInc h1).broadcast).sameStaging

theorem Ok.adoptHandle {pkg : Nat} {req : Req} {h : Nat} (hs : Ok τ s) : Ok τ (adoptHandle s pkg req h) := by
  unfold Machine.adoptHandle
  dsimp only
  split
  · exact hs
  · split
    · exact hs.settle
    · refine Ok.settle (Ok.modWhere ?_)
      split
      · exact Ok.ite ((Ok.ite hs.refInc.refDec.refDec hs.refInc.refDec).modWhere) (Ok.ite hs.refInc.refDec.refDec hs.refInc.refDec)
      · exact Ok.ite hs.refInc.refDec.refDec hs.refInc.refDec

theorem Ok.execInstantUnitRequest {pkg : Nat} (h : Ok none s) : NextOk (execInstantUnitRequest pkg s) := by
  unfold Machine.execInstantUnitRequest
  refine NextOk.next ?_
  dsimp only
  split
  · exact h
  · split
    · exact Ok.ite h.sameStaging.makeUnion h.sameStaging
    · exact Ok.ite h.sameStaging.lapseHandle.settle h.sameStaging.settle
    · exact Ok.ite h.sameStaging.adoptHandle h.sameStaging
    · exact h.sameStaging

theorem Ok.dropCtl {k : Nat} (h : Ok τ s) : Ok τ (dropCtl s k) := h.upd

theorem Ok.releaseExport {pkg h frm : Nat} (hs : Ok τ s) : Ok τ (releaseExport s pkg h frm) := by
  unfold Machine.releaseExport
  split
  · exact Ok.ite hs.modLapse.refDec hs
  · exact hs

theorem Ok.execDropReport {k : Nat} (h : Ok none s) : NextOk (execDropReport k s) := by
  unfold Machine.execDropReport
  refine NextOk.next ?_
  split
  · exact h.dropCtl.addCounts
  · exact Ok.ite h.dropCtl.addCounts h.dropCtl.addCounts.releaseExport
  · exact h

theorem Ok.execExportNotice {k : Nat} (h : Ok none s) : NextOk (execExportNotice k s) := by
  unfold Machine.execExportNotice
  refine NextOk.next ?_
  split
  · exact h.dropCtl.addExport.upd
  · exact h

theorem Ok.execExportNoticeAck {k : Nat} (h : Ok none s) : NextOk (execExportNoticeAck k s) := by
  unfold Machine.execExportNoticeAck
  refine NextOk.next ?_
  split
  · exact h.dropCtl.refDec
  · exact h

theorem Ok.execProxyReport {k : Nat} (h : Ok none s) : NextOk (execProxyReport k s) := by
  unfold Machine.execProxyReport
  refine NextOk.next ?_
  split
  · exact (Ok.ite h.dropCtl.addCounts.markFault h.dropCtl.addCounts).releaseExport
  · exact h

theorem Ok.lapseProxy {pkg h : Nat} {cancel : Bool} (hs : Ok τ s) : Ok τ (lapseProxy s pkg h cancel) := by
  unfold Machine.lapseProxy
  split
  · exact Ok.ite hs (hs.modLapse.broadcast.foldl fun _ _ h1 => h1.unionChanged)
  · exact hs

theorem Ok.execCancelPropagation {k : Nat} (h : Ok none s) : NextOk (execCancelPropagation k s) := by
  unfold Machine.execCancelPropagation
  refine NextOk.next ?_
  split
  · split
    · exact h.dropCtl.lapseProxy
    · exact h.dropCtl
  · exact Ok.ite h.dropCtl.lapseHandle h.dropCtl
  · exact h

theorem Ok.execUnionChangePropagation {k : Nat} (h : Ok none s) : NextOk (execUnionChangePropagation k s) := by
  unfold Machine.execUnionChangePropagation
  refine NextOk.next ?_
  split
  · split
    · exact Ok.ite h.dropCtl.lapseProxy h.dropCtl.modLapse.broadcast.memberMoved
    · exact h.dropCtl
  · exact h

end Sys2Proof.Machine
end

section
/-! What the operations of Machine/Memory.lean keep (O59). -/

namespace Sys2Proof.Machine

set_option Elab.async false

variable {τ : Option Turn} {s : State}

theorem Ok.execLd {gd : Guard} {d a : Reg} {sz : BitVec 2} {sgn : Bool} {imm : BitVec 32} (h : Ok τ s) :
    NextOk (execLd gd d a sz sgn imm s) := h.issue fun _ _ _ h1 => h1.localAccess

theorem Ok.execSt {gd : Guard} {d a : Reg} {sz : BitVec 2} {imm : BitVec 32} (h : Ok τ s) : NextOk (execSt gd d a sz imm s) :=
  h.issue fun _ _ _ h1 => h1.localAccess

theorem Ok.execLdx {gd : Guard} {d a b : Reg} {sz : BitVec 2} {sgn : Bool} {sh : BitVec 2} (h : Ok τ s) :
    NextOk (execLdx gd d a b sz sgn sh s) := h.issue fun _ _ _ h1 => h1.localAccess

theorem Ok.execStx {gd : Guard} {d a b : Reg} {sz sh : BitVec 2} (h : Ok τ s) : NextOk (execStx gd d a b sz sh s) :=
  h.issue fun _ _ _ h1 => h1.localAccess

theorem Ok.windowOp {u : Turn} {t : Thread} {off eb : Nat} {ea : Word} {acc : Access} {relaxed isLoad : Bool} {kind path : Nat} {d : Reg}
    (h : Ok τ s) : Ok none (windowOp s u t off eb ea acc relaxed isLoad kind path d) := h.checked fun _ => Ok.ite h.abortOwn (Ok.ite
        h.waitEver (Ok.ite ((Ok.ite h.countOut h).askRelaxed) ((Ok.ite h.countOut h).ask)))

theorem Ok.execLdf {gd : Guard} {d a : Reg} {sz : BitVec 2} {sgn rlx : Bool} {imm : BitVec 32} (h : Ok τ s) :
    NextOk (execLdf gd d a sz sgn rlx imm s) := by
  unfold Machine.execLdf
  refine Ok.issue h fun _ _ _ h1 => ?_
  dsimp only
  split
  · exact h1.windowOp
  · exact h1.checked fun _ => h1.checked fun _ => h1.fabricAccess

theorem Ok.execStf {gd : Guard} {d a : Reg} {sz : BitVec 2} {rlx : Bool} {imm : BitVec 32} (h : Ok τ s) :
    NextOk (execStf gd d a sz rlx imm s) := by
  unfold Machine.execStf
  refine Ok.issue h fun _ _ _ h1 => ?_
  dsimp only
  split
  · exact h1.windowOp
  · exact h1.checked fun _ => h1.checked fun _ => h1.fabricAccess

theorem Ok.execTake {gd : Guard} {d a b : Reg} {sz : BitVec 3} {sgn : Bool} (h : Ok τ s) : NextOk (execTake gd d a b sz sgn s) :=
  h.issue fun _ _ _ h1 => h1.feAccess

theorem Ok.execPeek {gd : Guard} {d a b : Reg} {sz : BitVec 3} {sgn : Bool} (h : Ok τ s) : NextOk (execPeek gd d a b sz sgn s) :=
  h.issue fun _ _ _ h1 => h1.feAccess

theorem Ok.execPut {gd : Guard} {d a b : Reg} {sz : BitVec 3} (h : Ok τ s) : NextOk (execPut gd d a b sz s) :=
  h.issue fun _ _ _ h1 => h1.checked fun _ => h1.checked fun _ => Ok.ite h1.waitFor h1.feAccess

theorem Ok.execFeset {gd : Guard} {a b : Reg} {st : BitVec 2} (h : Ok τ s) : NextOk (execFeset gd a b st s) :=
  h.issue fun _ _ _ h1 => h1.blockAccess

theorem Ok.execFeget {gd : Guard} {d a : Reg} {o : Bool} (h : Ok τ s) : NextOk (execFeget gd d a o s) :=
  h.issue fun _ _ _ h1 => h1.blockAccess

theorem Ok.execAmo {gd : Guard} {d a b : Reg} {op : BitVec 4} {dbl rlx : Bool} (h : Ok τ s) : NextOk (execAmo gd d a b op dbl rlx s) :=
  h.issue fun _ _ _ h1 => h1.scratchAtomic

theorem Ok.execCas {gd : Guard} {d a b c : Reg} {_op : BitVec 4} {dbl rlx : Bool} (h : Ok τ s) :
    NextOk (execCas gd d a b c _op dbl rlx s) := h.issue fun _ _ _ h1 => h1.scratchAtomic

theorem Ok.execRed {gd : Guard} {a b : Reg} {op : BitVec 4} {dbl : Bool} (h : Ok τ s) : NextOk (execRed gd a b op dbl s) :=
  h.issue fun _ _ _ h1 => h1.scratchAtomic

theorem Ok.execWaitc {gd : Guard} {a : Reg} {imm : BitVec 32} (h : Ok τ s) : NextOk (execWaitc gd a imm s) :=
  h.issue fun _ _ _ h1 => Ok.ite h1.retire h1.waitFor

theorem Ok.execFence {gd : Guard} {d a : Reg} {mask : BitVec 8} (h : Ok τ s) : NextOk (execFence gd d a mask s) := by
  unfold Machine.execFence
  refine Ok.issue h fun _ _ _ h1 => ?_
  dsimp only
  split
  · split
    · exact h1.retire
    · exact h1.ask
  · exact h1.waitFor

theorem Ok.execXfence {gd : Guard} {a : Reg} {frm tgt : BitVec 8} (h : Ok τ s) : NextOk (execXfence gd a frm tgt s) :=
  h.issue fun _ _ _ h1 => Ok.ite h1.retire (Ok.ite h1.retire h1.retire)

theorem Ok.execTlook {gd : Guard} {d a : Reg} (h : Ok τ s) : NextOk (execTlook gd d a s) := h.issue fun _ _ _ h1 => h1.retire

theorem Ok.execTins {gd : Guard} {a b : Reg} {fill dirty : Bool} (h : Ok τ s) : NextOk (execTins gd a b fill dirty s) :=
  h.issue fun _ _ _ h1 => Ok.ite h1.raise (Ok.ite h1.sameMems.retire (Ok.ite h1.sameMems.retire h1.retire))

theorem Ok.execTdel {gd : Guard} {a : Reg} {wide : Bool} (h : Ok τ s) : NextOk (execTdel gd a wide s) :=
  h.issue fun _ _ _ h1 => Ok.ite h1.raise h1.sameMems.retire

end Sys2Proof.Machine
end

section
/-! What the operations of Machine/Tasks.lean keep (O59). -/

namespace Sys2Proof.Machine

set_option Elab.async false

variable {τ : Option Turn} {s : State}

theorem Ok.askJoin {u : Turn} {t : Thread} {r : Route} {w : Word} {why : Wait} {kind : Nat} {acc : Access} (h : Ok τ s) :
    Ok none (askJoin s u t r w why kind acc) := h.ask

theorem Ok.execFork {gd : Guard} {a b : Reg} {imm : BitVec 32} (h : Ok τ s) : NextOk (execFork gd a b imm s) :=
  h.issue fun _ _ _ h1 => Ok.ite (Ok.ite h1.retire h1.sameMems.pushArm.retire) (h1.checked fun _ => Ok.ite h1.retire h1.sameMems.askJoin)

theorem Ok.execJoin {gd : Guard} {a b : Reg} (h : Ok τ s) : NextOk (execJoin gd a b s) :=
  h.issue fun _ _ _ h1 => h1.checked fun _ => h1.askJoin.limitPark

theorem Ok.execExit {gd : Guard} {a : Reg} (h : Ok τ s) : NextOk (execExit gd a s) :=
  h.issue fun _ _ _ h1 => Ok.ite h1.exitThread.noTurn (h1.checked fun _ => Ok.ite h1.waitEver h1.askJoin)

theorem Ok.endTask {e : EP} {slot : Nat} {t : Thread} (h : Ok τ s) : Ok τ (endTask s e slot t) := by
  unfold Machine.endTask
  extract_lets s1 s2
  have h1 : Ok τ s1 := h.refDec
  have h2 : Ok τ s2 := by
    unfold s2
    split
    · exact h1.refDec
    · exact h1
  exact h2.modThr

theorem Ok.execWfw {gd : Guard} {d a : Reg} (h : Ok τ s) : NextOk (execWfw gd d a s) := by
  unfold Machine.execWfw
  refine h.issue fun _ t s1 h1 => ?_
  extract_lets s2 s3
  have h3 : Ok none s3 := h1.endTask.parkAt
  refine Ok.ite ?_ h3.checkGroup
  split
  · next he =>
    obtain ⟨t', -, he⟩ := Option.bind_eq_some_iff.1 he
    exact h3.workNow he
  · exact h1.endTask.retire

theorem Ok.execYield {gd : Guard} {a b : Reg} (h : Ok τ s) :
    NextOk (execYield gd a b s) := h.issue fun _ _ _ h1 => h1.checked fun _ => Ok.ite h1.waitEver (h1.withBanks fun _ h2
        => h2.meetErrors.checked fun _ => h2.meetErrors.checked fun _ => h2.meetErrors.checked fun _ => Ok.ite h2.meetErrors.raise (Ok.ite
            h2.meetErrors.retire (Ok.ite h2.meetErrors.waitEver ((((((h2.meetErrors.foldl fun _ _ h3
                => h3.abortPlain.spadWrite).answerRange).modCluster).refInc).endTask).parkAt))))

theorem Ok.execSpawn {gd : Guard} {a b : Reg} {sh : Bool} {imm : BitVec 32} (h : Ok τ s) : NextOk (execSpawn gd a b sh imm s) :=
  h.issue fun _ _ _ h1 => h1.checked fun _ => Ok.ite h1.retire h1.pushItem.retire

theorem Ok.execEnq {gd : Guard} {a b c : Reg} {ack : Bool} (h : Ok τ s) :
    NextOk (execEnq gd a b c ack s) := h.issue fun _ _ _ h1 => h1.checked fun _ => Ok.ite (Ok.ite h1.retire (Ok.ite h1.pushItem.retire
        (Ok.ite h1.retire (Ok.ite h1.raise h1.parkAt)))) (Ok.ite h1.retire (Ok.ite h1.countOut.modThr.ask.limitPark
            h1.countOut.modThr.send.retire))

theorem Ok.execDeq {gd : Guard} {d a c : Reg} (h : Ok τ s) :
    NextOk (execDeq gd d a c s) := h.issue fun _ _ _ h1 => h1.checked fun _ => Ok.ite h1.retire (Ok.ite
        h1.unitRead.modQueue.modQueue.retire (Ok.ite h1.modQueue.retire h1.modQueue.parkAt))

theorem Ok.execQres {gd : Guard} {d a b : Reg} (h : Ok τ s) : NextOk (execQres gd d a b s) :=
  h.issue fun _ _ _ h1 => h1.checked fun _ => Ok.ite h1.retire (Ok.ite h1.retire (Ok.ite h1.retire h1.send.modThr.retire))

theorem Ok.execSend {gd : Guard} {a b : Reg} {n : BitVec 5} {tag : BitVec 12} (h : Ok τ s) : NextOk (execSend gd a b n tag s) := by
  unfold Machine.execSend
  refine Ok.issue h fun _ _ _ h1 => ?_
  dsimp only
  split
  · exact h1.raise
  · split
    · exact h1.raise
    · split
      · exact h1.raise
      · split
        · exact h1.retire
        · split
          · exact h1.countOut.retire
          · exact h1.countOut.countIn.stickSelf.retire

theorem Ok.execRecv {gd : Guard} {d a : Reg} {n : BitVec 5} (h : Ok τ s) : NextOk (execRecv gd d a n s) := by
  unfold Machine.execRecv
  refine Ok.issue h fun _ _ _ h1 => ?_
  split
  · exact h1.raise
  · split
    · exact h1.waitFor
    · exact h1.retire

theorem Ok.execQprobe {gd : Guard} {d a b : Reg} (h : Ok τ s) : NextOk (execQprobe gd d a b s) := by
  unfold Machine.execQprobe
  refine Ok.issue h fun _ _ _ h1 => ?_
  split
  · exact h1.raise
  · exact Ok.ite (Ok.ite h1.retire h1.parkAt) h1.upd.sameStaging.parkAt

end Sys2Proof.Machine
end

section
/-! What the operations of Machine/Packets.lean keep (O59). -/

namespace Sys2Proof.Machine

set_option Elab.async false

variable {τ : Option Turn} {s : State}

theorem Ok.unreserveQueue {pkg q n : Nat} (h : Ok τ s) : Ok τ (Machine.unreserve s pkg q n) := h.modQueue

theorem Ok.tellDropped {e : EP} {p : Pkt} (h : Ok τ s) : Ok τ (tellDropped s e p) := by
  unfold Machine.tellDropped
  split
  · exact h.tellEngine
  · exact Ok.ite h.tellEngine h
  · exact h.send
  · exact h.send
  · split
    · exact h.freeLapsed
    · exact h
  · exact h.reportPiece
  · exact h.patternIn
  · exact h.unreserveQueue
  · exact h.unreserveQueue
  · exact h

theorem Ok.dropLapsed {k : Nat} {e : EP} {p : Pkt} {c : Carry} (h : Ok τ s) : Ok τ (dropLapsed s k e p c) :=
  h.takePkt.tellDropped.reportItem

theorem Ok.loseMigrant {o : Origin} (h : Ok τ s) : Ok τ (loseMigrant s o) := by
  unfold Machine.loseMigrant
  split
  · exact h.modThr
  · exact h

theorem Ok.refusePkt {k : Nat} {e : EP} {p : Pkt} (h : Ok τ s) : Ok τ (refusePkt s k e p) := by
  unfold Machine.refusePkt
  dsimp only
  split
  · exact h.takePkt.answer
  · exact h.takePkt.answer
  · exact h.takePkt.answer
  · exact h.takePkt.answer
  · exact h.takePkt.answer
  · exact h.takePkt.answer
  · exact h.takePkt.answer
  · exact h.takePkt.loseMigrant
  · exact h.takePkt.answer
  · exact h.takePkt.send
  · exact h.takePkt.answer
  · exact h.takePkt.stickNotice.tellEngine
  · exact Ok.ite h.takePkt h.takePkt.stickNotice.tellEngine
  · exact h.takePkt.stickNotice.send
  · exact h.takePkt.send
  · exact h.takePkt.mirrorTellLost
  · exact h.takePkt.settle
  · exact h.takePkt.reportPiece
  · exact h.takePkt.patternIn
  · exact h.takePkt.unreserveQueue
  · exact h.takePkt
  · exact h.takePkt
  · exact h.takePkt

theorem Ok.failOver {k : Nat} {p : Pkt} {dst : EP} {body : Body} (h : Ok τ s) : Ok τ (failOver s k p dst body) := by
  unfold Machine.failOver
  extract_lets own s1 s2
  have h1 : Ok τ s1 := h.dropPkt.declareLost
  have h2 : Ok τ s2 := by
    unfold s2
    split
    · exact h1.event
    · exact h1
  exact h2.send

theorem Ok.failBoth {k : Nat} {p : Pkt} {other : Nat} (h : Ok τ s) : Ok τ (failBoth s k p other) := by
  unfold Machine.failBoth
  dsimp only
  split
  · exact h.takePkt.declareLost.answer.tellEngine
  · exact h.takePkt.declareLost.answer

theorem Ok.unreachablePkt {k : Nat} {p : Pkt} (h : Ok τ s) : Ok τ (unreachablePkt s k p) := by
  unfold Machine.unreachablePkt
  split
  · exact h.modPkt
  · split
    · exact h.failOver
    · exact h.failBoth
    · exact h.refusePkt

theorem Ok.execMirrorTimeout {k : Nat} (h : Ok none s) : NextOk (execMirrorTimeout k s) := by
  unfold Machine.execMirrorTimeout
  refine NextOk.next ?_
  split
  · exact h
  · dsimp only
    split
    · split
      · split
        · exact h.countOut
        · split
          · exact h.countOut.failOver
          · exact h.countOut.failBoth
          · exact h.countOut
      · split
        · exact h
        · split
          · exact h.failOver
          · exact h.failBoth
          · exact h
    · split
      · exact h
      · split
        · exact h.dropPkt.declareLost.mirrorTellLost
        · split
          · exact h.failOver
          · exact h.failBoth
          · exact h

theorem Ok.exportCarry {own far : Nat} {c : Carry} (h : Ok τ s) : Ok τ (exportCarry s own far c).2 := by
  unfold Machine.exportCarry
  split
  · exact h
  · exact Ok.ite h.addExport (Ok.ite h h.refInc.upd)

theorem Ok.countChunk {gw : EP} {p : Pkt} {n : BitVec 32} {black : Bool} (h : Ok τ s) : Ok τ (countChunk s gw p n black) := by
  unfold Machine.countChunk
  split
  · exact h.modNi
  · exact h

theorem Ok.execGatewayEgress {k : Nat} (h : Ok none s) : NextOk (execGatewayEgress k s) := by
  unfold Machine.execGatewayEgress
  refine NextOk.next ?_
  split
  · exact h
  · exact Ok.ite h (Ok.ite h.unreachablePkt (Ok.ite h.failBoth (Ok.ite h.dropLapsed h.exportCarry.countChunk.modPkt)))

theorem Ok.enterPkg {k : Nat} {gw : EP} {p : Pkt} {c : Carry} (h : Ok τ s) : Ok τ (enterPkg s k gw p c) := by
  unfold Machine.enterPkg
  split
  · exact h.modPkt
  · exact h.refusePkt.reapProxy

theorem Ok.raiseProxy {own h : Nat} {inst : Instant} (hs : Ok τ s) : Ok τ (raiseProxy s own h inst) := by
  unfold Machine.raiseProxy
  split
  · exact Ok.ite hs.modLapse.memberMoved hs
  · exact hs

theorem Ok.execGatewayIngress {k : Nat} (h : Ok none s) : NextOk (execGatewayIngress k s) := by
  unfold Machine.execGatewayIngress
  refine NextOk.next ?_
  split
  · exact h
  · dsimp only
    split
    · exact h
    · split
      · split
        · exact h.sameStaging.countChunk.dropLapsed
        · split
          · exact Ok.ite h.sameStaging.countChunk.enterPkg (Ok.ite h.sameStaging.countChunk.dropLapsed ((Ok.ite h.sameStaging.countChunk
                h.sameStaging.countChunk.raiseProxy).enterPkg))
          · split
            · next he6 => exact ((h.sameStaging.countChunk.takeHandle he6).makeHandle).enterPkg
            · exact h.sameStaging.countChunk.refusePkt.reportItem
      · split
        · exact h.modPkt.sameStaging.countChunk.dropLapsed
        · split
          · exact Ok.ite h.modPkt.sameStaging.countChunk.enterPkg (Ok.ite h.modPkt.sameStaging.countChunk.dropLapsed ((Ok.ite
                h.modPkt.sameStaging.countChunk h.modPkt.sameStaging.countChunk.raiseProxy).enterPkg))
          · split
            · next he6 => exact ((h.modPkt.sameStaging.countChunk.takeHandle he6).makeHandle).enterPkg
            · exact h.modPkt.sameStaging.countChunk.refusePkt.reportItem

theorem Ok.regionOpened {p : Pkt} {r : Option Nat} {target : CodeAddr} {reg : Reg} (h : Ok τ s) : Ok τ (regionOpened s p r target reg) := by
  unfold Machine.regionOpened
  split
  · exact h.modThr
  · exact h.deliverAbort
  · exact Ok.ite h.abortRegion h
  · exact h

theorem Ok.regionReleased {dk id uid : Nat} (h : Ok τ s) : Ok τ (regionReleased s dk id uid) := by
  unfold Machine.regionReleased
  split
  · exact h
  · split
    · exact h
    · split
      · exact h.modDie.modThr
      · exact h

theorem Ok.lapsedRegion {k : Nat} {p : Pkt} {m : RMsg} (h : Ok τ s) : Ok τ (lapsedRegion s k p m) := by
  unfold Machine.lapsedRegion
  dsimp only
  split
  · exact Ok.ite h.dropLapsed.modDie h.dropLapsed
  · exact h.dropLapsed

theorem Ok.execReplyArrival {k : Nat} (h : Ok none s) : NextOk (execReplyArrival k s) := by
  unfold Machine.execReplyArrival
  refine NextOk.next (Ok.onPacket h fun _ => ?_)
  dsimp only
  split
  · exact Ok.ite h.dropPkt (Ok.ite h.dropLapsed h.dropPkt.settle)
  · split
    · exact h.dropLapsed
    · split
      · exact h.refusePkt
      · split
        · exact h.dropPkt.modWhere.answer
        · exact h.dropPkt
  · split
    · exact h.dropLapsed
    · split
      · exact h.dropPkt.modWhere.answer
      · exact h.dropPkt
  · split
    · exact h.lapsedRegion
    · split
      · exact h.dropPkt.regionOpened
      · exact h.dropPkt.regionReleased
      · exact h
  · exact h

theorem Ok.execMessageInjection {k : Nat} (h : Ok none s) : NextOk (execMessageInjection k s) := by
  unfold Machine.execMessageInjection
  refine NextOk.next ?_
  split
  · split
    · exact h.injectMsg.modThr
    · exact h
  · exact h

theorem Ok.execMessageDelivery {k : Nat} (h : Ok none s) : NextOk (execMessageDelivery k s) := by
  unfold Machine.execMessageDelivery
  refine NextOk.next (Ok.onPacket h fun _ => ?_)
  split
  · dsimp only
    split
    · exact h.dropLapsed
    · split
      · exact h.refusePkt
      · split
        · exact Ok.ite h.dropPkt.sameMems h.takePkt.modThr
        · exact h.refusePkt
        · exact h.dropPkt.sameMems
  · exact h

theorem Ok.dropHeld {e : EP} {k : Nat} {h : HeldMsg} (hs : Ok τ s) : Ok τ (dropHeld s e k h) := Ok.ite hs.sameMems.countIn hs.sameMems

theorem Ok.execHeldMessageRelease {e k : Nat} (h : Ok none s) : NextOk (execHeldMessageRelease e k s) := by
  unfold Machine.execHeldMessageRelease
  refine NextOk.next ?_
  split
  · exact h
  · split
    · exact h
    · split
      · exact h.dropHeld.reportItem
      · split
        · exact Ok.ite h.dropHeld.modThr h
        · exact Ok.ite h.dropHeld.answer h.dropHeld
        · exact h

theorem Ok.execRemoteEnqArrival {k : Nat} (h : Ok none s) : NextOk (execRemoteEnqArrival k s) := by
  unfold Machine.execRemoteEnqArrival
  refine NextOk.next (Ok.onPacket h fun _ => ?_)
  split
  · exact Ok.ite h.dropLapsed.unreserveQueue (Ok.ite h.refusePkt (Ok.ite h.takePkt.unreserveQueue.pushItem.answer
        h.takePkt.unreserveQueue.pushItem))
  · exact h

theorem Ok.execQresRequestArrival {k : Nat} (h : Ok none s) : NextOk (execQresRequestArrival k s) := by
  unfold Machine.execQresRequestArrival
  refine NextOk.next (Ok.onPacket h fun _ => ?_)
  split
  · exact Ok.ite h.dropLapsed (Ok.ite h.refusePkt (Ok.ite h.dropPkt.send h.dropPkt.modQueue.send))
  · exact h

theorem Ok.execQresGrantArrival {k : Nat} (h : Ok none s) : NextOk (execQresGrantArrival k s) := by
  unfold Machine.execQresGrantArrival
  refine NextOk.next (Ok.onPacket h fun _ => ?_)
  split
  · exact Ok.ite h.dropLapsed (Ok.ite ((Ok.ite h.dropPkt.settle h.dropPkt).modWhere) (Ok.ite (Ok.ite h.dropPkt.settle h.dropPkt) ((Ok.ite
        h.dropPkt.settle h.dropPkt).send)))
  · exact h

theorem Ok.execReservationReturn {k : Nat} (h : Ok none s) : NextOk (execReservationReturn k s) := by
  unfold Machine.execReservationReturn
  refine NextOk.next (Ok.onPacket h fun _ => ?_)
  split
  · exact Ok.ite h.dropLapsed (Ok.ite h.refusePkt h.dropPkt.unreserveQueue)
  · exact h

theorem Ok.execDtlEntryTimeout {e k : Nat} (h : Ok none s) : NextOk (execDtlEntryTimeout e k s) := by
  unfold Machine.execDtlEntryTimeout
  refine NextOk.next ?_
  dsimp only
  split
  · exact h
  · refine Ok.ite h (Ok.entryAnswer (h.sameMems fun c => ?_)).admitAll
    split <;> rfl

end Sys2Proof.Machine
end

section
/-! What the operations of Machine/Visitors.lean keep (O59). -/

namespace Sys2Proof.Machine

set_option Elab.async false

variable {τ : Option Turn} {s : State}

theorem Ok.modMem {e : EP} {f : MemCore → MemCore} (h : Ok τ s) : Ok τ (s.modMem e f) := h.sameMems

theorem Ok.execProgramCommandArrival {k : Nat} (h : Ok none s) : NextOk (execProgramCommandArrival k s) := by
  unfold Machine.execProgramCommandArrival
  refine NextOk.next (Ok.onPacket h fun _ => ?_)
  split
  · exact Ok.ite h.dropLapsed (Ok.ite h.refusePkt (Ok.ite h h.dropPkt.modMem.refInc.answer))
  · exact h

theorem Ok.deliverCommand {e : EP} {slot : Nat} {ws : Packet} {c : Carry} (h : Ok τ s) : Ok τ (deliverCommand s e slot ws c) := by
  unfold Machine.deliverCommand
  dsimp only
  split
  · exact h.deliver
  · split
    · exact h.deliver.modThr.modThr
    · exact h.deliver.modThr

theorem Ok.execProgramCommandDelivery {e : Nat} (h : Ok none s) : NextOk (execProgramCommandDelivery e s) := by
  unfold Machine.execProgramCommandDelivery
  refine NextOk.next ?_
  dsimp only
  split
  · split
    · exact h.modMem.discardPacket
    · exact h
  · split
    · exact h
    · split
      · split
        · split
          · exact h.modMem.deliverCommand
          · exact h
        · exact h
      · exact h

theorem Ok.placeMigrant {e : EP} {n : Nat} {m : Migrant} (h : Ok τ s) : Ok τ (placeMigrant s e n m) := h.draw2.upd.sameMems

theorem Ok.execMigrantArrival {k : Nat} (h : Ok none s) : NextOk (execMigrantArrival k s) := by
  unfold Machine.execMigrantArrival
  refine NextOk.next (Ok.onPacket h fun _ => ?_)
  split
  · dsimp only
    split
    · exact h.dropLapsed
    · split
      · exact h.refusePkt
      · split
        · exact (Ok.ite h.dropPkt h.dropPkt.refInc).placeMigrant
        · exact Ok.ite h ((Ok.ite h.dropPkt h.dropPkt.refInc).modMem)
  · exact h

theorem Ok.execMigrantQueueAdmit {e : Nat} (h : Ok none s) : NextOk (execMigrantQueueAdmit e s) := by
  unfold Machine.execMigrantQueueAdmit
  refine NextOk.next ?_
  split
  · exact h.modMem.placeMigrant
  · exact h

theorem Ok.execMigrantReturn {k : Nat} (h : Ok none s) : NextOk (execMigrantReturn k s) := by
  unfold Machine.execMigrantReturn
  refine NextOk.next (Ok.onPacket h fun _ => ?_)
  split
  · dsimp only
    split
    · exact h.dropLapsed
    · split
      · exact h.refusePkt
      · split
        · exact h.dropPkt
        · split
          · exact Ok.ite h.dropPkt.freeLapsed h.dropPkt.endThread
          · split
            · exact (Ok.ite h.dropPkt h.dropPkt.refInc.refDec).modThr
            · exact ((Ok.ite h.dropPkt h.dropPkt.refInc.refDec).modThr).keep (((Ok.ite h.dropPkt h.dropPkt.refInc.refDec).modThr).trapNow)
  · exact h

theorem Ok.fillTlbs {x : TlbEntry} {fill : List (Nat × Nat)} (h : Ok τ s) : Ok τ (fillTlbs s x fill) := by
  unfold Machine.fillTlbs
  refine Ok.foldl h fun s1 _ h1 => ?_
  split
  · split
    · exact h1.sameMems
    · exact h1.modDie
    · exact h1.modCluster
    · exact h1

theorem Ok.tellWaiters {dk mark : Nat} {w : Walk} (h : Ok τ s) : Ok τ (tellWaiters s dk w mark) :=
  h.mapCores fun _ => KeepMem.ite ⟨id, id, id⟩ ⟨id, id, id⟩

theorem Ok.endWalk {dk : Nat} {w : Walk} {leaf : Option TlbEntry} (h : Ok τ s) : Ok τ (endWalk s dk w leaf) := h.tellWaiters.modDie

theorem Ok.execPageWalkStep {dk k : Nat} (h : Ok none s) : NextOk (execPageWalkStep dk k s) := by
  unfold Machine.execPageWalkStep
  refine NextOk.next ?_
  dsimp only
  split
  · exact h
  · split
    · exact h
    · split
      · exact (Ok.ite h.unitRead h).modDie
      · exact Ok.ite ((Ok.ite h.unitRead h).endWalk) (((Ok.ite h.unitRead h).modDie).fillTlbs)
      · exact (Ok.ite h.unitRead h).endWalk

theorem Ok.visitPkg {dom pkg : Nat} {acc : Int × Bool} (h : Ok τ s) : Ok τ (visitPkg s dom acc pkg).2 := by
  have hcores (white : List (Nat × BitVec 32 × Bool) → List (Nat × BitVec 32 × Bool)) :
      Ok τ { s with cores := s.cores.map fun (x : Nat × Core) => if epPkg x.1 == pkg then (x.1, { x.2 with ni := white x.2.ni }) else x } :=
    h.mapCores fun _ => KeepMem.ite ⟨id, id, id⟩ ⟨id, id, id⟩
  exact (hcores _).sameStaging

theorem Ok.execQprobeReturn {k : Nat} (h : Ok none s) : NextOk (execQprobeReturn k s) := by
  unfold Machine.execQprobeReturn
  refine NextOk.next ?_
  dsimp only
  split
  · exact h
  · split
    · exact (h.foldlSnd fun _ _ h1 => h1.visitPkg).sameStaging
    · exact ((h.foldlSnd fun _ _ h1 => h1.visitPkg).sameStaging).modWhere

end Sys2Proof.Machine
end

section
/-! What the operations of Machine/Regions.lean keep (O59). -/

namespace Sys2Proof.Machine

set_option Elab.async false

variable {τ : Option Turn} {s : State}

theorem Ok.execRegionBeginRequest {dk k : Nat} (h : Ok none s) : NextOk (execRegionBeginRequest dk k s) := by
  unfold Machine.execRegionBeginRequest
  refine NextOk.next ?_
  split
  · split
    · exact h.dropLapsed
    · dsimp only
      split
      · exact h.dropPkt
      · split
        · exact h.dropPkt.modDie.sendRegion
        · exact h.dropPkt.sendRegion
  · exact h

theorem Ok.breakCycle {dk id q n : Nat} (h : Ok τ s) : Ok τ (breakCycle s dk id q n) := by
  induction n generalizing s with
  | zero => exact h
  | succ n ih =>
    unfold Machine.breakCycle
    split
    · exact h
    · split
      · exact ih h.abortRegion
      · exact h

theorem Ok.addPreds {dk id : Nat} {qs : List Nat} (h : Ok τ s) : Ok τ (addPreds s dk id qs) := h.modRegion

theorem Ok.answerRegion {a : RAccess} {x : Answer} (h : Ok τ s) : Ok τ (answerRegion s a x) := h.respond

theorem Ok.finishAccess {a : RAccess} {last : Access} {fl : Nat} (h : Ok τ s) : Ok τ (finishAccess s a last fl) := by
  unfold Machine.finishAccess
  split
  · split
    · exact h.modThr
    · exact h
  · exact h.answerRegion

theorem Ok.noteElement {a : RAccess} {w : Nat} (h : Ok τ s) : Ok τ (noteElement s a w) := by
  unfold Machine.noteElement
  split
  · exact h.modThr
  · exact h

theorem Ok.setAccess {dk : Nat} {a : RAccess} (h : Ok τ s) : Ok τ (setAccess s dk a) := h.modDie

theorem Ok.performWord {dk : Nat} {a : RAccess} {w : Nat} {mine rest : List (Nat × Access)} {needR needW : Bool} (h : Ok τ s) :
    Ok τ (performWord s dk a w mine rest needR needW) := Ok.ite h.sameMems.modRegion.endAccess.finishAccess h.sameMems.modRegion.setAccess

theorem Ok.accessWord {dk : Nat} {a : RAccess} {frm : List Nat} (h : Ok τ s) : Ok τ (accessWord s dk a frm) := by
  unfold Machine.accessWord
  split
  · dsimp only
    split
    · exact h
    · split
      · exact h.setAccess
      · split
        · exact (((Ok.ite (Ok.ite h.meetLineErrors h.meetErrors) h).endAccess).noteElement).answerRegion
        · exact Ok.ite (((Ok.ite (Ok.ite h.meetLineErrors h.meetErrors) h).setAccess).askAbort) ((Ok.ite (Ok.ite h.meetLineErrors
              h.meetErrors) h).performWord)

theorem Ok.edgeStep {dk : Nat} {a : RAccess} {frm : List Nat} (h : Ok τ s) : Ok τ (edgeStep s dk a frm) := by
  unfold Machine.edgeStep
  extract_lets s1 s2
  have h1 : Ok τ s1 := h.foldl fun _ _ h1 => h1.breakCycle
  have h2 : Ok τ s2 := h1.addPreds
  refine Ok.ite h1 (Ok.ite h1.setAccess ?_)
  split
  · exact h2.setAccess.sendRegion
  · exact h2.sendRegion

theorem Ok.accessArrives {dk i : Nat} {p : Pkt} {a : RAccess} (h : Ok τ s) :
    Ok τ (accessArrives s dk i p a) := Ok.ite (Ok.ite ((Ok.ite ((Ok.ite h.dropPkt.reportItem.countIn h.dropPkt.reportItem).answerRegion)
        (Ok.ite h.dropPkt.reportItem.countIn h.dropPkt.reportItem)).askAbort) (Ok.ite ((Ok.ite h.dropPkt.reportItem.countIn
            h.dropPkt.reportItem).answerRegion) (Ok.ite h.dropPkt.reportItem.countIn h.dropPkt.reportItem))) (Ok.ite (Ok.ite ((Ok.ite
                h.dropPkt.countIn h.dropPkt).answerRegion) (Ok.ite h.dropPkt.countIn h.dropPkt)) (Ok.ite ((Ok.ite h.dropPkt.countIn
                    h.dropPkt).answerRegion) h.dropPkt.modDie))

theorem Ok.accessStep {dk : Nat} {a : RAccess} (h : Ok τ s) : Ok τ (accessStep s dk a) := by
  unfold Machine.accessStep
  split
  · split
    · exact Ok.ite h h.setAccess.sendRegion
    · exact h
    · exact h.edgeStep
    · dsimp only
      split
      · exact h
      · split
        · split
          · next he5 => exact Ok.ite (Ok.ofSnd he5 h.needLine) (((Ok.ofSnd he5 h.needLine).nextTicket).setAccess)
          · next he5 => exact (Ok.ofSnd he5 h.needLine).accessWord
        · exact h.accessWord

theorem Ok.execRegionAccessEdges {dk k : Nat} (h : Ok none s) : NextOk (execRegionAccessEdges dk k s) := by
  unfold Machine.execRegionAccessEdges
  refine NextOk.next ?_
  dsimp only
  split
  · exact h.accessArrives
  · split
    · exact h.dropPkt.edgeStep
    · exact h.dropPkt
  · split
    · exact h.dropPkt.setAccess
    · exact h.dropPkt
  · exact h
  · split
    · exact Ok.ite h h.accessStep
    · exact h

theorem Ok.releaseCommitted {dk id : Nat} (h : Ok τ s) : Ok τ (releaseCommitted s dk id) := by
  unfold Machine.releaseCommitted
  split
  · exact h
  · split
    · exact h
    · split
      · exact h.sendRegion
      · split
        · exact h.modDie
        · exact h

theorem Ok.decideCommit {dk id : Nat} (h : Ok τ s) : Ok τ (decideCommit s dk id) := by
  unfold Machine.decideCommit
  split
  · exact h
  · exact Ok.ite h.abortRegion ((h.modDie.foldl fun _ _ h1 => h1.sendRegion).releaseCommitted)

theorem Ok.decideAll {dk n : Nat} (h : Ok τ s) : Ok τ (decideAll s dk n) := by
  induction n generalizing s with
  | zero => exact h
  | succ n ih =>
    unfold Machine.decideAll
    split
    · exact ih h.decideCommit
    · exact h

theorem Ok.startWait {dk id : Nat} (h : Ok τ s) : Ok τ (startWait s dk id) := h.modRegion

theorem Ok.execRegionCommitRequest {dk k : Nat} (h : Ok none s) : NextOk (execRegionCommitRequest dk k s) := by
  unfold Machine.execRegionCommitRequest
  refine NextOk.next ?_
  split
  · refine Ok.ite h.dropLapsed ?_
    dsimp only
    split
    · refine Ok.ite ?_ h.dropPkt.releaseCommitted
      exact (h.dropPkt.modRegion.foldl fun _ _ h1 => h1.sendRegion).startWait.decideAll
    · exact h.dropPkt
  · exact Ok.ite h.dropLapsed h.dropPkt.answer
  · exact h

theorem Ok.execSealAtOwner {dk k : Nat} (h : Ok none s) : NextOk (execSealAtOwner dk k s) := by
  unfold Machine.execSealAtOwner
  refine NextOk.next ?_
  split
  · exact Ok.ite h.dropPkt h.dropPkt.sameMems.sendRegion
  · exact h

theorem Ok.execSealAck {dk k : Nat} (h : Ok none s) : NextOk (execSealAck dk k s) := by
  unfold Machine.execSealAck
  refine NextOk.next ?_
  split
  · exact h.dropPkt.modRegion.startWait.decideAll
  · exact h

theorem Ok.resolveEntry {dk id : Nat} {e : EP} {req : Req} {carry : Carry} {v : VEntry} (h : Ok τ s) :
    Ok τ (resolveEntry s dk id e req carry v) := by
  unfold Machine.resolveEntry
  dsimp only
  split
  · exact h.spadPut.answerRange
  · split
    · exact h.putParts
    · exact h.putParts.modRegion.mirrorOn

theorem Ok.dropVersions {e : EP} {id : Nat} (h : Ok τ s) : Ok τ (dropVersions s e id) := h.sameMems.foldl fun _ _ h1 => h1.serveRange

theorem Ok.commitEntry {dk id : Nat} {e : EP} {ticket : Nat} {req : Req} {carry : Carry} {v : VEntry} (h : Ok τ s) :
    Ok τ (commitEntry s dk id e ticket req carry v) := by
  unfold Machine.commitEntry
  dsimp only
  split
  · exact h.resolveEntry.sameMems.serveRange
  · split
    · next he2 => exact ((Ok.ofSnd he2 h.needLine).resolveEntry).sameMems
    · next he2 => exact Ok.ofSnd he2 h.needLine

theorem Ok.execResolveAtOwner {dk k : Nat} (h : Ok none s) : NextOk (execResolveAtOwner dk k s) := by
  unfold Machine.execResolveAtOwner
  refine NextOk.next ?_
  split
  · exact Ok.ite ((h.foldl fun _ _ h1 => h1.commitEntry).heldAtPort) ((((h.foldl fun _ _ h1
        => h1.commitEntry).dropPkt).dropVersions).sendRegion)
  · exact h

theorem Ok.execResolveAck {dk k : Nat} (h : Ok none s) : NextOk (execResolveAck dk k s) := by
  unfold Machine.execResolveAck
  refine NextOk.next ?_
  split
  · exact h.dropPkt.modRegion.releaseCommitted
  · exact h

theorem Ok.discardDone {dk id : Nat} {e : EP} (h : Ok τ s) : Ok τ (discardDone s dk id e) := by
  unfold Machine.discardDone
  split
  · exact Ok.ite h (Ok.ite h.modRegion (Ok.ite h.modDie h.modDie.sendRegion))
  · exact h

theorem Ok.execDiscardAtOwner {dk k : Nat} (h : Ok none s) : NextOk (execDiscardAtOwner dk k s) := by
  unfold Machine.execDiscardAtOwner
  refine NextOk.next ?_
  split
  · exact h.dropPkt.dropVersions.sendRegion
  · exact h

theorem Ok.abortReaches {e : EP} {n id cause : Nat} {target : CodeAddr} {reg : Reg} (h : Ok τ s) :
    Ok τ (abortReaches s e n id cause target reg) := by
  unfold Machine.abortReaches
  split
  · exact Ok.ite h (Ok.ite h.modThr (Ok.ite h.modThr.modThr (Ok.ite h.modThr.modThr h.deliverAbort)))
  · exact h

theorem Ok.execAbortDelivery {dk k : Nat} (h : Ok none s) : NextOk (execAbortDelivery dk k s) := by
  unfold Machine.execAbortDelivery
  refine NextOk.next ?_
  split
  · exact Ok.ite h.dropPkt.abortRegion h.dropPkt
  · exact h.dropPkt.discardDone
  · dsimp only
    split
    · split
      · exact h.dropPkt.abortReaches
      · exact h.dropPkt.abortReaches
    · exact h.dropPkt.modWhere
    · exact h.dropPkt
  · exact h

theorem Ok.execRegionInstantTest {dk k : Nat} (h : Ok none s) : NextOk (execRegionInstantTest dk k s) := by
  unfold Machine.execRegionInstantTest
  refine NextOk.next ?_
  split
  · exact Ok.ite h.abortRegion h
  · exact h

theorem Ok.execRegionWaitTimeout {dk k : Nat} (h : Ok none s) : NextOk (execRegionWaitTimeout dk k s) := by
  unfold Machine.execRegionWaitTimeout
  refine NextOk.next ?_
  split
  · exact Ok.ite h.abortRegion h
  · exact h

end Sys2Proof.Machine
end

section
/-! What the operations of Machine/Contain.lean keep (O59). -/

namespace Sys2Proof.Machine

set_option Elab.async false

variable {τ : Option Turn} {s : State}

theorem Ok.reopenRect {dk r : Nat} (h : Ok τ s) : Ok τ (reopenRect s dk r) :=
  Ok.ite (h.setArecState.modDie.foldl fun _ _ h1 => h1.sameMems) h

theorem Ok.arecWrite {dk r : Nat} {w : BitVec 32} (h : Ok τ s) : Ok τ (arecWrite s dk r w) :=
  Ok.ite h (Ok.ite h.event (Ok.ite h.modDie.reopenRect h.modDie))

theorem Ok.execArecWrite {dk r : Nat} {w : BitVec 32} (h : Ok none s) : NextOk (execArecWrite dk r w s) := NextOk.next h.arecWrite

theorem Ok.loseHandle {pkg h : Nat} (hs : Ok τ s) : Ok τ (loseHandle s pkg h) := hs.markFault.refDec

theorem Ok.loseInside {e : EP} {slot : Nat} (h : Ok τ s) : Ok τ (loseInside s e slot) := by
  unfold Machine.loseInside
  split
  · exact h
  · dsimp only
    split
    · exact h.vacate
    · refine Ok.loseHandle (Ok.vacate ?_)
      split
      · exact h.endRegion.returnRes.refDec
      · exact h.endRegion.returnRes

theorem Ok.loseCore {e : EP} (h : Ok τ s) : Ok τ (loseCore s e) := by
  unfold Machine.loseCore
  dsimp only
  refine Ok.foldl (((((h.foldl fun _ _ h1 => h1.loseInside).foldl fun _ _ h1 => h1.loseHandle).sameMems).foldl fun _ _ h1
      => h1.loseHandle).modCluster) fun s1 _ h1 => ?_
  split
  · exact h1.killImages.endGroup
  · exact h1.killImages

theorem Ok.discardInside {inside : List EP} {p : Pkt} (h : Ok τ s) : Ok τ (discardInside s inside p) := by
  unfold Machine.discardInside
  dsimp only
  split
  · exact Ok.ite (Ok.ite h.countIn h) ((Ok.ite h.countIn h).tellEngine)
  · exact Ok.ite (Ok.ite h.countIn h) (Ok.ite (Ok.ite h.countIn h) ((Ok.ite h.countIn h).tellEngine))
  · exact Ok.ite (Ok.ite h.countIn h) ((Ok.ite h.countIn h).reportPiece)
  · exact Ok.ite (Ok.ite h.countIn h) ((Ok.ite h.countIn h).send)
  · exact Ok.ite (Ok.ite h.countIn h) ((Ok.ite h.countIn h).send)
  · exact Ok.ite (Ok.ite h.countIn h) ((Ok.ite h.countIn h).send)
  · exact Ok.ite (Ok.ite h.countIn h) ((Ok.ite h.countIn h).settle)
  · exact Ok.ite (Ok.ite h.countIn h) ((Ok.ite h.countIn h).settle)
  · exact Ok.ite (Ok.ite h.countIn h) ((Ok.ite h.countIn h).settle)
  · exact Ok.ite (Ok.ite h.countIn h) ((Ok.ite h.countIn h).settle)
  · exact Ok.ite (Ok.ite h.countIn h) ((Ok.ite h.countIn h).settle)
  · exact Ok.ite (Ok.ite h.countIn h) ((Ok.ite h.countIn h).settle)
  · exact Ok.ite (Ok.ite h.countIn h) ((Ok.ite h.countIn h).settle)
  · exact Ok.ite (Ok.ite h.countIn h) ((Ok.ite h.countIn h).settle)
  · exact Ok.ite (Ok.ite h.countIn h) ((Ok.ite h.countIn h).settle)
  · exact Ok.ite h.countIn h

theorem Ok.dropInside {inside : List EP} (h : Ok τ s) : Ok τ (dropInside s inside) := h.draw2.upd.foldl fun _ _ h1 => h1.discardInside

theorem Ok.refuseAccesses {dk : Nat} {inside : List EP} (h : Ok τ s) : Ok τ (refuseAccesses s dk inside) :=
  h.foldl fun _ _ h1 => h1.endAccess.answerRegion

theorem Ok.dropWaiters {inside : List EP} (h : Ok τ s) : Ok τ (dropWaiters s inside) := by
  unfold Machine.dropWaiters
  dsimp only
  refine Ok.foldl ?_ fun _ _ h1 => h1.admitAll
  refine Ok.mapCores h fun _ => ⟨id, id, id⟩

theorem Ok.endMigrants {inside : List EP} (h : Ok none s) : Ok none (endMigrants s inside) := by
  unfold Machine.endMigrants
  dsimp only
  refine Ok.foldl ?_ fun _ _ h1 => Ok.ite h1.reapProxy h1
  refine Ok.upd (Ok.foldl ?_ fun _ _ h1 => Ok.ite h1 h1.refDec)
  refine Ok.mapCores ?_ fun _ => ⟨id, id, id⟩
  refine Ok.foldl h fun s1 _ h1 => ?_
  split
  · exact h1.endRegion.leaveVisitor
  · exact h1

theorem Ok.dropEngines {inside : List EP} (h : Ok τ s) : Ok τ (dropEngines s inside) := h.upd.foldl fun _ _ h1 => h1.completeCmd

theorem Ok.abortInside {dk : Nat} {inside : List EP} (h : Ok τ s) : Ok τ (abortInside s dk inside) := h.foldl fun _ _ h1 => h1.abortRegion

theorem Ok.ackInside {dk : Nat} {inside : List EP} (h : Ok τ s) : Ok τ (ackInside s dk inside) :=
  h.foldl fun _ _ h1 => h1.modRegion.releaseCommitted.discardDone

theorem Ok.execBoundaryClose {dk r : Nat} (h : Ok none s) :
    NextOk (execBoundaryClose dk r s) := NextOk.next (Ok.ite h ((((h.modDie.dropInside.endMigrants.dropWaiters.dropEngines.foldl fun _ _ h1
        => h1.loseCore).abortInside).refuseAccesses).ackInside))

theorem Ok.execRectangleResetComplete {dk r : Nat} (h : Ok none s) : NextOk (execRectangleResetComplete dk r s) := by
  unfold Machine.execRectangleResetComplete
  refine NextOk.next (Ok.ite h ?_)
  exact (h.foldl fun _ _ h1 => h1.modKeep fun _ => ⟨fun _ => rfl, fun _ => rfl, fun _ => rfl⟩).setArecState.event

theorem Ok.execContainmentRelease {dk r : Nat} (h : Ok none s) : NextOk (execContainmentRelease dk r s) := NextOk.next h.reopenRect

end Sys2Proof.Machine
end

section
/-! What the operations of Machine/Collect.lean keep (O59). -/

namespace Sys2Proof.Machine

set_option Elab.async false

variable {τ : Option Turn} {s : State}

theorem Ok.collMeet {pkg : Nat} {c : Coll} {off n : Nat} (h : Ok τ s) : Ok τ (collMeet s pkg c off n) := by
  unfold Machine.collMeet
  dsimp only
  split
  · exact h.meetErrors
  · refine Ok.foldl h fun s1 _ h1 => ?_
    split
    · exact Ok.ite h1.unitWalk.unitRead h1.unitWalk
    · exact h1.unitWalk

theorem Ok.collWrite {pkg : Nat} {c : Coll} {off : Nat} {data : List (BitVec 8)} (h : Ok τ s) : Ok τ (collWrite s pkg c off data) :=
  Ok.ite (h.foldl fun _ _ h1 => h1.send.modColl) (Ok.ite (h.foldl fun _ _ h1 => h1.send.modColl) h.failColl)

theorem Ok.ownPart {pkg : Nat} {c : Coll} {i : Nat} {data : List (BitVec 8)} (h : Ok τ s) : Ok τ (ownPart s pkg c i data) := h.modColl

theorem Ok.takeChunk {pkg : Nat} {c : Coll} {rank i : Nat} {data : List (BitVec 8)} (h : Ok τ s) : Ok τ (takeChunk s pkg c rank i data) :=
  Ok.ite (Ok.ite h.ownPart (h.foldl fun _ _ h1 => h1.sameMems)) h.collWrite

theorem Ok.completeColl {pkg : Nat} {c : Coll} (h : Ok τ s) : Ok τ (completeColl s pkg c) :=
  Ok.ite h.dropEarly.sameStaging.modIssuer.sendNotice h.dropEarly.sameStaging.modIssuer

theorem Ok.sendChunk {pkg : Nat} {c : Coll} {rank i : Nat} {data : List (BitVec 8)} (h : Ok τ s) : Ok τ (sendChunk s pkg c rank i data) :=
  by
  unfold Machine.sendChunk
  dsimp only
  split
  · exact h.modColl.sameStaging.takeChunk
  · split
    · next l _ => exact Ok.ite h.modColl.sameStaging.send h.modColl.sameStaging.failColl
    · exact h.modColl.sameStaging.failColl

theorem Ok.chunkIn {pkg : Nat} {c : Coll} {frm i : Nat} {hdr : List Nat} {data : List (BitVec 8)} (h : Ok τ s) :
    Ok τ (chunkIn s pkg c frm i hdr data) := Ok.ite h (Ok.ite h.failColl (Ok.ite h h.modColl.takeChunk))

theorem Ok.takeEarly {s' : State} {pkg : Nat} {c : Coll} (h : Ok τ s) (he : takeEarly s pkg c = some s') : Ok τ s' := by
  unfold Machine.takeEarly at he
  split at he
  · cases he
  · split at he <;> cases he
    · exact h.sameStaging.chunkIn
    · exact h.sameStaging.stopColl

theorem Ok.execCollChunkSend {pkg k : Nat} (h : Ok none s) : NextOk (execCollChunkSend pkg k s) := by
  unfold Machine.execCollChunkSend
  refine NextOk.next ?_
  split
  · exact h
  · dsimp only
    split
    · exact Ok.ite (Ok.ite h h.completeColl) h
    · split
      · next he3 => exact h.takeEarly he3
      · split
        · exact Ok.ite h h.completeColl
        · split
          · exact h.failColl
          · split
            · exact h.modColl.collWrite
            · split
              · exact h
              · split
                · split
                  · exact h.collMeet.sendChunk
                  · exact h.collMeet.failColl
                  · exact h.collMeet
                · exact h

theorem Ok.execCollChunkArrival {k : Nat} (h : Ok none s) : NextOk (execCollChunkArrival k s) := by
  unfold Machine.execCollChunkArrival
  refine NextOk.next (Ok.onPacket h fun _ => ?_)
  split
  · dsimp only
    split
    · exact h.dropLapsed
    · split
      · exact h.dropPkt.chunkIn
      · exact Ok.ite h.dropPkt h.dropPkt.sameStaging
  · exact h

theorem Ok.execReductionBlockDelivery {e : Nat} (h : Ok none s) : NextOk (execReductionBlockDelivery e s) := by
  unfold Machine.execReductionBlockDelivery
  refine NextOk.next ?_
  split
  · exact h.redRead
  · split
    · exact h
    · split
      · exact h
      · exact Ok.ite h h.abortPlain.abortPlain.spadPut.spadPut.sameMems.refInc.deliver

theorem Ok.execCollParticipantFailure {k : Nat} (h : Ok none s) : NextOk (execCollParticipantFailure k s) := by
  unfold Machine.execCollParticipantFailure
  refine NextOk.next (Ok.onPacket h fun _ => ?_)
  split
  · dsimp only
    split
    · exact h.dropPkt.stopColl
    · exact Ok.ite h.dropPkt h.dropPkt.sameStaging
  · exact h

theorem Ok.execCollTimeout {pkg k : Nat} (h : Ok none s) : NextOk (execCollTimeout pkg k s) := by
  unfold Machine.execCollTimeout
  refine NextOk.next ?_
  split
  · exact h
  · dsimp only
    split
    · exact Ok.ite h.failColl h
    · exact h

theorem Ok.participantGone {pkg far : Nat} (h : Ok τ s) : Ok τ (participantGone s pkg far) := by
  unfold Machine.participantGone
  refine Ok.foldl h fun s1 _ h1 => ?_
  split
  · next l _ => exact Ok.ite h1 h1.failColl
  · exact h1

end Sys2Proof.Machine
end

section
/-! What the operations of Machine/Links.lean keep (O59). -/

namespace Sys2Proof.Machine

set_option Elab.async false

variable {τ : Option Turn} {s : State}

theorem Ok.advance {dt : Nat} (h : Ok τ s) : Ok τ (s.advance dt) := by
  unfold Machine.State.advance
  split
  · exact h
  · refine Ok.setPkgs h.upd ?_
    rw [List.all_map]
    exact h.pkgs

theorem Ok.noteError {pkg err : Nat} (h : Ok τ s) : Ok τ (noteError s pkg err) := Ok.ite h.modBridge.event h

theorem Ok.execTimeSyncFlit {pkg : Nat} {master : BitVec 64} (h : Ok none s) : NextOk (execTimeSyncFlit pkg master s) :=
  NextOk.next (Ok.ite h h.sameStaging.noteError)

theorem Ok.execTimeSyncLost {pkg err : Nat} (h : Ok none s) : NextOk (execTimeSyncLost pkg err s) :=
  NextOk.next (Ok.ite h.sameStaging.noteError h)

theorem Ok.losePkt {p : Pkt} (h : Ok τ s) : Ok τ (losePkt s p) := by
  unfold Machine.losePkt
  dsimp only
  split
  · exact ((Ok.ite h.countIn h).countChunk).settle
  · exact ((Ok.ite h.countIn h).countChunk).settle
  · exact ((Ok.ite h.countIn h).countChunk).settle
  · exact ((Ok.ite h.countIn h).countChunk).settle
  · exact ((Ok.ite h.countIn h).countChunk).settle
  · exact ((Ok.ite h.countIn h).countChunk).settle
  · exact ((Ok.ite h.countIn h).countChunk).settle
  · exact ((Ok.ite h.countIn h).countChunk).settle
  · exact ((Ok.ite h.countIn h).countChunk).settle
  · exact ((Ok.ite h.countIn h).countChunk).send
  · exact ((Ok.ite h.countIn h).countChunk).send
  · exact ((Ok.ite h.countIn h).countChunk).tellEngine
  · exact Ok.ite (((Ok.ite h.countIn h).countChunk).tellEngine) ((Ok.ite h.countIn h).countChunk)
  · exact ((Ok.ite h.countIn h).countChunk).reportPiece
  · exact ((Ok.ite h.countIn h).countChunk).send
  · exact ((Ok.ite h.countIn h).countChunk).send
  · exact ((Ok.ite h.countIn h).countChunk).loseMigrant
  · exact ((Ok.ite h.countIn h).countChunk).loseMigrant
  · exact (Ok.ite h.countIn h).countChunk
  · exact (Ok.ite h.countIn h).countChunk
  · exact (Ok.ite h.countIn h).countChunk
  · exact (Ok.ite h.countIn h).countChunk
  · exact (Ok.ite h.countIn h).countChunk

theorem Ok.loseOnPort {pkg die port : Nat} (h : Ok τ s) : Ok τ (loseOnPort s pkg die port) := h.upd.foldl fun _ _ h1 => h1.losePkt

theorem Ok.dropExports {pkg far : Nat} (h : Ok τ s) : Ok τ (dropExports s pkg far) := h.foldl fun _ _ h1 => h1.modLapse.refDec

theorem Ok.declareUnreachable {pkg far : Nat} (h : Ok τ s) : Ok τ (declareUnreachable s pkg far) :=
  h.sameStaging.event.declareLost.dropExports.participantGone

theorem Ok.portDown {pkg n : Nat} (h : Ok τ s) : Ok τ (portDown s pkg n) := by
  unfold Machine.portDown
  dsimp only
  refine Ok.foldl h.loseOnPort.sameStaging.event fun s1 _ h1 => ?_
  split
  · exact h1.sameStaging
  · exact h1.declareUnreachable

theorem Ok.execLinkFlitCrcFail {pkg port : Nat} (h : Ok none s) : NextOk (execLinkFlitCrcFail pkg port s) :=
  NextOk.next (Ok.ite h (Ok.ite h.sameStaging h.sameStaging.portDown))

theorem Ok.execKblFlitCrcFail {pkg : Nat} (h : Ok none s) : NextOk (execKblFlitCrcFail pkg s) :=
  NextOk.next (Ok.ite h (Ok.ite h.sameStaging h.sameStaging.sameStaging.event))

end Sys2Proof.Machine
end

section
/-! What the operations of Machine/Boot.lean keep (O59). -/

namespace Sys2Proof.Machine

set_option Elab.async false

variable {τ : Option Turn} {s : State}

theorem Ok.releaseCores {pkg : Nat} (h : Ok τ s) : Ok τ (releaseCores s pkg) := by
  refine h.setCores ?_
  have hout (q : Nat × Core → Bool) : (s.cores.filter q).all (fun x => coreMemOk x.2) = true :=
    all_filter h.cores
  rw [List.all_append, List.all_append, List.all_map, Bool.and_eq_true, Bool.and_eq_true]
  exact ⟨⟨hout _, List.all_eq_true.2 fun _ _ => rfl⟩, hout _⟩

theorem Ok.powerDown {pkg : Nat} (h : Ok none s) : Ok none (powerDown s pkg) := by
  unfold Machine.powerDown
  refine Ok.foldl ?_ fun _ _ h1 => h1.losePkt
  refine ⟨?_, memOk_iff.2 ⟨tdrop_wf h.dram, tdrop_wf h.check, h.host, all_tdrop h.cores, tput_all (p := fun x : Pkg => Memory.wf x.staging)
      rfl h.pkgs⟩⟩
  simp only [h.1, Option.filter_none]

theorem Ok.execPowerLoss {pkg : Nat} (h : Ok none s) : NextOk (execPowerLoss pkg s) := NextOk.next (Ok.ite h.powerDown h)

theorem Ok.execPowerGood {pkg : Nat} (h : Ok none s) : NextOk (execPowerGood pkg s) := by
  unfold Machine.execPowerGood
  refine NextOk.next (Ok.ite h (Ok.foldl ?_ fun _ _ h1 => h1.modDie))
  exact h.setPkgs (tput_all (p := fun x : Pkg => Memory.wf x.staging) rfl h.pkgs)

theorem Ok.execKblTrained {pkg : Nat} (h : Ok none s) : NextOk (execKblTrained pkg s) := NextOk.next (Ok.ite h h.sameStaging)

theorem Ok.bootGo {pkg : Nat} (h : Ok τ s) : Ok τ (bootGo s pkg) := Ok.ite h.modBridge h

theorem Ok.execBootGo {pkg : Nat} (h : Ok none s) : NextOk (execBootGo pkg s) := NextOk.next (Ok.ite h.kblGood.bootGo h)

theorem Ok.execBootVerify {pkg : Nat} (h : Ok none s) : NextOk (execBootVerify pkg s) :=
  NextOk.next (Ok.ite h (Ok.ite h.sameStaging h.modBridge))

theorem Ok.attRequest {pkg : Nat} {w : Word} (h : Ok τ s) : Ok τ (attRequest s pkg w) :=
  Ok.ite h (Ok.ite h.event (Ok.ite h.modBridge h.sameStaging))

theorem Ok.execAttestationRequest {pkg : Nat} {w : BitVec 64} (h : Ok none s) : NextOk (execAttestationRequest pkg w s) :=
  NextOk.next (Ok.ite h.kblGood.attRequest h)

theorem Ok.execAttestationDone {pkg : Nat} (h : Ok none s) : NextOk (execAttestationDone pkg s) := NextOk.next (Ok.ite h.sameStaging h)

theorem Ok.islctlWrite {pkg isl : Nat} {w : BitVec 32} (h : Ok τ s) : Ok τ (islctlWrite s pkg isl w) := Ok.ite h.modIsland.event h.modIsland

theorem Ok.execIslctlWrite {pkg isl : Nat} {w : BitVec 32} (h : Ok none s) : NextOk (execIslctlWrite pkg isl w s) :=
  NextOk.next (Ok.ite h.islctlWrite h)

theorem Ok.execDroopStretchStart {pkg isl sag : Nat} (h : Ok none s) : NextOk (execDroopStretchStart pkg isl sag s) :=
  NextOk.next (Ok.ite h.modIsland h)

theorem Ok.execDroopStretchEnd {pkg isl sag : Nat} (h : Ok none s) : NextOk (execDroopStretchEnd pkg isl sag s) :=
  NextOk.next (Ok.ite h.modIsland h)

theorem Ok.execTelemetrySample {pkg isl mv temp watts : Nat} (h : Ok none s) : NextOk (execTelemetrySample pkg isl mv temp watts s) :=
  NextOk.next (Ok.ite h (Ok.ite h.modIsland.event.powerDown h.modIsland))

end Sys2Proof.Machine
end

section
/-! What the operations of Machine/Bridge.lean keep (O59). -/

namespace Sys2Proof.Machine

set_option Elab.async false

variable {τ : Option Turn} {s : State}

theorem Ok.mgNothing {pkg : Nat} (h : Ok τ s) : Ok τ (mgNothing s pkg) := h.mgDiscard

theorem Ok.mgRead {pkg : Nat} (h : Ok τ s) : Ok τ (mgRead s pkg).2 := by
  unfold Machine.mgRead
  split
  · exact h.modMgmt
  · exact h
  · dsimp only
    split
    · exact h.modIsland
    · exact h
  · exact h.mgNothing

theorem Ok.chstatWrite {e : EP} {w : Word} (h : Ok τ s) : Ok τ (chstatWrite s e w) := Ok.ite h h.modMgmt

theorem Ok.mgWrite {pkg : Nat} {w : Word} (h : Ok τ s) : Ok τ (mgWrite s pkg w) := by
  unfold Machine.mgWrite
  split
  · exact Ok.ite h.modMgmt (Ok.ite h.modMgmt (Ok.ite h.codesegWrite (Ok.ite h.chstatWrite h)))
  · exact Ok.ite h.arecWrite h.modDie
  · exact Ok.ite h.islctlWrite h
  · exact h.mgNothing

theorem Ok.commitWrite {pkg : Nat} {w : Word} (h : Ok τ s) : Ok τ (commitWrite s pkg w) := Ok.ite h.mgDiscard h.modBridge

theorem Ok.lostClear {pkg : Nat} {w : Word} (h : Ok τ s) : Ok τ (lostClear s pkg w) := h.sameStaging

theorem Ok.latchLt {pkg : Nat} (h : Ok τ s) : Ok τ (latchLt s pkg) := h.modBridge

theorem Ok.bridgeWrite {pkg off : Nat} {w : Word} (h : Ok τ s) : Ok τ (bridgeWrite s pkg off w) := by
  unfold Machine.bridgeWrite
  dsimp only
  split
  · exact h.modBridge
  · split
    · exact Ok.ite h.bootGo h
    · exact h.modBridge.dropTable
    · exact h.modBridge.dropTable
    · exact h.modBridge.dropTable
    · exact h.modBridge.dropTable
    · exact h.commitWrite
    · exact h.modBridge
    · exact h.modBridge
    · exact h.modBridge
    · exact h.modBridge
    · exact h.modBridge
    · exact h.modBridge
    · exact h.lostClear
    · exact h.modBridge
    · exact h.mgWrite
    · exact h.modBridge.latchLt
    · exact h.modBridge
    · exact h.attRequest
    · exact h

theorem Ok.bridgeRead {pkg off : Nat} (h : Ok τ s) : Ok τ (bridgeRead s pkg off).2 := by
  have h1 : Ok τ (if off == 0x0118 then Machine.latchLt s pkg else s) := Ok.ite h.latchLt h
  exact Ok.iteSnd h1.mgRead h1

theorem Ok.execManagementRegisterWrite {pkg off : Nat} {w : BitVec 64} (h : Ok none s) : NextOk (execManagementRegisterWrite pkg off w s) :=
  NextOk.next (Ok.ite h (Ok.ite h.kblGood.bridgeWrite h.kblGood.mgDiscard))

theorem Ok.execCommitWrite {pkg : Nat} {w : BitVec 64} (h : Ok none s) : NextOk (execCommitWrite pkg w s) :=
  NextOk.next (Ok.ite h.kblGood.commitWrite h)

theorem Ok.execCommitComplete {pkg : Nat} (h : Ok none s) : NextOk (execCommitComplete pkg s) := by
  unfold Machine.execCommitComplete
  refine NextOk.next ?_
  split
  · exact h
  · exact Ok.ite h (Ok.ite h.dropCopies.modBridge.noteEntry.modQueue h.dropCopies.modBridge.noteEntry)

theorem Ok.execLostclrWrite {pkg : Nat} {w : BitVec 64} (h : Ok none s) : NextOk (execLostclrWrite pkg w s) :=
  NextOk.next (Ok.ite h.kblGood.lostClear h)

theorem Ok.execChstatWrite {ep : Nat} {w : BitVec 64} (h : Ok none s) : NextOk (execChstatWrite ep w s) :=
  NextOk.next (Ok.ite h.chstatWrite h)

theorem Ok.execCounterReadClear {pkg : Nat} (h : Ok none s) : NextOk (execCounterReadClear pkg s) :=
  NextOk.next (Ok.ite h.kblGood.mgRead.sameStaging h)

theorem Ok.execEvreadWrite {pkg : Nat} {w : BitVec 64} (h : Ok none s) : NextOk (execEvreadWrite pkg w s) :=
  NextOk.next (Ok.ite h.kblGood.modBridge h)

theorem Ok.execEventLogPlace {pkg k : Nat} (h : Ok none s) : NextOk (execEventLogPlace pkg k s) := by
  unfold Machine.execEventLogPlace
  refine NextOk.next ?_
  dsimp only
  split
  · exact Ok.ite h.modBridge.noteDropped h
  · exact h

theorem Ok.execEventGapTimeout {pkg : Nat} (h : Ok none s) : NextOk (execEventGapTimeout pkg s) := by
  unfold Machine.execEventGapTimeout
  refine NextOk.next ?_
  dsimp only
  split
  · exact h
  · split
    · exact h.modBridge
    · exact Ok.ite h.modBridge h

theorem Ok.hostPieces {pkg : Nat} {e : EP} {a : Nat} {dram : Bool} {bs : List (BitVec 8)} (h : Ok τ s) :
    Ok τ (hostPieces s pkg e a dram bs) := (h.foldl fun _ _ h1 => h1.send).sameStaging

theorem Ok.execHostDataWrite {pkg off n data : Nat} (h : Ok none s) : NextOk (execHostDataWrite pkg off n data s) := by
  unfold Machine.execHostDataWrite
  split
  · exact NextOk.next h
  · have h1 : Ok none (Machine.kblGood s pkg) := h.kblGood
    dsimp only
    split
    · exact NextOk.next (Ok.ite h1.bridgeWrite h1.mgDiscard)
    · refine NextOk.next (Ok.ite (h1.modPkg fun p hp => ?_) h1)
      exact mputs_wf _ _ hp
    · exact h1.execHostQueueEntryWrite
    · exact h1.execHostCancelWrite
    · exact NextOk.next h1.hostPieces
    · exact NextOk.next h1.hostPieces
    · exact NextOk.next h1.hostDiscard

theorem Ok.freeBytes {n : Nat} (h : Ok τ s) : Ok τ (freeBytes s n).2 := h.draw2

theorem Ok.execHostDataRead {pkg off n : Nat} (h : Ok none s) : NextOk (execHostDataRead pkg off n s) := by
  unfold Machine.execHostDataRead
  refine NextOk.next ?_
  dsimp only
  split
  · exact h
  · split
    · exact Ok.ite h.bridgeRead.kblGood.sameStaging h.mgDiscard.kblGood.sameStaging
    · exact Ok.ite h.kblGood.sameStaging h.hostDiscard.kblGood.sameStaging
    · exact Ok.ite h (Ok.ite h.hostDiscard.kblGood.sameStaging (Ok.ite h.meetErrors.freeBytes.kblGood.sameStaging
          h.meetErrors.kblGood.sameStaging))
    · exact Ok.ite h (Ok.ite h.unitRead.freeBytes.kblGood.sameStaging h.unitRead.kblGood.sameStaging)
    · exact h.hostDiscard.kblGood.sameStaging

theorem Ok.execFirmwareInitComplete {pkg : Nat} {now : BitVec 64} {links : List (Nat × Nat × Nat)} {regs : List (Nat × Nat)}
    {tables : List (Nat × Nat × Nat)} (h : Ok none s) :
    NextOk (execFirmwareInitComplete pkg now links regs tables s) := NextOk.next (Ok.ite h ((((((h.foldl fun _ _ h1
        => h1.modDie).sameStaging).foldl fun _ _ h1 => h1.bridgeWrite).foldl fun _ _ h1 => Ok.ite h1.physWrite h1).releaseCores).modBridge))

theorem Ok.windowAccess {k : Nat} {p : Pkt} {off : Nat} {acc : Access} {priv : Bool} (h : Ok τ s) :
    Ok τ (windowAccess s k p off acc priv) := by
  unfold Machine.windowAccess
  dsimp only
  split
  · exact h.refusePkt
  · split
    · exact h.takePkt.bridgeWrite.answer
    · exact h.takePkt.bridgeRead.answer

theorem Ok.execFabricIngress {k : Nat} (h : Ok none s) : NextOk (execFabricIngress k s) := by
  unfold Machine.execFabricIngress
  refine NextOk.next (Ok.onPacket h fun _ => ?_)
  split
  · dsimp only
    split
    · exact h.dropLapsed
    · split
      · exact h.refusePkt
      · split
        · exact h.refusePkt
        · exact Ok.ite h.refusePkt (Ok.ite h h.takePkt.ownerAccess)
  · exact Ok.ite h.dropLapsed (Ok.ite h.refusePkt h.windowAccess)
  · exact h

end Sys2Proof.Machine
end

section
/-! What the operations of Machine/Turns.lean keep (O59). -/

namespace Sys2Proof.Machine

set_option Elab.async false

variable {τ : Option Turn} {s : State}

theorem Ok.compareSlot {e : EP} {slot : Nat} (h : Ok τ s) : Ok τ (compareSlot s e slot) := by
  unfold Machine.compareSlot
  split
  · exact h
  · split
    · exact Ok.ite h (Ok.ite h.modThr h.freeLapsed)
    · exact h

theorem Ok.trapParked {e : EP} {slot : Nat} {p : Park} {cause : Nat} {addr : Word} {info : Nat} (h : Ok τ s) :
    Ok τ (trapParked s e slot p cause addr info) := by
  unfold Machine.trapParked
  split
  · exact h
  · exact Ok.ite h.modThr (h.keep h.trapNow)

theorem Ok.expire {e : EP} {slot : Nat} {p : Park} (h : Ok τ s) : Ok τ (expire s e slot p) := by
  unfold Machine.expire
  dsimp only
  split
  · exact h.trapParked
  · exact h.modThr
  · exact h.sameStaging.modThr
  · exact h.modThr.leaveResume

theorem Ok.releaseTrap {e : EP} {slot : Nat} (h : Ok τ s) : Ok τ (releaseTrap s e slot) := by
  unfold Machine.releaseTrap
  split
  · split
    · exact Ok.ite h (h.keep h.trapNow)
    · exact h
  · exact h

theorem Ok.endXfence {e : EP} {slot : Nat} {ok : Bool} (h : Ok τ s) : Ok τ (endXfence s e slot ok) := by
  unfold Machine.endXfence
  dsimp only
  refine Ok.releaseTrap ?_
  split
  · exact h.modThr.modThr
  · exact h.modThr

theorem Ok.execWaitTimeout {e slot : Nat} (h : Ok none s) : NextOk (execWaitTimeout e slot s) := by
  unfold Machine.execWaitTimeout
  refine NextOk.next ?_
  split
  · exact h
  · split
    · exact Ok.ite h.endXfence h
    · split
      · exact h
      · split
        · exact h
        · split
          · exact Ok.ite h h.expire
          · exact h.expire

theorem Ok.execXfenceComplete {e slot : Nat} (h : Ok none s) : NextOk (execXfenceComplete e slot s) := by
  unfold Machine.execXfenceComplete
  refine NextOk.next ?_
  split
  · exact h
  · split
    · exact h.releaseTrap
    · exact Ok.ite h (Ok.ite h.endXfence (Ok.ite h.endXfence h.modThr))

theorem Ok.execJoinBusyRetry {e slot : Nat} (h : Ok none s) : NextOk (execJoinBusyRetry e slot s) := by
  unfold Machine.execJoinBusyRetry
  refine NextOk.next ?_
  split
  · exact h
  · split
    · split
      · split
        · exact h
        · split
          · exact h.trapParked
          · exact h.upd.send.modThr
      · exact h
    · exact h

end Sys2Proof.Machine
end

section
/-! What the operations of Machine/Fetch.lean keep (O59). -/

namespace Sys2Proof.Machine

set_option Elab.async false

variable {τ : Option Turn} {s : State}

theorem Ok.fetchLine {e : EP} {t : Thread} (h : Ok τ s) : Ok τ (fetchLine s e t).2 := by
  unfold Machine.fetchLine
  dsimp only
  split
  · exact h
  · split
    · exact h
    · split
      · exact h
      · split
        · exact h.meetErrors
        · split
          · exact h.meetErrors
          · split
            · exact h.meetErrors
            · exact h.meetErrors

end Sys2Proof.Machine
end

section
/-! What the operations of Machine/FloatOps.lean keep (O59). -/

namespace Sys2Proof.Machine

set_option Elab.async false

variable {τ : Option Turn} {s : State}

theorem Ok.scalarF {op : Nat} {gd : Guard} {d : Reg} {ty : Ty} {f : Thread → Nat × Nat} (h : Ok τ s) : NextOk (scalarF op gd d ty s f) :=
  h.issue fun _ _ _ h1 => h1.retire

theorem Ok.execFadd {gd : Guard} {d a b : Reg} {ty : Ty} {rm : Rnd} (h : Ok τ s) : NextOk (execFadd gd d a b ty rm s) := h.scalarF

theorem Ok.execFsub {gd : Guard} {d a b : Reg} {ty : Ty} {rm : Rnd} (h : Ok τ s) : NextOk (execFsub gd d a b ty rm s) := h.scalarF

theorem Ok.execFmul {gd : Guard} {d a b : Reg} {ty : Ty} {rm : Rnd} (h : Ok τ s) : NextOk (execFmul gd d a b ty rm s) := h.scalarF

theorem Ok.execFma {gd : Guard} {d a b c : Reg} {ty : Ty} {rm : Rnd} (h : Ok τ s) : NextOk (execFma gd d a b c ty rm s) := h.scalarF

theorem Ok.execFdiv {gd : Guard} {d a b : Reg} {ty : Ty} {rm : Rnd} (h : Ok τ s) : NextOk (execFdiv gd d a b ty rm s) := h.scalarF

theorem Ok.execFsqrt {gd : Guard} {d a : Reg} {ty : Ty} {rm : Rnd} (h : Ok τ s) : NextOk (execFsqrt gd d a ty rm s) := h.scalarF

theorem Ok.execFrsq {gd : Guard} {d a : Reg} {ty : Ty} {rm : Rnd} (h : Ok τ s) : NextOk (execFrsq gd d a ty rm s) := h.scalarF

theorem Ok.execFmin {gd : Guard} {d a b : Reg} {ty : Ty} (h : Ok τ s) : NextOk (execFmin gd d a b ty s) := h.scalarF

theorem Ok.execFmax {gd : Guard} {d a b : Reg} {ty : Ty} (h : Ok τ s) : NextOk (execFmax gd d a b ty s) := h.scalarF

theorem Ok.execFexp2 {gd : Guard} {d a : Reg} {ty : Ty} {rm : Rnd} (h : Ok τ s) : NextOk (execFexp2 gd d a ty rm s) := h.scalarF

theorem Ok.execFlog2 {gd : Guard} {d a : Reg} {ty : Ty} {rm : Rnd} (h : Ok τ s) : NextOk (execFlog2 gd d a ty rm s) := h.scalarF

theorem Ok.execFcmp {gd : Guard} {d : Pred} {a b : Reg} {ty : Ty} {fc : FCond} (h : Ok τ s) : NextOk (execFcmp gd d a b ty fc s) :=
  h.issue fun _ _ _ h1 => h1.retire

theorem Ok.execFcvt {gd : Guard} {d a : Reg} {tgt frm : Ty} {rm : Rnd} {sat : Bool} (h : Ok τ s) :
    NextOk (execFcvt gd d a tgt frm rm sat s) := h.issue fun _ _ _ h1 => h1.retire

theorem Ok.execFclass {gd : Guard} {d a : Reg} {ty : Ty} (h : Ok τ s) : NextOk (execFclass gd d a ty s) := h.issue fun _ _ _ h1 => h1.retire

end Sys2Proof.Machine
end

section
/-! What the operations of Machine/Vector.lean keep (O59). -/

namespace Sys2Proof.Machine

set_option Elab.async false

variable {τ : Option Turn} {s : State}

theorem Ok.vecOp {op : Nat} {gd : Guard} {d : VReg} {ty : Ty} {mk : Mask} {z : Bool} {f : Thread → Nat → Nat × Nat} (h : Ok τ s) :
    NextOk (vecOp op gd d ty mk z s f) := h.issue fun _ _ _ h1 => h1.retire

theorem Ok.execVadd {gd : Guard} {d a : VReg} {b : BOp} {ty : Ty} {rm : Rnd} {mk : Mask} {z : Bool} (h : Ok τ s) :
    NextOk (execVadd gd d a b ty rm mk z s) := h.vecOp

theorem Ok.execVsub {gd : Guard} {d a : VReg} {b : BOp} {ty : Ty} {rm : Rnd} {mk : Mask} {z : Bool} (h : Ok τ s) :
    NextOk (execVsub gd d a b ty rm mk z s) := h.vecOp

theorem Ok.execVmul {gd : Guard} {d a : VReg} {b : BOp} {ty : Ty} {rm : Rnd} {mk : Mask} {z : Bool} (h : Ok τ s) :
    NextOk (execVmul gd d a b ty rm mk z s) := h.vecOp

theorem Ok.execVfma {gd : Guard} {d a : VReg} {b : BOp} {c : VReg} {ty : Ty} {rm : Rnd} {mk : Mask} {z : Bool} (h : Ok τ s) :
    NextOk (execVfma gd d a b c ty rm mk z s) := h.vecOp

theorem Ok.execVmin {gd : Guard} {d a : VReg} {b : BOp} {ty : Ty} {mk : Mask} {z : Bool} (h : Ok τ s) :
    NextOk (execVmin gd d a b ty mk z s) := h.vecOp

theorem Ok.execVmax {gd : Guard} {d a : VReg} {b : BOp} {ty : Ty} {mk : Mask} {z : Bool} (h : Ok τ s) :
    NextOk (execVmax gd d a b ty mk z s) := h.vecOp

theorem Ok.execVabs {gd : Guard} {d a : VReg} {ty : Ty} {mk : Mask} {z : Bool} (h : Ok τ s) : NextOk (execVabs gd d a ty mk z s) := h.vecOp

theorem Ok.execVdiv {gd : Guard} {d a : VReg} {b : BOp} {ty : Ty} {rm : Rnd} {mk : Mask} {z : Bool} (h : Ok τ s) :
    NextOk (execVdiv gd d a b ty rm mk z s) := h.vecOp

theorem Ok.execVsqrt {gd : Guard} {d a : VReg} {ty : Ty} {rm : Rnd} {mk : Mask} {z : Bool} (h : Ok τ s) :
    NextOk (execVsqrt gd d a ty rm mk z s) := h.vecOp

theorem Ok.execVrsq {gd : Guard} {d a : VReg} {ty : Ty} {rm : Rnd} {mk : Mask} {z : Bool} (h : Ok τ s) :
    NextOk (execVrsq gd d a ty rm mk z s) := h.vecOp

theorem Ok.execVexp2 {gd : Guard} {d a : VReg} {ty : Ty} {rm : Rnd} {mk : Mask} {z : Bool} (h : Ok τ s) :
    NextOk (execVexp2 gd d a ty rm mk z s) := h.vecOp

theorem Ok.execVlog2 {gd : Guard} {d a : VReg} {ty : Ty} {rm : Rnd} {mk : Mask} {z : Bool} (h : Ok τ s) :
    NextOk (execVlog2 gd d a ty rm mk z s) := h.vecOp

theorem Ok.execVand {gd : Guard} {d a : VReg} {b : BOp} {ty : Ty} {mk : Mask} {z : Bool} (h : Ok τ s) :
    NextOk (execVand gd d a b ty mk z s) := h.vecOp

theorem Ok.execVor {gd : Guard} {d a : VReg} {b : BOp} {ty : Ty} {mk : Mask} {z : Bool} (h : Ok τ s) :
    NextOk (execVor gd d a b ty mk z s) := h.vecOp

theorem Ok.execVxor {gd : Guard} {d a : VReg} {b : BOp} {ty : Ty} {mk : Mask} {z : Bool} (h : Ok τ s) :
    NextOk (execVxor gd d a b ty mk z s) := h.vecOp

theorem Ok.execVshl {gd : Guard} {d a : VReg} {b : BOp} {ty : Ty} {mk : Mask} {z : Bool} (h : Ok τ s) :
    NextOk (execVshl gd d a b ty mk z s) := h.vecOp

theorem Ok.execVshr {gd : Guard} {d a : VReg} {b : BOp} {ty : Ty} {mk : Mask} {z : Bool} (h : Ok τ s) :
    NextOk (execVshr gd d a b ty mk z s) := h.vecOp

theorem Ok.execVcmp {gd : Guard} {d : VMsk} {a : VReg} {b : BOp} {ty : Ty} {fc : FCond} {mk : Mask} (h : Ok τ s) :
    NextOk (execVcmp gd d a b ty fc mk s) := h.issue fun _ _ _ h1 => h1.retire

theorem Ok.execVsel {gd : Guard} {d a : VReg} {b : BOp} {c : VMsk} {ty : Ty} (h : Ok τ s) : NextOk (execVsel gd d a b c ty s) :=
  h.issue fun _ _ _ h1 => h1.retire

theorem Ok.execVperm {gd : Guard} {d a b : VReg} {ty : Ty} {mk : Mask} {z : Bool} (h : Ok τ s) : NextOk (execVperm gd d a b ty mk z s) :=
  h.vecOp

theorem Ok.execVbcast {gd : Guard} {d : VReg} {a : Reg} {ty : Ty} {mk : Mask} {z : Bool} (h : Ok τ s) :
    NextOk (execVbcast gd d a ty mk z s) := h.vecOp

theorem Ok.execVext {gd : Guard} {d : Reg} {a : VReg} {ty : Ty} {ln : BitVec 6} (h : Ok τ s) : NextOk (execVext gd d a ty ln s) :=
  h.issue fun _ _ _ h1 => h1.retire

theorem Ok.execVins {gd : Guard} {d : VReg} {a : Reg} {ty : Ty} {ln : BitVec 6} (h : Ok τ s) : NextOk (execVins gd d a ty ln s) :=
  h.issue fun _ _ _ h1 => h1.retire

theorem Ok.execVcvt {gd : Guard} {d a : VReg} {tgt frm : Ty} {rm : Rnd} {sat : Bool} {part : BitVec 5} (h : Ok τ s) :
    NextOk (execVcvt gd d a tgt frm rm sat part s) := h.issue fun _ _ _ h1 => h1.retire

theorem Ok.execVred {gd : Guard} {d : Reg} {a : VReg} {op : BitVec 2} {ty : Ty} {rm : Rnd} {mk : Mask} (h : Ok τ s) :
    NextOk (execVred gd d a op ty rm mk s) := h.issue fun _ _ _ h1 => h1.retire

theorem Ok.execVscan {gd : Guard} {d a : VReg} {op : BitVec 2} {ty : Ty} {rm : Rnd} {mk : Mask} (h : Ok τ s) :
    NextOk (execVscan gd d a op ty rm mk s) := h.issue fun _ _ _ h1 => h1.retire

theorem Ok.execVmlog {gd : Guard} {d : VMsk} {a : BitVec 5} {b : VMsk} {table : BitVec 4} {isG : Bool} (h : Ok τ s) :
    NextOk (execVmlog gd d a b table isG s) := h.issue fun _ _ _ h1 => h1.retire

theorem Ok.execVmpop {gd : Guard} {d : Reg} {a : VMsk} {raw : Bool} (h : Ok τ s) : NextOk (execVmpop gd d a raw s) :=
  h.issue fun _ _ _ h1 => h1.retire

theorem Ok.execBarq {gd : Guard} {d a : VReg} {b : Reg} {part : BitVec 2} {ty : Ty} {mk : Mask} {z : Bool} (h : Ok τ s) :
    NextOk (execBarq gd d a b part ty mk z s) := h.issue fun _ _ _ h1 => Ok.ite h1.raise h1.retire

theorem Ok.vecRegionLoad {u : Turn} {t : Thread} {d : VReg} {bytes : Nat} {base : BitVec 512} {l : List Elem} {ea : Word} (h : Ok τ s) :
    Ok none (vecRegionLoad s u t d bytes base l ea) := Ok.ite h.retire h.regionAccess

theorem Ok.vecRegionStore {u : Turn} {t : Thread} {d : VReg} {bytes : Nat} {l : List Elem} {ea : Word} (h : Ok τ s) :
    Ok none (vecRegionStore s u t d bytes l ea) := Ok.ite h.retire h.regionAccess

theorem Ok.storeElems {e : EP} {x : BitVec 512} {bytes : Nat} {l : List Elem} (h : Ok τ s) : Ok τ (storeElems s e x bytes l) :=
  h.foldl fun _ _ h1 => h1.abortPlain.spadWrite.answerRange

theorem Ok.meetElems {e : EP} {bytes : Nat} {l : List Elem} (h : Ok τ s) : Ok τ (meetElems s e bytes l) :=
  h.foldl fun _ _ h1 => h1.meetErrors

theorem Ok.execVld {gd : Guard} {d : VReg} {a : Reg} {esz : BitVec 2} {mk : Mask} {z : Bool} {imm : BitVec 32} (h : Ok τ s) :
    NextOk (execVld gd d a esz mk z imm s) := by
  unfold Machine.execVld
  refine Ok.issue h fun _ _ _ h1 => ?_
  dsimp only
  refine Ok.checked h1 fun _ => ?_
  refine Ok.checked h1 fun _ => ?_
  split
  · exact h1.vecRegionLoad
  · split
    · exact h1.waitEver
    · refine Ok.withBanks h1 fun _ h2 => ?_
      split
      · exact h2.meetElems.raise
      · exact h2.meetElems.retire

theorem Ok.execVst {gd : Guard} {d : VReg} {a : Reg} {esz : BitVec 2} {mk : Mask} {imm : BitVec 32} (h : Ok τ s) :
    NextOk (execVst gd d a esz mk imm s) := h.issue fun _ _ _ h1 => h1.checked fun _ => h1.checked fun _ => Ok.ite h1.vecRegionStore
        (Ok.ite h1.waitEver (h1.withBanks fun _ h2 => h2.storeElems.retire))

theorem Ok.stridePasses {u : Turn} {t : Thread} {bytes : Nat} {l : List Elem} {act : State → List Elem → Except State State}
    {keep : State → List Elem → BitVec 512} {done : State → List Elem → State} (h : Ok τ s)
    (hact : ∀ {s now}, Ok τ s → ActOk τ (act s now)) (hdone : ∀ {s now}, Ok τ s → Ok none (done s now)) :
    Ok none (stridePasses s u t bytes l act keep done) := by
  unfold Machine.stridePasses
  dsimp only
  have h1 := h.passesWon (u := u) (t := t) (tried := min 4 (passCount (elemWords l) - t.passes))
  split
  · exact h1.waitEver
  · refine Ok.ite h1.forfeit ?_
    have h2 := hact (now := passElems l t.passes (t.passes + (Machine.passesWon s u t (min 4 (passCount (elemWords l) - t.passes))).1)) h1
    split
    · next he => exact h2.1 he
    · next he => exact Ok.ite (hdone (h2.2 he)) (h2.2 he).modThr.noTurn

theorem Ok.execVlds {gd : Guard} {d : VReg} {a b : Reg} {ty : Ty} {mk : Mask} {z : Bool} (h : Ok τ s) :
    NextOk (execVlds gd d a b ty mk z s) := by
  unfold Machine.execVlds
  refine h.issue fun _ _ s1 h1 => h1.checked fun l => Ok.ite h1.vecRegionLoad (h1.stridePasses (fun h2 => ?_) fun h2 => h2.retire)
  dsimp only
  split
  · exact ActOk.error h2.meetElems.raise
  · exact ActOk.ok h2.meetElems

theorem Ok.execVsts {gd : Guard} {d : VReg} {a b : Reg} {ty : Ty} {mk : Mask} (h : Ok τ s) : NextOk (execVsts gd d a b ty mk s) :=
  h.issue fun _ _ _ h1 => h1.checked fun _ => Ok.ite h1.vecRegionStore (h1.stridePasses (fun h2 => ActOk.ok h2.storeElems) fun h2
      => h2.retire)

end Sys2Proof.Machine
end

section
/-! What the operations of Machine/Agenda.lean keep (O59). -/

namespace Sys2Proof.Machine

set_option Elab.async false

variable {τ : Option Turn} {s : State}

theorem Ok.nextOcc {s' : State} {ev : Ev} (h : Ok τ s) (he : nextOcc s = some (ev, s')) : Ok τ s' := by
  unfold Machine.nextOcc at he
  split at he
  · cases he
    exact Ok.advance h.upd
  · cases he

theorem Ok.startRound (h : Ok τ s) : Ok τ (startRound s) := h.advance.upd

end Sys2Proof.Machine
end

section
/-! What the operations of Machine/Tables.lean keep (O59). -/

namespace Sys2Proof.Machine

set_option Elab.async false

variable {τ : Option Turn} {s : State}

theorem Ok.readTables {s' : State} {x : Uses} (h : Ok τ s) (he : readTables s x = some s') : Ok τ s' := by
  unfold Machine.readTables at he
  split at he
  · cases he
  · cases he
    exact (h.foldl fun _ _ h1 => h1.noteEntry).foldl fun _ _ h1 => h1.unitRead

end Sys2Proof.Machine
end

section
/-! Every step keeps the turn and the memories: the meanings, the decoder, the fetch, and O59. -/

namespace Sys2Proof.Machine

set_option Elab.async false

variable {τ : Option Turn} {s : State}

/-- What the hardware does by itself, the turns apart, keeps every memory canonical and gives nobody the turn. -/
theorem Ok.runEv {ev : Ev} (h : Ok none s) (hi : ∀ ep lost, ev ≠ .issueTurn ep lost) : NextOk (runEv ev s) := by
  cases ev with
  | issueTurn ep lost => exact absurd rfl (hi ep lost)
  | waitTimeout => exact h.execWaitTimeout
  | hostQueueEntryWrite => exact h.execHostQueueEntryWrite
  | entryAdmission => exact h.execEntryAdmission
  | hostCancelWrite => exact h.execHostCancelWrite
  | hostDataWrite => exact h.execHostDataWrite
  | hostDataRead => exact h.execHostDataRead
  | dispatchEntry => exact h.execDispatchEntry
  | launchHeaderRead => exact h.execLaunchHeaderRead
  | dispenserExamine => exact h.execDispenserExamine
  | frameReentry => exact h.execFrameReentry
  | instantLapse => exact h.execInstantLapse
  | lapseBroadcastApply => exact h.execLapseBroadcastApply
  | settleExpiry => exact h.execSettleExpiry
  | heldRecordRetry => exact h.execHeldRecordRetry
  | dropReport => exact h.execDropReport
  | gatewayEgress => exact h.execGatewayEgress
  | gatewayIngress => exact h.execGatewayIngress
  | exportNotice => exact h.execExportNotice
  | proxyReport => exact h.execProxyReport
  | cancelPropagation => exact h.execCancelPropagation
  | unionChangePropagation => exact h.execUnionChangePropagation
  | fabricIngress => exact h.execFabricIngress
  | replyArrival => exact h.execReplyArrival
  | messageInjection => exact h.execMessageInjection
  | messageDelivery => exact h.execMessageDelivery
  | heldMessageRelease => exact h.execHeldMessageRelease
  | remoteEnqArrival => exact h.execRemoteEnqArrival
  | qresRequestArrival => exact h.execQresRequestArrival
  | qresGrantArrival => exact h.execQresGrantArrival
  | dtlEntryTimeout => exact h.execDtlEntryTimeout
  | destWriteQueueWrite => exact h.execDestWriteQueueWrite
  | tileWriteQueueWrite => exact h.execTileWriteQueueWrite
  | copyPieceDispatch => exact h.execCopyPieceDispatch
  | fillPatternRead => exact h.execFillPatternRead
  | pieceAtOwner => exact h.execPieceAtOwner
  | pieceAtRecipient => exact h.execPieceAtRecipient
  | pieceReport => exact h.execPieceReport
  | codeSegmentLanded => exact h.execCodeSegmentLanded
  | codesegWrite => exact h.execCodesegWrite
  | programCommandArrival => exact h.execProgramCommandArrival
  | programCommandDelivery => exact h.execProgramCommandDelivery
  | collChunkSend => exact h.execCollChunkSend
  | collChunkArrival => exact h.execCollChunkArrival
  | reductionBlockDelivery => exact h.execReductionBlockDelivery
  | collParticipantFailure => exact h.execCollParticipantFailure
  | collTimeout => exact h.execCollTimeout
  | qprobeReturn => exact h.execQprobeReturn
  | lineBufferAccess => exact h.execLineBufferAccess
  | lineFillComplete => exact h.execLineFillComplete
  | victimWriteback => exact h.execVictimWriteback
  | patrolScrubRead => exact h.execPatrolScrubRead
  | mirrorWriteApply => exact h.execMirrorWriteApply
  | mirrorTimeout => exact h.execMirrorTimeout
  | joinBusyRetry => exact h.execJoinBusyRetry
  | migrantArrival => exact h.execMigrantArrival
  | migrantQueueAdmit => exact h.execMigrantQueueAdmit
  | migrantReturn => exact h.execMigrantReturn
  | pageWalkStep => exact h.execPageWalkStep
  | invtlbApply => exact h.execInvtlbApply
  | regionBeginRequest => exact h.execRegionBeginRequest
  | regionAccessEdges => exact h.execRegionAccessEdges
  | regionCommitRequest => exact h.execRegionCommitRequest
  | sealAtOwner => exact h.execSealAtOwner
  | sealAck => exact h.execSealAck
  | resolveAtOwner => exact h.execResolveAtOwner
  | resolveAck => exact h.execResolveAck
  | discardAtOwner => exact h.execDiscardAtOwner
  | abortDelivery => exact h.execAbortDelivery
  | regionInstantTest => exact h.execRegionInstantTest
  | regionWaitTimeout => exact h.execRegionWaitTimeout
  | boundaryClose => exact h.execBoundaryClose
  | rectangleResetComplete => exact h.execRectangleResetComplete
  | containmentRelease => exact h.execContainmentRelease
  | arecWrite => exact h.execArecWrite
  | oldComplete => exact h.execOldComplete
  | ardComplete => exact h.execArdComplete
  | awrComplete => exact h.execAwrComplete
  | mmaStart => exact h.execMmaStart
  | mmaKStep => exact h.execMmaKStep
  | aclrApply => exact h.execAclrApply
  | xfenceComplete => exact h.execXfenceComplete
  | linkFlitCrcFail => exact h.execLinkFlitCrcFail
  | kblFlitCrcFail => exact h.execKblFlitCrcFail
  | timeSyncFlit => exact h.execTimeSyncFlit
  | powerGood => exact h.execPowerGood
  | kblTrained => exact h.execKblTrained
  | bootGo => exact h.execBootGo
  | bootVerify => exact h.execBootVerify
  | firmwareInitComplete => exact h.execFirmwareInitComplete
  | attestationRequest => exact h.execAttestationRequest
  | attestationDone => exact h.execAttestationDone
  | commitWrite => exact h.execCommitWrite
  | commitComplete => exact h.execCommitComplete
  | lostclrWrite => exact h.execLostclrWrite
  | chstatWrite => exact h.execChstatWrite
  | islctlWrite => exact h.execIslctlWrite
  | counterReadClear => exact h.execCounterReadClear
  | evreadWrite => exact h.execEvreadWrite
  | managementRegisterWrite => exact h.execManagementRegisterWrite
  | eventLogPlace => exact h.execEventLogPlace
  | eventGapTimeout => exact h.execEventGapTimeout
  | telemetrySample => exact h.execTelemetrySample
  | droopStretchStart => exact h.execDroopStretchStart
  | droopStretchEnd => exact h.execDroopStretchEnd
  | instantUnitRequest => exact h.execInstantUnitRequest
  | exportNoticeAck => exact h.execExportNoticeAck
  | reservationReturn => exact h.execReservationReturn
  | swapImageWritten => exact h.execSwapImageWritten
  | timeSyncLost => exact h.execTimeSyncLost
  | powerLoss => exact h.execPowerLoss

/-- R332: the meaning of an instruction ends its turn, and keeps every memory canonical. -/
theorem Ok.exec {i : Instr} (h : Ok τ s) (hi : evOf i = none) : NextOk (exec i s) := by
  cases i with
  | issueTurn | waitTimeout | hostQueueEntryWrite | entryAdmission | hostCancelWrite | hostDataWrite | hostDataRead | dispatchEntry
  | launchHeaderRead | dispenserExamine | frameReentry | instantLapse | lapseBroadcastApply | settleExpiry | heldRecordRetry
  | dropReport | gatewayEgress | gatewayIngress | exportNotice | proxyReport | cancelPropagation | unionChangePropagation
  | fabricIngress | replyArrival | messageInjection | messageDelivery | heldMessageRelease | remoteEnqArrival | qresRequestArrival
  | qresGrantArrival | dtlEntryTimeout | destWriteQueueWrite | tileWriteQueueWrite | copyPieceDispatch | fillPatternRead | pieceAtOwner
  | pieceAtRecipient | pieceReport | codeSegmentLanded | codesegWrite | programCommandArrival | programCommandDelivery | collChunkSend
  | collChunkArrival | reductionBlockDelivery | collParticipantFailure | collTimeout | qprobeReturn | lineBufferAccess
  | lineFillComplete | victimWriteback | patrolScrubRead | mirrorWriteApply | mirrorTimeout | joinBusyRetry | migrantArrival
  | migrantQueueAdmit | migrantReturn | pageWalkStep | invtlbApply | regionBeginRequest | regionAccessEdges | regionCommitRequest
  | sealAtOwner | sealAck | resolveAtOwner | resolveAck | discardAtOwner | abortDelivery | regionInstantTest | regionWaitTimeout
  | boundaryClose | rectangleResetComplete | containmentRelease | arecWrite | oldComplete | ardComplete | awrComplete | mmaStart
  | mmaKStep | aclrApply | xfenceComplete | linkFlitCrcFail | kblFlitCrcFail | timeSyncFlit | powerGood | kblTrained | bootGo
  | bootVerify | firmwareInitComplete | attestationRequest | attestationDone | commitWrite | commitComplete | lostclrWrite | chstatWrite
  | islctlWrite | counterReadClear | evreadWrite | managementRegisterWrite | eventLogPlace | eventGapTimeout | telemetrySample
  | droopStretchStart | droopStretchEnd | instantUnitRequest | exportNoticeAck | reservationReturn | swapImageWritten | timeSyncLost
  | powerLoss =>
    cases hi
  | nop => exact h.execNop
  | add => exact h.execAdd
  | sub => exact h.execSub
  | mul => exact h.execMul
  | mulh => exact h.execMulh
  | mulhn => exact h.execMulhn
  | div => exact h.execDiv
  | divn => exact h.execDivn
  | rem => exact h.execRem
  | remn => exact h.execRemn
  | and => exact h.execAnd
  | or => exact h.execOr
  | xor => exact h.execXor
  | andn => exact h.execAndn
  | shl => exact h.execShl
  | shr => exact h.execShr
  | sra => exact h.execSra
  | shli => exact h.execShli
  | shri => exact h.execShri
  | srai => exact h.execSrai
  | clz => exact h.execClz
  | ctz => exact h.execCtz
  | popc => exact h.execPopc
  | min => exact h.execMin
  | max => exact h.execMax
  | minn => exact h.execMinn
  | maxn => exact h.execMaxn
  | addi => exact h.execAddi
  | andi => exact h.execAndi
  | ori => exact h.execOri
  | xori => exact h.execXori
  | li => exact h.execLi
  | lih => exact h.execLih
  | bfx => exact h.execBfx
  | bfxs => exact h.execBfxs
  | bfi => exact h.execBfi
  | lea => exact h.execLea
  | cmp => exact h.execCmp
  | cmpi => exact h.execCmpi
  | plog => exact h.execPlog
  | sel => exact h.execSel
  | pset => exact h.execPset
  | pget => exact h.execPget
  | sext => exact h.execSext
  | zext => exact h.execZext
  | br => exact h.execBr
  | brr => exact h.execBrr
  | call => exact h.execCall
  | callr => exact h.execCallr
  | jseg => exact h.execJseg
  | btag => exact h.execBtag
  | fork => exact h.execFork
  | join => exact h.execJoin
  | spawn => exact h.execSpawn
  | yield => exact h.execYield
  | exit => exact h.execExit
  | wfw => exact h.execWfw
  | send => exact h.execSend
  | recv => exact h.execRecv
  | enq => exact h.execEnq
  | deq => exact h.execDeq
  | qres => exact h.execQres
  | qprobe => exact h.execQprobe
  | ld => exact h.execLd
  | st => exact h.execSt
  | ldx => exact h.execLdx
  | stx => exact h.execStx
  | ldf => exact h.execLdf
  | stf => exact h.execStf
  | take => exact h.execTake
  | put => exact h.execPut
  | peek => exact h.execPeek
  | feset => exact h.execFeset
  | feget => exact h.execFeget
  | amo => exact h.execAmo
  | cas _ _ _ _ _ op => exact h.execCas (_op := op)
  | red => exact h.execRed
  | waitc => exact h.execWaitc
  | fence => exact h.execFence
  | xfence => exact h.execXfence
  | go => exact h.execGo
  | back => exact h.execBack
  | mld => exact h.execMld
  | mst => exact h.execMst
  | mamo => exact h.execMamo
  | remup => exact h.execRemup
  | tlook => exact h.execTlook
  | tins => exact h.execTins
  | tdel => exact h.execTdel
  | hnd => exact h.execHnd
  | narrow => exact h.execNarrow
  | union => exact h.execUnion
  | livemask => exact h.execLivemask
  | cancel => exact h.execCancel
  | adopt => exact h.execAdopt
  | rbegin => exact h.execRbegin
  | rcommit => exact h.execRcommit
  | rabort => exact h.execRabort
  | rstat => exact h.execRstat
  | fadd => exact h.execFadd
  | fsub => exact h.execFsub
  | fmul => exact h.execFmul
  | fma => exact h.execFma
  | fdiv => exact h.execFdiv
  | fsqrt => exact h.execFsqrt
  | frsq => exact h.execFrsq
  | fmin => exact h.execFmin
  | fmax => exact h.execFmax
  | fcmp => exact h.execFcmp
  | fcvt => exact h.execFcvt
  | fclass => exact h.execFclass
  | fexp2 => exact h.execFexp2
  | flog2 => exact h.execFlog2
  | vld => exact h.execVld
  | vst => exact h.execVst
  | vlds => exact h.execVlds
  | vsts => exact h.execVsts
  | vbcast => exact h.execVbcast
  | vext => exact h.execVext
  | vins => exact h.execVins
  | vadd => exact h.execVadd
  | vsub => exact h.execVsub
  | vmul => exact h.execVmul
  | vfma => exact h.execVfma
  | vmin => exact h.execVmin
  | vmax => exact h.execVmax
  | vabs => exact h.execVabs
  | vdiv => exact h.execVdiv
  | vsqrt => exact h.execVsqrt
  | vrsq => exact h.execVrsq
  | vexp2 => exact h.execVexp2
  | vlog2 => exact h.execVlog2
  | vand => exact h.execVand
  | vor => exact h.execVor
  | vxor => exact h.execVxor
  | vshl => exact h.execVshl
  | vshr => exact h.execVshr
  | vcmp => exact h.execVcmp
  | vsel => exact h.execVsel
  | vcvt => exact h.execVcvt
  | vred => exact h.execVred
  | vscan => exact h.execVscan
  | vperm => exact h.execVperm
  | vmlog => exact h.execVmlog
  | vmpop => exact h.execVmpop
  | barq => exact h.execBarq
  | oclaim => exact h.execOclaim
  | orel => exact h.execOrel
  | old => exact h.execOld
  | mma => exact h.execMma
  | ard => exact h.execArd
  | awr => exact h.execAwr
  | aclr => exact h.execAclr
  | mstat => exact h.execMstat
  | tbld => exact h.execTbld
  | pushCopy => exact h.execPushCopy
  | pushFill => exact h.execPushFill
  | pushCode => exact h.execPushCode
  | pushColl => exact h.execPushColl
  | pushProgram => exact h.execPushProgram
  | popcRec => exact h.execPopcRec
  | trap => exact h.execTrap
  | rtt => exact h.execRtt
  | mfs => exact h.execMfs
  | mts => exact h.execMts
  | resume => exact h.execResume
  | cswap => exact h.execCswap
  | invtlb => exact h.execInvtlb

/-- The value that a decoder gives, if any, is an instruction, no step of the hardware. -/
def NoEvent (o : Option Instr) : Prop := ∀ i, o = some i → evOf i = none

theorem NoEvent.nothing : NoEvent none := by
  intro i e
  cases e

theorem NoEvent.just {i : Instr} (h : evOf i = none) : NoEvent (some i) := by
  intro j e
  cases e
  exact h

theorem NoEvent.ite {c : Prop} [Decidable c] {a : Option Instr} (h : NoEvent a) : NoEvent (if c then a else none) := by
  split
  · exact h
  · exact NoEvent.nothing

theorem NoEvent.bind {α : Type} {o : Option α} {f : α → Option Instr} (h : ∀ x, NoEvent (f x)) : NoEvent (o.bind f) := by
  cases o with
  | none => exact NoEvent.nothing
  | some x => exact h x

theorem decodeInt_noEvent (op T : Nat) (gd : Guard) : NoEvent (decodeInt op T gd) := by
  unfold decodeInt
  split
  all_goals repeat' first | exact NoEvent.just rfl | exact NoEvent.nothing | refine NoEvent.ite ?_ | refine NoEvent.bind fun _ => ?_

theorem decodeMem_noEvent (op T : Nat) (gd : Guard) : NoEvent (decodeMem op T gd) := by
  unfold decodeMem
  split
  all_goals repeat' first | exact NoEvent.just rfl | exact NoEvent.nothing | refine NoEvent.ite ?_

theorem decodeFv_noEvent (op T : Nat) (gd : Guard) : NoEvent (decodeFv op T gd) := by
  unfold decodeFv
  split
  all_goals repeat' first | exact NoEvent.just rfl | exact NoEvent.nothing | refine NoEvent.ite ?_ | refine NoEvent.bind fun _ => ?_

theorem decodeSys_noEvent (op T : Nat) (gd : Guard) : NoEvent (decodeSys op T gd) := by
  unfold decodeSys
  split
  all_goals repeat' first | exact NoEvent.just rfl | exact NoEvent.nothing | refine NoEvent.ite ?_ | refine NoEvent.bind fun _ => ?_ | split

theorem decodeFields_noEvent (op T : Nat) (gd : Guard) : NoEvent (decodeFields op T gd) := by
  unfold decodeFields
  split
  · exact decodeInt_noEvent op T gd
  · split
    · exact decodeMem_noEvent op T gd
    · split
      · exact decodeFv_noEvent op T gd
      · exact decodeSys_noEvent op T gd

theorem decodeAt_noEvent {l : Line} {n : Nat} {i : Instr} (h : decodeAt l n = .ok i) : evOf i = none := by
  unfold decodeAt at h
  split at h
  · split at h
    · unfold decodeHead at h
      split at h
      · cases h
      · split at h
        · split at h
          next hd =>
            split at h
            · cases h
              exact decodeFields_noEvent _ _ _ _ hd
            · cases h
          · cases h
        · cases h
    · cases h
  · cases h

theorem refine_noEvent {t : Thread} {i : Instr} (h : evOf i = none) : evOf (refine t i) = none := by
  unfold refine
  split
  · split
    · rfl
    · rfl
  · exact h

/-- R281: what a turn decodes is an instruction. -/
theorem decodeTurn_noEvent {e : EP} {slot : Nat} {t : Thread} {l : Line} {i : Instr} (h : decodeTurn e slot t l = .ok i) : evOf i = none :=
  by
  unfold decodeTurn at h
  dsimp only at h
  split at h
  · cases h
  · split at h
    next hd =>
      cases h
      exact refine_noEvent (decodeAt_noEvent hd)
    all_goals cases h

/-- A fetch that traps ends the turn. -/
theorem Ok.fetchTurn_trapped {s' : State} {u : Turn} (h : Ok τ s) (he : fetchTurn s u = .trapped s') : Ok none s' := by
  unfold Machine.fetchTurn at he
  split at he
  · cases he
    exact h.noTurn
  · split at he
    next hf =>
      cases he
      exact (Ok.ofSnd hf h.fetchLine).raise
    next hf =>
      dsimp only at he
      split at he
      · cases he
        exact (Ok.ofSnd hf h.fetchLine).modThr.raise
      · cases he

/-- A fetch that decodes keeps the turn's thread and gives an instruction. -/
theorem Ok.fetchTurn_run {s' : State} {u : Turn} {i : Instr} (h : Ok τ s) (he : fetchTurn s u = .run i s') :
    (∃ v, Ok (some v) s') ∧ evOf i = none := by
  unfold Machine.fetchTurn at he
  split at he
  · cases he
  · split at he
    next => cases he
    next hf =>
      dsimp only at he
      split at he
      · cases he
      next hd =>
        cases he
        exact ⟨⟨_, (Ok.ofSnd hf h.fetchLine).modThr.setTurn⟩, decodeTurn_noEvent hd⟩

/-- The instruction of a turn ends it, run or held back until its tables have been read (R470). -/
theorem Ok.runInstr {u : Turn} {i : Instr} (h : Ok τ s) (hi : evOf i = none) : NextOk (runInstr s u i) := by
  unfold Machine.runInstr
  split
  next he => exact (h.readTables he).exec hi
  · exact NextOk.next h.noTurn

/-- The invariant of O59: a turn under way belongs to a thread, and every memory is canonical. -/
def TurnAndMemory (s : State) : Prop := turnOk s = true ∧ memOk s = true

theorem Ok.inv (h : Ok none s) : TurnAndMemory s := by
  refine ⟨?_, h.2⟩
  simp only [turnOk, h.1]

theorem Ok.inv_of_thread {u : Turn} {t : Thread} (h : Ok (some u) s) (ht : s.thr? u.ep u.slot = some t) : TurnAndMemory s := by
  refine ⟨?_, h.2⟩
  simp only [turnOk, h.1, ht, Option.isSome_some]

/-- R256: the slot that ISSUE_TURN gives the turn to holds a thread. -/
theorem Ok.execIssueTurn {s' : State} {e : Nat} {lost : Bool} (h : Ok none s) (he : execIssueTurn e lost s = .next s') : TurnAndMemory s' :=
  by
  unfold Machine.execIssueTurn at he
  cases he
  split
  · exact h.inv
  · dsimp only
    have hown : Ok none (Machine.compareSlot (s.modCore e fun k => { k with cycle := (s.core e).cycle + 1 }) e ((s.core e).cycle %
        slotCount e)) :=
      h.sameMems.compareSlot
    generalize Machine.compareSlot (s.modCore e fun k => { k with cycle := (s.core e).cycle + 1 }) e ((s.core e).cycle % slotCount e) = s1
        at hown ⊢
    split
    · exact hown.inv
    next k _ =>
      have hslot : Ok none (if k == (s.core e).cycle % slotCount e then s1 else Machine.compareSlot s1 e k) := Ok.ite hown hown.compareSlot
      generalize (if k == (s.core e).cycle % slotCount e then s1 else Machine.compareSlot s1 e k) = s2 at hslot ⊢
      split
      · exact hslot.inv
      next t ht =>
        have hturn : Ok none (s2.modCore e fun x => { x with turns := tput k ((s.core e).cycle + 1) x.turns }) := hslot.sameMems
        have hthr : (s2.modCore e fun x => { x with turns := tput k ((s.core e).cycle + 1) x.turns }).thr? e k = some t :=
          (thr?_modCore_of_slots (by intro _; rfl) k).trans ht
        generalize (s2.modCore e fun x => { x with turns := tput k ((s.core e).cycle + 1) x.turns }) = s3 at hturn hthr ⊢
        split
        next hd =>
          split at hd
          · cases hd
          · exact (hturn.deliverHeld hd).inv
        · split
          · exact (Ok.reportRegs hturn.setTurn).inv
          · exact Ok.inv_of_thread hturn.setTurn hthr

theorem Ok.happen {s' : State} {ev : Ev} (h : Ok none s) (he : happen s ev = .next s') : TurnAndMemory s' := by
  unfold Machine.happen at he
  split at he
  next s1 hr =>
    have h1 : Ok none s1 := h.readTables hr
    by_cases hev : ∃ ep lost, ev = .issueTurn ep lost
    · obtain ⟨ep, lost, rfl⟩ := hev
      exact h1.execIssueTurn he
    · exact (h1.runEv (fun ep lost e => hev ⟨ep, lost, e⟩) _ he).inv
  · cases he
    exact h.inv

/-- Settles O59: a turn's instruction ends it, and without a turn only ISSUE_TURN gives one, to a slot that holds a thread. -/
theorem stepKeepsInvariant : Obligations.StepKeepsInvariant := by
  unfold Obligations.StepKeepsInvariant
  intro s s' _ hmem hstep
  have h : Ok s.turn s := ⟨rfl, hmem⟩
  unfold step at hstep
  split at hstep
  next u _ =>
    split at hstep
    next hf =>
      cases hstep
      exact (h.fetchTurn_trapped hf).inv
    next hf =>
      obtain ⟨⟨v, h1⟩, hi⟩ := h.fetchTurn_run hf
      exact (h1.runInstr hi _ hstep).inv
  next hturn =>
    rw [hturn] at h
    split at hstep
    next hocc => exact (h.nextOcc hocc).happen hstep
    · cases hstep
      exact h.startRound.inv

end Sys2Proof.Machine
end

section
/-! A handle whose settle interval runs while a thread still carries it (R207): what FORK's reference does to it, and O38. -/

namespace Sys2Proof.Machine

set_option Elab.async false

/-- A package where handle 7 has a reference and its settle interval runs. -/
def settlingPkg : Pkg :=
  { Pkg.off 0 with powered := true, lapse := [(7, { Lapse.start .request 0 0 (-1) 1 0 with settle := some 5 })] }

/-- A thread that carries handle 7, its registers all 0. -/
def settlingThread : Thread :=
  let t := Thread.start 1 0 0 0 0
  { t with pc := 0x1002, fresh := false, park := none, regs := ⟨Vector.replicate 32 0, 1, Vector.replicate 8 0, Vector.replicate 4 0⟩,
           sr := { t.sr with hnd := 7 } }

/-- Its turn, on the first core of the package. -/
def settlingTurn : Turn := ⟨0, 0, 0x1004, 0, false⟩

/-- The thread at a FORK, on a core whose deque is empty. -/
def settlingState : State :=
  { State.reset with pkgs := [(0, settlingPkg)], cores := [(0, { Core.start .compute with slots := [(0, settlingThread)] })],
                     turn := some settlingTurn }

/-- A FORK without a join address. -/
def settlingFork : Instr := .fork ⟨0, false⟩ 1 0 4

/-- The thread issues it. -/
theorem issues_settlingFork : Issues settlingState settlingTurn settlingThread settlingFork :=
  ⟨rfl, rfl, by decide, by decide, by decide, rfl, rfl⟩

/-- When a handle's settle interval ends after a step, where one runs. -/
def settleAfter (o : Host.Outcome State Fault Refusal) (pkg h : Nat) : Option (Option Nat) := match o with
  | .next s => (s.lapse? pkg h).map (·.settle)
  | _ => none

/-- R207: the arm's reference ends the settle interval. -/
theorem settleAfter_fork : settleAfter (exec settlingFork settlingState) 0 7 = some none := by decide +kernel

/-- Refutes O38: ForkAndJoin says that an arm's reference changes REF alone, and lets the thread carry any handle. A reference that is added
ends the settle interval of its handle (R207), so where that of handle 7 runs the entry after FORK differs from the statement's in `settle`.
It lacks that no settle interval runs for a handle that a thread carries. -/
theorem not_taskInstructions : ¬ Obligations.TaskInstructions := by
  unfold Obligations.TaskInstructions
  rintro ⟨hfork, -, -, -⟩
  obtain ⟨harm, -⟩ := hfork settlingState settlingTurn settlingThread ⟨0, false⟩ 1 0 4 0 ⟨0, none, 0, none, 0⟩ rfl
  obtain ⟨s', m, t', hstep, -, -, -, -, -, -, -, -, -, -, -, -, hentry, -⟩ := harm issues_settlingFork (by decide) (by decide)
  have hkept : s'.lapse? 0 7 = _ := hentry _ (by decide) rfl
  have hsettle := settleAfter_fork
  rw [settlingFork, hstep] at hsettle
  simp only [settleAfter, hkept, Option.map_some] at hsettle
  exact absurd hsettle (by decide)

end Sys2Proof.Machine
end

section
/-! The last reference of a proxy that a discarded packet held (R209, R218): where its drop report goes, and O51. -/

namespace Sys2Proof.Machine

set_option Elab.async false

/-- A packet of a handle, whose instant has passed from the start. -/
def lapsedPacket : DispPkt := ⟨[0x1000, 0, 0, 0, 0, 0, 0, 0], 0, 0, 0, 0, 0, 0, 0, ⟨0, 7, 0⟩, false⟩

/-- A dispenser that holds it, with handle 7 a proxy's and the packet its last reference. -/
def proxyState : State :=
  { State.reset with pkgs := [(0, { Pkg.off 0 with powered := true, lapse := [(7, Lapse.start .proxy 1 3 0 1 0)] })],
                     clusters := [(0, { Cluster.start with packets := [lapsedPacket] })] }

/-- Whether a drop report of a handle is under way after a step. -/
def dropsAfter (o : Host.Outcome State Fault Refusal) (pkg h : Nat) : Bool := match o with
  | .next s => s.ctl.any fun m => match m with
    | .drop p x _ _ _ => p == pkg && x == h
    | _ => false
  | _ => false

/-- R209: the report of the packet's drop is taken as the proxy ends. -/
theorem dropsAfter_dispenserExamine : dropsAfter (exec (.dispenserExamine 0 0 0) proxyState) 0 7 = false := by decide +kernel

/-- Refutes O51: PacketsDispensed says that the drop report of a packet discarded after its lapse is on its way to the instant unit, whatever
its handle. Where the packet is a proxy's last reference, the proxy ends in the same step: the reports of its drops are taken and its
counts go to the origin unit (R209), so none is under way. It lacks that the packet does not hold the last reference of a proxy. -/
theorem not_hostAndDispatchEvents : ¬ Obligations.HostAndDispatchEvents := by
  unfold Obligations.HostAndDispatchEvents
  rintro ⟨-, -, -, -, hdispensed⟩
  obtain ⟨hexamined, -⟩ := hdispensed proxyState 0 0 0 0 0 0 lapsedPacket [] 0 (Thread.start 1 0 0 0 0)
    ⟨.work 0 false false, 0, none, 0, 0, 0, 0⟩ 0 [] false ⟨0, 0, 0, 0, ⟨0, 0, 0⟩, none, false⟩
  obtain ⟨-, -, hdiscard, -⟩ := hexamined (by decide +kernel)
  obtain ⟨s', hstep, -, hreport⟩ := hdiscard (by decide +kernel) (by decide +kernel)
  obtain ⟨l, hctl⟩ := hreport (by decide)
  have hnone := dropsAfter_dispenserExamine
  rw [hstep] at hnone
  simp [dropsAfter, hctl, lapsedPacket] at hnone

end Sys2Proof.Machine
end

section
/-! The turn of a cycle (R256 to R259): which thread is runnable, which slot receives the turn, and what ISSUE_TURN does. -/

namespace Sys2Proof.Machine

set_option Elab.async false

/-- R257: the spare turn goes to the slot whose last turn is the oldest. -/
theorem turnOf_eq (s : State) (e : EP) (c : Nat) : turnOf s e c = if runnable s e (c % slotCount e) then some (c % slotCount e)
    else ((List.range (slotCount e)).filter (spareFor s e c)).argmin (lastTurn s e) := by
  have holder : (fun (best : Option Nat) k => match best with
      | none => some k
      | some b => if lastTurn s e k < lastTurn s e b then some k else some b) =
      List.argAux fun b c => lastTurn s e b < lastTurn s e c := by
    funext best k
    cases best <;> rfl
  exact congrArg (fun f => if runnable s e (c % slotCount e) then some (c % slotCount e)
    else ((List.range (slotCount e)).filter (spareFor s e c)).foldl f none) holder

/-- In a list of rising numbers a lower one stands no later. -/
theorem idxOf_le_idxOf_of_le {l : List Nat} (hl : l.Pairwise (· < ·)) {j k : Nat} (hj : j ∈ l) (hk : k ∈ l) (h : k ≤ j) :
    l.idxOf k ≤ l.idxOf j := by
  by_contra hlt
  have hless := List.pairwise_iff_getElem.1 hl _ _ (List.idxOf_lt_length_of_mem hj) (List.idxOf_lt_length_of_mem hk) (by omega)
  rw [List.getElem_idxOf, List.getElem_idxOf] at hless
  omega

/-- Of the numbers below a bound that meet a test, the lowest of those whose value is least. -/
theorem argmin_filter_range {n k : Nat} {p : Nat → Bool} {f : Nat → Nat} (hk : p k = true) (hn : k < n)
    (hleast : ∀ j, p j = true → j < n → f k < f j ∨ f k = f j ∧ k ≤ j) : ((List.range n).filter p).argmin f = some k := by
  have hmem : k ∈ (List.range n).filter p := List.mem_filter.2 ⟨List.mem_range.2 hn, hk⟩
  have hleast' : ∀ j ∈ (List.range n).filter p, f k < f j ∨ f k = f j ∧ k ≤ j := fun j hj =>
    hleast j (List.mem_filter.1 hj).2 (List.mem_range.1 (List.mem_filter.1 hj).1)
  refine List.argmin_eq_some_iff.2 ⟨hmem, fun j hj => ?_, fun j hj hle => ?_⟩
  · rcases hleast' j hj with h | h <;> omega
  · rcases hleast' j hj with h | h
    · omega
    · exact idxOf_le_idxOf_of_le (List.pairwise_lt_range.filter _) hj hmem h.2

theorem slotCount_cases (e : EP) : slotCount e = 16 ∨ slotCount e = 32 := by
  unfold slotCount
  split
  · exact .inr rfl
  · exact .inl rfl

/-- R258: a position 8 or more cycles behind and 8 or more ahead. -/
theorem spare_position_iff {n own k : Nat} (ho : own < n) (hk : k < n) : 8 ≤ (own + n - k) % n ∧ (own + n - k) % n + 8 ≤ n ↔
    8 ≤ (own + n - k) % n ∧ 8 ≤ (k + n - own) % n := by
  rcases Nat.lt_or_ge own k with h | h
  · rw [Nat.mod_eq_of_lt (by omega : own + n - k < n), Nat.mod_eq_sub_mod (by omega : n ≤ k + n - own),
      Nat.mod_eq_of_lt (by omega : k + n - own - n < n)]
    omega
  · rcases Nat.eq_or_lt_of_le h with rfl | h
    · have hself : (k + n - k) % n = 0 := by rw [Nat.add_sub_cancel_left, Nat.mod_self]
      omega
    · rw [Nat.mod_eq_sub_mod (by omega : n ≤ own + n - k), Nat.mod_eq_of_lt (by omega : own + n - k - n < n),
        Nat.mod_eq_of_lt (by omega : k + n - own < n)]
      omega

/-- Two changes of one core are one. -/
theorem modCore_modCore (s : State) (e : EP) (f g : Core → Core) : (s.modCore e f).modCore e g = s.modCore e fun c => g (f c) := by
  simp only [State.modCore, tmod_tmod]

/-- R259: a thread of no pair, with no swap on its core, is runnable where it is not stopped and is not parked, or its condition holds. -/
theorem runnable_iff {s : State} {e : EP} {k : Nat} (hw : (s.core e).swaps = []) (hp : ∀ t, s.thr? e k = some t → t.pair = none) :
    runnable s e k = true ↔ ∃ t, s.thr? e k = some t ∧ t.stopped = false ∧ ∀ p, t.park = some p → ∃ x, p.why = .again x ∧
      (t.xf = none ∨ x = .xfence ∨ x = .partner ∨ x = .released) ∧ holds s e t x = true := by
  unfold runnable
  cases ht : s.thr? e k with
  | none => simp
  | some t =>
    have hheld : heldForSwap s e k t = false := by simp [heldForSwap, hw, hp t ht]
    cases hpark : t.park with
    | none => simp [hheld, hpark]
    | some p =>
      obtain ⟨why, _⟩ := p
      cases why <;> simp [hheld, hpark, or_assoc]

/-- R217: the comparator of a slot whose thread is of no pair and has not lapsed changes nothing. -/
theorem compareSlot_of_calm {s : State} {e : EP} {k : Nat}
    (h : ∀ t, s.thr? e k = some t → t.pair = none ∧ expired s e (carryOf e t) = false) : compareSlot s e k = s := by
  have hlapsed : slotLapsed s e k = false := by
    unfold slotLapsed
    cases ht : s.thr? e k with
    | none => rfl
    | some t =>
      obtain ⟨hpair, hx⟩ := h t ht
      simpa [Thread.trails, hpair] using hx
  simp [compareSlot, hlapsed]

theorem deliverHeld_of_no_region {s : State} {e : EP} {k : Nat} {t : Thread} (h : t.region = none) : deliverHeld s e k t = none := by
  simp [deliverHeld, h]

/-- R256: a core whose next cycle has begun. -/
def Core.begun (c : Core) : Core := { c with cycle := c.cycle + 1 }

/-- R256: a core whose next cycle has begun, with a turn for a slot. -/
def Core.granted (k : Nat) (c : Core) : Core := { c.begun with turns := tput k (c.cycle + 1) c.turns }

section issue
variable {s : State} {e : EP} {lost : Bool} {c : Core} (hs : s.turn = none) (ho : coreIssues s e = true) (hc : tget s.cores e = some c)
  (hw : c.swaps = []) (hb : c.broken = [])
  (ht : ∀ k t, s.thr? e k = some t → t.pair = none ∧ t.region = none ∧ expired s e (carryOf e t) = false)

theorem thr?_begun (k : Nat) : (s.modCore e Core.begun).thr? e k = s.thr? e k := thr?_modCore_of_slots (f := Core.begun) (fun _ => rfl) k

include ht in
theorem compareSlot_begun (k : Nat) : compareSlot (s.modCore e Core.begun) e k = s.modCore e Core.begun :=
  compareSlot_of_calm fun t h => by
    obtain ⟨hpair, -, hx⟩ := ht k t (thr?_begun k ▸ h)
    exact ⟨hpair, hx⟩

include hc

theorem core_eq_of_tget : s.core e = c := by rw [State.core, hc, Option.getD_some]

theorem core_begun : (s.modCore e Core.begun).core e = c.begun := by
  rw [core_modCore_same (by rw [hc]; rfl), core_eq_of_tget hc]

theorem lastTurn_begun (k : Nat) : lastTurn (s.modCore e Core.begun) e k = (tget c.turns k).getD 0 := by
  rw [lastTurn, core_begun hc]; rfl

include hw ht in
theorem runnable_begun_iff (k : Nat) : runnable (s.modCore e Core.begun) e k = true ↔
    ∃ t, s.thr? e k = some t ∧ t.stopped = false ∧ ∀ p, t.park = some p → ∃ x, p.why = .again x ∧
      (t.xf = none ∨ x = .xfence ∨ x = .partner ∨ x = .released) ∧ holds (s.modCore e Core.begun) e t x = true := by
  have h := runnable_iff (s := s.modCore e Core.begun) (e := e) (k := k) (by rw [core_begun hc]; exact hw)
    fun t h => (ht k t (thr?_begun k ▸ h)).1
  rwa [thr?_begun] at h

/-- R257, R258: who may receive the spare turn. -/
theorem spareFor_begun_iff {k : Nat} (hk : k < slotCount e) : spareFor (s.modCore e Core.begun) e c.cycle k = true ↔
    runnable (s.modCore e Core.begun) e k = true ∧ ((tget c.turns k).getD 0 = 0 ∨ (tget c.turns k).getD 0 + 7 ≤ c.cycle) ∧
      8 ≤ (c.cycle % slotCount e + slotCount e - k) % slotCount e ∧ 8 ≤ (k + slotCount e - c.cycle % slotCount e) % slotCount e := by
  have hn : 0 < slotCount e := by rcases slotCount_cases e with h | h <;> omega
  rw [← spare_position_iff (Nat.mod_lt _ hn) hk]
  simp only [spareFor, lastTurn_begun hc, Bool.and_eq_true, Bool.or_eq_true, decide_eq_true_eq, beq_iff_eq, and_assoc]

theorem modCore_begun : (s.modCore e fun k => { k with cycle := c.cycle + 1 }) = s.modCore e Core.begun :=
  modCore_congr (by rw [core_eq_of_tget hc]; rfl)

include hs ho ht in
/-- R256: a cycle of which nobody receives the turn. -/
theorem exec_issueTurn_of_nobody (hn : turnOf (s.modCore e Core.begun) e c.cycle = none) :
    exec (.issueTurn e lost) s = .next (s.modCore e Core.begun) := by
  have hcore : s.core e = c := core_eq_of_tget hc
  rw [exec_issueTurn, execIssueTurn]
  simp only [hcore, modCore_begun hc, hs, ho, Option.isSome_none, Bool.not_true, Bool.or_self, Bool.false_eq_true, if_false,
    compareSlot_begun ht, hn]

include hs ho hb ht in
/-- R256: the slot that receives the turn is to issue. -/
theorem exec_issueTurn_of_turnOf {k : Nat} {t : Thread} (hk : s.thr? e k = some t)
    (hn : turnOf (s.modCore e Core.begun) e c.cycle = some k) :
    exec (.issueTurn e lost) s = .next { s.modCore e (Core.granted k) with turn := some ⟨e, k, t.pc, 0, lost⟩ } := by
  have hcore : s.core e = c := core_eq_of_tget hc
  have hgrant : ((s.modCore e Core.begun).modCore e fun x => { x with turns := tput k (c.cycle + 1) x.turns }) =
      s.modCore e (Core.granted k) := by
    rw [modCore_modCore]
    exact modCore_congr (by rw [hcore]; rfl)
  have hbroken : (State.core { s.modCore e (Core.granted k) with turn := some ⟨e, k, t.pc, 0, lost⟩ } e).broken = [] := by
    change ((s.modCore e (Core.granted k)).core e).broken = []
    rw [core_modCore_same (by rw [hc]; rfl), hcore]
    exact hb
  obtain ⟨-, hregion, -⟩ := ht k t hk
  rw [exec_issueTurn, execIssueTurn]
  simp only [hcore, modCore_begun hc, hs, ho, Option.isSome_none, Bool.not_true, Bool.or_self, Bool.false_eq_true, if_false,
    compareSlot_begun ht, hn, ite_self, thr?_begun, hk, hgrant, deliverHeld_of_no_region hregion, hbroken, List.contains_nil]

end issue

theorem turnsGranted : TurnsGranted := by
  unfold TurnsGranted
  intro s e lost c hs ho hc hw hb ht n own begun ready last spare granted
  have hready : ∀ k, runnable (s.modCore e Core.begun) e k = true ↔ ready k := fun k => runnable_begun_iff hc hw ht k
  have hspare : ∀ k, k < n → (spareFor (s.modCore e Core.begun) e c.cycle k = true ↔ spare k) := fun k hk => by
    rw [spareFor_begun_iff hc hk, hready]
    exact ⟨fun ⟨hr, hl, hp⟩ => ⟨hr, hk, hl, hp⟩, fun ⟨hr, _, hl, hp⟩ => ⟨hr, hl, hp⟩⟩
  refine ⟨fun t hown hr => ?_, fun k t hr hk hleast hthr => ?_, fun hr hnone => ?_⟩
  · exact exec_issueTurn_of_turnOf hs ho hc hb ht hown (by rw [turnOf_eq, if_pos ((hready own).2 hr)])
  · refine exec_issueTurn_of_turnOf hs ho hc hb ht hthr ?_
    rw [turnOf_eq, if_neg (mt (hready own).1 hr)]
    refine argmin_filter_range ((hspare k hk.2.1).2 hk) hk.2.1 fun j hj hn => ?_
    rw [lastTurn_begun hc, lastTurn_begun hc]
    exact hleast j ((hspare j hn).1 hj)
  · refine exec_issueTurn_of_nobody hs ho hc ht ?_
    rw [turnOf_eq, if_neg (mt (hready own).1 hr), List.argmin_eq_none, List.filter_eq_nil_iff]
    exact fun k hk => mt (hspare k (List.mem_range.1 hk)).1 (hnone k)

end Sys2Proof.Machine
end

section
/-! Waits that end (R260, R145, R347): WAIT_TIMEOUT, XFENCE_COMPLETE and JOIN_BUSY_RETRY, and O40. -/

namespace Sys2Proof.Machine

set_option Elab.async false

section waits
variable {s : State} {e : EP} {slot : Nat} {t : Thread} {ok : Bool}

theorem limitOver_some {l : Nat} : limitOver s e (some l) = true ↔ l < (s.core e).cycle := by simp [limitOver]

theorem limitOver_eq_false {m : Option Nat} (h : ∀ l, m = some l → (s.core e).cycle ≤ l) : limitOver s e m = false := by
  cases m with
  | none => rfl
  | some l => simpa [limitOver] using h l rfl

theorem Thread.trails_of_single (h : t.pair = none) : t.trails = false := by simp [Thread.trails, h]

theorem Thread.trails_of_lead {q : PairRef} (h : t.pair = some q) (hl : q.lead = true) : t.trails = false := by simp [Thread.trails, h, hl]

/-- R260: a timeout that ends a wait without a sum, a trap or a reservation of its own sets p7 = 0 and lets the thread go on. -/
theorem expire_of_plain {p : Park} (h : p.why ∈ [Wait.fullEmpty, .joinWatch, .work p.dst false false] ∨ ∃ c, p.why = .again c ∧
    (∀ q, c ≠ .queueRoom q) ∧ (∀ dom, c ≠ .probeFree dom) ∧ ∀ x, c ≠ .imageSettled x) :
    expire s e slot p = s.modThr e slot fun t => (t.p7 false).goTo p.next := by
  rcases h with h | ⟨c, hw, hroom, hprobe, himage⟩
  · simp only [List.mem_cons, List.not_mem_nil, or_false] at h
    rcases h with hw | hw | hw <;> simp [expire, leaveResume, hw]
  · cases c with
    | queueRoom q => exact absurd rfl (hroom q)
    | probeFree dom => exact absurd rfl (hprobe dom)
    | imageSettled x => exact absurd rfl (himage x)
    | _ => simp [expire, leaveResume, hw]

/-- R485: where the thread is not parked no trap waits for its XFENCE. -/
theorem releaseTrap_of_not_parked (ht : s.thr? e slot = some t) (hp : t.park = none) : releaseTrap s e slot = s := by
  simp [releaseTrap, ht, hp]

/-- R145: a thread whose XFENCE has ended. -/
def Thread.fenced (t : Thread) (ok : Bool) : Thread :=
  { (t.p7 ok).setSb 16 (afterXfence t) with xf := none, pair := t.pair.map fun q => { q with lvq := q.lvq.map (·.fenced ok) } }

theorem Thread.fenced_park : (t.fenced ok).park = t.park := by
  rw [Thread.fenced, Thread.setSb, Thread.p7, Thread.putP]; rfl

theorem Thread.fenced_pc : (t.fenced ok).pc = t.pc := by
  rw [Thread.fenced, Thread.setSb, Thread.p7, Thread.putP]; rfl

theorem Thread.fenced_sr : (t.fenced ok).sr = t.sr := Thread.p7_sr t ok

theorem Thread.fenced_pair : (t.fenced ok).pair = t.pair.map fun q => { q with lvq := q.lvq.map (·.fenced ok) } := rfl

/-- R145: the end of an XFENCE of a thread of no pair. -/
theorem endXfence_of_single (ht : s.thr? e slot = some t) (hq : t.pair = none) (hp : t.park = none) :
    endXfence s e slot ok = s.modThr e slot fun _ => t.fenced ok := by
  have hmod : (s.modThr e slot fun t => t.fenced ok) = s.modThr e slot fun _ => t.fenced ok := modThr_congr ht rfl
  have hthr : (s.modThr e slot fun _ => t.fenced ok).thr? e slot = some (t.fenced ok) := by rw [thr?_modThr, ht]; rfl
  have hpair : (t.fenced ok).pair = none := by rw [Thread.fenced_pair, hq]; rfl
  change releaseTrap (match ((s.modThr e slot fun t => t.fenced ok).thr? e slot).bind (·.pair) with
    | some q => (s.modThr e slot fun t => t.fenced ok).modThr e q.other (·.trailFence ok)
    | none => s.modThr e slot fun t => t.fenced ok) e slot = _
  rw [hmod, hthr, Option.bind_some, hpair]
  exact releaseTrap_of_not_parked hthr (Thread.fenced_park.trans hp)

/-- R294: the end of an XFENCE of a redundant pair's leader, for both threads. -/
theorem endXfence_of_lead {q : PairRef} (ht : s.thr? e slot = some t) (hq : t.pair = some q) (ho : q.other ≠ slot) (hp : t.park = none) :
    endXfence s e slot ok = (s.modThr e slot fun _ => t.fenced ok).modThr e q.other (·.trailFence ok) := by
  have hmod : (s.modThr e slot fun t => t.fenced ok) = s.modThr e slot fun _ => t.fenced ok := modThr_congr ht rfl
  have hthr : (s.modThr e slot fun _ => t.fenced ok).thr? e slot = some (t.fenced ok) := by rw [thr?_modThr, ht]; rfl
  have hpair : (t.fenced ok).pair = some { q with lvq := q.lvq.map (·.fenced ok) } := by rw [Thread.fenced_pair, hq]; rfl
  change releaseTrap (match ((s.modThr e slot fun t => t.fenced ok).thr? e slot).bind (·.pair) with
    | some q => (s.modThr e slot fun t => t.fenced ok).modThr e q.other (·.trailFence ok)
    | none => s.modThr e slot fun t => t.fenced ok) e slot = _
  rw [hmod, hthr, Option.bind_some, hpair]
  exact releaseTrap_of_not_parked ((thr?_modThr_slot _ e _ ho.symm).trans hthr) (Thread.fenced_park.trans hp)

section events
variable (ht : s.thr? e slot = some t)
include ht

/-- R260: the timeout of a parked thread with no XFENCE. -/
theorem exec_waitTimeout_of_parked {p : Park} (hx : t.xf = none) (hp : t.park = some p) (hl : limitOver s e p.limit = true)
    (hw : ∀ c, p.why = .again c → holds s e t c = false) : exec (.waitTimeout e slot) s = .next (expire s e slot p) := by
  rw [exec_waitTimeout, execWaitTimeout]
  simp only [ht, hx, Option.filter_none, hp, hl, Bool.not_true, Bool.false_eq_true, if_false]
  split
  next c hc => rw [hw c hc]; rfl
  next => rfl

/-- R145: the timeout of a pending XFENCE. -/
theorem exec_waitTimeout_of_fence {x : XFence} (hx : t.xf = some x) (hq : t.trails = false) (hl : limitOver s e x.limit = true) :
    exec (.waitTimeout e slot) s = .next (endXfence s e slot false) := by
  rw [exec_waitTimeout, execWaitTimeout]
  simp only [ht, hx, hq, Option.filter_some, Bool.not_false, if_true, hl]

/-- R145: the completion of a pending XFENCE that is not past its timeout. -/
theorem exec_xfenceComplete_of_pending {x : XFence} (hx : t.xf = some x) (hq : t.trails = false) (hl : limitOver s e x.limit = false) :
    exec (.xfenceComplete e slot) s = .next (
      if (xfAdvance s e t x).step2 && xfWritten s e (xfAdvance s e t x) then endXfence s e slot true
      else s.modThr e slot fun t' => { t' with xf := some (xfAdvance s e t x) }) := by
  rw [exec_xfenceComplete, execXfenceComplete]
  simp only [ht, hx, hq, hl, Bool.false_eq_true, if_false]

/-- R347: the fresh read of a JOIN whose last answer was busy. -/
theorem exec_joinBusyRetry_of_route {p : Park} {w : Nat} {ja : Word} {r : Route} (hp : t.park = some p) (hw : p.why = .joinBusy w)
    (hn : w ≤ (s.core e).cycle) (hr : joinRoute s e t p.operand true = .ok (ja, r)) :
    exec (.joinBusyRetry e slot) s = .next (({ s with nextUid := s.nextUid + 1 }.send e r.dst (vcOfThread s e t)
      (reqOf e slot t (16 + 32 * s.nextUid) r.ebit) (carryOf e t) (.access r.vcore r.off r.phys .joinRead none false false)).modThr e slot
        fun t => { t with park := some { p with why := .joinWatch, ser := s.nextUid } }) := by
  rw [exec_joinBusyRetry, execJoinBusyRetry]
  simp only [ht, hp, hw, hr, Nat.not_lt.2 hn, if_false]

end events

/-- R145: an XFENCE whose second step has begun stands as it is. -/
theorem xfAdvance_of_step2 {x : XFence} (h : x.step2 = true) : xfAdvance s e t x = x := by simp [xfAdvance, h]

/-- R145: step 2 of an XFENCE begins only once its paths are drained. -/
theorem xfAdvance_of_undrained {x : XFence} (h : drainedMask s e t x.frm x.hostUpTo = false) : xfAdvance s e t x = x := by
  simp [xfAdvance, h]

theorem xfWritten_iff {x : XFence} : xfWritten s e x = true ↔
    (∀ q ∈ (s.core e).destQ, x.destUpTo ≤ q.num) ∧ ∀ q ∈ (s.core e).tileQ, x.tileUpTo ≤ q.num := by
  simp [xfWritten]

/-- R294: the trailing thread once it has learnt what its leader's XFENCE has set. -/
theorem Thread.trailFence_of_pending {x : XFence} (hx : t.xf = some x) :
    (t.trailFence ok).xf = none ∧ (t.trailFence ok).regs = (t.p7 ok).regs := by
  simp [Thread.trailFence, hx]

end waits

theorem waitsEnd : WaitsEnd := by
  unfold WaitsEnd
  intro s e slot t ht now
  refine ⟨fun p l hx hp hlim hl hw => ?wait, fun x l hq hx hlim hl hp => ?fence, fun x hq hx hp hl h2 hdest htile => ?complete,
    fun x l q o y hq hlead hne hx hlim hl hp ho hy _ => ?pair, fun x hq hx hl h2 hd => ?pending, fun p w ja r hp hw hn hr => ?retry⟩
  case wait =>
    have hover : limitOver s e p.limit = true := by rw [hlim]; exact limitOver_some.2 hl
    have hholds : ∀ c, p.why = .again c → holds s e t c = false := fun c hc => by
      rcases hw with hw | ⟨c', hc', hf, -⟩
      · simp [hc] at hw
      · obtain rfl : c' = c := by rw [hc] at hc'; injection hc' with h; exact h.symm
        exact hf
    rw [exec_waitTimeout_of_parked ht hx hp hover hholds, expire_of_plain]
    exact hw.imp_right fun ⟨c, hc, _, hnot⟩ => ⟨c, hc, hnot⟩
  case fence =>
    have hover : limitOver s e x.limit = true := by rw [hlim]; exact limitOver_some.2 hl
    refine ⟨t.fenced false, ?_, rfl, rfl, Thread.fenced_sr, Thread.fenced_pc⟩
    rw [exec_waitTimeout_of_fence ht hx (Thread.trails_of_single hq) hover, endXfence_of_single ht hq hp]
  case complete =>
    refine ⟨t.fenced true, ?_, rfl, rfl, Thread.fenced_sr, Thread.fenced_pc⟩
    rw [exec_xfenceComplete_of_pending ht hx (Thread.trails_of_single hq) (limitOver_eq_false hl), xfAdvance_of_step2 h2, h2,
      xfWritten_iff.2 ⟨hdest, htile⟩, Bool.and_self, if_pos rfl, endXfence_of_single ht hq hp]
  case pair =>
    have hover : limitOver s e x.limit = true := by rw [hlim]; exact limitOver_some.2 hl
    obtain ⟨hxf, hregs⟩ := Thread.trailFence_of_pending (ok := false) hy
    refine ⟨_, t.fenced false, o.trailFence false, exec_waitTimeout_of_fence ht hx (Thread.trails_of_lead hq hlead) hover, ?_, ?_, rfl, rfl,
      hxf, hregs⟩
    · rw [endXfence_of_lead ht hq hne hp, thr?_modThr_slot _ _ _ hne.symm, thr?_modThr, ht]; rfl
    · rw [endXfence_of_lead ht hq hne hp, thr?_modThr, thr?_modThr_slot _ _ _ hne, ho]; rfl
  case pending =>
    rw [exec_xfenceComplete_of_pending ht hx (Thread.trails_of_single hq) (limitOver_eq_false hl), xfAdvance_of_undrained hd, h2,
      Bool.false_and, if_neg Bool.false_ne_true]
  case retry =>
    refine ⟨_, _, { t with park := some { p with why := .joinWatch, ser := s.nextUid } }, _, exec_joinBusyRetry_of_route ht hp hw hn hr,
      rfl, rfl, rfl, rfl, rfl, ?_, rfl, rfl, rfl, rfl, rfl⟩
    rw [thr?_modThr]
    exact congrArg (Option.map _) ht

/-- Settles O40: the turn by who is runnable, and each end of a wait by what its event tests. -/
theorem turnEvents : Obligations.TurnEvents := ⟨turnsGranted, waitsEnd⟩

end Sys2Proof.Machine
end
